-- ==== Sys2Proof/Word.lean ====
section
/-! DEFINITION. The words of the Orboder (spec 00: R6, R7) and the one representation of sparse data.

A capsule, record or Haul word is 64 bits; a Yard word is 32 bits; memory is addressed by bytes.
Numbers that software reads as bits are bit vectors; counts, indices and addresses used as keys are `Nat`. -/

namespace Sys2Proof

/-- One byte. -/
abbrev Byte := BitVec 8
/-- A 32-bit word (a Yard word, a vector lane). -/
abbrev W32 := BitVec 32
/-- A 64-bit word (a capsule word, a scalar register). -/
abbrev W64 := BitVec 64
/-- One 32-byte block of the Yard, bit k being bit (k mod 8) of byte (k div 8) (spec 07, "Check storage"). -/
abbrev Block256 := BitVec 256

/-- Sparse data by number: the entries that differ from what an unlisted number reads as,
in strictly rising order of their numbers (`Table.wf` of Machine/Table.lean). -/
abbrev Table (α : Type) := List (Nat × α)

/-- bits(x, m, l) of Table 0.3: x[m:l] as a number. -/
def bits {w : Nat} (x : BitVec w) (m l : Nat) : Nat := (x.toNat >>> l) % 2 ^ (m + 1 - l)

/-- One bit of a word as a truth value. -/
def bit {w : Nat} (x : BitVec w) (k : Nat) : Bool := x.getLsbD k

/-- The truth value as a bit of a word. -/
def b2n (b : Bool) : Nat := if b then 1 else 0

end Sys2Proof
end

