-- ==== Sys2Proof/Syntax.lean ====
section
/-! DEFINITION. The commands of the block: one constructor of `Instr` per row of spec/opcode_table.json,
with the operands that come from outside the block (a core program's instruction takes its own operands from
the slot word at the head of that core's slot queue, R160, so its row carries only the core number). -/

namespace Sys2Proof

/-- The four slots of a bundle, in program order (R157). -/
inductive Slot where | p | t | m | c
  deriving DecidableEq, Repr, Inhabited

/-- What the tests of Table 18.3 found (R522): outside facts of one run of the built-in tests. -/
structure TestReport where
  /-- failing Pens: core, Pen, newly failed row and column (16: none), and whether soft repair mends it -/
  pens : List (Nat × Nat × Nat × Nat × Bool)
  /-- failing Yard words: core, bank, row, word (R218) -/
  yard : List (Nat × Nat × Nat × Nat)
  /-- core pairs lost to a mesh, codebook or instruction memory failure -/
  pairs : List Nat
  /-- sensors that fail their self-check (R426) -/
  sensors : List Nat
  deriving DecidableEq, Repr, Inhabited

/-- What the cold start meets outside the block (Table 18.2). -/
structure BootReport where
  /-- the SFDP tables hold every item of R499 -/
  sfdpOk : Bool
  /-- the signature of the calibration row passes (R501) -/
  calOk : Bool
  /-- image A passes the checks of R503 -/
  imageA : Bool
  /-- image B passes the checks of R503 -/
  imageB : Bool
  /-- the start-up tests of the entropy source pass (R439) -/
  entropyOk : Bool
  tests : TestReport
  deriving DecidableEq, Repr, Inhabited

/-- A PTP message as received: its fields, the hardware time stamps of R34 and the best transmitter's data. -/
structure PtpMsg where
  /-- every option the message uses is in the Supported column of Table 2.2 -/
  supported : Bool
  domain : BitVec 8
  /-- port identity of the sender -/
  source : BitVec 80
  seqId : BitVec 16
  twoStep : Bool
  /-- the time stamp the message carries, in nanoseconds -/
  stamp : W64
  /-- the local Tally at which the message crossed the PCS -/
  local_ : W64
  /-- local Tally at which the Delay_Req answered by this message was sent -/
  reqSent : W64
  /-- correction field in nanoseconds -/
  correction : Int
  /-- sync interval that an Announce gives, in nanoseconds -/
  syncInterval : Nat
  /-- rank of the sender's clock under IEEE 1588-2019, smaller is better -/
  rank : Nat
  /-- boundary-clock hops between the grandmaster and this device -/
  hops : Nat
  utcValid : Bool
  utcOffset : Int
  deriving DecidableEq, Repr, Inhabited

/-- Who sends a push or a message (R256): a core program, or one of a core's channels. -/
inductive Sender where
  | program (core : Nat)
  | channel (core ch : Nat)
  deriving DecidableEq, Repr, Inhabited

/-- The reader that met an uncorrectable block (Table 7.5), or the memory of the core whose own check failed (R140, R141, R193). -/
inductive Requester where
  /-- SLD, VLD or VLDS: the instruction of that bundle -/
  | load (bundle : Nat)
  /-- a PLDW in flight, and the unit mask it names -/
  | pldw (idx : Nat)
  /-- the running Trough pass: failing row, and the column of a failing output word -/
  | trough (row col : Nat)
  /-- the activation bank of the running pass, for an element of a row -/
  | bank (row : Nat)
  /-- a block of a book in codebook memory -/
  | book (b k : Nat)
  /-- the decode tables: a parity error on a lookup of the running pass -/
  | lookup
  /-- a bundle in instruction memory, fetched ahead -/
  | fetch (bundle : Nat)
  | pconv (bundle : Nat)
  /-- a CBLD in flight, and how many entries it had written before the block -/
  | cbld (idx written : Nat)
  | imld (bundle : Nat)
  | haul (bundle : Nat)
  | tpass (bundle : Nat)
  /-- a piece that takes data out of the slice -/
  | piece (pid : Nat)
  | mergeDrain
  | patrol
  deriving DecidableEq, Repr, Inhabited

/-- What the controller's checks of one read of an external memory channel gave (R283). -/
inductive MemCheck where
  | good
  /-- a single-bit link error, corrected -/
  | corrected
  /-- an uncorrectable link error that two more reads did not mend -/
  | linkUncorr
  /-- a MAC mismatch that a second read did not mend -/
  | macFail
  deriving DecidableEq, Repr, Inhabited

/-- One page that a Translation Completion reports: page number within the 64 KiB group, permissions, base. -/
structure AtsPage where
  page : Nat
  r : Bool
  w : Bool
  hpa : Nat
  /-- the U bit -/
  u : Bool
  /-- the Global bit (Table 9.5) -/
  global : Bool
  deriving DecidableEq, Repr, Inhabited

/-- A Translation Completion (R294, Table 9.6). -/
structure AtsResult where
  /-- Unsupported Request -/
  denied : Bool
  /-- page size of the completion: 4096, 2 MiB or 1 GiB -/
  size : Nat
  pages : List AtsPage
  deriving DecidableEq, Repr, Inhabited

/-- A PRG Response (R295). -/
inductive PrgCode where | success | invalidRequest | responseFailure
  deriving DecidableEq, Repr, Inhabited

/-- A queue table entry as the device reads it from host memory (Table 10.4), and whether a reserved field is set. -/
structure QueueEntry where
  context : Nat
  paddock : Nat
  ring : Nat
  share : Nat
  valid : Bool
  save : Nat
  reservedZero : Bool
  deriving DecidableEq, Repr, Inhabited

/-- One chunk of an intake after decryption (R451). -/
structure IntakeChunk where
  data : List Byte
  tagOk : Bool
  checkOk : Bool
  deriving DecidableEq, Repr, Inhabited

/-- What the read of an IMAGE object in host space gave: its bytes, or the code of the failed read. -/
inductive ImageRead where
  | bytes (b : List Byte)
  | failed (code : BitVec 16)
  deriving DecidableEq, Repr, Inhabited

/-- Frame types of Table 12.3. -/
inductive FrameType where
  | hello | write | readReq | readRsp | ack | nak | musterArrive | musterRelease
  deriving DecidableEq, Repr, Inhabited

/-- A Drove frame: the header of Table 12.2 and its payload. -/
structure DroveFrame where
  type : FrameType
  ver : BitVec 4
  /-- TYPE is not reserved, every reserved bit is zero and LEN agrees with the UDP length (R385) -/
  wellFormed : Bool
  hops : BitVec 5
  dst : BitVec 16
  src : BitVec 16
  dpdk : BitVec 3
  spdk : BitVec 3
  inc : BitVec 8
  psn : BitVec 24
  ackPsn : BitVec 24
  crLim : BitVec 24
  len : BitVec 13
  code : BitVec 16
  arg : W64
  payload : List Byte
  deriving DecidableEq, Repr, Inhabited

/-- The uncore event counts of one 2 us interval (Table 13.2); the cores' own events are counted in the block's state. -/
structure Activity where
  /-- beats times hops on the mesh -/
  meshBeats : Nat
  /-- 64-byte bursts of the LPDDR5X channels -/
  bursts : Nat
  /-- 256-byte UCIe flits -/
  flits : Nat
  /-- Drove frames -/
  frames : Nat
  deriving DecidableEq, Repr, Inhabited

/-- One sensor's reading (R426). -/
structure SensorReading where
  valid : Bool
  temp : Int
  deriving DecidableEq, Repr, Inhabited

/-- What the flash answered to a program (R494, R511, R512). -/
inductive FlashStatus where | ok | notErased | verify | worn
  deriving DecidableEq, Repr, Inhabited

/-- Reset causes of Table 15.2. -/
inductive ResetCause where
  | hang | droverFault | partitionReset | watchdog | deviceReset | supplyReset | thermalCrit
  deriving DecidableEq, Repr, Inhabited

/-- A Dzient request (Table 16.2) with the outcome of the flash program that its value needs (R494). -/
structure DzRequest where
  tag : BitVec 16
  index : BitVec 16
  sub : BitVec 8
  more : Bool
  offset : Nat
  len : Nat
  data : List Byte
  flash : FlashStatus
  deriving DecidableEq, Repr, Inhabited

/-- What unwrapping a bundle key and reading its header gave (R450). -/
structure BundleUnwrap where
  /-- the key unwraps for this Paddock and incarnation (R449) -/
  keyOk : Bool
  /-- the TAG of the header passes -/
  tagOk : Bool
  /-- the 512 header bytes read from host memory -/
  header : List Byte
  deriving DecidableEq, Repr, Inhabited

/-- An SPDM request as the device reads it: supported algorithms and slot, the requester's nonce, its chain's outcome. -/
structure SpdmMsg where
  /-- version, algorithms and options lie in the Supported column of Table 14.4 -/
  supported : Bool
  slot : Nat
  nonce : W64
  /-- mutual authentication was asked for and the chain ends at an operator root (R490) -/
  chainOk : Bool
  /-- bytes asked for, of a certificate or a chunk -/
  offset : Nat
  length : Nat
  /-- the requester's proof of FINISH or KEY_UPDATE passes -/
  proofOk : Bool
  deriving DecidableEq, Repr, Inhabited

/-- What a 256-byte line read reported (R506, R511). -/
structure LineCheck where
  corrected : Nat
  uncorrectable : Bool
  tagOk : Bool
  deriving DecidableEq, Repr, Inhabited

/-- The commands of the block. -/
inductive Instr where
  /-- POWER_ON_RESET_ASSERT (R516). BLK_PORST_N driven low stops the block at once, with no crash record, and holds the pins as Table 18.1 gives. -/
  | powerOnResetAssert
  /-- COLD_START (R518). The rising edge of BLK_PORST_N starts the cold-start stages of Table 18.2. -/
  | coldStart (b : BootReport)
  /-- COLD_START_READY (R518). When channel and UCIe training both complete, stage 8 ends and GLB_STATUS.READY is set. -/
  | coldStartReady (ms : BitVec 32)
  /-- TALLY_START_TIMEOUT (R519). With source 0 and no good frame within 100 ms of the epoch write, the Tally starts counting from 0. -/
  | tallyStartTimeout
  /-- TC_SER_FRAME (R30). A complete 80-bit TC_SER frame is checked against the local count; a good frame sets or disciplines the Tally and a bad one is counted. -/
  | tcSerFrame (bits : BitVec 80) (edges : Nat)
  /-- TC_CLK_LOSS (R30). No TC_CLK edge for 1 ms puts the Tally into holdover. -/
  | tcClkLoss
  /-- TALLY_DIVERGED (R32). While a backward offset exceeds 100 ms, the Shepherd posts TALLY_DIVERGED once each second. -/
  | tallyDiverged
  /-- PTP_SYNC (R34). A received PTP Sync message on port 0 is timestamped and used toward the offset. -/
  | ptpSync (m : PtpMsg)
  /-- PTP_FOLLOW_UP (R34). A received PTP Follow_Up completes a two-step Sync. -/
  | ptpFollowUp (m : PtpMsg)
  /-- PTP_DELAY_RESP (R34). A received PTP Delay_Resp completes the delay exchange and yields an offset. -/
  | ptpDelayResp (m : PtpMsg)
  /-- PTP_ANNOUNCE (R46). A received PTP Announce selects the time transmitter and may set the calendar from PTP time. -/
  | ptpAnnounce (m : PtpMsg)
  /-- PTP_ANNOUNCE_TIMEOUT (R34). Expiry of the Announce receipt timeout loses source 1. -/
  | ptpAnnounceTimeout
  /-- PTP_SYNC_TIMEOUT (R34). No accepted Sync for four sync intervals or 1 s loses source 1. -/
  | ptpSyncTimeout
  /-- VBAT_CAL_LOSS (R47). VBAT_CAL below its minimum clears CAL_VALID and restarts the calendar from zero. -/
  | vbatCalLoss
  /-- CALENDAR_ANCHOR (R48). Every 3,600 s of Tally time the Shepherd takes a Tally and calendar anchor, posts it and logs it. -/
  | calendarAnchor
  /-- TLY_NOW_LOW_READ (R50). A 32-bit read of the low half of TLY_NOW latches the high half into TLY_NOW_HI_LATCH. -/
  | tlyNowLowRead
  /-- STEP_START (R373). A STEP_START alarm fires, closing the step batch and scheduling release of the Paddock's cores. -/
  | stepStart (slot : Nat)
  /-- MUSTER_DEADLINE (R265). The Paddock's MUSTER_DEADLINE alarm fires and times out every round whose deadline has been reached, then re-arms. -/
  | musterDeadline (slot : Nat)
  /-- POWER_PHASE (R417). A POWER_PHASE alarm fires and announces its phase tag to the cap controller. -/
  | powerPhase (slot : Nat)
  /-- HEARTBEAT (R465). The 1 ms HEARTBEAT alarm increments SHP_HB, feeds the watchdog and runs the progress check of every Paddock. -/
  | heartbeat (slot : Nat)
  /-- SNAPSHOT (R496). A SNAPSHOT alarm fires and samples its counter set at one Tally value. -/
  | snapshot (slot : Nat)
  /-- HOST_EVENT (R36). A HOST_EVENT alarm fires and posts an event record to the owning context. -/
  | hostEvent (slot : Nat)
  /-- BUNDLE_DISPATCH (R160). The sequencer dispatches the next bundle in program order into the slot queues, claiming scoreboard entries. -/
  | bundleDispatch (core : Nat)
  /-- NOP (R158). A NOP slot does nothing. -/
  | nop (core : Nat) (slot : Slot)
  /-- PISSUE (R65). Issues one activation vector to the named Pens or Folds, optionally switching shadows. -/
  | pissue (core : Nat)
  /-- PEN_SLOT_WRITE (R76). At the end of its latency an issue writes its accumulator slots and sets arithmetic flags. -/
  | penSlotWrite (core : Nat)
  /-- PSWAP (R89). Switches the shadow weights into the weight registers of the named units. -/
  | pswap (core : Nat)
  /-- PFOLD (R93). Joins or splits Folds once their Pens are idle. -/
  | pfold (core : Nat)
  /-- PCONV (R109). Runs a forerunner convolution walk from a descriptor as a sequence of issues. -/
  | pconv (core : Nat)
  /-- PDRN (R84). Copies accumulator slots of the named units into a vector register, plain or summed. -/
  | pdrn (core : Nat)
  /-- PLDW (R86). Loads a tile into the shadow weights of the named units from the Yard, optionally decoding codes. -/
  | pldw (core : Nat)
  /-- PLDW_COMPLETE (R87). The last row of a load is written to H and the shadow becomes FULL. -/
  | pldwComplete (core : Nat)
  /-- PSKARM (R95). Arms the named units to take the next skid-chain front of a generation. -/
  | pskarm (core : Nat)
  /-- SKID_MARKER_ARRIVE (R95). A front marker reaches a core and is taken, held until units are armed, or refused with SKID_ORDER. -/
  | skidMarkerArrive (core : Nat)
  /-- SKID_BEAT_ARRIVE (R97). A front beat lands its rows in armed shadows and is forwarded to the next core. -/
  | skidBeatArrive (core : Nat)
  /-- TPASS (R128). Queues one Trough pass from a descriptor after checking it. -/
  | tpass (core : Nat)
  /-- TPASS_COMPLETE (R134). A pass completes L_T cycles after its last code read and writes Sd. -/
  | tpassComplete (core : Nat)
  /-- TACT (R126). Fills 256 elements of an activation bank from a vector register. -/
  | tact (core : Nat)
  /-- CBLD (R122). Loads codebook entries into a book, clearing it first on a change of owner. -/
  | cbld (core : Nat)
  /-- CBLD_COMPLETE (R122). After the last write the book takes its owner, format and scale, becomes VALID and advances its generation. -/
  | cbldComplete (core : Nat)
  /-- VADD (R176). Adds operand b to VA lane by lane. -/
  | vadd (core : Nat)
  /-- VSUB (R176). Subtracts operand b from VA lane by lane. -/
  | vsub (core : Nat)
  /-- VMUL (R176). Multiplies VA by operand b lane by lane. -/
  | vmul (core : Nat)
  /-- VFMA (R176). Computes VA times b plus VC with one rounding. -/
  | vfma (core : Nat)
  /-- VMIN (R168). Lane-wise IEEE minimum. -/
  | vmin (core : Nat)
  /-- VMAX (R168). Lane-wise IEEE maximum. -/
  | vmax (core : Nat)
  /-- VABS (R168). Lane-wise absolute value of VA. -/
  | vabs (core : Nat)
  /-- VNEG (R168). Lane-wise negation of VA. -/
  | vneg (core : Nat)
  /-- VAND (R168). Bitwise AND on INT32 lanes. -/
  | vand (core : Nat)
  /-- VOR (R168). Bitwise OR on INT32 lanes. -/
  | vor (core : Nat)
  /-- VXOR (R168). Bitwise XOR on INT32 lanes. -/
  | vxor (core : Nat)
  /-- VSHL (R168). Shifts INT32 lanes left by b mod 32. -/
  | vshl (core : Nat)
  /-- VSHR (R168). Shifts INT32 lanes right logically by b mod 32. -/
  | vshr (core : Nat)
  /-- VSRA (R168). Shifts INT32 lanes right arithmetically by b mod 32. -/
  | vsra (core : Nat)
  /-- VCMP (R168). Writes a predicate register from a lane-wise comparison. -/
  | vcmp (core : Nat)
  /-- VSEL (R168). Selects VA or b lane by lane under a predicate. -/
  | vsel (core : Nat)
  /-- VCVT (R169). Converts lanes between FP32, BF16, INT32, INT8, E4M3 and E5M2. -/
  | vcvt (core : Nat)
  /-- VFUN (R177). Evaluates EXP2, EXP, LOG2, RCP, RSQRT, SQRT, TANH or SIGMOID on each lane. -/
  | vfun (core : Nat)
  /-- VRED (R176). Reduces the unmasked lanes of VA by sum, max or min into every written lane. -/
  | vred (core : Nat)
  /-- VPERM (R168). Permutes VA by the lane indices in VB. -/
  | vperm (core : Nat)
  /-- VEXT (R169). Extracts one lane of VA into a scalar register. -/
  | vext (core : Nat)
  /-- VPACK (R170). Packs lanes into INT8, INT4, code or BF16 layouts. -/
  | vpack (core : Nat)
  /-- VUNPK (R170). Unpacks a packed layout into lanes. -/
  | vunpk (core : Nat)
  /-- VSORT (R178). Stably sorts the unmasked lanes, writing values and source lanes. -/
  | vsort (core : Nat)
  /-- VTKCLR (R179). Empties the top-k list and sets k, type and direction. -/
  | vtkclr (core : Nat)
  /-- VTKADD (R179). Offers the unmasked non-NaN lanes to the top-k list. -/
  | vtkadd (core : Nat)
  /-- VTKGET (R179). Writes the top-k list, best first, to two vector registers. -/
  | vtkget (core : Nat)
  /-- VSAMP (R180). Draws one lane in proportion to its weight. -/
  | vsamp (core : Nat)
  /-- VIOTA (R168). Writes each lane's index as INT32. -/
  | viota (core : Nat)
  /-- SLD (R171). Loads a scalar from the core's Yard slice. -/
  | sld (core : Nat)
  /-- SST (R171). Stores a scalar to the core's Yard slice. -/
  | sst (core : Nat)
  /-- VLD (R204). Loads 256 contiguous elements into a vector register. -/
  | vld (core : Nat)
  /-- VST (R204). Stores 256 lanes to contiguous Yard bytes. -/
  | vst (core : Nat)
  /-- VLDS (R204). Loads 256 lanes at a stride. -/
  | vlds (core : Nat)
  /-- VSTS (R204). Stores 256 lanes at a stride. -/
  | vsts (core : Nat)
  /-- HAUL (R231). Launches a Haul program on a Skidder channel after checking it. -/
  | haul (core : Nat)
  /-- CHPUSH (R254). Pushes a handle into a Chute of this or another core after prior writes are granted. -/
  | chpush (core : Nat)
  /-- CHPOP (R254). Removes the oldest handle from a Chute of the core, waiting while it is empty. -/
  | chpop (core : Nat)
  /-- IMLD (R194). Copies bundles from a guarded Yard region into instruction memory. -/
  | imld (core : Nat)
  /-- ADD (R173). 64-bit wrapping addition. -/
  | add (core : Nat)
  /-- SUB (R173). 64-bit wrapping subtraction. -/
  | sub (core : Nat)
  /-- AND (R173). 64-bit bitwise AND. -/
  | and (core : Nat)
  /-- OR (R173). 64-bit bitwise OR. -/
  | or (core : Nat)
  /-- XOR (R173). 64-bit bitwise XOR. -/
  | xor (core : Nat)
  /-- SHL (R173). Shift left by b mod 64. -/
  | shl (core : Nat)
  /-- SHR (R173). Logical shift right by b mod 64. -/
  | shr (core : Nat)
  /-- SRA (R173). Arithmetic shift right by b mod 64. -/
  | sra (core : Nat)
  /-- MUL (R173). Multiply keeping the low 64 bits. -/
  | mul (core : Nat)
  /-- MIN (R173). Signed minimum. -/
  | min (core : Nat)
  /-- MAX (R173). Signed maximum. -/
  | max (core : Nat)
  /-- MINU (R173). Unsigned minimum. -/
  | minu (core : Nat)
  /-- MAXU (R173). Unsigned maximum. -/
  | maxu (core : Nat)
  /-- SLT (R173). Writes 1 when A is signed-less than b, else 0. -/
  | slt (core : Nat)
  /-- SLTU (R173). Writes 1 when A is unsigned-less than b, else 0. -/
  | sltu (core : Nat)
  /-- BR (R164). Conditional branch to a target bundle. -/
  | br (core : Nat)
  /-- LOOP (R165). Runs the following bundles up to END COUNT times. -/
  | loop (core : Nat)
  /-- MFC (R174). Reads a PEN_ register of the core into a scalar register. -/
  | mfc (core : Nat)
  /-- MTC (R174). Writes a PEN_ register of the core under its access code. -/
  | mtc (core : Nat)
  /-- MSEND (R182). Places a 64-bit value in a message-mode Chute of a core. -/
  | msend (core : Nat)
  /-- MRECV (R182). Removes the oldest message from a Chute of the core, waiting while it is empty. -/
  | mrecv (core : Nat)
  /-- MESSAGE_ARRIVE (R183). A message or remote push reaches its target Chute after the mesh latency. -/
  | messageArrive (src : Nat) (dst : Nat)
  /-- MUSTER (R263). Registers the core's arrival at a Muster round and waits for release. -/
  | muster (core : Nat)
  /-- MUSTER_LEAD_RELEASE (R264). At the completion Tally plus LEAD, or the fabric release instant, participants are released. -/
  | musterLeadRelease (pdk : Nat) (id : Nat)
  /-- FSIGNAL (R174). Signals a fence from a core program and writes the status. -/
  | fsignal (core : Nat)
  /-- FWAIT (R174). Waits until a fence reaches a value or carries an error. -/
  | fwait (core : Nat)
  /-- KERF (R184). A Kerf point that yields if a pre-emption request is pending, else writes 0. -/
  | kerf (core : Nat)
  /-- CORE_YIELD (R184). When the drain completes, the core yields and the Drover saves its state to the frame. -/
  | coreYield (core : Nat)
  /-- YSYNC (R163). Stops dispatch until every earlier Yard write of the core is complete. -/
  | ysync (core : Nat)
  /-- TLY (R173). Reads the core's local Tally. -/
  | tly (core : Nat)
  /-- RAND (R181). Takes 64 bits from the core's random source. -/
  | rand (core : Nat)
  /-- TRAP (R189). Raises SOFT_TRAP with a code. -/
  | trap (core : Nat)
  /-- HALT (R150). Stops the core; the job completes when every core has halted. -/
  | halt (core : Nat)
  /-- PSET (R173). Sets every lane of a predicate register from a scalar comparison. -/
  | pset (core : Nat)
  /-- PHASE (R417). Announces the core's entry into a power phase at issue plus LEAD. -/
  | phase (core : Nat)
  /-- SEM_TICKET_TAKE (R365). An MFC of PEN_SEM_TKT returns the next ticket and advances it. -/
  | semTicketTake (core : Nat)
  /-- SEM_RELEASE (R365). An MTC to PEN_SEM_REL releases a granted ticket and the Drover signals the fence. -/
  | semRelease (core : Nat)
  /-- CHUTE_MODE_WRITE (R252). An MTC of PEN_CHT.MODE changes a Chute between message and handle mode. -/
  | chuteModeWrite (core : Nat)
  /-- CHAIN_WRITE (R249). An MTC of PEN_CHAIN sets the next core of the skid chain. -/
  | chainWrite (core : Nat)
  /-- STEP_AREA_WRITE (R378). An MTC of PEN_STEP_AREA sets where the Drover writes the batch list. -/
  | stepAreaWrite (core : Nat)
  /-- CHANNEL_HALT_ACK (R234). Writing 1 to PEN_SKD_STAT.HALT returns a halted channel to IDLE. -/
  | channelHaltAck (core : Nat)
  /-- CHANNEL_STOP (R248). Writing 1 to PEN_SKD_CTL.STOP stops a running channel and any tile stream. -/
  | channelStop (core : Nat)
  /-- REGISTER_WRITE (R8). A write to a register with no behaviour of its own takes effect under its access code. -/
  | registerWrite (off : Nat) (width : Nat) (value : BitVec 64)
  /-- HAUL_END (R232). The channel stops issuing; it becomes IDLE when its requests complete. -/
  | haulEnd (core : Nat) (ch : Nat)
  /-- CHANNEL_IDLE (R232). Every request of an ended channel has completed and it becomes IDLE. -/
  | channelIdle (core : Nat) (ch : Nat)
  /-- HAUL_BASE (R237). Sets a generator's space and base. -/
  | haulBase (core : Nat) (ch : Nat)
  /-- HAUL_STRIDE (R238). Sets a generator's stride for one loop level. -/
  | haulStride (core : Nat) (ch : Nat)
  /-- HAUL_LOOP (R238). Starts a Haul loop level, or skips its body for a count of zero. -/
  | haulLoop (core : Nat) (ch : Nat)
  /-- MOVE (R239). Copies bytes from the source to the destination generator address in pieces. -/
  | move (core : Nat) (ch : Nat)
  /-- PIECE_ISSUE (R239). A channel issues its next piece once translation, credit and room allow. -/
  | pieceIssue (core : Nat) (ch : Nat)
  /-- TRING (R245). Sets a ring of four tile slots and binds its FULL and FREE Chutes. -/
  | tring (core : Nat) (ch : Nat)
  /-- TNEXT (R246). Takes a tile credit and points DST at the next slot. -/
  | tnext (core : Nat) (ch : Nat)
  /-- TPUT (R246). Publishes the current tile to the FULL Chute once its writes complete. -/
  | tput (core : Nat) (ch : Nat)
  /-- TILE_CREDIT_RETURN (R246). The channel pops a returned handle from the FREE Chute and regains a credit. -/
  | tileCreditReturn (core : Nat) (ch : Nat)
  /-- HPOP (R235). Takes the oldest handle of a Chute into a handle register. -/
  | hpop (core : Nat) (ch : Nat)
  /-- HPUSH (R256). Pushes a handle register into a Chute. -/
  | hpush (core : Nat) (ch : Nat)
  /-- HBASE (R237). Points a generator at the slot a handle names. -/
  | hbase (core : Nat) (ch : Nat)
  /-- WOPEN (R223). Opens a window from a Haul program. -/
  | wopen (core : Nat) (ch : Nat)
  /-- WCLOSE (R225). Closes a window from a Haul program and waits for the close to complete. -/
  | wclose (core : Nat) (ch : Nat)
  /-- SKIDMARK (R250). Sends a front marker down the skid chain. -/
  | skidmark (core : Nat) (ch : Nat)
  /-- TWAIT (R235). Waits until the Tally reaches an argument value. -/
  | twait (core : Nat) (ch : Nat)
  /-- CHUTE_PUSH_ARRIVE (R256). A push reaches its Chute and enters, or is returned when full, mode-mismatched or yielded. -/
  | chutePushArrive (src : Sender) (dst : Nat)
  /-- CHUTE_FREE_SIGNAL (R257). A Chute with free space signals waiting senders, which resend their held pushes. -/
  | chuteFreeSignal (core : Nat) (chute : Nat)
  /-- LAND_BURST (R243). A LAND burst whose bytes have all reached the landing buffer is presented to the ports and holds the core. -/
  | landBurst (pid : Nat)
  /-- YARD_UE_READ (R213). A read finds an uncorrectable or poisoned block and acts per requester, counting and posting SPAD_UNCORR. -/
  | yardUeRead (core : Nat) (block : Nat) (req : Requester)
  /-- MEND_WRITEBACK (R211). A queued MEND write-back of a mended block is granted. -/
  | mendWriteback (core : Nat)
  /-- MERGE_DRAIN_TIMEOUT (R215). A merge-buffer entry with no write for 32 cycles drains. -/
  | mergeDrainTimeout (core : Nat)
  /-- PATROL_READ (R220). Every 1,024 cycles the slice reads its next line in the PATROL class. -/
  | patrolRead (core : Nat)
  /-- REMAP_INSTALL (R218). The Shepherd installs a soft remap entry for a failing word in one MEND port cycle. -/
  | remapInstall (core : Nat) (bank : Nat) (row : Nat) (word : Nat)
  /-- REGION_CLEAR_COMPLETE (R208). A region's clear finishes and its units return to the free pool. -/
  | regionClearComplete (core : Nat)
  /-- WINDOW_TRANSFER_CHECK (R224). A transfer request reaching the owning router is checked against the window and accepted or refused. -/
  | windowTransferCheck (pid : Nat)
  /-- WINDOW_CLOSE_COMPLETE (R225). Every accepted transfer of a CLOSING window finishes and the slot becomes FREE with its generation advanced. -/
  | windowCloseComplete (pdk : Nat) (slot : Nat)
  /-- CHANNEL_TRAINING_DONE (R276). An LPDDR5X channel's training completes, to ACTIVE or SELF_REFRESH, or to FAILED on a second failure. -/
  | channelTrainingDone (chan : Nat) (ok : Bool)
  /-- SEGMENT_ZERO_COMPLETE (R273). Zeroing of a new external segment finishes and the creation completes. -/
  | segmentZeroComplete (pdk : Nat) (entry : Nat)
  /-- PRIVATE_READ_COMPLETE (R283). A external-memory read returns and is checked for link ECC and MAC, with retries or failure. -/
  | privateReadComplete (pid : Nat) (check : MemCheck)
  /-- CXL_GO (R288). A GO response orders a host write and lets later pieces and MSI-X messages proceed. -/
  | cxlGo (pid : Nat)
  /-- CXL_READ_DATA (R287). Read data for a CXL.cache request arrives and lands at its destination. -/
  | cxlReadData (pid : Nat) (data : List Byte)
  /-- CXL_SNOOP (R287). A snoop is answered at once with RspIHitI. -/
  | cxlSnoop
  /-- ATS_COMPLETION (R294). A Translation Completion fills the ATC and issues, denies or faults each waiting piece. -/
  | atsCompletion (walker : Nat) (r : AtsResult)
  /-- ATS_TIMEOUT (R294). No Translation Completion within 10 ms faults the waiting pieces. -/
  | atsTimeout (walker : Nat)
  /-- PRG_RESPONSE (R295). A PRG Response retries the translation or faults the waiting pieces, possibly setting PRI_STOP. -/
  | prgResponse (walker : Nat) (code : PrgCode)
  /-- PAGE_REQUEST_TIMEOUT (R295). An unanswered page request beyond the timeout faults its pieces. -/
  | pageRequestTimeout (walker : Nat)
  /-- ATS_INVALIDATE (R297). An Invalidate Request removes overlapping entries and notifies every agent. -/
  | atsInvalidate (ctx : Option Nat) (dva : Nat) (size : Nat)
  /-- INVAL_ACK (R297). An agent acknowledges a notice; the last acknowledgement sends the Invalidate Completion. -/
  | invalAck (agent : Nat)
  /-- INVAL_TIMEOUT (R298). An agent not acknowledging within 1 ms is halted and the completion is sent. -/
  | invalTimeout (agent : Nat)
  /-- XLT_FLUSH (R300). A write of XLT_FLUSH removes ATC entries of a context or all, then runs the acknowledgement. -/
  | xltFlush (value : BitVec 64)
  /-- PRI_RESUME (R295). Writing 1 to XLT_CTL.PRI_STOP resumes page requests. -/
  | priResume
  /-- UCIE_LINK_TRAINING (R306). UCIe link training ends with both modules, one module, or none up. -/
  | ucieLinkTraining (m0 : Bool) (m1 : Bool)
  /-- FUNCTION_LEVEL_RESET (R307). A function level reset acts as a device reset. -/
  | functionLevelReset
  /-- BIND (R314). Writing BIND in GLB_STL_BIND binds a queue to a FREE Stall after checks. -/
  | bind (stall : Nat) (queue : Nat) (entry : Option QueueEntry)
  /-- BIND_COMPLETE (R312). A bind's state load from the save area completes and the Stall becomes BOUND, or fails its check. -/
  | bindComplete (stall : Nat) (checkOk : Bool)
  /-- UNBIND (R315). Writing UNBIND starts saving the queue from a BOUND or PARKED Stall. -/
  | unbind (stall : Nat)
  /-- UNBIND_COMPLETE (R315). The save area is written, QSTATE becomes OUT and the Stall FREE. -/
  | unbindComplete (stall : Nat)
  /-- CAPSULE_WRITE (R320). A write to a Stall landing area lands a capsule in its slot, or is dropped or refused. -/
  | capsuleWrite (stall : Nat) (off : Nat) (data : List Byte)
  /-- CAPSULE_TAKE (R321). The Drover takes the landed capsule whose SEQ equals NEXT, checks it and accepts or refuses it. -/
  | capsuleTake (stall : Nat)
  /-- CREDIT_RECORD_TIMER (R322). 1 µs after the first capsule taken since the last CREDIT record, a CREDIT record is posted. -/
  | creditRecordTimer (stall : Nat)
  /-- CAPSULE_NOP (R316). NOP capsule completes when taken. -/
  | capsuleNop (stall : Nat)
  /-- RUN_PROGRAM (R350). Accepts a job that starts on cores when its turn comes. -/
  | runProgram (stall : Nat)
  /-- COPY (R323). Copies bytes between two DVA ranges. -/
  | copy (stall : Nat)
  /-- INTAKE_CHUNK (R451). A Faesk chunk in the landing buffer is decrypted, authenticated and landed, or the command fails. -/
  | intakeChunk (stall : Nat) (c : IntakeChunk)
  /-- SIGNAL_FENCE (R332). Signals a fence once every earlier command of the queue has completed. -/
  | signalFence (stall : Nat)
  /-- WAIT_FENCE (R335). Holds later commands of the queue until the fence reaches a value or errs. -/
  | waitFence (stall : Nat)
  /-- OBJ_CREATE (R328). Creates a memory object or fence and returns its handle. -/
  | objCreate (stall : Nat)
  /-- OBJ_REF (R329). Adds a host reference to an object. -/
  | objRef (stall : Nat)
  /-- OBJ_UNREF (R329). Drops a host reference, possibly making the object ORPHAN or DEAD. -/
  | objUnref (stall : Nat)
  /-- YARD_LOAD (R323). Loads bytes from a DVA into a Yard object. -/
  | yardLoad (stall : Nat)
  /-- WINDOW_OPEN (R223). Opens a window over a Yard object by capsule. -/
  | windowOpen (stall : Nat)
  /-- WINDOW_CLOSE (R225). Closes a window by capsule, completing when the close drains. -/
  | windowClose (stall : Nat)
  /-- SEQ_JOIN (R376). Joins a sequence to the Paddock's sequence table for the next close. -/
  | seqJoin (stall : Nat)
  /-- SEQ_LEAVE (R376). Makes a sequence leave at the next step boundary. -/
  | seqLeave (stall : Nat)
  /-- HINT_PHASE (R418). Arms an alarm that sets the Paddock's default power phase. -/
  | hintPhase (stall : Nat)
  /-- MUSTER_SET (R261). Defines a Muster for the next RUN_PROGRAM of the queue. -/
  | musterSet (stall : Nat) (peers : List (BitVec 16))
  /-- CANCEL (R327). Cancels accepted commands of the queue from FROM up to its own SEQ. -/
  | cancel (stall : Nat)
  /-- COMMAND_COMPLETE (R334). A command completes, signals or errs its fence and posts its COMPLETE record. -/
  | commandComplete (stall : Nat)
  /-- MIRROR_WRITE_FAIL (R337). A failed mirror write stops the fence's mirror and posts one COMMAND record. -/
  | mirrorWriteFail (fence : Nat) (denied : Bool)
  /-- RING_WRITE_FAIL (R343). A ring write that fails translation disables the ring and posts RING_FAIL to ring 0. -/
  | ringWriteFail (ring : Nat)
  /-- MSIX_MODERATION_EXPIRY (R342). The end of a moderation interval sends one MSI-X message covering its records. -/
  | msixModerationExpiry (vector : Nat)
  /-- EVR_CTL_WRITE (R343). A write of GLB_EVR_CTL enables, re-enables or disables a ring, resetting P when EN clears. -/
  | evrCtlWrite (ring : Nat) (value : BitVec 32)
  /-- JOB_START (R351). The Drover assigns free cores to the best candidate job, reads its image and creates its regions. -/
  | jobStart (pdk : Nat) (img : ImageRead)
  /-- JOB_RELEASE (R152). With image, regions, Musters and frames loaded, the job's cores are released into RUNNING. -/
  | jobRelease (job : Nat)
  /-- JOB_RESUME (R187). A yielded job's cores reload instruction memory and state and continue. -/
  | jobResume (job : Nat)
  /-- QUANTUM_EXPIRY (R360). A job having run its quantum becomes a pre-emption victim if its group's account is larger. -/
  | quantumExpiry (job : Nat)
  /-- ACCOUNT_NORMALISE (R356). Every 1 ms the smallest active account is subtracted from all accounts. -/
  | accountNormalise (pdk : Nat)
  /-- SEM_SETUP (R364). A write of PDK_SEM with VALID set checks the fence and sets up the semaphore. -/
  | semSetup (pdk : Nat) (n : Nat) (value : BitVec 64)
  /-- SEM_TEARDOWN (R364). A write of VALID 0 attaches CANCELLED to the semaphore fence. -/
  | semTeardown (pdk : Nat) (n : Nat)
  /-- QUEUE_PARK (R370). Within 50 µs of all Stalls blocked with runnable OUT queues, the Drover parks the oldest blocked queue. -/
  | queuePark (pdk : Nat)
  /-- QUEUE_UNPARK (R370). A PARKED Stall whose queue is no longer blocked returns to BOUND. -/
  | queueUnpark (stall : Nat)
  /-- QUEUE_RUNNABLE (R371). A watched OUT queue's wait is met; RUNNABLE is set and QUEUE_RUNNABLE posted. -/
  | queueRunnable (queue : Nat)
  /-- STEP_RELEASE (R373). At the later of S and C plus 1 µs, the Drover writes the batch list and releases the step Muster. -/
  | stepRelease (pdk : Nat)
  /-- STEP_CTL_WRITE (R380). A write of PDK_STEP_CTL enables or disables stepping, reserving or freeing the slot. -/
  | stepCtlWrite (pdk : Nat) (value : BitVec 64)
  /-- DROVE_HELLO (R391). A received HELLO opens a session or detects a peer reset by incarnation. -/
  | droveHello (port : Nat) (f : DroveFrame)
  /-- DROVE_WRITE (R399). A received WRITE frame is checked against the window and landed, or refused with a NAK. -/
  | droveWrite (port : Nat) (f : DroveFrame)
  /-- DROVE_READ_REQ (R400). A received READ_REQ is checked and answered with a READ_RSP. -/
  | droveReadReq (port : Nat) (f : DroveFrame)
  /-- DROVE_READ_RSP (R400). A received READ_RSP lands its data or halts the requesting channel. -/
  | droveReadRsp (port : Nat) (f : DroveFrame)
  /-- DROVE_ACK (R395). A received ACK frees acknowledged frames and triggers selective resends. -/
  | droveAck (port : Nat) (f : DroveFrame)
  /-- DROVE_NAK (R399). A received NAK halts the sending channel with its code. -/
  | droveNak (port : Nat) (f : DroveFrame)
  /-- DROVE_MUSTER_ARRIVE (R405). The leader records a member's arrival and may complete the fabric round. -/
  | droveMusterArrive (port : Nat) (f : DroveFrame)
  /-- DROVE_MUSTER_RELEASE (R405). A member records the release instant and the common step. -/
  | droveMusterRelease (port : Nat) (f : DroveFrame)
  /-- FRAME_FORWARD (R388). A Drove frame for another address is forwarded or dropped. -/
  | frameForward (port : Nat) (f : DroveFrame)
  /-- ARP_REQUEST (R383). An ARP request for the port's IPv4 address is answered. -/
  | arpRequest (port : Nat) (ip : BitVec 32)
  /-- NEIGHBOUR_SOLICITATION (R383). A neighbour solicitation for the port's IPv6 address is answered. -/
  | neighbourSolicitation (port : Nat) (ip : BitVec 128)
  /-- PFC_PAUSE (R389). Received PFC pause holds the Drove priority at the egress. -/
  | pfcPause (port : Nat)
  /-- PORT_LINK_CHANGE (R392). A port's PCS link comes up or goes down, letting sessions enter OPENING. -/
  | portLinkChange (port : Nat) (up : Bool)
  /-- HELLO_SEND (R392). In OPENING, every 1 ms a session sends a HELLO. -/
  | helloSend (b : Nat)
  /-- ACK_SEND (R394). Within 1 µs of applying a frame the receiver sends an ACK. -/
  | ackSend (b : Nat)
  /-- RETRANSMIT (R395). A frame unacknowledged for RTO is resent and RTO doubles. -/
  | retransmit (b : Nat) (psn : BitVec 24)
  /-- SESSION_TIMEOUT (R396). A session whose oldest unacknowledged frame is LINK_TO old halts its channels and goes DOWN. -/
  | sessionTimeout (b : Nat)
  /-- POWER_INTERVAL (R413). Each 2 µs interval the estimator computes energy and the controller forms the reserve, pool and core budgets. -/
  | powerInterval (a : Activity)
  /-- STEP_DECISION (R415). Every 100 µs the controller decides the step, lowering at once or raising after two agreeing decisions. -/
  | stepDecision
  /-- PM_VACK (R409). The regulator asserts PM_VACK and the pending frequency raise follows within 100 ns. -/
  | pmVack
  /-- VREG_TIMEOUT (R410). No PM_VACK 50 µs after a raise abandons it and suppresses raises for 10 ms. -/
  | vregTimeout
  /-- RAISE_SUPPRESS_END (R410). The 10 ms suppression of step raises ends. -/
  | raiseSuppressEnd
  /-- LOCKSTEP_RAISE (R421). At release plus 20 µs a member raises to the common step, or lags and posts LOCKSTEP_LAG. -/
  | lockstepRaise
  /-- GRAZE_TIMEOUT (R422). GRAZE_MAX µs after arrival, Grazing ends and activity decays. -/
  | grazeTimeout (core : Nat)
  /-- SUPPLY_WARNING (R424). VDD_CMP below the warning level throttles to step 4, clamps the Pens and stops Grazing. -/
  | supplyWarning (mv : Nat)
  /-- SUPPLY_HOLD (R423). VDD_CMP back at or above the warning level enters HOLD. -/
  | supplyHold
  /-- SUPPLY_NORMAL (R424). After 20 µs in HOLD the state returns to NORMAL, restoring the step and posting SUPPLY_DIP. -/
  | supplyNormal
  /-- SUPPLY_RESET (R425). VDD_CMP below the reset level causes a device reset and logs SUPPLY_RESET. -/
  | supplyReset (mv : Nat)
  /-- THERMAL_SAMPLE (R426). Every 20 µs the sensors are read and the thermal state updated. -/
  | thermalSample (t : List SensorReading)
  /-- THERMAL_MAXSTEP_TICK (R427). Every 100 µs at WARN MAXSTEP drops by 1, and every 1 ms below WARN − 5 °C it rises by 1. -/
  | thermalMaxstepTick
  /-- THERMAL_TRIP_EXIT (R428). A reading below TRIP − 10 °C for 1 ms leaves the trip. -/
  | thermalTripExit
  /-- ENTROPY_SAMPLE (R440). An entropy sample runs the health tests, setting or clearing FAIL. -/
  | entropySample (pass : Bool)
  /-- DRBG_RESEED (R439). After 2^20 requests or 1 s the DRBG draws a new seed. -/
  | drbgReseed
  /-- TENANT_REMOVE_REQUEST (R458). A removal request fences the Paddock and starts the drain. -/
  | tenantRemoveRequest (pdk : Nat)
  /-- REMOVAL_RETIRE (R458). When the drain ends or 1 ms passes, keys are retired and new keys installed. -/
  | removalRetire (pdk : Nat) (flash : FlashStatus)
  /-- REMOVAL_SCRUB (R459). After retirement the Paddock's state is scrubbed to zero. -/
  | removalScrub (pdk : Nat)
  /-- REMOVAL_END (R458). The scrub completes; objects are destroyed, Stalls freed, incarnation advanced and TENANT_REMOVED posted. -/
  | removalEnd (pdk : Nat)
  /-- TRACE_WRITE_FAIL (R457). A trace ring write that fails translation clears EN and counts a lost record. -/
  | traceWriteFail (pdk : Nat)
  /-- HANG_REPORT_TIMEOUT (R467). The Drover not reporting ENDED within 10 ms resets the Paddock with HANG. -/
  | hangReportTimeout (pdk : Nat)
  /-- DROVER_FAULT (R467). A parity error in the Drover's tables resets the Paddock at once. -/
  | droverFault (pdk : Nat)
  /-- WATCHDOG_EXPIRY (R468). The watchdog expires, captures the Shepherd state and restarts the Shepherd core, or resets the device on a repeat. -/
  | watchdogExpiry (regs : List (BitVec 32))
  /-- SHEPHERD_RESTART_DONE (R468). The Shepherd restart completes; it posts WATCHDOG and writes a SHEPHERD crash record. -/
  | shepherdRestartDone
  /-- PADDOCK_RESET_REQUEST (R469). Writing PDK_RST_CTL.RESET requests a Paddock reset with cause PARTITION_RESET. -/
  | paddockResetRequest (pdk : Nat)
  /-- PADDOCK_RESET (R471). A Paddock reset fences, captures, discards, enters self-refresh, clears and begins retraining. -/
  | paddockReset (pdk : Nat)
  /-- PADDOCK_READY (R471). After retraining the incarnation advances, Stalls become FREE and PADDOCK_READY is posted. -/
  | paddockReady (pdk : Nat)
  /-- DEVICE_RESET (R476). A device reset fences every Paddock, captures, drops the link and resets logic outside the Shepherd domain. -/
  | deviceReset (cause : ResetCause) (t : TestReport)
  /-- DEVICE_RESET_READY (R523). Training completes after a device reset; READY is set and posted. -/
  | deviceResetReady (ms : BitVec 32)
  /-- DZIENT_READ (R491). A Dzient READ returns bytes of an object's value. -/
  | dzientRead (sess : Option Nat) (r : DzRequest)
  /-- DZIENT_NEXT (R491). A Dzient NEXT returns the next object that exists. -/
  | dzientNext (sess : Option Nat) (r : DzRequest)
  /-- DZIENT_WRITE (R493). A Dzient WRITE to an object with no behaviour of its own is checked, stored and applied. -/
  | dzientWrite (sess : Option Nat) (r : DzRequest)
  /-- LAYOUT_WRITE (R435). A write of LAYOUT re-forms Paddocks, running tenant removal where needed. -/
  | layoutWrite (sess : Option Nat) (r : DzRequest)
  /-- CHAN_ON_WRITE (R276). A write of CHAN_ON powers a channel down to OFF or back. -/
  | chanOnWrite (sess : Option Nat) (r : DzRequest)
  /-- CAP_SET_WRITE (R412). A write of CAP_SET sets the operator power cap. -/
  | capSetWrite (sess : Option Nat) (r : DzRequest)
  /-- OP_ROOT_WRITE (R490). A write of OP_ROOT installs or removes an operator root. -/
  | opRootWrite (sess : Option Nat) (r : DzRequest) (parses : Bool)
  /-- TRUST_WRITE (R403). A write of TRUST sets a trusted peer; removal disables confidential bindings to it. -/
  | trustWrite (sess : Option Nat) (r : DzRequest)
  /-- BUNDLE_RELEASE (R450). A bundle release unwraps a key, checks the bundle header and installs the slot, or unloads it. -/
  | bundleRelease (sess : Option Nat) (r : DzRequest) (u : BundleUnwrap)
  /-- REMOVE_WRITE (R458). A write of REMOVE requests tenant removal. -/
  | removeWrite (sess : Option Nat) (r : DzRequest)
  /-- PDK_RESET_WRITE (R469). A write of PDK_RESET requests a Paddock reset. -/
  | pdkResetWrite (sess : Option Nat) (r : DzRequest)
  /-- DEV_RESET_WRITE (R469). A write of 0x0000_0B60 to DEV_RESET requests a device reset. -/
  | devResetWrite (sess : Option Nat) (r : DzRequest)
  /-- SNAP_SET_WRITE (R496). A write of SNAP_SET arms or disarms a counter set's SNAPSHOT slot. -/
  | snapSetWrite (sess : Option Nat) (r : DzRequest)
  /-- BIND_WRITE (R497). A write of BIND creates, clears or refuses a binding. -/
  | bindWrite (sess : Option Nat) (r : DzRequest)
  /-- ROUTE_WRITE (R388). A write of ROUTE sets the route of a Drove address. -/
  | routeWrite (sess : Option Nat) (r : DzRequest)
  /-- STAGE_WRITE (R508). A write of STAGE erases and programs image bytes into the inactive slot. -/
  | stageWrite (sess : Option Nat) (r : DzRequest)
  /-- COMMIT (R503). A write of COMMIT checks a slot's image and writes a new boot selector record. -/
  | commit (sess : Option Nat) (r : DzRequest) (imageOk : Bool)
  /-- SRC_WRITE (R31). A write of SRC changes the Tally source. -/
  | srcWrite (sess : Option Nat) (r : DzRequest)
  /-- TC_HZ_WRITE (R29). A write of TC_HZ sets the TC_CLK frequency and TLY_RATE. -/
  | tcHzWrite (sess : Option Nat) (r : DzRequest)
  /-- CAL_SET (R46). A write of CAL_SET sets the calendar at the next fraction boundary and takes an anchor. -/
  | calSet (sess : Option Nat) (r : DzRequest)
  /-- SPDM_GET_VERSION (R446). Answers an SPDM GET_VERSION request. -/
  | spdmGetVersion (sess : Option Nat) (m : SpdmMsg)
  /-- SPDM_GET_CAPABILITIES (R446). Answers an SPDM GET_CAPABILITIES request. -/
  | spdmGetCapabilities (sess : Option Nat) (m : SpdmMsg)
  /-- SPDM_NEGOTIATE_ALGORITHMS (R446). Answers an SPDM NEGOTIATE_ALGORITHMS request. -/
  | spdmNegotiateAlgorithms (sess : Option Nat) (m : SpdmMsg)
  /-- SPDM_GET_DIGESTS (R446). Answers an SPDM GET_DIGESTS request. -/
  | spdmGetDigests (sess : Option Nat) (m : SpdmMsg)
  /-- SPDM_GET_CERTIFICATE (R445). Returns the slot 0 certificate chain. -/
  | spdmGetCertificate (sess : Option Nat) (m : SpdmMsg)
  /-- SPDM_CHALLENGE (R446). Answers an SPDM CHALLENGE with the Alias key. -/
  | spdmChallenge (sess : Option Nat) (m : SpdmMsg)
  /-- SPDM_GET_MEASUREMENTS (R447). Returns the signed attestation report. -/
  | spdmGetMeasurements (sess : Option Nat) (m : SpdmMsg)
  /-- SPDM_KEY_EXCHANGE (R489). Opens an SPDM session, fixing its role, or refuses a fifth. -/
  | spdmKeyExchange (sess : Option Nat) (m : SpdmMsg)
  /-- SPDM_FINISH (R446). Completes the SPDM session handshake. -/
  | spdmFinish (sess : Option Nat) (m : SpdmMsg)
  /-- SPDM_HEARTBEAT (R489). Keeps an SPDM session alive. -/
  | spdmHeartbeat (sess : Option Nat) (m : SpdmMsg)
  /-- SPDM_KEY_UPDATE (R446). Updates the session keys. -/
  | spdmKeyUpdate (sess : Option Nat) (m : SpdmMsg)
  /-- SPDM_END_SESSION (R489). Ends an SPDM session and discards its staging. -/
  | spdmEndSession (sess : Option Nat) (m : SpdmMsg)
  /-- SPDM_CHUNK_GET (R446). Returns a chunk of a large SPDM response. -/
  | spdmChunkGet (sess : Option Nat) (m : SpdmMsg)
  /-- SPDM_HEARTBEAT_MISSED (R489). A missed 60 s heartbeat ends the session. -/
  | spdmHeartbeatMissed (sess : Nat)
  /-- MCTP_SET_ENDPOINT_ID (R487). Sets the device's MCTP endpoint ID. -/
  | mctpSetEndpointId (eid : BitVec 8)
  /-- MCTP_GET_ENDPOINT_ID (R487). Returns the endpoint ID. -/
  | mctpGetEndpointId
  /-- MCTP_GET_ENDPOINT_UUID (R487). Returns the endpoint UUID. -/
  | mctpGetEndpointUuid
  /-- MCTP_GET_VERSION_SUPPORT (R487). Returns MCTP version support. -/
  | mctpGetVersionSupport
  /-- MCTP_GET_MESSAGE_TYPE_SUPPORT (R487). Returns supported MCTP message types. -/
  | mctpGetMessageTypeSupport
  /-- MCTP_UNSUPPORTED_CONTROL (R487). Any other MCTP control command is answered ERROR_UNSUPPORTED_CMD. -/
  | mctpUnsupportedControl (cmd : BitVec 8)
  /-- I3C_ENTDAA (R487). ENTDAA assigns the target a dynamic address. -/
  | i3cEntdaa (addr : BitVec 7)
  /-- I3C_SETDASA (R487). SETDASA assigns the dynamic address from the static address. -/
  | i3cSetdasa (addr : BitVec 7)
  /-- FLASH_LINE_READ (R505). A fetch miss reads a 256-byte line, suspending any erase, and checks ECC and tag. -/
  | flashLineRead (line : Nat) (first : LineCheck) (second : LineCheck)
  /-- FLASH_PROGRAM (R508). A program of erased units is sent to the flash, or refused with FLASH_NOT_ERASED. -/
  | flashProgram (unit : Nat) (data : List Byte)
  /-- FLASH_PROGRAM_COMPLETE (R511). A program finishes; a failed status records FLASH_VERIFY and retries on a spare block. -/
  | flashProgramComplete (ok : Bool)
  /-- FLASH_ERASE (R507). A block erase begins and clears its erased-map bits. -/
  | flashErase (block : Nat)
  /-- FLASH_ERASE_COMPLETE (R507). An erase completes, sets its erased-map bits and ends FORCED mode. -/
  | flashEraseComplete (ok : Bool)
  /-- FLASH_FORCED_TIMER (R510). An erase pending 500 ms enters FORCED mode. -/
  | flashForcedTimer
  /-- FLASH_RELOCATE (R511). A marked block's copy to a spare passes read-back and the block map changes. -/
  | flashRelocate (block : Nat) (readBackOk : Bool)
  /-- FLASH_LOG_ENTRY (R513). A 64-byte log entry is written, erasing the oldest block when the log is full. -/
  | flashLogEntry (code : BitVec 16) (detail : BitVec 64)
  /-- TWAIT_REACHED (R235). The Tally reaches the value a waiting TWAIT names and the Haul program goes on. -/
  | twaitReached (core : Nat) (ch : Nat)
  /-- PRIVATE_WRITE_COMPLETE (R232). An LPDDR5X write burst of a piece completes at its channel, counting toward TPUT, HPUSH and channel idle. -/
  | privateWriteComplete (pid : Nat)
  /-- PTP_DELAY_REQ (R34). A PTP Delay_Req received on port 1 while it serves time is timestamped and answered with a Delay_Resp. -/
  | ptpDelayReq (m : PtpMsg)
  /-- PTP_TIME_TRANSMIT (R34). While port 1 serves time, its sync and announce intervals expire and it sends Announce, two-step Sync and Follow_Up. -/
  | ptpTimeTransmit
  /-- RX_FRAME_DROP (R383). A frame of no accepted kind, or with a bad FCS, IPv4 checksum or UDP checksum, arrives and is dropped and counted in LNK_RX_DROP. -/
  | rxFrameDrop (port : Nat)
  /-- PFC_PAUSE_EXPIRY (R389). The pause time of a received PFC pause on the Drove priority runs out and the egress resumes sending, clearing PAUSED. -/
  | pfcPauseExpiry (port : Nat)
  /-- MSIX_VECTOR_UNMASK (R342). A write that clears the mask bit of an MSI-X vector whose pending bit is set sends the pending message. -/
  | msixVectorUnmask (vector : Nat)
  deriving DecidableEq, Repr

end Sys2Proof
end

