-- ==== Sys2Proof/Config.lean ====
section
/-! DEFINITION. What one part fixes (fuses, calibration row, contents of the flash) and the values the spec leaves
open. Every constant here is opaque: nothing can evaluate it, so a claim holds whatever it is. -/

namespace Sys2Proof.Config

/-- Values loaded from fuses at start-up (R11): the fields of GLB_ID, SHP_SEC_FUSE, identities and repair. -/
structure Fuses where
  /-- 0 full, 1 8-core, 2 6-core -/
  cores : Nat
  /-- 0 60 W, 1 30 W, 2 15 W -/
  cap : Nat
  debugLock : Bool
  ksFused : Bool
  ksSession : Bool
  identOk : Bool
  minSvn : Nat
  serial : BitVec 128
  vendor : BitVec 16
  mac0 : BitVec 48
  mac1 : BitVec 48
  /-- fused repair that is not 16: core, Pen, F_ROW, F_COL -/
  repair : List (Nat × Nat × Nat × Nat)
  /-- fused remap entries: core, bank, row, word -/
  remap : List (Nat × Nat × Nat × Nat)
  deriving DecidableEq, Repr, Inhabited

/-- Values of the calibration row (R501). -/
structure Cal where
  /-- capacity of every channel: 0 2 GiB, 1 4 GiB, 2 8 GiB -/
  cap : Nat
  warnPct : Nat
  resetPct : Nat
  trip : Int
  crit : Int
  /-- fixed power in mW and the leakage in mW by step and 5 degC band -/
  fixedMw : Nat
  leakMw : List (List Nat)
  /-- the weights of Table 13.2 in pJ, in its order -/
  weights : List Nat
  i3cStatic : BitVec 7
  tcHz : Nat
  ceThresh : Nat
  endurance : Nat
  deriving DecidableEq, Repr, Inhabited

/-- The values that the flash held before the first start of the model (R494). -/
structure Stored where
  epoch : Nat
  crashSeq : Nat
  kgen : BitVec 32
  active : Nat
  /-- the calendar, in units of 1/32,768 s, and CAL_VALID -/
  calendar : Nat
  calValid : Bool
  deriving DecidableEq, Repr, Inhabited

/-- The fuses of the part. -/
opaque fuses : Fuses
/-- The calibration row of the part. -/
opaque cal : Cal
/-- What the flash of the part held. -/
opaque stored : Stored

/-- A free 64-bit value: kind of the open point, and a number that the step advances. -/
opaque freeValue : Nat → Nat → BitVec 64
/-- A free pairing order of a tree over `n` terms, by the number of the use (R74, R136, R176). -/
opaque freeOrder : Nat → Nat → List Nat
/-- VFUN within the bounds of Table 6.9: function and operand (R176). -/
opaque vfun : Nat → BitVec 32 → BitVec 32
/-- The digests, signatures and keys that leave the block: kind and number. -/
opaque crypto : Nat → Nat → List Byte
/-- The AES-256 block cipher under a Paddock's keys, by generation and key: 0 and 1 the XTS pair, 2 the MAC key (R279, R280). -/
opaque aes : Nat → Nat → BitVec 128 → BitVec 128
/-- What the cells of a channel's line hold before anything is written there (R285). -/
opaque coldLine : Nat → Nat → BitVec 512
/-- The set hash of the translation copy table (R291): context, size, group. -/
opaque atcHash : Nat → Nat → Nat → Nat

end Sys2Proof.Config
end

