-- ==== Sys2Proof/Machine/StateCore.lean ====
section
/-! DEFINITION. The state of a core: register files, sequencer, Pens, Trough, codebooks, top-k unit, Chutes and
Skidder channels (spec 03 to 06, 08). -/

namespace Sys2Proof.Machine

/-- A vector register: 256 lanes of 32 bits by lane number, an unlisted lane holding zero (R153). -/
abbrev VReg := Table W32

/-- A loop level that is active (R165): PEN_LC counts what remains, the current run included. -/
structure Loop where
  count : Nat
  start : Nat
  end_ : Nat
  deriving DecidableEq, Repr, Inhabited

/-- STATE of PEN_SEQ_STAT (Table 6.14). -/
inductive SeqStat where | idle | run | halted | trapped | draining | yielded
  deriving DecidableEq, Repr, Inhabited

/-- What an instruction claims in the scoreboard, or must find unclaimed (R161). -/
inductive Res where
  | s (r : Nat) | a (r : Nat) | v (r : Nat) | p (r : Nat)
  /-- accumulator slot n of the Pens (fold false) or of the Folds -/
  | slot (fold : Bool) (n : Nat)
  /-- the shadows, a book, the Trough's passes and banks, a Skidder channel -/
  | shadow | book (b : Nat) | pass | haul (ch : Nat)
  deriving DecidableEq, Repr, Inhabited

/-- An instruction placed in a slot queue (R160): its program-order number, bundle, slot and word. -/
structure QInstr where
  num : Nat
  bundle : Nat
  slot : Slot
  word : W64
  deriving DecidableEq, Repr, Inhabited

/-- Claims of a dispatched instruction, released when their values become readable (R161). -/
structure Claim where
  num : Nat
  res : List Res
  deriving DecidableEq, Repr, Inhabited

/-- What dispatch waits for (R163, R164, R194, R532). -/
inductive Hold where
  /-- the instruction with that number issues -/
  | issue (num : Nat)
  /-- every Yard write of an earlier bundle is complete -/
  | ysync (num : Nat)
  deriving DecidableEq, Repr, Inhabited

/-- Stall causes of Table 8.6. -/
inductive Cause where
  | chuteEmpty | chuteFull | copy | bankConflict | memPort | linkCredit | xlate | muster | fence | power | preempt | scrub
  deriving DecidableEq, Repr, Inhabited

/-- States of a shadow (Table 4.2). -/
inductive Shadow where | empty | loading | full | armed
  deriving DecidableEq, Repr, Inhabited

/-- One Pen: weights and shadow weights by cell number 16 i + j, scales by row, slots by 16 i + s (R54, R80). -/
structure Pen where
  w : Table (BitVec 16)
  h : Table (BitVec 16)
  /-- row scales; an unlisted row holds 0x7F -/
  sw : Table Byte
  sh : Table Byte
  acc : Table W32
  shadow : Shadow
  /-- operator and FP32 flag of the last write of each slot, for a SUM drain (R84) -/
  last : Table (Nat × Bool)
  /-- activity level A (R100) -/
  level : Nat
  /-- grid cycles of its latest issues, newest first, and the latest cycle in which R100 alone held an issue back -/
  issued : List Nat
  barred : Option Nat
  /-- the first grid cycle in which it accepts another issue (R77) -/
  next : Nat
  deriving DecidableEq, Repr, Inhabited

def Pen.reset : Pen :=
  { w := [], h := [], sw := [], sh := [], acc := [], shadow := .empty, last := [], level := 0, issued := [], barred := none,
    next := 0 }

/-- An issue in flight: the slot write that PEN_SLOT_WRITE makes at the end of its latency (R76, R81). It keeps the
weights it sampled through the row results computed at issue. -/
structure Flight where
  num : Nat
  bundle : Nat
  /-- the grid cycle at whose end it writes its slots -/
  due : Nat
  /-- Pens it occupies -/
  pens : List Nat
  op : Nat
  fl : Bool
  init : Bool
  slot : Nat
  fold : Bool
  /-- row results: (unit, row, value), with the flags raised before the combine, by Pen -/
  rows : List (Nat × Nat × W32)
  /-- integer row results, exact -/
  irows : List (Nat × Nat × Int)
  flags : List (Nat × BitVec 5)
  deriving DecidableEq, Repr, Inhabited

/-- A PLDW in flight (R86). -/
structure Load where
  num : Nat
  bundle : Nat
  /-- named Pens, or the Pens of the named Folds -/
  pens : List Nat
  /-- contents of H by Pen and cell, and the shadow row scales by Pen and row -/
  cells : List (Nat × Nat × BitVec 16)
  scales : List (Nat × Nat × Byte)
  books : List Nat
  deriving DecidableEq, Repr, Inhabited

/-- A convolution descriptor (Table 4.6). -/
structure Conv where
  base : Nat
  inH : Nat
  inW : Nat
  inC : Nat
  kh : Nat
  kw : Nat
  sy : Nat
  sx : Nat
  dy : Nat
  dx : Nat
  py : Nat
  px : Nat
  elem : Nat
  outW : Nat
  oy0 : Nat
  ox0 : Nat
  count : Nat
  slot0 : Nat
  acc : Bool
  reserved : Bool
  deriving DecidableEq, Repr, Inhabited

/-- A PCONV walk under way (R109): the issues still to make, as (position, chunk), and the further cycles that the reads of the
next one take (R110). -/
structure Walk where
  num : Nat
  bundle : Nat
  first : Nat
  conv : Conv
  todo : List (Nat × Nat)
  extra : Nat
  deriving DecidableEq, Repr, Inhabited

/-- A front of the skid chain at this core (R94 to R98). -/
structure Front where
  gen : Nat
  fmt : Nat
  beats : Nat
  /-- beats taken -/
  got : Nat
  /-- it was taken; false while it waits at the router -/
  taken : Bool
  /-- refused or dropped: its beats are discarded -/
  dead : Bool
  /-- core and channel that send it -/
  src : Nat × Nat
  /-- the Pens it lands in, in ascending order -/
  pens : List Nat
  deriving DecidableEq, Repr, Inhabited

/-- A message of the skid chain on its way to a core: a marker or a beat of 128 bytes. -/
inductive SkidMsg where
  | marker (gen fmt beats : Nat) (src : Nat × Nat)
  | beat (data : List Byte)
  deriving DecidableEq, Repr, Inhabited

/-- One of the eight books (R119, Table 5.11). -/
structure Book where
  entries : Table W64
  valid : Bool
  loading : Bool
  efmt : Nat
  bscale : Byte
  owner : Nat
  gen : Byte
  /-- entries whose block is uncorrectable (entry div 4) -/
  bad : List Nat
  deriving DecidableEq, Repr, Inhabited

def Book.reset : Book :=
  { entries := [], valid := false, loading := false, efmt := 0, bscale := 0, owner := 0, gen := 0, bad := [] }

/-- A pass descriptor as TPASS read it (Table 5.3). -/
structure Desc where
  codeBase : Nat
  fmt : Nat
  op : Nat
  acc : Bool
  rows : Nat
  k : Nat
  abank : Nat
  outBase : Nat
  rsen : Bool
  afmt : Nat
  rsBase : Nat
  book1 : Nat
  book2 : Nat
  win1 : Nat
  win2 : Nat
  mxsBase : Nat
  ascale : Nat
  deriving DecidableEq, Repr, Inhabited

/-- A held pass (R128). -/
structure Pass where
  num : Nat
  bundle : Nat
  sd : Nat
  d : Desc
  /-- stream cycles that it has run (R132) -/
  ran : Nat
  deriving DecidableEq, Repr, Inhabited

/-- The tag of a set of decode tables (R125). -/
structure TableTag where
  fmt : Nat
  book1 : Nat
  win1 : Nat
  book2 : Nat
  win2 : Nat
  gen1 : Byte
  gen2 : Byte
  deriving DecidableEq, Repr, Inhabited

/-- A CBLD in flight (R122). -/
structure BookLoad where
  num : Nat
  bundle : Nat
  book : Nat
  first : Nat
  /-- the entries read from the Yard -/
  entries : List W64
  efmt : Nat
  bscale : Byte
  context : Nat
  deriving DecidableEq, Repr, Inhabited

/-- An activation bank: 16,384 elements of one format (R126). -/
structure Bank where
  int8 : Bool
  elems : Table (BitVec 16)
  deriving DecidableEq, Repr, Inhabited

def Bank.reset : Bank := { int8 := false, elems := [] }

/-- The top-k unit's list (R179): entries (value bits, index), best first. -/
structure TopK where
  k : Nat
  ty : Nat
  smallest : Bool
  entries : List (W32 × W32)
  deriving DecidableEq, Repr, Inhabited

/-- Binding of a Chute to a tile ring (R245). -/
inductive Bound where | none | full | free
  deriving DecidableEq, Repr, Inhabited

/-- One of the 16 Chutes (R252). -/
structure Chute where
  handle : Bool
  bound : Bound
  /-- the binding channel and its core -/
  bch : Nat
  bcore : Nat
  entries : List W64
  /-- senders refused for want of space, in order (R257) -/
  waiting : List Sender
  deriving DecidableEq, Repr, Inhabited

def Chute.reset : Chute := { handle := false, bound := .none, bch := 0, bcore := 0, entries := [], waiting := [] }

/-- A push or a message on its way, or held by its sender after a return (R256, R257). -/
structure Push where
  src : Sender
  core : Nat
  chute : Nat
  value : W64
  handle : Bool
  /-- held by its sender until the target signals free space -/
  held : Bool
  bundle : Nat
  /-- the sender's job, which a held push waits for too -/
  job : Option Nat
  /-- grid cycle in which it reaches its Chute's core (R20, R183) -/
  due : Nat
  deriving DecidableEq, Repr, Inhabited

/-- An address generator of a channel (R237). -/
structure Gen where
  /-- SPACE of BASE -/
  space : Nat
  base : W64
  xa : Nat
  /-- the handle register that HBASE took, for the window form -/
  slot : Bool
  stride : Table W64
  deriving DecidableEq, Repr, Inhabited

def Gen.reset : Gen := { space := 0, base := 0, xa := 0, slot := false, stride := [] }

/-- A loop level of a Haul program (R238). -/
structure HLoop where
  level : Nat
  cnt : Nat
  idx : Nat
  top : Nat
  bot : Nat
  deriving DecidableEq, Repr, Inhabited

/-- A tile ring (R245, R246). -/
structure Ring4 where
  /-- TRINGs that the program executed before this one -/
  id : Nat
  /-- space and place of slot 0 -/
  space : Nat
  handle : W32
  off : Nat
  /-- its slice offset on the core that holds it -/
  soff : Nat
  core : Nat
  size : Nat
  fullChute : Nat
  freeChute : Nat
  /-- next tile number, whether it is open, and the unreturned tiles (number, offset), oldest first -/
  next : Nat
  open_ : Bool
  unreturned : List (Nat × Nat)
  deriving DecidableEq, Repr, Inhabited

/-- States of a channel (R230). -/
inductive ChState where | idle | running | halted
  deriving DecidableEq, Repr, Inhabited

/-- Why a channel waits (PEN_SKD_STAT.WAIT). -/
inductive ChWait where | none | memPort | xlate | linkCredit | chute | tile | tally | window
  deriving DecidableEq, Repr, Inhabited

/-- A piece that a MOVE formed and the channel has not issued (R239, R240). -/
structure Planned where
  srcSpace : Nat
  dstSpace : Nat
  /-- values of the two generators' addresses -/
  src : W64
  dst : W64
  srcXa : Nat
  dstXa : Nat
  srcSlot : Bool
  dstSlot : Bool
  len : Nat
  /-- a following MOVE may still join it -/
  joinable : Bool
  /-- tile: 2^32 times its ring's id, plus its number -/
  tile : Option Nat
  pc : Nat
  deriving DecidableEq, Repr, Inhabited

/-- A Skidder channel (R230 to R248). -/
structure Channel where
  state : ChState
  halt : Bool
  code : BitVec 16
  pc : Nat
  prog : List W64
  g : List W64
  src : Gen
  dst : Gen
  /-- active levels, innermost first -/
  loops : List HLoop
  h : Table W64
  ring : Option Ring4
  /-- rings that a later TRING followed; their Chutes stay bound (R245) -/
  olds : List Ring4
  /-- 64-byte units fetched for tiles not returned, by 2^32 times the ring's id plus the tile's number (R248) -/
  fetched : Table Nat
  planned : List Planned
  wait : ChWait
  /-- END was executed, or STOP written: idle follows the last completion -/
  ending : Bool
  /-- it was stopped, so that what its accepted requests meet is recorded nowhere (R248) -/
  stopping : Bool
  /-- Tally at which the halt happened, and whether the job must still take its code -/
  job : Option Nat
  bytes : W64
  waste : W64
  merge : W64
  /-- window close that WCLOSE waits for (256 p + s) -/
  closing : Option Nat
  /-- bytes in the beat that a CHAIN MOVE is filling -/
  beat : List Byte
  deriving DecidableEq, Repr, Inhabited

def Channel.reset : Channel :=
  { state := .idle, halt := false, code := 0, pc := 0, prog := [], g := [], src := Gen.reset, dst := Gen.reset,
    loops := [], h := [], ring := none, olds := [], fetched := [], planned := [], wait := .none,
    ending := false, stopping := false, job := none, bytes := 0,
    waste := 0, merge := 0, closing := none, beat := [] }

/-- The Haul program counter that software sees: a MOVE's while its pieces issue (R233). -/
def Channel.shownPc (k : Channel) : Nat := match k.planned with
  | p :: _ => p.pc
  | [] => k.pc

/-- The state of Table 6.10, in the save frame of a yielded core, with the job and the bundle to resume at. -/
structure Saved where
  job : Nat
  s : Table W64
  a : Table W64
  v : Table VReg
  p : Table (BitVec 256)
  chutes : Table Chute
  pc : Nat
  loops : List Loop
  fs20 : Bool
  folds : BitVec 8
  flags : BitVec 64
  ctl : BitVec 5
  trgCtl : BitVec 32
  trgFlags : BitVec 32
  /-- D of the KERF to which the resume writes 1, none at a KP wait -/
  kerf : Option Nat
  /-- handles popped and not given away (R227) -/
  held : List W64
  deriving DecidableEq, Repr, Inhabited

/-- The trap that a core recorded. -/
structure Trap where
  code : BitVec 16
  bundle : Nat
  slot : Nat
  info : W64
  deriving DecidableEq, Repr, Inhabited

/-- The register files and the sequencer of a core (spec 06). -/
structure Sequencer where
  s : Table W64
  a : Table W64
  v : Table VReg
  p : Table (BitVec 256)
  /-- active loop levels, innermost first -/
  loops : List Loop
  pc : Nat
  stat : SeqStat
  resumed : Bool
  preempt : Bool
  trap : Option Trap
  kerfCnt : W64
  kerfYield : W64
  kerfGap : W32
  kerfSkip : W32
  bundleCnt : W64
  sbPeak : Nat
  imem : Table (BitVec 256)
  /-- bundles whose block is uncorrectable (R193) -/
  imemBad : List Nat
  qp : List QInstr
  qt : List QInstr
  qm : List QInstr
  qc : List QInstr
  claims : List Claim
  hold : Option Hold
  /-- number of the next instruction in program order -/
  num : Nat
  /-- cycles since the last Kerf point -/
  gap : Nat
  /-- a Kerf point drains, with D of a KERF -/
  draining : Option (Option Nat)
  /-- the KP-marked instruction that PEN_KERF_SKIP has counted -/
  skipped : Option Nat
  deriving DecidableEq, Repr, Inhabited

def Sequencer.reset : Sequencer :=
  { s := [], a := [], v := [], p := [], loops := [], pc := 0, stat := .idle, resumed := false, preempt := false,
    trap := none, kerfCnt := 0, kerfYield := 0, kerfGap := 0, kerfSkip := 0, bundleCnt := 0, sbPeak := 0, imem := [],
    imemBad := [], qp := [], qt := [], qm := [], qc := [], claims := [], hold := none, num := 0, gap := 0,
    draining := none, skipped := none }

/-- The Pens and their registers (spec 03, 04). -/
structure Pens where
  pens : Table Pen
  fs20 : Bool
  folds : BitVec 8
  flags : BitVec 64
  ctl : BitVec 5
  flights : List Flight
  walk : Option Walk
  loads : List Load
  /-- PEN_SKID_CTL -/
  skidMask : W32
  skidGen : Byte
  skidArmed : Bool
  skidUnits : Bool
  skidHold : Bool
  lastGen : Byte
  rows : Nat
  front : Option Front
  /-- markers and beats that wait at the router, in order (R95) -/
  router : List SkidMsg
  issueCnt : W64
  deriving DecidableEq, Repr, Inhabited

def Pens.reset : Pens :=
  { pens := [], fs20 := false, folds := 0, flags := 0, ctl := 0, flights := [], walk := none, loads := [], skidMask := 0, skidGen := 0,
    skidArmed := false, skidUnits := false, skidHold := false, lastGen := 0, rows := 0, front := none, router := [],
    issueCnt := 0 }

/-- The Trough, the codebook memory and their registers (spec 05). -/
structure Trough where
  books : Table Book
  banks : Table Bank
  /-- tags of the loaded sets: two in window mode, one in book mode -/
  tags : List TableTag
  bookMode : Bool
  passes : List Pass
  loads : List BookLoad
  /-- cycles that the reload of a set of decode tables still takes (R141) -/
  reload : Nat
  ctl : BitVec 32
  flags : BitVec 32
  failed : Bool
  failRow : Nat
  cnt : W64
  deriving DecidableEq, Repr, Inhabited

def Trough.reset : Trough :=
  { books := [], banks := [], tags := [], bookMode := false, passes := [], loads := [], reload := 0, ctl := 0, flags := 0,
    failed := false, failRow := 0, cnt := 0 }

/-- One core. -/
structure Core where
  sq : Sequencer
  pn : Pens
  tr : Trough
  topk : Option TopK
  /-- job that holds the core, rank and context of it -/
  job : Option Nat
  chutes : Table Chute
  channels : Table Channel
  /-- handles popped and not given away, for the audit (R255) -/
  held : List W64
  chainNext : Nat
  chainLast : Bool
  /-- PEN_MUS_STAT: the round (key) the core waits at -/
  musId : Nat
  musRound : BitVec 32
  musWaiting : Bool
  stepOff : Nat
  stepEn : Bool
  /-- exact cycle counts by cause number, and PEN_RUN_CNT -/
  stalls : Table Nat
  runCnt : W64
  /-- what the heads of the slot queues wait for, by slot number (R259) -/
  waits : Table Cause
  /-- phase tag of the core, the tag announced for a Tally instant, and its slot (R417) -/
  phase : Nat
  announced : Option (Nat × Nat)
  /-- Tally of the arrival at the Muster that the core grazes in (R422) -/
  grazing : Option Nat
  /-- slot of the fence that its FWAIT waits on (R331, R335) -/
  fwait : Option Nat
  /-- energy of the core's events in the running 2 us interval, and that of the issues which waited under POWER, in
  1/32 pJ at 0.900 V (R411, R414, R419) -/
  work : Nat
  waited : Nat
  deriving DecidableEq, Repr, Inhabited

def Core.reset : Core :=
  { sq := Sequencer.reset, pn := Pens.reset, tr := Trough.reset, topk := none, job := none, chutes := [],
    channels := [], held := [], chainNext := 0, chainLast := true, musId := 0, musRound := 0, musWaiting := false,
    stepOff := 0, stepEn := false, stalls := [], runCnt := 0, waits := [], phase := 0, announced := none,
    grazing := none, fwait := none, work := 0, waited := 0 }

end Sys2Proof.Machine
end

