-- ==== Sys2Proof/Machine/StateHost.lean ====
section
/-! DEFINITION. The state of the host side: records and outputs, event rings and MSI-X, Stalls and their queues,
memory objects, fences, jobs, semaphores and the sequence table (spec 10, 11, 15). -/

namespace Sys2Proof.Machine

/-- An error or event code (Table 15.1). -/
abbrev Code := BitVec 16

/-- An event record (Table 10.10); DETAIL is bytes 20 to 31, byte 20 in bits [7:0]. -/
structure EventRec where
  /-- Tally of the stamp (R43) -/
  tally : Nat
  code : Code
  /-- CLASS of Table 10.11 -/
  cls : Nat
  /-- 0 to 5, or 0xFF for the device -/
  paddock : Nat
  context : Nat
  handle : W32
  detail : BitVec 96
  deriving DecidableEq, Repr, Inhabited

/-- What leaves the block through its ports, in the order in which it leaves. The surroundings lie outside the
model; this log is what they receive. -/
inductive Out where
  /-- a record written at its ring's slot (R340) -/
  | ringRecord (ring : Nat) (dva : Nat) (r : EventRec)
  /-- P and the lost count written to GLB_EVR_WB (R340) -/
  | ringWriteBack (ring : Nat) (dva p lost : Nat)
  /-- an MSI-X message of a vector (R342) -/
  | msix (vector : Nat)
  /-- the 16 bytes of a fence's mirror (R337) -/
  | mirror (dva : Nat) (value : W64) (code : Code)
  /-- QSTATE and RUNNABLE of a queue's entry (Table 10.4) -/
  | queueEntry (queue qstate : Nat) (runnable : Bool)
  /-- the save area of a queue closed with its check word (R312) -/
  | saveArea (queue : Nat)
  /-- a CXL.cache write of a full line, and of a part of one, at its host physical address (R287, Table 9.4) -/
  | itoMWr (hpa : Nat) (data : List Byte)
  | woWrInv (hpa : Nat) (data : List Byte)
  /-- a CXL.cache read request (R287) -/
  | hostRead (hpa len : Nat)
  /-- an ATS Translation Request for a 64 KiB group (R294) -/
  | atsRequest (ctx group : Nat)
  /-- a Page Request with Last set (R295) -/
  | pageRequest (ctx dva : Nat)
  /-- an ATS Invalidate Completion (R297) -/
  | invalidateCompletion
  /-- RspIHitI (R287) -/
  | snoopResponse
  /-- a Drove frame sent at a port (R385) -/
  | frame (port : Nat) (f : DroveFrame)
  /-- an ARP reply or a neighbour advertisement (R383) -/
  | arpReply (port : Nat)
  | neighbourAdvert (port : Nat)
  /-- PFC pause of the Drove priority (R389) -/
  | pfcPause (port : Nat)
  /-- PTP messages of port 1 and the Delay_Req of port 0 (R34) -/
  | ptpAnnounce | ptpSync | ptpFollowUp (stamp : Nat) | ptpDelayReq | ptpDelayResp (stamp : Nat)
  /-- a Dzient response: code and bytes (R491) -/
  | dzient (code : Code) (data : List Byte)
  /-- an SPDM response: request row, status and bytes (R446) -/
  | spdm (what : Nat) (ok : Bool) (data : List Byte)
  /-- an MCTP control response: command, completion code, bytes (R487) -/
  | mctp (cmd : Nat) (completion : Nat) (data : List Byte)
  /-- a crash record written to a slot of the host crash area (R474) -/
  | crashRecord (slot : Nat) (seqno : Nat)
  /-- a trace record written to a trace ring (R456) -/
  | traceRecord (pdk : Nat) (data : BitVec 256)
  /-- a command to the firmware flash (R507 to R509) -/
  | flashProgram (unit : Nat) (data : List Byte)
  | flashErase (block : Nat)
  /-- a voltage request to the regulator (R409) -/
  | voltageRequest (level : Nat)
  deriving DecidableEq, Repr, Inhabited

/-- An event ring (Table 10.14, R340). -/
structure Ring where
  base : Nat
  en : Bool
  size : Nat
  context : Nat
  failed : Bool
  /-- INTERVAL of GLB_EVR_MOD, in us -/
  mod : Nat
  wb : Nat
  cons : Nat
  /-- producer index -/
  p : Nat
  lost : Nat
  deriving DecidableEq, Repr, Inhabited

def Ring.reset : Ring :=
  { base := 0, en := false, size := 0, context := 0, failed := false, mod := 0, wb := 0, cons := 0, p := 0, lost := 0 }

/-- An MSI-X vector: table entry, pending bit and moderation (R342). -/
structure Vec where
  addr : W64
  data : W32
  masked : Bool
  pending : Bool
  /-- a moderation interval runs -/
  moderating : Bool
  /-- records were written in the running interval -/
  owed : Bool
  deriving DecidableEq, Repr, Inhabited

def Vec.reset : Vec := { addr := 0, data := 0, masked := true, pending := false, moderating := false, owed := false }

/-- A Muster definition (R261, Table 6.18). -/
structure MusterDef where
  id : Nat
  /-- 0 Paddock, 1 device, 2 fabric -/
  scope : Nat
  /-- us; 0 stands for 10 ms -/
  timeout : Nat
  /-- ns -/
  lead : Nat
  paddocks : Nat
  peers : List Nat
  deriving DecidableEq, Repr, Inhabited

/-- Where an accepted command stands (R326). -/
inductive CmdPhase where
  | waiting | running | finished
  deriving DecidableEq, Repr, Inhabited

/-- An accepted command of a queue. -/
structure Cmd where
  seq : W32
  opcode : Nat
  cpl : Bool
  ser : Bool
  /-- words 1 to 7 -/
  w : List W64
  phase : CmdPhase
  /-- code the command failed with, 0 for success -/
  code : Code
  /-- handle that its COMPLETE record carries -/
  handle : W32
  /-- objects it holds a device reference on (R329) -/
  refs : List Nat
  /-- job that RUN_PROGRAM started -/
  job : Option Nat
  /-- bytes of COPY or YARD_LOAD already issued as pieces, and completed -/
  issued : Nat
  done : Nat
  /-- PWR_ENERGY at its start, and whether another command overlapped it (R430) -/
  energy : Nat
  overlap : Bool
  /-- definitions that MUSTER_SET made for this RUN_PROGRAM, until its job holds them (R261) -/
  musters : List MusterDef
  deriving DecidableEq, Repr, Inhabited

/-- States of a Stall (Table 10.5). -/
inductive StallState where
  | free | binding | bound | parked | unbinding | fenced
  deriving DecidableEq, Repr, Inhabited

/-- A queue's own state: what a save area keeps (R312) and a Stall holds while the queue is bound. -/
structure Queue where
  context : Nat
  paddock : Nat
  ring : Nat
  share : Nat
  save : Nat
  next : W32
  /-- landing slots: the eight words of each landed capsule by SEQ mod 32 (R320) -/
  landed : Table (List W64)
  accepted : List Cmd
  /-- MUSTER_SET definitions that wait for the next RUN_PROGRAM (R261) -/
  musters : List MusterDef
  /-- capsules taken since the last CREDIT record, and whether the 1 us timer runs (R322) -/
  taken : Nat
  /-- Tally of the last progress (R369) -/
  progress : Nat
  deriving DecidableEq, Repr, Inhabited

def Queue.reset : Queue :=
  { context := 0, paddock := 0, ring := 0, share := 0, save := 0, next := 0, landed := [], accepted := [],
    musters := [], taken := 0, progress := 0 }

/-- A Stall (R313, R349). -/
structure Stall where
  /-- QUEUE of GLB_STL_BIND -/
  queue : Nat
  state : StallState
  status : Code
  q : Queue
  lastErr : Code
  drop : W32
  /-- the BAD_FIELD record of R319 has been posted since the last take -/
  dropPosted : Bool
  /-- the PARTITION_RESET record of R344 has been posted -/
  fencePosted : Bool
  deriving DecidableEq, Repr, Inhabited

def Stall.reset : Stall :=
  { queue := 0, state := .free, status := 0, q := Queue.reset, lastErr := 0, drop := 0, dropPosted := false,
    fencePosted := false }

/-- A queue as the queue table and its save area hold it while it is OUT (R311, R312, R371). -/
structure OutQueue where
  /-- false until the queue's first bind -/
  known : Bool
  /-- 0 OUT, 1 RESIDENT, 2 PARKED -/
  qstate : Nat
  runnable : Bool
  q : Queue
  /-- the queue has an entry in the watch table: the fence and value its head waits for, if any -/
  watch : Option (Option (Nat × W64))
  deriving DecidableEq, Repr, Inhabited

def OutQueue.reset : OutQueue := { known := false, qstate := 0, runnable := false, q := Queue.reset, watch := none }

/-- Spaces of a memory object (R328). -/
inductive ObjSpace where | host | priv | yard
  deriving DecidableEq, Repr, Inhabited

/-- One of the 65,536 object slots (R328 to R330). -/
structure Obj where
  /-- generation of the slot -/
  gen : BitVec 12
  used : Bool
  space : ObjSpace
  context : Nat
  paddock : Nat
  rd : Bool
  wr : Bool
  seg : Nat
  core : Nat
  guarded : Bool
  /-- DVA (host), base in the private space, or slice offset (Yard) -/
  base : Nat
  len : Nat
  href : Nat
  dref : Nat
  /-- the zeroing of R273 still runs -/
  zeroing : Bool
  deriving DecidableEq, Repr, Inhabited

def Obj.reset : Obj :=
  { gen := 0, used := false, space := .host, context := 0, paddock := 0, rd := false, wr := false, seg := 0, core := 0,
    guarded := false, base := 0, len := 0, href := 0, dref := 0, zeroing := false }

/-- One of the 65,536 fence slots (R331). -/
structure Fence where
  gen : BitVec 12
  used : Bool
  context : Nat
  value : W64
  code : Code
  /-- Tally of the error -/
  errTally : Nat
  href : Nat
  /-- accepted commands and waiters that name the fence -/
  dref : Nat
  notify : Bool
  mirror : Nat
  mirrorStopped : Bool
  /-- queue, ring and Paddock of its creation -/
  queue : Nat
  ring : Nat
  paddock : Nat
  deriving DecidableEq, Repr, Inhabited

def Fence.reset : Fence :=
  { gen := 0, used := false, context := 0, value := 0, code := 0, errTally := 0, href := 0, dref := 0, notify := false,
    mirror := 0, mirrorStopped := false, queue := 0, ring := 0, paddock := 0 }

/-- Job states (Table 11.1). -/
inductive JobState where
  | ready | loading | running | draining | yielded | resuming | ended
  deriving DecidableEq, Repr, Inhabited

/-- A job (R148, R350). -/
structure Job where
  state : JobState
  paddock : Nat
  context : Nat
  /-- queue of the RUN_PROGRAM, and the command's SEQ -/
  queue : Nat
  seq : W32
  /-- number of cores asked for, and the cores assigned in rank order -/
  want : Nat
  cores : List Nat
  /-- cores that have halted, and cores that have yielded -/
  halted : List Nat
  yielded : List Nat
  image : W32
  entry : Nat
  args : List W64
  fence : W32
  value : W64
  share : Nat
  /-- share group that a loan charges instead (R367) -/
  loan : Option Nat
  /-- loans in the chain that reaches it -/
  loanDepth : Nat
  /-- semaphore and ticket that the loan was made for -/
  loanFor : Nat × Nat
  /-- bundles of its image, for the reload of a resume (R353) -/
  bundles : Table (BitVec 256)
  musters : List MusterDef
  /-- the image was read, the regions, definitions and frames exist (R152) -/
  loaded : Bool
  /-- code of its first trap (R191); code of its first channel halt, 0 once acknowledged, and that channel (R234) -/
  trapCode : Code
  haltCode : Code
  haltAt : Option (Nat × Nat)
  /-- candidate job for which its pre-emption was requested (R362) -/
  forJob : Option Nat
  /-- Tally at which it became a candidate, and of its last release or resume -/
  since : Nat
  released : Nat
  /-- it is the Paddock's step job (R372) -/
  step : Bool
  /-- tickets taken and not released: semaphore and ticket (R365) -/
  tickets : List (Nat × Nat)
  deriving DecidableEq, Repr, Inhabited

/-- A semaphore of a Paddock (R364). -/
structure Sem where
  context : Nat
  count : Nat
  valid : Bool
  bad : Bool
  fence : W32
  /-- next ticket, and ungranted tickets of ended jobs (R366) -/
  ticket : Nat
  abandoned : List Nat
  deriving DecidableEq, Repr, Inhabited

def Sem.reset : Sem :=
  { context := 0, count := 0, valid := false, bad := false, fence := 0, ticket := 0, abandoned := [] }

/-- States of a sequence (Table 11.3). -/
inductive SeqState where | free | joining | active | leaving | idle
  deriving DecidableEq, Repr, Inhabited

/-- One of the 65,536 entries of the sequence table (R375). -/
structure Seq where
  gen : BitVec 12
  state : SeqState
  paddock : Nat
  context : Nat
  share : Nat
  arg0 : W64
  arg1 : W64
  fence : W32
  /-- ring of the queue that joined it -/
  ring : Nat
  /-- the Stall and SEQ of a SEQ_LEAVE that waits for the close -/
  leave : Option (Nat × W32)
  /-- first step, 0 before it, and Tally of the last inclusion -/
  first : Nat
  last : Nat
  href : Nat
  /-- memory objects referenced through ARG0 and ARG1 (R376) -/
  refs : List Nat
  deriving DecidableEq, Repr, Inhabited

def Seq.reset : Seq :=
  { gen := 0, state := .free, paddock := 0, context := 0, share := 0, arg0 := 0, arg1 := 0, fence := 0, ring := 0,
    leave := none, first := 0, last := 0, href := 0, refs := [] }

/-- A Muster of a job and its current round (R263 to R267). -/
structure Round where
  /-- Paddock whose alarm slot carries the deadline -/
  paddock : Nat
  id : Nat
  job : Nat
  scope : Nat
  round : BitVec 32
  /-- cores that have arrived -/
  arrived : List Nat
  /-- peers that reported the round -/
  peers : List Nat
  /-- peers that reported the following round already -/
  early : List Nat
  /-- steps that members offered in their arrivals: n + 1 for step n (R420) -/
  offers : List Nat
  /-- steps offered with the arrivals of `early` -/
  earlyOffers : List Nat
  /-- an instruction of the round named the deadline (R265) -/
  named : Bool
  deadline : Option Nat
  /-- time left at a pause (R267) -/
  paused : Option Nat
  /-- Tally of the release, once completed with a LEAD -/
  releaseAt : Option Nat
  deriving DecidableEq, Repr, Inhabited

/-- What a share group has: weight, class and the internal account (R355). -/
structure Share where
  weight : Nat
  fg : Bool
  acct : Nat
  deriving DecidableEq, Repr, Inhabited

def Share.reset : Share := { weight := 1, fg := false, acct := 0 }

/-- The batch of the step that is closed or runs: entries (sequence index, new). -/
structure Batch where
  step : Nat
  /-- instant S of the release, and C of the close -/
  instant : Nat
  closedAt : Nat
  entries : List (Nat × Bool)
  fg : Nat
  /-- core time of the running step so far, in core nanoseconds (R357) -/
  time : Nat
  deriving DecidableEq, Repr, Inhabited

/-- Reset states of a Paddock (SHP_PDK_RST.STATE). -/
inductive PdkRst where | running | fenced | capturing | clearing | retraining | outOfService | absent
  deriving DecidableEq, Repr, Inhabited

/-- A Paddock: its Drover, its reset unit and its tables of windows and segments. Layout, keys and trace stand in
`Security`. -/
structure Pdk where
  /-- PREEMPT_EN and QUANTUM of PDK_DRV_CTL -/
  preemptEn : Bool
  quantum : Nat
  shares : Table Share
  /-- PDK_STEP_CTL -/
  stepEn : Bool
  periodic : Bool
  stepQueue : Nat
  batchMax : Nat
  lead : Nat
  seqQuota : Nat
  stepPeriod : Nat
  stepNum : Nat
  lastN : Nat
  lastFg : Nat
  late : Nat
  /-- a closed batch that waits for its release, and the batch of the running step -/
  closed : Option Batch
  inStep : Option Batch
  /-- instant S of a periodic step whose close waits for the step job's arrival (R373) -/
  stepDue : Option Nat
  sems : Table Sem
  /-- SHP_PDK_RST and SHP_PDK_PROG -/
  rst : PdkRst
  memLost : Bool
  lastCause : Code
  idle : Nat
  resets : Nat
  /-- Tally of the resets of the last 600 s, newest first -/
  history : List Nat
  prog : W32
  progSeen : W32
  /-- the Drover's liveness count at the last check and the checks it stayed unchanged (R467) -/
  alive : W32
  aliveSeen : W32
  aliveSame : Nat
  /-- jobs ended for HANG whose end is not reported yet: their RUN_PROGRAM has not completed -/
  hangJobs : List Nat
  /-- SEQNO of the crash record of the reset that runs -/
  crashSeq : Nat
  /-- Tally of the Paddock's latest fence -/
  fencedAt : Nat
  /-- incarnation (R391) -/
  inc : BitVec 8
  deriving DecidableEq, Repr, Inhabited

def Pdk.reset : Pdk :=
  { preemptEn := true, quantum := 200, shares := [], stepEn := false, periodic := false, stepQueue := 0, batchMax := 256,
    lead := 2, seqQuota := 8192, stepPeriod := 150000, stepNum := 0, lastN := 0, lastFg := 0, late := 0, closed := none,
    inStep := none, stepDue := none, sems := [], rst := .running, memLost := false, lastCause := 0, idle := 0, resets := 0, history := [],
    prog := 0, progSeen := 0, alive := 0, aliveSeen := 0, aliveSame := 0, hangJobs := [], crashSeq := 0, fencedAt := 0, inc := 0 }

/-- The GLB_ registers and the device-wide tables behind them (Table 10.13, Table 15.9). -/
structure Glb where
  ready : Bool
  /-- modules that are up -/
  link : BitVec 2
  /-- DEVSTATE: 0 STARTING, 1 RUNNING, 2 RESETTING, 3 OUT_OF_SERVICE -/
  devState : Nat
  drvCtx : W32
  qtabBase : W64
  qtabCnt : W32
  ringFail : Bool
  qtabFail : Bool
  failRing : Nat
  crashBase : W64
  crashEn : Bool
  crashSlots : Nat
  crashNext : Nat
  deriving DecidableEq, Repr, Inhabited

def Glb.reset : Glb :=
  { ready := false, link := 0, devState := 0, drvCtx := 0, qtabBase := 0, qtabCnt := 0, ringFail := false,
    qtabFail := false, failRing := 0, crashBase := 0, crashEn := false, crashSlots := 0, crashNext := 0 }

end Sys2Proof.Machine
end

