-- ==== Sys2Proof/Machine/StateYard.lean ====
section
/-! DEFINITION. The state of the memories outside the cores' pipelines: the Yard slices with their regions, merge
buffers, remap tables and windows (spec 07), the pieces of copies (spec 08), private memory, the translation copy
table and its walkers (spec 09). -/

namespace Sys2Proof.Machine

/-- A 32-byte block with its 32 check bits (R209). -/
structure Blk where
  data : Block256
  chk : W32
  deriving DecidableEq, Repr, Inhabited

def Blk.reset : Blk := { data := 0, chk := 0 }

/-- A region entry (R205, Table 7.11). -/
structure Region where
  valid : Bool
  guarded : Bool
  resident : Bool
  /-- holds Chute-managed slots -/
  chute : Bool
  base : Nat
  size : Nat
  owner : Nat
  /-- job of a JOB region -/
  job : Option Nat
  /-- a save frame of R352: no access of the job's engines passes for it -/
  frame : Bool
  /-- the clear of R208 runs -/
  clearing : Bool
  deriving DecidableEq, Repr, Inhabited

def Region.reset : Region :=
  { valid := false, guarded := false, resident := false, chute := false, base := 0, size := 0, owner := 0, job := none,
    frame := false, clearing := false }

/-- A merge-buffer entry (R214); mask bit k stands for byte k. -/
structure Merge where
  block : Nat
  data : Block256
  mask : W32
  /-- grid cycle of the last write into it (R215) -/
  last : Nat
  /-- channels (core, channel) with bytes in it (R232, R255) -/
  chans : List (Nat × Nat)
  deriving DecidableEq, Repr, Inhabited

/-- A valid remap entry (R217). -/
structure Remap where
  bank : Nat
  fused : Bool
  row : Nat
  word : Nat
  spare : W32
  deriving DecidableEq, Repr, Inhabited

/-- A request of a slice's port that has not been granted (R201): its class in the order of Table 7.2 from 0, the port, the
cycles in which it has been refused, and whether an issue of the core waits on it. -/
structure PortReq where
  cls : Nat
  port : Nat
  age : Nat
  own : Bool
  /-- the LAND or TAKE burst it belongs to, and whether that burst has had its first grant (R244) -/
  burst : Option Nat
  begun : Bool
  /-- channels (core, channel) whose writes it carries, (core, 2) for the core's own (R232, R255) -/
  chans : List (Nat × Nat)
  deriving DecidableEq, Repr, Inhabited

/-- One core's Yard slice. -/
structure Slice where
  data : Table Blk
  regions : Table Region
  /-- oldest first -/
  merge : List Merge
  /-- blocks whose write-back waits (R211) -/
  mends : List Nat
  remap : List Remap
  /-- words in which a guarded read mended a bit or a plain read found a parity failure in the last 86,400 s (R218): bank,
  row, word, guarded, Tally -/
  faults : List (Nat × Nat × Nat × Bool × Nat)
  /-- requests that wait for their ports, in order of arrival, and the grid cycle after each port's last MEND grant (R201) -/
  requests : List PortReq
  mendNext : Table Nat
  /-- bursts presented so far -/
  bursts : Nat
  patrol : Bool
  audit : Bool
  patrolLine : Nat
  ceCnt : W64
  ueCnt : W64
  ceAddr : W32
  ueAddr : W32
  portGrant : W64
  portDeny : W64
  mrgCnt : W64
  auditCnt : W64
  auditAddr : W32
  deriving DecidableEq, Repr, Inhabited

def Slice.reset : Slice :=
  { data := [], regions := [], merge := [], mends := [], remap := [], faults := [], requests := [], mendNext := [], bursts := 0,
    patrol := true, audit := false,
    patrolLine := 0, ceCnt := 0, ueCnt := 0, ceAddr := 0, ueAddr := 0, portGrant := 0, portDeny := 0, mrgCnt := 0,
    auditCnt := 0, auditAddr := 0 }

/-- States of a window slot (Table 7.7). -/
inductive WinState where | free | open_ | closing
  deriving DecidableEq, Repr, Inhabited

/-- A window slot (Table 7.12), keyed by 256 p + s. -/
structure Window where
  state : WinState
  rd : Bool
  wr : Bool
  mesh : Bool
  drove : Bool
  core : Nat
  gen : BitVec 20
  base : Nat
  len : Nat
  owner : Nat
  job : Option Nat
  /-- accepted transfers that have not finished -/
  inFlight : Nat
  /-- object that an open window over a Yard object references (R329) -/
  obj : Option Nat
  deriving DecidableEq, Repr, Inhabited

def Window.reset : Window :=
  { state := .free, rd := false, wr := false, mesh := false, drove := false, core := 0, gen := 0, base := 0, len := 0,
    owner := 0, job := none, inFlight := 0, obj := none }

/-- One end of a copy (R237). -/
inductive Loc where
  /-- an offset in a core's own slice -/
  | slice (core off : Nat)
  /-- a window handle and the window-relative offset -/
  | window (handle : W32) (off : Nat)
  /-- a slot handle's slice offset, reached through a window (HBASE) -/
  | slot (handle : W32) (off : Nat)
  /-- a device virtual address -/
  | dva (a : Nat)
  /-- a window handle and offset at a Drove peer -/
  | remote (peer : Nat) (handle : W32) (off : Nat)
  /-- the skid chain -/
  | chain
  deriving DecidableEq, Repr, Inhabited

/-- Who issued a piece. -/
inductive PieceOwner where
  | channel (core ch : Nat)
  /-- COPY or YARD_LOAD of a Stall -/
  | command (stall : Nat) (seq : W32)
  deriving DecidableEq, Repr, Inhabited

/-- Where an issued piece stands. -/
inductive PiecePhase where
  /-- waits for a translation of its source or destination (R296) -/
  | translate
  /-- its source request is on the way: host read, private read, window check, or remote read -/
  | read
  /-- its data are read, its destination request waits for the window check -/
  | check
  /-- all bytes lie in the landing buffer of `core` (R243) -/
  | land
  /-- its destination writes are accepted and wait for completion or GO -/
  | write
  deriving DecidableEq, Repr, Inhabited

/-- A piece of a copy (R239). -/
structure Piece where
  owner : PieceOwner
  ctx : Nat
  pdk : Nat
  job : Option Nat
  src : Loc
  dst : Loc
  len : Nat
  phase : PiecePhase
  data : List Byte
  /-- slice offset and core that the destination check resolved -/
  land : Option (Nat × Nat)
  /-- window slot (256 p + s) it is accepted at -/
  win : Option Nat
  /-- the source's host physical address and the destination's, once translated -/
  srcHpa : Option Nat
  dstHpa : Option Nat
  /-- tile of the stream it belongs to -/
  tile : Option Nat
  /-- its owner was stopped: read data are discarded -/
  discard : Bool
  /-- Haul program counter of the MOVE that it comes from (R233) -/
  pc : Nat
  /-- place in the order in which window writes were sent into the mesh (R18), 0 before that -/
  sent : Nat
  /-- byte of the Paddock's private space that its accepted private request begins at, its place in the order of arrival, and its
  bursts without a memory slot, by channel (R241) -/
  place : Nat
  asked : Nat
  bursts : Table Nat
  /-- an invalidation took the translation that one end had while it waits for the other's -/
  redo : Bool
  deriving DecidableEq, Repr, Inhabited

/-- A 64-byte line of private memory with the key generation it was written under (R279, R285). -/
structure Line where
  /-- 0 before any write -/
  key : Nat
  data : BitVec 512
  deriving DecidableEq, Repr, Inhabited

def Line.reset : Line := { key := 0, data := 0 }

/-- States of an LPDDR5X channel (Table 9.2). -/
inductive ChanState where | off | training | active | selfRefresh | failed
  deriving DecidableEq, Repr, Inhabited

/-- The seal of a channel: Tally of entry, epoch, Paddock, seal count, and the key generation it is written under. -/
structure Seal where
  tally : Nat
  epoch : Nat
  paddock : Nat
  count : Nat
  key : Nat
  deriving DecidableEq, Repr, Inhabited

/-- An LPDDR5X channel (R275 to R286). -/
structure Chan where
  state : ChanState
  /-- training failures in a row -/
  fails : Nat
  sealOk : Bool
  sealCount : Nat
  /-- the seal in the channel and the Shepherd's copy -/
  written : Option Seal
  copy : Option Seal
  lines : Table Line
  ce : W64
  ue : W32
  macf : W32
  failLine : Nat
  failCode : BitVec 16
  deriving DecidableEq, Repr, Inhabited

def Chan.reset : Chan :=
  { state := .off, fails := 0, sealOk := false, sealCount := 0, written := none, copy := none, lines := [], ce := 0,
    ue := 0, macf := 0, failLine := 0, failCode := 0 }

/-- A segment entry (Table 9.11), keyed by 256 p + s. -/
structure Segment where
  rd : Bool
  wr : Bool
  seg : Nat
  owner : Nat
  /-- units of 2 MiB -/
  base : Nat
  len : Nat
  deriving DecidableEq, Repr, Inhabited

/-- Page sizes of the translation copy table (R290). -/
inductive PageSize where | p4K | p2M | p1G
  deriving DecidableEq, Repr, Inhabited

/-- An ATC entry (R290). -/
structure AtcEntry where
  context : Nat
  size : PageSize
  group : Nat
  mask : BitVec 16
  base : Int
  r : Bool
  w : Bool
  /-- some page came with the Global bit (Table 9.5) -/
  global : Bool
  /-- commands (queue, SEQ) that hold it; their number is the hold count -/
  holders : List (Nat × W32)
  /-- commands whose hold on it was refused and counted (R292) -/
  refused : List (Nat × W32)
  /-- order of the last access -/
  used : Nat
  deriving DecidableEq, Repr, Inhabited

/-- Why a walker waits. -/
inductive WalkPhase where
  | translation | page
  deriving DecidableEq, Repr, Inhabited

/-- A busy walker (R294, R295). -/
structure Walker where
  context : Nat
  /-- DVA div 64 KiB -/
  group : Nat
  pdk : Nat
  phase : WalkPhase
  /-- pieces that wait on it, in arrival order -/
  pieces : List Nat
  /-- a page request was answered with Success -/
  retried : Bool
  /-- an overlapping invalidation arrived after the request (R299) -/
  stale : Bool
  /-- page of the piece that the Page Request names -/
  page : Nat
  /-- queues and SEQ of commands that translate at queueing (R293) -/
  queued : List (Nat × W32)
  deriving DecidableEq, Repr, Inhabited

/-- What waits for a free walker: a piece, or a group that a command translates at queueing. -/
inductive Miss where
  | piece (pid : Nat)
  | queue (queue : Nat) (seq : W32) (ctx pdk group : Nat)
  deriving DecidableEq, Repr, Inhabited

/-- An outstanding invalidation or flush: agents still to acknowledge, and the pieces whose host requests came before
the notice (R297, R300). -/
structure Inval where
  flush : Bool
  agents : List Nat
  pieces : List Nat
  deriving DecidableEq, Repr, Inhabited

/-- The translation unit (Table 9.8). -/
structure Xlt where
  priStop : Bool
  qxlt : Bool
  atc : List AtcEntry
  walkers : Table Walker
  /-- what waits for a free walker, in arrival order -/
  misses : List Miss
  invals : List Inval
  hits : W64
  missCnt : W64
  prCnt : W64
  invCnt : W64
  invToCnt : W32
  holdOvf : W32
  faultDva : Nat
  faultCtx : Nat
  faultCode : BitVec 16
  faultPdk : Nat
  /-- access order -/
  clock : Nat
  deriving DecidableEq, Repr, Inhabited

def Xlt.reset : Xlt :=
  { priStop := false, qxlt := true, atc := [], walkers := [], misses := [], invals := [], hits := 0, missCnt := 0,
    prCnt := 0, invCnt := 0, invToCnt := 0, holdOvf := 0, faultDva := 0, faultCtx := 0, faultCode := 0, faultPdk := 0,
    clock := 0 }

end Sys2Proof.Machine
end

