-- ==== Sys2Proof/Machine/Table.lean ====
section
/-! DEFINITION. The operations on sparse tables (`Table`): one canonical form, so equal contents are equal data.

A table lists, in strictly rising order of the numbers, the entries that differ from `d`, the value every unlisted
number reads as. -/

namespace Sys2Proof

variable {α : Type}

/-- The entry numbered `i`, or `d` where nothing is listed. -/
def Table.get (t : Table α) (d : α) (i : Nat) : α :=
  match t with
  | [] => d
  | (k, v) :: r => if k = i then v else Table.get r d i

/-- The entry numbered `i`, if listed. -/
def Table.find (t : Table α) (i : Nat) : Option α :=
  match t with
  | [] => none
  | (k, v) :: r => if k = i then some v else Table.find r i

/-- The table without the entry numbered `i`. -/
def Table.erase (t : Table α) (i : Nat) : Table α :=
  match t with
  | [] => []
  | (k, v) :: r => if k = i then Table.erase r i else (k, v) :: Table.erase r i

/-- Lists `v` under `i` before the first larger number (used on a table that does not list `i`). -/
def Table.insert (t : Table α) (i : Nat) (v : α) : Table α :=
  match t with
  | [] => [(i, v)]
  | (k, w) :: r => if i < k then (i, v) :: (k, w) :: r else (k, w) :: Table.insert r i v

/-- Lists `v` under `i`, whatever `v` is (tables whose entries have no default). -/
def Table.put (t : Table α) (i : Nat) (v : α) : Table α := (Table.erase t i).insert i v

/-- Writes `v` under `i`; writing the default removes the entry. -/
def Table.set [DecidableEq α] (t : Table α) (d : α) (i : Nat) (v : α) : Table α :=
  if v = d then Table.erase t i else Table.put t i v

/-- Applies `f` to the entry numbered `i`. -/
def Table.modify [DecidableEq α] (t : Table α) (d : α) (i : Nat) (f : α → α) : Table α :=
  Table.set t d i (f (Table.get t d i))

/-- Numbers strictly above `lo` and rising. -/
def Table.risingFrom (t : Table α) (lo : Option Nat) : Bool :=
  match t with
  | [] => true
  | (k, _) :: r => (match lo with | none => true | some l => decide (l < k)) && Table.risingFrom r (some k)

/-- The canonical form: rising numbers, and no entry equal to the default. -/
def Table.wf [DecidableEq α] (t : Table α) (d : α) : Bool :=
  Table.risingFrom t none && t.all (fun kv => decide (kv.2 ≠ d))

/-- The listed entries that satisfy `p` (numbers and entries). -/
def Table.keep (t : Table α) (p : Nat → α → Bool) : Table α := t.filter (fun kv => p kv.1 kv.2)

/-- Every listed entry changed by `f`, the numbers kept (used where `f` never makes an entry the default). -/
def Table.mapVals {β : Type} (t : Table α) (f : α → β) : Table β := t.map (fun kv => (kv.1, f kv.2))

/-- Every listed entry changed by `f`, the numbers kept, entries that become the default removed. -/
def Table.mapAll [DecidableEq α] (t : Table α) (d : α) (f : α → α) : Table α :=
  (t.map fun kv => (kv.1, f kv.2)).filter fun kv => decide (kv.2 ≠ d)

/-- The listed entries whose numbers lie in `ks`, folded through `f` in rising order. -/
def Table.foldl {β : Type} (t : Table α) (f : β → Nat → α → β) (b : β) : β :=
  List.foldl (fun b kv => f b kv.1 kv.2) b t

/-- The smallest number below `n` that `p` accepts, searched from `i` upward. -/
def lowestFrom (p : Nat → Bool) : (fuel i : Nat) → Option Nat
  | 0, _ => none
  | fuel + 1, i => if p i then some i else lowestFrom p fuel (i + 1)

/-- The smallest number below `n` that `p` accepts. -/
def lowest (p : Nat → Bool) (n : Nat) : Option Nat := lowestFrom p n 0

end Sys2Proof
end

