-- ==== Sys2Proof/Machine/StateShep.lean ====
section
/-! DEFINITION. The state of the Shepherd domain and the device-wide units: Tally and calendar (spec 02), Drove links
(spec 12), power, thermal and supply (spec 13), layout, keys, entropy and trace (spec 14), resets (spec 15), the
dictionary and its sessions (spec 16), the firmware store (spec 17), start-up (spec 18). -/

namespace Sys2Proof.Machine

/-- STATE of TLY_STATUS (Table 2.6). -/
inductive TlyState where | acquiring | locked | holdover | freeRun
  deriving DecidableEq, Repr, Inhabited

/-- An alarm slot (Table 2.7). -/
structure Alarm where
  armed : Bool
  periodic : Bool
  late : Bool
  kind : Nat
  owner : Nat
  target : Nat
  miss : Nat
  cmp : Nat
  per : Nat
  /-- reserved under R261 or R372 while not armed -/
  reserved : Bool
  /-- the compare value was already past when the slot was armed (R39) -/
  past : Bool
  /-- Tally at which the slot fires, once that is reached (R38) -/
  due : Option Nat
  /-- the context that owns a HOST_EVENT, and its ring (Table 2.3) -/
  context : Nat
  ring : Nat
  deriving DecidableEq, Repr, Inhabited

def Alarm.reset : Alarm :=
  { armed := false, periodic := false, late := false, kind := 0, owner := 0, target := 0, miss := 0, cmp := 0, per := 0,
    reserved := false, past := false, due := none, context := 0, ring := 0 }

/-- The slot as the Tally reads `now`: an armed one whose compare value is reached fires at that instant (R38). -/
def Alarm.seen (now : Nat) (a : Alarm) : Alarm :=
  if a.armed && a.due.isNone && decide (a.cmp ≤ now) then { a with due := some now } else a

/-- The Tally unit and the calendar (Table 2.5). -/
structure Tally where
  now : Nat
  /-- the Tally advances (R519) -/
  running : Bool
  /-- signed trim in parts per million (R25), and its remainder in 10^-6 ns -/
  trim : Int
  trimRem : Int
  hiLatch : W32
  src : Nat
  state : TlyState
  ptpTx : Bool
  /-- ns per count, 32.32 -/
  rate : W64
  /-- TC_CLK frequency in Hz -/
  hz : Nat
  errBnd : W32
  epoch : Nat
  anchTally : Nat
  /-- Table 2.8 layout -/
  anchCal : W64
  /-- the anchors of this epoch, latest first: Tally and calendar word (R48, R49) -/
  anchors : List (Nat × W64)
  /-- fraction and seconds in one count of 1/32,768 s, its remainder in 10^-9 of a count, and CAL_VALID -/
  cal : Nat
  calRem : Nat
  calValid : Bool
  /-- CAL_LOST is owed at the next start (R47) -/
  calLost : Bool
  /-- a calendar value that takes effect at the next fraction boundary (R46) -/
  calSet : Option Nat
  stepCnt : W32
  frameErr : W32
  /-- bad frames in a row, the local edge count, by how much the last good frame's count differed from it, and whether a good
  frame has set the Tally -/
  badRow : Nat
  edges : Nat
  edgeDiff : Int
  set : Bool
  /-- offset of the source that is still to be trimmed away, in ns: backward, and forward (R31) -/
  backward : Nat
  ahead : Nat
  /-- the alarm slots -/
  alarms : Table Alarm
  /-- PTP: domain, selected time transmitter and its rank, its sync interval and hops -/
  ptpDomain : BitVec 8
  ptpSource : Option (BitVec 80)
  ptpRank : Nat
  ptpInterval : Nat
  ptpHops : Nat
  utcValid : Bool
  utcOffset : Int
  /-- a two-step Sync that waits for its Follow_Up: sequence number, local receive Tally, and its correction -/
  ptpSync : Option (BitVec 16 × Nat × Int)
  /-- master time and local time of the last accepted Sync -/
  ptpLast : Option (Nat × Nat)
  /-- mean path delay of the last completed exchange -/
  ptpDelay : Option Int
  deriving DecidableEq, Repr, Inhabited

def Tally.reset : Tally :=
  { now := 0, running := false, trim := 0, trimRem := 0, hiLatch := 0, src := 0, state := .acquiring, ptpTx := false,
    rate := 0x0000000100000000, hz := 0, errBnd := 0xFFFFFFFF, epoch := 0, anchTally := 0, anchCal := 0, anchors := [], cal := 0,
    calRem := 0, calValid := false, calLost := false, calSet := none, stepCnt := 0, frameErr := 0, badRow := 0, edges := 0, edgeDiff := 0,
    set := false,
    backward := 0, ahead := 0, alarms := [], ptpDomain := 0, ptpSource := none, ptpRank := 0, ptpInterval := 0, ptpHops := 0,
    utcValid := false, utcOffset := 0, ptpSync := none, ptpLast := none, ptpDelay := none }

/-- The slots at the Tally's present value. -/
def Tally.marked (t : Tally) : Tally := { t with alarms := Table.mapVals t.alarms (Alarm.seen t.now) }

/-- A Drove port (Table 12.9). -/
structure Port where
  up : Bool
  fecLock : Bool
  anDone : Bool
  paused : Bool
  ip4 : BitVec 32
  vid : W32
  ip6 : BitVec 128
  /-- frames that wait at this egress while its Drove priority is held, in arrival order; true for a forwarded one (R389) -/
  queue : List (Bool × DroveFrame)
  txFrm : W64
  rxFrm : W64
  rxDrop : W64
  fwdFrm : W64
  fwdDrop : W64
  retx : W64
  fecCorr : W64
  fecUncorr : W64
  ptpDrop : W64
  deriving DecidableEq, Repr, Inhabited

def Port.reset : Port :=
  { up := false, fecLock := false, anDone := false, paused := false, ip4 := 0, vid := 0, ip6 := 0, queue := [], txFrm := 0,
    rxFrm := 0, rxDrop := 0, fwdFrm := 0, fwdDrop := 0, retx := 0, fecCorr := 0, fecUncorr := 0, ptpDrop := 0 }

/-- Session states (Table 12.4). -/
inductive SessState where | down | opening | up
  deriving DecidableEq, Repr, Inhabited

/-- A sequenced frame that is not acknowledged yet (R395). -/
structure Unacked where
  psn : BitVec 24
  f : DroveFrame
  /-- Tally of the first and of the last sending -/
  first : Nat
  last : Nat
  rto : Nat
  /-- piece it carries -/
  piece : Option Nat
  deriving DecidableEq, Repr, Inhabited

/-- A binding and its session (Table 12.10). -/
structure Binding where
  valid : Bool
  pdk : Nat
  peerPdk : Nat
  peer : BitVec 16
  credits : Nat
  state : SessState
  /-- peer incarnation last heard -/
  pinc : BitVec 8
  heard : Bool
  txPsn : BitVec 24
  rxExp : BitVec 24
  crLim : BitVec 24
  /-- credit limit granted to the peer -/
  granted : BitVec 24
  unacked : List Unacked
  /-- sequenced frames that wait for a credit, in order, each with the piece it carries -/
  owed : List (DroveFrame × Option Nat)
  /-- READ_REQs that wait for their READ_RSP: PSN and piece -/
  reads : List (BitVec 24 × Nat)
  /-- the last acknowledged WRITE frames: PSN, owner, window handle and offset, for a NAK that comes later (R399) -/
  acked : List (BitVec 24 × PieceOwner × W32 × Nat)
  /-- frames received out of order (R392) -/
  heldFrames : List DroveFrame
  /-- pieces taken by the remote engine, oldest first -/
  pieces : List Nat
  /-- an ACK is owed (R394) -/
  ackOwed : Bool
  /-- smoothed round trip in ns -/
  srtt : Nat
  /-- receive stamp of the last frame that its session took (R43) -/
  rxAt : Nat
  deriving DecidableEq, Repr, Inhabited

def Binding.reset : Binding :=
  { valid := false, pdk := 0, peerPdk := 0, peer := 0, credits := 0, state := .down, pinc := 0, heard := false, txPsn := 0,
    rxExp := 0, crLim := 0, granted := 0, unacked := [], owed := [], reads := [], acked := [], heldFrames := [], pieces := [], ackOwed := false,
    srtt := 0, rxAt := 0 }

/-- A neighbour entry (Table 12.11). -/
structure Neighbour where
  mac : BitVec 48
  valid : Bool
  v6 : Bool
  ip4 : BitVec 32
  ip6 : BitVec 128
  deriving DecidableEq, Repr, Inhabited

def Neighbour.reset : Neighbour := { mac := 0, valid := false, v6 := false, ip4 := 0, ip6 := 0 }

/-- The Drove links (Table 12.8). -/
structure Links where
  addr : BitVec 16
  ctl : W32
  dport : BitVec 16
  ports : Table Port
  bindings : Table Binding
  /-- trusted addresses: VALID in bit 16 -/
  trust : Table (BitVec 17)
  nbrs : Table Neighbour
  /-- LNK_ROUTE bytes -/
  routes : Table Byte
  deriving DecidableEq, Repr, Inhabited

def Links.reset : Links :=
  { addr := 0, ctl := 0x000A001A, dport := 47102, ports := [], bindings := [], trust := [], nbrs := [], routes := [] }

/-- Supply states (R423). -/
inductive Supply where | normal | warning | hold
  deriving DecidableEq, Repr, Inhabited

/-- A learned phase entry (R419). -/
structure Phase where
  tag : Nat
  pdk : Nat
  valid : Bool
  need : Nat
  samples : Nat
  /-- order of the last announcement -/
  used : Nat
  deriving DecidableEq, Repr, Inhabited

def Phase.reset : Phase := { tag := 0, pdk := 0, valid := false, need := 0, samples := 0, used := 0 }

/-- A step raise that waits for PM_VACK (R409). -/
structure Raise where
  target : Nat
  asked : Nat
  deriving DecidableEq, Repr, Inhabited

/-- Power, thermal and supply control (Table 13.6). -/
structure Power where
  cur : Nat
  common : Nat
  /-- a common step applies (R529) -/
  commonOn : Bool
  maxStep : Nat
  limit : Nat
  lag : Bool
  capSet : Nat
  ctl : W32
  /-- mW mean, and whether coarsening is in force -/
  power : Nat
  energy : Nat
  /-- pJ below 1 uJ -/
  energyRem : Nat
  /-- the energy that readers see while coarsened (R431) -/
  energySeen : Nat
  est : Nat
  /-- estimates of the intervals of the last 1 ms, newest first -/
  ests : List Nat
  supply : Supply
  dipCnt : Nat
  /-- first crossing, lowest sample in mV, ns below the level, step before the warning -/
  dipAt : Nat
  dipLow : Nat
  dipNs : Nat
  dipStep : Nat
  vreq : Nat
  vack : Bool
  hot : Int
  hotSensor : Nat
  /-- 0 normal, 1 warning, 2 trip -/
  therm : Nat
  thermWarn : Nat
  /-- last time MAXSTEP moved, and since when the trip has been cool -/
  thermAt : Nat
  coolAt : Option Nat
  alert : Bool
  crit : Bool
  bellwether : BitVec 16
  offer : Nat
  lastCommon : Nat
  lagCnt : W32
  sensors : Table (Int × Bool)
  /-- budget (mW) and balance (signed pJ) of each core -/
  budgets : Table Nat
  balances : Table Int
  /-- last 8 core energies (pJ) and uncore estimates, newest first -/
  coreEnergy : Table (List Nat)
  uncore : List Nat
  phases : Table Phase
  phaseClock : Nat
  /-- default phase of each Paddock (R418) -/
  defaults : Table Nat
  /-- running sums of a core's phase: energy over r(s), in pJ, and intervals (R419) -/
  learning : Table (Nat × Nat)
  pending : Option Raise
  suppress : Bool
  /-- successive decisions that allowed the higher step -/
  agreed : Option Nat
  /-- step decided at the announcement of a core's coming phase (R419) -/
  prepared : Table Nat
  /-- common step to raise to, and to lower to, at the Tally given (R421) -/
  lockRaise : Option (Nat × Nat)
  lockLower : Option (Nat × Nat)
  /-- 2 us interval counter -/
  interval : Nat
  /-- Tally of the entry to WARNING and to HOLD -/
  warnAt : Nat
  holdAt : Nat
  /-- thousandths of a cycle of the grid clock since its last cycle -/
  cycRem : Nat
  /-- cycles of the grid clock since the power-on reset -/
  cycles : Nat
  deriving DecidableEq, Repr, Inhabited

def Power.reset : Power :=
  { cur := 0, common := 15, commonOn := false, maxStep := 0, limit := 0, lag := false, capSet := 0, ctl := 0x0032F0C0,
    power := 0, energy := 0, energyRem := 0, energySeen := 0, est := 0, ests := [], supply := .normal, dipCnt := 0,
    dipAt := 0, dipLow := 0, dipNs := 0, dipStep := 0, vreq := 0x78, vack := false, hot := 0, hotSensor := 0, therm := 0,
    thermWarn := 95, thermAt := 0, coolAt := none, alert := false, crit := false, bellwether := 0, offer := 0,
    lastCommon := 0, lagCnt := 0, sensors := [], budgets := [], balances := [], coreEnergy := [], uncore := [],
    phases := [], phaseClock := 0, defaults := [], learning := [], pending := none, suppress := false, agreed := none,
    prepared := [], lockRaise := none, lockLower := none, interval := 0, warnAt := 0, holdAt := 0, cycRem := 0, cycles := 0 }

/-- The layout of one Paddock (PDK_LAYOUT). -/
structure Layout where
  corePairs : BitVec 6
  chanPairs : BitVec 8
  confidential : Bool
  session : Bool
  debugOpen : Bool
  present : Bool
  deriving DecidableEq, Repr, Inhabited

def Layout.reset : Layout :=
  { corePairs := 0, chanPairs := 0, confidential := false, session := false, debugOpen := false, present := false }

/-- Phases of a tenant removal (Table 14.8, R460). -/
inductive RmvPhase where | none | fenced | retiring | scrubbing | pending
  deriving DecidableEq, Repr, Inhabited

/-- A bundle slot (R450). Its key is the token of its installation. -/
structure Bundle where
  installed : Bool
  context : Nat
  dva : Nat
  length : Nat
  id : BitVec 128
  header : List Byte
  key : Nat
  deriving DecidableEq, Repr, Inhabited

def Bundle.reset : Bundle := { installed := false, context := 0, dva := 0, length := 0, id := 0, header := [], key := 0 }

/-- A trace unit (R456, Table 14.15). -/
structure Trace where
  en : Bool
  wrap : Bool
  dataEn : Bool
  kinds : BitVec 7
  context : Nat
  size : Nat
  base : Nat
  ptr : Nat
  lost : W64
  full : Bool
  /-- grid cycle of the last record: one is written per cycle at most (R456) -/
  last : Option Nat
  deriving DecidableEq, Repr, Inhabited

def Trace.reset : Trace :=
  { en := false, wrap := false, dataEn := false, kinds := 0, context := 0, size := 0, base := 0, ptr := 0, lost := 0,
    full := false, last := none }

/-- The security state of one Paddock. -/
structure PdkSec where
  layout : Layout
  /-- layout that takes effect at the end of the removal (R435) -/
  newLayout : Option Layout
  phase : RmvPhase
  /-- a removal waits for the capture of a reset (R458) -/
  rmvWaits : Bool
  rmvCnt : W32
  rmvTally : Nat
  /-- key generation in the flash key record -/
  kgen : W32
  /-- the memory keys installed: 0 none; odd for FUSED keys, by Paddock and generation; even for SESSION keys, by the number of
  their draw -/
  memKey : Nat
  /-- the intake key pair, by the number of its draw -/
  intakeKey : Nat
  bundles : Table Bundle
  trace : Trace
  deriving DecidableEq, Repr, Inhabited

def PdkSec.reset : PdkSec :=
  { layout := Layout.reset, newLayout := none, phase := .none, rmvWaits := false, rmvCnt := 0, rmvTally := 0, kgen := 0,
    memKey := 0, intakeKey := 0, bundles := [], trace := Trace.reset }

/-- Entropy, DRBG and attestation counters (R439, R440, Table 14.12). -/
structure Security where
  pdks : Table PdkSec
  entFail : Bool
  seeded : Bool
  failCnt : Nat
  /-- good samples in a row since the failure -/
  goodRun : Nat
  drbgReqs : Nat
  seedAt : Nat
  seedNum : Nat
  /-- number of the last key installation -/
  keyCount : Nat
  attestCnt : W64
  /-- objects that are SEALED (R452) -/
  sealedObjs : List Nat
  deriving DecidableEq, Repr, Inhabited

def Security.reset : Security :=
  { pdks := [], entFail := false, seeded := false, failCnt := 0, goodRun := 0, drbgReqs := 0, seedAt := 0, seedNum := 0,
    keyCount := 0, attestCnt := 0, sealedObjs := [] }

/-- A crash record: header fields, and the kinds of its sections with their units and the Tally of their capture (R475). -/
structure Crash where
  scope : Nat
  paddock : Nat
  tally : Nat
  epoch : Nat
  cause : BitVec 16
  inc : BitVec 8
  reduced : Bool
  part : Bool
  seqno : Nat
  sections : List (Nat × Nat × Nat)
  deriving DecidableEq, Repr, Inhabited

/-- A dormant segment entry kept across a device reset (R478). -/
structure Dormant where
  pdk : Nat
  context : Nat
  seg : Nat
  base : Nat
  len : Nat
  rd : Bool
  wr : Bool
  deriving DecidableEq, Repr, Inhabited

/-- The reset unit and the watchdog (Table 15.9). -/
structure Resets where
  hb : W32
  wdArmed : Bool
  wdExp : Nat
  wdFeed : Nat
  /-- Tally of the last expiry -/
  wdLast : Option Nat
  wdRegs : List (BitVec 32)
  /-- the Shepherd core restarts (R468) -/
  restarting : Bool
  crashSeq : Nat
  devHistory : List Nat
  devOos : Bool
  devCause : BitVec 16
  devTotal : W32
  /-- Tally of the fence of the device reset that runs -/
  devFence : Nat
  /-- cause of a device reset that has fenced the Paddocks and not gone on yet -/
  devAsked : Option (BitVec 16)
  hangMs : Nat
  /-- device crash records that wait for the host link -/
  owed : List Nat
  crashes : List Crash
  /-- dormant segment entries of FUSED Paddocks (R478) -/
  dormant : List Dormant
  deriving DecidableEq, Repr, Inhabited

def Resets.reset : Resets :=
  { hb := 0, wdArmed := false, wdExp := 0, wdFeed := 0, wdLast := none, wdRegs := [], restarting := false, crashSeq := 0,
    devHistory := [], devOos := false, devCause := 0, devTotal := 0, devFence := 0, devAsked := none, hangMs := 100, owed := [],
    crashes := [], dormant := [] }

/-- An SPDM session (R489, R490). -/
structure Sess where
  isOpen : Bool
  /-- FINISH has completed -/
  finished : Bool
  operator : Bool
  beat : Nat
  /-- Tally of its last signed measurements -/
  measured : Option Nat
  keyNum : Nat
  deriving DecidableEq, Repr, Inhabited

def Sess.reset : Sess :=
  { isOpen := false, finished := false, operator := false, beat := 0, measured := none, keyNum := 0 }

/-- Staged chunks of a value (R492). -/
structure Staging where
  sess : Nat
  index : Nat
  sub : Nat
  bytes : List Byte
  deriving DecidableEq, Repr, Inhabited

/-- A counter set (0x5030) with its last sample. -/
structure Snap where
  period : Nat
  cores : BitVec 16
  groups : BitVec 8
  slot : Option Nat
  lastTally : Nat
  last : List W64
  deriving DecidableEq, Repr, Inhabited

def Snap.reset : Snap := { period := 0, cores := 0, groups := 0, slot := none, lastTally := 0, last := [] }

/-- The dictionary and its path (spec 16). -/
structure Dict where
  eid : BitVec 8
  i3cAddr : Option (BitVec 7)
  /-- version, capabilities and algorithms were exchanged outside a session -/
  spdmStage : Nat
  sessions : Table Sess
  /-- at most one of each session and object -/
  staging : List Staging
  /-- CHAN_ON values that are 0 -/
  chanOff : List Nat
  prTimeout : Nat
  roots : Table (List Byte)
  snaps : Table Snap
  ceThresh : Option Nat
  /-- the bytes of a long SPDM response served by CHUNK_GET -/
  chunk : List Byte
  deriving DecidableEq, Repr, Inhabited

def Dict.reset : Dict :=
  { eid := 0, i3cAddr := none, spdmStage := 0, sessions := [], staging := [], chanOff := [], prTimeout := 1000,
    roots := [], snaps := [], ceThresh := none, chunk := [] }

/-- The operation of the flash controller (R507 to R510). -/
inductive FlashOp where
  | idle
  | program (unit : Nat) (data : List Byte) (retried : Bool)
  | erase (block : Nat) (started : Nat) (retried : Bool)
  deriving DecidableEq, Repr, Inhabited

/-- The firmware store (spec 17). -/
structure Flash where
  /-- the erased map: one bit for each 64-byte unit of a physical block -/
  erased : Table (BitVec 1024)
  /-- 64-byte units by physical number; an unlisted unit is blank where its bit is set, and open where it is clear -/
  units : Table (List Byte)
  /-- block map: logical blocks that are not mapped to themselves -/
  map : Table Nat
  retired : List Nat
  spares : Nat
  erases : Table Nat
  marked : List Nat
  /-- an erase in progress or suspended, and a program in progress -/
  erase : FlashOp
  prog : FlashOp
  /-- erases and programs that wait (R509, R510) -/
  eraseQueue : List Nat
  progQueue : List (Nat × List Byte)
  susp : Bool
  suspCnt : Nat
  forced : Bool
  worn : Bool
  ce : W64
  neCnt : Nat
  verifyCnt : Nat
  /-- booted image, images' validity, sequence number and slot of the selector record in force -/
  active : Nat
  imageOk : Table Bool
  bootSeq : Nat
  bootSlot : Nat
  log : List (Nat × Nat × BitVec 16 × W64)
  logLost : Nat
  crashSlot : Nat
  /-- line in the prefetch buffer and branch targets, newest first (R505) -/
  line : Option Nat
  branches : List Nat
  /-- stopped outside the resident part (R506) -/
  stopped : Bool
  deriving DecidableEq, Repr, Inhabited

def Flash.reset : Flash :=
  { erased := [], units := [], map := [], retired := [], spares := 368, erases := [], marked := [], erase := .idle,
    prog := .idle, eraseQueue := [], progQueue := [], susp := false, suspCnt := 0, forced := false,
    worn := false, ce := 0, neCnt := 0, verifyCnt := 0,
    active := 0, imageOk := [], bootSeq := 0, bootSlot := 0, log := [], logLost := 0, crashSlot := 0, line := none,
    branches := [], stopped := false }

/-- Start-up (Table 18.10). -/
structure Boot where
  /-- BLK_PORST_N is high -/
  released : Bool
  stage : Nat
  fail : Bool
  fallback : Bool
  code : BitVec 16
  cold : W32
  warm : W32
  /-- the channels and the link whose training is complete (stage 8) -/
  linkDone : Bool
  linkBad : Bool
  /-- core pairs out of use (R105) -/
  outPairs : BitVec 6
  /-- soft repairs: core, Pen, skip row, skip column; FAILED Pens -/
  soft : List (Nat × Nat × Nat × Nat)
  failedPens : List (Nat × Nat)
  /-- soft remap entries of the reliability log: core, bank, row, word -/
  softRemap : List (Nat × Nat × Nat × Nat)
  deriving DecidableEq, Repr, Inhabited

def Boot.reset : Boot :=
  { released := false, stage := 0, fail := false, fallback := false, code := 0, cold := 0, warm := 0, linkDone := false,
    linkBad := false, outPairs := 0, soft := [], failedPens := [], softRemap := [] }

end Sys2Proof.Machine
end

