-- ==== Sys2Proof/Machine/State.lean ====
section
/-! DEFINITION. The state of the block: everything the spec gives it (`Device`), and the queue of commands. -/

namespace Sys2Proof.Machine

/-- Why a step stops. -/
inductive Fault where
  /-- Raised by a meaning whose operand names a unit that no configuration of the block has (core 12, Stall 48,
  channel 2, port 2 …). Safe: no command of the spec names such a unit, and the model stops where the spec gives
  no behaviour. -/
  | absentUnit
  deriving DecidableEq, Repr, Inhabited

/-- Why a command has no meaning. -/
inductive Refusal where
  /-- Raised by an arm of `exec` whose command has no meaning yet, with its mnemonic. Safe. -/
  | notModelled (mnemonic : String)
  deriving DecidableEq, Repr, Inhabited

/-- The block. Tables are keyed by the unit's number; an unlisted unit is as its reset value says. -/
structure Device where
  /-- fuse values (R11) and values of the calibration row -/
  fuse : Config.Fuses
  cal : Config.Cal
  tally : Tally
  glb : Glb
  rings : Table Ring
  vecs : Table Vec
  stalls : Table Stall
  queues : Table OutQueue
  objs : Table Obj
  fences : Table Fence
  seqs : Table Seq
  pdks : Table Pdk
  /-- jobs by number, and the next number -/
  jobs : Table Job
  nextJob : Nat
  rounds : List Round
  cores : Table Core
  slices : Table Slice
  /-- save frames of yielded cores, by core, newest first -/
  saved : Table (List Saved)
  /-- windows by 256 p + s -/
  windows : Table Window
  pieces : Table Piece
  nextPiece : Nat
  /-- window writes sent into the mesh and private requests accepted so far (R18, R241) -/
  sends : Nat
  /-- pushes and messages on their way or held (R256, R257) -/
  pushes : List Push
  /-- markers and beats between routers, by core -/
  skid : Table (List SkidMsg)
  chans : Table Chan
  /-- segment entries by 256 p + s -/
  segs : Table Segment
  xlt : Xlt
  links : Links
  power : Power
  sec : Security
  resets : Resets
  dict : Dict
  flash : Flash
  boot : Boot
  /-- counters as the latest 1 ms boundary of the Tally found them, by the numbers of `Device.counterAt` (R455) -/
  coarse : Table W64
  out : List Out
  /-- number of free values taken so far -/
  free : Nat
  deriving DecidableEq, Repr, Inhabited

/-- The block and the commands that wait, first in, first out. -/
structure State where
  dev : Device
  pending : List Instr
  deriving DecidableEq, Repr, Inhabited

/-- Core pairs that the fuses leave present (Table 0.1). -/
def fusedPairs (f : Config.Fuses) : BitVec 6 := if f.cores = 0 then 0x3F else if f.cores = 1 then 0x0F else 0x07

/-- The fused cap in watts (R5). -/
def fusedWatts (f : Config.Fuses) : Nat := if f.cap = 0 then 60 else if f.cap = 1 then 30 else 15

/-- The layout at the first start of a device (R435). -/
def firstLayout (f : Config.Fuses) : Layout :=
  { corePairs := fusedPairs f, chanPairs := 0xFF, confidential := false, session := !f.ksFused, debugOpen := false, present := true }

/-- The device while BLK_PORST_N is low (R516, R517): every register at its reset value; what the flash and the
calendar keep over a cold start stands as a device at its first start has it. -/
def Device.reset : Device :=
  { fuse := Config.fuses, cal := Config.cal,
    tally := { Tally.reset with epoch := Config.stored.epoch, hz := Config.cal.tcHz, cal := Config.stored.calendar,
                                calValid := Config.stored.calValid },
    glb := Glb.reset, rings := [], vecs := [],
    stalls := [], queues := [], objs := [], fences := [], seqs := [], pdks := [], jobs := [], nextJob := 0,
    rounds := [], cores := [], slices := [], saved := [], windows := [], pieces := [], nextPiece := 0, sends := 0, pushes := [],
    skid := [], chans := [], segs := [], xlt := Xlt.reset, links := Links.reset,
    power := { Power.reset with capSet := fusedWatts Config.fuses },
    sec := { Security.reset with
      pdks := [(0, { PdkSec.reset with layout := firstLayout Config.fuses, kgen := Config.stored.kgen })] },
    resets := { Resets.reset with crashSeq := Config.stored.crashSeq }, dict := Dict.reset,
    flash := { Flash.reset with active := Config.stored.active, bootSlot := Config.stored.active }, boot := Boot.reset,
    coarse := [], out := [], free := 0 }

/-- The machine right after reset: the power-on reset of R516, nothing commanded. -/
def State.reset : State := { dev := Device.reset, pending := [] }

end Sys2Proof.Machine
end

