-- ==== Sys2Proof/Machine/Ops.lean ====
section
/-! DEFINITION. The named operations over the block that every family shares: access to its units, its configuration,
outputs, event records, the flash log, alarm slots, fences and memory objects. -/

namespace Sys2Proof.Machine

/-- What a command answers. -/
abbrev Res0 := Host.Outcome State Fault Refusal

/-- The state with its device changed. -/
def State.onDev (s : State) (f : Device → Device) : State := { s with dev := f s.dev }

/-- A command that changes the device. -/
def done (s : State) (f : Device → Device) : Res0 := .next (s.onDev f)

/-- A command on a unit numbered `i` of `n`: the device changes, or the unit is absent from every configuration. -/
def onUnit (n i : Nat) (s : State) (f : Device → Device) : Res0 := if i < n then done s f else .fault .absentUnit

namespace Device

def core (d : Device) (c : Nat) : Core := Table.get d.cores Core.reset c
def setCore (d : Device) (c : Nat) (v : Core) : Device := { d with cores := Table.set d.cores Core.reset c v }
def modCore (d : Device) (c : Nat) (f : Core → Core) : Device := d.setCore c (f (d.core c))
def slice (d : Device) (c : Nat) : Slice := Table.get d.slices Slice.reset c
def setSlice (d : Device) (c : Nat) (v : Slice) : Device := { d with slices := Table.set d.slices Slice.reset c v }
def modSlice (d : Device) (c : Nat) (f : Slice → Slice) : Device := d.setSlice c (f (d.slice c))
def stall (d : Device) (s : Nat) : Stall := Table.get d.stalls Stall.reset s
def setStall (d : Device) (s : Nat) (v : Stall) : Device := { d with stalls := Table.set d.stalls Stall.reset s v }
def modStall (d : Device) (s : Nat) (f : Stall → Stall) : Device := d.setStall s (f (d.stall s))
def outQueue (d : Device) (q : Nat) : OutQueue := Table.get d.queues OutQueue.reset q
def setOutQueue (d : Device) (q : Nat) (v : OutQueue) : Device :=
  { d with queues := Table.set d.queues OutQueue.reset q v }
def modOutQueue (d : Device) (q : Nat) (f : OutQueue → OutQueue) : Device := d.setOutQueue q (f (d.outQueue q))
def ring (d : Device) (n : Nat) : Ring := Table.get d.rings Ring.reset n
def setRing (d : Device) (n : Nat) (v : Ring) : Device := { d with rings := Table.set d.rings Ring.reset n v }
def vec (d : Device) (n : Nat) : Vec := Table.get d.vecs Vec.reset n
def setVec (d : Device) (n : Nat) (v : Vec) : Device := { d with vecs := Table.set d.vecs Vec.reset n v }
def obj (d : Device) (i : Nat) : Obj := Table.get d.objs Obj.reset i
def setObj (d : Device) (i : Nat) (v : Obj) : Device := { d with objs := Table.set d.objs Obj.reset i v }
def fence (d : Device) (i : Nat) : Fence := Table.get d.fences Fence.reset i
def setFence (d : Device) (i : Nat) (v : Fence) : Device := { d with fences := Table.set d.fences Fence.reset i v }
def seq (d : Device) (i : Nat) : Seq := Table.get d.seqs Seq.reset i
def setSeq (d : Device) (i : Nat) (v : Seq) : Device := { d with seqs := Table.set d.seqs Seq.reset i v }
def pdk (d : Device) (p : Nat) : Pdk := Table.get d.pdks Pdk.reset p
def setPdk (d : Device) (p : Nat) (v : Pdk) : Device := { d with pdks := Table.set d.pdks Pdk.reset p v }
def modPdk (d : Device) (p : Nat) (f : Pdk → Pdk) : Device := d.setPdk p (f (d.pdk p))
def pdkSec (d : Device) (p : Nat) : PdkSec := Table.get d.sec.pdks PdkSec.reset p
def setPdkSec (d : Device) (p : Nat) (v : PdkSec) : Device :=
  { d with sec := { d.sec with pdks := Table.set d.sec.pdks PdkSec.reset p v } }
def modPdkSec (d : Device) (p : Nat) (f : PdkSec → PdkSec) : Device := d.setPdkSec p (f (d.pdkSec p))
def window (d : Device) (w : Nat) : Window := Table.get d.windows Window.reset w
def setWindow (d : Device) (w : Nat) (v : Window) : Device :=
  { d with windows := Table.set d.windows Window.reset w v }
def chan (d : Device) (n : Nat) : Chan := Table.get d.chans Chan.reset n
def setChan (d : Device) (n : Nat) (v : Chan) : Device := { d with chans := Table.set d.chans Chan.reset n v }
def modChan (d : Device) (n : Nat) (f : Chan → Chan) : Device := d.setChan n (f (d.chan n))
def port (d : Device) (n : Nat) : Port := Table.get d.links.ports Port.reset n
def setPort (d : Device) (n : Nat) (v : Port) : Device :=
  { d with links := { d.links with ports := Table.set d.links.ports Port.reset n v } }
def modPort (d : Device) (n : Nat) (f : Port → Port) : Device := d.setPort n (f (d.port n))
def binding (d : Device) (b : Nat) : Binding := Table.get d.links.bindings Binding.reset b
def setBinding (d : Device) (b : Nat) (v : Binding) : Device :=
  { d with links := { d.links with bindings := Table.set d.links.bindings Binding.reset b v } }
def modBinding (d : Device) (b : Nat) (f : Binding → Binding) : Device := d.setBinding b (f (d.binding b))
def alarm (d : Device) (n : Nat) : Alarm := Table.get d.tally.alarms Alarm.reset n
def setAlarm (d : Device) (n : Nat) (v : Alarm) : Device :=
  { d with tally := { d.tally with alarms := Table.set d.tally.alarms Alarm.reset n v } }
/-- The channel `ch` of core `c`. -/
def channel (d : Device) (c ch : Nat) : Channel := Table.get (d.core c).channels Channel.reset ch
def setChannel (d : Device) (c ch : Nat) (v : Channel) : Device :=
  d.modCore c fun k => { k with channels := Table.set k.channels Channel.reset ch v }
def modChannel (d : Device) (c ch : Nat) (f : Channel → Channel) : Device := d.setChannel c ch (f (d.channel c ch))
def chute (d : Device) (c n : Nat) : Chute := Table.get (d.core c).chutes Chute.reset n
def setChute (d : Device) (c n : Nat) (v : Chute) : Device :=
  d.modCore c fun k => { k with chutes := Table.set k.chutes Chute.reset n v }
def job (d : Device) (j : Nat) : Option Job := Table.find d.jobs j
def setJob (d : Device) (j : Nat) (v : Job) : Device := { d with jobs := Table.put d.jobs j v }
/-- The job numbered `j` changed, where it exists. -/
def modJob (d : Device) (j : Nat) (f : Job → Job) : Device :=
  match d.job j with
  | some v => d.setJob j (f v)
  | none => d

/-! ### Configuration -/

/-- The core pairs present and in use (Table 0.1, R105). -/
def pairsInUse (d : Device) : BitVec 6 := fusedPairs d.fuse &&& ~~~ d.boot.outPairs
/-- Core `c` is present and in use. -/
def corePresent (d : Device) (c : Nat) : Bool := decide (c < 12) && (d.pairsInUse).getLsbD (c / 2)
/-- How many Paddocks the configuration holds at most (R434). -/
def maxPdks (d : Device) : Nat := if d.fuse.cores = 0 then 6 else if d.fuse.cores = 1 then 4 else 3
def layout (d : Device) (p : Nat) : Layout := (d.pdkSec p).layout
def pdkPresent (d : Device) (p : Nat) : Bool := decide (p < 6) && (d.layout p).present
def confidential (d : Device) (p : Nat) : Bool := d.pdkPresent p && (d.layout p).confidential
def anyConfidential (d : Device) : Bool := (List.range 6).any d.confidential
/-- The present cores of a Paddock in ascending order. -/
def coresOf (d : Device) (p : Nat) : List Nat :=
  (List.range 12).filter fun c => d.pdkPresent p && (d.layout p).corePairs.getLsbD (c / 2) && d.corePresent c
/-- The LPDDR5X channels of a Paddock in ascending order (R274). -/
def chansOf (d : Device) (p : Nat) : List Nat :=
  (List.range 16).filter fun n => d.pdkPresent p && (d.layout p).chanPairs.getLsbD (n / 2)
/-- The Paddock that holds a core. -/
def pdkOfCore (d : Device) (c : Nat) : Option Nat := (List.range 6).find? fun p => (d.coresOf p).contains c
/-- The Paddock that owns a channel. -/
def pdkOfChan (d : Device) (n : Nat) : Option Nat := (List.range 6).find? fun p => (d.chansOf p).contains n
/-- The job that holds a core, with its number. -/
def jobOf (d : Device) (c : Nat) : Option (Nat × Job) :=
  match (d.core c).job with
  | none => none
  | some j => (d.job j).map fun v => (j, v)
/-- The context of the job that holds a core. -/
def ctxOf (d : Device) (c : Nat) : Nat :=
  match d.jobOf c with
  | some (_, v) => v.context
  | none => 0
def now (d : Device) : Nat := d.tally.now

/-! ### Outputs, free values, the flash log -/

def emit (d : Device) (o : Out) : Device := { d with out := d.out ++ [o] }
/-- Takes the next free value of kind `k`. -/
def freeWord (d : Device) (k : Nat) : W64 := Config.freeValue k d.free
def tookFree (d : Device) : Device := { d with free := d.free + 1 }
/-- Adds an entry to the reliability log (R513): Tally, epoch, code and detail. A full log, 128 blocks of 1,024 entries, loses its
oldest block first; a worn flash takes no entry and counts it (R512). -/
def logFlash (d : Device) (code : Code) (detail : W64) : Device :=
  let f := d.flash
  if f.worn then { d with flash := { f with logLost := f.logLost + 1 } }
  else
    let old := if 131072 ≤ f.log.length then f.log.drop 1024 else f.log
    { d with flash := { f with log := old ++ [(d.now, d.tally.epoch, code, detail)] } }

/-- Paddock `p` is fenced for a reset or a removal (R302, R471, Table 14.8). -/
def fencedPdk (d : Device) (p : Nat) : Bool := (d.pdk p).rst != .running || (d.pdkSec p).phase != .none
/-- Core `c` belongs to a fenced Paddock: it dispatches nothing and its channels issue nothing (R471 step 1). -/
def frozen (d : Device) (c : Nat) : Bool :=
  match d.pdkOfCore c with
  | some p => d.fencedPdk p
  | none => false

end Device

/-- Adds 1 to a counter that saturates. -/
def satInc {w : Nat} (x : BitVec w) : BitVec w := if x = BitVec.allOnes w then x else x + 1
/-- `x` limited to the largest value of `w` bits. -/
def satNat (w x : Nat) : Nat := if x < 2 ^ w then x else 2 ^ w - 1

/-! ### Event records (R338 to R343) -/

namespace Device

/-- Sends the message of vector `v`, or owes it while an interval runs, or sets its pending bit while masked (R342). -/
def raiseVector (d : Device) (v interval : Nat) : Device :=
  let x := d.vec v
  if x.moderating then d.setVec v { x with owed := true }
  else if x.masked then d.setVec v { x with pending := true }
  else (d.emit (.msix v)).setVec v { x with moderating := decide (interval ≠ 0), owed := false }

/-- Writes a record to ring `n` (R340 to R342): overwritten records are counted, P advances, the write-back and the
vector of its class follow. Nothing is written to a ring that is disabled or FAILED. -/
def postRing (d : Device) (n : Nat) (ev : EventRec) : Device :=
  let r := d.ring n
  if r.en && !r.failed then
    let lost := if r.p - r.cons ≥ 2 ^ r.size then r.lost + 1 else r.lost
    let d := d.emit (.ringRecord n (r.base + 32 * (r.p % 2 ^ r.size)) ev)
    let d := d.setRing n { r with p := r.p + 1, lost := lost }
    let d := d.emit (.ringWriteBack n r.wb (r.p + 1) lost)
    d.raiseVector (8 * n + ev.cls) r.mod
  else d

/-- A record of the device or of a Paddock, posted to ring 0 (R339). -/
def postDev (d : Device) (ev : EventRec) : Device := d.postRing 0 ev

/-- The copy of a record that ring 0 receives: a confidential Paddock's has a zero detail (R339). -/
def zeroDetail (d : Device) (ev : EventRec) : EventRec := if d.confidential ev.paddock then { ev with detail := 0 } else ev

/-- A record that concerns a queue's commands: its ring, and a copy of classes 3 and 4 on ring 0 (R339). -/
def postQueue (d : Device) (ring : Nat) (ev : EventRec) : Device :=
  let d := d.postRing ring ev
  if (ev.cls == 3 || ev.cls == 4) && ring != 0 then d.postRing 0 (d.zeroDetail ev) else d

end Device

/-- Puts the number `v` at byte `b` of the record (20 ≤ b) into a detail field. -/
def det (b : Nat) (v : Nat) : BitVec 96 := BitVec.ofNat 96 v <<< (8 * (b - 20))

namespace Device

/-- A record of class `cls` for the whole device, stamped now. -/
def devEvent (d : Device) (cls : Nat) (code : Code) (detail : BitVec 96 := 0) : EventRec :=
  { tally := d.now, code := code, cls := cls, paddock := 0xFF, context := 0, handle := 0, detail := detail }
/-- A record of class `cls` for a Paddock, stamped now. -/
def pdkEvent (d : Device) (p cls : Nat) (code : Code) (detail : BitVec 96 := 0) (ctx : Nat := 0) (handle : W32 := 0) :
    EventRec :=
  { tally := d.now, code := code, cls := cls, paddock := p, context := ctx, handle := handle, detail := detail }

/-! ### Alarm slots (R36 to R42) -/

/-- First slot of an owner, and how many it has. -/
def slotBase (owner : Nat) : Nat := if owner = 7 then 0 else 16 + 40 * owner
def slotCount (owner : Nat) : Nat := if owner = 7 then 16 else 40
/-- The lowest slot of the owner that is neither armed nor reserved (R36). -/
def freeSlot (d : Device) (owner : Nat) : Option Nat :=
  (lowest (fun i => !(d.alarm (slotBase owner + i)).armed && !(d.alarm (slotBase owner + i)).reserved)
    (slotCount owner)).map (slotBase owner + ·)
/-- Arms slot `n` afresh; a compare value already past makes its firing late (R39). -/
def armSlot (d : Device) (n owner kind target cmp : Nat) (per : Nat := 0) (ctx ring : Nat := 0) : Device :=
  let a := d.alarm n
  d.setAlarm n (Alarm.seen d.now
    { armed := true, periodic := decide (per ≠ 0), late := a.late, kind := kind, owner := owner, target := target, miss := a.miss,
      cmp := cmp, per := per, reserved := a.reserved, past := decide (cmp < d.now), due := none, context := ctx, ring := ring })
/-- Arms the lowest free slot of the owner, if there is one. -/
def arm (d : Device) (owner kind target cmp : Nat) (per : Nat := 0) (ctx ring : Nat := 0) : Option (Device × Nat) :=
  (d.freeSlot owner).map fun n => (d.armSlot n owner kind target cmp per ctx ring, n)
/-- Disarms slot `n` and drops its reservation. -/
def freeAlarm (d : Device) (n : Nat) : Device := d.setAlarm n { d.alarm n with armed := false, kind := 0, reserved := false, due := none }
/-- Disarms every slot of an owner (R42). -/
def disarmAll (d : Device) (owner : Nat) : Device :=
  (List.range (slotCount owner)).foldl (fun d i => d.freeAlarm (slotBase owner + i)) d
/-- The Tally at which slot `a` fires, where it is armed and its compare value is reached (R38). -/
def firesAt (d : Device) (a : Alarm) : Option Nat := if a.armed && decide (a.cmp ≤ d.now) then some (a.due.getD d.now) else none
/-- Slot `n` is armed with this kind and its compare value is reached, and no slot that fires at an earlier Tally, or at the same
one under a lower number, has still to act (R38). -/
def fires (d : Device) (n kind : Nat) : Bool :=
  match d.firesAt (d.alarm n) with
  | none => false
  | some t => (d.alarm n).kind == kind && d.tally.alarms.all fun x => match d.firesAt x.2 with
    | none => true
    | some u => decide (t < u) || (decide (t = u) && decide (n ≤ x.1))
/-- The slot after its firing (R40); LATE tells whether it was armed with a value already past (R39). -/
def fired (d : Device) (n : Nat) : Device :=
  let a := { d.alarm n with late := (d.alarm n).past, past := false, due := none }
  if a.periodic && decide (a.per ≠ 0) then
    let k := (d.now - a.cmp) / a.per + 1
    d.setAlarm n { a with cmp := a.cmp + k * a.per, miss := satNat 8 (k - 1) }
  else d.setAlarm n { a with armed := false, miss := 0 }

/-! ### Fences (R331 to R337) -/

/-- The slot of a handle of kind `kind` (R328). -/
def handleSlot (h : W32) : Nat := bits h 15 0
def handleOf (kind : Nat) (gen : BitVec 12) (i : Nat) : W32 := BitVec.ofNat 32 (kind * 2 ^ 28 + gen.toNat * 2 ^ 16 + i)
/-- The fence that a handle names in a context, if it is live there. -/
def findFence (d : Device) (ctx : Nat) (h : W32) : Option Nat :=
  let f := d.fence (handleSlot h)
  if bits h 31 28 = 2 && f.used && f.gen.toNat == bits h 27 16 && f.context == ctx then some (handleSlot h) else none

/-- What follows a change of a fence: the mirror, then the FENCE record (R337). -/
def fenceChanged (d : Device) (i : Nat) : Device :=
  let f := d.fence i
  let d := if f.mirror ≠ 0 && !f.mirrorStopped then d.emit (.mirror f.mirror f.value f.code) else d
  if f.notify then
    d.postQueue f.ring (d.pdkEvent f.paddock 2 0 (det 20 f.value.toNat ||| det 28 f.code.toNat) f.context
      (handleOf 2 f.gen i))
  else d

/-- Applies a signal, or answers the code that refuses it (R332). -/
def signalFence (d : Device) (i : Nat) (v : W64) : Device × Code :=
  let f := d.fence i
  if f.code ≠ 0 then (d, 0x0108)
  else if v ≤ f.value then (d, 0x0105)
  else ((d.setFence i { f with value := v }).fenceChanged i, 0)

/-- Attaches an error; a later one leaves the first in place (R336). -/
def attachError (d : Device) (i : Nat) (code : Code) : Device :=
  let f := d.fence i
  if f.code = 0 then (d.setFence i { f with code := code, errTally := d.now }).fenceChanged i else d

/-- Attaches an error to the fence a handle names, where it is live. -/
def attachTo (d : Device) (ctx : Nat) (h : W32) (code : Code) : Device :=
  match d.findFence ctx h with
  | some i => d.attachError i code
  | none => d

/-- A waiter for `v` is released: status 0 when the value is reached, CODE for an error (R335). -/
def waitDone (d : Device) (i : Nat) (v : W64) : Option Code :=
  let f := d.fence i
  if v ≤ f.value then some 0 else if f.code ≠ 0 then some f.code else none

/-- Destroys a fence that nothing names any more (R331). -/
def reapFence (d : Device) (i : Nat) : Device :=
  let f := d.fence i
  if f.used && f.href == 0 && f.dref == 0 then d.setFence i { Fence.reset with gen := f.gen + 1 } else d

def refFence (d : Device) (ctx : Nat) (h : W32) : Device :=
  match d.findFence ctx h with
  | some i => d.setFence i { d.fence i with dref := (d.fence i).dref + 1 }
  | none => d
def unrefFence (d : Device) (h : W32) : Device :=
  let i := handleSlot h
  let f := d.fence i
  if f.used && bits h 31 28 = 2 && f.gen.toNat == bits h 27 16 then (d.setFence i { f with dref := f.dref - 1 }).reapFence i
  else d

/-- Core `c` waits on fence `i`, which then outlives its host references (R331, R335). -/
def holdWait (d : Device) (c i : Nat) : Device :=
  if (d.core c).fwait.isSome then d
  else (d.setFence i { d.fence i with dref := (d.fence i).dref + 1 }).modCore c fun k => { k with fwait := some i }
/-- Core `c` no longer waits on a fence. -/
def dropWait (d : Device) (c : Nat) : Device :=
  match (d.core c).fwait with
  | none => d
  | some i => ((d.setFence i { d.fence i with dref := (d.fence i).dref - 1 }).reapFence i).modCore c fun k => { k with fwait := none }

/-! ### Memory objects (R328 to R330) -/

/-- The live object that a handle names in a context. -/
def findObj (d : Device) (ctx : Nat) (h : W32) : Option Nat :=
  let o := d.obj (handleSlot h)
  if bits h 31 28 = 1 && o.used && o.gen.toNat == bits h 27 16 && o.context == ctx && decide (0 < o.href) && !o.zeroing then
    some (handleSlot h) else none

/-- Starts the clear of the region of core `c` that begins at unit `base` (R208); open windows over it go to CLOSING (R222). -/
def clearRegion (d : Device) (c base : Nat) : Device :=
  let size := match (d.slice c).regions.find? fun kv => kv.2.valid && kv.2.base == base with
    | some kv => kv.2.size
    | none => 0
  let d := { d with windows := Table.mapVals d.windows fun w =>
    if w.state == WinState.open_ && w.core == c && decide (base * 65536 ≤ w.base) && decide (w.base < (base + size) * 65536) then
      { w with state := .closing }
    else w }
  d.modSlice c fun s =>
    { s with regions := Table.mapVals s.regions fun r =>
        if r.valid && r.base == base then { r with clearing := true, job := none } else r }

/-- Ends an object that neither the host nor the device references (Table 10.8). -/
def reapObj (d : Device) (i : Nat) : Device :=
  let o := d.obj i
  if o.used && o.href == 0 && o.dref == 0 then
    let d := d.setObj i { Obj.reset with gen := o.gen + 1 }
    let d := { d with sec := { d.sec with sealedObjs := d.sec.sealedObjs.filter (· != i) } }
    match o.space with
    | .host => d
    | .priv => { d with segs := Table.keep d.segs fun k e => !(k / 256 == o.paddock && e.owner == o.context && e.seg == o.seg) }
    | .yard => d.clearRegion o.core (o.base / 65536)
  else d

def refObj (d : Device) (i : Nat) : Device := d.setObj i { d.obj i with dref := (d.obj i).dref + 1 }
def unrefObj (d : Device) (i : Nat) : Device := (d.setObj i { d.obj i with dref := (d.obj i).dref - 1 }).reapObj i
/-- The DVA at which an object of host or private space begins (R270, R328). -/
def objDva (o : Obj) : Nat := match o.space with
  | .host => o.base
  | .priv => 2 ^ 56 + o.seg * 2 ^ 52
  | .yard => 0
/-- The live object of a context that holds the whole DVA range. -/
def objOfDva (d : Device) (ctx dva len : Nat) : Option Nat :=
  (d.objs.find? fun kv => kv.2.used && kv.2.context == ctx && decide (0 < kv.2.href) && kv.2.space != .yard && !kv.2.zeroing &&
    decide (objDva kv.2 ≤ dva) && decide (dva + len ≤ objDva kv.2 + kv.2.len)).map (·.1)

/-- The trace unit of core `c`'s Paddock writes a record of a kind it has enabled, or counts it as lost (R456, R457, R462). -/
def traceRec (d : Device) (c kind slot bundle : Nat) (detail : Nat) : Device :=
  match d.pdkOfCore c with
  | none => d
  | some p =>
    let t := (d.pdkSec p).trace
    let on := t.en && !d.confidential p && t.kinds.getLsbD kind && (kind != 6 || (t.dataEn && (d.layout p).debugOpen))
    if !on then d
    else if !t.wrap && decide (128 * 2 ^ t.size ≤ t.ptr) then
      d.modPdkSec p fun x => { x with trace := { t with full := true, lost := t.lost + 1 } }
    else if t.last = some d.power.cycles then
      d.modPdkSec p fun x => { x with trace := { t with lost := t.lost + 1 } }
    else
      let r := BitVec.ofNat 256 (d.now % 2 ^ 64 + c * 2 ^ 64 + kind * 2 ^ 72 + slot * 2 ^ 80 + bundle * 2 ^ 96 + detail * 2 ^ 128)
      (d.modPdkSec p fun x => { x with trace := { t with ptr := t.ptr + 1, last := some d.power.cycles } }).emit (.traceRecord p r)

/-- Adds 1 to a Paddock's progress count (R464). -/
def progress (d : Device) (p : Nat) : Device := d.modPdk p fun k => { k with prog := k.prog + 1 }

end Device

end Sys2Proof.Machine
end

