-- ==== Sys2Proof/Machine/YardOps.lean ====
section
/-! DEFINITION. The operations on a Yard slice: mapping, check bits, reads and writes of bytes through the merge
buffer and the remap table, regions and their check, and windows (spec 07). -/

namespace Sys2Proof.Machine

/-! ### Bytes, blocks and check bits -/

/-- The number that a list of bytes holds, the first byte lowest (R6). -/
def ofBytes : List Byte → Nat
  | [] => 0
  | b :: r => b.toNat + 256 * ofBytes r
/-- The `n` low bytes of a number, the lowest first (R6). -/
def toBytes : (n x : Nat) → List Byte
  | 0, _ => []
  | n + 1, x => BitVec.ofNat 8 x :: toBytes n (x / 256)

/-- Parity of the low `n` bits of a number. -/
def parity : (n x : Nat) → Bool
  | 0, _ => false
  | n + 1, x => (decide (x % 2 = 1)) != parity n (x / 2)

/-- The number whose bit k is `f k`, for k below n. -/
def bitsOf (f : Nat → Bool) : Nat → Nat
  | 0 => 0
  | n + 1 => bitsOf f n + (if f n then 2 ^ n else 0)

/-- Row r of a block: bits 16r to 16r + 15. -/
def blkRow (d : Block256) (r : Nat) : Nat := bits d (16 * r + 15) (16 * r)
/-- Parity of column c of a block. -/
def blkCol (d : Block256) (c : Nat) : Bool := parity 16 (bitsOf (fun r => d.getLsbD (16 * r + c)) 16)

/-- PLAIN check bits (Table 7.3). -/
def plainCheck (d : Block256) : W32 := BitVec.ofNat 32 (bitsOf (fun k => parity 8 (bits d (8 * k + 7) (8 * k))) 32)
/-- GUARDED check bits (Table 7.3). -/
def guardedCheck (d : Block256) : W32 :=
  BitVec.ofNat 32 (bitsOf (fun k => if k < 16 then parity 16 (blkRow d k) else blkCol d (k - 16)) 32)
/-- Check bits of the mode (R209). -/
def checkBits (guarded : Bool) (d : Block256) : W32 := if guarded then guardedCheck d else plainCheck d
/-- A block of data with its check bits. -/
def Blk.of (guarded : Bool) (d : Block256) : Blk := { data := d, chk := checkBits guarded d }
/-- The block poisoned (R212). -/
def Blk.poisoned (d : Block256) : Blk := { data := d, chk := ~~~ guardedCheck d }

/-- What the check of a block gives (R210, R211). -/
inductive CheckRes where
  | good
  /-- the corrected block -/
  | mended (b : Blk)
  | bad (poison : Bool)
  deriving DecidableEq, Repr, Inhabited

/-- The guarded check of R211. -/
def checkGuarded (b : Blk) : CheckRes :=
  let s := b.chk ^^^ guardedCheck b.data
  let rows := (List.range 16).filter fun k => s.getLsbD k
  let cols := (List.range 16).filter fun k => s.getLsbD (16 + k)
  match rows, cols with
  | [], [] => .good
  | [r], [c] => .mended { b with data := b.data ^^^ (1 <<< (16 * r + c)) }
  | [r], [] => .mended { b with chk := b.chk ^^^ (1 <<< r) }
  | [], [c] => .mended { b with chk := b.chk ^^^ (1 <<< (16 + c)) }
  | _, _ => .bad (decide (s = BitVec.allOnes 32))

/-- The plain check of R210: any byte whose parity fails makes the block uncorrectable. -/
def checkPlain (b : Blk) : CheckRes :=
  let s := b.chk ^^^ plainCheck b.data
  if s = 0 then .good else .bad (decide (s = BitVec.allOnes 32))

def checkBlk (guarded : Bool) (b : Blk) : CheckRes := if guarded then checkGuarded b else checkPlain b

/-! ### Mapping (R198) -/

/-- Bank group, port and row of a byte offset. -/
def yardPort (off : Nat) : Nat :=
  let lg := off / 64 % 65536
  (lg % 16) ^^^ (lg / 16 % 16) ^^^ (lg / 256 % 16) ^^^ (lg / 4096 % 16)
def yardBank (off : Nat) : Nat := 16 * (off / 2 ^ 22 % 16) + yardPort off
def yardRow (off : Nat) : Nat := off / 64 % 65536 / 16
def yardWord (off : Nat) : Nat := off / 4 % 16
/-- Read latency of the ring that holds an offset (Table 7.1). -/
def yardLatency (off : Nat) : Nat :=
  let g := off / 2 ^ 22 % 16
  if g < 4 then 7 else if g < 10 then 10 else 14

/-- Block that holds word `word` of a bank's row (R198 the other way round). -/
def remapBlock (bank row word : Nat) : Nat :=
  let low := (bank % 16) ^^^ (row % 16) ^^^ (row / 16 % 16) ^^^ (row / 256 % 16)
  2 * (bank / 16 * 65536 + row * 16 + low) + (if word < 16 then word / 8 else word - 16)

/-! ### Ports (R199 to R204) -/

/-- Lines that the bytes off .. off + n - 1 touch. -/
def linesOf (off n : Nat) : List Nat :=
  if n = 0 then [] else (List.range ((off + n - 1) / 64 + 1 - off / 64)).map fun k => off / 64 + k
/-- One request for each line, of class `cls` (Table 7.2 order minus 1); `own`: an issue of the core waits on it. The
requests of a LAND or TAKE burst carry its number (R243), those of channels' writes the channels. -/
def Slice.ask (s : Slice) (cls : Nat) (own : Bool) (lines : List Nat) (chans : List (Nat × Nat) := []) : Slice :=
  let burst := if (cls = 1 ∨ cls = 5) ∧ lines ≠ [] then some s.bursts else none
  { s with
    requests := s.requests ++ lines.map fun l =>
      { cls := cls, port := yardPort (64 * l), age := 0, own := own, burst := burst, begun := false, chans := chans },
    bursts := if burst.isSome then s.bursts + 1 else s.bursts }
/-- The request that a port grants: a MEND request where the port may take one, else the oldest aged one, else the first of
the class listed first (R201). -/
def portChoice (mend : Bool) (l : List PortReq) : Option PortReq :=
  let first := fun (m : List PortReq) => m.foldl (fun (b : Option PortReq) r => match b with
    | some x => if r.cls < x.cls then some r else b
    | none => some r) none
  let oldest := fun (m : List PortReq) => m.foldl (fun (b : Option PortReq) r => match b with
    | some x => if x.age < r.age ∨ (x.age = r.age ∧ r.cls < x.cls) then some r else b
    | none => some r) none
  let others := l.filter fun r => r.cls != 0
  match (if mend then l.find? fun r => r.cls == 0 else none) with
  | some r => some r
  | none => match oldest (others.filter fun r => decide (16 ≤ r.age)) with
    | some r => some r
    | none => first others
/-- One port grants at most one request in grid cycle `now`; every other one for it is refused (R201, R228). -/
def Slice.grantPort (now : Nat) (s : Slice) (p : Nat) : Slice :=
  let l := s.requests.filter fun r => r.port == p
  if l.isEmpty then s
  else
    let mend := decide (Table.get s.mendNext 0 p ≤ now)
    match portChoice mend l with
    | none => { s with requests := s.requests.map (fun r => if r.port == p then { r with age := r.age + 1 } else r),
                       portDeny := s.portDeny + BitVec.ofNat 64 l.length }
    | some g =>
      let rest := (s.requests.erase g).map fun r => if r.port == p then { r with age := r.age + 1 } else r
      { s with
        requests := if g.burst.isSome then rest.map fun r => if r.burst == g.burst then { r with begun := true } else r else rest,
        portGrant := s.portGrant + 1,
        portDeny := s.portDeny + BitVec.ofNat 64 (l.length - 1),
        mendNext := if g.cls = 0 then Table.set s.mendNext 0 p (now + 4) else s.mendNext }
/-- One cycle of the 16 ports. -/
def Slice.portCycle (now : Nat) (s : Slice) : Slice :=
  if s.requests.isEmpty then s else (List.range 16).foldl (Slice.grantPort now) s
/-- A request on which an issue of the core waits is still without a grant (R203). -/
def Slice.conflict (s : Slice) : Bool := s.requests.any fun r => r.own
/-- A LAND or TAKE burst is between its first and its last grant (R244). -/
def Slice.bursting (s : Slice) : Bool := s.requests.any fun r => r.burst.isSome && r.begun

/-! ### One block, through the remap table (R217) -/

/-- Word k of a block as a 32-bit value, and a block with word k replaced. -/
def wordOf (d : Block256) (k : Nat) : W32 := BitVec.ofNat 32 (bits d (32 * k + 31) (32 * k))
def withWord (d : Block256) (k : Nat) (v : W32) : Block256 :=
  let m : Block256 := BitVec.ofNat 256 ((2 ^ 32 - 1) * 2 ^ (32 * k))
  (d &&& ~~~m) ||| BitVec.ofNat 256 (v.toNat * 2 ^ (32 * k))

/-- The remap entries of a slice that act on block `b`. -/
def Slice.remapsOf (s : Slice) (b : Nat) : List Remap :=
  s.remap.filter fun e => e.bank == yardBank (32 * b) && e.row == yardRow (32 * b) &&
    (if e.word < 16 then e.word / 8 == b % 2 else e.word - 16 == b % 2)

/-- The block as its readers see it: a remapped word comes from its spare. -/
def Slice.block (s : Slice) (b : Nat) : Blk :=
  (s.remapsOf b).foldl (fun k e => if e.word < 16 then { k with data := withWord k.data (e.word % 8) e.spare }
                                   else { k with chk := e.spare }) (Table.get s.data Blk.reset b)

/-- Writes a block: a remapped word goes to its spare, and the cells below keep what they held. -/
def Slice.putBlock (s : Slice) (b : Nat) (v : Blk) : Slice :=
  let old := Table.get s.data Blk.reset b
  let es := s.remapsOf b
  let low := es.foldl (fun k e => if e.word < 16 then { k with data := withWord k.data (e.word % 8) (wordOf old.data (e.word % 8)) }
                                  else { k with chk := old.chk }) v
  { s with data := Table.set s.data Blk.reset b low,
           remap := s.remap.map fun e => if es.contains e then
             { e with spare := if e.word < 16 then wordOf v.data (e.word % 8) else v.chk } else e }

/-! ### Regions (R205, R206) -/

/-- The entry that holds a byte offset, with its number. -/
def Slice.regionAt (s : Slice) (off : Nat) : Option (Nat × Region) :=
  s.regions.find? fun kv => kv.2.valid && decide (kv.2.base * 65536 ≤ off) && decide (off < (kv.2.base + kv.2.size) * 65536)
/-- Check mode of an offset; a byte in no region is PLAIN. -/
def Slice.guardedAt (s : Slice) (off : Nat) : Bool :=
  match s.regionAt off with
  | some (_, r) => r.guarded
  | none => false
/-- The engines of a job of this context may reach the region. -/
def Region.opens (r : Region) (job : Option Nat) (ctx : Nat) : Bool :=
  r.valid && !r.frame && !r.clearing && (if r.resident then r.owner == ctx else r.job.isSome && r.job == job)
/-- Every byte of the range lies in regions that the job reaches (R206), inside the slice. -/
def Slice.opensRange (s : Slice) (job : Option Nat) (ctx off n : Nat) : Bool :=
  decide (off + n ≤ 2 ^ 26) &&
  (List.range ((off + n - 1) / 65536 + 1 - off / 65536)).all fun k =>
    match s.regionAt ((off / 65536 + k) * 65536) with
    | some (_, r) => r.opens job ctx
    | none => false
/-- The region that holds the whole range, if one does. -/
def Slice.oneRegion (s : Slice) (off n : Nat) : Option (Nat × Region) :=
  match s.regionAt off with
  | some (i, r) => if off + n ≤ (r.base + r.size) * 65536 then some (i, r) else none
  | none => none
/-- Units covered by valid entries. -/
def Slice.unitUsed (s : Slice) (u : Nat) : Bool := (s.regionAt (u * 65536)).isSome
/-- The lowest run of `n` free units (R205). -/
def Slice.freeRun (s : Slice) (n : Nat) : Option Nat :=
  lowest (fun u => (List.range n).all fun k => !s.unitUsed (u + k)) (1025 - n)
/-- The lowest free entry of the 32. -/
def Slice.freeEntry (s : Slice) : Option Nat :=
  lowest (fun i => !(Table.get s.regions Region.reset i).valid) 32
/-- Creates a region, or nothing when no entry or no unit is free (R207). -/
def Slice.create (s : Slice) (r : Region) (place : Option Nat) : Option Slice :=
  match s.freeEntry, (match place with
                      | some b => if (List.range r.size).all fun k => !s.unitUsed (b + k) then some b else none
                      | none => s.freeRun r.size) with
  | some i, some b => some { s with regions := Table.set s.regions Region.reset i { r with valid := true, base := b } }
  | _, _ => none

namespace Device

/-- The job of core `c` and its context reach the whole range of its own slice (R206). -/
def ownRange (d : Device) (c off n : Nat) : Bool := (d.slice c).opensRange (d.core c).job (d.ctxOf c) off n

/-- Requests of lines at the ports of core `c`'s slice. -/
def askPorts (d : Device) (c cls : Nat) (own : Bool) (lines : List Nat) (chans : List (Nat × Nat) := []) : Device :=
  d.modSlice c fun s => s.ask cls own lines chans

/-! ### Uncorrectable blocks (R213) -/

/-- Notes failing words of block `b`, numbered 0 to 7, and 8 for its check word; notes of more than 86,400 s ago go (R218). -/
def noteFaults (d : Device) (c b : Nat) (guarded : Bool) (ws : List Nat) : Device :=
  d.modSlice c fun s => { s with faults :=
    (s.faults.filter fun f => decide (d.now < f.2.2.2.2 + 86400000000000)) ++ ws.map fun k =>
      (yardBank (32 * b), yardRow (32 * b), if k < 8 then 8 * (b % 2) + k else 16 + b % 2, guarded, d.now) }
/-- Words of a block in which a byte's parity fails in PLAIN mode. -/
def plainFaults (k : Blk) : List Nat :=
  (List.range 8).filter fun j => bits (k.chk ^^^ plainCheck k.data) (4 * j + 3) (4 * j) != 0
/-- The word in which the guarded check mends a bit: 8 for the check word. -/
def mendedWord (k x : Blk) : Nat := ((List.range 8).find? fun j => wordOf k.data j != wordOf x.data j).getD 8

/-- Counts and reports an uncorrectable block of core `c` met by requester class `cls` (Table 7.2 order minus 1). -/
def yardUe (d : Device) (c block cls : Nat) (poison : Bool) : Device :=
  let off := 32 * block
  let s := d.slice c
  let owner := match s.regionAt off with
    | some (_, r) => r.owner
    | none => 0
  let d := if s.guardedAt off then d else d.noteFaults c block false (plainFaults (s.block block))
  let s := d.slice c
  let d := d.setSlice c { s with ueCnt := s.ueCnt + 1, ueAddr := BitVec.ofNat 32 (off + cls * 2 ^ 26 + b2n poison * 2 ^ 29) }
  let p := (d.pdkOfCore c).getD 0xFF
  d.postDev (d.pdkEvent p 5 0x0301 (det 20 (c * 2 ^ 26 + off) ||| det 24 cls ||| det 25 (b2n poison)) owner)

/-- Counts a mended read and queues its write-back (R211). -/
def yardMend (d : Device) (c block : Nat) : Device :=
  let s := d.slice c
  let d := match checkGuarded (s.block block) with
    | .mended x => d.noteFaults c block true [mendedWord (s.block block) x]
    | _ => d
  let s := d.slice c
  d.setSlice c { s with ceCnt := s.ceCnt + 1, ceAddr := BitVec.ofNat 32 (32 * block),
                        mends := if s.mends.contains block then s.mends else s.mends ++ [block] }

/-! ### The merge buffer (R214 to R216) -/

/-- The data of `old` with the bytes of the mask replaced. -/
def mixBytes (old new : Block256) (mask : W32) : Block256 :=
  let m : Block256 := BitVec.ofNat 256 (ofBytes ((List.range 32).map fun k => if mask.getLsbD k then (255 : Byte) else 0))
  (old &&& ~~~m) ||| (new &&& m)
/-- The check bits of `old` with the bits of the mask replaced. -/
def mixBits (old new mask : W32) : W32 := (old &&& ~~~mask) ||| (new &&& mask)

/-- The MSLOT port cycles of a drain: one, and two where a GUARDED block is read and written (R215). -/
def askDrain (d : Device) (c : Nat) (m : Merge) : Device :=
  let two := m.mask != BitVec.allOnes 32 && (d.slice c).guardedAt (32 * m.block)
  d.askPorts c 4 false (List.replicate (if two then 2 else 1) (m.block / 2)) (m.chans ++ [(c, 2)])

/-- Writes a merge entry to its block: masked with its own parity in a PLAIN region; read, merged and checked in a
GUARDED one, a bad block staying poisoned (R215, Table 7.5). -/
def drainEntry (d : Device) (c : Nat) (m : Merge) : Device :=
  let d := d.askDrain c m
  let s := d.slice c
  let full := decide (m.mask = BitVec.allOnes 32)
  let s := if full then s else { s with mrgCnt := s.mrgCnt + 1 }
  let old := s.block m.block
  if full then d.setSlice c (s.putBlock m.block (Blk.of (s.guardedAt (32 * m.block)) m.data))
  else if s.guardedAt (32 * m.block) then
    match checkGuarded old with
    | .good => d.setSlice c (s.putBlock m.block (Blk.of true (mixBytes old.data m.data m.mask)))
    | .mended b => (d.setSlice c (s.putBlock m.block (Blk.of true (mixBytes b.data m.data m.mask)))).yardMend c m.block
    | .bad p => (d.setSlice c (s.putBlock m.block (Blk.poisoned (mixBytes old.data m.data m.mask)))).yardUe c m.block 4 p
  else
    d.setSlice c (s.putBlock m.block { data := mixBytes old.data m.data m.mask,
                                       chk := mixBits old.chk (plainCheck (mixBytes old.data m.data m.mask)) m.mask })

/-- Removes the entry of `block` from the buffer and writes it. -/
def drainBlock (d : Device) (c block : Nat) : Device :=
  match (d.slice c).merge.find? fun m => m.block == block with
  | some m => (d.modSlice c fun s => { s with merge := s.merge.filter fun x => x.block != block }).drainEntry c m
  | none => d
/-- Drains every entry of the core, oldest first (YSYNC, Kerf drain, HALT, window close). -/
def drainAll (d : Device) (c : Nat) : Device :=
  (d.slice c).merge.foldl (fun d m => d.drainEntry c m) (d.modSlice c fun s => { s with merge := [] })

/-- One write within a block: a full write goes to the port, a narrow one into the buffer (R214, R215). -/
def writeBlock (d : Device) (c : Nat) (m : Merge) : Device :=
  if m.mask = BitVec.allOnes 32 then
    d.modSlice c fun s => s.putBlock m.block (Blk.of (s.guardedAt (32 * m.block)) m.data)
  else
    match (d.slice c).merge.find? fun x => x.block == m.block with
    | some x =>
      let y : Merge := { x with data := mixBytes x.data m.data m.mask, mask := x.mask ||| m.mask, last := d.power.cycles }
      let d := d.modSlice c fun s => { s with merge := s.merge.map fun z => if z.block == m.block then y else z }
      if y.mask = BitVec.allOnes 32 then d.drainBlock c m.block else d
    | none =>
      let d := match (d.slice c).merge with
        | o :: _ => if 16 ≤ (d.slice c).merge.length then d.drainBlock c o.block else d
        | [] => d
      d.modSlice c fun s => { s with merge := s.merge ++ [{ m with last := d.power.cycles }] }

/-- The part of a run of bytes at `off` that lies in block `b`, as a write of that block. -/
def partOf (off : Nat) (bs : List Byte) (b : Nat) : Merge :=
  let f := fun k => if 32 * b + k < off then none else bs[32 * b + k - off]?
  { block := b,
    data := BitVec.ofNat 256 (ofBytes ((List.range 32).map fun k => (f k).getD 0)),
    mask := BitVec.ofNat 32 (bitsOf (fun k => (f k).isSome) 32), last := 0, chans := [] }

/-- Blocks that the bytes off .. off + n - 1 touch. -/
def blocksOf (off n : Nat) : List Nat :=
  if n = 0 then [] else (List.range ((off + n - 1) / 32 + 1 - off / 32)).map fun k => off / 32 + k

/-- Writes a run of bytes into the slice of core `c`. -/
def writeYard (d : Device) (c off : Nat) (bs : List Byte) : Device :=
  (blocksOf off bs.length).foldl (fun d b => d.writeBlock c (partOf off bs b)) d

/-- A LAND burst of a channel, or of a peer: what covers whole blocks asks the ports, the rest goes through the merge buffer
(R214, R243). The channel's earlier bytes are granted before its own later full write of a block (R239). -/
def landBytes (d : Device) (c off : Nat) (bs : List Byte) (chan : List (Nat × Nat)) : Device :=
  let whole := fun (b : Nat) => decide (off ≤ 32 * b) && decide (32 * b + 32 ≤ off + bs.length)
  let lines := ((blocksOf off bs.length).filter whole).map (· / 2)
  let d := ((d.slice c).merge.filter fun m => whole m.block && m.chans.any chan.contains).foldl (fun d m => d.drainBlock c m.block) d
  let d := (d.askPorts c 1 false lines.eraseDups chan).writeYard c off bs
  d.modSlice c fun s => { s with merge := s.merge.map fun m =>
    if (blocksOf off bs.length).contains m.block && !whole m.block then { m with chans := m.chans ++ chan.filter fun k => !m.chans.contains k }
    else m }
/-- A write of the channel waits in a merge entry or at a port (R232, R255). -/
def writesPending (d : Device) (c ch : Nat) : Bool :=
  d.slices.any fun kv => (kv.2.merge.any fun m => m.chans.contains (c, ch)) || kv.2.requests.any fun r => r.chans.contains (c, ch)
/-- The merge entries with bytes of the channel drain. -/
def drainChannel (d : Device) (c ch : Nat) : Device :=
  Table.foldl d.slices (fun d n s => (s.merge.filter fun m => m.chans.contains (c, ch)).foldl (fun d m => d.drainBlock n m.block) d) d

/-- Reads block `b` for requester class `cls`: merge entry drained, checked, mended; none for a block that is
uncorrectable or poisoned, which is counted and reported. -/
def readBlock (d : Device) (c cls b : Nat) : Device × Option Block256 :=
  let d := d.drainBlock c b
  let k := (d.slice c).block b
  match checkBlk ((d.slice c).guardedAt (32 * b)) k with
  | .good => (d, some k.data)
  | .mended x => (d.yardMend c b, some x.data)
  | .bad p => (d.yardUe c b cls p, none)

/-- The bytes of a block. -/
def blkBytes (b : Block256) : List Byte := toBytes 32 b.toNat

/-- The bytes of the blocks in order, up to the first bad one, whose number is returned with them. -/
def readBlocks (d : Device) (c cls : Nat) : List Nat → Device × List Byte × Option Nat
  | [] => (d, [], none)
  | b :: r =>
    match d.readBlock c cls b with
    | (d, none) => (d, [], some b)
    | (d, some x) =>
      let (d, t, e) := readBlocks d c cls r
      (d, blkBytes x ++ t, e)

/-- Reads a run of bytes, or answers the failing block; the port requests are another's. -/
def readBytes (d : Device) (c cls off n : Nat) : Device × (List Byte ⊕ Nat) :=
  match d.readBlocks c cls (blocksOf off n) with
  | (d, bs, none) => (d, .inl ((bs.drop (off % 32)).take n))
  | (d, _, some b) => (d, .inr b)

/-- Reads a run of bytes with one port request for each line: of an issue of the core in the classes STREAM, LOAD and MSLOT. -/
def readYard (d : Device) (c cls off n : Nat) : Device × (List Byte ⊕ Nat) :=
  (d.askPorts c cls (decide (2 ≤ cls) && decide (cls ≤ 4)) (linesOf off n)).readBytes c cls off n

/-! ### Freeing regions (R208, R221) -/

/-- Starts the clear of every region of a core that `p` accepts: no engine reaches them any more. -/
def freeRegions (d : Device) (c : Nat) (p : Region → Bool) : Device :=
  d.modSlice c fun s => { s with regions := Table.mapVals s.regions fun r =>
    if r.valid && !r.clearing && p r then { r with clearing := true, job := none, frame := false } else r }

end Device

/-- The slice with the regions that `p` accepts cleared and gone: data and check bits zero, those in remap spares too. -/
def Slice.wipe (s : Slice) (p : Region → Bool) : Slice :=
  let gone := fun b => match s.regionAt (32 * b) with
    | some (_, r) => p r
    | none => false
  { s with data := Table.keep s.data fun b _ => !gone b,
           merge := s.merge.filter fun m => !gone m.block,
           mends := s.mends.filter fun b => !gone b,
           remap := s.remap.map fun e => if gone (remapBlock e.bank e.row e.word) then { e with spare := 0 } else e,
           regions := Table.keep s.regions fun _ r => !(r.valid && p r) }

namespace Device

/-! ### Windows (R222 to R225) -/

/-- Slot number of a window handle within its Paddock, and the key of the table. -/
def winSlot (h : W32) : Nat := bits h 7 0
def winHandle (gen : BitVec 20) (slot : Nat) : W32 := BitVec.ofNat 32 (5 * 2 ^ 28 + gen.toNat * 256 + slot)
/-- The handle names this slot at its present generation. -/
def winNames (w : Window) (h : W32) : Bool := bits h 31 28 == 5 && bits h 27 8 == w.gen.toNat

/-- The checks of R223 on an open by a job of the context (a job, or none for a capsule): the code, or the slot. -/
def winOpenCheck (d : Device) (p core off len : Nat) (job : Option Nat) (ctx : Nat) : Code ⊕ Nat :=
  let inOne := match (d.slice core).oneRegion off len with
    | some (_, r) => r.opens job ctx
    | none => false
  if off % 4 ≠ 0 ∨ len % 4 ≠ 0 ∨ len < 4 ∨ 2 ^ 26 < off + len ∨ !inOne then .inl 0x0402
  else match lowest (fun s => (d.window (256 * p + s)).state == .free) 256 with
    | some s => .inr s
    | none => .inl 0x0104

/-- Opens slot `s` of Paddock `p`. -/
def winOpen (d : Device) (p s core off len : Nat) (rd wr mesh drove : Bool) (job : Option Nat) (ctx : Nat) (obj : Option Nat) :
    Device × W32 :=
  let w := d.window (256 * p + s)
  (d.setWindow (256 * p + s) { state := .open_, rd := rd, wr := wr, mesh := mesh, drove := drove, core := core, gen := w.gen,
                               base := off, len := len, owner := ctx, job := job, inFlight := 0, obj := obj }, winHandle w.gen s)

/-- The check of R224 at the owning router: the code of a refusal, or the slice offset. -/
def winCheck (d : Device) (p : Nat) (h : W32) (o n : Nat) (write remote : Bool) : Code ⊕ Nat :=
  let w := d.window (256 * p + winSlot h)
  if w.state ≠ .open_ ∨ !winNames w h then .inl 0x0401
  else if w.len < o + n ∨ o % 4 ≠ 0 ∨ n % 4 ≠ 0 ∨ !(if remote then w.drove else w.mesh) ∨ !(if write then w.wr else w.rd) then
    .inl 0x0402
  else .inr (w.base + o)

/-- One more or one less accepted transfer at a window. -/
def winFlight (d : Device) (k : Nat) (f : Nat → Nat) : Device := d.setWindow k { d.window k with inFlight := f (d.window k).inFlight }

/-- A close moves an OPEN slot to CLOSING. -/
def winClose (d : Device) (k : Nat) : Device :=
  let w := d.window k
  if w.state = .open_ then d.setWindow k { w with state := .closing } else d

/-- The slot after a completed close: FREE with its generation advanced; an object loses the window's reference. -/
def winFree (d : Device) (k : Nat) : Device :=
  let w := d.window k
  if w.state = .free then d
  else
    let d := d.setWindow k { Window.reset with gen := w.gen + 1 }
    match w.obj with
    | some o => d.unrefObj o
    | none => d

/-- Every open window that `p` accepts goes to CLOSING. -/
def closeWindows (d : Device) (p : Nat → Window → Bool) : Device :=
  Table.foldl d.windows (fun d k w => if w.state == .open_ && p k w then d.winClose k else d) d

end Device

end Sys2Proof.Machine
end

