-- ==== Sys2Proof/Machine/EngineOps.lean ====
section
/-! DEFINITION. Operations that the copy engines and the command processor share: queues and their commands, pieces
that end early, and the halt and stop of a Skidder channel (R233, R234, R248, R326, R333). -/

namespace Sys2Proof.Machine

/-- Handle of a queue (R311). -/
def queueHandle (q : Nat) : W32 := BitVec.ofNat 32 (0x30000000 + q)

namespace Device

/-! ### Queues -/

/-- The Stall that holds queue `q`, if one does. -/
def stallOf (d : Device) (q : Nat) : Option Nat :=
  (List.range 48).find? fun s => (d.stall s).queue == q &&
    ((d.stall s).state == .bound || (d.stall s).state == .parked || (d.stall s).state == .unbinding || (d.stall s).state == .fenced)
def queueOf (d : Device) (q : Nat) : Queue :=
  match d.stallOf q with
  | some s => (d.stall s).q
  | none => (d.outQueue q).q
def modQueue (d : Device) (q : Nat) (f : Queue → Queue) : Device :=
  match d.stallOf q with
  | some s => d.modStall s fun x => { x with q := f x.q }
  | none => d.modOutQueue q fun x => { x with q := f x.q }
/-- The ring of queue `q`. -/
def ringOf (d : Device) (q : Nat) : Nat := (d.queueOf q).ring
def findCmd (d : Device) (q : Nat) (seq : W32) : Option Cmd := (d.queueOf q).accepted.find? fun c => c.seq == seq
def modCmd (d : Device) (q : Nat) (seq : W32) (f : Cmd → Cmd) : Device :=
  d.modQueue q fun k => { k with accepted := k.accepted.map fun c => if c.seq = seq then f c else c }
/-- Records that queue `q` made progress (R369). -/
def queueProgress (d : Device) (q : Nat) : Device := d.modQueue q fun k => { k with progress := d.now }
/-- The command has ended with `code` (0 for success); it completes at COMMAND_COMPLETE. -/
def finishCmd (d : Device) (q : Nat) (seq : W32) (code : Code) (handle : W32 := 0) : Device :=
  d.modCmd q seq fun c => if c.phase = .finished then c else { c with phase := .finished, code := code, handle := handle }
/-- The running command of that Stall. -/
def stallCmd (d : Device) (s : Nat) (seq : W32) : Option Cmd := (d.stall s).q.accepted.find? fun c => c.seq == seq

/-- A COMMAND record for a queue: detail gives the SEQ, the opcode, the Stall and the operand word (Table 10.10). -/
def commandRecord (d : Device) (s : Nat) (code : Code) (handle : W32) (seq : W32) (opcode word : Nat) : Device :=
  let q := (d.stall s).q
  d.postQueue q.ring (d.pdkEvent q.paddock 3 code (det 20 seq.toNat ||| det 24 opcode ||| det 25 s ||| det 26 word)
    q.context handle)

/-! ### Pieces -/

def piece (d : Device) (i : Nat) : Option Piece := Table.find d.pieces i
def setPiece (d : Device) (i : Nat) (v : Piece) : Device := { d with pieces := Table.put d.pieces i v }
/-- A piece has left the session it was outstanding in. -/
def leaveSession (d : Device) (i : Nat) : Device :=
  (List.range 64).foldl (fun d b =>
    if (d.binding b).pieces.contains i then d.modBinding b fun x => { x with
      pieces := x.pieces.filter (· != i), owed := x.owed.filter fun y => y.2 != some i } else d) d

/-- Removes a piece; a window that accepted it has one transfer less in flight. -/
def dropPiece (d : Device) (i : Nat) : Device :=
  match d.piece i with
  | none => d
  | some p =>
    let d := ({ d with pieces := Table.erase d.pieces i }).leaveSession i
    match p.win with
    | some k => d.winFlight k (· - 1)
    | none => d
/-- The owner issues nothing further: what its destination has not accepted is discarded, and reads on the way
complete with their data discarded (R233, R248). -/
def stopPieces (d : Device) (o : PieceOwner → Bool) : Device :=
  Table.foldl d.pieces (fun d i p =>
    if o p.owner then
      match p.phase with
      | .translate => d.dropPiece i
      | .check => d.dropPiece i
      | .read => d.setPiece i { p with discard := true }
      | _ => d
    else d) d
/-- Some piece of the owner is not complete. -/
def owes (d : Device) (o : PieceOwner → Bool) : Bool := d.pieces.any fun kv => o kv.2.owner
def ofChannel (c ch : Nat) (o : PieceOwner) : Bool := o == .channel c ch

/-- What the oldest request of a channel waits for (R259, PEN_SKD_STAT.WAIT): a translation, the memory frame or the host
link, or Drove credit. -/
def requestWait (d : Device) (c ch : Nat) : ChWait :=
  match d.pieces.find? fun kv => ofChannel c ch kv.2.owner with
  | none => .none
  | some (i, p) =>
    if p.phase = .translate then .xlate
    else if (List.range 64).any fun b => (d.binding b).owed.any fun y => y.2 == some i then .linkCredit
    else match p.phase, p.src, p.dst with
      | .read, .dva _, _ => .memPort
      | .write, _, .dva _ => .memPort
      | _, _, _ => .none
/-- What PEN_SKD_STAT.WAIT shows: what the instruction or the next piece waits for, else what the oldest request does. -/
def channelWait (d : Device) (c ch : Nat) : ChWait :=
  if (d.channel c ch).wait = .none then d.requestWait c ch else (d.channel c ch).wait

/-! ### Tile streams (R248) -/

/-- Number of a tile as its handle carries it. -/
def tileTag (n : Nat) : Nat := n % 2 ^ 20
def handleTag (h : W64) : Nat := bits h 63 44

/-- No Chute is bound to the channel any longer (R245). -/
def unbind (d : Device) (c ch : Nat) : Device :=
  (List.range 12).foldl (fun d n => d.modCore n fun k => { k with chutes := Table.mapAll k.chutes Chute.reset fun x =>
    if x.bound != .none && x.bcore == c && x.bch == ch then { x with bound := .none, bch := 0, bcore := 0 } else x }) d
/-- The senders leave the queues of senders that Chutes refused. -/
def forgetSenders (d : Device) (p : Sender → Bool) : Device :=
  if d.cores.any fun kv => kv.2.chutes.any fun x => x.2.waiting.any p then
    (List.range 12).foldl (fun d n => d.modCore n fun k => { k with chutes := Table.mapAll k.chutes Chute.reset fun x =>
      { x with waiting := x.waiting.filter fun s => !p s } }) d
  else d
/-- Takes back the handles of one ring that nobody popped: with the device, the units fetched for those tiles (R248). -/
def stopRing (c ch : Nat) (s : Device × Nat) (r : Ring4) : Device × Nat :=
  let d := s.1
  let full := d.chute r.core r.fullChute
  let mine := fun (p : Push) => p.src == Sender.channel c ch && p.core == r.core && p.chute == r.fullChute
  let gone := (full.entries ++ (d.pushes.filter mine).map (·.value)).map handleTag ++ (if r.open_ then [tileTag (r.next - 1)] else [])
  let waste := ((d.channel c ch).fetched.filter fun kv => kv.1 / 2 ^ 32 == r.id && gone.contains (tileTag kv.1)).foldl (fun n kv => n + kv.2) 0
  (({ d with pushes := d.pushes.filter fun p => !mine p }).setChute r.core r.fullChute { full with entries := [] }, s.2 + waste)
/-- Ends the tile streams of a channel: the handles nobody popped leave the FULL Chutes, its Chutes are free, and the units
fetched for tiles never popped are waste. -/
def stopStream (d : Device) (c ch : Nat) : Device :=
  let k := d.channel c ch
  let (d, waste) := (k.ring.toList ++ k.olds).foldl (stopRing c ch) (d, 0)
  (d.unbind c ch).modChannel c ch fun k => { k with ring := none, olds := [], fetched := [], waste := k.waste + BitVec.ofNat 64 waste }

/-- The channel stops: nothing further issues, its stream ends; it is IDLE once its accepted requests complete. -/
def stopChannel (d : Device) (c ch : Nat) : Device :=
  if (d.channel c ch).state = .running then
    let d := ((d.stopStream c ch).stopPieces (ofChannel c ch)).forgetSenders (· == .channel c ch)
    let d := { d with pushes := d.pushes.filter fun p => !(p.src == Sender.channel c ch && p.held) }
    let k := d.channel c ch
    let busy := d.owes (ofChannel c ch) || d.writesPending c ch
    d.setChannel c ch { k with pc := k.shownPc, planned := [], loops := [], beat := [], wait := .none, closing := none,
                               ending := busy, stopping := busy,
                               state := if busy then .running else .idle }
  else d

/-- The channel halts with a code (R233); `detail` is bytes 20 to 27 of its record, `pc` the Haul program counter of the MOVE whose
piece failed, where one did. One that was stopped only completes what it has accepted (R248). -/
def haltChannel (d : Device) (c ch : Nat) (code : Code) (detail : BitVec 96) (pc : Option Nat := none) : Device :=
  if (d.channel c ch).state = .running && !(d.channel c ch).stopping then
    let d := d.stopChannel c ch
    let k := d.channel c ch
    let k := { k with pc := pc.getD k.pc }
    let d := d.setChannel c ch { k with state := .halted, halt := true, code := code, ending := false, stopping := false }
    let d := d.traceRec c 5 0 0 (ch + 2 * 2 ^ 8 + code.toNat * 2 ^ 16)
    let ev := detail ||| det 28 c ||| det 29 ch ||| det 30 k.pc
    match d.jobOf c with
    | none => d
    | some (j, v) =>
      let d := d.postQueue (d.ringOf v.queue) (d.pdkEvent v.paddock 4 code ev v.context)
      d.modJob j fun v => if v.haltAt.isNone then { v with haltCode := code, haltAt := some (c, ch) } else v
  else d

/-- Detail of a window or Drove code: the handle and the window-relative offset. -/
def winDetail (h : W32) (off : Nat) : BitVec 96 := det 20 h.toNat ||| det 24 (off % 2 ^ 32)
/-- Detail of a translation or private memory code: the 4 KiB-aligned DVA. -/
def dvaDetail (a : Nat) : BitVec 96 := det 20 (a / 4096 * 4096)

/-- Detail that the code asks for, from the end of the piece that failed. -/
def locDetail (code : Code) (l : Loc) : BitVec 96 :=
  if code = 0x0201 ∨ code = 0x0202 ∨ code = 0x0302 ∨ code = 0x0303 then
    match l with
    | .dva a => dvaDetail a
    | _ => 0
  else if code = 0x0401 ∨ code = 0x0402 ∨ code = 0x0403 ∨ code = 0x0404 ∨ code = 0x0405 ∨ code = 0x0406 then
    match l with
    | .window h o => winDetail h o
    | .slot h o => winDetail h o
    | .remote _ h o => winDetail h o
    | .slice _ o => det 24 o
    | _ => 0
  else if code = 0x0301 then
    match l with
    | .slice _ o => det 20 (o / 32 * 32)
    | _ => 0
  else 0

/-- A command of a Stall fails: nothing further of it issues. -/
def failCommand (d : Device) (s : Nat) (seq : W32) (code : Code) : Device :=
  let d := d.stopPieces (· == .command s seq)
  d.finishCmd (d.stall s).queue seq code

/-- The piece is refused or fails with a code at end `l` of it; the fence of its Paddock has already stopped its owner (R302). -/
def failPiece (d : Device) (i : Nat) (code : Code) (l : Loc) : Device :=
  match d.piece i with
  | none => d
  | some p =>
    let d := d.dropPiece i
    if p.discard || d.fencedPdk p.pdk then d
    else match p.owner with
      | .channel c ch => d.haltChannel c ch code (locDetail code l) (some p.pc)
      | .command s seq => d.failCommand s seq code

end Device

end Sys2Proof.Machine
end

