-- ==== Sys2Proof/Machine/LinkOps.lean ====
section
/-! DEFINITION. The sending side of the Drove links: routes, bindings, credits, sequenced and unsequenced frames, and
the end of a session (spec 12: R385 to R397). -/

namespace Sys2Proof.Machine

/-- A frame with an empty body and every header field at the value that a sender may leave alone. -/
def blankFrame (t : FrameType) : DroveFrame :=
  { type := t, ver := 1, wellFormed := true, hops := 31, dst := 0, src := 0, dpdk := 0, spdk := 0, inc := 0, psn := 0,
    ackPsn := 0, crLim := 0, len := 0, code := 0, arg := 0, payload := [] }

/-- WRITE, READ_REQ, READ_RSP, NAK and the Muster frames carry a PSN (Table 12.3). -/
def sequenced (t : FrameType) : Bool :=
  match t with
  | .hello => false
  | .ack => false
  | _ => true

/-- The remote end of a piece. -/
def Piece.remoteEnd (p : Piece) : Loc :=
  match p.src with
  | .remote _ _ _ => p.src
  | _ => p.dst

namespace Device

/-- The port that the route of an address names (R388). -/
def routePort (d : Device) (addr : Nat) : Option Nat :=
  match bits (Table.get d.links.routes 0 addr) 1 0 with
  | 1 => some 0
  | 2 => some 1
  | _ => none
/-- The neighbour entry of a route. -/
def routeNbr (d : Device) (addr : Nat) : Nat := bits (Table.get d.links.routes 0 addr) 7 2
/-- The valid binding of a Paddock to a peer address (R390). -/
def bindingTo (d : Device) (p addr : Nat) : Option Nat :=
  (List.range 64).find? fun b => (d.binding b).valid && (d.binding b).pdk == p && (d.binding b).peer.toNat == addr
/-- An address of the trusted-peer table (R403). -/
def trusted (d : Device) (addr : Nat) : Bool :=
  d.links.trust.any fun kv => kv.2.getLsbD 16 && bits kv.2 15 0 == addr

/-- Credits of a binding's pool (R397): (CRLIM - next PSN) mod 2^24, when the peer grants any. -/
def pool (b : Binding) : Nat :=
  let x := (b.crLim - b.txPsn).toNat
  if 1 ≤ x ∧ x ≤ 2 ^ 23 then x else 0

/-- The header that binding `b` puts on a frame (Table 12.2). -/
def headed (d : Device) (b : Nat) (f : DroveFrame) : DroveFrame :=
  let x := d.binding b
  { f with dst := x.peer, src := d.links.addr, dpdk := BitVec.ofNat 3 x.peerPdk, spdk := BitVec.ofNat 3 x.pdk,
           inc := (d.pdk x.pdk).inc, ackPsn := x.rxExp - 1,
           crLim := if f.type = .hello then BitVec.ofNat 24 x.credits else x.granted }

/-- Data frames, which an egress sends after ACK, HELLO, NAK and Muster frames (R389). -/
def dataFrame (t : FrameType) : Bool := t == .write || t == .readReq || t == .readRsp
/-- Frames that wait for forwarding at an egress. -/
def fwdFill (p : Port) : Nat := (p.queue.filter fun x => x.1).length
/-- A frame leaves at a port; a forwarded one is counted as such. -/
def sendAt (d : Device) (n : Nat) (fwd : Bool) (f : DroveFrame) : Device :=
  (d.modPort n fun p => { p with txFrm := p.txFrm + 1, fwdFrm := if fwd then p.fwdFrm + 1 else p.fwdFrm }).emit (.frame n f)
/-- The Drove priority of a port is held: its link is down, or it obeys a pause. -/
def portHeld (d : Device) (n : Nat) : Bool := !(d.port n).up || (d.port n).paused
/-- Hands a frame to an egress: it leaves, or waits while the priority is held. -/
def putPort (d : Device) (n : Nat) (fwd : Bool) (f : DroveFrame) : Device :=
  if d.portHeld n then
    let d := d.modPort n fun p => { p with queue := p.queue ++ [(fwd, f)] }
    if fwd && bit d.links.ctl 6 && decide (96 ≤ fwdFill (d.port n)) then d.emit (.pfcPause n) else d
  else d.sendAt n fwd f
/-- Two lists taken in turn, the first one first. -/
def inTurn {α : Type} : List α → List α → List α
  | [], r => r
  | a :: l, [] => a :: l
  | a :: l, b :: r => a :: b :: inTurn l r
/-- The binding that a frame of this device travels in, by its peer and its Paddock. -/
def frameBinding (f : DroveFrame) : BitVec 16 × BitVec 3 := (f.dst, f.spdk)
/-- Originated frames with the bindings taken in turn: one frame of each binding in every round, its oldest first (R389). -/
def bindingTurns : Nat → List (Bool × DroveFrame) → List (Bool × DroveFrame)
  | 0, l => l
  | n + 1, l =>
    let heads := l.zipIdx.filter fun x => !((l.take x.2).any fun y => frameBinding y.2 == frameBinding x.1.2)
    let rest := l.zipIdx.filter fun x => (l.take x.2).any fun y => frameBinding y.2 == frameBinding x.1.2
    heads.map (·.1) ++ bindingTurns n (rest.map (·.1))
/-- The frames that waited leave in the order of R389. -/
def flushPort (d : Device) (n : Nat) : Device :=
  if d.portHeld n then d
  else
    let l := (d.port n).queue
    let dat := l.filter fun x => dataFrame x.2.type
    let order := (l.filter fun x => !dataFrame x.2.type) ++ inTurn (dat.filter fun x => x.1) (bindingTurns dat.length (dat.filter fun x => !x.1))
    order.foldl (fun d x => d.sendAt n x.1 x.2) (d.modPort n fun p => { p with queue := [] })

/-- Sends a frame of binding `b` at the port of its route; an unreachable route sends nothing. -/
def sendFrame (d : Device) (b : Nat) (f : DroveFrame) : Device :=
  if d.links.addr = 0 then d
  else match d.routePort (d.binding b).peer.toNat with
    | none => d
    | some n => d.putPort n false (d.headed b f)

/-- Sends the oldest frames that wait for a credit, as far as the pool goes (R392, R397). -/
def flushOwed (d : Device) (b : Nat) : Nat → Device
  | 0 => d
  | n + 1 =>
    let x := d.binding b
    match x.owed with
    | [] => d
    | (f, piece) :: r =>
      if x.state = .up ∧ 0 < pool x then
        let g := { f with psn := x.txPsn }
        let d := d.setBinding b { x with
          owed := r, txPsn := x.txPsn + 1,
          reads := match piece with
            | some i => if f.type = .readReq then x.reads ++ [(x.txPsn, i)] else x.reads
            | none => x.reads
          unacked := x.unacked ++ [{ psn := x.txPsn, f := g, first := d.now, last := d.now,
                                     rto := max 10000 (4 * x.srtt), piece := piece }] }
        flushOwed (d.sendFrame b g) b n
      else d

/-- Queues a sequenced frame, NAK and Muster frames ahead of data, and sends what the session's credits allow. -/
def sendSeq (d : Device) (b : Nat) (f : DroveFrame) : Device :=
  let x := d.binding b
  let owed := if dataFrame f.type then x.owed ++ [(f, none)]
    else x.owed.takeWhile (fun y => !dataFrame y.1.type) ++ [(f, none)] ++ x.owed.dropWhile fun y => !dataFrame y.1.type
  (d.setBinding b { x with owed := owed }).flushOwed b owed.length

/-- Bytes of payload that one frame carries at most (R384). -/
def frameMax (d : Device) : Nat := if bit d.links.ctl 1 then 4096 else 1024

/-- Offsets and lengths of the frames that a piece of `n` bytes is cut into. -/
def cuts (m n : Nat) : List (Nat × Nat) := (List.range ((n + m - 1) / m)).map fun k => (m * k, min m (n - m * k))

/-- Queues the frames of piece `i`: WRITEs of its data, or READ_REQs (R399, R400). -/
def sendPiece (d : Device) (b i : Nat) (read : Bool) (handle : W32) (off len : Nat) (data : List Byte) : Device :=
  let x := d.binding b
  let fs := (cuts d.frameMax len).map fun (o, n) =>
    ({ blankFrame (if read then .readReq else .write) with
        len := BitVec.ofNat 13 n, arg := BitVec.ofNat 64 (handle.toNat + 2 ^ 32 * ((off + o) % 2 ^ 32)),
        payload := if read then [] else (data.drop o).take n }, some i)
  (d.setBinding b { x with owed := x.owed ++ fs }).flushOwed b (x.owed.length + fs.length)

/-- Every piece outstanding in the session ends with a code that halts its channel (R391, R396, R403). -/
def endOutstanding (d : Device) (b : Nat) (code : Code) : Device :=
  (d.binding b).pieces.foldl (fun d i =>
    match d.piece i with
    | some p => d.failPiece i code p.remoteEnd
    | none => d) d

/-- The session's requests end and its frames are discarded. -/
def clearSession (d : Device) (b : Nat) (code : Code) : Device :=
  let d := d.endOutstanding b code
  d.modBinding b fun x => { x with unacked := [], owed := [], reads := [], acked := [], heldFrames := [], pieces := [], ackOwed := false }

/-- The session goes DOWN. -/
def sessionDown (d : Device) (b : Nat) (code : Code) : Device :=
  (d.clearSession b code).modBinding b fun x => { x with state := .down }

/-- A valid binding whose route is reachable leaves DOWN (Table 12.4). -/
def sessionOpen (d : Device) (b : Nat) : Device :=
  let x := d.binding b
  if x.valid ∧ x.state = .down ∧ (d.routePort x.peer.toNat).isSome ∧ (d.pdk x.pdk).rst = .running then
    d.setBinding b { x with state := .opening }
  else d

/-- Entry to UP: both PSN streams start at 0 and the credit limit is the peer's (R392). -/
def sessionUp (d : Device) (b : Nat) (peerInc : BitVec 8) (credits : BitVec 24) : Device :=
  (d.modBinding b fun x => { x with state := .up, pinc := peerInc, heard := true, txPsn := 0, rxExp := 0, crLim := credits,
                                    granted := BitVec.ofNat 24 x.credits }).flushOwed b (d.binding b).owed.length

end Device

end Sys2Proof.Machine
end

