-- ==== Sys2Proof/Machine/Operands.lean ====
section
/-! DEFINITION. Operand forms of the slot instructions: the fields of Tables 6.2 to 6.7, the reserved bits and values
of R158 and R168, the register files of R153 and R154, and the registers and resources that an instruction reads and
writes (R161). -/

namespace Sys2Proof.Machine

/-- Opcode of a slot word (Table 6.2). -/
def opOf (w : W64) : Nat := bits w 5 0

/-- The word with bits m to l set. -/
def rng (m l : Nat) : W64 := BitVec.ofNat 64 ((2 ^ (m + 1 - l) - 1) * 2 ^ l)

/-- OP, PR and PN, which every instruction has (Table 6.2). -/
def common : W64 := rng 9 0
/-- The fields every vector instruction has: MP, MZ and TY (R168). -/
def vecCommon : W64 := common ||| rng 39 34
def fVD : W64 := rng 15 10
def fVA : W64 := rng 21 16
/-- VB and SB, operand b of a vector instruction. -/
def fB : W64 := rng 27 22 ||| rng 40 40
def fVC : W64 := rng 33 28
def fAUX : W64 := rng 47 41

/-- Bits of a P-slot word that Table 6.3 assigns to its opcode. -/
def assignedP (op : Nat) : Option W64 :=
  match op with
  | 0x01 => some (rng 51 0)
  | 0x02 => some (rng 15 0)
  | 0x03 => some (common ||| rng 16 11)
  | 0x04 => some (common ||| rng 20 11)
  | _ => none

/-- Bits of a T-slot word that Table 6.4 assigns to its opcode. -/
def assignedT (op : Nat) : Option W64 :=
  match op with
  | 0x01 => some (rng 27 0)
  | 0x02 => some (common ||| rng 20 11)
  | 0x03 => some (common ||| rng 29 16)
  | 0x13 => some (vecCommon ||| fVD ||| fVA ||| fB ||| fVC)
  | 0x16 => some (vecCommon ||| fVD ||| fVA)
  | 0x17 => some (vecCommon ||| fVD ||| fVA)
  | 0x1E => some (vecCommon ||| rng 12 10 ||| fVA ||| fB ||| fAUX)
  | 0x1F => some (vecCommon ||| fVD ||| fVA ||| fB ||| rng 30 28)
  | 0x20 => some (vecCommon ||| fVD ||| fVA ||| fAUX)
  | 0x21 => some (vecCommon ||| fVD ||| fVA ||| fAUX)
  | 0x22 => some (vecCommon ||| fVD ||| fVA ||| fAUX)
  | 0x25 => some (vecCommon ||| fVD ||| fVA ||| fAUX)
  | 0x26 => some (vecCommon ||| fVD ||| fVA ||| fAUX)
  | 0x27 => some (vecCommon ||| fVD ||| fVA ||| fVC ||| rng 41 41)
  | 0x28 => some (vecCommon ||| fAUX)
  | 0x29 => some (vecCommon ||| fVA ||| fB)
  | 0x2A => some (vecCommon ||| fVD ||| fVC)
  | 0x2C => some (vecCommon ||| fVD)
  | n => if 0x10 ≤ n ∧ n ≤ 0x2B then some (vecCommon ||| fVD ||| fVA ||| fB) else none

/-- Bits of an M-slot word that Table 6.6 assigns to its opcode. -/
def assignedM (op : Nat) : Option W64 :=
  match op with
  | 0x01 => some (rng 48 10 ||| common)
  | 0x02 => some (rng 48 10 ||| common)
  | 0x03 => some (rng 49 0)
  | 0x04 => some (rng 49 0)
  | 0x05 => some (rng 47 0 ||| rng 54 50)
  | 0x06 => some (rng 47 0 ||| rng 54 50)
  | 0x08 => some (rng 47 0)
  | 0x09 => some (rng 24 0)
  | 0x0A => some (common ||| rng 54 16)
  | 0x0B => some (rng 10 0 ||| rng 26 16)
  | 0x0C => some (rng 25 0)
  | 0x0D => some (rng 19 0 ||| rng 25 25)
  | 0x0E => some (common ||| rng 47 16)
  | _ => none

/-- Bits of a C-slot word that Table 6.7 assigns to its opcode. -/
def assignedC (op : Nat) : Option W64 :=
  match op with
  | 0x10 => some (common ||| rng 27 16 ||| rng 44 29)
  | 0x11 => some (common ||| rng 21 16 ||| rng 28 28 ||| rng 60 32)
  | 0x12 => some (common ||| rng 15 10 ||| rng 43 32)
  | 0x13 => some (common ||| rng 21 16 ||| rng 43 32)
  | 0x14 => some (common ||| rng 21 16 ||| rng 39 32)
  | 0x15 => some (common ||| rng 15 10 ||| rng 29 29 ||| rng 39 36)
  | 0x16 => some (common ||| rng 21 16 ||| rng 29 29 ||| rng 43 32)
  | 0x17 => some (rng 27 0)
  | 0x18 => some (rng 27 0 ||| rng 29 29)
  | 0x19 => some (rng 15 0)
  | 0x1A => some common
  | 0x1B => some (rng 15 0)
  | 0x1C => some (rng 15 0)
  | 0x1D => some (common ||| rng 47 32)
  | 0x1E => some common
  | 0x1F => some (rng 63 0)
  | 0x20 => some (common ||| rng 59 32)
  | n => if 0x01 ≤ n ∧ n ≤ 0x0F then some (rng 28 0 ||| rng 63 32) else none

def assigned (sl : Slot) (op : Nat) : Option W64 :=
  match sl with
  | .p => assignedP op
  | .t => assignedT op
  | .m => assignedM op
  | .c => assignedC op

/-! ### Fields (Tables 6.3, 6.4, 6.6 and 6.7) -/

def fPR (w : W64) : Nat := bits w 8 6
def fPN (w : W64) : Bool := bit w 9
def fUK (w : W64) : Bool := bit w 10
def fSU (w : W64) : Nat := bits w 15 11
/-- D of the C slot, DS of the M slot, VD of a vector instruction. -/
def fD (w : W64) : Nat := bits w 15 10
/-- A of the C slot, VA or VS of the T slot, VX of PISSUE, VD of PDRN. -/
def fA (w : W64) : Nat := bits w 21 16
/-- B of the C slot, VB of a vector instruction. -/
def fBb (w : W64) : Nat := bits w 27 22
def fAB (w : W64) : Nat := bits w 20 16
def vC (w : W64) : Nat := bits w 33 28
def vMP (w : W64) : Nat := bits w 36 34
def vMZ (w : W64) : Bool := bit w 37
/-- 0 FP32, 1 BF16, 2 INT32. -/
def vTY (w : W64) : Nat := bits w 39 38
def vSB (w : W64) : Bool := bit w 40
def vAUX (w : W64) : Nat := bits w 47 41
/-- The signed 26-bit IMM of a Yard access (R171). -/
def mIMM (w : W64) : Int := (BitVec.ofNat 26 (bits w 47 22)).toInt
def mPI (w : W64) : Bool := bit w 21
def mEW (w : W64) : Nat := bits w 49 48
def cI (w : W64) : Bool := bit w 28
/-- IMM of the ALU format, sign-extended (R173). -/
def cIMM (w : W64) : W64 := (BitVec.ofNat 32 (bits w 63 32)).signExtend 64
def cCOND (w : W64) : Nat := bits w 31 29

/-- KP: the instruction is also a Kerf point (R186). -/
def kpMarked (sl : Slot) (w : W64) : Bool :=
  match sl with
  | .m => (opOf w == 0x0C || opOf w == 0x0D) && bit w 25
  | .c => (opOf w == 0x15 || opOf w == 0x16 || opOf w == 0x18) && bit w 29
  | _ => false

/-- Reserved values of fields that the tables and R167 to R180 give by themselves; checks that need the machine's
state stand with the instruction. -/
def valuesOk (sl : Slot) (w : W64) : Bool :=
  match sl with
  | .p => true
  | .t =>
    let op := opOf w
    if op ≤ 0x03 then true
    else
      vTY w != 3 &&
      (match op with
       | 0x18 => vTY w == 2 | 0x19 => vTY w == 2 | 0x1A => vTY w == 2
       | 0x1B => vTY w == 2 | 0x1C => vTY w == 2 | 0x1D => vTY w == 2
       | 0x1E => decide (vAUX w ≤ 5)
       | 0x20 => decide (vAUX w ≤ 5)
       | 0x21 => decide (vAUX w ≤ 7) && vTY w != 2
       | 0x22 => decide (vAUX w ≤ 2)
       | 0x24 => vSB w
       | 0x25 => decide (vAUX w ≤ 4)
       | 0x26 => decide (vAUX w ≤ 4)
       | 0x27 => fD w != vC w
       | 0x29 => vSB w
       | 0x2B => vTY w != 2 && (vSB w || fBb w == 0)
       | 0x2C => vTY w == 2
       | _ => true)
  | .m =>
    match opOf w with
    | 0x03 => mEW w != 3
    | 0x04 => mEW w != 3
    | 0x08 => bits w 32 31 != 3
    | 0x0A => decide (1 ≤ bits w 42 33) && decide (bits w 42 33 ≤ 512)
    | 0x0C => bit w 24 || bits w 23 20 == 0
    | 0x0E => decide (1 ≤ bits w 47 34) && decide (bits w 47 34 ≤ 8192)
    | _ => true
  | .c =>
    let op := opOf w
    if 0x01 ≤ op ∧ op ≤ 0x0F then !cI w || fBb w == 0
    else if op = 0x10 then cCOND w != 7
    else if op = 0x12 ∨ op = 0x13 then bits w 33 32 == 0
    else if op = 0x1F then cCOND w != 7 && bits w 15 13 == 0 && (!cI w || fBb w == 0)
    else true

/-- The word is an instruction of its slot: a listed OP, every unassigned bit zero, no reserved value (R158). -/
def legal (sl : Slot) (w : W64) : Bool :=
  match assigned sl (opOf w) with
  | none => false
  | some m => decide (w &&& ~~~m = 0) && valuesOk sl w

/-! ### Registers (R153, R154) -/

/-- A 6-bit scalar operand: S0 to S31, then A0 to A31; S0 reads zero. -/
def Sequencer.sop (q : Sequencer) (n : Nat) : W64 :=
  if n < 32 then (if n = 0 then 0 else Table.get q.s 0 n) else Table.get q.a 0 (n - 32)
/-- Writes a scalar operand; writes to S0 are discarded. -/
def Sequencer.setSop (q : Sequencer) (n : Nat) (v : W64) : Sequencer :=
  if n < 32 then (if n = 0 then q else { q with s := Table.set q.s 0 n v })
  else { q with a := Table.set q.a 0 (n - 32) v }
def Sequencer.aReg (q : Sequencer) (n : Nat) : W64 := Table.get q.a 0 n
def Sequencer.setA (q : Sequencer) (n : Nat) (v : W64) : Sequencer := { q with a := Table.set q.a 0 n v }
/-- A predicate register; P0 reads all ones. -/
def Sequencer.pReg (q : Sequencer) (n : Nat) : BitVec 256 :=
  if n = 0 then BitVec.allOnes 256 else Table.get q.p 0 n
/-- Writes a predicate register; writes to P0 are discarded. -/
def Sequencer.setP (q : Sequencer) (n : Nat) (v : BitVec 256) : Sequencer :=
  if n = 0 then q else { q with p := Table.set q.p 0 n v }
def Sequencer.vReg (q : Sequencer) (n : Nat) : VReg := Table.get q.v [] n
def Sequencer.setV (q : Sequencer) (n : Nat) (v : VReg) : Sequencer := { q with v := Table.set q.v [] n v }
def Sequencer.lane (q : Sequencer) (n i : Nat) : W32 := Table.get (q.vReg n) 0 i

/-- A vector register whose lane i holds `f i`. -/
def vregOf (f : Nat → W32) : VReg := (List.range 256).filterMap fun i => if f i = 0 then none else some (i, f i)

/-- The guard of R159: lane 0 of P[PR], inverted when PN is 1. -/
def Sequencer.guardOk (q : Sequencer) (w : W64) : Bool := (q.pReg (fPR w)).getLsbD 0 != fPN w

/-! ### Slot queues -/

def Sequencer.queue (q : Sequencer) (sl : Slot) : List QInstr :=
  match sl with
  | .p => q.qp
  | .t => q.qt
  | .m => q.qm
  | .c => q.qc
def Sequencer.setQueue (q : Sequencer) (sl : Slot) (l : List QInstr) : Sequencer :=
  match sl with
  | .p => { q with qp := l }
  | .t => { q with qt := l }
  | .m => { q with qm := l }
  | .c => { q with qc := l }
/-- The core waits in a KP-marked instruction, which stands alone in its bundle. -/
def kpWaits (k : Core) : Bool :=
  [Slot.m, Slot.c].any fun sl => match k.sq.queue sl with
    | x :: _ => kpMarked sl x.word
    | [] => false
/-- The next bundle after bundle `b`: the innermost loops that end there return or end (R165). -/
def Sequencer.advance (q : Sequencer) (b : Nat) : List Loop → Sequencer
  | [] => { q with pc := b + 1, loops := [] }
  | l :: r =>
    if b = l.end_ then
      if 1 < l.count then { q with pc := l.start, loops := { l with count := l.count - 1 } :: r }
      else Sequencer.advance q b r
    else { q with pc := b + 1, loops := l :: r }
/-- The instruction at the head of a slot queue has issued: it leaves the queue, and dispatch held for it goes on with the
next bundle (R164, R532). Its claims stay until `release`. -/
def Sequencer.issued (q : Sequencer) (sl : Slot) : Sequencer :=
  match q.queue sl with
  | [] => q
  | x :: r =>
    let q := q.setQueue sl r
    if q.hold = some (.issue x.num) then { q with hold := none }.advance x.bundle q.loops else q
/-- The claims of instruction `n` are released (R161). -/
def Sequencer.release (q : Sequencer) (n : Nat) : Sequencer := { q with claims := q.claims.filter fun c => c.num != n }
/-- The head of a slot queue has issued and its values are readable. -/
def Sequencer.retire (q : Sequencer) (sl : Slot) : Sequencer :=
  match q.queue sl with
  | [] => q
  | x :: _ => (q.issued sl).release x.num

/-- PEN_KERF_GAP with the gap that ends now (R188). -/
def Sequencer.gapSeen (q : Sequencer) : W32 := BitVec.ofNat 32 (max q.kerfGap.toNat (satNat 32 q.gap))
/-- A Kerf point is passed without a yield: the gap since the last one is recorded (R188), and the count of R195 grows. -/
def Sequencer.kerfPoint (q : Sequencer) : Sequencer :=
  { q with kerfCnt := q.kerfCnt + 1, kerfGap := q.gapSeen, gap := 0, resumed := false }
/-- A Kerf point that does not yield for R185. -/
def Sequencer.kerfPassed (q : Sequencer) : Sequencer := { q with kerfSkip := satInc q.kerfSkip }

/-- A KP-marked wait completes: its Kerf point is passed, and a drain at it ends. -/
def Sequencer.kpOver (q : Sequencer) : Sequencer :=
  if q.draining = some none then { q.kerfPoint with draining := none, stat := .run } else q.kerfPoint

/-- Operand b of the ALU format (R173). -/
def Sequencer.aluB (q : Sequencer) (w : W64) : W64 := if cI w then cIMM w else q.sop (fBb w)

/-! ### What an instruction reads and writes (R161) -/

/-- A scalar operand as a scoreboard resource; S0 is none, since it holds no value. -/
def resS (n : Nat) : List Res := if n = 0 then [] else if n < 32 then [.s n] else [.a (n - 32)]
def resP (n : Nat) : List Res := if n = 0 then [] else [.p n]
/-- Operand b of a vector instruction. -/
def resB (w : W64) : List Res := if vSB w then resS (fBb w) else [.v (fBb w)]

/-- Resources that an instruction writes; each claims one entry at dispatch. -/
def writesOf (sl : Slot) (w : W64) : List Res :=
  match sl with
  | .p => if opOf w = 0x01 then [.slot (fUK w) (bits w 44 40)] else []
  | .t =>
    match opOf w with
    | 0x01 => [.v (fA w)]
    | 0x02 => resS (bits w 20 16)
    | 0x03 => []
    | 0x1E => resP (bits w 12 10)
    | 0x24 => resS (fD w)
    | 0x27 => [.v (fD w), .v (vC w)]
    | 0x28 => []
    | 0x29 => []
    | 0x2A => [.v (fD w), .v (vC w)]
    | 0x2B => resS (fD w)
    | _ => [.v (fD w)]
  | .m =>
    let post := if mPI w then [Res.a (fAB w)] else []
    match opOf w with
    | 0x01 => resS (fD w) ++ post
    | 0x02 => post
    | 0x03 => Res.v (fD w) :: post
    | 0x04 => post
    | 0x05 => Res.v (fD w) :: post
    | 0x06 => post
    | 0x08 => [.shadow]
    | 0x0A => [.book (bits w 23 21)]
    | 0x0B => [.haul (bits w 10 10)]
    | 0x0D => resS (fD w)
    | _ => []
  | .c =>
    match opOf w with
    | 0x10 => [] | 0x11 => [] | 0x13 => [] | 0x14 => [] | 0x16 => []
    | 0x1A => [] | 0x1D => [] | 0x1E => [] | 0x20 => []
    | 0x1F => resP (bits w 12 10)
    | _ => resS (fD w)

/-- Resources that an instruction reads at issue, its guard among them. -/
def readsOf (sl : Slot) (w : W64) : List Res :=
  resP (fPR w) ++
  match sl with
  | .p =>
    match opOf w with
    | 0x01 => [.s (fSU w), .v (fA w)] ++ resP (bits w 24 22) ++ [.s (bits w 51 47), .s (bits w 51 47 + 1)] ++
        (if bit w 39 then [] else [.slot (fUK w) (bits w 44 40)]) ++ (if bit w 46 then [.shadow] else [])
    | 0x02 => [.s (fSU w), .shadow]
    | 0x03 => [.s (fSU w), .shadow]
    | _ => [.a (bits w 15 11)]
  | .t =>
    match opOf w with
    | 0x01 => [.s (fSU w), .slot (fUK w) (bits w 26 22)]
    | 0x02 => [.a (bits w 15 11), .pass]
    | 0x03 => [.v (fA w), .pass]
    | op =>
      resP (vMP w) ++
      (match op with
       | 0x16 => [Res.v (fA w)] | 0x17 => [.v (fA w)] | 0x20 => [.v (fA w)] | 0x21 => [.v (fA w)]
       | 0x22 => [.v (fA w)] | 0x25 => [.v (fA w)] | 0x26 => [.v (fA w)] | 0x27 => [.v (fA w)]
       | 0x13 => [.v (fA w), .v (vC w)] ++ resB w
       | 0x1F => [.v (fA w)] ++ resP (bits w 30 28) ++ resB w
       | 0x28 => [] | 0x2A => [] | 0x2C => []
       | 0x2B => [.v (fA w)] ++ (if vSB w then resB w else [])
       | _ => [.v (fA w)] ++ resB w) ++
      (if vMZ w then [] else writesOf .t w)
  | .m =>
    match opOf w with
    | 0x01 => [.a (fAB w)]
    | 0x02 => [.a (fAB w)] ++ resS (fD w)
    | 0x03 => [.a (fAB w)]
    | 0x04 => [.a (fAB w), .v (fD w)]
    | 0x05 => [.a (fAB w), .s (bits w 54 50)]
    | 0x06 => [.a (fAB w), .s (bits w 54 50), .v (fD w)]
    | 0x08 => [.s (fSU w), .a (fAB w), .s (bits w 25 21)] ++
        (if bit w 30 then [.book (bits w 35 33), .book (bits w 38 36)] else [])
    | 0x09 => [.s (fSU w), .shadow]
    | 0x0B => .a (fAB w) :: (List.range 8).flatMap fun k => resS (bits w 26 21 + k)
    | 0x0C => resS (fD w)
    | 0x0D => []
    | _ => [.a (fAB w)]
  | .c =>
    let op := opOf w
    if (0x01 ≤ op ∧ op ≤ 0x0F) ∨ op = 0x1F then resS (fA w) ++ (if cI w then [] else resS (fBb w))
    else if op = 0x10 ∨ op = 0x17 ∨ op = 0x18 then resS (fA w) ++ resS (fBb w)
    else if op = 0x11 then (if cI w then [] else resS (fA w))
    else if op = 0x13 ∨ op = 0x14 ∨ op = 0x16 then resS (fA w)
    else []

/-- The Pens slots and the Folds slots share the accumulators of the Pens (R93), so a slot of one kind covers every slot
of the other. -/
def Res.covers (a b : Res) : Bool :=
  match a, b with
  | .slot f n, .slot g m => f != g || n == m
  | x, y => x == y

def overlap (a b : List Res) : Bool := a.any fun x => b.any fun y => x.covers y

/-- COND of BR and PSET: 0 EQ, 1 NE, 2 LT, 3 GE, 4 LTU, 5 GEU, 6 ALWAYS (R174). -/
def condHolds (c : Nat) (x y : W64) : Bool :=
  match c with
  | 0 => decide (x = y)
  | 1 => decide (x ≠ y)
  | 2 => decide (x.toInt < y.toInt)
  | 3 => decide (y.toInt ≤ x.toInt)
  | 4 => decide (x < y)
  | 5 => decide (y ≤ x)
  | _ => true

/-- The Yard offset of the access: A[AB] + IMM, or A[AB] with PI (R171). -/
def mOffset (q : Sequencer) (w : W64) : W64 :=
  if mPI w then q.aReg (fAB w) else q.aReg (fAB w) + BitVec.ofInt 64 (mIMM w)

end Sys2Proof.Machine
end

