-- ==== Sys2Proof/Machine/PowerOps.lean ====
section
/-! DEFINITION. Power control (spec 13): the steps of Table 13.1, needs and predictions of R413 and R415, and changes
of step. Energies are pJ per interval of 2,000 ns, powers mW, and r(s) is in thousandths. -/

namespace Sys2Proof.Machine

/-- Frequency of a step in MHz (Table 13.1). -/
def stepMHz (s : Nat) : Nat :=
  [350, 400, 450, 500, 550, 600, 650, 700, 750, 800, 850, 880, 910, 940, 970, 1000].getD s 1000
/-- VDD_CMP of a step in mV. -/
def stepMv (s : Nat) : Nat :=
  [600, 610, 630, 645, 660, 675, 690, 705, 720, 740, 760, 785, 810, 840, 870, 900].getD s 900
/-- r(s) in thousandths. -/
def stepRel (s : Nat) : Nat :=
  [156, 184, 221, 257, 296, 338, 382, 428, 480, 541, 606, 670, 737, 819, 906, 1000].getD s 1000
/-- PM_VREQ of a step, in units of 5 mV. -/
def stepVid (s : Nat) : Nat := stepMv s / 5

/-! Fields of PWR_CTL (Table 13.6). -/
def pcMode (w : W32) : Nat := bits w 1 0
def pcFixed (w : W32) : Nat := bits w 5 2
def pcGraze (w : W32) : Bool := bit w 6
def pcLearn (w : W32) : Bool := bit w 7
def pcLockstep (w : W32) : Bool := bit w 8
def pcLpdk (w : W32) : Nat := bits w 11 9
def pcMaxStep (w : W32) : Nat := bits w 15 12
def pcGrazeMax (w : W32) : Nat := bits w 31 16

namespace Device

/-- The request that the estimate takes, in units of 5 mV: the higher one while a step changes (R411). -/
def estVid (d : Device) : Nat := max d.power.vreq (stepVid d.power.cur)
/-- An energy at 0.900 V scaled to the request: (vreq / 0.900)^2. -/
def scaled (d : Device) (pj : Nat) : Nat := pj * d.estVid * d.estVid / 32400
/-- The effective cap in mW (R412). -/
def effCap (d : Device) : Nat := 1000 * min (fusedWatts d.fuse) d.power.capSet
/-- Leakage at a step in the band of the hottest sensor. -/
def leakAt (d : Device) (s : Nat) : Nat := (d.cal.leakMw.getD s []).getD (d.power.hot.toNat / 5) 0

/-! ### Phases (R417 to R419) -/

/-- Key of the learned entry of a tag, where it has one. -/
def phaseKey (d : Device) (p tag : Nat) : Option Nat :=
  (List.range 256).find? fun k =>
    let e := Table.get d.power.phases Phase.reset k
    e.valid && e.pdk == p && e.tag == tag
/-- The phase tag that governs core `c`: its own, else its Paddock's default while it has a job; 0 for none. -/
def phaseOf (d : Device) (c : Nat) : Nat :=
  let k := d.core c
  if k.job.isNone then 0
  else if k.phase ≠ 0 then k.phase
  else match d.pdkOfCore c with
    | some p => Table.get d.power.defaults 0 p
    | none => 0
/-- Entry of a tag at its announcement: its own, else the first unused, else the least recently announced, taken with
the initial need of 3,670 mW (R419). -/
def announce (d : Device) (p tag : Nat) : Device :=
  if tag = 0 then d
  else
    let w := d.power
    let k := match d.phaseKey p tag with
      | some k => k
      | none => match lowest (fun k => !(Table.get w.phases Phase.reset k).valid) 256 with
        | some k => k
        | none => ((List.range 256).foldl (fun (b : Nat × Nat) k =>
            let u := (Table.get w.phases Phase.reset k).used
            if u < b.2 then (k, u) else b) (0, w.phaseClock + 1)).1
    let e := Table.get w.phases Phase.reset k
    let e := if e.valid && e.pdk == p && e.tag == tag then { e with used := w.phaseClock }
             else { tag := tag, pdk := p, valid := true, need := 3670, samples := 0, used := w.phaseClock }
    { d with power := { w with phases := Table.set w.phases Phase.reset k e, phaseClock := w.phaseClock + 1 } }

/-- The learned entry takes a core's mean when it leaves a phase with LEARN set (R419). -/
def learn (d : Device) (c : Nat) : Device :=
  let w := d.power
  let (sum, n) := Table.get w.learning (0, 0) c
  let d := { d with power := { w with learning := Table.erase w.learning c } }
  if !pcLearn w.ctl || n = 0 then d
  else match d.pdkOfCore c with
    | none => d
    | some p =>
      match d.phaseKey p (d.phaseOf c) with
      | none => d
      | some k =>
        let e := Table.get w.phases Phase.reset k
        let m : Int := (sum / n / 2000 : Nat)
        let need := ((e.need : Int) + (m - e.need) / 4).toNat
        let e := { e with need := satNat 16 need, samples := satNat 16 (e.samples + 1) }
        { d with power := { d.power with phases := Table.set w.phases Phase.reset k e } }

/-! ### Needs and predictions (R413, R415) -/

/-- Mean of a core's own energy over its last 8 intervals, in mW. -/
def meanMw (l : List Nat) : Nat := if l.length = 0 then 0 else l.foldl (· + ·) 0 / l.length / 2000

/-- Need of core `c` at step `s`, in mW. -/
def needAt (d : Device) (s c : Nat) : Nat :=
  if (d.core c).job.isNone then 0
  else if d.phaseOf c = 0 then
    meanMw (Table.get d.power.coreEnergy [] c) * stepRel s / stepRel d.power.cur
  else
    let need := match d.pdkOfCore c with
      | some p => (match d.phaseKey p (d.phaseOf c) with
        | some k => (Table.get d.power.phases Phase.reset k).need
        | none => 3670)
      | none => 3670
    need * stepRel s / 1000
def presentCores (d : Device) : List Nat := (List.range 12).filter d.corePresent
def needsAt (d : Device) (s : Nat) : Nat := (d.presentCores.map (d.needAt s)).foldl (· + ·) 0
/-- The reserve U: largest uncore estimate of the last 8 intervals, in mW. -/
def reserve (d : Device) : Nat := d.power.uncore.foldl max 0 / 2000
/-- Predicted total at a step, in mW. -/
def predict (d : Device) (s : Nat) : Nat :=
  d.needsAt s + d.reserve * stepRel s / stepRel d.power.cur + d.leakAt s

/-- The highest step at or below `m` whose prediction, raised by `pct` hundredths, fits the cap. -/
def bestStep (d : Device) (m pct : Nat) : Nat :=
  ((List.range (m + 1)).filter fun s => decide (d.predict s * (100 + pct) ≤ d.effCap * 100)).foldl max 0

/-- The highest step that the limits other than the cap allow: MAXSTEP, and the common step under LOCKSTEP. -/
def ceiling (d : Device) : Nat :=
  let m := min d.power.maxStep 15
  if pcLockstep d.power.ctl && d.power.commonOn then min m d.power.common else m

/-! ### Changes of step (R409) -/

/-- A lowering: the frequency falls at once and the lower voltage is requested. A pending raise is given up. -/
def lowerTo (d : Device) (s limit : Nat) : Device :=
  { d with power := { d.power with cur := min s d.power.cur, vreq := stepVid (min s d.power.cur), pending := none, limit := limit } }
/-- A raise first requests its voltage and waits for PM_VACK; suppressed while R410 or R424 forbids it. -/
def askRaise (d : Device) (s : Nat) : Device :=
  if s ≤ d.power.cur ∨ d.power.suppress ∨ d.power.supply ≠ .normal ∨ d.power.therm = 2 then d
  else { d with power := { d.power with pending := some { target := s, asked := d.now }, vreq := stepVid s, vack := false } }

/-- The controller chooses the step by predictions, and may lower it for them (R415, R421). -/
def stepFree (d : Device) : Bool :=
  pcMode d.power.ctl != 1 && d.power.therm != 2 && d.power.supply == .normal && !(pcLockstep d.power.ctl && d.power.commonOn)
/-- The step in fixed mode: FIXED, below it only a MAXSTEP that the thermal rule has lowered, or the common step (R415, R421,
R427). -/
def fixedStep (d : Device) : Nat :=
  let w := d.power
  let s := if w.maxStep < pcMaxStep w.ctl then min (pcFixed w.ctl) w.maxStep else pcFixed w.ctl
  if pcLockstep w.ctl && w.commonOn then min s w.common else s

/-- Which limit holds a step (PWR_STEP.LIMIT). -/
def limitOf (d : Device) (s : Nat) : Nat :=
  if d.power.therm = 2 then 5
  else if d.power.supply ≠ .normal then 3
  else if pcMode d.power.ctl = 1 then (if d.fixedStep = pcFixed d.power.ctl then 6 else if d.fixedStep = d.power.maxStep then 4 else 2)
  else if s = pcMaxStep d.power.ctl then 0
  else if d.power.therm = 1 ∧ s = d.power.maxStep then 4
  else if pcLockstep d.power.ctl && d.power.commonOn && s == d.power.common then 2
  else 1

/-- The decision of R415: lowered at once; raised when two successive decisions allow it. -/
def decideStep (d : Device) : Device :=
  let w := d.power
  let m := d.ceiling
  if w.therm = 2 ∨ w.supply ≠ .normal then d
  else if pcMode w.ctl = 1 then
    let s := d.fixedStep
    if s < w.cur then d.lowerTo s (d.limitOf s)
    else if w.cur < s ∧ w.pending = none then d.askRaise s
    else { d with power := { w with limit := d.limitOf s } }
  else
    let low := d.bestStep m 0
    let hi := d.bestStep m 5
    if low < w.cur ∧ !(pcLockstep w.ctl && w.commonOn) then
      let d := d.lowerTo low (d.limitOf low)
      { d with power := { d.power with agreed := none } }
    else if w.cur < hi then
      match w.agreed with
      | some a =>
        if w.pending = none then
          let d := d.askRaise (min a hi)
          { d with power := { d.power with agreed := some hi, limit := d.limitOf (min a hi) } }
        else d
      | none => { d with power := { w with agreed := some hi } }
    else { d with power := { w with agreed := none, limit := d.limitOf w.cur } }

/-- The step that R415 would choose now, for an offer (R420). -/
def offerStep (d : Device) : Nat :=
  if d.power.therm = 2 then 0
  else if d.power.supply ≠ .normal then min 4 d.power.cur
  else if pcMode d.power.ctl = 1 then { d with power := { d.power with commonOn := false } }.fixedStep
  else d.bestStep (min d.power.maxStep 15) 0

/-- The fabric Musters of Paddock `p` carry steps (R420). -/
def lockstepped (d : Device) (p : Nat) : Bool := pcLockstep d.power.ctl && pcLpdk d.power.ctl == p

/-- A release that carries a common step: lowered to at the release, raised to 20 us later (R421). -/
def takeCommon (d : Device) (field leader at_ : Nat) : Device :=
  if field = 0 then d
  else
    let s := field - 1
    let w := d.power
    let d := { d with power := { w with common := s, commonOn := true, lastCommon := s, lag := false, bellwether := BitVec.ofNat 16 leader } }
    let s := min s w.maxStep
    let d := { d with power := { d.power with lockLower := none, lockRaise := none } }
    if s < w.cur then (if at_ ≤ d.now then d.lowerTo s 2 else { d with power := { d.power with lockLower := some (s, at_) } })
    else if w.cur < s then
      let d := if w.suppress ∨ w.supply ≠ .normal ∨ w.therm = 2 then d else
        { d with power := { d.power with vreq := stepVid s, vack := false, pending := some { target := s, asked := d.now } } }
      { d with power := { d.power with lockRaise := some (s, at_ + 20000) } }
    else d

/-- At the release instant a member lowers to the common step (R421). -/
def lowerCommon (d : Device) : Device :=
  match d.power.lockLower with
  | none => d
  | some (s, t) =>
    if d.now < t then d
    else
      let d := { d with power := { d.power with lockLower := none } }
      if s < d.power.cur then d.lowerTo s 2 else d

/-- Posts a PLATFORM record for the device (R433). -/
def platform (d : Device) (code : Code) (detail : BitVec 96 := 0) : Device := d.postDev (d.devEvent 7 code detail)

/-- Ends Grazing of every core. -/
def stopGrazing (d : Device) : Device :=
  (List.range 12).foldl (fun d c => if (d.core c).grazing.isSome then d.modCore c fun k => { k with grazing := none } else d) d

/-- A core that waits at a Muster grazes: not during a supply warning, nor while the hottest sensor reads WARN or above (R422,
R427). -/
def mayGraze (d : Device) : Bool :=
  pcGraze d.power.ctl && d.power.supply != .warning && decide (d.power.hot < (d.power.thermWarn : Int)) && d.power.therm != 2

/-- The pending announcement of a core is given up and its alarm disarmed (R417). -/
def forgetAnnounced (d : Device) (c : Nat) : Device :=
  match (d.core c).announced with
  | some (_, slot) =>
    let d := (d.freeAlarm slot).modCore c fun k => { k with announced := none }
    { d with power := { d.power with prepared := Table.erase d.power.prepared c } }
  | none => d

/-- The core's phase ends, with what it taught (R417, R419). -/
def endPhase (d : Device) (c : Nat) : Device :=
  let d := d.learn c
  (d.forgetAnnounced c).modCore c fun k => { k with phase := 0 }

end Device

end Sys2Proof.Machine
end

