-- ==== Sys2Proof/Machine/MusterOps.lean ====
section
/-! DEFINITION. Musters: definitions, rounds, arrivals, completion and release, and the deadline slot that the Musters
of a Paddock share (spec 08: R261 to R267; spec 12: R405). -/

namespace Sys2Proof.Machine

/-- TIMEOUT of a definition in ns; 0 stands for 10 ms (R261). -/
def MusterDef.timeoutNs (m : MusterDef) : Nat := if m.timeout = 0 then 10000000 else m.timeout * 1000

/-- A round that nothing has arrived at. -/
def Round.start (p j : Nat) (m : MusterDef) : Round :=
  { paddock := p, id := m.id, job := j, scope := m.scope, round := 0, arrived := [], peers := [], early := [], offers := [],
    earlyOffers := [], named := false, deadline := none, paused := none, releaseAt := none }

namespace Device

/-! ### The shared deadline slot (R261, R265) -/

/-- The slot that an owner holds for a kind, armed or reserved. -/
def slotOf (d : Device) (owner kind : Nat) : Option Nat :=
  ((List.range (slotCount owner)).map (slotBase owner + ·)).find? fun n => (d.alarm n).reserved && (d.alarm n).kind == kind
/-- Reserves the lowest free slot of an owner for a kind, if one is free. -/
def reserveSlot (d : Device) (owner kind : Nat) : Option Device :=
  match d.slotOf owner kind with
  | some _ => some d
  | none => (d.freeSlot owner).map fun n => d.setAlarm n { d.alarm n with reserved := true, kind := kind, owner := owner, armed := false }

/-- Definitions of a queue that wait for a RUN_PROGRAM, taken or to come. -/
def queueMusters (q : Queue) : Nat := q.musters.length + (q.accepted.map fun m => m.musters.length).foldl (· + ·) 0
/-- Definitions that a Paddock holds: those of its jobs, and those that wait for a RUN_PROGRAM. -/
def musterCount (d : Device) (p : Nat) : Nat :=
  ((d.jobs.filter fun kv => kv.2.paddock == p).map fun kv => kv.2.musters.length).foldl (· + ·) 0 +
  (((List.range 48).filter fun s => (d.stall s).q.paddock == p && (d.stall s).state != .free).map fun s =>
    queueMusters (d.stall s).q).foldl (· + ·) 0 +
  ((d.queues.filter fun kv => kv.2.qstate == 0 && kv.2.known && kv.2.q.paddock == p).map fun kv => queueMusters kv.2.q).foldl (· + ·) 0

/-- Frees the slot when the Paddock's last definition has ended. -/
def freeMusterSlot (d : Device) (p : Nat) : Device :=
  if d.musterCount p = 0 then
    match d.slotOf p 2 with
    | some n => d.freeAlarm n
    | none => d
  else d

/-- The earliest deadline of the Paddock's open rounds, with its ID; the lower ID first at equal Tally. -/
def nextDeadline (d : Device) (p : Nat) : Option (Nat × Nat) :=
  d.rounds.foldl (fun best r =>
    if r.paddock ≠ p then best
    else match r.deadline, best with
      | none, _ => best
      | some t, none => some (t, r.id)
      | some t, some (u, i) => if t < u ∨ (t = u ∧ r.id < i) then some (t, r.id) else best) none

/-- Arms the shared slot with the earliest deadline that remains (R265). A slot whose firing is due fires first with its old
values, and is armed again after it (R41). -/
def rearmMuster (d : Device) (p : Nat) : Device :=
  match d.slotOf p 2 with
  | none => d
  | some n =>
    if (d.firesAt (d.alarm n)).isSome then d
    else match d.nextDeadline p with
    | some (t, i) => d.armSlot n p 2 i t
    | none => d.setAlarm n { d.alarm n with armed := false }

/-! ### Rounds -/

def roundOf (d : Device) (j id : Nat) : Option Round := d.rounds.find? fun r => r.job == j && r.id == id
def setRound (d : Device) (r : Round) : Device :=
  { d with rounds := d.rounds.map fun x => if x.job == r.job && x.id == r.id then r else x }

/-- The Muster definition of a job with this ID. -/
def musterDef (v : Job) (id : Nat) : Option MusterDef := v.musters.find? fun m => m.id == id

/-- The jobs that hold a device-scope definition of an ID, with that definition (R262). -/
def deviceDefs (d : Device) (id : Nat) : List (Nat × Job × MusterDef) :=
  d.jobs.filterMap fun kv => match musterDef kv.2 id with
    | some m => if m.scope = 1 then some (kv.1, kv.2, m) else none
    | none => none
/-- The definition names Paddock `p`: its own, or one of its mask. -/
def MusterDef.names (own : Nat) (m : MusterDef) (p : Nat) : Bool := own == p || decide (m.paddocks / 2 ^ p % 2 = 1)
/-- The jobs that take part in a device-scope Muster: their Paddock is named by every such definition. -/
def deviceJobs (d : Device) (id : Nat) : List (Nat × Job) :=
  let ds := d.deviceDefs id
  (ds.filter fun x => ds.all fun y => MusterDef.names y.2.1.paddock y.2.2 x.2.1.paddock).map fun x => (x.1, x.2.1)

/-- The leader of a fabric Muster: the member with the lowest Drove address (R263). -/
def fabricLeader (d : Device) (m : MusterDef) : Nat := m.peers.foldl min d.links.addr.toNat

/-- Every local participant of the round has arrived. -/
def allLocal (v : Job) (r : Round) : Bool := v.cores.all r.arrived.contains

/-- The round of job `j` is complete where this device decides it (R263): its participants have all arrived, and at
fabric scope this device leads and every peer has reported. -/
def roundComplete (d : Device) (j : Nat) (v : Job) (m : MusterDef) (r : Round) : Bool :=
  if m.scope = 0 then allLocal v r
  else if m.scope = 1 then
    let js := d.deviceJobs m.id
    js.any (fun x => x.1 == j) && js.all fun x => match d.roundOf x.1 m.id with
      | some r' => allLocal x.2 r'
      | none => false
  else allLocal v r && d.fabricLeader m == d.links.addr.toNat && m.peers.all r.peers.contains

/-- The waiting cores of a round go on: each MUSTER at the head of its C queue completes (R264). -/
def releaseCores (d : Device) (cores : List Nat) : Device :=
  cores.foldl (fun d c =>
    if (d.core c).musWaiting then
      let kp := match (d.core c).sq.qc with
        | x :: _ => kpMarked .c x.word
        | [] => false
      d.modCore c fun k => { k with sq := (if kp then k.sq.kpOver else k.sq).retire .c, musWaiting := false, waits := Table.erase k.waits 3,
                                    grazing := none }
    else d) d

/-- The round of job `j` is released, and the next begins (R264). -/
def releaseRound (d : Device) (j : Nat) (r : Round) : Device :=
  let cores := match d.job j with
    | some v => v.cores
    | none => []
  let d := d.releaseCores cores
  let d := d.setRound { r with round := r.round + 1, arrived := [], peers := r.early, early := [], offers := r.earlyOffers,
                               earlyOffers := [], named := false,
                               deadline := none, paused := none, releaseAt := none }
  let d := if r.scope = 2 && d.lockstepped r.paddock then d.lowerCommon else d
  (d.progress r.paddock).rearmMuster r.paddock

/-- A round is complete: released within 32 cycles, or at the completion Tally plus LEAD (R264). -/
def completeRound (d : Device) (j lead : Nat) (r : Round) : Device :=
  if lead = 0 then d.releaseRound j r
  else (d.setRound { r with deadline := none, paused := none, releaseAt := some (d.now + lead) }).rearmMuster r.paddock

/-- ARG of a Muster frame: ID, round, and the step field of R420. -/
def musterArg (id : Nat) (round : BitVec 32) (step : Nat) : W64 :=
  BitVec.ofNat 64 (id + step * 2 ^ 16 + round.toNat * 2 ^ 32)

/-- Step field that this device sends for Paddock `p`. -/
def offerField (d : Device) (p : Nat) : Nat := if d.lockstepped p then d.offerStep + 1 else 0

/-- The lowest offer among the members and its own, those that send none ignored (R420). -/
def lowestOffer (l : List Nat) : Nat :=
  (l.filter (· ≠ 0)).foldl (fun b x => if b = 0 then x else min b x) 0

/-- Completes the round of job `j` if it is complete, at every scope; a fabric leader sends the releases. -/
def tryComplete (d : Device) (j id : Nat) : Device :=
  match d.job j, d.roundOf j id with
  | some v, some r =>
    match musterDef v id with
    | none => d
    | some m =>
      if r.releaseAt.isSome || !d.roundComplete j v m r then d
      else if m.scope = 0 then d.completeRound j m.lead r
      else if m.scope = 1 then
        (d.deviceJobs id).foldl (fun d x => match d.roundOf x.1 id with
          | some r' => d.completeRound x.1 m.lead r'
          | none => d) d
      else
        let at_ := d.now + m.lead
        let step := if d.lockstepped v.paddock then lowestOffer (d.offerField v.paddock :: r.offers) else 0
        let d := m.peers.foldl (fun d a => match d.bindingTo v.paddock a with
          | some b => d.sendSeq b { blankFrame .musterRelease with
              arg := musterArg id r.round step, len := 8, payload := toBytes 8 at_ }
          | none => d) d
        let d := if d.lockstepped v.paddock then d.takeCommon step d.links.addr.toNat at_ else d
        if m.lead = 0 then d.releaseRound j r
        else (d.setRound { r with deadline := none, releaseAt := some at_ }).rearmMuster r.paddock
  | _, _ => d

/-- A member whose local participants have all arrived reports to the leader (R405). -/
def reportArrival (d : Device) (v : Job) (m : MusterDef) (r : Round) : Device :=
  if m.scope = 2 && allLocal v r && d.fabricLeader m != d.links.addr.toNat then
    match d.bindingTo v.paddock (d.fabricLeader m) with
    | some b =>
      let step := d.offerField v.paddock
      let d := if d.lockstepped v.paddock then { d with power := { d.power with offer := step - 1 } } else d
      d.sendSeq b { blankFrame .musterArrive with arg := musterArg m.id r.round step }
    | none => d
  else d

/-- A participant of the round is yielded (R267). -/
def roundYielded (d : Device) (r : Round) : Bool :=
  let yielded := fun (j : Nat) => match d.job j with
    | some v => !v.yielded.isEmpty
    | none => false
  if r.scope = 1 then (d.deviceJobs r.id).any fun x => yielded x.1 else yielded r.job
/-- Core `c` arrives at the round of job `j`: its deadline is the earliest operand, or the first arrival plus TIMEOUT
where no instruction names one (R265); it waits paused while a participant is yielded (R267). -/
def arriveRound (d : Device) (c j : Nat) (v : Job) (m : MusterDef) (r : Round) (operand : Option Nat) : Device :=
  let r' := { r with arrived := if r.arrived.contains c then r.arrived else r.arrived ++ [c] }
  let r' := match operand with
    | some t =>
      if r.named then { r' with deadline := r.deadline.map (min t), paused := r.paused.map (min (t - d.now)) }
      else if r.paused.isSome || d.roundYielded r then { r' with named := true, paused := some (t - d.now) }
      else { r' with named := true, deadline := some t }
    | none =>
      if r.named || r.deadline.isSome || r.paused.isSome then r'
      else if d.roundYielded r then { r' with paused := some m.timeoutNs }
      else { r' with deadline := some (d.now + m.timeoutNs) }
  let d := (d.setRound r').rearmMuster r.paddock
  (d.reportArrival v m r').tryComplete j m.id

/-- Core `c` withdraws its arrivals when it yields, and the deadlines of the rounds it takes part in pause (R267). -/
def pauseRounds (d : Device) (j c : Nat) : Device :=
  let mine := fun (r : Round) => r.job == j || (r.scope == 1 && (d.deviceJobs r.id).any fun x => x.1 == j)
  let f := fun (r : Round) =>
    if mine r && r.scope != 2 then
      { r with
        arrived := if r.job == j then r.arrived.filter (· != c) else r.arrived
        paused := match r.deadline with
          | some t => some (t - d.now)
          | none => r.paused
        deadline := none }
    else r
  let d := { d with rounds := d.rounds.map f }
  (List.range 6).foldl rearmMuster d

/-- Paused deadlines of rounds of which no participant is yielded any longer run again (R267). -/
def resumeRounds (d : Device) : Device :=
  let f := fun (r : Round) =>
    match r.paused with
    | some left => if d.roundYielded r then r else { r with deadline := some (d.now + left), paused := none }
    | none => r
  let d := { d with rounds := d.rounds.map f }
  (List.range 6).foldl rearmMuster d

/-- The rounds of a job are abandoned; at device scope its definitions no longer count (R266). -/
def dropRounds (d : Device) (j p : Nat) : Device :=
  let ids := (d.rounds.filter fun r => r.job == j && r.scope == 1).map (·.id)
  let d := { d with rounds := d.rounds.filter fun r => r.job != j }
  let d := d.rearmMuster p
  ids.foldl (fun d id => match d.deviceJobs id with
    | (k, _) :: _ => d.tryComplete k id
    | [] => d) d

end Device

end Sys2Proof.Machine
end

