-- ==== Sys2Proof/Machine/JobOps.lean ====
section
/-! DEFINITION. Jobs: accounts of share groups, semaphore tickets, the end of a job with all that follows it, sequences
of the step job, candidates and pre-emption requests (spec 11: R350 to R376; R191, R221, R234, R366). -/

namespace Sys2Proof.Machine

/-- The job holds engine time: READY to RESUMING (R355). -/
def jobActive (v : Job) : Bool :=
  match v.state with
  | .yielded => false
  | .ended => false
  | _ => true
/-- The job holds its cores: LOADING to RESUMING. -/
def jobHolds (v : Job) : Bool := jobActive v && v.state != .ready
/-- The group that a job is charged to (R357, R367). -/
def chargeOf (v : Job) : Nat := v.loan.getD v.share
/-- JOINING, ACTIVE or LEAVING (R355). -/
def seqLive (q : Seq) : Bool :=
  match q.state with
  | .joining => true
  | .active => true
  | .leaving => true
  | _ => false

namespace Device

/-! ### Share groups (R355, R356) -/

def share (d : Device) (p g : Nat) : Share := Table.get (d.pdk p).shares Share.reset g
def setShare (d : Device) (p g : Nat) (v : Share) : Device :=
  d.modPdk p fun k => { k with shares := Table.set k.shares Share.reset g v }
def groupActive (d : Device) (p g : Nat) : Bool :=
  d.jobs.any (fun kv => kv.2.paddock == p && jobActive kv.2 && kv.2.share == g) ||
  d.seqs.any (fun kv => kv.2.paddock == p && seqLive kv.2 && kv.2.share == g)
/-- Smallest account among the active groups other than `g`. -/
def leastAcct (d : Device) (p : Nat) (skip : Option Nat) : Option Nat :=
  (List.range 64).foldl (fun b g =>
    if some g = skip || !d.groupActive p g then b
    else match b with
      | none => some (d.share p g).acct
      | some x => some (min x (d.share p g).acct)) none
/-- A group that becomes active has its account raised to the smallest among the others (R356). -/
def activate (d : Device) (p g : Nat) : Device :=
  if d.groupActive p g then d
  else match d.leastAcct p (some g) with
    | some a => d.setShare p g { d.share p g with acct := max (d.share p g).acct a }
    | none => d

/-- Adds `n` core nanoseconds to the account of group `g` (R355). -/
def chargeGroup (d : Device) (p g n : Nat) : Device :=
  let s := d.share p g
  d.setShare p g { s with acct := s.acct + n * (2 ^ 24 / s.weight) }
/-- The core time of the running step goes to the groups of its sequences, in proportion to their number in the batch, and
what remains to the lowest-numbered of them (R357). -/
def chargeStep (d : Device) (p : Nat) : Device :=
  match (d.pdk p).inStep with
  | none => d
  | some b =>
    let gs := b.entries.map fun e => (Table.get d.seqs Seq.reset e.1).share
    let part := fun g => b.time * gs.count g / gs.length
    let used := (List.range 64).filter gs.contains
    let rest := b.time - (used.map part).sum
    let d := used.foldl (fun d g => d.chargeGroup p g (part g)) d
    match used with
    | g :: _ => d.chargeGroup p g rest
    | [] => d

/-! ### Semaphores (R364 to R366) -/

def sem (d : Device) (p n : Nat) : Sem := Table.get (d.pdk p).sems Sem.reset n
def setSem (d : Device) (p n : Nat) (v : Sem) : Device := d.modPdk p fun k => { k with sems := Table.set k.sems Sem.reset n v }
/-- The fence of a semaphore. -/
def semFence (d : Device) (p n : Nat) : Option Nat := d.findFence (d.sem p n).context (d.sem p n).fence
/-- VALUE of a semaphore's fence: tickets up to it are granted. -/
def granted (d : Device) (p n : Nat) : Nat :=
  match d.semFence p n with
  | some i => (d.fence i).value.toNat
  | none => 0
/-- The Drover signals the fence with VALUE + 1; a ticket that an ended job left is then released in turn. -/
def releaseTicket (d : Device) (p n : Nat) : Nat → Device
  | 0 => d
  | fuel + 1 =>
    match d.semFence p n with
    | none => d
    | some i =>
      let d := (d.signalFence i ((d.fence i).value + 1)).1
      let s := d.sem p n
      match s.abandoned.find? fun t => decide (t ≤ d.granted p n) with
      | some t => releaseTicket (d.setSem p n { s with abandoned := s.abandoned.filter (· != t) }) p n fuel
      | none => d
/-- A loan ends when the holder gives up the ticket it was made for (R367). -/
def endLoan (d : Device) (j : Nat) (x : Nat × Nat) : Device :=
  d.modJob j fun v => if v.loan.isSome && v.loanFor == x then { v with loan := none, loanDepth := 0 } else v
/-- Releases the tickets that job `j` holds: granted ones at once, the others as soon as they are granted (R366). -/
def dropTickets (d : Device) (j : Nat) (v : Job) : Device :=
  let late := v.tickets.filter fun x => decide (d.granted v.paddock x.1 < x.2)
  let d := late.foldl (fun d x => d.setSem v.paddock x.1 { d.sem v.paddock x.1 with
    abandoned := (d.sem v.paddock x.1).abandoned ++ [x.2] }) d
  let now := v.tickets.filter fun x => !late.contains x
  let d := d.modJob j fun v => { v with tickets := [], loan := none, loanDepth := 0 }
  now.foldl (fun d x => d.releaseTicket v.paddock x.1 ((d.sem v.paddock x.1).abandoned.length + 1)) d

/-! ### Sequences (R374 to R376) -/

def seqHandle (gen : BitVec 12) (i : Nat) : W32 := handleOf 6 gen i
/-- A sequence handle of a context that is in the table. -/
def findSeq (d : Device) (ctx : Nat) (h : W32) : Option Nat :=
  let q := d.seq (handleSlot h)
  if bits h 31 28 = 6 && q.gen.toNat == bits h 27 16 && q.context == ctx && q.state != .free then some (handleSlot h) else none
/-- A sequence becomes IDLE: its object references end, and its entry is freed once the host holds no reference. -/
def seqIdle (d : Device) (i : Nat) : Device :=
  let q := d.seq i
  let d := q.refs.foldl unrefObj d
  let d := d.unrefFence q.fence
  let d := d.setSeq i { q with state := .idle, refs := [], leave := none }
  if q.href = 0 then d.setSeq i { Seq.reset with gen := q.gen + 1 } else d
/-- Completes the SEQ_LEAVE that waits on a sequence. -/
def leaveDone (d : Device) (i : Nat) : Device :=
  match (d.seq i).leave with
  | some (queue, seq) => (d.finishCmd queue seq 0).setSeq i { d.seq i with leave := none }
  | none => d
/-- Every live sequence of a Paddock becomes IDLE with an error on its step fence (R376, R380). -/
def idleAll (d : Device) (p : Nat) (code : Code) : Device :=
  Table.foldl d.seqs (fun d i q =>
    if q.paddock == p && seqLive q then
      let d := d.attachTo q.context q.fence code
      (d.leaveDone i).seqIdle i
    else d) d

/-! ### The end of a job -/

/-- A core stops as under R190: nothing that has not issued issues, what has issued completes. -/
def stopSeq (q : Sequencer) : Sequencer :=
  let waiting := q.qp ++ q.qt ++ q.qm ++ q.qc
  { q with qp := [], qt := [], qm := [], qc := [], hold := none, draining := none, preempt := false,
           claims := q.claims.filter fun c => !(waiting.any fun i => i.num == c.num),
           loops := [], stat := if q.stat = .trapped then .trapped else .idle }

/-- The units armed for a front return to EMPTY, and a front that still lands or arrives for them is dropped (R87, R99,
R251). -/
def disarm (p : Pens) : Pens :=
  { p with
    pens := Table.mapAll p.pens Pen.reset fun u => if u.shadow = .armed then { u with shadow := .empty } else u,
    skidArmed := false,
    front := p.front.map fun f => { f with dead := true } }

/-- The job lets go of core `c`: dispatch ends, channels stop and return to IDLE, its phase and its waits end. -/
def leaveCore (d : Device) (c : Nat) : Device :=
  let d := (d.endPhase c).dropWait c
  let d := (d.stopChannel c 0).stopChannel c 1
  let d := [0, 1].foldl (fun d ch => d.modChannel c ch fun k =>
    if k.state = .halted ∧ k.job = (d.core c).job then { k with state := .idle, halt := false } else k) d
  (d.forgetSenders (· == .program c)).modCore c fun k => { k with
    sq := stopSeq k.sq, pn := disarm k.pn, job := none, musWaiting := false, waits := [], grazing := none, stepEn := false }

/-- The regions of a job and its frames begin their clear on every core (R208, R221). -/
def freeJobRegions (d : Device) (j : Nat) : Device :=
  (List.range 12).foldl (fun d c => d.freeRegions c fun r => r.job == some j) d

/-- The request on a core is withdrawn: one that drains goes on as if none had been pending (R184, R354). -/
def calmSeq (q : Sequencer) : Sequencer :=
  let q := { q with preempt := false }
  if q.stat ≠ .draining then q
  else match q.draining with
    | some (some r) => { q.setSop r 0 with stat := .run, draining := none, resumed := false, kerfGap := q.gapSeen, gap := 0 }
    | _ => { q with stat := .run, draining := none }
def calmCore (d : Device) (c : Nat) : Device := d.modCore c fun x => { x with sq := calmSeq x.sq }

/-- Requests of pre-emption that were made for job `j` are withdrawn: a DRAINING job runs on (R354, R362). -/
def withdrawFor (d : Device) (j : Nat) : Device :=
  Table.foldl d.jobs (fun d k v =>
    if v.state == .draining && v.forJob == some j then
      let d := v.cores.foldl (fun d c => if (d.core c).job = some k then d.calmCore c else d) d
      d.setJob k { v with state := .running, forJob := none }
    else d) d

/-- The common step lapses with the LPDK job that carried it in its fabric Musters (R529). -/
def lapseCommon (d : Device) (p : Nat) (v : Job) : Device :=
  if d.lockstepped p && v.musters.any fun m => m.scope == 2 then
    { d with power := { d.power with common := 15, commonOn := false, lockRaise := none, lockLower := none } }
  else d

/-- Job `j` ends with a code, 0 for success; without one, the code of its first channel halt stands (R191, R234). Its
cores, regions, rounds, tickets and saved state are given up and its command has ended; the fence follows when the
command completes. -/
def endJob (d : Device) (j : Nat) (code : Code) : Device :=
  match d.job j with
  | none => d
  | some v =>
    let code := if code ≠ 0 then code else v.haltCode
    let d := v.cores.foldl (fun d c => if (d.core c).job = some j then d.leaveCore c else d) d
    let d := { d with saved := Table.keep (Table.mapVals d.saved fun l => l.filter fun f => f.job != j) fun _ l => !l.isEmpty }
    let d := v.cores.foldl (fun d c => [0, 1].foldl (fun d ch => d.modChannel c ch fun k =>
      if k.state = .halted ∧ k.job = some j then { k with state := .idle, halt := false } else k) d) d
    let d := { d with pushes := d.pushes.filter fun p => !(p.held && p.job == some j) }
    let d := d.closeWindows fun _ w => w.job == some j
    let d := d.dropTickets j v
    let d := d.freeJobRegions j
    let d := d.dropRounds j v.paddock
    let d := d.lapseCommon v.paddock v
    let d := d.withdrawFor j
    let d := ({ d with jobs := Table.erase d.jobs j }).resumeRounds
    let d := d.freeMusterSlot v.paddock
    let d := if v.step then
        ((d.chargeStep v.paddock).idleAll v.paddock (if code ≠ 0 then code else 0x0703)).modPdk v.paddock fun k => { k with
          closed := none, inStep := none }
      else d
    d.finishCmd v.queue v.seq code

/-! ### Candidates and pre-emption (R359 to R362) -/

/-- The cores that a candidate needs, where they are free: the lowest-numbered for a READY job, those that yielded for a
resume (a core that has halted is not needed again). -/
def freeCore (d : Device) (c : Nat) : Bool := (d.core c).job.isNone
def coresFor (d : Device) (v : Job) : Option (List Nat) :=
  match v.state with
  | .ready =>
    let l := (d.coresOf v.paddock).filter d.freeCore
    if v.want ≤ l.length then some (l.take v.want) else none
  | .yielded => if v.yielded.all d.freeCore then some v.yielded else none
  | .resuming => if v.yielded.all d.freeCore then some v.cores else none
  | _ => none

/-- Order of R359: foreground first, then the smaller account, the earlier candidacy, the lower queue number. -/
def candidateBefore (d : Device) (a b : Job) : Bool :=
  let fg := fun (v : Job) => (d.share v.paddock (chargeOf v)).fg
  let ac := fun (v : Job) => (d.share v.paddock (chargeOf v)).acct
  if fg a != fg b then fg a
  else if ac a ≠ ac b then decide (ac a < ac b)
  else if a.since ≠ b.since then decide (a.since < b.since)
  else decide (a.queue < b.queue)

/-- A queue runs while it is BOUND; its jobs are candidates only then (R311). -/
def queueRuns (d : Device) (q : Nat) : Bool :=
  match d.stallOf q with
  | some s => (d.stall s).state == .bound
  | none => false
/-- The first of the candidates in the order of R359 that `p` accepts. -/
def bestCandidate (d : Device) (pdk : Nat) (p : Nat → Job → Bool) : Option (Nat × Job) :=
  Table.foldl d.jobs (fun best j v =>
    if v.paddock == pdk && (v.state == .ready || v.state == .yielded) && d.queueRuns v.queue && p j v then
      match best with
      | some (_, b) => if d.candidateBefore v b then some (j, v) else best
      | none => some (j, v)
    else best) none

/-- Requests pre-emption of a running job in favour of another. -/
def requestPreempt (d : Device) (victim : Nat) (forJob : Option Nat) : Device :=
  match d.job victim with
  | none => d
  | some v =>
    if v.state = .running then
      let d := v.cores.foldl (fun d c =>
        if (d.core c).job = some victim then d.modCore c fun x => { x with sq := { x.sq with preempt := true } } else d) d
      d.setJob victim { v with state := .draining, forJob := forJob }
    else d

/-- The rules of R360 and R361 let candidate `c` pre-empt the running job `v`: `quantum` says that `v` has run its quantum. -/
def mayPreempt (d : Device) (c v : Job) : Bool :=
  let fg := fun (x : Job) => (d.share x.paddock (chargeOf x)).fg
  let ac := fun (x : Job) => (d.share x.paddock (chargeOf x)).acct
  let ran := decide ((d.pdk v.paddock).quantum * 1000 ≤ d.now - v.released)
  if fg c && !fg v then true
  else (fg c == fg v) && ran && decide (ac c < ac v)

/-- The cores that become free for a candidate when the jobs of `vs` yield are enough for it. -/
def enoughWith (d : Device) (c : Job) (vs : List Nat) : Bool :=
  let free := fun (k : Nat) => d.freeCore k || (match (d.core k).job with
    | some j => vs.contains j
    | none => true)
  match c.state with
  | .ready => decide (c.want ≤ ((d.coresOf c.paddock).filter free).length)
  | _ => c.yielded.all free

/-- All sublists of a list, those of fewer elements first. -/
def sublists : List Nat → List (List Nat)
  | [] => [[]]
  | a :: r => sublists r ++ (sublists r).map (a :: ·)
/-- Victims for a candidate: the fewest running jobs that free enough cores, the larger accounts first (R360). -/
def victimsFor (d : Device) (c : Job) : List Nat :=
  let run := (Table.keep d.jobs fun _ v => v.paddock == c.paddock && v.state == .running && d.mayPreempt c v).map (·.1)
  let acct := fun (l : List Nat) => (l.map fun j => match d.job j with
    | some v => (d.share v.paddock (chargeOf v)).acct
    | none => 0).foldl (· + ·) 0
  match (sublists run).filter (d.enoughWith c) with
  | [] => []
  | l :: ls => ls.foldl (fun (b x : List Nat) =>
      if x.length < b.length ∨ (x.length = b.length ∧ acct b < acct x) then x else b) l

/-- The Drover considers the candidates of a Paddock: the first whose cores are not free may pre-empt (R359, R360). -/
def consider (d : Device) (p : Nat) : Device :=
  if !(d.pdk p).preemptEn then d
  else match d.bestCandidate p (fun _ v => (d.coresFor v).isNone) with
    | none => d
    | some (j, v) =>
      if d.jobs.any fun kv => kv.2.state == .draining && kv.2.forJob == some j then d
      else (d.victimsFor v).foldl (fun d k => d.requestPreempt k (some j)) d

end Device

end Sys2Proof.Machine
end

