-- ==== Sys2Proof/Machine/CoreOps.lean ====
section
/-! DEFINITION. The issue of a core's instructions: traps (R190), readiness on the scoreboard (R161), the guard (R159),
and the one operation through which every slot instruction issues. -/

namespace Sys2Proof.Machine

def ISA_ILLEGAL : Code := 0x0801
def CHUTE_FAULT : Code := 0x0804
def SPAD_UNCORR : Code := 0x0301

/-- Number of a slot in PEN_TRAP_PC and in a trap's record. -/
def slotNum (sl : Slot) : Nat :=
  match sl with
  | .p => 0
  | .t => 1
  | .m => 2
  | .c => 3

/-- What an instruction does when it comes to issue. -/
inductive Issue where
  /-- it stays at the head of its queue; the cause, if any, under which the core waits -/
  | wait (d : Device) (cause : Option Cause)
  | trap (code : Code) (info : W64)
  /-- it traps after effects that stand -/
  | bad (d : Device) (code : Code) (info : W64)
  /-- it issues and its values are readable -/
  | ok (d : Device)
  /-- it issues, and a later event releases its claims -/
  | fly (d : Device)

/-- Every instruction of the core that waits in a slot queue. -/
def Sequencer.waiting (q : Sequencer) : List QInstr := q.qp ++ q.qt ++ q.qm ++ q.qc

/-- An accumulator slot: an earlier instruction that waits to read it claims nothing of it (R161, R78). -/
def Res.isSlot (r : Res) : Bool := match r with
  | .slot _ _ => true
  | _ => false

/-- No earlier claim covers what the instruction reads or writes (R161), and no earlier instruction has still to read a
register that it writes, so that the slots behave as if they ran in program order. -/
def Sequencer.ready (q : Sequencer) (x : QInstr) : Bool :=
  (q.claims.all fun c => !(decide (c.num < x.num) && overlap c.res (readsOf x.slot x.word ++ writesOf x.slot x.word))) &&
  (q.waiting.all fun y => !(decide (y.num < x.num) && overlap ((writesOf x.slot x.word).filter (!·.isSlot)) (readsOf y.slot y.word)))

/-- A YSYNC whose guard is false holds dispatch no longer (R159). -/
def Sequencer.unhold (q : Sequencer) (n : Nat) : Sequencer := if q.hold = some (.ysync n) then { q with hold := none } else q
/-- The core issues instructions: RUN, or DRAINING for those dispatched before its Kerf point. -/
def Sequencer.issues (q : Sequencer) : Bool := q.stat == .run || q.stat == .draining

/-- The head of slot queue `sl` waits, under a cause or under none (R259). -/
def Core.waitsIn (k : Core) (sl : Slot) (cause : Option Cause) : Core :=
  { k with waits := match cause with
    | some v => Table.put k.waits (slotNum sl) v
    | none => Table.erase k.waits (slotNum sl) }

namespace Device

/-- A weight of Table 13.2 in 1/32 pJ. -/
def weight (d : Device) (kind : Nat) : Nat := 32 * d.cal.weights.getD kind 0
/-- Adds to the energy of the core's events (R411, R414). -/
def spend (d : Device) (c w : Nat) : Device := d.modCore c fun k => { k with work := k.work + w }

/-- The core traps (R190): it records the trap, posts its record, and its job ends with the code (R191). A core that has
trapped records nothing more. -/
def trapCore (d : Device) (c : Nat) (code : Code) (bundle : Nat) (sl : Slot) (info : W64) : Device :=
  if (d.core c).sq.stat = .trapped then d
  else
    match d.jobOf c with
    | none => d
    | some (j, v) =>
      let t : Trap := { code := code, bundle := bundle, slot := slotNum sl, info := info }
      let d := d.modCore c fun k => { k with sq := { k.sq with stat := .trapped, trap := some t } }
      let d := d.traceRec c 3 (slotNum sl) bundle code.toNat
      let ev := det 20 info.toNat ||| det 28 bundle ||| det 30 (slotNum sl) ||| det 31 c
      let d := d.postQueue (d.ringOf v.queue) (d.pdkEvent v.paddock 4 code ev v.context)
      d.endJob j code

/-- A shadow is ARMED, or a Skidder channel runs a Haul program: a Kerf point does not yield (R185). -/
def kerfBarred (d : Device) (c : Nat) : Bool :=
  ((d.core c).pn.pens.any fun kv => kv.2.shadow == .armed) ||
  (d.channel c 0).state == .running || (d.channel c 1).state == .running

/-- A KP-marked instruction waits: a pending request makes the core drain, unless R185 forbids it (R186). -/
def kpWait (d : Device) (c : Nat) (x : QInstr) : Device :=
  let q := (d.core c).sq
  if kpMarked x.slot x.word && q.preempt && q.stat == .run && (q.queue x.slot).head? == some x then
    if d.kerfBarred c then
      if q.skipped = some x.num then d
      else d.modCore c fun k => { k with sq := { k.sq.kerfPassed with skipped := some x.num } }
    else d.modCore c fun k => { k with sq := { k.sq with stat := .draining, draining := some none } }
  else d

/-- A KP-marked instruction completes: its Kerf point, and progress of its Paddock and its queue (R369, R464). -/
def kpDone (d : Device) (c : Nat) (x : QInstr) : Device :=
  if kpMarked x.slot x.word then
    let d := d.modCore c fun k => { k with sq := k.sq.kpOver }
    match d.jobOf c with
    | some (_, v) => (d.progress v.paddock).queueProgress v.queue
    | none => d
  else d

/-- What the trace unit notes of an instruction that issues from state `d`: kind and detail (R456). -/
def traceOf (d : Device) (c : Nat) (x : QInstr) : Option (Nat × Nat) :=
  let q := (d.core c).sq
  let w := x.word
  match x.slot, opOf w with
  | .c, 0x10 => if condHolds (cCOND w) (q.sop (fA w)) (q.sop (fBb w)) then some (0, bits w 44 32) else none
  | .c, 0x1E => some (3, 0)
  | .m, 0x0C => some (4, bits w 19 16 + (q.sop (fD w)).toNat * 2 ^ 64)
  | .m, 0x0D => some (4, bits w 19 16 + ((d.chute c (bits w 19 16)).entries.headD 0).toNat * 2 ^ 64)
  | .m, 0x02 => some (6, (mOffset q w).toNat + (q.sop (fD w)).toNat * 2 ^ 64)
  | .m, 0x04 => some (6, (mOffset q w).toNat + ofBytes (((List.range 8).flatMap fun i =>
      toBytes (if mEW w = 0 then 4 else if mEW w = 1 then 2 else 1)
        (if mEW w = 0 then (q.lane (fD w) i).toNat else if mEW w = 1 then bits (q.lane (fD w) i) 31 16 else bits (q.lane (fD w) i) 7 0)).take 8) * 2 ^ 64)
  | .m, 0x0B => some (5, bits w 10 10)
  | _, _ => none
/-- The trace record of an issue. -/
def traceIssue (old : Device) (c : Nat) (x : QInstr) (d : Device) : Device :=
  match traceOf old c x with
  | some (k, v) => d.traceRec c k (slotNum x.slot) x.bundle v
  | none => d

/-- The pushing instruction of the slot holds a push that was returned, so the slot issues nothing else (R257). -/
def slotHolds (d : Device) (c : Nat) (sl : Slot) : Bool :=
  (sl == .m || sl == .c) && d.pushes.any fun p => p.held && p.src == .program c && p.job == (d.core c).job && p.handle == (sl == .m)
/-- The head of slot queue `sl` of core `c` comes to issue: nothing happens unless it is an instruction of opcode `op`,
the core issues, and the scoreboard lets it. An illegal word traps (R10, R158); an instruction whose guard is false
issues and does nothing (R159); otherwise `body` says what it does. -/
def issue (c : Nat) (sl : Slot) (op : Nat) (body : QInstr → Device → Issue) (d : Device) : Device :=
  let q := (d.core c).sq
  match q.queue sl with
  | [] => d
  | x :: _ =>
    if opOf x.word ≠ op || !q.issues || d.frozen c || (sl == .p && (d.core c).pn.walk.isSome) ||
        (q.draining == some none && kpMarked sl x.word) then d
    else if d.slotHolds c sl then d.modCore c fun k => k.waitsIn sl (some .chuteFull)
    else if !legal sl x.word then d.trapCore c ISA_ILLEGAL x.bundle sl x.word
    else if !q.ready x then d
    else if !q.guardOk x.word then d.modCore c fun k => { k.waitsIn sl none with sq := (k.sq.retire sl).unhold x.num }
    else match body x d with
      | .wait d cause => (d.modCore c fun k => k.waitsIn sl cause).kpWait c x
      | .trap code info => d.trapCore c code x.bundle sl info
      | .bad d code info => d.trapCore c code x.bundle sl info
      | .ok e =>
      let e := if sl == .t && decide (0x10 ≤ op) then e.spend c (e.weight 6) else e
      traceIssue d c x ((e.modCore c fun k => { k.waitsIn sl none with sq := k.sq.retire sl }).kpDone c x)
      | .fly d => d.modCore c fun k => { k.waitsIn sl none with sq := k.sq.issued sl }

/-- An earlier TPASS of the core has still to write its outputs. -/
def outputsOwed (d : Device) (c num : Nat) : Bool :=
  let k := d.core c
  (k.sq.qt.any fun y => decide (y.num < num) && opOf y.word == 2) || k.tr.passes.any fun y => decide (y.num < num)
/-- An earlier Yard write of the core has not been granted at its port: of a TPASS, of a store that waits in its queue, of a
merge entry (R163, R255). -/
def writesOwed (d : Device) (c num : Nat) : Bool :=
  d.outputsOwed c num || !(d.slice c).merge.isEmpty || ((d.slice c).requests.any fun r => r.chans.contains (c, 2)) ||
  (d.core c).sq.qm.any fun y => decide (y.num < num) && (opOf y.word == 2 || opOf y.word == 4 || opOf y.word == 6)

/-- The registers of core `c` changed. -/
def modSeq (d : Device) (c : Nat) (f : Sequencer → Sequencer) : Device := d.modCore c fun k => { k with sq := f k.sq }

/-- An instruction that only reads and writes registers of its core. -/
def regOp (c : Nat) (f : W64 → Sequencer → Sequencer) (x : QInstr) (d : Device) : Issue :=
  .ok (d.modSeq c (f x.word))

/-- The detail of SPAD_UNCORR: the offset of the failing block. -/
def blockInfo (b : Nat) : W64 := BitVec.ofNat 64 (32 * b)

/-- A trap of ISA_ILLEGAL with the faulting slot word (Table 6.11). -/
def illegal (x : QInstr) : Issue := .trap ISA_ILLEGAL x.word

end Device

end Sys2Proof.Machine
end

