-- ==== Sys2Proof/WellFormed.lean ====
section
/-! DEFINITION. Well-formed commands: every operand that names a unit names one that the full configuration has
(R13, R36, R275, R311, R390 …). Everything else a command can carry is data that its meaning checks. -/

namespace Sys2Proof

/-- The core and channel of a sender exist (R230). -/
def Sender.wf : Sender → Bool
  | .program c => decide (c < 12)
  | .channel c ch => decide (c < 12) && decide (ch < 2)

/-- The units that a command names exist in the full configuration. -/
def Instr.wf (i : Instr) : Bool :=
  match i with
  | .powerOnResetAssert => true
  | .coldStart _ => true
  | .coldStartReady _ => true
  | .tallyStartTimeout => true
  | .tcSerFrame _ _ => true
  | .tcClkLoss => true
  | .tallyDiverged => true
  | .ptpSync _ => true
  | .ptpFollowUp _ => true
  | .ptpDelayResp _ => true
  | .ptpAnnounce _ => true
  | .ptpAnnounceTimeout => true
  | .ptpSyncTimeout => true
  | .vbatCalLoss => true
  | .calendarAnchor => true
  | .tlyNowLowRead => true
  | .stepStart slot => decide (slot < 256)
  | .musterDeadline slot => decide (slot < 256)
  | .powerPhase slot => decide (slot < 256)
  | .heartbeat slot => decide (slot < 256)
  | .snapshot slot => decide (slot < 256)
  | .hostEvent slot => decide (slot < 256)
  | .bundleDispatch core => decide (core < 12)
  | .nop core _ => decide (core < 12)
  | .pissue core => decide (core < 12)
  | .penSlotWrite core => decide (core < 12)
  | .pswap core => decide (core < 12)
  | .pfold core => decide (core < 12)
  | .pconv core => decide (core < 12)
  | .pdrn core => decide (core < 12)
  | .pldw core => decide (core < 12)
  | .pldwComplete core => decide (core < 12)
  | .pskarm core => decide (core < 12)
  | .skidMarkerArrive core => decide (core < 12)
  | .skidBeatArrive core => decide (core < 12)
  | .tpass core => decide (core < 12)
  | .tpassComplete core => decide (core < 12)
  | .tact core => decide (core < 12)
  | .cbld core => decide (core < 12)
  | .cbldComplete core => decide (core < 12)
  | .vadd core => decide (core < 12)
  | .vsub core => decide (core < 12)
  | .vmul core => decide (core < 12)
  | .vfma core => decide (core < 12)
  | .vmin core => decide (core < 12)
  | .vmax core => decide (core < 12)
  | .vabs core => decide (core < 12)
  | .vneg core => decide (core < 12)
  | .vand core => decide (core < 12)
  | .vor core => decide (core < 12)
  | .vxor core => decide (core < 12)
  | .vshl core => decide (core < 12)
  | .vshr core => decide (core < 12)
  | .vsra core => decide (core < 12)
  | .vcmp core => decide (core < 12)
  | .vsel core => decide (core < 12)
  | .vcvt core => decide (core < 12)
  | .vfun core => decide (core < 12)
  | .vred core => decide (core < 12)
  | .vperm core => decide (core < 12)
  | .vext core => decide (core < 12)
  | .vpack core => decide (core < 12)
  | .vunpk core => decide (core < 12)
  | .vsort core => decide (core < 12)
  | .vtkclr core => decide (core < 12)
  | .vtkadd core => decide (core < 12)
  | .vtkget core => decide (core < 12)
  | .vsamp core => decide (core < 12)
  | .viota core => decide (core < 12)
  | .sld core => decide (core < 12)
  | .sst core => decide (core < 12)
  | .vld core => decide (core < 12)
  | .vst core => decide (core < 12)
  | .vlds core => decide (core < 12)
  | .vsts core => decide (core < 12)
  | .haul core => decide (core < 12)
  | .chpush core => decide (core < 12)
  | .chpop core => decide (core < 12)
  | .imld core => decide (core < 12)
  | .add core => decide (core < 12)
  | .sub core => decide (core < 12)
  | .and core => decide (core < 12)
  | .or core => decide (core < 12)
  | .xor core => decide (core < 12)
  | .shl core => decide (core < 12)
  | .shr core => decide (core < 12)
  | .sra core => decide (core < 12)
  | .mul core => decide (core < 12)
  | .min core => decide (core < 12)
  | .max core => decide (core < 12)
  | .minu core => decide (core < 12)
  | .maxu core => decide (core < 12)
  | .slt core => decide (core < 12)
  | .sltu core => decide (core < 12)
  | .br core => decide (core < 12)
  | .loop core => decide (core < 12)
  | .mfc core => decide (core < 12)
  | .mtc core => decide (core < 12)
  | .msend core => decide (core < 12)
  | .mrecv core => decide (core < 12)
  | .messageArrive src dst => decide (src < 12) && decide (dst < 12)
  | .muster core => decide (core < 12)
  | .musterLeadRelease pdk id => decide (pdk < 6) && decide (id < 4096)
  | .fsignal core => decide (core < 12)
  | .fwait core => decide (core < 12)
  | .kerf core => decide (core < 12)
  | .coreYield core => decide (core < 12)
  | .ysync core => decide (core < 12)
  | .tly core => decide (core < 12)
  | .rand core => decide (core < 12)
  | .trap core => decide (core < 12)
  | .halt core => decide (core < 12)
  | .pset core => decide (core < 12)
  | .phase core => decide (core < 12)
  | .semTicketTake core => decide (core < 12)
  | .semRelease core => decide (core < 12)
  | .chuteModeWrite core => decide (core < 12)
  | .chainWrite core => decide (core < 12)
  | .stepAreaWrite core => decide (core < 12)
  | .channelHaltAck core => decide (core < 12)
  | .channelStop core => decide (core < 12)
  | .registerWrite _ _ _ => true
  | .haulEnd core ch => decide (core < 12) && decide (ch < 2)
  | .channelIdle core ch => decide (core < 12) && decide (ch < 2)
  | .haulBase core ch => decide (core < 12) && decide (ch < 2)
  | .haulStride core ch => decide (core < 12) && decide (ch < 2)
  | .haulLoop core ch => decide (core < 12) && decide (ch < 2)
  | .move core ch => decide (core < 12) && decide (ch < 2)
  | .pieceIssue core ch => decide (core < 12) && decide (ch < 2)
  | .tring core ch => decide (core < 12) && decide (ch < 2)
  | .tnext core ch => decide (core < 12) && decide (ch < 2)
  | .tput core ch => decide (core < 12) && decide (ch < 2)
  | .tileCreditReturn core ch => decide (core < 12) && decide (ch < 2)
  | .hpop core ch => decide (core < 12) && decide (ch < 2)
  | .hpush core ch => decide (core < 12) && decide (ch < 2)
  | .hbase core ch => decide (core < 12) && decide (ch < 2)
  | .wopen core ch => decide (core < 12) && decide (ch < 2)
  | .wclose core ch => decide (core < 12) && decide (ch < 2)
  | .skidmark core ch => decide (core < 12) && decide (ch < 2)
  | .twait core ch => decide (core < 12) && decide (ch < 2)
  | .chutePushArrive src dst => src.wf && decide (dst < 12)
  | .chuteFreeSignal core chute => decide (core < 12) && decide (chute < 16)
  | .landBurst _ => true
  | .yardUeRead core block _ => decide (core < 12) && decide (block < 2 ^ 21)
  | .mendWriteback core => decide (core < 12)
  | .mergeDrainTimeout core => decide (core < 12)
  | .patrolRead core => decide (core < 12)
  | .remapInstall core bank row word => decide (core < 12) && decide (bank < 256) && decide (row < 4096) && decide (word < 18)
  | .regionClearComplete core => decide (core < 12)
  | .windowTransferCheck _ => true
  | .windowCloseComplete pdk slot => decide (pdk < 6) && decide (slot < 256)
  | .channelTrainingDone chan _ => decide (chan < 16)
  | .segmentZeroComplete pdk entry => decide (pdk < 6) && decide (entry < 256)
  | .privateReadComplete _ _ => true
  | .cxlGo _ => true
  | .cxlReadData _ _ => true
  | .cxlSnoop => true
  | .atsCompletion walker _ => decide (walker < 16)
  | .atsTimeout walker => decide (walker < 16)
  | .prgResponse walker _ => decide (walker < 16)
  | .pageRequestTimeout walker => decide (walker < 16)
  | .atsInvalidate _ _ _ => true
  | .invalAck agent => decide (agent < 34)
  | .invalTimeout agent => decide (agent < 34)
  | .xltFlush _ => true
  | .priResume => true
  | .ucieLinkTraining _ _ => true
  | .functionLevelReset => true
  | .bind stall queue _ => decide (stall < 48) && decide (queue < 16384)
  | .bindComplete stall _ => decide (stall < 48)
  | .unbind stall => decide (stall < 48)
  | .unbindComplete stall => decide (stall < 48)
  | .capsuleWrite stall _ _ => decide (stall < 48)
  | .capsuleTake stall => decide (stall < 48)
  | .creditRecordTimer stall => decide (stall < 48)
  | .capsuleNop stall => decide (stall < 48)
  | .runProgram stall => decide (stall < 48)
  | .copy stall => decide (stall < 48)
  | .intakeChunk stall _ => decide (stall < 48)
  | .signalFence stall => decide (stall < 48)
  | .waitFence stall => decide (stall < 48)
  | .objCreate stall => decide (stall < 48)
  | .objRef stall => decide (stall < 48)
  | .objUnref stall => decide (stall < 48)
  | .yardLoad stall => decide (stall < 48)
  | .windowOpen stall => decide (stall < 48)
  | .windowClose stall => decide (stall < 48)
  | .seqJoin stall => decide (stall < 48)
  | .seqLeave stall => decide (stall < 48)
  | .hintPhase stall => decide (stall < 48)
  | .musterSet stall _ => decide (stall < 48)
  | .cancel stall => decide (stall < 48)
  | .commandComplete stall => decide (stall < 48)
  | .mirrorWriteFail fence _ => decide (fence < 65536)
  | .ringWriteFail ring => decide (ring < 64)
  | .msixModerationExpiry vector => decide (vector < 512)
  | .evrCtlWrite ring _ => decide (ring < 64)
  | .jobStart pdk _ => decide (pdk < 6)
  | .jobRelease _ => true
  | .jobResume _ => true
  | .quantumExpiry _ => true
  | .accountNormalise pdk => decide (pdk < 6)
  | .semSetup pdk n _ => decide (pdk < 6) && decide (n < 16)
  | .semTeardown pdk n => decide (pdk < 6) && decide (n < 16)
  | .queuePark pdk => decide (pdk < 6)
  | .queueUnpark stall => decide (stall < 48)
  | .queueRunnable queue => decide (queue < 16384)
  | .stepRelease pdk => decide (pdk < 6)
  | .stepCtlWrite pdk _ => decide (pdk < 6)
  | .droveHello port _ => decide (port < 2)
  | .droveWrite port _ => decide (port < 2)
  | .droveReadReq port _ => decide (port < 2)
  | .droveReadRsp port _ => decide (port < 2)
  | .droveAck port _ => decide (port < 2)
  | .droveNak port _ => decide (port < 2)
  | .droveMusterArrive port _ => decide (port < 2)
  | .droveMusterRelease port _ => decide (port < 2)
  | .frameForward port _ => decide (port < 2)
  | .arpRequest port _ => decide (port < 2)
  | .neighbourSolicitation port _ => decide (port < 2)
  | .pfcPause port => decide (port < 2)
  | .portLinkChange port _ => decide (port < 2)
  | .helloSend b => decide (b < 64)
  | .ackSend b => decide (b < 64)
  | .retransmit b _ => decide (b < 64)
  | .sessionTimeout b => decide (b < 64)
  | .powerInterval _ => true
  | .stepDecision => true
  | .pmVack => true
  | .vregTimeout => true
  | .raiseSuppressEnd => true
  | .lockstepRaise => true
  | .grazeTimeout core => decide (core < 12)
  | .supplyWarning _ => true
  | .supplyHold => true
  | .supplyNormal => true
  | .supplyReset _ => true
  | .thermalSample _ => true
  | .thermalMaxstepTick => true
  | .thermalTripExit => true
  | .entropySample _ => true
  | .drbgReseed => true
  | .tenantRemoveRequest pdk => decide (pdk < 6)
  | .removalRetire pdk _ => decide (pdk < 6)
  | .removalScrub pdk => decide (pdk < 6)
  | .removalEnd pdk => decide (pdk < 6)
  | .traceWriteFail pdk => decide (pdk < 6)
  | .hangReportTimeout pdk => decide (pdk < 6)
  | .droverFault pdk => decide (pdk < 6)
  | .watchdogExpiry _ => true
  | .shepherdRestartDone => true
  | .paddockResetRequest pdk => decide (pdk < 6)
  | .paddockReset pdk => decide (pdk < 6)
  | .paddockReady pdk => decide (pdk < 6)
  | .deviceReset _ _ => true
  | .deviceResetReady _ => true
  | .dzientRead sess _ => (sess.all fun x => decide (x < 4))
  | .dzientNext sess _ => (sess.all fun x => decide (x < 4))
  | .dzientWrite sess _ => (sess.all fun x => decide (x < 4))
  | .layoutWrite sess _ => (sess.all fun x => decide (x < 4))
  | .chanOnWrite sess _ => (sess.all fun x => decide (x < 4))
  | .capSetWrite sess _ => (sess.all fun x => decide (x < 4))
  | .opRootWrite sess _ _ => (sess.all fun x => decide (x < 4))
  | .trustWrite sess _ => (sess.all fun x => decide (x < 4))
  | .bundleRelease sess _ _ => (sess.all fun x => decide (x < 4))
  | .removeWrite sess _ => (sess.all fun x => decide (x < 4))
  | .pdkResetWrite sess _ => (sess.all fun x => decide (x < 4))
  | .devResetWrite sess _ => (sess.all fun x => decide (x < 4))
  | .snapSetWrite sess _ => (sess.all fun x => decide (x < 4))
  | .bindWrite sess _ => (sess.all fun x => decide (x < 4))
  | .routeWrite sess _ => (sess.all fun x => decide (x < 4))
  | .stageWrite sess _ => (sess.all fun x => decide (x < 4))
  | .commit sess _ _ => (sess.all fun x => decide (x < 4))
  | .srcWrite sess _ => (sess.all fun x => decide (x < 4))
  | .tcHzWrite sess _ => (sess.all fun x => decide (x < 4))
  | .calSet sess _ => (sess.all fun x => decide (x < 4))
  | .spdmGetVersion sess _ => (sess.all fun x => decide (x < 4))
  | .spdmGetCapabilities sess _ => (sess.all fun x => decide (x < 4))
  | .spdmNegotiateAlgorithms sess _ => (sess.all fun x => decide (x < 4))
  | .spdmGetDigests sess _ => (sess.all fun x => decide (x < 4))
  | .spdmGetCertificate sess _ => (sess.all fun x => decide (x < 4))
  | .spdmChallenge sess _ => (sess.all fun x => decide (x < 4))
  | .spdmGetMeasurements sess _ => (sess.all fun x => decide (x < 4))
  | .spdmKeyExchange sess _ => (sess.all fun x => decide (x < 4))
  | .spdmFinish sess _ => (sess.all fun x => decide (x < 4))
  | .spdmHeartbeat sess _ => (sess.all fun x => decide (x < 4))
  | .spdmKeyUpdate sess _ => (sess.all fun x => decide (x < 4))
  | .spdmEndSession sess _ => (sess.all fun x => decide (x < 4))
  | .spdmChunkGet sess _ => (sess.all fun x => decide (x < 4))
  | .spdmHeartbeatMissed sess => decide (sess < 4)
  | .mctpSetEndpointId _ => true
  | .mctpGetEndpointId => true
  | .mctpGetEndpointUuid => true
  | .mctpGetVersionSupport => true
  | .mctpGetMessageTypeSupport => true
  | .mctpUnsupportedControl _ => true
  | .i3cEntdaa _ => true
  | .i3cSetdasa _ => true
  | .flashLineRead line _ _ => decide (line < 2 ^ 18)
  | .flashProgram unit _ => decide (unit < 2 ^ 20)
  | .flashProgramComplete _ => true
  | .flashErase block => decide (block < 1024)
  | .flashEraseComplete _ => true
  | .flashForcedTimer => true
  | .flashRelocate block _ => decide (block < 1024)
  | .flashLogEntry _ _ => true
  | .twaitReached core ch => decide (core < 12) && decide (ch < 2)
  | .privateWriteComplete _ => true
  | .ptpDelayReq _ => true
  | .ptpTimeTransmit => true
  | .rxFrameDrop port => decide (port < 2)
  | .pfcPauseExpiry port => decide (port < 2)
  | .msixVectorUnmask vector => decide (vector < 512)

end Sys2Proof
end

