-- ==== Sys2Proof/Machine/ChuteOps.lean ====
section
/-! DEFINITION. Chutes: handles, pushes and their return, pops, the slot audit (spec 08: R252 to R259; R182, R183,
R227). -/

namespace Sys2Proof.Machine

/-! Fields of a slot handle (Table 8.5). -/
def hOffset (h : W64) : Nat := bits h 25 0
def hCore (h : W64) : Nat := bits h 29 26
def hLen (h : W64) : Nat := if bits h 43 32 = 0 then 4096 else bits h 43 32
def slotHandle (off core len tag : Nat) : W64 := BitVec.ofNat 64 (off + core * 2 ^ 26 + len % 4096 * 2 ^ 32 + tag % 2 ^ 20 * 2 ^ 44)

/-- PEN_TRAP_INFO of a CHUTE_FAULT (Table 6.11). -/
def chuteInfo (core chute : Nat) : W64 := BitVec.ofNat 64 (chute + core * 16)

/-- Latency of a mesh transfer between two cores' routers (R20): a cycle at each end, 2 for a hop, 8 for the hop across the die
boundary. -/
def meshLatency (a b : Nat) : Nat :=
  let dist := fun (x y : Nat) => max x y - min x y
  2 + 2 * dist (a / 4) (b / 4) + 2 * dist (a % 4) (b % 4) + (if a % 4 / 2 = b % 4 / 2 then 0 else 6)
/-- The core that a push comes from, and its place among those that arrive in one cycle: by core, channels before the program (R256). -/
def senderCore : Sender → Nat
  | .channel c _ => c
  | .program c => c
def senderRank : Sender → Nat
  | .channel c ch => 3 * c + ch
  | .program c => 3 * c + 2

namespace Device

/-- Core `k` is a present core of the Paddock of core `c`. -/
def samePaddock (d : Device) (c k : Nat) : Bool :=
  match d.pdkOfCore c with
  | some p => (d.coresOf p).contains k
  | none => false

/-- The checks of R253 on a handle that core `c` pushes. -/
def goodHandle (d : Device) (c : Nat) (h : W64) : Bool :=
  bits h 31 30 == 0 && d.samePaddock c (hCore h) && hOffset h % 256 == 0 && decide (hOffset h + 256 * hLen h ≤ 2 ^ 26)

/-- An earlier push of this sender to this Chute is held, so later ones wait behind it (R257). -/
def heldBefore (d : Device) (src : Sender) (core chute : Nat) : Bool :=
  d.pushes.any fun p => p.held && p.src == src && p.job == (d.core (senderCore src)).job && p.core == core && p.chute == chute
/-- The Chute refuses a push for want of space: its sender waits in the order of the refusals (R257). -/
def refuse (d : Device) (core chute : Nat) (src : Sender) : Device :=
  let k := d.chute core chute
  d.setChute core chute { k with waiting := if k.waiting.contains src then k.waiting else k.waiting ++ [src] }
/-- The Chute is full for this sender, or other refused senders come before it. -/
def fullFor (d : Device) (core chute : Nat) (src : Sender) : Bool :=
  (d.chute core chute).waiting.contains src || decide (64 ≤ (d.chute core chute).entries.length)

/-- The push enters its Chute. -/
def enter (d : Device) (core chute : Nat) (v : W64) : Device :=
  let k := d.chute core chute
  d.setChute core chute { k with entries := k.entries ++ [v] }

/-- The Chute takes pushes of this sender in this mode: the mode suits, and a bound FULL Chute takes its channel's only
(R247, R252). -/
def suits (d : Device) (src : Sender) (core chute : Nat) (handle : Bool) : Bool :=
  let k := d.chute core chute
  k.handle == handle && (k.bound != .full || src == Sender.channel k.bcore k.bch)

/-- The core's job is there to receive: it has not yielded and its drain has not begun (R257, R258). -/
def receives (d : Device) (core : Nat) : Bool := (d.core core).job.isSome && (d.core core).sq.stat != .draining

/-- A handle is held by the core from its pop until it is given away, at most 16 of them (R255). -/
def holdHandle (d : Device) (c : Nat) (h : W64) : Device := d.modCore c fun k => { k with held := (k.held ++ [h]).take 16 }
def giveHandle (d : Device) (c : Nat) (h : W64) : Device := d.modCore c fun k => { k with held := k.held.erase h }

/-- The audit of R227 of one access by core `c` to ranges (offset, length) of its own slice. -/
def auditAll (d : Device) (c : Nat) (rs : List (Nat × Nat)) : Device :=
  let s := d.slice c
  let inChute := rs.any fun r => (blocksOf r.1 r.2).any fun b => match s.regionAt (32 * b) with
    | some (_, r) => r.chute
    | none => false
  let inSlot := rs.any fun r => (d.core c).held.any fun h =>
    hCore h == c && decide (hOffset h < r.1 + r.2) && decide (r.1 < hOffset h + 256 * hLen h)
  if s.audit && inChute && !inSlot then
    d.setSlice c { s with auditCnt := s.auditCnt + 1, auditAddr := BitVec.ofNat 32 (rs.headD (0, 0)).1 }
  else d
def audit (d : Device) (c off n : Nat) : Device := d.auditAll c [(off, n)]

/-- What a wait on the core's own channel counts under (R259). -/
def channelCause (d : Device) (c ch : Nat) : Option Cause :=
  let k := d.channel c ch
  if k.state ≠ .running then none
  else match d.channelWait c ch with
    | .memPort => some .memPort
    | .xlate => some .xlate
    | .linkCredit => some .linkCredit
    | .none => if d.owes (ofChannel c ch) then some .copy else none
    | _ => none
/-- What a wait on an empty Chute counts under: CHUTE_EMPTY, unless a local channel is its producer. -/
def emptyCause (d : Device) (c n : Nat) : Option Cause :=
  if (d.chute c n).bound = .full ∧ (d.chute c n).bcore = c then d.channelCause c (d.chute c n).bch else some .chuteEmpty

/-- A push sets out for another core's Chute: it can enter there when R183 lets a message be taken. -/
def send (d : Device) (src : Sender) (core chute : Nat) (v : W64) (handle : Bool) (bundle : Nat) : Device :=
  { d with pushes := d.pushes ++ [{ src := src, core := core, chute := chute, value := v, handle := handle, held := false, bundle := bundle,
                                    job := (d.core (senderCore src)).job, due := d.power.cycles + meshLatency (senderCore src) core + 2 }] }
/-- What a push to a Chute meets when it issues: it enters its own core's Chute or sets out for another core's (true), or it
is refused and waits with its sender: the Chute is full, its job has yielded, or an earlier push is held (R182, R256, R257). -/
def push (d : Device) (src : Sender) (core chute : Nat) (v : W64) (handle : Bool) (bundle : Nat) : Device × Bool :=
  if d.heldBefore src core chute || (core != senderCore src && !d.receives core) then (d, false)
  else if d.fullFor core chute src then (d.refuse core chute src, false)
  else if core = senderCore src then (d.enter core chute v, true)
  else (d.send src core chute v handle bundle, true)
/-- A push by the program of core `c`: while it is refused, the instruction waits under CHUTE_FULL. -/
def pushFrom (d : Device) (c core chute : Nat) (v : W64) (handle : Bool) (bundle : Nat) : Issue :=
  match d.push (.program c) core chute v handle bundle with
  | (d, true) => .ok d
  | (d, false) => .wait d (some .chuteFull)

/-- `a` arrives before `b` where both are on their way. -/
def sooner (a b : Push) : Bool := decide (a.due < b.due) || (a.due == b.due && decide (senderRank a.src < senderRank b.src))
/-- The push that reaches core `core` next from the router of the sender's core is `src`'s, of that mode, its cycle has come,
and no other sender's push enters the same Chute before it in that cycle (R18, R256). -/
def arriving (d : Device) (src : Sender) (core : Nat) (handle : Bool) : Option Push :=
  let way := d.pushes.filter fun p => !p.held && p.core == core
  let next := (way.filter fun p => senderCore p.src == senderCore src).foldl (fun (b : Option Push) p => match b with
    | some x => if sooner p x then some p else b
    | none => some p) none
  next.filter fun p => p.src == src && p.handle == handle && decide (p.due ≤ d.power.cycles) &&
    !(way.any fun y => y.chute == p.chute && y.due == p.due && sooner y p)

/-- A push reaches its Chute (R252, R256, R257): it enters, or is returned and held by its sender, or its mode does
not suit and its sender traps or halts. -/
def pushArrives (d : Device) (src : Sender) (core : Nat) (handle : Bool) : Device :=
  match d.arriving src core handle with
  | none => d
  | some p =>
    let back := match p.job with
      | some j => if (d.job j).isSome then { d with pushes := d.pushes.map fun x => if x == p then { p with held := true } else x }
                  else { d with pushes := d.pushes.erase p }
      | none => { d with pushes := d.pushes.erase p }
    if d.heldBefore src core p.chute || !d.receives core then back
    else if !d.suits src core p.chute handle then
      if (d.core (senderCore src)).job ≠ p.job then back
      else
        let d := { d with pushes := d.pushes.erase p }
        match src with
        | .program c => d.trapCore c CHUTE_FAULT p.bundle (if handle then .m else .c) (chuteInfo core p.chute)
        | .channel c ch => d.haltChannel c ch CHUTE_FAULT 0
    else if 64 ≤ (d.chute core p.chute).entries.length then back.refuse core p.chute src
    else ({ d with pushes := d.pushes.erase p }).enter core p.chute p.value

/-- Held pushes are sent again. -/
def resend (d : Device) (p : Push → Bool) : Device :=
  let go := fun (x : Push) => x.held && p x
  { d with pushes := (d.pushes.filter fun x => !go x) ++ (d.pushes.filter go).map fun x =>
      { x with held := false, due := d.power.cycles + meshLatency (senderCore x.src) x.core + 2 } }

/-- A Chute with free space signals the first sender that waits for it (R257). -/
def freeSignal (d : Device) (core chute : Nat) : Device :=
  let k := d.chute core chute
  match k.waiting with
  | [] => d
  | src :: r =>
    if k.entries.length < 64 then
      (d.setChute core chute { k with waiting := r }).resend fun x => x.src == src && x.core == core && x.chute == chute
    else d

/-- Takes the oldest entry of a Chute. -/
def popChute (d : Device) (c n : Nat) : Option (Device × W64) :=
  let k := d.chute c n
  match k.entries with
  | [] => none
  | v :: r => some (d.setChute c n { k with entries := r }, v)

end Device

/-- CHPUSH: pushes the handle in DS into a Chute, after the core's earlier Yard writes are granted (R254, R255). -/
def chpushBody (c : Nat) (x : QInstr) (d : Device) : Issue :=
  let w := x.word
  let n := bits w 19 16
  let core := if bit w 24 then bits w 23 20 else c
  let v := (d.core c).sq.sop (fD w)
  if !d.samePaddock c core || !d.suits (.program c) core n true || !d.goodHandle c v then .trap CHUTE_FAULT (chuteInfo core n)
  else
    let d := if d.outputsOwed c x.num then d else d.drainAll c
    if d.writesOwed c x.num then .wait d none
    else match d.pushFrom c core n v true x.bundle with
      | .ok d => .ok (d.giveHandle c v)
      | r => r
def execChpush (core : Nat) (s : State) : Res0 := onUnit 12 core s (Device.issue core .m 0x0C (chpushBody core))

/-- CHPOP: takes the oldest handle of a handle-mode Chute of the core that no ring's FREE Chute is (R247, R254). -/
def chpopBody (c : Nat) (x : QInstr) (d : Device) : Issue :=
  let n := bits x.word 19 16
  if !(d.chute c n).handle || (d.chute c n).bound == .free then .trap CHUTE_FAULT (chuteInfo c n)
  else match d.popChute c n with
    | none => .wait d (d.emptyCause c n)
    | some (d, v) => .ok ((d.holdHandle c v).modSeq c fun q => q.setSop (fD x.word) v)
def execChpop (core : Nat) (s : State) : Res0 := onUnit 12 core s (Device.issue core .m 0x0D (chpopBody core))

/-- MSEND: places the value of A in a message-mode Chute (R182). -/
def msendBody (c : Nat) (x : QInstr) (d : Device) : Issue :=
  let n := bits x.word 39 36
  let core := bits x.word 35 32
  if !d.samePaddock c core then .trap CHUTE_FAULT (chuteInfo core n)
  else if !d.suits (.program c) core n false then .trap CHUTE_FAULT (chuteInfo core n)
  else d.pushFrom c core n ((d.core c).sq.sop (fA x.word)) false x.bundle
def execMsend (core : Nat) (s : State) : Res0 := onUnit 12 core s (Device.issue core .c 0x14 (msendBody core))

/-- MRECV: removes the oldest message of a message-mode Chute of the core (R182). -/
def mrecvBody (c : Nat) (x : QInstr) (d : Device) : Issue :=
  let n := bits x.word 39 36
  if (d.chute c n).handle then .trap CHUTE_FAULT (chuteInfo c n)
  else match d.popChute c n with
    | none => .wait d (d.emptyCause c n)
    | some (d, v) => .ok (d.modSeq c fun q => q.setSop (fD x.word) v)
def execMrecv (core : Nat) (s : State) : Res0 := onUnit 12 core s (Device.issue core .c 0x15 (mrecvBody core))

/-- MESSAGE_ARRIVE: the oldest message on its way from a core's program to core `dst` reaches its Chute (R183). -/
def execMessageArrive (src dst : Nat) (s : State) : Res0 :=
  if dst < 12 then onUnit 12 src s fun d => d.pushArrives (.program src) dst false else .fault .absentUnit

/-- CHUTE_PUSH_ARRIVE: the oldest handle on its way from a sender to core `dst` reaches its Chute (R256). -/
def execChutePushArrive (src : Sender) (dst : Nat) (s : State) : Res0 :=
  if src.wf then onUnit 12 dst s fun d => d.pushArrives src dst true else .fault .absentUnit

/-- CHUTE_FREE_SIGNAL: a Chute with free space signals the first waiting sender (R257). -/
def execChuteFreeSignal (core chute : Nat) (s : State) : Res0 :=
  if chute < 16 then onUnit 12 core s fun d => d.freeSignal core chute else .fault .absentUnit

end Sys2Proof.Machine
end

