-- ==== Sys2Proof/Machine/Flags.lean ====
section
/-! DEFINITION. Numbers: exact values of the element and accumulator formats, rounding, and the arithmetic flags
(spec 03: Tables 3.1 and 3.5; spec 06: R155, R169, R176).

A finite value is a sign, a magnitude and a power of two, so every term, product and sum is exact until it is
rounded. -/

namespace Sys2Proof.Machine

/-- An exact value, an infinity or a NaN. -/
inductive FVal where
  | nan
  | inf (neg : Bool)
  /-- (-1)^neg * m * 2^e; m = 0 is a signed zero -/
  | fin (neg : Bool) (m : Nat) (e : Int)
  deriving DecidableEq, Repr, Inhabited

/-- The flag bits of PEN_ARITH_FLAGS[4:0] (Table 3.6a). -/
abbrev FFlags := BitVec 5
def fSAT : FFlags := 1
def fOVF : FFlags := 2
def fUNF : FFlags := 4
def fINV : FFlags := 8
def fNANIN : FFlags := 16

def FVal.zero : FVal := .fin false 0 0
def FVal.ofInt (i : Int) : FVal := .fin (decide (i < 0)) i.natAbs 0
def FVal.isNan : FVal → Bool
  | .nan => true
  | _ => false
def FVal.neg : FVal → FVal
  | .nan => .nan
  | .inf n => .inf (!n)
  | .fin n m e => .fin (!n) m e
def FVal.abs : FVal → FVal
  | .nan => .nan
  | .inf _ => .inf false
  | .fin _ m e => .fin false m e

/-- The signed integer that a finite value holds in units of 2^e (e at most its own exponent). -/
def scaled (neg : Bool) (m : Nat) (e lo : Int) : Int :=
  let v : Int := (m * 2 ^ (e - lo).toNat : Nat)
  if neg then -v else v

/-- Exact sum of two values; opposite infinities give NaN with INV; the sum of two zeros keeps a common sign. -/
def FVal.add (a b : FVal) : FVal × FFlags :=
  match a, b with
  | .nan, _ => (.nan, 0)
  | _, .nan => (.nan, 0)
  | .inf x, .inf y => if x = y then (.inf x, 0) else (.nan, fINV)
  | .inf x, _ => (.inf x, 0)
  | _, .inf y => (.inf y, 0)
  | .fin x m e, .fin y n f =>
    let lo := min e f
    let s := scaled x m e lo + scaled y n f lo
    if s = 0 then (.fin (x && y) 0 0, 0) else (.fin (decide (s < 0)) s.natAbs lo, 0)

def FVal.sub (a b : FVal) : FVal × FFlags := a.add b.neg

/-- Exact product; infinity times zero gives NaN with INV. -/
def FVal.mul (a b : FVal) : FVal × FFlags :=
  match a, b with
  | .nan, _ => (.nan, 0)
  | _, .nan => (.nan, 0)
  | .inf x, .inf y => (.inf (x != y), 0)
  | .inf x, .fin y n _ => if n = 0 then (.nan, fINV) else (.inf (x != y), 0)
  | .fin x m _, .inf y => if m = 0 then (.nan, fINV) else (.inf (x != y), 0)
  | .fin x m e, .fin y n f => (.fin (x != y) (m * n) (e + f), 0)

/-- The value times 2^k. -/
def FVal.scale (a : FVal) (k : Int) : FVal :=
  match a with
  | .fin x m e => .fin x m (e + k)
  | v => v

/-- -1, 0 or 1 as `a` is below, equal to or above `b`, -0 equal to +0; none when a NaN is compared. -/
def FVal.cmp (a b : FVal) : Option Int :=
  match a, b with
  | .nan, _ => none
  | _, .nan => none
  | .inf x, .inf y => some (if x = y then 0 else if x then -1 else 1)
  | .inf x, .fin _ _ _ => some (if x then -1 else 1)
  | .fin _ _ _, .inf y => some (if y then 1 else -1)
  | .fin x m e, .fin y n f =>
    let lo := min e f
    let p := scaled x m e lo
    let q := scaled y n f lo
    some (if p < q then -1 else if p = q then 0 else 1)

/-- Signed zero test used to order -0 below +0. -/
def FVal.negative : FVal → Bool
  | .nan => false
  | .inf n => n
  | .fin n _ _ => n

/-- The minimum of R69: a NaN operand gives NaN, and -0 orders below +0. -/
def FVal.min (a b : FVal) : FVal :=
  match a.cmp b with
  | none => .nan
  | some c => if c < 0 then a else if 0 < c then b else if a.negative then a else b
/-- The maximum of R69. -/
def FVal.max (a b : FVal) : FVal :=
  match a.cmp b with
  | none => .nan
  | some c => if 0 < c then a else if c < 0 then b else if a.negative then b else a

/-- `m * 2^e` (m > 0) rounded to `p` bits, ties to even, no bit below 2^low: the magnitude and its exponent. -/
def roundMag (p : Nat) (low : Int) (m : Nat) (e : Int) : Nat × Int :=
  let q := max low (e + (Nat.log2 m + 1 : Nat) - p)
  if q ≤ e then (m, e)
  else
    let sh := (q - e).toNat
    let k := m >>> sh
    let r := m % 2 ^ sh
    let half := 2 ^ (sh - 1)
    let up := decide (half < r) || (decide (half = r) && decide (k % 2 = 1))
    (if up then k + 1 else k, q)

/-- The floor of the base-2 logarithm of `m * 2^e` (m > 0). -/
def topExp (m : Nat) (e : Int) : Int := (Nat.log2 m : Int) + e

/-- Sign bit at the top of a 32-bit pattern. -/
def signBit (n : Bool) : Nat := if n then 2 ^ 31 else 0
def qnan32 : W32 := 0x7FC00000
def inf32 (n : Bool) : W32 := BitVec.ofNat 32 (signBit n + 0x7F800000)

/-- The pattern of a normal FP32 value m * 2^e with at most 24 significant bits. -/
def packNormal (n : Bool) (m : Nat) (e : Int) : W32 :=
  let t := topExp m e
  -- m * 2^e = 1.f * 2^t; the fraction in units of 2^(t - 23)
  let f := if e ≤ t - 23 then m / 2 ^ (t - 23 - e).toNat else m * 2 ^ (e - (t - 23)).toNat
  BitVec.ofNat 32 (signBit n + (t + 127).toNat * 2 ^ 23 + (f - 2 ^ 23))

/-- rnd32 of R65 with Table 3.5: the nearest value of 24 bits, ties to even; beyond the largest finite value an
infinity with OVF, below 2^-126 a zero with UNF. -/
def rnd32 (v : FVal) : W32 × FFlags :=
  match v with
  | .nan => (qnan32, 0)
  | .inf n => (inf32 n, 0)
  | .fin n m e =>
    if m = 0 then (BitVec.ofNat 32 (signBit n), 0)
    else
      let (k, q) := roundMag 24 (e + (Nat.log2 m + 1 : Nat) - 24) m e
      let t := topExp k q
      if 127 < t then (inf32 n, fOVF)
      else if t < -126 then (BitVec.ofNat 32 (signBit n), fUNF)
      else (packNormal n k q, 0)

/-- IEEE 754-2019 binary32 rounding, subnormals kept (R176). -/
def rndIeee (v : FVal) : W32 :=
  match v with
  | .nan => qnan32
  | .inf n => inf32 n
  | .fin n m e =>
    if m = 0 then BitVec.ofNat 32 (signBit n)
    else
      let (k, q) := roundMag 24 (-149) m e
      if k = 0 then BitVec.ofNat 32 (signBit n)
      else
        let t := topExp k q
        if 127 < t then inf32 n
        else if t < -126 then BitVec.ofNat 32 (signBit n + k * 2 ^ (q + 149).toNat)
        else packNormal n k q

/-- The value of a binary format with `eb` exponent bits, `mb` mantissa bits and a bias; the all-ones exponent is
infinity or NaN when `special`. -/
def unpack (eb mb bias : Nat) (special : Bool) (x : Nat) : FVal :=
  let n := decide ((x >>> (eb + mb)) % 2 = 1)
  let ex := (x >>> mb) % 2 ^ eb
  let mant := x % 2 ^ mb
  if special && ex == 2 ^ eb - 1 then (if mant = 0 then .inf n else .nan)
  else if ex = 0 then .fin n mant (1 - (bias : Int) - mb)
  else .fin n (2 ^ mb + mant) ((ex : Int) - bias - mb)

/-- The value of an FP32 pattern. -/
def val32 (x : W32) : FVal := unpack 8 23 127 true x.toNat
/-- The value of an FP32 accumulator: a subnormal reads as zero of its sign (Table 3.5). -/
def acc32 (x : W32) : FVal :=
  match val32 x with
  | .fin n m e => if bits x 30 23 = 0 then .fin n 0 0 else .fin n m e
  | v => v
/-- The value of a BF16 pattern. -/
def valBf16 (x : Nat) : FVal := unpack 8 7 127 true x

/-- Rounds to BF16, ties to even: the 16-bit pattern in bits [31:16] (R155, R176). -/
def rndBf16 (v : FVal) : W32 :=
  match v with
  | .nan => 0x7FC00000
  | .inf n => inf32 n
  | .fin n m e =>
    if m = 0 then BitVec.ofNat 32 (signBit n)
    else
      let (k, q) := roundMag 8 (-133) m e
      if k = 0 then BitVec.ofNat 32 (signBit n)
      else if 127 < topExp k q then inf32 n
      else rndIeee (.fin n k q)

/-- The element formats of Table 3.1 that hold integers. -/
def fmtInt (f : Nat) : Bool := f == 0 || f == 1 || f == 2 || f == 3
/-- Floating and Microscaling formats of Table 3.1. -/
def fmtFloat (f : Nat) : Bool := decide (4 ≤ f) && decide (f ≤ 13)
/-- Microscaling formats. -/
def fmtMx (f : Nat) : Bool := decide (8 ≤ f) && decide (f ≤ 13)
/-- Bits of an element of Table 3.1. -/
def fmtBits (f : Nat) : Nat :=
  match f with
  | 2 => 4 | 3 => 4 | 6 => 16 | 7 => 16 | 10 => 6 | 11 => 6 | 12 => 4 | _ => 8

/-- The exact value of an element of Table 3.1 (MXINT8 and B8 as their raw integers). -/
def elemVal (f : Nat) (x : Nat) : FVal :=
  match f with
  | 0 => FVal.ofInt (BitVec.ofNat 8 x).toInt
  | 1 => FVal.ofInt (x % 256 : Nat)
  | 2 => FVal.ofInt (BitVec.ofNat 4 x).toInt
  | 3 => FVal.ofInt (x % 16 : Nat)
  | 4 => if x % 128 = 127 then .nan else unpack 4 3 7 false (x % 256)
  | 5 => unpack 5 2 15 true (x % 256)
  | 6 => unpack 8 7 127 true (x % 65536)
  | 7 => unpack 5 10 15 true (x % 65536)
  | 8 => if x % 128 = 127 then .nan else unpack 4 3 7 false (x % 256)
  | 9 => unpack 5 2 15 true (x % 256)
  | 10 => unpack 2 3 1 false (x % 64)
  | 11 => unpack 3 2 3 false (x % 64)
  | 12 => unpack 2 1 1 false (x % 16)
  | 13 => FVal.ofInt (BitVec.ofNat 8 x).toInt
  | _ => FVal.ofInt (x % 256 : Nat)

/-- The integer that a finite value with a non-negative exponent holds. -/
def FVal.toInt (v : FVal) : Int :=
  match v with
  | .fin n m e => scaled n m e 0
  | _ => 0

/-- The nearest integer, ties to even, of a finite value. -/
def FVal.round (v : FVal) : Int :=
  match v with
  | .fin n m e =>
    if m = 0 then 0
    else
      let (k, q) := roundMag (Nat.log2 m + 1) 0 m e
      let i : Int := (k * 2 ^ q.toNat : Nat)
      if n then -i else i
  | _ => 0

/-- `x` limited to the signed `w`-bit range (sat of Table 0.3). -/
def satInt (w : Nat) (x : Int) : Int := max (-(2 ^ (w - 1) : Int)) (min (2 ^ (w - 1) - 1) x)

/-- A small binary format: exponent bits, mantissa bits, bias, and the pattern (without sign) of its largest finite
value. Rounds to nearest, ties to even, clamped to that magnitude (R142, R169). -/
def rndSmall (eb mb bias maxPat : Nat) (v : FVal) : Nat :=
  match v with
  | .fin n m e =>
    let s := if n then 2 ^ (eb + mb) else 0
    if m = 0 then s
    else
      let low : Int := 1 - (bias : Int) - mb
      let (k, q) := roundMag (mb + 1) low m e
      if k = 0 then s
      else
        let t := topExp k q
        let pat : Nat :=
          if t < 1 - (bias : Int) then k * 2 ^ (q - low).toNat
          else
            let f := if q ≤ t - mb then k / 2 ^ (t - mb - q).toNat else k * 2 ^ (q - (t - mb)).toNat
            (t + bias).toNat * 2 ^ mb + (f - 2 ^ mb)
        s + min pat maxPat
  | .inf n => (if n then 2 ^ (eb + mb) else 0) + maxPat
  | .nan => 0

/-- E4M3 of VCVT (R169): saturating; a NaN becomes S.1111.111 with the sign of its pattern. -/
def cvtE4M3 (neg : Bool) (v : FVal) : Nat :=
  match v with
  | .nan => (if neg then 128 else 0) + 127
  | w => rndSmall 4 3 7 0x7E w
/-- E5M2 of VCVT (R169): finite values saturate, infinities stay. -/
def cvtE5M2 (neg : Bool) (v : FVal) : Nat :=
  match v with
  | .nan => (if neg then 128 else 0) + 127
  | .inf n => (if n then 128 else 0) + 124
  | w => rndSmall 5 2 15 0x7B w

/-- A permutation of 0 .. n-1, as the free pairing order must be. -/
def isPerm (n : Nat) (l : List Nat) : Bool := decide (l.length = n) && (List.range n).all fun i => l.contains i

/-- One level of a pairwise tree: neighbours combined, an odd one carried up. -/
def pairUp {α : Type} (f : α → α → α) : List α → List α
  | a :: b :: r => f a b :: pairUp f r
  | l => l

/-- A tree of `fuel` levels over the terms. -/
def treeOf {α : Type} (f : α → α → α) (z : α) : Nat → List α → α
  | 0, l => l.foldl f z
  | n + 1, l =>
    match l with
    | [] => z
    | [a] => a
    | _ => treeOf f z n (pairUp f l)

/-- The terms in the free order of that use, or as given where the free value is no permutation (R74). -/
def reorder {α : Type} (ord : List Nat) (l : List α) : List α :=
  if isPerm l.length ord then ord.filterMap fun i => l[i]? else l

/-- FP32 addition of two accumulator values under rnd32. -/
def addRnd (a b : FVal × FFlags) : FVal × FFlags :=
  let (s, g) := a.1.add b.1
  let (r, h) := rnd32 s
  (acc32 r, a.2 ||| b.2 ||| g ||| h)

/-- IEEE comparison of VCMP and CMPCNT (Table 3.2): condition 0 LT, 1 LE, 2 EQ, 3 NE, 4 GE, 5 GT. -/
def condOf (c : Nat) (o : Option Int) : Bool :=
  match o with
  | none => c == 3
  | some s =>
    match c with
    | 0 => decide (s < 0) | 1 => decide (s ≤ 0) | 2 => decide (s = 0) | 3 => decide (s ≠ 0) | 4 => decide (0 ≤ s)
    | _ => decide (0 < s)

end Sys2Proof.Machine
end

