-- ==== Sys2Proof/Machine/PenOps.lean ====
section
/-! DEFINITION. The Pens: unit masks, pairings, the arithmetic of one issue, slots and flags, the shadow and the switch
(spec 03: R53 to R79; spec 04: R80 to R93). -/

namespace Sys2Proof.Machine

/-! ### Pairings (Tables 3.2 and 3.3) -/

def int8Fmt (f : Nat) : Bool := f == 0 || f == 1
def int4Fmt (f : Nat) : Bool := f == 2 || f == 3
def fp8Fmt (f : Nat) : Bool := f == 4 || f == 5
/-- E4M3, E5M2, MXFP6 and MXFP4 elements of the Microscaling formats. -/
def mxfpFmt (f : Nat) : Bool := decide (8 ≤ f) && decide (f ≤ 12)
/-- BF16 with BF16, or FP16 with FP16. -/
def halfPair (fw fx : Nat) : Bool := (fw == 6 && fx == 6) || (fw == 7 && fx == 7)
/-- Two elements per lane (R63). -/
def twoElem (op fw fx : Nat) : Bool := op == 0 && ((int4Fmt fw && int4Fmt fx) || (fw == 12 && fx == 12))

/-- The combination is one that Table 3.3 lists (R62). -/
def pairOk (op cond fw fx : Nat) : Bool :=
  let plain := (int8Fmt fw && int8Fmt fx) || (fp8Fmt fw && fp8Fmt fx) || halfPair fw fx
  match op with
  | 0 => plain || (int4Fmt fw && (int4Fmt fx || int8Fmt fx)) || (mxfpFmt fw && mxfpFmt fx) || (fw == 13 && fx == 13)
  | 5 => fw == 14 && fx == 14
  | 6 => plain && decide (cond ≤ 5)
  | 7 => false
  | _ => plain

/-- The accumulator is FP32 (R65). -/
def fltAcc (op fx : Nat) : Bool := (fmtFloat fx) && op != 6

/-! ### Terms, trees and the MX scale (R65, R69) -/

/-- A rounded value with the flags raised so far. -/
def rndF (p : FVal × FFlags) : FVal × FFlags :=
  let (r, h) := rnd32 p.1
  (val32 r, p.2 ||| h)
def nanFlag (a b : FVal) : FFlags := if a.isNan || b.isNan then fNANIN else 0

/-- The floating term of one pair of elements; MXINT8 elements are integers and stay exact. -/
def termF (op fw fx : Nat) (w x : Nat) : FVal × FFlags :=
  let a := elemVal fw w
  let b := elemVal fx x
  let n := nanFlag a b
  let d := b.sub a
  match op with
  | 0 => let (p, g) := a.mul b
    if fx = 13 then (p, n ||| g) else rndF (p, n ||| g)
  | 1 => let (r, g) := rndF (d.1, n ||| d.2)
    (r.abs, g)
  | 2 => let (r, g) := rndF (d.1, n ||| d.2)
    let (p, h) := r.mul r
    rndF (p, g ||| h)
  | _ => let (s, g) := b.add a
    rndF (s, n ||| g)

/-- The integer term, with NANIN of a comparison. -/
def termI (op cond fw fx : Nat) (w x : Nat) : Int × FFlags :=
  let a := elemVal fw w
  let b := elemVal fx x
  match op with
  | 0 => (a.toInt * b.toInt, 0)
  | 1 => (|b.toInt - a.toInt|, 0)
  | 2 => ((b.toInt - a.toInt) * (b.toInt - a.toInt), 0)
  | 5 => (((List.range 8).filter fun k => Nat.testBit w k != Nat.testBit x k).length, 0)
  | 6 => (if condOf cond (b.cmp a) then 1 else 0, nanFlag a b)
  | _ => (b.toInt + a.toInt, 0)

/-- The elements that a lane of the activation carries (R156), and those of a weight register (R80). -/
def laneElems (two : Bool) (fx : Nat) (x : W32) : List Nat :=
  if two then [bits x 3 0, bits x 7 4] else if fx = 6 then [bits x 31 16] else [bits x 15 0]
def cellElems (two : Bool) (w : BitVec 16) : List Nat := if two then [bits w 3 0, bits w 7 4] else [w.toNat]

/-- The exact sum of a lane's terms. -/
def laneF (op fw fx : Nat) (ws xs : List Nat) : FVal × FFlags :=
  (List.zipWith (termF op fw fx) ws xs).foldl (fun s t => let (v, g) := s.1.add t.1
    (v, s.2 ||| t.2 ||| g)) (.fin true 0 0, 0)
def laneI (op cond fw fx : Nat) (ws xs : List Nat) : Int × FFlags :=
  (List.zipWith (termI op cond fw fx) ws xs).foldl (fun s t => (s.1 + t.1, s.2 ||| t.2)) (0, 0)

/-- Identities of Table 3.4. -/
def identF (op : Nat) : FVal := if op = 3 then .inf false else if op = 4 then .inf true else FVal.zero
def identI (op : Nat) : Int := if op = 3 then 2 ^ 31 - 1 else if op = 4 then -(2 ^ 31) else 0

/-- The row tree over FP32 terms, in the free pairing order `ord`. -/
def treeF (op fx depth : Nat) (ord : List Nat) (ts : List (FVal × FFlags)) : FVal × FFlags :=
  let flags := ts.foldl (fun g t => g ||| t.2) 0
  if op = 3 then (ts.foldl (fun m t => FVal.min m t.1) (identF 3), flags)
  else if op = 4 then (ts.foldl (fun m t => FVal.max m t.1) (identF 4), flags)
  else if fx = 13 then (ts.foldl (fun m t => (m.add t.1).1) FVal.zero, flags)
  else treeOf addRnd (FVal.zero, 0) depth (reorder ord ts)
def treeI (op : Nat) (ts : List (Int × FFlags)) : Int × FFlags :=
  let f : Int → Int → Int := if op = 3 then min else if op = 4 then max else (· + ·)
  (ts.foldl (fun s t => (f s.1 t.1, s.2 ||| t.2)) (identI op, 0))

/-- mxscale of R65. -/
def mxScale (fx : Nat) (sw sx : Byte) (t : FVal × FFlags) : FVal × FFlags :=
  if sw = 0xFF ∨ sx = 0xFF then (.nan, t.2 ||| fNANIN)
  else
    let k : Int := (sw.toNat : Int) + sx.toNat - 254 - (if fx = 13 then 12 else 0)
    rndF (t.1.scale k, t.2)

/-- combine of R65 on an FP32 slot: the new pattern and the flags of the combine. -/
def combineF (op : Nat) (init : Bool) (acc t : W32) : W32 × FFlags :=
  let a := if init then identF op else acc32 acc
  if op = 3 then ((rnd32 (a.min (val32 t))).1, 0)
  else if op = 4 then ((rnd32 (a.max (val32 t))).1, 0)
  else let (s, g) := a.add (val32 t)
    let (r, h) := rnd32 s
    (r, g ||| h)
/-- combine of R65 on an INT32 slot. -/
def combineI (op : Nat) (init : Bool) (acc : W32) (t : Int) : W32 × FFlags :=
  let a := if init then identI op else acc.toInt
  if op = 3 then (BitVec.ofInt 32 (min a t), 0)
  else if op = 4 then (BitVec.ofInt 32 (max a t), 0)
  else (BitVec.ofInt 32 (satInt 32 (a + t)), if satInt 32 (a + t) = a + t then 0 else fSAT)

/-! ### Units (R83, R92, R167) -/

/-- Units that a mask names, in ascending order. -/
def unitsOf (fold : Bool) (m : W64) : List Nat := (List.range (if fold then 8 else 32)).filter (bit m)
/-- Pens of a unit. -/
def pensOf (fold : Bool) (u : Nat) : List Nat := if fold then (List.range 4).map (4 * u + ·) else [u]
/-- The mask names a Pen of a joined Fold, or a Fold that is not joined (R83). -/
def badUnits (folds : BitVec 8) (fold : Bool) (us : List Nat) : Bool :=
  us.any fun u => if fold then !folds.getLsbD u else folds.getLsbD (u / 4)
/-- Rows and columns of a unit. -/
def unitDim (fold : Bool) : Nat := if fold then 32 else 16
/-- Pen and cell that hold row i, column j of a unit. -/
def cellAt (fold : Bool) (u i j : Nat) : Nat × Nat :=
  if fold then (4 * u + 2 * (i / 16) + j / 16, 16 * (i % 16) + j % 16) else (u, 16 * i + j)
/-- Pen and row whose row scale serves row i of a unit. -/
def scaleAt (fold : Bool) (u i : Nat) : Nat × Nat := if fold then (4 * u + 2 * (i / 16), i % 16) else (u, i)
/-- Lane of the vector register that lane j of a unit takes under SPLIT (R83). -/
def splitLane (fold : Bool) (u j : Nat) : Nat := if fold then 32 * (u % 8) + j else 16 * (u % 16) + j

def Pens.pen (p : Pens) (n : Nat) : Pen := Table.get p.pens Pen.reset n
def Pens.setPen (p : Pens) (n : Nat) (v : Pen) : Pens := { p with pens := Table.set p.pens Pen.reset n v }
def Pens.modPen (p : Pens) (n : Nat) (f : Pen → Pen) : Pens := p.setPen n (f (p.pen n))
/-- The 32 bits of slot s, row i of a unit. -/
def Pens.slotVal (p : Pens) (fold : Bool) (u i s : Nat) : W32 :=
  let (n, k) := cellAt fold u i s
  Table.get (p.pen n).acc 0 k
def Pens.weight (p : Pens) (fold : Bool) (u i j : Nat) : BitVec 16 :=
  let (n, k) := cellAt fold u i j
  Table.get (p.pen n).w 0 k
def Pens.rowScale (p : Pens) (fold : Bool) (u i : Nat) : Byte :=
  let (n, k) := scaleAt fold u i
  Table.get (p.pen n).sw 0x7F k

/-- State of a unit's shadow: that of its Pen; for a Fold FULL when all four are, and LOADING or ARMED when one is. -/
def Pens.shadowOf (p : Pens) (fold : Bool) (u : Nat) : Shadow :=
  let l := (pensOf fold u).map fun n => (p.pen n).shadow
  if l.all (· == .full) then .full
  else if l.any (· == .loading) then .loading
  else if l.any (· == .armed) then .armed
  else .empty

/-- H to W and the shadow scales to the scales, in one Pen (R89). -/
def Pen.switch (p : Pen) : Pen := { p with w := p.h, sw := p.sh, shadow := .empty }
/-- The switch of a unit: one in EMPTY is unchanged. -/
def Pens.switchUnit (p : Pens) (fold : Bool) (u : Nat) : Pens :=
  if p.shadowOf fold u = .full then (pensOf fold u).foldl (fun p n => p.modPen n Pen.switch) p else p

/-- Columns of Table 3.7. -/
def latencyCol (fx : Nat) : Nat :=
  if int8Fmt fx || int4Fmt fx || fx == 14 then 0 else if fp8Fmt fx then 1 else if fx == 6 || fx == 7 then 2 else if fx == 13 then 4 else 3
/-- Latency L of an issue in a Pen, and in a Fold (Table 3.7). -/
def latency (op fx : Nat) (fold : Bool) : Nat :=
  let col := latencyCol fx
  let pen := match op with
    | 0 => [9, 13, 14, 14, 12].getD col 0
    | 1 => [9, 14, 15].getD col 0
    | 2 => [10, 16, 17].getD col 0
    | 5 => 9
    | 6 => [9, 10, 10].getD col 0
    | _ => [9, 10, 11].getD col 0
  if !fold then pen else if col = 0 then pen + 1 else if op ≤ 2 then pen + 2 else pen + 1
/-- Cycles from an issue to the next that the same Pen accepts (Table 3.3, R77). -/
def interval (fx : Nat) : Nat := if fx = 6 ∨ fx = 7 then 2 else 1

/-- The ramp lets a Pen take an issue in grid cycle `now` (R100). -/
def Pen.rampOk (p : Pen) (now : Nat) : Bool :=
  decide ((p.issued.filter fun t => decide (now < t + 4)).length + 1 ≤ (p.level + 7) / 8)
/-- A Pen has an issue in flight (PEN_BUSY). -/
def Pens.busy (p : Pens) (n : Nat) : Bool := p.flights.any fun f => f.pens.contains n
/-- An issue under way writes slot s of one of the Pens. -/
def Pens.slotBusy (p : Pens) (fold : Bool) (pens : List Nat) (s : Nat) : Bool :=
  p.flights.any fun f => (f.fold != fold || f.slot == s) && f.pens.any pens.contains
/-- The Pens take an issue whose writes end with cycle `due` in grid cycle `now`: their intervals are over, and the write
follows every earlier one (R77, R79). -/
def Pens.accept (p : Pens) (now due : Nat) (pens : List Nat) : Bool :=
  (pens.all fun n => decide ((p.pen n).next ≤ now)) && p.flights.all fun f => decide (f.due < due) || !(f.pens.any pens.contains)
/-- An issue of an earlier instruction than number `num` has still to write slot s of one of the Pens (R77). -/
def Pens.slotOwed (p : Pens) (num : Nat) (fold : Bool) (pens : List Nat) (s : Nat) : Bool :=
  (p.flights.any fun f => decide (f.num < num) && (f.fold != fold || f.slot == s) && f.pens.any pens.contains) ||
  (match p.walk with
   | none => false
   | some w => decide (w.num < num) && w.todo.any fun (n, q) =>
      (fold || (w.conv.slot0 + n) % 16 == s) && pens.contains (w.first + q))
/-- A front lands in the core, so no issue enters (R96). -/
def Pens.held (p : Pens) : Bool := match p.front with
  | some f => f.taken && !f.dead
  | none => false

/-! ### One issue (R65) -/

/-- What one issue carries. -/
structure IssueArgs where
  op : Nat
  cond : Nat
  fw : Nat
  fx : Nat
  init : Bool
  slot : Nat
  fold : Bool
  /-- lane-valid bit and activation lane j of a unit, and its MX scale -/
  valid : Nat → Nat → Bool
  x : Nat → Nat → W32
  sx : Nat → Byte

/-- The result of the row tree of row i of unit u, as an FP32 pattern or an integer, with its flags. -/
def rowF (p : Pens) (a : IssueArgs) (ord : List Nat) (u i : Nat) : W32 × FFlags :=
  let two := twoElem a.op a.fw a.fx
  let ts := (List.range (unitDim a.fold)).map fun j =>
    if a.valid u j then laneF a.op a.fw a.fx (cellElems two (p.weight a.fold u i j)) (laneElems two a.fx (a.x u j))
    else (identF a.op, 0)
  let t := treeF a.op a.fx (if a.fold then 5 else 4) ord ts
  let t := if fmtMx a.fx then mxScale a.fx (p.rowScale a.fold u i) (a.sx u) t else t
  ((rnd32 t.1).1, t.2)
def rowI (p : Pens) (a : IssueArgs) (u i : Nat) : Int × FFlags :=
  let two := twoElem a.op a.fw a.fx
  treeI a.op ((List.range (unitDim a.fold)).map fun j =>
    if a.valid u j then laneI a.op a.cond a.fw a.fx (cellElems two (p.weight a.fold u i j)) (laneElems two a.fx (a.x u j))
    else (identI a.op, 0))

/-- Rows of every named unit, as (unit, row). -/
def rowsOf (fold : Bool) (us : List Nat) : List (Nat × Nat) :=
  us.flatMap fun u => (List.range (unitDim fold)).map fun i => (u, i)

/-- The issue as it travels down the pipeline, with the weights sampled (R81). -/
def flightOf (p : Pens) (a : IssueArgs) (num bundle free now : Nat) (us : List Nat) : Flight :=
  let fl := fltAcc a.op a.fx
  let at_ := fun u i => (cellAt a.fold u i a.slot).1
  let ord := fun u i => Config.freeOrder 2 (1024 * free + 32 * u + i)
  let f := (rowsOf a.fold us).map fun (u, i) => (u, i, rowF p a (ord u i) u i)
  let g := (rowsOf a.fold us).map fun (u, i) => (u, i, rowI p a u i)
  { num := num, bundle := bundle, due := now + latency a.op a.fx a.fold - 1, pens := us.flatMap (pensOf a.fold),
    op := a.op, fl := fl, init := a.init, slot := a.slot,
    fold := a.fold,
    rows := if fl then f.map fun (u, i, v) => (u, i, v.1) else [],
    irows := if fl then [] else g.map fun (u, i, v) => (u, i, v.1),
    flags := if fl then f.map fun (u, i, v) => (at_ u i, v.2) else g.map fun (u, i, v) => (at_ u i, v.2) }

/-- A Pen takes an issue in grid cycle `now`. -/
def Pen.takes (now step : Nat) (p : Pen) : Pen := { p with issued := (now :: p.issued).take 4, next := now + step }
/-- The issue enters the Pens in grid cycle `now`, and is counted (R77, R112). -/
def Pens.enter (p : Pens) (f : Flight) (now step : Nat) : Pens :=
  let p := { p with flights := p.flights ++ [f], issueCnt := p.issueCnt + BitVec.ofNat 64 f.pens.length }
  f.pens.foldl (fun p n => p.modPen n (Pen.takes now step)) p
/-- R100 alone holds back an issue of these Pens in grid cycle `now`. -/
def Pens.bar (p : Pens) (now : Nat) (pens : List Nat) : Pens := pens.foldl (fun p n => p.modPen n fun q => { q with barred := some now }) p

/-- Kind of a Pen issue in Table 13.2. -/
def issueKind (op fw fx : Nat) : Nat := if fx = 6 ∨ fx = 7 then 2 else if twoElem op fw fx then 1 else 0

/-! ### The slot write (R70, R72, R76) -/

/-- One row written to its slot: the flags of the combine go to the Pen that holds the slot. -/
def Pens.writeRow (p : Pens) (f : Flight) (u i : Nat) (g : W32 → W32 × FFlags) : Pens × (Nat × FFlags) :=
  let (n, k) := cellAt f.fold u i f.slot
  let q := p.pen n
  let (v, h) := g (Table.get q.acc 0 k)
  (p.setPen n { q with acc := Table.set q.acc 0 k v, last := Table.put q.last (f.slot % 16) (f.op, f.fl) }, (n, h))
/-- The slots after the issue's writes, and the conditions by Pen. -/
def Pens.landFlight (p : Pens) (f : Flight) : Pens × List (Nat × FFlags) :=
  let step := fun (s : Pens × List (Nat × FFlags)) (u i : Nat) (g : W32 → W32 × FFlags) =>
    let (p, c) := s.1.writeRow f u i g
    (p, c :: s.2)
  let s := f.rows.foldl (fun s (u, i, t) => step s u i fun a => combineF f.op f.init a t) (p, f.flags)
  f.irows.foldl (fun s (u, i, t) => step s u i fun a => combineI f.op f.init a t) s

/-- Flag bits and Pen mask of conditions by Pen. -/
def condBits (l : List (Nat × FFlags)) : FFlags × W32 :=
  l.foldl (fun s x => if x.2 = 0 then s else (s.1 ||| x.2, s.2 ||| BitVec.ofNat 32 (2 ^ x.1))) (0, 0)
/-- PEN_ARITH_FLAGS with conditions added. -/
def Pens.raise (p : Pens) (c : FFlags × W32) : Pens :=
  { p with flags := p.flags ||| BitVec.ofNat 64 (c.1.toNat + c.2.toNat * 2 ^ 32) }
/-- PEN_TRAP_INFO of TRAP_ARITH. -/
def arithInfo (c : FFlags × W32) : W64 := BitVec.ofNat 64 (c.1.toNat + c.2.toNat * 2 ^ 32)

/-! ### Loads (R86, R142) -/

/-- Bytes of one row of weight-register contents: n contents, without an MX scale. -/
def rowBytes (wf n : Nat) : Nat :=
  match fmtBits wf with
  | 16 => 2 * n
  | 6 => n * 6 / 8
  | _ => n
/-- Content j of a row packed under R58. -/
def rowElem (wf : Nat) (row : List Byte) (j : Nat) : BitVec 16 :=
  let x := ofBytes row
  match fmtBits wf with
  | 16 => BitVec.ofNat 16 (x / 2 ^ (16 * j))
  | 6 => BitVec.ofNat 16 (x / 2 ^ (6 * j) % 64)
  | _ => BitVec.ofNat 16 (x / 2 ^ (8 * j) % 256)

/-- A tile lands in the shadows: cells and row scales, by Pen; the Pens are FULL. -/
def Pens.landTile (p : Pens) (pens : List Nat) (cells : List (Nat × Nat × BitVec 16)) (scales : List (Nat × Nat × Byte)) :
    Pens :=
  let p := cells.foldl (fun p (n, k, v) => p.modPen n fun q => { q with h := Table.set q.h 0 k v }) p
  let p := scales.foldl (fun p (n, r, v) => p.modPen n fun q => { q with sh := Table.set q.sh 0x7F r v }) p
  pens.foldl (fun p n => p.modPen n fun q => { q with shadow := .full }) p

namespace Device

def modPens (d : Device) (c : Nat) (f : Pens → Pens) : Device := d.modCore c fun k => { k with pn := f k.pn }

/-- No Pen issue and no Trough stream cycle of core `c` enters: a thermal trip (R428), or a balance that is spent (R414). -/
def withheld (d : Device) (c : Nat) : Bool :=
  d.power.therm == 2 || (match Table.find d.power.balances c with
    | some b => decide (b ≤ (d.scaled ((d.core c).work / 32) : Int))
    | none => false)
/-- A front or a burst holds core `c` (R96, R135, R244). -/
def copyHeld (d : Device) (c : Nat) : Bool := (d.core c).pn.held || (d.slice c).bursting

/-- What keeps an issue of core `c` from its Pens in this cycle, and under which cause: the copy hold, the controller, the
intervals and latencies of the Pens, and last the ramp, which then notes it (R77, R79, R96, R100, R102, R414). -/
def penHold (d : Device) (c : Nat) (pens : List Nat) (due : Nat) : Option (Device × Option Cause) :=
  let p := (d.core c).pn
  let now := d.power.cycles
  if d.copyHeld c then some (d, some .copy)
  else if d.withheld c then some (d, some .power)
  else if !p.accept now due pens then some (d, none)
  else if pens.any fun n => !(p.pen n).rampOk now then some (d.modPens c fun p => p.bar now pens, some .power)
  else none

end Device

end Sys2Proof.Machine
end

