-- ==== Sys2Proof/Machine/TroughOps.lean ====
section
/-! DEFINITION. The Trough: books and their decode, descriptors, decode tables, activation banks and the arithmetic of a
pass (spec 05: R113 to R142). -/

namespace Sys2Proof.Machine

/-! ### Books (R118 to R120) -/

def Trough.book (t : Trough) (b : Nat) : Book := Table.get t.books Book.reset b
def Trough.setBook (t : Trough) (b : Nat) (v : Book) : Trough := { t with books := Table.set t.books Book.reset b v }
/-- Element e of entry n of a book: its raw byte, and its exact value. -/
def Book.raw (k : Book) (n e : Nat) : Nat := bits (Table.get k.entries 0 n) (8 * e + 7) (8 * e)
def Book.val (k : Book) (n e : Nat) : FVal := elemVal k.efmt (k.raw n e)
/-- A value times the book scale (R60, R118). -/
def Book.scaled (k : Book) (v : FVal) : FVal := if k.bscale = 0xFF then .nan else v.scale ((k.bscale.toNat : Int) - 127)

/-- Books that a format names. -/
def booksOf (fmt b1 b2 : Nat) : List Nat := match fmt with | 0 => [b1] | 1 => [b1, b2] | 2 => [b1] | _ => []
/-- The BOOK and WIN fields are as the format asks: unused ones zero, windows in range (R130). -/
def bookFieldsOk (fmt b1 w1 b2 w2 : Nat) : Bool :=
  match fmt with
  | 0 => w1 == 0 && b2 == 0 && w2 == 0
  | 1 => decide (w1 ≤ 15) && decide (w2 ≤ 15)
  | 2 => b2 == 0 && w2 == 0
  | _ => b1 == 0 && w1 == 0 && b2 == 0 && w2 == 0
/-- The first named book that is not VALID or has another owner: PEN_TRAP_INFO of CODEBOOK_INVALID (R120). -/
def Trough.badBook (t : Trough) (ctx : Nat) (bs : List Nat) : Option W64 :=
  (bs.find? fun b => !(t.book b).valid || (t.book b).owner != ctx).map fun b =>
    BitVec.ofNat 64 (b + (t.book b).owner * 256)
/-- A named book is being loaded, so the reader waits (R123). -/
def Trough.bookLoading (t : Trough) (bs : List Nat) : Bool := bs.any fun b => (t.book b).loading

/-- Entries from `first` onward take their values; the blocks written are good again. -/
def Book.put (k : Book) (first : Nat) (es : List W64) : Book :=
  { k with
    entries := es.zipIdx.foldl (fun t (e, i) => Table.set t 0 (first + i) e) k.entries,
    bad := k.bad.filter fun b => !(decide (first ≤ 4 * b) && decide (4 * b + 4 ≤ first + es.length)) }

/-! ### Codes (Table 5.1, R117) -/

/-- Bytes of a row of k elements. -/
def codeBytes (fmt k : Nat) : Nat := match fmt with | 0 => 3 * k / 16 | 1 => k / 4 | 2 => k / 4 | 3 => k / 2 | 4 => k | _ => k / 2
/-- What element j of a code row refers to: (book, entry, element) of one or two books. -/
def codeRefs (fmt b1 w1 b2 w2 row j : Nat) : List (Nat × Nat × Nat) :=
  match fmt with
  | 0 => [(b1, row / 2 ^ (12 * (j / 8)) % 4096, j % 8)]
  | 1 => [(b1, 256 * w1 + row / 2 ^ (16 * (j / 8)) % 256, j % 8), (b2, 256 * w2 + row / 2 ^ (16 * (j / 8) + 8) % 256, j % 8)]
  | 2 =>
    let h := 256 * w1 + row / 2 ^ (8 * (j / 4)) % 256
    [(b1, h / 2, 4 * (h % 2) + j % 4)]
  | _ => []

/-- The decoded element of PLDW: the entry's byte, or the stage sum rounded to EFMT, no scale applied (R142). -/
def Trough.decodeElem (t : Trough) (fmt b1 w1 b2 w2 row j : Nat) : BitVec 16 :=
  match codeRefs fmt b1 w1 b2 w2 row j with
  | [(b, n, e)] => BitVec.ofNat 16 ((t.book b).raw n e)
  | [(b, n, e), (c, m, f)] =>
    let k := t.book b
    let s := ((k.val n e).add ((t.book c).val m f)).1
    BitVec.ofNat 16 (match k.efmt with
      | 0 => ((satInt 8 s.toInt) % 256).toNat
      | 4 => (match s with
        | .nan => 127
        | v => rndSmall 4 3 7 0x7E v)
      | _ => (match s with
        | .nan => 127
        | v => rndSmall 5 2 15 0x7B v))
  | _ => 0

/-- A value with NANIN where it is a NaN that a pass consumes (R138). -/
def nanIn (v : FVal) : FVal × FFlags := (v, nanFlag v v)
/-- The exact value of weight j of a row (R118), with the conditions of its inputs and of its stage sum (Table 3.5). -/
def Trough.weight (t : Trough) (d : Desc) (row : Nat) (mx : List Byte) (j : Nat) : FVal × FFlags :=
  match d.fmt with
  | 3 => (elemVal 2 (row / 2 ^ (4 * j) % 16), 0)
  | 4 => (elemVal 0 (row / 2 ^ (8 * j) % 256), 0)
  | 5 =>
    let s := (mx.getD (j / 32) 0).toNat
    if s = 255 then nanIn .nan else ((elemVal 12 (row / 2 ^ (4 * j) % 16)).scale ((s : Int) - 127), 0)
  | _ => (codeRefs d.fmt d.book1 d.win1 d.book2 d.win2 row j).foldl (fun a (b, n, e) =>
      let v := nanIn ((t.book b).scaled ((t.book b).val n e))
      let (s, g) := a.1.add v.1
      (s, a.2 ||| v.2 ||| g)) (.fin true 0 0, 0)
/-- The unscaled integer of weight j, for the integer pairings. -/
def Trough.weightInt (t : Trough) (d : Desc) (row j : Nat) : Int :=
  match d.fmt with
  | 3 => (elemVal 2 (row / 2 ^ (4 * j) % 16)).toInt
  | 4 => (elemVal 0 (row / 2 ^ (8 * j) % 256)).toInt
  | _ => (codeRefs d.fmt d.book1 d.win1 d.book2 d.win2 row j).foldl (fun a (b, n, e) => a + ((t.book b).val n e).toInt) 0

/-! ### Descriptors (Table 5.3, R115, R130, R131) -/

/-- The descriptor in 32 bytes, and its reserved fields. -/
def descOf (x : Nat) : Desc :=
  let w : BitVec 256 := BitVec.ofNat 256 x
  let f := fun k m l => bits w (64 * k + m) (64 * k + l)
  { codeBase := f 0 25 0, fmt := f 0 28 26, op := f 0 30 29, acc := f 0 31 31 == 1, rows := f 0 47 32, k := f 0 62 48,
    abank := f 0 63 63, outBase := f 1 25 0, rsen := f 1 26 26 == 1, afmt := f 1 27 27, rsBase := f 1 57 32,
    book1 := f 2 2 0, book2 := f 2 6 4, win1 := f 2 12 8, win2 := f 2 20 16, mxsBase := f 2 57 32, ascale := f 3 7 0 }
def descReservedZero (x : Nat) : Bool :=
  let w : BitVec 256 := BitVec.ofNat 256 x
  let f := fun k m l => bits w (64 * k + m) (64 * k + l)
  [f 1 31 28, f 1 63 58, f 2 3 3, f 2 7 7, f 2 15 13, f 2 31 21, f 2 63 58, f 3 63 8].all (· == 0)

/-- Output words of a pass. -/
def Desc.outs (p : Desc) : Nat := if p.op = 0 then p.rows else if p.op = 1 then p.k else p.rows * p.k
/-- Every rule of R130 that needs no book and no Yard: bounds of R115, fields, windows, modes. -/
def Desc.fieldsOk (p : Desc) : Bool :=
  decide (p.fmt ≤ 5) && decide (p.op ≤ 2) && decide (64 ≤ p.k) && p.k % 64 == 0 && decide (1 ≤ p.rows) &&
  (if p.op = 1 then decide (p.k ≤ 2048) && decide (p.rows ≤ 16384) else decide (p.k ≤ 16384)) &&
  p.codeBase % 4 == 0 && p.outBase % 4 == 0 && p.rsBase % 4 == 0 &&
  bookFieldsOk p.fmt p.book1 p.win1 p.book2 p.win2 && (p.fmt == 5 || p.mxsBase == 0) &&
  !(p.rsen && p.op == 1) && !(p.afmt == 1 && p.op == 2)
/-- The pairing is one of Table 5.4 (R131). -/
def Trough.pairOk (t : Trough) (p : Desc) : Bool :=
  p.op == 2 || p.afmt == 0 ||
  (decide (p.fmt ≤ 4) && ((booksOf p.fmt p.book1 p.book2).all fun b => (t.book b).efmt == 0) &&
    (p.fmt != 1 || (t.book p.book1).bscale == (t.book p.book2).bscale))

/-! ### Banks and decode tables (R124 to R126) -/

def Trough.bank (t : Trough) (n : Nat) : Bank := Table.get t.banks Bank.reset n
/-- The tag of the set that a pass needs. -/
def Trough.tagOf (t : Trough) (p : Desc) : TableTag :=
  { fmt := p.fmt, book1 := p.book1, win1 := p.win1, book2 := p.book2, win2 := p.win2, gen1 := (t.book p.book1).gen,
    gen2 := if p.fmt = 1 then (t.book p.book2).gen else 0 }
/-- Blocks of a book (entry div 4) that the load of the set reads. -/
def tableBlocks (p : Desc) : List (Nat × Nat) :=
  match p.fmt with
  | 0 => (List.range 1024).map fun k => (p.book1, k)
  | 1 => ((List.range 64).map fun k => (p.book1, 64 * p.win1 + k)) ++ ((List.range 64).map fun k => (p.book2, 64 * p.win2 + k))
  | 2 => (List.range 32).map fun k => (p.book1, 32 * p.win1 + k)
  | _ => []
/-- A pass finds its set, or loads it into the set that the pass before it did not use; the number of a bad codebook
block's book otherwise. -/
def Trough.loadSet (t : Trough) (p : Desc) : Trough ⊕ Nat :=
  if 3 ≤ p.fmt then .inl t
  else
    let tag := t.tagOf p
    let book := decide (p.fmt = 0)
    if t.bookMode = book && t.tags.contains tag then .inl { t with tags := tag :: t.tags.erase tag }
    else match (tableBlocks p).find? fun (b, k) => (t.book b).bad.contains k with
      | some (b, _) => .inr b
      | none => .inl { t with tags := tag :: (if book || t.bookMode then [] else t.tags.take 1), bookMode := book }
/-- Sets that name a book are emptied. -/
def Trough.dropSets (t : Trough) (b : Nat) : Trough :=
  { t with tags := t.tags.filter fun g => !((booksOf g.fmt g.book1 g.book2).contains b) }
/-- The load generation of a book advances (R122); a wrap empties the sets that name it. -/
def Trough.advanceGen (t : Trough) (b : Nat) : Trough :=
  let k := t.book b
  let t := t.setBook b { k with gen := k.gen + 1 }
  if k.gen + 1 = 0 then t.dropSets b else t

/-! ### Rates (Table 5.5, R115, R132) -/

def streamRate (p : Desc) : Nat :=
  if p.op = 2 then 128 else match p.fmt with | 0 => 1024 | 1 => 2048 | 2 => 2048 | 3 => 1024 | 4 => 512 | _ => 960
/-- Stream cycle that takes weight j of row r. -/
def cycleOf (p : Desc) (r j : Nat) : Nat :=
  let rate := streamRate p
  if p.op = 1 then (if p.k ≤ rate then r / (rate / p.k) else r * ((p.k + rate - 1) / rate) + j / rate)
  else (r * p.k + j) / rate
/-- Stream cycles of a pass. -/
def streamCycles (p : Desc) : Nat := cycleOf p (p.rows - 1) (p.k - 1) + 1
/-- Bytes of code from CODE_BASE that stream cycle `k` reads: the first, and how many. -/
def streamSpan (p : Desc) (k : Nat) : Nat × Nat :=
  let n := codeBytes p.fmt p.k
  let rate := streamRate p
  let (lo, len) :=
    if p.op = 1 then
      if p.k ≤ rate then (k * (rate / p.k) * n, rate / p.k * n)
      else
        let m := (p.k + rate - 1) / rate
        (k / m * n + k % m * (rate * n / p.k), min (rate * n / p.k) (n - k % m * (rate * n / p.k)))
    else (k * rate * n / p.k, rate * n / p.k)
  (lo, min len (p.rows * n - lo))
/-- L_T: cycles from a code read to the result in the Yard (Table 5.6a). -/
def passLatency (p : Desc) : Nat := (if p.fmt ≤ 2 then 17 else 15) + (if p.op = 2 then 4 else 13)
/-- Cycles that the load of a set of decode tables takes (R125). -/
def reloadCycles (fmt : Nat) : Nat := if fmt = 0 then 64 else if fmt = 1 then 8 else 2
/-- The lowest row with a term in the stream cycle of weight j of row r (R140). -/
def firstRowOf (p : Desc) (r j : Nat) : Nat := if p.op = 1 then 0 else cycleOf p r j * streamRate p / p.k

/-! ### Arithmetic (R113, R136 to R138) -/

/-- What a pass reads for one row. -/
structure RowIn where
  code : Nat
  mx : List Byte
  rs : Nat
  /-- output words read under ACC -/
  out : List W32
  deriving Repr, Inhabited

/-- A product of a weight, with its conditions, and an activation. -/
def mulTerm (w : FVal × FFlags) (a : FVal) : FVal × FFlags :=
  let (p, g) := w.1.mul a
  rndF (p, w.2 ||| nanFlag a a ||| g)
/-- Sums terms that carry their stream cycle: a tree over each cycle's, added up in order. -/
def streamSum (ord : Nat → List Nat) (lo hi : Nat) (ts : List (Nat × (FVal × FFlags))) : FVal × FFlags :=
  (List.range (hi + 1 - lo)).foldl (fun s k =>
    addRnd s (treeOf addRnd (FVal.zero, 0) 11 (reorder (ord (lo + k)) ((ts.filter fun t => t.1 == lo + k).map (·.2)))))
    (FVal.zero, 0)
/-- The factor ASCALE (R113): `k` further powers of two. -/
def ascaled (p : Desc) (k : Int) (y : FVal × FFlags) : FVal × FFlags :=
  if p.ascale = 255 then (.nan, y.2 ||| fNANIN) else rndF (y.1.scale (k + (p.ascale : Int) - 127), y.2)
/-- Row scale and existing output word. -/
def finishOut (p : Desc) (rs : Nat) (old : W32) (y : FVal × FFlags) : W32 × FFlags :=
  let y := if p.rsen then (let (v, g) := y.1.mul (valBf16 rs)
    rndF (v, y.2 ||| g)) else y
  let y := if p.acc then (let (v, g) := y.1.add (acc32 old)
    rndF (v, y.2 ||| g)) else y
  ((rnd32 y.1).1, y.2)
/-- Element i of the activation bank. -/
def bankVal (k : Bank) (i : Nat) : FVal :=
  let x := (Table.get k.elems 0 i).toNat
  if k.int8 then elemVal 0 (x % 256) else valBf16 x
/-- The power of two of the book scale in an integer pairing; none for a scale of 0xFF. -/
def Trough.bookPower (t : Trough) (p : Desc) : Option Int :=
  match booksOf p.fmt p.book1 p.book2 with
  | [] => some 0
  | b :: _ => if (t.book b).bscale = 0xFF then none else some (((t.book b).bscale.toNat : Int) - 127)
/-- An exact integer sum as a result (R137). -/
def intResult (t : Trough) (p : Desc) (s : Int) : FVal × FFlags :=
  match t.bookPower p with
  | none => (.nan, fNANIN)
  | some k => ascaled p k (rndF (FVal.ofInt s, 0))

/-- Row r of a row-mode pass. -/
def rowOut (t : Trough) (p : Desc) (ord : Nat → List Nat) (r : Nat) (x : RowIn) : W32 × FFlags :=
  let bank := t.bank p.abank
  let js := List.range p.k
  finishOut p x.rs (x.out.getD 0 0) (if p.afmt = 1 then
    intResult t p (js.foldl (fun s j => s + t.weightInt p x.code j * (bankVal bank j).toInt) 0)
  else
    ascaled p 0 (streamSum ord (cycleOf p r 0) (cycleOf p r (p.k - 1))
      (js.map fun j => (cycleOf p r j, mulTerm (t.weight p x.code x.mx j) (bankVal bank j)))))
/-- Output j of a column-mode pass over the rows. -/
def colOut (t : Trough) (p : Desc) (ord : Nat → List Nat) (xs : List RowIn) (old : W32) (j : Nat) : W32 × FFlags :=
  let bank := t.bank p.abank
  let rs := List.range p.rows
  finishOut p 0 old (if p.afmt = 1 then
    intResult t p (rs.foldl (fun s r => s + t.weightInt p (xs.getD r default).code j * (bankVal bank r).toInt) 0)
  else
    ascaled p 0 (streamSum ord 0 (streamCycles p - 1) (rs.map fun r =>
      (cycleOf p r j, mulTerm (t.weight p (xs.getD r default).code (xs.getD r default).mx j) (bankVal bank r)))))
/-- The k outputs of row r of an expand-mode pass. -/
def expandOut (t : Trough) (p : Desc) (x : RowIn) : List (W32 × FFlags) :=
  (List.range p.k).map fun j =>
    let w := t.weight p x.code x.mx j
    finishOut p x.rs (x.out.getD j 0) (ascaled p 0 w)

namespace Device

def modTrough (d : Device) (c : Nat) (f : Trough → Trough) : Device := d.modCore c fun k => { k with tr := f k.tr }

/-- Reads of a pass, STREAM class; the stream cycles have made the port requests of the code. -/
def codeRead (d : Device) (c off n : Nat) : Device × (List Byte ⊕ Nat) := if n = 0 then (d, .inl []) else d.readBytes c 2 off n
def streamRead (d : Device) (c off n : Nat) : Device × (List Byte ⊕ Nat) := if n = 0 then (d, .inl []) else d.readYard c 2 off n
/-- The 32-bit words of a run of bytes. -/
def wordsOf (bs : List Byte) (n : Nat) : List W32 := (List.range n).map fun i => BitVec.ofNat 32 (ofBytes ((bs.drop (4 * i)).take 4))

/-- Where a pass is abandoned (R140): the failing row, the column of a failing output word, the stream cycle whose read meets
the error, and the block. -/
structure PassErr where
  row : Nat
  col : Nat
  cycle : Nat
  block : Nat
  deriving DecidableEq, Repr, Inhabited

/-- Reads what row r needs, up to a bad block. -/
def readRow (d : Device) (c : Nat) (p : Desc) (r : Nat) : Device × (RowIn ⊕ PassErr) :=
  let n := codeBytes p.fmt p.k
  let base := p.codeBase + r * n
  let at_ := fun (j b : Nat) => ({ row := firstRowOf p r j, col := 0, cycle := cycleOf p r j, block := b } : PassErr)
  let own := fun (b : Nat) => ({ row := r, col := 0, cycle := cycleOf p r (p.k - 1), block := b } : PassErr)
  match d.codeRead c base n with
  | (d, .inr b) => (d, .inr (at_ ((32 * b - base) * p.k / n) b))
  | (d, .inl code) =>
    let mxBase := p.mxsBase + r * (p.k / 32)
    match d.streamRead c mxBase (if p.fmt = 5 then p.k / 32 else 0) with
    | (d, .inr b) => (d, .inr (at_ (32 * (32 * b - mxBase)) b))
    | (d, .inl mx) =>
      match d.streamRead c (p.rsBase + 2 * r) (if p.rsen then 2 else 0) with
      | (d, .inr b) => (d, .inr (own b))
      | (d, .inl rs) =>
        let m := if p.acc then (if p.op = 0 then 1 else if p.op = 2 then p.k else 0) else 0
        match d.streamRead c (p.outBase + 4 * (if p.op = 0 then r else r * p.k)) (4 * m) with
        | (d, .inr b) => (d, .inr (own b))
        | (d, .inl out) => (d, .inl { code := ofBytes code, mx := mx, rs := ofBytes rs, out := wordsOf out m })
/-- Reads the rows in order, up to a failure. -/
def readRows (d : Device) (c : Nat) (p : Desc) : List Nat → Device × List RowIn × Option PassErr
  | [] => (d, [], none)
  | r :: l =>
    match d.readRow c p r with
    | (d, .inr e) => (d, [], some e)
    | (d, .inl x) =>
      let (d, xs, e) := readRows d c p l
      (d, x :: xs, e)

/-- Writes output words from word `i` of the output array onward. -/
def writeOuts (d : Device) (c : Nat) (p : Desc) (i : Nat) (ys : List (W32 × FFlags)) : Device :=
  (d.askPorts c 2 true (linesOf (p.outBase + 4 * i) (4 * ys.length)) [(c, 2)]).writeYard c (p.outBase + 4 * i)
    (ys.flatMap fun y => toBytes 4 y.1.toNat)

/-- Sets the flags of outputs. -/
def flagTrough (d : Device) (c : Nat) (ys : List (W32 × FFlags)) : Device :=
  d.modTrough c fun t => { t with flags := t.flags ||| (ys.foldl (fun g y => g ||| y.2) (0 : FFlags)).setWidth 32 }
/-- Sets the flags of outputs, and traps for the first that carries an enabled condition (R138, R139). -/
def raiseTrough (d : Device) (c bundle : Nat) (ys : List (W32 × FFlags)) : Device :=
  let ctl : FFlags := ((d.core c).tr.ctl).setWidth 5
  let d := d.flagTrough c ys
  match ys.find? fun y => y.2 &&& ctl ≠ 0 with
  | some y => d.trapCore c 0x0803 bundle .t (y.2.setWidth 64)
  | none => d

/-- The pass at the head is abandoned (R140): rows below the failing one are written, those that are written before the read
which meets the error with their traps, the passes behind it are discarded, and the core traps. -/
def abandonPass (d : Device) (c : Nat) (pass : Pass) (e : PassErr) (xs : List RowIn) (ord : Nat → List Nat) : Device :=
  let p := pass.d
  let t := (d.core c).tr
  let rest := t.passes.drop 1
  let rows := (if p.op = 1 then [] else List.range e.row).map fun r =>
    let x := xs.getD r default
    (r, if p.op = 0 then [rowOut t p ord r x] else expandOut t p x)
  let d := rows.foldl (fun d (r, y) => d.writeOuts c p (if p.op = 0 then r else r * p.k) y) d
  let early := rows.filter fun x => decide (cycleOf p x.1 (p.k - 1) + passLatency p ≤ e.cycle)
  let d := d.modTrough c fun t =>
    { t with passes := [], failed := true, failRow := if p.op = 1 then e.col else e.row,
             cnt := t.cnt - BitVec.ofNat 64 (pass.ran - (e.cycle + 1)) }
  let d := d.modSeq c fun q => (q.setSop pass.sd (BitVec.ofNat 64 (if p.op = 1 then 0 else e.row))).release pass.num
  let d := rest.foldl (fun d r => d.modSeq c fun q => (q.setSop r.sd 0).release r.num) d
  let d := (d.raiseTrough c pass.bundle (early.flatMap (·.2))).flagTrough c (rows.flatMap (·.2))
  d.trapCore c SPAD_UNCORR pass.bundle .t (BitVec.ofNat 64 (32 * e.block))

/-- The pass at the head runs to its end (R113, R134). -/
def runPass (d : Device) (c : Nat) (pass : Pass) : Device :=
  let p := pass.d
  let ord := fun k => Config.freeOrder 3 (65536 * d.free + k)
  let d := d.tookFree
  match (d.core c).tr.loadSet p with
  | .inr b =>
    let d := d.modTrough c fun t => t.setBook b { t.book b with valid := false }
    d.abandonPass c pass { row := 0, col := 0, cycle := 0, block := 0 } [] ord
  | .inl t =>
    let d := d.modTrough c fun _ => t
    match d.readRows c p (List.range p.rows) with
    | (d, xs, some e) => d.abandonPass c pass e xs ord
    | (d, xs, none) =>
      let m := if p.acc && p.op = 1 then p.k else 0
      match d.streamRead c p.outBase (4 * m) with
      | (d, .inr b) => d.abandonPass c pass { row := 0, col := (32 * b - p.outBase) / 4, cycle := streamCycles p - 1, block := b } xs ord
      | (d, .inl out) =>
        let old := wordsOf out m
        let ys := match p.op with
          | 0 => (List.range p.rows).map fun r => rowOut t p ord r (xs.getD r default)
          | 1 => (List.range p.k).map fun j => colOut t p ord xs (old.getD j 0) j
          | _ => xs.flatMap (expandOut t p)
        let d := (d.writeOuts c p 0 ys).modTrough c fun t =>
          { t with passes := t.passes.drop 1 }
        let d := d.modSeq c fun q =>
          (q.setSop pass.sd (BitVec.ofNat 64 (if p.op = 1 then p.k else p.rows))).release pass.num
        d.raiseTrough c pass.bundle ys

/-- The Trough of core `c` waits, under a cause or under none. -/
def tWaits (d : Device) (c : Nat) (cause : Option Cause) : Device :=
  d.modCore c fun k => { k with waits := match cause with
    | some v => Table.put k.waits 4 v
    | none => Table.erase k.waits 4 }
/-- One grid cycle of the Trough of core `c`: the first pass with a stream cycle left runs it, or waits: for a reload of its
tables, the copy hold, the controller, or the ports (R132, R133, R135, R141, R147, R414). -/
def troughCycle (d : Device) (c : Nat) : Device :=
  let t := (d.core c).tr
  match t.passes.find? fun p => decide (p.ran < streamCycles p.d) with
  | none => if (d.core c).waits.any (fun kv => kv.1 == 4) then d.tWaits c none else d
  | some p =>
    if 0 < t.reload then (d.modTrough c fun t => { t with reload := t.reload - 1 }).tWaits c (some .bankConflict)
    else if d.copyHeld c then d.tWaits c (some .copy)
    else if d.withheld c then d.tWaits c (some .power)
    else if (d.slice c).requests.any fun r => r.own && r.cls == 2 then d.tWaits c (some .bankConflict)
    else
      let (lo, n) := streamSpan p.d p.ran
      let d := ((d.askPorts c 2 true (linesOf (p.d.codeBase + lo) n)).spend c (d.weight 4)).tWaits c none
      d.modTrough c fun t => { t with
        cnt := t.cnt + 1,
        passes := t.passes.map fun x => if x.num == p.num then { x with ran := x.ran + 1 } else x }

end Device

/-- A load ends: the book takes its owner, format and scale, is VALID, and its generation advances (R122). -/
def Trough.landLoad (t : Trough) (l : BookLoad) : Trough :=
  (t.setBook l.book { (t.book l.book).put l.first l.entries with
    owner := l.context, efmt := l.efmt, bscale := l.bscale, valid := true, loading := false }).advanceGen l.book

end Sys2Proof.Machine
end

