-- ==== Sys2Proof/Machine/PenUnit.lean ====
section
/-! DEFINITION. The Pen and Fold instructions and the moving front (spec 04: R82 to R112; spec 06: R166, R167). -/

namespace Sys2Proof.Machine

/-- Units that S[SU] names. -/
def maskUnits (q : Sequencer) (w : W64) : List Nat := unitsOf (fUK w) (q.sop (fSU w))
/-- Some named unit's shadow is in one of the states. -/
def anyShadow (p : Pens) (fold : Bool) (us : List Nat) (l : List Shadow) : Bool := us.any fun u => l.contains (p.shadowOf fold u)

/-! ### PISSUE, PEN_SLOT_WRITE, PSWAP, PFOLD -/

/-- The operands of a PISSUE (R156, R167). -/
def issueArgs (q : Sequencer) (w : W64) : IssueArgs :=
  let fold := fUK w
  let split := bit w 45
  let sx := bits w 51 47
  let lane := fun u j => if split then splitLane fold u j else j
  let valid := q.pReg (bits w 24 22)
  let byteOf := fun (x : W64) k => BitVec.ofNat 8 (bits x (8 * k + 7) (8 * k))
  { op := bits w 27 25, cond := bits w 30 28, fw := bits w 34 31, fx := bits w 38 35, init := bit w 39, slot := bits w 44 40,
    fold := fold, valid := fun u j => valid.getLsbD (lane u j), x := fun u j => q.lane (fA w) (lane u j),
    sx := fun u =>
      if !split then byteOf (q.sop sx) 0
      else if fold then byteOf (q.sop sx) (u % 8)
      else byteOf (q.sop (sx + u % 16 / 8)) (u % 8) }

/-- PISSUE: one activation vector to every named unit; with SWAP the units switch after it is sampled (R65, R89). -/
def pissueBody (c : Nat) (x : QInstr) (d : Device) : Issue :=
  let w := x.word
  let k := d.core c
  let a := issueArgs k.sq w
  let us := maskUnits k.sq w
  let sx := bits w 51 47
  if !pairOk a.op a.cond a.fw a.fx || (!a.fold && decide (16 ≤ a.slot)) ||
      (if fmtMx a.fx then sx % 2 == 1 else sx != 0) then Device.illegal x
  else if us.isEmpty then .ok d
  else if badUnits k.pn.folds a.fold us then Device.illegal x
  else if bit w 46 && anyShadow k.pn a.fold us [.loading, .armed] then .wait d none
  else if !a.init && k.pn.slotBusy a.fold (us.flatMap (pensOf a.fold)) a.slot then .wait d none
  else
    let now := d.power.cycles
    let f := flightOf k.pn a x.num x.bundle d.free now us
    match d.penHold c f.pens f.due with
    | some (d, cause) => .wait d cause
    | none =>
      .fly ((d.tookFree.spend c (f.pens.length * d.weight (issueKind a.op a.fw a.fx))).modPens c fun p =>
        let p := p.enter f now (interval a.fx)
        if bit w 46 then us.foldl (fun p u => p.switchUnit a.fold u) p else p)
def execPissue (core : Nat) (s : State) : Res0 := onUnit 12 core s (Device.issue core .p 0x01 (pissueBody core))

/-- The issues write their slots: the Pens after it, the conditions, and with them those of each issue by its bundle. -/
def Pens.landAll (p : Pens) : List Flight → Pens × List (Nat × FFlags) × List (Nat × FFlags × W32)
  | [] => (p, [], [])
  | f :: r =>
    let (p, c) := p.landFlight f
    let (p, cs, bs) := Pens.landAll p r
    (p, c ++ cs, (f.bundle, condBits c) :: bs)
/-- The issues whose writes fall in the earliest cycle write their slots, once that cycle has ended (R76). Their conditions set
flags and raise one trap, with the bundle of the oldest write that carries an enabled one (R72). -/
def penSlotWrite (c : Nat) (d : Device) : Device :=
  match (d.core c).pn.flights with
  | [] => d
  | f :: r =>
    let due := r.foldl (fun m x => min m x.due) f.due
    if d.power.cycles ≤ due then d
    else
      let now := (f :: r).filter fun x => x.due == due
      let (p, conds, by_) := (d.core c).pn.landAll now
      let d := d.modCore c fun k => { k with pn := { p with flights := p.flights.filter fun x => x.due != due },
                                             sq := now.foldl (fun q x => q.release x.num) k.sq }
      let d := d.modPens c fun p => p.raise (condBits conds)
      match by_.find? fun b => b.2.1 &&& (d.core c).pn.ctl ≠ 0 with
      | some b => d.trapCore c 0x0803 b.1 .p (arithInfo (condBits conds))
      | none => d
def execPenSlotWrite (core : Nat) (s : State) : Res0 := onUnit 12 core s (penSlotWrite core)

/-- PSWAP: switches the named units (R89). -/
def pswapBody (c : Nat) (x : QInstr) (d : Device) : Issue :=
  let k := d.core c
  let us := maskUnits k.sq x.word
  let fold := fUK x.word
  if badUnits k.pn.folds fold us then Device.illegal x
  else if anyShadow k.pn fold us [.loading, .armed] then .wait d none
  else .ok (d.modPens c fun p => us.foldl (fun p u => p.switchUnit fold u) p)
def execPswap (core : Nat) (s : State) : Res0 := onUnit 12 core s (Device.issue core .p 0x02 (pswapBody core))

/-- PFOLD: joins or splits Folds once their Pens are idle (R93). -/
def pfoldBody (c : Nat) (x : QInstr) (d : Device) : Issue :=
  let k := d.core c
  let fs := unitsOf true (k.sq.sop (fSU x.word))
  let ps := fs.flatMap (pensOf true)
  let join := bit x.word 16
  if ps.any fun n => k.pn.busy n || (k.pn.pen n).shadow == .loading then .wait d none
  else if join && ps.any fun n => (k.pn.pen n).shadow == .armed then Device.illegal x
  else
    let m : BitVec 8 := fs.foldl (fun m f => m ||| BitVec.ofNat 8 (2 ^ f)) 0
    .ok (d.modPens c fun p => { p with folds := if join then p.folds ||| m else p.folds &&& ~~~m })
def execPfold (core : Nat) (s : State) : Res0 := onUnit 12 core s (Device.issue core .p 0x03 (pfoldBody core))

/-! ### PCONV (R107 to R110) -/

/-- The descriptor in 32 bytes. -/
def convOf (x : Nat) : Conv :=
  let w : BitVec 256 := BitVec.ofNat 256 x
  let f := fun k m l => bits w (64 * k + m) (64 * k + l)
  { base := f 0 25 0, inH := f 0 47 32, inW := f 0 63 48, inC := f 1 15 0, kh := f 1 23 16, kw := f 1 31 24,
    sy := f 1 35 32, sx := f 1 39 36, dy := f 1 43 40, dx := f 1 47 44, py := f 1 51 48, px := f 1 55 52, elem := f 1 59 56,
    outW := f 2 15 0, oy0 := f 2 31 16, ox0 := f 2 47 32, count := f 3 4 0, slot0 := f 3 8 5, acc := f 3 9 9 == 1,
    reserved := f 0 31 26 != 0 || f 1 63 60 != 0 || f 2 63 48 != 0 || f 3 63 10 != 0 }

def Conv.kt (v : Conv) : Nat := v.kh * v.kw * v.inC
def Conv.chunks (v : Conv) : Nat := (v.kt + 15) / 16
def Conv.esize (v : Conv) : Nat := if v.elem = 0 then 1 else 2
/-- Yard offset of lane j of chunk q at position n; none in the padding. -/
def Conv.at_ (v : Conv) (n k : Nat) : Option Nat :=
  let pos := v.oy0 * v.outW + v.ox0 + n
  let c := k % v.inC
  let iy : Int := ((pos / v.outW * v.sy + k / (v.inC * v.kw) * v.dy : Nat) : Int) - v.py
  let ix : Int := ((pos % v.outW * v.sx + k / v.inC % v.kw * v.dx : Nat) : Int) - v.px
  if iy < 0 ∨ (v.inH : Int) ≤ iy ∨ ix < 0 ∨ (v.inW : Int) ≤ ix then none
  else some (v.base + ((iy.toNat * v.inW + ix.toNat) * v.inC + c) * v.esize)
/-- Every issue of the walk: (position, chunk). -/
def Conv.issues (v : Conv) : List (Nat × Nat) :=
  (List.range v.count).flatMap fun n => (List.range v.chunks).map fun q => (n, q)
/-- Lanes of an issue: outside the kernel none, else the offset, or none in the padding. -/
def Conv.lanes (v : Conv) (n q : Nat) : List (Option (Option Nat)) :=
  (List.range 16).map fun j => if v.kt ≤ 16 * q + j then none else some (v.at_ n (16 * q + j))
/-- Every offset that the walk reads. -/
def Conv.reads (v : Conv) : List Nat := v.issues.flatMap fun (n, q) => (v.lanes n q).filterMap fun o => o.join

/-- Reads the lanes of one issue, LOAD class; none at a bad block, with its number. -/
def Device.convLanes (d : Device) (c n : Nat) : List (Option (Option Nat)) → Device × (List (Bool × W32) ⊕ Nat)
  | [] => (d, .inl [])
  | o :: r =>
    let (d, v) := match o with
      | some (some off) => (match d.readBytes c 3 off n with
        | (d, .inl bs) => (d, Sum.inl (true, BitVec.ofNat 32 (ofBytes bs)))
        | (d, .inr b) => (d, Sum.inr b))
      | some none => (d, .inl (true, (0 : W32)))
      | none => (d, .inl (false, (0 : W32)))
    match v with
    | .inr b => (d, .inr b)
    | .inl x =>
      match Device.convLanes d c n r with
      | (d, .inl t) => (d, .inl (x :: t))
      | (d, .inr b) => (d, .inr b)

/-- Input pixels that an issue touches: the runs that its address generator reads (R110). -/
def Conv.runs (v : Conv) (n q : Nat) : Nat :=
  (((List.range 16).filter fun j => decide (16 * q + j < v.kt) && (v.at_ n (16 * q + j)).isSome).map fun j =>
    (16 * q + j) / v.inC).eraseDups.length
/-- Cycles that the reads of an issue take beyond the first. -/
def Conv.extra (v : Conv) : List (Nat × Nat) → Nat
  | (n, q) :: _ => (v.runs n q + 3) / 4 - 1
  | [] => 0
/-- Lines that the lanes of an issue lie in. -/
def Conv.lines (v : Conv) (n q : Nat) : List Nat :=
  ((v.lanes n q).filterMap fun o => o.join.map fun a => a / 64).eraseDups

/-- PCONV: checks the descriptor and begins its walk, which takes the P slot to its last issue (R107 to R109). -/
def pconvBody (c : Nat) (x : QInstr) (d : Device) : Issue :=
  let w := x.word
  let k := d.core c
  let off := (k.sq.aReg (bits w 15 11)).toNat
  let first := bits w 20 16
  if !k.pn.fs20 || off % 32 ≠ 0 || !d.ownRange c off 32 then Device.illegal x
  else match d.readYard c 3 off 32 with
    | (e, .inr b) => .bad e SPAD_UNCORR (Device.blockInfo b)
    | (e, .inl bs) =>
      let v := convOf (ofBytes bs)
      let pens := (List.range v.chunks).map (first + ·)
      if v.reserved || (v.elem != 0 && v.elem != 7) || v.base % 4 != 0 ||
          [v.kh, v.kw, v.sy, v.sx, v.dy, v.dx].any (· == 0) || v.count == 0 || decide (16 < v.count) ||
          decide (32 - first < v.chunks) || !(v.reads.all fun o => d.ownRange c o v.esize) ||
          badUnits k.pn.folds false pens then .bad e ISA_ILLEGAL x.word
      else .fly (e.modPens c fun p => { p with
        walk := if v.issues.isEmpty then none
                else some { num := x.num, bundle := x.bundle, first := first, conv := v, todo := v.issues, extra := v.extra v.issues } })
def execPconv (core : Nat) (s : State) : Res0 := onUnit 12 core s (Device.issue core .p 0x04 (pconvBody core))

namespace Device

/-- The walk of core `c` ends at a bad block, and the core traps (Table 7.5). -/
def walkFails (d : Device) (c : Nat) (w : Walk) (b : Nat) : Device :=
  (d.modPens c fun p => { p with walk := none }).trapCore c SPAD_UNCORR w.bundle .p (blockInfo b)
/-- The P slot of core `c` waits, under a cause or under none. -/
def pWaits (d : Device) (c : Nat) (cause : Option Cause) : Device := d.modCore c fun k => k.waitsIn .p cause
/-- The walk makes the issue of position `n` and chunk `q`, and `rest` remain (R109). -/
def walkIssue (d : Device) (c : Nat) (w : Walk) (n q : Nat) (rest : List (Nat × Nat)) : Device :=
  let v := w.conv
  let now := d.power.cycles
  match (d.askPorts c 3 true (v.lines n q)).convLanes c v.esize (v.lanes n q) with
  | (d, .inr b) => d.walkFails c w b
  | (d, .inl ls) =>
    let a : IssueArgs :=
      { op := 0, cond := 0, fw := v.elem, fx := v.elem, init := !v.acc, slot := (v.slot0 + n) % 16, fold := false,
        valid := fun _ j => (ls.getD j (false, 0)).1, x := fun _ j => (ls.getD j (false, 0)).2, sx := fun _ => 0 }
    let f := flightOf (d.core c).pn a w.num w.bundle d.free now [w.first + q]
    let d := (d.tookFree.spend c (d.weight (issueKind 0 v.elem v.elem))).pWaits c none
    d.modPens c fun p => { p.enter f now (interval v.elem) with
      walk := if rest.isEmpty then none else some { w with todo := rest, extra := v.extra rest } }
/-- One grid cycle of the walk of core `c`: its next issue enters the Pen, or waits (R100, R109, R110, R135). -/
def walkCycle (d : Device) (c : Nat) : Device :=
  match (d.core c).pn.walk with
  | none => d
  | some w =>
    match w.todo with
    | [] => d
    | (n, q) :: rest =>
      let pen := [w.first + q]
      let p := (d.core c).pn
      if 0 < w.extra then
        (d.modPens c fun p => { p with walk := some { w with extra := w.extra - 1 } }).pWaits c (some .bankConflict)
      else if w.conv.acc && p.slotBusy false pen ((w.conv.slot0 + n) % 16) then d.pWaits c none
      else match d.penHold c pen (d.power.cycles + latency 0 w.conv.elem false - 1) with
        | some (d, cause) => d.pWaits c cause
        | none => d.walkIssue c w n q rest

end Device

/-! ### PDRN (R84, R85) -/

/-- Operator and type that govern a SUM drain: those of the last write of the slot in the lowest unit; open where nothing
has written it. -/
def sumKind (p : Pens) (fold : Bool) (u s : Nat) (free : W64) : Nat × Bool :=
  let n := if fold then 4 * u + s / 16 else u
  match Table.find (p.pen n).last (s % 16) with
  | some k => k
  | none => (bits free 2 0 % 7, bit free 3)
/-- The combination of one lane over the units (R85). -/
def sumLane (kind : Nat × Bool) (ord : List Nat) (vs : List W32) : W32 × FFlags :=
  let (op, fl) := kind
  if fl then
    let fs := vs.map acc32
    if op = 3 then ((rnd32 (fs.foldl FVal.min (identF 3))).1, 0)
    else if op = 4 then ((rnd32 (fs.foldl FVal.max (identF 4))).1, 0)
    else
      let (v, g) := treeOf addRnd (FVal.zero, 0) 5 (reorder ord (fs.map fun v => (v, (0 : FFlags))))
      ((rnd32 v).1, g)
  else
    let xs := vs.map (·.toInt)
    if op = 3 then (BitVec.ofInt 32 (xs.foldl min (identI 3)), 0)
    else if op = 4 then (BitVec.ofInt 32 (xs.foldl max (identI 4)), 0)
    else
      let t := xs.foldl (· + ·) 0
      (BitVec.ofInt 32 (satInt 32 t), if satInt 32 t = t then 0 else fSAT)

/-- PDRN: slots of the named units into a vector register, PLAIN or SUM. -/
def pdrnBody (c : Nat) (x : QInstr) (d : Device) : Issue :=
  let w := x.word
  let k := d.core c
  let fold := fUK w
  let us := maskUnits k.sq w
  let s := bits w 26 22
  let sum := bit w 27
  let m := if fold then 8 else 16
  let dim := unitDim fold
  if !fold && decide (16 ≤ s) then Device.illegal x
  else if us.isEmpty then .ok d
  else if badUnits k.pn.folds fold us || (!sum && decide ((us.map (· % m)).eraseDups.length ≠ us.length)) then Device.illegal x
  else if k.pn.slotOwed x.num fold (us.flatMap (pensOf fold)) s then .wait d none
  else if !sum then
    .ok (d.modSeq c fun q => q.setV (fA w) (vregOf fun l =>
      match us.find? fun u => u % m == l / dim with
      | some u => k.pn.slotVal fold u (l % dim) s
      | none => 0))
  else
    let kind := sumKind k.pn fold (us.headD 0) s (d.freeWord 4)
    let r := fun l => sumLane kind (Config.freeOrder 4 (64 * d.free + l)) (us.map fun u => k.pn.slotVal fold u l s)
    let flags := (List.range dim).foldl (fun g l => g ||| (r l).2) (0 : FFlags)
    let cond := condBits ((us.flatMap (pensOf fold)).map fun n => (n, flags))
    let d := (d.tookFree.modSeq c fun q => q.setV (fA w) (vregOf fun l => if l < dim then (r l).1 else 0)).modPens c
      fun p => p.raise cond
    if cond.1 &&& k.pn.ctl ≠ 0 then .bad d 0x0803 (arithInfo cond) else .ok d
def execPdrn (core : Nat) (s : State) : Res0 := onUnit 12 core s (Device.issue core .t 0x01 (pdrnBody core))

/-! ### PLDW (R86 to R90, R142, R172) -/

/-- Bytes of one row in the Yard, its MX scale included. -/
def pldwRow (w : W64) : Nat :=
  let n := unitDim (fUK w)
  if bit w 30 then codeBytes (bits w 32 31) n else rowBytes (bits w 29 26) n + b2n (fmtMx (bits w 29 26))
/-- Rows of the tile: (unit, row) with the Yard offset of each. -/
def pldwRows (q : Sequencer) (w : W64) (us : List Nat) : List ((Nat × Nat) × W64) :=
  let dim := unitDim (fUK w)
  let base := q.aReg (fAB w)
  let stride := q.sop (bits w 25 21)
  us.zipIdx.flatMap fun (u, m) => (List.range dim).map fun r => ((u, r), base + BitVec.ofNat 64 (dim * m + r) * stride)
/-- Reads the rows, LOAD class, up to a bad block. -/
def Device.readTile (d : Device) (c n : Nat) : List ((Nat × Nat) × W64) → Device × (List ((Nat × Nat) × List Byte) ⊕ Nat)
  | [] => (d, .inl [])
  | (ur, o) :: r =>
    match d.readYard c 3 o.toNat n with
    | (d, .inr b) => (d, .inr b)
    | (d, .inl bs) =>
      match Device.readTile d c n r with
      | (d, .inl t) => (d, .inl ((ur, bs) :: t))
      | (d, .inr b) => (d, .inr b)
/-- Every named unit's shadow takes a state. -/
def Pens.setShadow (p : Pens) (pens : List Nat) (v : Shadow) : Pens :=
  pens.foldl (fun p n => p.modPen n fun q => { q with shadow := v }) p

/-- The fields that the form does not use are zero, and the windows are in range (R130, R172). -/
def pldwFieldsOk (w : W64) : Bool :=
  let b1 := bits w 35 33
  let b2 := bits w 38 36
  let w1 := bits w 43 39
  let w2 := bits w 47 44
  if bit w 30 then bits w 29 26 == 0 && bookFieldsOk (bits w 32 31) b1 w1 b2 w2
  else bits w 29 26 != 15 && bits w 32 31 == 0 && bookFieldsOk 3 b1 w1 b2 w2

/-- PLDW: reads a tile from the Yard; PLDW_COMPLETE writes it to H. -/
def pldwBody (c : Nat) (x : QInstr) (d : Device) : Issue :=
  let w := x.word
  let k := d.core c
  let fold := fUK w
  let us := maskUnits k.sq w
  let dec := bit w 30
  let wf := bits w 29 26
  let cf := bits w 32 31
  let (b1, b2, w1, w2) := (bits w 35 33, bits w 38 36, bits w 43 39, bits w 47 44)
  let bs := if dec then booksOf cf b1 b2 else []
  let n := pldwRow w
  let rows := pldwRows k.sq w us
  let pens := us.flatMap (pensOf fold)
  if !pldwFieldsOk w then Device.illegal x
  else if us.isEmpty then .ok d
  else if badUnits k.pn.folds fold us || anyShadow k.pn fold us [.armed] || !(rows.all fun r => d.ownRange c r.2.toNat n) then
    Device.illegal x
  else if k.tr.bookLoading bs || anyShadow k.pn fold us [.loading] then .wait d none
  else match k.tr.badBook (d.ctxOf c) bs with
    | some info => .trap 0x0806 info
    | none =>
      if dec && cf == 1 && ((k.tr.book b1).efmt != (k.tr.book b2).efmt || (k.tr.book b1).bscale != (k.tr.book b2).bscale) then
        Device.illegal x
      else match d.readTile c n rows with
        | (d, .inr b) => .bad (d.modPens c fun p => p.setShadow pens .empty) SPAD_UNCORR (Device.blockInfo b)
        | (d, .inl t) =>
          let dim := unitDim fold
          let cells := t.flatMap fun ((u, r), row) => (List.range dim).map fun j =>
            let (p, q) := cellAt fold u r j
            (p, q, if dec then k.tr.decodeElem cf b1 w1 b2 w2 (ofBytes row) j else rowElem wf row j)
          let scales := if !dec && fmtMx wf then t.map fun ((u, r), row) =>
            let (p, q) := scaleAt fold u r
            (p, q, row.getD (n - 1) 0) else []
          .fly (d.modPens c fun p =>
            { p.setShadow pens .loading with loads := p.loads ++
              [{ num := x.num, bundle := x.bundle, pens := pens, cells := cells, scales := scales, books := bs }] })
def execPldw (core : Nat) (s : State) : Res0 := onUnit 12 core s (Device.issue core .m 0x08 (pldwBody core))

/-- PLDW_COMPLETE: the oldest load's last row is written to H, and its shadows are FULL (R87). -/
def pldwComplete (c : Nat) (d : Device) : Device :=
  match (d.core c).pn.loads with
  | [] => d
  | l :: r => d.modCore c fun k =>
      { k with pn := { k.pn.landTile l.pens l.cells l.scales with loads := r }, sq := k.sq.release l.num }
def execPldwComplete (core : Nat) (s : State) : Res0 := onUnit 12 core s (pldwComplete core)

/-! ### The moving front (R94 to R99, R249 to R251) -/

/-- PSKARM: arms the named units once their shadows are EMPTY (R95). -/
def pskarmBody (c : Nat) (x : QInstr) (d : Device) : Issue :=
  let w := x.word
  let k := d.core c
  let fold := fUK w
  let us := maskUnits k.sq w
  if badUnits k.pn.folds fold us || anyShadow k.pn fold us [.armed] then Device.illegal x
  else if us.isEmpty then .ok d
  else if anyShadow k.pn fold us [.loading, .full] then .wait d none
  else .ok (d.modPens c fun p =>
    { p.setShadow (us.flatMap (pensOf fold)) .armed with
      skidMask := if fold then (k.sq.sop (fSU w)).setWidth 32 &&& 0xFF else (k.sq.sop (fSU w)).setWidth 32,
      skidGen := BitVec.ofNat 8 (bits w 23 16), skidArmed := true, skidUnits := fold, skidHold := bit w 24 })
def execPskarm (core : Nat) (s : State) : Res0 := onUnit 12 core s (Device.issue core .m 0x09 (pskarmBody core))

/-- Rows in each beat, beats of rows, and beats of a whole front for P Pens (R94). -/
def frontRows (fmt pens : Nat) : Nat := max 1 (min pens (128 / rowBytes fmt 16))
def frontRowBeats (fmt pens : Nat) : Nat := (16 * pens + frontRows fmt pens - 1) / frontRows fmt pens
def frontBeats (fmt pens : Nat) : Nat := frontRowBeats fmt pens + (if fmtMx fmt then (16 * pens + 127) / 128 else 0)

/-- Beat number k of a front as tile contents: (cells, row scales). -/
def beatLands (f : Front) (k : Nat) (data : List Byte) : List (Nat × Nat × BitVec 16) × List (Nat × Nat × Byte) :=
  let np := f.pens.length
  let r := frontRows f.fmt np
  let b := rowBytes f.fmt 16
  let penOf := fun n => f.pens.getD (n % np) 0
  if k < frontRowBeats f.fmt np then
    (((List.range r).filter fun m => decide (k * r + m < 16 * np)).flatMap fun m =>
      let n := k * r + m
      (List.range 16).map fun j => (penOf n, 16 * (n / np) + j, rowElem f.fmt ((data.drop (b * m)).take b) j), [])
  else
    let k := k - frontRowBeats f.fmt np
    ([], ((List.range 128).filter fun m => decide (128 * k + m < 16 * np)).map fun m =>
      let n := 128 * k + m
      (penOf n, n / np, data.getD m 0))

namespace Device

def skidTo (d : Device) (c : Nat) : List SkidMsg := Table.get d.skid [] c
def setSkid (d : Device) (c : Nat) (l : List SkidMsg) : Device := { d with skid := Table.set d.skid [] c l }
/-- Forwards a message to the next core of the chain (R97, R249). -/
def skidForward (d : Device) (c : Nat) (m : SkidMsg) : Device :=
  let k := d.core c
  if k.chainLast || !d.corePresent k.chainNext then d else d.setSkid k.chainNext (d.skidTo k.chainNext ++ [m])

/-- The core discards whatever front arrives: its job has ended, or its Paddock is fenced (R251). -/
def discards (d : Device) (c : Nat) : Bool :=
  (d.core c).job.isNone || (match d.pdkOfCore c with
    | some p => (d.pdk p).rst != .running
    | none => true)

/-- A marker can leave the router of core `c`: it is taken, refused or discarded. -/
def markerGoes (d : Device) (c : Nat) : Bool :=
  let p := (d.core c).pn
  d.discards c || (p.skidArmed && !p.held)

/-- The marker at the front of core `c`'s input is taken, refused (R99, R250) or discarded (R251). -/
def takeMarker (d : Device) (c gen fmt beats : Nat) (src : Nat × Nat) : Device :=
  let p := (d.core c).pn
  let pens := (List.range 32).filter fun n => (p.pen n).shadow == .armed
  let f : Front := { gen := gen, fmt := fmt, beats := beats, got := 0, taken := true, dead := false, src := src, pens := pens }
  if d.discards c then d.modPens c fun p => { p with front := some { f with dead := true } }
  else if gen ≠ p.skidGen.toNat ∨ beats ≠ frontBeats fmt pens.length then
    let free := d.freeWord 5
    let d := d.tookFree.modPens c fun p => { p with front := some { f with dead := true } }
    let d := d.haltChannel src.1 src.2 0x0805 0
    d.trapCore c 0x0805 (bits free 12 0) (if bit free 13 then .m else .p) (BitVec.ofNat 64 (p.skidGen.toNat + gen * 256))
  else (d.modPens c fun p => { p with front := some f, rows := 0 }).skidForward c (.marker gen fmt beats src)

/-- A beat at the front of core `c`'s input lands, is forwarded, and with the last one the units are FULL and switch
(R94, R97, R98); a beat of a discarded front is dropped. -/
def takeBeat (d : Device) (c : Nat) (data : List Byte) : Device :=
  match (d.core c).pn.front with
  | none => d
  | some f =>
    if f.dead then d
    else
      let (cells, scales) := beatLands f f.got data
      let last := decide (f.got + 1 = f.beats)
      let d := d.modPens c fun p =>
        let rows := p.rows + cells.length / 16
        let p := { p.landTile [] cells scales with rows := rows, front := some { f with got := f.got + 1 } }
        if last then
          let hold := p.skidHold
          let p := { p.setShadow f.pens .full with front := none, skidArmed := (List.range 32).any (fun n => (p.pen n).shadow == .armed),
                                                      lastGen := BitVec.ofNat 8 f.gen }
          if hold then p else f.pens.foldl (fun p n => p.modPen n Pen.switch) p
        else p.setShadow f.pens .loading
      d.skidForward c (.beat data)

/-- The head of the router's input, or of the messages on their way when the router holds none. -/
def skidMarker (c : Nat) (d : Device) : Device :=
  match (d.core c).pn.router with
  | .marker g f b s :: r =>
    if d.markerGoes c then (d.modPens c fun p => { p with router := r }).takeMarker c g f b s else d
  | router =>
    match d.skidTo c with
    | .marker g f b s :: r =>
      let d := d.setSkid c r
      if router.isEmpty && d.markerGoes c then d.takeMarker c g f b s
      else d.modPens c fun p => { p with router := p.router ++ [.marker g f b s] }
    | _ => d
/-- As above, for a beat: one behind a waiting marker waits too (R95). -/
def skidBeat (c : Nat) (d : Device) : Device :=
  match (d.core c).pn.router with
  | .beat x :: r => (d.modPens c fun p => { p with router := r }).takeBeat c x
  | router =>
    match d.skidTo c with
    | .beat x :: r =>
      let d := d.setSkid c r
      if router.isEmpty then d.takeBeat c x else d.modPens c fun p => { p with router := p.router ++ [.beat x] }
    | _ => d

end Device

/-- SKID_MARKER_ARRIVE: the next marker of core `core` reaches it, or a waiting one is looked at again (R95). -/
def execSkidMarkerArrive (core : Nat) (s : State) : Res0 := onUnit 12 core s (Device.skidMarker core)
/-- SKID_BEAT_ARRIVE: the next beat of a front reaches core `core` (R97). -/
def execSkidBeatArrive (core : Nat) (s : State) : Res0 := onUnit 12 core s (Device.skidBeat core)

end Sys2Proof.Machine
end

