-- ==== Sys2Proof/Machine/XltOps.lean ====
section
/-! DEFINITION. Private memory and translation: segments and the place of a byte in the channels, lines under the
Paddock's keys, the translation copy table, and the walkers (spec 09: R270 to R300). -/

namespace Sys2Proof.Machine

/-! ### DVAs (R270) -/

def isPriv (a : Nat) : Bool := decide (2 ^ 56 ≤ a % 2 ^ 57)
def dvaSeg (a : Nat) : Nat := a / 2 ^ 52 % 16
def dvaOff (a : Nat) : Nat := a % 2 ^ 52
def Loc.isHost : Loc → Bool
  | .dva a => !isPriv a
  | _ => false
def Loc.isPriv : Loc → Bool
  | .dva a => Machine.isPriv a
  | _ => false
def Loc.dva? : Loc → Nat
  | .dva a => a % 2 ^ 57
  | _ => 0

namespace Device

/-! ### Private memory (R271 to R274, R279 to R285) -/

/-- Code with which a fenced Paddock's channels refuse a request, 0 while it is not fenced (R302). -/
def fenceCode (d : Device) (p : Nat) : Code :=
  match (d.pdkSec p).phase with
  | .fenced => 0x0605
  | .retiring => 0x0602
  | .scrubbing => 0x0602
  | _ => if (d.pdk p).rst = .running then 0 else 0x0701

/-- A segment whose zeroing still runs (R273). -/
def segZeroing (d : Device) (p ctx seg : Nat) : Bool :=
  d.objs.any fun kv => kv.2.used && kv.2.zeroing && kv.2.space == .priv && kv.2.paddock == p && kv.2.context == ctx && kv.2.seg == seg
/-- The entry that a context holds for a segment number. -/
def segOf (d : Device) (p ctx seg : Nat) : Option Segment :=
  (d.segs.find? fun kv => kv.1 / 256 == p && kv.2.owner == ctx && kv.2.seg == seg).map (·.2)

/-- The checks of R272, R301 and R302 on a private access: a refusal, or the byte of the Paddock's private space. -/
def privCheck (d : Device) (p ctx a n : Nat) (write : Bool) : Code ⊕ Nat :=
  match d.segOf p ctx (dvaSeg a) with
  | none => .inl 0x0202
  | some e =>
    if d.segZeroing p ctx (dvaSeg a) || decide (e.len * 2 ^ 21 < dvaOff a + n) || !(if write then e.wr else e.rd) then .inl 0x0202
    else if d.fenceCode p ≠ 0 then .inl (d.fenceCode p)
    else .inr (e.base * 2 ^ 21 + dvaOff a)

/-- Channel and line of the 64-byte unit `q` of a Paddock's private space (R274). -/
def privLine (d : Device) (p q : Nat) : Nat × Nat :=
  let cs := d.chansOf p
  let k := cs.length
  (cs.getD (q / 4 % k) 0, q / 4 / k * 4 + q % 4)
/-- The units that n bytes at P touch. -/
def privUnits (P n : Nat) : List Nat := if n = 0 then [] else (List.range ((P + n - 1) / 64 + 1 - P / 64)).map (P / 64 + ·)

/-- A line passes its MAC check: it was written under the Paddock's present keys (R285). -/
def lineGood (d : Device) (p q : Nat) : Bool :=
  let (c, l) := d.privLine p q
  let k := (d.pdkSec p).memKey
  (Table.get (d.chan c).lines Line.reset l).key == k && k != 0
def lineBytes (d : Device) (p q : Nat) : List Byte :=
  let (c, l) := d.privLine p q
  toBytes 64 (Table.get (d.chan c).lines Line.reset l).data.toNat
/-- Reads n bytes at P, or answers the unit whose line fails. -/
def readPriv (d : Device) (p P n : Nat) : List Byte ⊕ Nat :=
  match (privUnits P n).find? fun q => !d.lineGood p q with
  | some q => .inr q
  | none => .inl ((((privUnits P n).flatMap (d.lineBytes p)).drop (P % 64)).take n)

/-- The new bytes of unit q when `bs` is written at P. -/
def lineAfter (d : Device) (p P : Nat) (bs : List Byte) (q : Nat) : List Byte :=
  (d.lineBytes p q).zipIdx.map fun (b, i) => if 64 * q + i < P then b else (bs[64 * q + i - P]?).getD b
/-- The write covers the whole line of unit q. -/
def wholeLine (P n q : Nat) : Bool := decide (P ≤ 64 * q) && decide (64 * q + 64 ≤ P + n)
/-- Writes bytes at P under the present keys; a line written in part is read and checked first (R284). -/
def writePriv (d : Device) (p P : Nat) (bs : List Byte) : Device ⊕ Nat :=
  let us := privUnits P bs.length
  match us.find? fun q => !wholeLine P bs.length q && !d.lineGood p q with
  | some q => .inr q
  | none => .inl (us.foldl (fun e q =>
      let (c, l) := d.privLine p q
      let v : Line := { key := (d.pdkSec p).memKey, data := BitVec.ofNat 512 (ofBytes (d.lineAfter p P bs q)) }
      e.modChan c fun k => { k with lines := Table.set k.lines Line.reset l v }) d)

/-- A failed read of unit q: counted, recorded and reported (R283). -/
def privFail (d : Device) (p ctx q : Nat) (code : Code) : Device :=
  let (c, l) := d.privLine p q
  let d := d.modChan c fun k => { k with
    ue := if code = 0x0303 then satInc k.ue else k.ue, macf := if code = 0x0302 then satInc k.macf else k.macf,
    failLine := l, failCode := code }
  d.postDev (d.pdkEvent p 5 code (det 20 l ||| det 24 c) ctx)

/-! ### The memory frame (R241) -/

/-- A private request is accepted: its bursts wait for slots of their channels. -/
def askFrame (d : Device) (i : Nat) (p : Piece) (place : Nat) : Device :=
  let bursts := (privUnits place p.len).foldl (fun t q => let c := (d.privLine p.pdk q).1
    Table.set t 0 c (Table.get t 0 c + 1)) []
  { d.setPiece i { p with place := place, asked := d.sends + 1, bursts := bursts } with sends := d.sends + 1 }
/-- The class of a request: 0 a read, 1 a write, 2 remote traffic. -/
def frameClass (p : Piece) : Nat := match p.remoteEnd with
  | .remote .. => 2
  | _ => if p.phase = .read then 0 else 1
/-- Classes of the sixteen slots (Table 8.2). -/
def slotClass (s : Nat) : Nat := [0, 0, 1, 0, 0, 2, 0, 1, 0, 0, 1, 0, 0, 2, 0, 1].getD (s % 16) 0
/-- The request that takes slot `s` of channel `c`: the oldest of the slot's class, else of the first class that has one. -/
def frameTakes (d : Device) (s c : Nat) : Option (Nat × Piece) :=
  let want := d.pieces.filter fun kv => Table.get kv.2.bursts 0 c != 0
  let oldest := fun (k : Nat) => (want.filter fun kv => frameClass kv.2 == k).foldl (fun (b : Option (Nat × Piece)) kv => match b with
    | some x => if kv.2.asked < x.2.asked then some kv else b
    | none => some kv) none
  (oldest (slotClass s)).or ((oldest 0).or ((oldest 1).or (oldest 2)))
/-- Slot `s` of every channel's frame. -/
def frameSlot (d : Device) (s : Nat) : Device :=
  (List.range 16).foldl (fun d c => match d.frameTakes s c with
    | some (i, p) => d.setPiece i { p with bursts := Table.set p.bursts 0 c (Table.get p.bursts 0 c - 1) }
    | none => d) d
/-- The slots of 3.75 ns that end between Tally `before` and now; slot 0 begins at each multiple of 60 ns. -/
def framed (d : Device) (before : Nat) : Device :=
  if d.pieces.all fun kv => kv.2.bursts.isEmpty then d
  else ((List.range (4 * d.now / 15 - 4 * before / 15)).map (4 * before / 15 + ·)).foldl frameSlot d

end Device

/-! ### The translation copy table (R290 to R292) -/

def pageBytes : PageSize → Nat
  | .p4K => 4096
  | .p2M => 2 ^ 21
  | .p1G => 2 ^ 30
def sizeNum : PageSize → Nat
  | .p4K => 0
  | .p2M => 1
  | .p1G => 2

/-- The entry translates the page that holds `a`. -/
def AtcEntry.covers (e : AtcEntry) (ctx a : Nat) : Bool :=
  e.context == ctx && e.group == a / (16 * pageBytes e.size) && e.mask.getLsbD (a / pageBytes e.size % 16)
/-- The host physical address that it gives. -/
def AtcEntry.hpa (e : AtcEntry) (a : Nat) : Nat :=
  (e.base + ((a / pageBytes e.size % 16 * pageBytes e.size : Nat) : Int)).toNat + a % pageBytes e.size
def AtcEntry.set (e : AtcEntry) : Nat := Config.atcHash e.context (sizeNum e.size) e.group % 8192

/-- What a lookup gives. -/
inductive Lookup where
  | hit (hpa : Nat) | denied | miss
  deriving DecidableEq, Repr, Inhabited

namespace Device

def modXlt (d : Device) (f : Xlt → Xlt) : Device := { d with xlt := f d.xlt }

/-- Looks up the page of `a`: hits and misses are counted, and a hit is the entry's last access (R291). -/
def lookup (d : Device) (ctx a : Nat) (write : Bool) : Device × Lookup :=
  match d.xlt.atc.find? fun e => e.covers ctx a with
  | none => (d.modXlt fun x => { x with missCnt := x.missCnt + 1 }, .miss)
  | some e =>
    let d := d.modXlt fun x => { x with
      hits := x.hits + 1, clock := x.clock + 1, atc := x.atc.map fun y => if y == e then { y with used := x.clock } else y }
    (d, if (if write then e.w else e.r) then .hit (e.hpa a) else .denied)

/-- One page joins the entry of its group whose base and permissions it fits, or takes an entry of its own: the least
recently used entry of its set without a hold makes room (R290, R292). -/
def fillPage (d : Device) (ctx : Nat) (sz : PageSize) (group m : Nat) (hpa : Nat) (r w global : Bool) : Device :=
  d.modXlt fun x =>
    let b : Int := (hpa : Int) - ((m * pageBytes sz : Nat) : Int)
    let same := fun (e : AtcEntry) => e.context == ctx && e.size == sz && e.group == group
    let bit : BitVec 16 := 1 <<< m
    let atc := (x.atc.map fun e => if same e && e.base != b then { e with mask := e.mask &&& ~~~bit } else e).filter fun e => e.mask != 0
    if atc.any fun e => same e && e.base == b && e.r == r && e.w == w then
      { x with atc := atc.map fun e => if same e && e.base == b && e.r == r && e.w == w then
          { e with mask := e.mask ||| bit, global := e.global || global, used := x.clock } else e, clock := x.clock + 1 }
    else
      let e : AtcEntry := { context := ctx, size := sz, group := group, mask := bit, base := b, r := r, w := w, global := global, holders := [],
                            refused := [], used := x.clock }
      let atc := atc.filter fun y => !(same y && y.base == b && y.mask == bit)
      let mine := atc.filter fun y => y.set == e.set
      let atc := if mine.length < 16 then atc
        else match mine.filter fun y => y.holders.isEmpty with
          | [] => atc
          | v :: vs => atc.erase (vs.foldl (fun a y => if y.used < a.used then y else a) v)
      { x with atc := atc ++ [e], clock := x.clock + 1 }

/-- A command gains one hold on every entry that covers a page of `a` .. `a + n - 1` (R292, R293). -/
def holdRange (d : Device) (q : Nat) (seq : W32) (ctx a n : Nat) : Device :=
  d.modXlt fun x => (List.range x.atc.length).foldl (fun x i =>
    match x.atc[i]? with
    | none => x
    | some e =>
      let lo := e.group * 16 * pageBytes e.size
      let hit := e.context == ctx && (List.range 16).any fun m =>
        e.mask.getLsbD m && decide (a < lo + (m + 1) * pageBytes e.size) && decide (lo + m * pageBytes e.size < a + n)
      if !hit || e.holders.contains (q, seq) || e.refused.contains (q, seq) then x
      else if e.holders.isEmpty && decide (12 ≤ (x.atc.filter fun y => y.set == e.set && !y.holders.isEmpty).length) then
        { x with holdOvf := satInc x.holdOvf, atc := x.atc.set i { e with refused := e.refused ++ [(q, seq)] } }
      else { x with atc := x.atc.set i { e with holders := e.holders ++ [(q, seq)] } }) x
/-- The command gives up its holds. -/
def dropHolds (d : Device) (q : Nat) (seq : W32) : Device :=
  d.modXlt fun x => { x with
    atc := x.atc.map fun e => { e with holders := e.holders.filter (· != (q, seq)), refused := e.refused.filter (· != (q, seq)) }
    walkers := Table.mapVals x.walkers fun w => { w with queued := w.queued.filter fun h => h != (q, seq) }
    misses := x.misses.filter fun m => match m with
      | .queue k s _ _ _ => !(k == q && s == seq)
      | .piece _ => true }

/-- Records a translation failure of a piece. -/
def xltFault (d : Device) (ctx p a : Nat) (code : Code) : Device :=
  d.modXlt fun x => { x with faultDva := a / 4096 * 4096, faultCtx := ctx, faultCode := code, faultPdk := p }

/-! ### Walkers (R294) -/

def walker (d : Device) (w : Nat) : Option Walker := Table.find d.xlt.walkers w
def setWalker (d : Device) (w : Nat) (v : Walker) : Device := d.modXlt fun x => { x with walkers := Table.put x.walkers w v }
def busyWalker (d : Device) (ctx group : Nat) : Option (Nat × Walker) :=
  d.xlt.walkers.find? fun kv => kv.2.context == ctx && kv.2.group == group

/-- A miss joins the busy walker of its context and group, takes a free one, which sends a Translation Request, or waits
in arrival order. -/
def takeMiss (d : Device) (ctx group p : Nat) (m : Miss) : Device :=
  let add := fun (w : Walker) => match m with
    | .piece i => { w with pieces := w.pieces ++ [i] }
    | .queue q s _ _ _ => { w with queued := if w.queued.contains (q, s) then w.queued else w.queued ++ [(q, s)] }
  match d.busyWalker ctx group with
  | some (k, w) => d.setWalker k (add w)
  | none =>
    match lowest (fun k => (Table.find d.xlt.walkers k).isNone) 16 with
    | none => d.modXlt fun x => { x with misses := x.misses ++ [m] }
    | some k =>
      (d.setWalker k (add { context := ctx, group := group, pdk := p, phase := .translation, pieces := [], retried := false,
                            stale := false, page := 0, queued := [] })).emit (.atsRequest ctx group)

end Device

/-! ### Agents (R297) -/

/-- The agent that a piece's host requests belong to: a channel, a remote engine, or the Drover's host writer. -/
def Device.agentOf (d : Device) (p : Piece) : Nat :=
  match p.owner with
  | .command _ _ => 32
  | .channel c ch =>
    match p.remoteEnd with
    | .remote peer _ _ =>
      (match d.bindingTo p.pdk peer, d.routePort peer with
       | some b, some n => 24 + 4 * n + b % 4
       | _, _ => 2 * c + ch)
    | _ => 2 * c + ch
/-- The piece has a host request on the way. -/
def Piece.hostOut (p : Piece) : Bool :=
  (p.phase == .read && p.src.isHost) || (p.phase == .write && p.dst.isHost)
/-- Every agent is told of an invalidation or a flush (R297, R300). -/
def Device.notify (d : Device) (flush : Bool) : Device :=
  d.modXlt fun x => { x with invals := x.invals ++
    [{ flush := flush, agents := List.range 34, pieces := (d.pieces.filter fun kv => kv.2.hostOut).map (·.1) }] }

end Sys2Proof.Machine
end

