-- ==== Sys2Proof/Machine/PieceOps.lean ====
section
/-! DEFINITION. The way of a piece: translation of its ends, the read of its source, the check and the write of its
destination, in issue order; and the pieces of COPY and YARD_LOAD (R206, R224, R233, R239, R243, R287, R288, R294,
R296, R399). -/

namespace Sys2Proof.Machine

/-- The host end that still needs a translation: its DVA, and whether the piece writes there. -/
def needEnd (p : Piece) : Option (Nat × Bool) :=
  if p.phase == .translate && p.src.isHost && p.srcHpa.isNone then some (p.src.dva?, false)
  else if p.dst.isHost && p.dstHpa.isNone then some (p.dst.dva?, true)
  else none
def withHpa (p : Piece) (write : Bool) (h : Nat) : Piece :=
  if write then { p with dstHpa := some h } else { p with srcHpa := some h }

/-- Kind of a destination, and the peer of a remote one. -/
def destKind (p : Piece) : Nat × Nat :=
  match p.dst with
  | .dva a => if isPriv a then (2, 0) else (1, 0)
  | .remote peer _ _ => (3, peer)
  | .chain => (4, 0)
  | _ => (0, 0)

/-- The CXL.cache writes that carry bytes to a host physical address, one for each line (Table 9.4). -/
def hostWrites (hpa : Nat) (bs : List Byte) : List Out :=
  (if bs = [] then [] else (List.range ((hpa + bs.length - 1) / 64 + 1 - hpa / 64)).map (hpa / 64 + ·)).map fun l =>
    let lo := max hpa (64 * l)
    let part := (bs.drop (lo - hpa)).take (64 * l + 64 - lo)
    if part.length = 64 then .itoMWr lo part else .woWrInv lo part
/-- The loop step of R238 after instruction `last`: where the program goes on, and the loops still active. -/
def stepLoops (last pc : Nat) : List HLoop → Nat × List HLoop
  | [] => (pc, [])
  | l :: r =>
    if last ≠ l.bot then (pc, l :: r)
    else if l.idx + 1 < l.cnt then (l.top, { l with idx := l.idx + 1 } :: r)
    else stepLoops last pc r
/-- The Haul program has executed its instruction. -/
def Channel.next (k : Channel) : Channel :=
  let (pc, ls) := stepLoops k.pc (k.pc + 1) k.loops
  { k with pc := pc, loops := ls, wait := .none }

namespace Device

/-- Earlier pieces of the same owner. -/
def earlier (d : Device) (i : Nat) (o : PieceOwner) : List Piece := (d.pieces.filter fun kv => decide (kv.1 < i) && kv.2.owner == o).map (·.2)
/-- No earlier piece of the owner is left, so the piece may take effect (R239). -/
def first (d : Device) (i : Nat) (p : Piece) : Bool := (d.earlier i p.owner).isEmpty
/-- The piece's writes may be sent: every earlier piece goes to the same place and its own are sent, or to host memory
none is left (R239, R288). -/
def mayGo (d : Device) (i : Nat) (p : Piece) : Bool :=
  (d.earlier i p.owner).all fun e => destKind e == destKind p && (match (destKind p).1 with
    | 0 => e.phase == .land
    | 2 => e.phase == .write
    | 3 => e.phase == .write
    | _ => false)

/-- The chain input of core c takes bytes in beats of 128 (R249, R250). -/
def chainBytes (d : Device) (c ch : Nat) (bs : List Byte) : Device :=
  let all := (d.channel c ch).beat ++ bs
  let n := all.length / 128
  let beats := (List.range n).map fun k => SkidMsg.beat ((all.drop (128 * k)).take 128)
  (d.setSkid c (d.skidTo c ++ beats)).modChannel c ch fun k => { k with beat := all.drop (128 * n) }

/-- A piece is complete: its channel or command counts it. -/
def finishPiece (d : Device) (i : Nat) (p : Piece) : Device :=
  let d := d.dropPiece i
  match p.owner with
  | .channel c ch => d.modChannel c ch fun k => { k with bytes := k.bytes + BitVec.ofNat 64 ((p.len + 63) / 64) }
  | .command s seq => d.modStall s fun x => { x with q := { x.q with
      accepted := x.q.accepted.map fun m => if m.seq = seq then { m with done := m.done + p.len } else m } }

/-- The landing buffer of core `c` has room for `n` bytes more (R243). -/
def landRoom (d : Device) (c n : Nat) : Bool :=
  decide (Table.foldl d.pieces (fun m _ p => if p.phase = .land ∧ p.land.map (·.1) = some c then m + p.len else m) 0 + n ≤ 16384)
/-- The read piece goes on to its destination as far as the order of its channel lets it. -/
def sendOn (d : Device) (i : Nat) : Device :=
  match d.piece i with
  | none => d
  | some p =>
    if p.phase ≠ .check || !d.mayGo i p then d
    else match p.dst with
      | .slice c off =>
        if !(d.slice c).opensRange p.job p.ctx off p.len then d.failPiece i 0x0402 p.dst
        else if d.landRoom c p.len then d.setPiece i { p with phase := .land, land := some (c, off) }
        else d
      | .dva a =>
        if isPriv a then
          match d.privCheck p.pdk p.ctx a p.len true with
          | .inl code => d.failPiece i code p.dst
          | .inr P => d.askFrame i { p with phase := .write } P
        else match p.dstHpa with
          | none => d
          | some hpa => (hostWrites hpa p.data).foldl emit (d.setPiece i { p with phase := .write })
      | .remote peer h o =>
        match d.bindingTo p.pdk peer with
        | none => d.failPiece i 0x0406 p.dst
        | some b => (d.setPiece i { p with phase := .write }).sendPiece b i false h o p.len p.data
      | .chain =>
        match p.owner with
        | .channel c ch => (d.chainBytes c ch p.data).finishPiece i p
        | .command _ _ => d
      | _ => if p.sent ≠ 0 then d else { d.setPiece i { p with sent := d.sends + 1 } with sends := d.sends + 1 }
/-- Every piece of an owner that waits for its turn goes on, in issue order. -/
def pump (d : Device) (o : PieceOwner) : Device :=
  ((d.pieces.filter fun kv => kv.2.owner == o).map (·.1)).foldl sendOn d

/-- Every piece that waits for its turn or for room goes on. -/
def pumpAll (d : Device) : Device := (d.pieces.map (·.1)).foldl sendOn d

/-- The data of a piece have been read; those of a stopped owner are discarded. -/
def gotData (d : Device) (i : Nat) (p : Piece) (bs : List Byte) : Device :=
  if p.discard then d.dropPiece i else (d.setPiece i { p with data := bs, phase := .check }).pump p.owner

/-- The request of a piece goes out: a tile stream fetches its units (R248). -/
def fetches (d : Device) (p : Piece) : Device :=
  match p.owner, p.tile with
  | .channel c ch, some n => d.modChannel c ch fun k => { k with fetched := Table.set k.fetched 0 n (Table.get k.fetched 0 n + (p.len + 63) / 64) }
  | _, _ => d
/-- The source request of a piece goes out. -/
def beginRead (d : Device) (i : Nat) (p : Piece) : Device :=
  match p.src with
  | .slice c off =>
    if !(d.slice c).opensRange p.job p.ctx off p.len then d.failPiece i 0x0402 p.src
    else
      let d := match p.owner with
        | .channel k _ => if k = c then d.audit c off p.len else d
        | .command _ _ => d
      match (d.fetches p).readYard c 5 off p.len with
      | (d, .inr b) => d.failPiece i SPAD_UNCORR (.slice c (32 * b))
      | (d, .inl bs) => d.gotData i p bs
  | .dva a =>
    if isPriv a then
      match d.privCheck p.pdk p.ctx a p.len false with
      | .inl code => d.failPiece i code p.src
      | .inr P => (d.askFrame i { p with phase := .read } P).fetches p
    else ((d.setPiece i { p with phase := .read }).fetches p).emit (.hostRead (p.srcHpa.getD 0) p.len)
  | .remote peer h o =>
    match d.bindingTo p.pdk peer with
    | none => d.failPiece i 0x0406 p.src
    | some b => ((d.setPiece i { p with phase := .read }).fetches p).sendPiece b i true h o p.len []
  | _ => (d.setPiece i { p with phase := .read }).fetches p

/-- The piece looks its host pages up, then reads; one that an invalidation robbed of its destination's goes on where it stood
(R291, R296, R297). -/
def resolve (d : Device) (i : Nat) : Nat → Device
  | 0 => d
  | fuel + 1 =>
    match d.piece i with
    | none => d
    | some p =>
      match needEnd p with
      | none =>
        if p.phase = .check then d.pump p.owner
        else if p.phase ≠ .translate then d
        else if p.redo then resolve (d.setPiece i { p with redo := false, srcHpa := none }) i fuel
        else d.beginRead i p
      | some (a, w) =>
        match d.lookup p.ctx a w with
        | (d, .hit h) => resolve (d.setPiece i (withHpa p w h)) i fuel
        | (d, .denied) => (d.xltFault p.ctx p.pdk a 0x0202).failPiece i 0x0202 (.dva a)
        | (d, .miss) => d.takeMiss p.ctx (a / 65536) p.pdk (.piece i)

/-- A new piece takes the next number and starts. -/
def startPiece (d : Device) (p : Piece) : Device :=
  let i := d.nextPiece
  ({ d.setPiece i p with nextPiece := i + 1 }).resolve i 6

/-- A piece that has read nothing yet. -/
def freshPiece (o : PieceOwner) (ctx pdk : Nat) (job : Option Nat) (src dst : Loc) (n : Nat) (tile : Option Nat) (pc : Nat := 0) : Piece :=
  { owner := o, ctx := ctx, pdk := pdk, job := job, src := src, dst := dst, len := n, phase := .translate, data := [],
    land := none, win := none, srcHpa := none, dstHpa := none, tile := tile,
    discard := false, pc := pc, sent := 0, place := 0, asked := 0, bursts := [], redo := false }

/-! ### COPY and YARD_LOAD, one piece at a time -/

/-- Word k (1 to 7) of a command. -/
def cmdWord (m : Cmd) (k : Nat) : W64 := m.w.getD (k - 1) 0
/-- Length in bytes of a COPY, a YARD_LOAD. -/
def copyLen (m : Cmd) : Nat := if m.opcode = 3 then bits (cmdWord m 3) 39 0 else if m.opcode = 9 then bits (cmdWord m 4) 26 0 else 0
/-- Source and destination of the byte numbered `o` of a copy. -/
def copyEnds (d : Device) (m : Cmd) (o : Nat) : Loc × Loc :=
  if m.opcode = 3 then (.dva (bits (cmdWord m 1) 56 0 + o), .dva (bits (cmdWord m 2) 56 0 + o))
  else
    let x := d.obj (handleSlot ((cmdWord m 1).setWidth 32))
    (.dva (bits (cmdWord m 3) 56 0 + o), .slice x.core (x.base + bits (cmdWord m 2) 25 0 + o))
/-- Offset within its 4 KiB block of an end. -/
def blockOff : Loc → Nat
  | .dva a => a % 4096
  | .slice _ o => o % 4096
  | _ => 0
/-- Word `n` bytes long at byte `i` of a list. -/
def le (l : List Byte) (i n : Nat) : Nat := ofBytes ((l.drop i).take n)
/-- The installed bundle of the queue's context that holds the source of a copy, with that source's place in it (R451). -/
def intakeOf (d : Device) (s : Nat) (m : Cmd) : Option (Bundle × Nat) :=
  let q := (d.stall s).q
  let a := if m.opcode = 3 then bits (cmdWord m 1) 56 0 else bits (cmdWord m 3) 56 0
  if !(m.opcode == 3 || m.opcode == 9) then none
  else ((d.pdkSec q.paddock).bundles.find? fun kv => kv.2.installed && kv.2.context == q.context && decide (kv.2.dva ≤ a) &&
    decide (a + copyLen m ≤ kv.2.dva + kv.2.length)).map fun kv => (kv.2, a - kv.2.dva)

/-- The running copy issues its next piece, or ends once its last byte is written. -/
def advanceCopy (d : Device) (s : Nat) (seq : W32) : Device :=
  match d.stallCmd s seq with
  | none => d
  | some m =>
    let n := copyLen m
    if m.phase ≠ .running || !(m.opcode == 3 || m.opcode == 9) || (d.stall s).state != .bound || (d.intakeOf s m).isSome then d
    else if n ≤ m.done then d.finishCmd (d.stall s).queue seq 0
    else if n ≤ m.issued || d.owes (· == .command s seq) then d
    else
      let (src, dst) := d.copyEnds m m.issued
      let k := min (n - m.issued) (min (4096 - blockOff src) (4096 - blockOff dst))
      let q := (d.stall s).q
      let d := d.modCmd (d.stall s).queue seq fun m => { m with issued := m.issued + k }
      d.startPiece (freshPiece (.command s seq) q.context q.paddock none src dst k none)

/-- A piece is complete; its owner goes on, and so does what waited for room. -/
def complete (d : Device) (i : Nat) : Device :=
  match d.piece i with
  | none => d
  | some p =>
    let d := (d.finishPiece i p).pumpAll
    match p.owner with
    | .channel _ _ => d
    | .command s seq => d.advanceCopy s seq

/-! ### Window checks and landing (R224, R237, R243) -/

/-- Handle and window-relative offset of a window end; none below the window's base (R237). -/
def winEnd (d : Device) (p : Nat) : Loc → Option (W32 × Nat × Bool)
  | .window h o => some (h, o, true)
  | .slot h o =>
    let b := (d.window (256 * p + winSlot h)).base
    some (h, (o + 2 ^ 32 - b) % 2 ^ 32, decide (b ≤ o))
  | _ => none

/-- The core from whose router the data of a piece come, where it is one core's, and the core of its destination window. -/
def fromCore (d : Device) (p : Piece) : Option Nat :=
  match p.src, d.winEnd p.pdk p.src with
  | .slice c _, _ => some c
  | _, some (h, _) => some (d.window (256 * p.pdk + winSlot h)).core
  | _, none => none
def toCore (d : Device) (p : Piece) : Option Nat := (d.winEnd p.pdk p.dst).map fun x => (d.window (256 * p.pdk + winSlot x.1)).core
/-- No earlier window write from the same router to the same core is still in the mesh: both are of the bulk class (R18, R19). -/
def firstSent (d : Device) (p : Piece) : Bool :=
  p.sent != 0 && ((d.fromCore p).isNone || !d.pieces.any fun kv => kv.2.phase == .check && kv.2.sent != 0 && decide (kv.2.sent < p.sent) &&
    d.fromCore kv.2 == d.fromCore p && d.toCore kv.2 == d.toCore p)
/-- The request of a piece reaches the owning core's router and is checked: a read delivers its bytes, a write is
accepted into the landing buffer, or the transfer is refused. -/
def windowCheck (i : Nat) (d : Device) : Device :=
  match d.piece i with
  | none => d
  | some p =>
    if p.phase = .read then
      match d.winEnd p.pdk p.src with
      | none => d
      | some (h, o, ok) =>
        if p.discard then d.dropPiece i
        else match (if ok then d.winCheck p.pdk h o p.len false false else .inl 0x0402) with
          | .inl code => d.failPiece i code (.window h o)
          | .inr off =>
            let c := (d.window (256 * p.pdk + winSlot h)).core
            match d.readYard c 5 off p.len with
            | (d, .inr b) => d.failPiece i SPAD_UNCORR (.slice c (32 * b))
            | (d, .inl bs) => d.gotData i p bs
    else if p.phase = .check && d.mayGo i p && d.firstSent p then
      match d.winEnd p.pdk p.dst with
      | none => d
      | some (h, o, ok) =>
        match (if ok then d.winCheck p.pdk h o p.len true false else .inl 0x0402) with
        | .inl code => d.failPiece i code (.window h o)
        | .inr off =>
          let k := 256 * p.pdk + winSlot h
          if d.landRoom (d.window k).core p.len then
            ((d.winFlight k (· + 1)).setPiece i { p with phase := .land, land := some ((d.window k).core, off), win := some k }).pump p.owner
          else d
    else d

/-- All bytes of a LAND burst are in the landing buffer: they are written into the slice (R243). -/
def landPiece (i : Nat) (d : Device) : Device :=
  match d.piece i with
  | none => d
  | some p =>
    match p.phase, p.land with
    | .land, some (c, off) =>
      if !d.first i p then d
      else
        let d := match p.owner, p.win with
          | .channel k _, none => if k = c then d.audit c off p.len else d
          | _, _ => d
        (d.landBytes c off p.data (match p.owner with
          | .channel k ch => [(k, ch)]
          | .command _ _ => [])).complete i
    | _, _ => d

/-- A closing window with no transfer left becomes FREE, its writes drained, and who closed it goes on (R225). -/
def closeDone (p s : Nat) (d : Device) : Device :=
  let k := 256 * p + s
  let w := d.window k
  if w.state ≠ .closing || w.inFlight ≠ 0 then d
  else
    let d := (d.drainAll w.core).winFree k
    let d := (List.range 24).foldl (fun d n =>
      let x := d.channel (n / 2) (n % 2)
      if x.closing = some k then d.setChannel (n / 2) (n % 2) { x with closing := none }.next else d) d
    (List.range 48).foldl (fun d n =>
      match (d.stall n).q.accepted.find? fun m => m.opcode == 0x0B && m.phase == .running && (d.stall n).q.paddock == p &&
          winSlot ((cmdWord m 1).setWidth 32) == s && winNames w ((cmdWord m 1).setWidth 32) with
      | some m => d.finishCmd (d.stall n).queue m.seq 0
      | none => d) d

end Device

/-- WINDOW_TRANSFER_CHECK (R224). -/
def execWindowTransferCheck (pid : Nat) (s : State) : Res0 := done s (Device.windowCheck pid)
/-- LAND_BURST (R243). -/
def execLandBurst (pid : Nat) (s : State) : Res0 := done s (Device.landPiece pid)
/-- WINDOW_CLOSE_COMPLETE (R225). -/
def execWindowCloseComplete (pdk slot : Nat) (s : State) : Res0 :=
  if slot < 256 then onUnit 6 pdk s (Device.closeDone pdk slot) else .fault .absentUnit

end Sys2Proof.Machine
end

