-- ==== Sys2Proof/Machine/HaulUnit.lean ====
section
/-! DEFINITION. Haul programs: launch, the instructions of Table 8.1, the issue of pieces, tile streams, and the end of a
program (spec 08: R230 to R248, R250, R255, R256). -/

namespace Sys2Proof.Machine

/-! ### Haul words (Table 8.1) -/

def hop (w : W64) : Nat := bits w 3 0
def hLVL (w : W64) : Nat := bits w 7 5
def hENDI (w : W64) : Nat := bits w 15 12
/-- Bits that a Haul instruction assigns; none for a reserved HOP. -/
def hopBits (op : Nat) : Option W64 :=
  match op with
  | 0x0 => some (rng 3 0)
  | 0x1 => some (rng 14 0 ||| rng 63 16)
  | 0x2 => some (rng 11 0 ||| rng 63 16)
  | 0x3 => some (rng 3 0 ||| rng 47 5)
  | 0x4 => some (rng 25 0)
  | 0x5 => some (rng 27 0)
  | 0x6 => some (rng 3 0)
  | 0x7 => some (rng 3 0)
  | 0x8 => some (rng 5 0 ||| rng 11 8)
  | 0x9 => some (rng 5 0 ||| rng 15 8)
  | 0xA => some (rng 6 0 ||| rng 10 8)
  | 0xB => some (rng 5 0 ||| rng 10 8 ||| rng 18 12)
  | 0xC => some (rng 5 0)
  | 0xD => some (rng 31 0)
  | 0xE => some (rng 3 0 ||| rng 10 8)
  | _ => none
/-- No reserved value: spaces, levels, lengths, formats. -/
def hopValues (w : W64) : Bool :=
  match hop w with
  | 0x1 => decide (hLVL w ≤ 4) && !(hLVL w == 4 && !bit w 4)
  | 0x2 => decide (hLVL w ≤ 5)
  | 0x3 => decide (hLVL w ≤ 5)
  | 0x4 => bits w 24 4 % 4 == 0 && decide (4 ≤ bits w 24 4) && decide (bits w 24 4 ≤ 1048576)
  | 0xD => decide (bits w 15 12 ≤ 14)
  | _ => true
def hopLegal (w : W64) : Bool :=
  (match hopBits (hop w) with
   | some m => decide (w &&& ~~~m = 0)
   | none => false) && hopValues w

/-- The checks of R236 on the instructions up to the first END. -/
def haulLegal (prog : List W64) : Bool :=
  match prog.findIdx? fun w => hop w == 0 with
  | none => false
  | some e =>
    let is := (prog.take (e + 1)).zipIdx
    (is.all fun (w, _) => hopLegal w) &&
    (is.all fun (w, i) => hop w != 3 || (decide (i < hENDI w) && decide (hENDI w ≤ e))) &&
    (is.all fun (w, i) => hop w != 3 || is.all fun (v, j) => hop v != 3 || !(decide (i < j) && decide (j ≤ hENDI w)) ||
      (decide (hLVL w < hLVL v) && (j == hENDI w || decide (hENDI v ≤ hENDI w)))) &&
    (is.all fun (w, i) => !(hop w == 6 || hop w == 7) || is.any fun (v, j) => decide (j < i) && hop v == 5) &&
    (is.all fun (w, i) => hop w != 0xD || is.any fun (v, j) => decide (j < i) && hop v == 1 && bit v 4 && hLVL v == 4)

/-! ### Launch (R230, R231) -/

/-- A channel that starts a program with its arguments. -/
def Channel.launch (k : Channel) (prog g : List W64) (job : Option Nat) : Channel :=
  { Channel.reset with state := .running, prog := prog, g := g, job := job, bytes := k.bytes, waste := k.waste, merge := k.merge }

/-- HAUL: launches a Haul program on an IDLE channel; it waits while the channel is RUNNING. -/
def haulBody (c : Nat) (x : QInstr) (d : Device) : Issue :=
  let w := x.word
  let q := (d.core c).sq
  let ch := b2n (bit w 10)
  let ar := bits w 26 21
  let off := (q.aReg (fAB w)).toNat
  match (d.channel c ch).state with
  | .running => .wait d (d.channelCause c ch)
  | .halted => Device.illegal x
  | .idle =>
    if 56 < ar || off % 128 ≠ 0 || !d.ownRange c off 128 then Device.illegal x
    else match d.readYard c 4 off 128 with
      | (d, .inr b) => .bad d SPAD_UNCORR (Device.blockInfo b)
      | (d, .inl bs) =>
        let prog := (List.range 16).map fun i => BitVec.ofNat 64 (ofBytes ((bs.drop (8 * i)).take 8))
        if !haulLegal prog then .bad d ISA_ILLEGAL w
        else .ok (d.modChannel c ch fun k => k.launch prog ((List.range 8).map fun i => q.sop (ar + i)) (d.core c).job)
def execHaul (core : Nat) (s : State) : Res0 := onUnit 12 core s (Device.issue core .m 0x0B (haulBody core))

/-! ### Executing an instruction -/

/-- The instruction that the channel executes next. -/
def Channel.word (k : Channel) : W64 := k.prog.getD k.pc 0
/-- G[n], and the first addend of BASE and STRIDE. -/
def Channel.arg (k : Channel) (n : Nat) : W64 := k.g.getD n 0
def Channel.addend (k : Channel) (w : W64) : W64 :=
  (if bit w 11 then k.arg (bits w 10 8) else 0) + (BitVec.ofNat 48 (bits w 63 16)).signExtend 64
/-- addr(g) of R238. -/
def Channel.addr (k : Channel) (g : Gen) : W64 :=
  k.loops.foldl (fun a l => a + Table.get g.stride 0 l.level * BitVec.ofNat 64 l.idx) g.base
/-- Number of the open tile. -/
def Channel.tileNow (k : Channel) : Option Nat :=
  match k.ring with
  | some r => if r.open_ then some (2 ^ 32 * r.id + (r.next - 1)) else none
  | none => none

/-- What a remote piece meets before it issues (R397, R398): a code, a wait for room, or its binding. -/
inductive RemoteGate where
  | fail (code : Code) | full | go (b : Option Nat)

def Channel.setGen (k : Channel) (dst : Bool) (g : Gen) : Channel := if dst then { k with dst := g } else { k with src := g }
def Channel.gen (k : Channel) (dst : Bool) : Gen := if dst then k.dst else k.src

namespace Device

/-- The channel executes instruction `op`: it is RUNNING, has not ended, waits for no close, that instruction is next, and
every piece of its earlier MOVEs has issued (a MOVE may still join the last one). -/
def haulStep (c ch op : Nat) (body : W64 → Channel → Device → Device) (d : Device) : Device :=
  let k := d.channel c ch
  if k.state = .running && !d.frozen c && !k.ending && k.closing.isNone && hop k.word == op && (op == 4 || k.planned.isEmpty) then body k.word k d
  else d

/-- The instruction is done: the channel takes its new state and goes on. -/
def haulNext (d : Device) (c ch : Nat) (k : Channel) : Device := d.setChannel c ch k.next
/-- The instruction waits. -/
def haulWait (d : Device) (c ch : Nat) (w : ChWait) : Device := d.modChannel c ch fun k => { k with wait := w }

/-! ### Generators and loops (R237, R238) -/

def haulBaseOp (c ch : Nat) (w : W64) (k : Channel) (d : Device) : Device :=
  let g := k.gen (bit w 4)
  d.haulNext c ch (k.setGen (bit w 4) { g with space := hLVL w, base := k.addend w, xa := bits w 14 12, slot := false })
def haulStrideOp (c ch : Nat) (w : W64) (k : Channel) (d : Device) : Device :=
  let g := k.gen (bit w 4)
  d.haulNext c ch (k.setGen (bit w 4) { g with stride := Table.set g.stride 0 (hLVL w) (k.addend w) })
def haulLoopOp (c ch : Nat) (w : W64) (k : Channel) (d : Device) : Device :=
  let n := if bit w 11 then bits (k.arg (bits w 10 8)) 31 0 else bits w 47 16
  if n = 0 then d.haulNext c ch { k with pc := hENDI w }
  else d.haulNext c ch { k with loops := { level := hLVL w, cnt := n, idx := 0, top := k.pc + 1, bot := hENDI w } :: k.loops }

/-! ### MOVE and pieces (R239, R240) -/

/-- The pieces of a MOVE of `n` bytes: each stays within a 4 KiB block of its source and of its destination. -/
def pieceCuts (src dst : W64) : (fuel n o : Nat) → List (Nat × Nat)
  | 0, _, _ => []
  | fuel + 1, n, o =>
    if n ≤ o then []
    else
      let b := fun (a : W64) => 4096 - (a.toNat + o) % 4096
      let m := min (n - o) (min (b src) (b dst))
      (o, m) :: pieceCuts src dst fuel n (o + m)

/-- The MOVE `w` may join the piece that its channel has planned (R240). -/
def joins (k : Channel) (w : W64) (p : Planned) : Bool :=
  let n := bits w 24 4
  let s := k.addr k.src
  let t := k.addr k.dst
  hop w == 4 && p.joinable && !bit w 25 &&
  (p.srcSpace == k.src.space && p.srcXa == k.src.xa && p.srcSlot == k.src.slot) &&
  (p.dstSpace == k.dst.space && p.dstXa == k.dst.xa && p.dstSlot == k.dst.slot) &&
  s == p.src + BitVec.ofNat 64 p.len && t == p.dst + BitVec.ofNat 64 p.len &&
  decide (p.src.toNat % 4096 + p.len + n ≤ 4096) && decide (p.dst.toNat % 4096 + p.len + n ≤ 4096)

def haulMoveOp (c ch : Nat) (w : W64) (k : Channel) (d : Device) : Device :=
  let n := bits w 24 4
  match k.planned with
  | [p] =>
    if joins k w p then d.haulNext c ch { k with planned := [{ p with len := p.len + n, pc := k.pc }], merge := k.merge + 1 } else d
  | [] =>
    let s := k.addr k.src
    let t := k.addr k.dst
    let cs := pieceCuts s t 1024 n 0
    let ps := cs.map fun (o, m) =>
      ({ srcSpace := k.src.space, dstSpace := k.dst.space, src := s + BitVec.ofNat 64 o, dst := t + BitVec.ofNat 64 o,
         srcXa := k.src.xa, dstXa := k.dst.xa, srcSlot := k.src.slot, dstSlot := k.dst.slot, len := m,
         joinable := !bit w 25 && decide (cs.length = 1), tile := k.tileNow, pc := k.pc } : Planned)
    d.haulNext c ch { k with planned := ps }
  | _ => d

/-- The place that an address in a space names (R237). -/
def locOf (c : Nat) (k : Channel) (space : Nat) (a : W64) (xa : Nat) (slot : Bool) : Loc :=
  match space with
  | 0 => .slice c a.toNat
  | 1 => if slot then .slot ((k.arg xa).setWidth 32) (bits a 31 0) else .window (BitVec.ofNat 32 (bits a 63 32)) (bits a 31 0)
  | 2 => .dva (a.toNat % 2 ^ 57)
  | 3 => .remote (bits (k.arg xa) 15 0) (BitVec.ofNat 32 (bits a 63 32)) (bits a 31 0)
  | _ => .chain

def isRemote : Loc → Option Nat
  | .remote peer _ _ => some peer
  | _ => none

def remoteGate (d : Device) (p : Nat) (src dst : Loc) : RemoteGate :=
  match isRemote src, isRemote dst with
  | none, none => .go none
  | some _, some _ => .fail 0x0402
  | a, b =>
    let peer := (a.or b).getD 0
    match d.bindingTo p peer, d.routePort peer with
    | some b, some n =>
      if d.confidential p && !d.trusted peer then .fail 0x0405
      else
        let engine := fun (k : Nat) => k % 4 == b % 4 && d.routePort (d.binding k).peer.toNat == some n
        let load := ((List.range 64).filter engine).foldl (fun m k => m + (d.binding k).pieces.length) 0
        if 16 ≤ (d.binding b).pieces.length ∨ 64 ≤ load then .full else .go (some b)
    | _, _ => .fail 0x0406

/-- The channel issues its next piece (R239, R397). -/
def issuePiece (c ch : Nat) (d : Device) : Device :=
  let k := d.channel c ch
  match k.planned with
  | [] => d
  | p :: r =>
    if k.state ≠ .running || d.frozen c || (r.isEmpty && !k.ending && joins k k.word p) then d
    else
      let src := locOf c k p.srcSpace p.src p.srcXa p.srcSlot
      let dst := locOf c k p.dstSpace p.dst p.dstXa p.dstSlot
      let pdk := (d.pdkOfCore c).getD 0
      match d.remoteGate pdk src dst with
      | .full => d.haulWait c ch .linkCredit
      | .fail code => d.haltChannel c ch code (locDetail code (if (isRemote src).isSome then src else dst)) (some p.pc)
      | .go b =>
        let i := d.nextPiece
        let d := match b with
          | some b => d.modBinding b fun x => { x with pieces := x.pieces ++ [i] }
          | none => d
        let d := d.setChannel c ch { k with planned := r, wait := .none }
        d.startPiece (freshPiece (.channel c ch) (d.ctxOf c) pdk k.job src dst p.len p.tile p.pc)

/-! ### Tile streams (R245 to R247) -/

/-- The channel halts on a Chute rule. -/
def chuteHalt (d : Device) (c ch : Nat) : Device := d.haltChannel c ch CHUTE_FAULT 0
/-- The Chute may be bound by the channel: in handle mode, empty, and bound to nothing. -/
def bindable (d : Device) (core n : Nat) : Bool :=
  let k := d.chute core n
  k.handle && k.entries.isEmpty && k.bound == .none

def haulTringOp (c ch : Nat) (w : W64) (k : Channel) (d : Device) : Device :=
  let fch := bits w 7 4
  let fcore := bits w 11 8
  let rch := bits w 15 12
  let size := (if bits w 27 16 = 0 then 4096 else bits w 27 16) * 256
  let p := (d.pdkOfCore c).getD 0
  let a := k.addr k.dst
  let place : Option (W32 × Nat × Nat × Nat) := match locOf c k k.dst.space a k.dst.xa k.dst.slot with
    | .slice _ o => some (0, o, o, c)
    | .remote _ _ _ => none
    | l => match d.winEnd p l with
      | some (h, o, _) =>
        let x := d.window (256 * p + winSlot h)
        some (h, o, x.base + o, x.core)
      | none => none
  match place with
  | none => d.chuteHalt c ch
  | some (h, o, so, core) =>
    if fcore ≠ core || !d.bindable core fch || !d.bindable c rch || (core == c && fch == rch) then d.chuteHalt c ch
    else
      let d := d.setChute core fch { d.chute core fch with bound := .full, bch := ch, bcore := c }
      let d := d.setChute c rch { d.chute c rch with bound := .free, bch := ch, bcore := c }
      d.haulNext c ch { k with olds := k.ring.toList ++ k.olds,
                               ring := some { id := k.olds.length + k.ring.toList.length, space := k.dst.space, handle := h,
                                              off := o, soff := so, core := core, size := size,
                                              fullChute := fch, freeChute := rch, next := 0, open_ := false,
                                              unreturned := [] } }

def haulTnextOp (c ch : Nat) (_ : W64) (k : Channel) (d : Device) : Device :=
  match k.ring with
  | none => d.chuteHalt c ch
  | some r =>
    if r.open_ then d.chuteHalt c ch
    else if r.unreturned.length ≥ 4 then d.haulWait c ch .tile
    else
      let o := r.off + r.size * (r.next % 4)
      let base := if r.space = 0 then BitVec.ofNat 64 o else BitVec.ofNat 64 (r.handle.toNat * 2 ^ 32 + o % 2 ^ 32)
      d.haulNext c ch { k with dst := { k.dst with space := r.space, base := base, slot := false },
                               ring := some { r with next := r.next + 1, open_ := true } }

/-- Whether every write that the channel issued has been granted, merge-buffer entries included, which drain (R255). -/
def landed (d : Device) (c ch : Nat) : Device × Bool :=
  if d.owes (ofChannel c ch) then (d, false)
  else
    let d := d.drainChannel c ch
    (d, !d.writesPending c ch)

def haulTputOp (c ch : Nat) (_ : W64) (k : Channel) (d : Device) : Device :=
  match k.ring with
  | none => d.chuteHalt c ch
  | some r =>
    if !r.open_ then d.chuteHalt c ch
    else match d.landed c ch with
      | (d, false) => d
      | (d, true) =>
        let n := r.next - 1
        let so := r.soff + r.size * (n % 4)
        let v := slotHandle so r.core (r.size / 256) (tileTag n)
        if so % 256 ≠ 0 || decide (2 ^ 26 < so + r.size) then d.chuteHalt c ch
        else match d.push (.channel c ch) r.core r.fullChute v true 0 with
          | (d, false) => d.haulWait c ch .chute
          | (d, true) =>
            d.haulNext c ch { k with ring := some { r with open_ := false, unreturned := r.unreturned ++ [(n, so)] } }

/-- The channel pops a returned handle from its FREE Chute: the oldest unreturned tile's, or it halts (R246). -/
def creditReturn (c ch : Nat) (d : Device) : Device :=
  let k := d.channel c ch
  match k.ring with
  | none => d
  | some r =>
    if k.state ≠ .running then d
    else match d.popChute c r.freeChute with
      | none => d
      | some (d, v) =>
        match r.unreturned with
        | (n, so) :: rest =>
          if hOffset v = so ∧ handleTag v = tileTag n then
            d.modChannel c ch fun k => { k with
              ring := some { r with unreturned := rest }, fetched := Table.erase k.fetched (2 ^ 32 * r.id + n),
              wait := if k.wait = .tile then .none else k.wait }
          else d.chuteHalt c ch
        | [] => d.chuteHalt c ch

/-! ### Handles and windows (R223, R225, R235, R237, R256) -/

def haulHpopOp (c ch : Nat) (w : W64) (k : Channel) (d : Device) : Device :=
  let n := bits w 11 8
  let x := d.chute c n
  if !x.handle || (x.bound == .free && x.bch != ch) then d.chuteHalt c ch
  else match d.popChute c n with
    | none => d.haulWait c ch .chute
    | some (d, v) => (d.holdHandle c v).haulNext c ch { k with h := Table.set k.h 0 (bits w 5 4) v }

def haulHpushOp (c ch : Nat) (w : W64) (k : Channel) (d : Device) : Device :=
  let v := Table.get k.h 0 (bits w 5 4)
  let n := bits w 11 8
  let core := bits w 15 12
  if !d.samePaddock c core || !d.suits (.channel c ch) core n true || !d.goodHandle c v then d.chuteHalt c ch
  else match d.landed c ch with
    | (d, false) => d
    | (d, true) =>
      match d.push (.channel c ch) core n v true 0 with
      | (d, false) => d.haulWait c ch .chute
      | (d, true) => (d.giveHandle c v).haulNext c ch k

def haulHbaseOp (c ch : Nat) (w : W64) (k : Channel) (d : Device) : Device :=
  let v := Table.get k.h 0 (bits w 5 4)
  let g := k.gen (bit w 6)
  let base := BitVec.ofNat 64 (hOffset v)
  let g := if hCore v = c then { g with space := 0, base := base, slot := false }
           else { g with space := 1, base := base, xa := bits w 10 8, slot := true }
  d.haulNext c ch (k.setGen (bit w 6) g)

def haulWopenOp (c ch : Nat) (w : W64) (k : Channel) (d : Device) : Device :=
  let p := (d.pdkOfCore c).getD 0
  let off := (k.arg (bits w 10 8)).toNat
  let len := (k.arg (bits w 14 12)).toNat
  match d.winOpenCheck p c off len (d.core c).job (d.ctxOf c) with
  | .inl code => d.haltChannel c ch code 0
  | .inr s =>
    let (d, h) := d.winOpen p s c off len (bit w 15) (bit w 16) (bit w 17) (bit w 18) (d.core c).job (d.ctxOf c) none
    d.haulNext c ch { k with h := Table.set k.h 0 (bits w 5 4) (h.setWidth 64) }

def haulWcloseOp (c ch : Nat) (w : W64) (k : Channel) (d : Device) : Device :=
  let h : W32 := (Table.get k.h 0 (bits w 5 4)).setWidth 32
  let key := 256 * (d.pdkOfCore c).getD 0 + winSlot h
  let x := d.window key
  if x.state = .free || !winNames x h then d.haltChannel c ch 0x0401 (winDetail h 0)
  else (d.winClose key).setChannel c ch { k with closing := some key, wait := .window }

/-! ### SKIDMARK, TWAIT, END (R232, R235, R250) -/

def haulSkidmarkOp (c ch : Nat) (w : W64) (k : Channel) (d : Device) : Device :=
  if d.owes (ofChannel c ch) then d
  else (d.setSkid c (d.skidTo c ++ [.marker (bits w 11 4) (bits w 15 12) (bits w 31 16) (c, ch)])).haulNext c ch { k with beat := [] }

def haulTwaitOp (c ch : Nat) (w : W64) (k : Channel) (d : Device) : Device :=
  if (k.arg (bits w 10 8)).toNat ≤ d.now then d.haulNext c ch k else d.haulWait c ch .tally
/-- A waiting TWAIT goes on once the Tally reaches its argument. -/
def haulTwaitReached (c ch : Nat) (w : W64) (k : Channel) (d : Device) : Device :=
  if k.wait = .tally ∧ (k.arg (bits w 10 8)).toNat ≤ d.now then d.haulNext c ch k else d

/-- The channel stops issuing; a ring's Chutes are bound no longer. -/
def haulEndOp (c ch : Nat) (_ : W64) (k : Channel) (d : Device) : Device :=
  let k := { k with ending := true, ring := none, olds := [], fetched := [], loops := [], wait := .none }
  ((d.unbind c ch).setChannel c ch k).traceRec c 5 0 0 (ch + 2 ^ 8)
/-- An ended channel whose requests are all complete is IDLE. -/
def channelIdle (c ch : Nat) (d : Device) : Device :=
  let k := d.channel c ch
  if k.state = .running && k.ending && !d.owes (ofChannel c ch) && !d.writesPending c ch then
    d.setChannel c ch { k with state := .idle, ending := false, stopping := false }
  else d

end Device

/-- A command on channel `ch` of core `c`. -/
def onChannel (c ch : Nat) (s : State) (f : Device → Device) : Res0 := if ch < 2 then onUnit 12 c s f else .fault .absentUnit

/-- HAUL_END (R232). -/
def execHaulEnd (core ch : Nat) (s : State) : Res0 := onChannel core ch s (Device.haulStep core ch 0x0 (Device.haulEndOp core ch))
/-- CHANNEL_IDLE (R232). -/
def execChannelIdle (core ch : Nat) (s : State) : Res0 := onChannel core ch s (Device.channelIdle core ch)
/-- HAUL_BASE (R237). -/
def execHaulBase (core ch : Nat) (s : State) : Res0 := onChannel core ch s (Device.haulStep core ch 0x1 (Device.haulBaseOp core ch))
/-- HAUL_STRIDE (R238). -/
def execHaulStride (core ch : Nat) (s : State) : Res0 :=
  onChannel core ch s (Device.haulStep core ch 0x2 (Device.haulStrideOp core ch))
/-- HAUL_LOOP (R238). -/
def execHaulLoop (core ch : Nat) (s : State) : Res0 := onChannel core ch s (Device.haulStep core ch 0x3 (Device.haulLoopOp core ch))
/-- MOVE (R239, R240). -/
def execMove (core ch : Nat) (s : State) : Res0 := onChannel core ch s (Device.haulStep core ch 0x4 (Device.haulMoveOp core ch))
/-- PIECE_ISSUE (R239). -/
def execPieceIssue (core ch : Nat) (s : State) : Res0 := onChannel core ch s (Device.issuePiece core ch)
/-- TRING (R245). -/
def execTring (core ch : Nat) (s : State) : Res0 := onChannel core ch s (Device.haulStep core ch 0x5 (Device.haulTringOp core ch))
/-- TNEXT (R246). -/
def execTnext (core ch : Nat) (s : State) : Res0 := onChannel core ch s (Device.haulStep core ch 0x6 (Device.haulTnextOp core ch))
/-- TPUT (R246). -/
def execTput (core ch : Nat) (s : State) : Res0 := onChannel core ch s (Device.haulStep core ch 0x7 (Device.haulTputOp core ch))
/-- TILE_CREDIT_RETURN (R246). -/
def execTileCreditReturn (core ch : Nat) (s : State) : Res0 := onChannel core ch s (Device.creditReturn core ch)
/-- HPOP (R235). -/
def execHpop (core ch : Nat) (s : State) : Res0 := onChannel core ch s (Device.haulStep core ch 0x8 (Device.haulHpopOp core ch))
/-- HPUSH (R256). -/
def execHpush (core ch : Nat) (s : State) : Res0 := onChannel core ch s (Device.haulStep core ch 0x9 (Device.haulHpushOp core ch))
/-- HBASE (R237). -/
def execHbase (core ch : Nat) (s : State) : Res0 := onChannel core ch s (Device.haulStep core ch 0xA (Device.haulHbaseOp core ch))
/-- WOPEN (R223). -/
def execWopen (core ch : Nat) (s : State) : Res0 := onChannel core ch s (Device.haulStep core ch 0xB (Device.haulWopenOp core ch))
/-- WCLOSE (R225). -/
def execWclose (core ch : Nat) (s : State) : Res0 := onChannel core ch s (Device.haulStep core ch 0xC (Device.haulWcloseOp core ch))
/-- SKIDMARK (R250). -/
def execSkidmark (core ch : Nat) (s : State) : Res0 :=
  onChannel core ch s (Device.haulStep core ch 0xD (Device.haulSkidmarkOp core ch))
/-- TWAIT (R235). -/
def execTwait (core ch : Nat) (s : State) : Res0 := onChannel core ch s (Device.haulStep core ch 0xE (Device.haulTwaitOp core ch))
/-- TWAIT_REACHED (R235). -/
def execTwaitReached (core ch : Nat) (s : State) : Res0 :=
  onChannel core ch s (Device.haulStep core ch 0xE (Device.haulTwaitReached core ch))

end Sys2Proof.Machine
end

