-- ==== Sys2Proof/Machine/StepOps.lean ====
section
/-! DEFINITION. Steps of continuous batching: the step job's arrival, the close of a batch, its list and its release
(spec 11: R372 to R378). -/

namespace Sys2Proof.Machine

/-- Inserts by an order; a stable insertion sort. -/
def insertBy {α : Type} (lt : α → α → Bool) (a : α) : List α → List α
  | [] => [a]
  | b :: r => if lt a b then a :: b :: r else b :: insertBy lt a r
/-- The list in the order `lt`, equal elements in their given order. -/
def sortBy {α : Type} (lt : α → α → Bool) : List α → List α
  | [] => []
  | a :: r => insertBy (fun x y => !lt y x) a (sortBy lt r)

namespace Device

/-- The Paddock's step job, if it runs one. -/
def stepJob (d : Device) (p : Nat) : Option (Nat × Job) := d.jobs.find? fun kv => kv.2.paddock == p && kv.2.step
/-- Every core of the step job waits at the step Muster. -/
def stepArrived (d : Device) (p : Nat) : Bool :=
  match d.stepJob p with
  | some (_, v) => !v.cores.isEmpty && v.cores.all fun c => (d.core c).musWaiting && (d.core c).musId == 0xFFF
  | none => false

/-- The entries of a batch in the order of R377, for step number `k`. -/
def batchOrder (d : Device) (p k : Nat) : List (Nat × Bool) × Nat :=
  let active := d.seqs.filter fun kv => kv.2.paddock == p && kv.2.state == .active
  let fgs := active.filter fun kv => (d.share p kv.2.share).fg
  let bat := active.filter fun kv => !(d.share p kv.2.share).fg
  let firstOf := fun (q : Seq) => if q.first = 0 then k else q.first
  let fgs := sortBy (fun (a b : Nat × Seq) => decide (firstOf a.2 < firstOf b.2)) fgs
  let bat := sortBy (fun (a b : Nat × Seq) =>
    let x := (d.share p a.2.share).acct
    let y := (d.share p b.2.share).acct
    if x ≠ y then decide (x < y)
    else if a.2.share ≠ b.2.share then decide (a.2.share < b.2.share)
    else decide (a.2.last < b.2.last)) bat
  let m := (d.pdk p).batchMax
  let take := (fgs ++ bat).take m
  (take.map fun kv => (kv.1, kv.2.first == 0), min m fgs.length)

/-- Joins and leaves taken before the close take effect (R375). -/
def settleSeqs (d : Device) (p : Nat) : Device :=
  Table.foldl d.seqs (fun d i q =>
    if q.paddock == p && q.state == .joining then d.setSeq i { q with state := .active }
    else if q.paddock == p && q.state == .leaving then (d.leaveDone i).seqIdle i
    else d) d

/-- The close of a step at C = now for the instant S (R373, R377): an empty batch uses no step number. -/
def closeBatch (d : Device) (p instant : Nat) : Device :=
  let d := d.settleSeqs p
  let k := (d.pdk p).stepNum + 1
  let (es, fg) := d.batchOrder p k
  if es.isEmpty then d
  else
    let d := es.foldl (fun d e => d.setSeq e.1 { d.seq e.1 with first := if e.2 then k else (d.seq e.1).first, last := d.now }) d
    d.modPdk p fun x => { x with closed := some { step := k, instant := instant, closedAt := d.now, entries := es, fg := fg, time := 0 } }

/-- Step k ends: each of its sequences' step fences is signalled with k, and a refusal is reported (R374). -/
def endStep (d : Device) (p : Nat) : Device :=
  match (d.pdk p).inStep with
  | none => d
  | some b =>
    let d := (d.chargeStep p).modPdk p fun x => { x with inStep := none }
    b.entries.foldl (fun d e =>
      let q := d.seq e.1
      match d.findFence q.context q.fence with
      | none => d
      | some i =>
        let (d, code) := d.signalFence i (BitVec.ofNat 64 b.step)
        if code ≠ 0 then d.postQueue q.ring (d.pdkEvent p 3 code 0 q.context (seqHandle q.gen e.1)) else d) d

/-- The step job arrives at the step Muster (R373, R374). -/
def stepArrive (d : Device) (p : Nat) : Device :=
  if !d.stepArrived p then d
  else
    let d := d.endStep p
    let k := d.pdk p
    if !k.stepEn then d
    else if k.periodic then
      match k.stepDue with
      | some s => (d.modPdk p fun x => { x with stepDue := none }).closeBatch p s
      | none => d
    else if k.closed.isNone then d.closeBatch p d.now
    else d

/-- The bytes of the batch list (Table 11.4). -/
def batchList (d : Device) (b : Batch) : List Byte :=
  toBytes 8 b.step ++ toBytes 8 b.instant ++ toBytes 2 b.entries.length ++ toBytes 2 b.fg ++ toBytes 44 0 ++
  (b.entries.zipIdx.flatMap fun (e, i) =>
    let q := d.seq e.1
    let fg := decide (i < b.fg)
    toBytes 4 (seqHandle q.gen e.1).toNat ++ toBytes 1 (b2n e.2 + 2 * b2n fg) ++ toBytes 1 q.share ++ toBytes 2 0 ++
    toBytes 8 q.arg0.toNat ++ toBytes 8 q.arg1.toNat ++ toBytes 4 q.fence.toNat ++ toBytes 4 0)

/-- The instant has come at which the closed batch of a Paddock may be released (R373). -/
def stepReady (d : Device) (p : Nat) (b : Batch) : Bool :=
  d.stepArrived p && (match d.stepJob p with
    | some (_, v) => v.state == .running
    | none => false) &&
  (if (d.pdk p).periodic then decide (max b.instant (b.closedAt + 1000) ≤ d.now) else true)

/-- Writes the batch list where the step job's cores ask for it, releases its cores, and counts the step (R373, R378). -/
def releaseStep (d : Device) (p : Nat) : Device :=
  match (d.pdk p).closed, d.stepJob p with
  | some b, some (_, v) =>
    if !d.stepReady p b then d
    else
      let bytes := d.batchList b
      let d := v.cores.foldl (fun d c => if (d.core c).stepEn then d.writeYard c (d.core c).stepOff bytes else d) d
      let late := (d.pdk p).periodic && decide (b.instant < d.now)
      let d := d.modPdk p fun x => { x with
        closed := none, inStep := some b, stepNum := b.step, lastN := b.entries.length, lastFg := b.fg,
        late := if late then satNat 16 (x.late + 1) else x.late }
      (d.releaseCores v.cores).progress p
  | _, _ => d

end Device

end Sys2Proof.Machine
end

