-- ==== Sys2Proof/Machine/XltUnit.lean ====
section
/-! DEFINITION. Events of private memory, host memory and translation: bursts, GO and data, Translation Completions, page
requests, invalidations and flushes, the end of a segment's zeroing (spec 09: R273, R283 to R300). -/

namespace Sys2Proof.Machine
namespace Device

/-! ### Private memory (R232, R273, R283 to R285) -/

/-- The unit that an error outside the model hit: one of those read, which one is open. -/
def hitUnit (d : Device) (us : List Nat) : Nat := us.getD ((d.freeWord 6).toNat % us.length) 0

/-- An error of a read: counted, recorded, and the piece fails at `l` (R233, R283). -/
def privError (d : Device) (i : Nat) (p : Piece) (q : Nat) (code : Code) (l : Loc) : Device :=
  (d.privFail p.pdk p.ctx q code).failPiece i code l

/-- A single-bit link error was corrected in the read of a unit. -/
def privCorrected (d : Device) (p q : Nat) : Device :=
  d.modChan (d.privLine p q).1 fun k => { k with ce := k.ce + 1 }

/-- The checks of a read of these units with what the controller found; `next` continues a good one. -/
def privChecked (d : Device) (i : Nat) (p : Piece) (us : List Nat) (check : MemCheck) (l : Loc) (next : Device → Device) : Device :=
  let q := d.hitUnit us
  match check with
  | .good => next d
  | .corrected => next (d.tookFree.privCorrected p.pdk q)
  | .linkUncorr => d.tookFree.privError i p q 0x0303 l
  | .macFail => d.tookFree.privError i p q 0x0302 l

/-- The read of a piece's range returns: of its source, or of the lines that its write covers in part (R284). It was accepted
before, so a fence no longer refuses it; the data of a stopped owner are discarded (R302). -/
def privRead (i : Nat) (check : MemCheck) (d : Device) : Device :=
  match d.piece i with
  | none => d
  | some p =>
    if !p.bursts.isEmpty then d
    else if p.phase = .read ∧ p.src.isPriv then
      d.privChecked i p (privUnits p.place p.len) check p.src fun d =>
        match d.readPriv p.pdk p.place p.len with
        | .inl bs => d.gotData i p bs
        | .inr q => d.privError i p q 0x0302 p.src
    else if p.phase = .write ∧ p.dst.isPriv then
      let us := (privUnits p.place p.len).filter fun q => !wholeLine p.place p.len q
      if us.isEmpty then d else d.privChecked i p us check p.dst fun d => d
    else d

/-- The write bursts of a piece complete at their channels, in issue order. -/
def privWritten (i : Nat) (d : Device) : Device :=
  match d.piece i with
  | none => d
  | some p =>
    if p.phase = .write ∧ p.dst.isPriv ∧ p.bursts.isEmpty ∧ d.first i p then
      match d.writePriv p.pdk p.place p.data with
      | .inr q => d.privError i p q 0x0302 p.dst
      | .inl d => d.complete i
    else d

/-- Every line of a new segment holds zeros under the present keys, and its creation completes (R273). -/
def segZeroed (p entry : Nat) (d : Device) : Device :=
  match Table.find d.segs (256 * p + entry) with
  | none => d
  | some e =>
    match d.objs.find? fun kv => kv.2.used && kv.2.zeroing && kv.2.space == .priv && kv.2.paddock == p && kv.2.context == e.owner &&
        kv.2.seg == e.seg with
    | none => d
    | some (i, o) =>
      let zero : Line := { key := (d.pdkSec p).memKey, data := 0 }
      let d := ((List.range (e.len * 32768)).map (e.base * 32768 + ·)).foldl (fun d q =>
        let (c, l) := d.privLine p q
        d.modChan c fun k => { k with lines := Table.set k.lines Line.reset l zero }) d
      let h := handleOf 1 o.gen i
      let d := d.setObj i { o with zeroing := false }
      (List.range 48).foldl (fun d n =>
        match (d.stall n).q.accepted.find? fun m => m.opcode == 6 && m.phase == .running && m.handle == h with
        | some m => d.finishCmd (d.stall n).queue m.seq 0 h
        | none => d) d

/-! ### CXL.cache (R287, R288) -/

/-- Read data arrive and go on to the piece's destination. -/
def hostData (i : Nat) (data : List Byte) (d : Device) : Device :=
  match d.piece i with
  | none => d
  | some p => if p.phase = .read ∧ p.src.isHost ∧ data.length = p.len then d.gotData i p data else d
/-- GO: the piece's host writes are ordered, and later ones may be sent. -/
def hostGo (i : Nat) (d : Device) : Device :=
  match d.piece i with
  | none => d
  | some p => if p.phase = .write ∧ p.dst.isHost then d.complete i else d

/-! ### Walkers (R294 to R296) -/

/-- A miss that waited joins a busy walker of its group, takes a free walker, or goes on waiting. -/
def feedMiss (d : Device) (m : Miss) : Device :=
  match m with
  | .piece i => (match d.piece i with
    | none => d
    | some p => match needEnd p with
      | none => d
      | some (a, _) => d.takeMiss p.ctx (a / 65536) p.pdk m)
  | .queue _ _ ctx p g => d.takeMiss ctx g p m
/-- Misses that waited are served in arrival order (R294). -/
def feedWalkers (d : Device) : Device := d.xlt.misses.foldl feedMiss (d.modXlt fun x => { x with misses := [] })

/-- A waiting piece is refused its translation. -/
def denyPiece (d : Device) (code : Code) (i : Nat) : Device :=
  match d.piece i with
  | none => d
  | some p => match needEnd p with
    | none => d
    | some (a, _) => (d.xltFault p.ctx p.pdk a code).failPiece i code (.dva a)
/-- Every piece of a walker is refused, and the walker is free. -/
def failWalker (d : Device) (w : Nat) (v : Walker) (code : Code) : Device :=
  let d := d.modXlt fun x => { x with walkers := Table.erase x.walkers w }
  let d := v.pieces.foldl (fun d i => d.denyPiece code i) d
  d.feedWalkers

/-- The page that a completion reports for an address, with the page's size. -/
def pageOf (r : AtsResult) (a : Nat) : Option AtsPage :=
  if r.size = 2 ^ 21 ∨ r.size = 2 ^ 30 then r.pages.head? else r.pages.find? fun g => g.page == a / 4096 % 16
def pageSpan (r : AtsResult) : PageSize := if r.size = 2 ^ 21 then .p2M else if r.size = 2 ^ 30 then .p1G else .p4K

/-- What a completion means for a waiting piece (Table 9.6). -/
def pieceAccess (d : Device) (r : AtsResult) (i : Nat) : Option Lookup :=
  match d.piece i with
  | none => none
  | some p => match needEnd p with
    | none => none
    | some (a, w) => match pageOf r a with
      | none => some .miss
      | some g =>
        if g.u then some .denied
        else if !g.r && !g.w then some .miss
        else if (if w then g.w else g.r) then some (.hit (g.hpa + a % pageBytes (pageSpan r))) else some .denied

/-- Host-space ranges that a command's descriptors name (R293). -/
def hostRanges (d : Device) (m : Cmd) : List (Nat × Nat) :=
  let rs := match m.opcode with
    | 2 =>
      let o := d.obj (handleSlot ((cmdWord m 1).setWidth 32))
      if o.space = ObjSpace.host then [(o.base, o.len)] else []
    | 3 => [(bits (cmdWord m 1) 56 0, copyLen m), (bits (cmdWord m 2) 56 0, copyLen m)]
    | 9 => [(bits (cmdWord m 3) 56 0, copyLen m)]
    | _ => []
  rs.filter fun r => !isPriv r.1
/-- A command gains its holds on what the table now holds for its buffers. -/
def holdFor (d : Device) (q : Nat) (seq : W32) : Device :=
  match d.findCmd q seq with
  | none => d
  | some m => (d.hostRanges m).foldl (fun d r => d.holdRange q seq (d.queueOf q).context r.1 r.2) d

/-- The pages of a completion fill the table (R290). -/
def fillAll (d : Device) (v : Walker) (r : AtsResult) : Device :=
  let sz := pageSpan r
  let a0 := v.group * 65536
  let grp := a0 / (16 * pageBytes sz)
  let ps := if sz = .p4K then r.pages else r.pages.take 1
  ps.foldl (fun d g =>
    if (g.r || g.w) && !g.u then
      d.fillPage v.context sz grp (if sz = .p4K then g.page % 16 else a0 / pageBytes sz % 16) g.hpa g.r g.w g.global
    else d) d

/-- ATS completion (R294, R295, R299). -/
def atsDone (w : Nat) (r : AtsResult) (d : Device) : Device :=
  match d.walker w with
  | none => d
  | some v =>
    if v.phase ≠ .translation then d
    else if v.stale then (d.setWalker w { v with stale := false }).emit (.atsRequest v.context v.group)
    else if r.denied then d.failWalker w v 0x0202
    else
      let d := d.fillAll v r
      let d := v.queued.foldl (fun d x => d.holdFor x.1 x.2) d
      let as := v.pieces.map fun i => (i, d.pieceAccess r i)
      let bad := (as.filter fun x => x.2 == some .miss).map (·.1)
      let asks := !bad.isEmpty && !v.retried && !d.xlt.priStop
      let page := match bad with
        | i :: _ => (match d.piece i with
          | some p => ((needEnd p).map (·.1)).getD 0 / 4096
          | none => 0)
        | [] => 0
      let d := if asks then
          ((d.setWalker w { v with phase := .page, pieces := bad, page := page, queued := [] }).modXlt fun x => { x with prCnt := x.prCnt + 1 }).emit
            (.pageRequest v.context (4096 * page))
        else (d.modXlt fun x => { x with walkers := Table.erase x.walkers w }).feedWalkers
      as.foldl (fun d (i, a) =>
        match a with
        | some (.hit h) => (match d.piece i with
          | none => d
          | some p => match needEnd p with
            | none => d
            | some (_, wr) => (d.setPiece i (withHpa p wr h)).resolve i 6)
        | some .denied => d.denyPiece 0x0202 i
        | some .miss => if asks then d else d.denyPiece 0x0201 i
        | none => d) d

/-- No Translation Completion within 10 ms: XLATE_FAULT. -/
def atsLate (w : Nat) (d : Device) : Device :=
  match d.walker w with
  | none => d
  | some v => if v.phase = .translation then d.failWalker w v 0x0201 else d

/-- PRG Response (R295). -/
def prgDone (w : Nat) (code : PrgCode) (d : Device) : Device :=
  match d.walker w with
  | none => d
  | some v =>
    if v.phase ≠ .page then d
    else match code with
      | .success => (d.setWalker w { v with phase := .translation, retried := true, stale := false }).emit (.atsRequest v.context v.group)
      | .invalidRequest => d.failWalker w v 0x0201
      | .responseFailure => (d.modXlt fun x => { x with priStop := true }).failWalker w v 0x0201
/-- A page request left unanswered: XLATE_FAULT. -/
def prgLate (w : Nat) (d : Device) : Device :=
  match d.walker w with
  | none => d
  | some v => if v.phase = .page then d.failWalker w v 0x0201 else d

/-! ### Invalidation and flush (R297 to R300) -/

/-- The entry's group overlaps the range. -/
def groupOverlaps (e : AtcEntry) (a n : Nat) : Bool :=
  let g := 16 * pageBytes e.size
  decide (a < (e.group + 1) * g) && decide (e.group * g < a + n)

/-- Pieces that have not used a translation which the table has lost look their pages up again (R297, R299). -/
def retranslate (d : Device) (lost : Nat → Nat → Bool) : Device :=
  Table.foldl d.pieces (fun d i p =>
    match p.phase with
    | .translate => if p.srcHpa.isSome && lost p.ctx p.src.dva? then d.setPiece i { p with redo := true } else d
    | .read => if p.dstHpa.isSome && lost p.ctx p.dst.dva? then (d.setPiece i { p with dstHpa := none }).resolve i 6 else d
    | .check => if p.dstHpa.isSome && lost p.ctx p.dst.dva? then (d.setPiece i { p with dstHpa := none }).resolve i 6 else d
    | _ => d) d
/-- An Invalidate Request: entries go, requests already sent are stale, and every agent is told. No more than 32 are outstanding
(R298). -/
def invalidate (ctx : Option Nat) (a n : Nat) (d : Device) : Device :=
  let mine := fun (c : Nat) => match ctx with
    | some k => k == c
    | none => true
  if 32 ≤ (d.xlt.invals.filter fun v => !v.flush).length then d
  else
  let d := d.modXlt fun x => { x with
    atc := x.atc.filter fun e => !((mine e.context || e.global) && groupOverlaps e a n)
    walkers := Table.mapVals x.walkers fun v =>
      if mine v.context && v.phase == .translation && decide (a < (v.group + 1) * 65536) && decide (v.group * 65536 < a + n) then
        { v with stale := true } else v
    invCnt := x.invCnt + 1 }
  (d.notify false).retranslate fun c x => mine c && decide (a < (x / 65536 + 1) * 65536) && decide (x / 65536 * 65536 < a + n)

/-- XLT_FLUSH: entries of a context, or all, go, and the acknowledgement runs (R300). -/
def flushXlt (v : W64) (d : Device) : Device :=
  let d := d.modXlt fun x => { x with atc := x.atc.filter fun e => !(bit v 20 || e.context == bits v 19 0) }
  (d.notify true).retranslate fun c _ => bit v 20 || c == bits v 19 0

/-- Host requests of an agent that came before a notice and are still on the way. -/
def owedTo (d : Device) (v : Inval) (agent : Nat) : List Nat :=
  v.pieces.filter fun i => match d.piece i with
    | some p => p.hostOut && d.agentOf p == agent
    | none => false
/-- Takes an agent off the oldest notice it still owes; the last one ends it. -/
def ackNotice (agent : Nat) : List Inval → List Inval × Bool
  | [] => ([], false)
  | v :: r =>
    if v.agents.contains agent then
      let v := { v with agents := v.agents.filter (· != agent) }
      if v.agents.isEmpty then (r, !v.flush) else (v :: r, false)
    else
      let (l, b) := ackNotice agent r
      (v :: l, b)
def ackBy (d : Device) (agent : Nat) : Device :=
  let (l, sends) := ackNotice agent d.xlt.invals
  let d := d.modXlt fun x => { x with invals := l }
  if sends then d.emit .invalidateCompletion else d

/-- An agent acknowledges once every host request that it issued before the notice is complete. -/
def invalAck (agent : Nat) (d : Device) : Device :=
  match d.xlt.invals.find? fun v => v.agents.contains agent with
  | none => d
  | some v => if (d.owedTo v agent).isEmpty then d.ackBy agent else d

/-- An agent that has not acknowledged within 1 ms is halted, and all its outstanding requests are abandoned (R298). -/
def invalLate (agent : Nat) (d : Device) : Device :=
  match d.xlt.invals.find? fun v => v.agents.contains agent with
  | none => d
  | some _ =>
    let owed := (d.pieces.filter fun kv => kv.2.hostOut && d.agentOf kv.2 == agent).map (·.1)
    let d := owed.foldl (fun d i => match d.piece i with
      | none => d
      | some p =>
        let l := if p.phase = .read then p.src else p.dst
        (d.xltFault p.ctx p.pdk l.dva? 0x0203).failPiece i 0x0203 l) d
    let d := if agent < 24 then d.haltChannel (agent / 2) (agent % 2) 0x0203 0 else d
    (d.modXlt fun x => { x with invToCnt := satInc x.invToCnt }).ackBy agent

end Device

/-- PRIVATE_READ_COMPLETE (R283). -/
def execPrivateReadComplete (pid : Nat) (check : MemCheck) (s : State) : Res0 := done s (Device.privRead pid check)
/-- PRIVATE_WRITE_COMPLETE (R232). -/
def execPrivateWriteComplete (pid : Nat) (s : State) : Res0 := done s (Device.privWritten pid)
/-- SEGMENT_ZERO_COMPLETE (R273). -/
def execSegmentZeroComplete (pdk entry : Nat) (s : State) : Res0 :=
  if entry < 256 then onUnit 6 pdk s (Device.segZeroed pdk entry) else .fault .absentUnit
/-- CXL_GO (R288). -/
def execCxlGo (pid : Nat) (s : State) : Res0 := done s (Device.hostGo pid)
/-- CXL_READ_DATA (R287). -/
def execCxlReadData (pid : Nat) (data : List Byte) (s : State) : Res0 := done s (Device.hostData pid data)
/-- CXL_SNOOP (R287). -/
def execCxlSnoop (s : State) : Res0 := done s fun d => d.emit .snoopResponse
/-- ATS_COMPLETION (R294). -/
def execAtsCompletion (walker : Nat) (r : AtsResult) (s : State) : Res0 := onUnit 16 walker s (Device.atsDone walker r)
/-- ATS_TIMEOUT (R294). -/
def execAtsTimeout (walker : Nat) (s : State) : Res0 := onUnit 16 walker s (Device.atsLate walker)
/-- PRG_RESPONSE (R295). -/
def execPrgResponse (walker : Nat) (code : PrgCode) (s : State) : Res0 := onUnit 16 walker s (Device.prgDone walker code)
/-- PAGE_REQUEST_TIMEOUT (R295). -/
def execPageRequestTimeout (walker : Nat) (s : State) : Res0 := onUnit 16 walker s (Device.prgLate walker)
/-- ATS_INVALIDATE (R297). -/
def execAtsInvalidate (ctx : Option Nat) (dva size : Nat) (s : State) : Res0 := done s (Device.invalidate ctx dva size)
/-- INVAL_ACK (R297). -/
def execInvalAck (agent : Nat) (s : State) : Res0 := onUnit 34 agent s (Device.invalAck agent)
/-- INVAL_TIMEOUT (R298). -/
def execInvalTimeout (agent : Nat) (s : State) : Res0 := onUnit 34 agent s (Device.invalLate agent)
/-- XLT_FLUSH (R300). -/
def execXltFlush (value : BitVec 64) (s : State) : Res0 := done s (Device.flushXlt value)
/-- PRI_RESUME (R295). -/
def execPriResume (s : State) : Res0 := done s fun d => d.modXlt fun x => { x with priStop := false }

end Sys2Proof.Machine
end

