-- ==== Sys2Proof/Machine/CommandOps.lean ====
section
/-! DEFINITION. Capsules: their fields and checks, the commands that act when they are taken, the start order, and the
completion of a command (spec 10: R316 to R337; spec 14: R451, R452; spec 13: R430; spec 11: R376). -/

namespace Sys2Proof.Machine

/-! ### The words of a capsule (Tables 10.6 and 10.7) -/

def capWord (w : List W64) (k : Nat) : W64 := w.getD k 0
def capOp (w : List W64) : Nat := bits (capWord w 0) 7 0
def capSeq (w : List W64) : W32 := BitVec.ofNat 32 (bits (capWord w 0) 63 32)
def capHandle (w : List W64) (k : Nat) : W32 := (capWord w k).setWidth 32
/-- The eight words of 64 bytes. -/
def capsuleWords (bs : List Byte) : List W64 := (List.range 8).map fun k => BitVec.ofNat 64 (ofBytes ((bs.drop (8 * k)).take 8))

/-- Bits that Table 10.7 names in words 1 to 7 of an opcode; the others are reserved (R9). -/
def namedBits (op : Nat) : List Nat :=
  match op with
  | 0x02 => [49, 64, 64, 64, 64, 32, 64]
  | 0x03 => [57, 57, 40, 0, 0, 32, 64]
  | 0x04 => [32, 64, 0, 0, 0, 0, 0]
  | 0x05 => [32, 64, 0, 0, 0, 0, 0]
  | 0x06 => [18, 64, 64, 57, 0, 0, 0]
  | 0x07 => [32, 0, 0, 0, 0, 0, 0]
  | 0x08 => [32, 0, 0, 0, 0, 0, 0]
  | 0x09 => [32, 26, 57, 27, 0, 32, 64]
  | 0x0A => [32, 26, 27, 4, 0, 0, 0]
  | 0x0B => [32, 0, 0, 0, 0, 0, 0]
  | 0x0C => [32, 32, 64, 64, 6, 0, 0]
  | 0x0D => [32, 0, 0, 0, 0, 0, 0]
  | 0x0E => [12, 64, 0, 0, 0, 0, 0]
  | 0x0F => [20, 46, 5, 57, 0, 0, 0]
  | 0x10 => [32, 0, 0, 0, 0, 0, 0]
  | _ => [0, 0, 0, 0, 0, 0, 0]
/-- First word with a reserved bit that is not zero. -/
def reservedWord (w : List W64) : Option Nat :=
  if bits (capWord w 0) 31 10 ≠ 0 then some 0
  else (List.range 7).findSome? fun k =>
    if 2 ^ (namedBits (capOp w)).getD k 0 ≤ (capWord w (k + 1)).toNat then some (k + 1) else none

/-- A refusal: its code, the first failing operand word, and the offending handle (R325). -/
structure Nack where
  code : Code
  word : Nat
  handle : W32
  deriving DecidableEq, Repr, Inhabited

/-- The first of the checks that fails, in the order given. -/
def firstNack : List (Bool × Nack) → Option Nack
  | [] => none
  | (true, n) :: _ => some n
  | (false, _) :: r => firstNack r

def BAD_FIELD : Code := 0x0102
def NO_OBJECT : Code := 0x0103
def NO_SLOT : Code := 0x0104
def ACCESS : Code := 0x0106
def BUSY : Code := 0x0107
def CANCELLED : Code := 0x0703

def nack (code : Code) (word : Nat) (h : W32 := 0) : Nack := { code := code, word := word, handle := h }

/-! Fields of OBJ_CREATE's word 1. -/
def ocKind (w : List W64) : Nat := bits (capWord w 1) 3 0
def ocSpace (w : List W64) : Nat := bits (capWord w 1) 5 4
def ocSeg (w : List W64) : Nat := bits (capWord w 1) 11 8
def ocCore (w : List W64) : Nat := bits (capWord w 1) 15 12

namespace Device

/-! ### What a capsule names -/

/-- A fence that a new command may name (R330, R331). -/
def liveFence (d : Device) (ctx : Nat) (h : W32) : Option Nat := (d.findFence ctx h).filter fun i => decide (0 < (d.fence i).href)
/-- The live memory object of a handle in the Yard. -/
def yardObj (d : Device) (ctx : Nat) (h : W32) : Option Nat := (d.findObj ctx h).filter fun i => (d.obj i).space == .yard
/-- A sequence that the host still references. -/
def liveSeq (d : Device) (ctx : Nat) (h : W32) : Option Nat := (d.findSeq ctx h).filter fun i => decide (0 < (d.seq i).href)
/-- HREF of what a handle names: a memory object, a fence or a sequence. -/
def hrefOf (d : Device) (ctx : Nat) (h : W32) : Option Nat :=
  match d.findObj ctx h, d.liveFence ctx h, d.liveSeq ctx h with
  | some i, _, _ => some (d.obj i).href
  | none, some i, _ => some (d.fence i).href
  | none, none, some i => some (d.seq i).href
  | none, none, none => none
/-- Changes the HREF of what a handle names. -/
def setHref (d : Device) (ctx : Nat) (h : W32) (f : Nat → Nat) : Device :=
  match d.findObj ctx h, d.liveFence ctx h, d.liveSeq ctx h with
  | some i, _, _ => (d.setObj i { d.obj i with href := f (d.obj i).href }).reapObj i
  | none, some i, _ => (d.setFence i { d.fence i with href := f (d.fence i).href }).reapFence i
  | none, none, some i =>
    let q := { d.seq i with href := f (d.seq i).href }
    if q.href = 0 ∧ q.state = .idle then d.setSeq i { Seq.reset with gen := q.gen + 1 } else d.setSeq i q
  | none, none, none => d
/-- The object is sealed and its Paddock confidential (R452). -/
def sealedIn (d : Device) (p i : Nat) : Bool := d.confidential p && d.sec.sealedObjs.contains i
/-- Memory objects that a command names, by opcode: those of its handles and of its DVA ranges (R323). -/
def objsOf (d : Device) (ctx : Nat) (w : List W64) : List (Option Nat) :=
  match capOp w with
  | 0x02 => [d.findObj ctx (capHandle w 1)]
  | 0x03 => [d.objOfDva ctx (capWord w 1).toNat (capWord w 3).toNat, d.objOfDva ctx (capWord w 2).toNat (capWord w 3).toNat]
  | 0x09 => [d.yardObj ctx (capHandle w 1), d.objOfDva ctx (capWord w 3).toNat (capWord w 4).toNat]
  | 0x0A => [d.yardObj ctx (capHandle w 1)]
  | _ => []
/-- The fence that a command names, 0 for none. -/
def fenceWord (op : Nat) : Nat :=
  match op with
  | 0x02 => 6
  | 0x03 => 6
  | 0x04 => 1
  | 0x05 => 1
  | 0x09 => 6
  | _ => 0

/-! ### Private space (R271, R274, R323) -/

/-- Units of 2 MiB in a Paddock's private space: 7/8 of each channel. -/
def privUnitsOf (d : Device) (p : Nat) : Nat := (d.chansOf p).length * (896 * 2 ^ d.cal.cap)
/-- The lowest base at which `n` units fit. -/
def privPlace (d : Device) (p n : Nat) : Option Nat :=
  lowest (fun b => d.segs.all fun kv => kv.1 / 256 != p || decide (b + n ≤ kv.2.base) || decide (kv.2.base + kv.2.len ≤ b))
    (d.privUnitsOf p + 1 - n)
/-- The lowest free segment entry of a Paddock. -/
def privEntry (d : Device) (p : Nat) : Option Nat := lowest (fun s => (Table.find d.segs (256 * p + s)).isNone) 256

/-! ### The checks of R324, one list for each opcode -/

/-- Fields that break R323, as (breaks, word). -/
def fieldChecks (d : Device) (q : Queue) (w : List W64) (peers : List Nat) : List (Bool × Nack) :=
  let c := fun (b : Bool) (k : Nat) => (b, nack BAD_FIELD k)
  let x := fun (k : Nat) => (capWord w k).toNat
  match capOp w with
  | 0x02 =>
    let n := bits (capWord w 1) 48 45
    [c (n == 0 || decide ((d.coresOf q.paddock).length < n)) 1]
  | 0x03 => [c (decide (x 3 < 4) || x 3 % 4 != 0) 3]
  | 0x09 => [c (decide (x 4 < 4) || x 4 % 4 != 0) 4]
  | 0x06 =>
    if ocKind w = 2 then [c (bits (capWord w 1) 16 4 != 0) 1, c (x 3 != 0) 3]
    else if ocKind w = 1 then
      c (bit (capWord w 1) 17 || ocSpace w == 3) 1 :: c (x 4 != 0) 4 ::
      (if ocSpace w = 0 then
        [c (bits (capWord w 1) 16 8 != 0) 1, c (x 2 % 4096 != 0 || decide (2 ^ 56 ≤ x 2)) 2,
         c (x 3 == 0 || x 3 % 4096 != 0 || decide (2 ^ 56 < x 2 + x 3)) 3]
      else if ocSpace w = 1 then
        [c (bits (capWord w 1) 16 12 != 0) 1, c (x 2 != 0) 2, c (x 3 == 0 || x 3 % 2 ^ 21 != 0) 3]
      else
        [c (ocSeg w != 0) 1, c (x 2 != 0) 2, c (x 3 == 0 || x 3 % 65536 != 0 || decide (2 ^ 26 < x 3)) 3,
         c (!(d.coresOf q.paddock).contains (ocCore w)) 1])
    else [c true 1]
  | 0x0F =>
    let sc := bits (capWord w 1) 13 12
    [c (bits (capWord w 1) 11 0 == 0xFFF || sc == 3 || (sc != 1 && bits (capWord w 1) 19 14 != 0)) 1,
     c (decide (60000000 < bits (capWord w 2) 25 0) || decide (1000000 < bits (capWord w 2) 45 26)) 2,
     c (sc != 2 && x 3 != 0) 3, c (sc != 2 && x 4 != 0) 4,
     c (sc == 2 && peers.any fun a => (d.bindingTo q.paddock a).isNone) 4]
  | _ => []

/-- Sections of a bundle's header: offset and length (Table 14.6). -/
def sections (h : List Byte) : List (Nat × Nat) :=
  (List.range (min 16 (le h 6 2))).map fun n => (le h (72 + 24 * n) 8, le h (80 + 24 * n) 8)
/-- An intake takes one whole section into a private or Yard object (R451). -/
def intakeChecks (d : Device) (s : Nat) (m : Cmd) : List (Bool × Nack) :=
  match d.intakeOf s m with
  | none => []
  | some (b, o) =>
    let src := if m.opcode = 3 then 1 else 3
    [(!(sections b.header).contains (o, copyLen m), nack BAD_FIELD src),
     (m.opcode == 3 && !isPriv (cmdWord m 2).toNat, nack BAD_FIELD 2)]

/-- Objects that are not there (step 3), then permissions that are missing (step 4). -/
def objectChecks (d : Device) (s : Nat) (m : Cmd) (w : List W64) : List (Bool × Nack) :=
  let q := (d.stall s).q
  let ctx := q.context
  let p := q.paddock
  let os := d.objsOf ctx w
  let h1 := capHandle w 1
  let fence := fun (k : Nat) => (capWord w k != 0 && (d.liveFence ctx (capHandle w k)).isNone, nack NO_OBJECT k (capHandle w k))
  let lacks := fun (i : Nat) (k : Nat) (f : Nat → Obj → Bool) =>
    match (os.getD i none) with
    | some o => (f o (d.obj o), nack ACCESS k (handleOf 1 (d.obj o).gen o))
    | none => (false, nack 0 0)
  let none_ := fun (i k : Nat) (h : W32) => ((os.getD i none).isNone, nack NO_OBJECT k h)
  let intake := (d.intakeOf s m).isSome
  match capOp w with
  | 0x02 => [none_ 0 1 h1, fence 6, lacks 0 1 fun i o => !o.rd || (d.confidential p && !d.sec.sealedObjs.contains i)]
  | 0x03 => [none_ 0 1 0, none_ 1 2 0, fence 6, lacks 0 1 fun i o => !o.rd || d.sealedIn p i,
             lacks 1 2 fun i o => !o.wr || (!intake && d.sealedIn p i)]
  | 0x04 => [((d.liveFence ctx h1).isNone, nack NO_OBJECT 1 h1)]
  | 0x05 => [((d.liveFence ctx h1).isNone, nack NO_OBJECT 1 h1)]
  | 0x07 => [((d.hrefOf ctx h1).isNone, nack NO_OBJECT 1 h1)]
  | 0x08 => [((d.hrefOf ctx h1).isNone, nack NO_OBJECT 1 h1)]
  | 0x09 =>
    let past := match (os.getD 0 none) with
      | some o => decide ((d.obj o).len < (capWord w 2).toNat + (capWord w 4).toNat)
      | none => false
    [none_ 0 1 h1, (past, nack BAD_FIELD 2), none_ 1 3 0, fence 6, lacks 1 3 fun _ o => !o.rd,
     lacks 0 1 fun i o => !o.wr || (!intake && d.sealedIn p i)]
  | 0x0A => [none_ 0 1 h1, lacks 0 1 fun i _ => d.sealedIn p i]
  | 0x0B =>
    let v := d.window (256 * p + winSlot h1)
    [(!(winNames v h1) || v.state == .free || v.owner != ctx, nack NO_OBJECT 1 h1)]
  | 0x0C =>
    [(capWord w 1 != 0 && (d.liveSeq ctx h1).isNone, nack NO_OBJECT 1 h1),
     ((d.liveFence ctx (capHandle w 2)).isNone, nack NO_OBJECT 2 (capHandle w 2)),
     ((d.pdk p).stepEn && (d.queueOf (d.pdk p).stepQueue).context != ctx, nack ACCESS 0)]
  | 0x0D => [((d.liveSeq ctx h1).isNone, nack NO_OBJECT 1 h1)]
  | 0x0F =>
    let named := (List.range 6).filter fun k => k == p || bit (capWord w 1) (14 + k)
    [(bits (capWord w 1) 13 12 == 1 && named.any d.confidential, nack ACCESS 1)]
  | _ => []

/-- Places that are used up (step 5), then states that forbid the operation (step 6). -/
def placeChecks (d : Device) (s : Nat) (w : List W64) : List (Bool × Nack) :=
  let q := (d.stall s).q
  let ctx := q.context
  let p := q.paddock
  let h1 := capHandle w 1
  match capOp w with
  | 0x06 =>
    if ocKind w = 2 then [((lowest (fun i => !(d.fence i).used) 65536).isNone, nack NO_SLOT 1)]
    else
      ((lowest (fun i => !(d.obj i).used) 65536).isNone, nack NO_SLOT 1) ::
      (if ocSpace w = 1 then
        [((d.privPlace p ((capWord w 3).toNat / 2 ^ 21)).isNone, nack NO_SLOT 3), ((d.privEntry p).isNone, nack NO_SLOT 1),
         ((d.segOf p ctx (ocSeg w)).isSome, nack BUSY 1)]
      else if ocSpace w = 2 then
        [(((d.slice (ocCore w)).freeEntry).isNone || ((d.slice (ocCore w)).freeRun ((capWord w 3).toNat / 65536)).isNone,
          nack NO_SLOT 3)]
      else [])
  | 0x07 => [(d.hrefOf ctx h1 == some (2 ^ 32 - 1), nack BUSY 1 h1)]
  | 0x0A =>
    match d.yardObj ctx h1 with
    | none => []
    | some i =>
      let o := d.obj i
      let off := (capWord w 2).toNat
      let len := (capWord w 3).toNat
      [(decide (o.len < off + len), nack 0x0402 3),
       (match d.winOpenCheck p o.core (o.base + off) len none ctx with
        | .inl code => (true, nack code 2)
        | .inr _ => (false, nack 0 0))]
  | 0x0B => [((d.window (256 * p + winSlot h1)).state == .closing, nack BUSY 1 h1)]
  | 0x0C =>
    let mine := (d.seqs.filter fun kv => kv.2.paddock == p && kv.2.state != .free).length
    [(capWord w 1 == 0 && (decide ((d.pdk p).seqQuota ≤ mine) ||
        (lowest (fun i => (d.seq i).state == .free) 65536).isNone), nack NO_SLOT 1),
     (!(d.pdk p).stepEn, nack BUSY 1),
     (match d.liveSeq ctx h1 with
      | some i => (capWord w 1 != 0 && (d.seq i).state != .idle, nack BUSY 1 h1)
      | none => (false, nack 0 0))]
  | 0x0D =>
    match d.liveSeq ctx h1 with
    | some i => [((d.seq i).state != .joining && (d.seq i).state != .active, nack BUSY 1 h1)]
    | none => []
  | 0x0E => [((d.freeSlot p).isNone, nack NO_SLOT 1)]
  | 0x0F =>
    [(decide (64 ≤ d.musterCount p) || ((d.slotOf p 2).isNone && (d.freeSlot p).isNone), nack NO_SLOT 1),
     (q.musters.any fun m => m.id == bits (capWord w 1) 11 0, nack BUSY 1)]
  | _ => []

/-- The command that a capsule would become. -/
def cmdOf (w : List W64) : Cmd :=
  { seq := capSeq w, opcode := capOp w, cpl := bit (capWord w 0) 8, ser := bit (capWord w 0) 9, w := w.drop 1, phase := .waiting,
    code := 0, handle := 0, refs := [], job := none, issued := 0, done := 0, energy := 0, overlap := false, musters := [] }

/-- The first check of R324 that the capsule fails. -/
def refusal (d : Device) (s : Nat) (w : List W64) (peers : List Nat) : Option Nack :=
  let q := (d.stall s).q
  let m := cmdOf w
  if capOp w = 0 ∨ 0x10 < capOp w then some (nack 0x0101 0)
  else match reservedWord w with
    | some k => some (nack BAD_FIELD k)
    | none => firstNack (d.fieldChecks q w peers ++ d.intakeChecks s m ++ d.objectChecks s m w ++ d.placeChecks s w)

/-! ### Commands that act when they are taken -/

/-- Creates the object or fence of an OBJ_CREATE: its handle (R328, R331). -/
def createObj (d : Device) (s : Nat) (w : List W64) : Device × W32 :=
  let q := (d.stall s).q
  if ocKind w = 2 then
    match lowest (fun i => !(d.fence i).used) 65536 with
    | none => (d, 0)
    | some i =>
      let f : Fence := { gen := (d.fence i).gen, used := true, context := q.context, value := capWord w 2, code := 0, errTally := 0,
                         href := 1, dref := 0, notify := bit (capWord w 1) 17, mirror := (capWord w 4).toNat, mirrorStopped := false,
                         queue := (d.stall s).queue, ring := q.ring, paddock := q.paddock }
      (d.setFence i f, handleOf 2 f.gen i)
  else
    match lowest (fun i => !(d.obj i).used) 65536 with
    | none => (d, 0)
    | some i =>
      let o : Obj := { gen := (d.obj i).gen, used := true, space := .host, context := q.context, paddock := q.paddock,
                       rd := bit (capWord w 1) 6, wr := bit (capWord w 1) 7, seg := 0, core := 0, guarded := false,
                       base := (capWord w 2).toNat, len := (capWord w 3).toNat, href := 1, dref := 0, zeroing := false }
      let h := handleOf 1 o.gen i
      if ocSpace w = 0 then (d.setObj i o, h)
      else if ocSpace w = 1 then
        let n := o.len / 2 ^ 21
        match d.privPlace q.paddock n, d.privEntry q.paddock with
        | some b, some e =>
          let g : Segment := { rd := o.rd, wr := o.wr, seg := ocSeg w, owner := q.context, base := b, len := n }
          ({ d with segs := Table.put d.segs (256 * q.paddock + e) g }.setObj i
            { o with space := .priv, seg := ocSeg w, base := b * 2 ^ 21, zeroing := true }, h)
        | _, _ => (d, 0)
      else
        let c := ocCore w
        let g := bit (capWord w 1) 16
        let n := o.len / 65536
        match (d.slice c).create { valid := true, guarded := g, resident := true, chute := false, base := 0, size := n,
                                   owner := q.context, job := none, frame := false, clearing := false } none,
              (d.slice c).freeRun n with
        | some y, some b => ((d.setSlice c y).setObj i { o with space := .yard, core := c, guarded := g, base := b * 65536 }, h)
        | _, _ => (d, 0)

/-- Opens the window of a WINDOW_OPEN (R223). -/
def openByCapsule (d : Device) (s : Nat) (w : List W64) : Device × W32 :=
  let q := (d.stall s).q
  match d.yardObj q.context (capHandle w 1) with
  | none => (d, 0)
  | some i =>
    let o := d.obj i
    let off := o.base + (capWord w 2).toNat
    let len := (capWord w 3).toNat
    match d.winOpenCheck q.paddock o.core off len none q.context with
    | .inl _ => (d, 0)
    | .inr k =>
      let x := capWord w 4
      (d.refObj i).winOpen q.paddock k o.core off len (bit x 0) (bit x 1) (bit x 2) (bit x 3) none q.context (some i)

/-- The sequence of a SEQ_JOIN enters the table (R375, R376): its handle. -/
def joinSeq (d : Device) (s : Nat) (w : List W64) : Device × W32 :=
  let q := (d.stall s).q
  let at_ := if capWord w 1 = 0 then lowest (fun i => (d.seq i).state == .free) 65536 else d.liveSeq q.context (capHandle w 1)
  match at_ with
  | none => (d, 0)
  | some i =>
    let old := d.seq i
    let refs := ([capHandle w 3, capHandle w 4].filterMap (d.findObj q.context)).dedup
    let share := bits (capWord w 5) 5 0
    let d := d.activate q.paddock share
    let d := (refs.foldl refObj d).refFence q.context (capHandle w 2)
    let d := d.setSeq i { gen := old.gen, state := .joining, paddock := q.paddock, context := q.context, share := share,
                          arg0 := capWord w 3, arg1 := capWord w 4, fence := capHandle w 2, ring := q.ring, leave := none, first := 0,
                          last := 0, href := if capWord w 1 = 0 then 1 else old.href, refs := refs }
    let k := d.pdk q.paddock
    let d := if !k.periodic && k.stepEn && k.closed.isNone && d.stepArrived q.paddock then d.closeBatch q.paddock d.now else d
    (d, seqHandle old.gen i)

/-- The definition of a MUSTER_SET. -/
def musterOf (w : List W64) (peers : List Nat) : MusterDef :=
  { id := bits (capWord w 1) 11 0, scope := bits (capWord w 1) 13 12, timeout := bits (capWord w 2) 25 0,
    lead := bits (capWord w 2) 45 26, paddocks := bits (capWord w 1) 19 14, peers := peers }

/-- Commands that the named range of a CANCEL holds (R327). -/
def cancelNames (m : Cmd) (x : Cmd) : Bool :=
  let span := (m.seq - (cmdWord m 1).setWidth 32).toNat
  x.opcode != 0x10 && decide (span ≤ 2 ^ 31) && decide ((x.seq - (cmdWord m 1).setWidth 32).toNat < span)
/-- One command is cancelled: a job is stopped as under R190, a copy issues nothing further. -/
def cancelOne (d : Device) (s : Nat) (x : Cmd) : Device :=
  let q := (d.stall s).queue
  match x.opcode, x.job with
  | 0x02, some j => d.endJob j CANCELLED
  | 0x0D, _ =>
    let d := match d.liveSeq (d.stall s).q.context ((cmdWord x 1).setWidth 32) with
      | some i => d.setSeq i { d.seq i with leave := none }
      | none => d
    d.finishCmd q x.seq CANCELLED x.handle
  | _, _ => (d.stopPieces (· == .command s x.seq)).finishCmd q x.seq CANCELLED x.handle
def cancelAll (d : Device) (s : Nat) (m : Cmd) : Device :=
  ((d.stall s).q.accepted.filter fun x => x.phase != .finished && cancelNames m x).foldl (fun d x => d.cancelOne s x) d

/-- Changes the queue of Stall `s`. -/
def modStallQ (d : Device) (s : Nat) (f : Queue → Queue) : Device := d.modStall s fun x => { x with q := f x.q }

/-- What the command of a taken capsule does at once, with the handle that its COMPLETE record carries. -/
def actTaken (d : Device) (s : Nat) (w : List W64) (peers : List Nat) : Device × W32 :=
  let q := (d.stall s).q
  match capOp w with
  | 0x06 => d.createObj s w
  | 0x07 => (d.setHref q.context (capHandle w 1) (· + 1), 0)
  | 0x08 => (d.setHref q.context (capHandle w 1) (· - 1), 0)
  | 0x0A => d.openByCapsule s w
  | 0x0B => (d.winClose (256 * q.paddock + winSlot (capHandle w 1)), 0)
  | 0x0C => d.joinSeq s w
  | 0x0D =>
    match d.liveSeq q.context (capHandle w 1) with
    | some i => (d.setSeq i { d.seq i with state := .leaving, leave := some ((d.stall s).queue, capSeq w) }, 0)
    | none => (d, 0)
  | 0x0E =>
    let start := if capWord w 2 = 0 then d.now else (capWord w 2).toNat
    match d.arm q.paddock 3 (bits (capWord w 1) 11 0) start with
    | some (d, _) => (d, 0)
    | none => (d, 0)
  | 0x0F =>
    match d.reserveSlot q.paddock 2 with
    | some d => (d.modStallQ s fun q => { q with musters := q.musters ++ [musterOf w peers] }, 0)
    | none => (d, 0)
  | _ => (d, 0)

/-! ### Taking (R321, R322, R325) -/

/-- Credits go back in a CREDIT record with the new limit. -/
def postCredit (d : Device) (s : Nat) : Device :=
  let q := (d.stall s).q
  (d.modStallQ s fun q => { q with taken := 0 }).postQueue q.ring
    (d.pdkEvent q.paddock 1 0 (det 20 (q.next + 32).toNat) q.context)
/-- One more capsule taken. -/
def countTaken (d : Device) (s : Nat) : Device :=
  let d := d.modStallQ s fun q => { q with taken := q.taken + 1 }
  if 8 ≤ (d.stall s).q.taken then d.postCredit s else d

/-- Translations of the host pages that an accepted command names are asked for (R293). -/
def translateAhead (d : Device) (s : Nat) (m : Cmd) : Device :=
  if !d.xlt.qxlt then d
  else
    let q := (d.stall s).q
    let qn := (d.stall s).queue
    (d.hostRanges m).foldl (fun d r =>
      let d := d.holdRange qn m.seq q.context r.1 r.2
      ((List.range ((r.1 + r.2 - 1) / 65536 + 1 - r.1 / 65536)).map (r.1 / 65536 + ·)).foldl (fun d g =>
        let lo := max r.1 (65536 * g)
        let hi := min (r.1 + r.2) (65536 * (g + 1))
        let pages := (List.range ((hi - 1) / 4096 + 1 - lo / 4096)).map (lo / 4096 + ·)
        if pages.all fun k => d.xlt.atc.any fun e => e.covers q.context (4096 * k) then d
        else d.takeMiss q.context g q.paddock (.queue qn m.seq q.context q.paddock g)) d) d

/-- The capsule at NEXT, when it has landed. -/
def headCapsule (d : Device) (s : Nat) : Option (List W64) :=
  let q := (d.stall s).q
  (Table.find q.landed (q.next.toNat % 32)).filter fun w => capSeq w == q.next
/-- The Drover takes capsules of a Stall: it is BOUND, its Paddock is not fenced, and fewer than 256 accepted commands of
its queue have not completed (R321). -/
def takes (d : Device) (s : Nat) : Bool :=
  (d.stall s).state == .bound && decide ((d.stall s).q.accepted.length < 256)
/-- The addresses that a MUSTER_SET of fabric scope lists in host memory. -/
def listsPeers (w : List W64) : Nat := if capOp w = 0x0F ∧ bits (capWord w 1) 13 12 = 2 then bits (capWord w 3) 4 0 else 0

/-- Takes a capsule: it is refused with the first check that fails, or becomes an accepted command, and acts at once where
its opcode does. -/
def takeCapsule (d : Device) (s : Nat) (w : List W64) (peers : List Nat) : Device :=
  let p := (d.stall s).q.paddock
  let d := d.modStall s fun x => { x with
    dropPosted := false
    q := { x.q with landed := Table.erase x.q.landed (x.q.next.toNat % 32), next := x.q.next + 1 } }
  let d := (d.progress p).countTaken s
  match d.refusal s w peers with
  | some n =>
    let d := d.modStall s fun x => { x with lastErr := n.code }
    d.commandRecord s n.code n.handle (capSeq w) (capOp w) n.word
  | none =>
    let q := (d.stall s).q
    let m := cmdOf w
    let refs := (d.objsOf q.context w).filterMap id
    let d := refs.foldl refObj d
    let d := if fenceWord m.opcode = 0 then d else d.refFence q.context (capHandle w (fenceWord m.opcode))
    let (d, h) := d.actTaken s w peers
    let m := { m with refs := refs, handle := h, musters := if m.opcode = 2 then (d.stall s).q.musters else [],
                      phase := if m.opcode = 0x10 then .running else .waiting }
    let d := d.modStallQ s fun q => { q with
      accepted := q.accepted ++ [m], musters := if m.opcode = 2 then [] else q.musters }
    let d := d.translateAhead s m
    if m.opcode = 0x10 then d.cancelAll s m else d

/-- The capsule at NEXT is taken, where the Drover takes capsules and `p` accepts it. -/
def takeIf (d : Device) (s : Nat) (peers : List Nat) (p : List W64 → Bool) : Device :=
  match d.headCapsule s with
  | some w => if d.takes s && p w then d.takeCapsule s w peers else d
  | none => d

/-! ### Start order (R326) -/

end Device

/-- The first command of the queue that has not started, if the order lets it start: no WAIT_FENCE ahead of it is open, and
a SIGNAL_FENCE or a command with SER has none ahead that has not completed. -/
def Queue.nextStart (q : Queue) : Option Cmd :=
  let go : List Cmd → List Cmd → Option Cmd := fun ahead rest =>
    match rest with
    | [] => none
    | m :: _ => if ahead.any (fun x => x.opcode == 5) || ((m.ser || m.opcode == 4) && !ahead.isEmpty) then none else some m
  go (q.accepted.takeWhile fun m => m.phase != .waiting) (q.accepted.dropWhile fun m => m.phase != .waiting)

namespace Device

/-- Commands between start and completion, of every queue. -/
def runningCmds (q : Queue) : Bool := q.accepted.any fun m => m.phase == .running
def anyRunning (d : Device) : Bool :=
  (d.stalls.any fun kv => kv.2.state != .free && runningCmds kv.2.q) || (d.queues.any fun kv => kv.2.qstate == 0 && runningCmds kv.2.q)
/-- Every command that runs has another beside it (R430). -/
def markOverlap (d : Device) : Device :=
  let f := fun (q : Queue) => { q with accepted := q.accepted.map fun m => if m.phase = .running then { m with overlap := true } else m }
  { d with stalls := Table.mapVals d.stalls fun x => { x with q := f x.q },
           queues := Table.mapVals d.queues fun x => { x with q := f x.q } }
/-- The energy count that a command's span is measured with (R430, R431). -/
def energyNow (d : Device) : Nat := if d.anyConfidential then d.power.energySeen else d.power.energy
/-- A command starts: progress of its queue and Paddock, and the start of its energy span. -/
def startCmd (d : Device) (q : Nat) (seq : W32) : Device :=
  let over_ := d.anyRunning
  let d := if over_ then d.markOverlap else d
  let d := d.modCmd q seq fun m => { m with phase := .running, energy := d.energyNow, overlap := over_ }
  (d.progress (d.queueOf q).paddock).queueProgress q

/-- The command of opcode `op` that stands first in start order on a BOUND Stall starts, and `go` says what it does. -/
def startNext (d : Device) (s op : Nat) (go : Device → Cmd → Device) : Device :=
  if (d.stall s).state ≠ .bound then d
  else match (d.stall s).q.nextStart with
    | some m => if m.opcode = op then go (d.startCmd (d.stall s).queue m.seq) m else d
    | none => d

/-! ### Completion (R325, R327, R329, R333, R334, R430) -/

/-- The command has ended, and nothing of it is under way. -/
def cmdEnded (d : Device) (s : Nat) (m : Cmd) : Bool :=
  if m.opcode = 0x10 ∧ m.phase = .running then
    !((d.stall s).q.accepted.any fun x => cancelNames m x)
  else m.phase == .finished && !d.owes (· == .command s m.seq)
/-- The fence that the command signals when it completes, and the value (Table 10.7). -/
def fenceOf (m : Cmd) : W32 × W64 :=
  match m.opcode with
  | 0x02 => ((cmdWord m 6).setWidth 32, cmdWord m 7)
  | 0x03 => ((cmdWord m 6).setWidth 32, cmdWord m 7)
  | 0x09 => ((cmdWord m 6).setWidth 32, cmdWord m 7)
  | 0x04 => ((cmdWord m 1).setWidth 32, cmdWord m 2)
  | _ => (0, 0)
/-- FLAGS and ENERGY of a COMPLETE record: mJ rounded to nearest, a tie free. -/
def energyDetail (d : Device) (m : Cmd) : BitVec 96 :=
  let x := d.energyNow - m.energy
  let up := if x % 1000 < 500 then 0 else if x % 1000 = 500 then (d.freeWord 7).toNat % 2 else 1
  let mj := x / 1000 + up
  det 27 (b2n m.overlap + 2 * b2n d.anyConfidential + 4 * b2n (decide (2 ^ 32 ≤ mj))) ||| det 28 (satNat 32 mj)
/-- The fence's part of a completion: what the COMPLETE record then carries as its code. -/
def settleFence (d : Device) (s : Nat) (m : Cmd) : Device × Code :=
  let q := (d.stall s).q
  let (h, v) := fenceOf m
  let refused := fun (d : Device) (code : Code) => d.commandRecord s code h m.seq m.opcode 0
  if h = 0 then (if m.code = 0 then d else d.commandRecord s m.code 0 m.seq m.opcode 0, m.code)
  else if m.code ≠ 0 then
    if m.opcode = 4 ∧ (m.code = 0x0105 ∨ m.code = 0x0108) then (d, m.code) else (d.attachTo q.context h m.code, m.code)
  else if m.opcode = 4 then (d, 0)
  else match d.findFence q.context h with
    | none => (d, 0)
    | some i =>
      let (d, code) := d.signalFence i v
      (if code = 0 then d else refused d code, code)
/-- A command that has ended completes: its fence, its records, and what it held. -/
def completeCmd (d : Device) (s : Nat) (m : Cmd) : Device :=
  let q := (d.stall s).q
  let qn := (d.stall s).queue
  let d := (d.progress q.paddock).queueProgress qn
  let d := match m.job with
    | some j => d.modPdk q.paddock fun k => { k with hangJobs := k.hangJobs.filter (· != j) }
    | none => d
  let (d, code) := d.settleFence s m
  let d := m.refs.foldl unrefObj d
  let d := if fenceWord m.opcode = 0 then d else d.unrefFence ((cmdWord m (fenceWord m.opcode)).setWidth 32)
  let d := d.dropHolds qn m.seq
  let d := if m.cpl || m.opcode == 6 || m.opcode == 0x0A || m.opcode == 0x0C then
      let e := if m.cpl then d.energyDetail m else 0
      let ev := d.pdkEvent q.paddock 0 code (det 20 m.seq.toNat ||| det 24 m.opcode ||| det 25 s ||| e) q.context m.handle
      (if m.cpl then d.tookFree else d).postQueue q.ring ev
    else d
  (d.modStallQ s fun q => { q with accepted := q.accepted.filter fun x => x.seq != m.seq }).freeMusterSlot q.paddock

end Device

end Sys2Proof.Machine
end

