-- ==== Sys2Proof/Machine/DroverUnit.lean ====
section
/-! DEFINITION. The Drover: program images, the start, release and resume of jobs, quanta, accounts, semaphores and steps
(spec 06: R148 to R152, R187; spec 11: R350 to R380). -/

namespace Sys2Proof.Machine

/-! ### Program images (R151, R152) -/

/-- A region entry (Table 6.17). -/
structure ImgRegion where
  ranks : Nat
  flags : Nat
  base : Nat
  size : Nat
  off : Nat
  len : Nat
  deriving DecidableEq, Repr, Inhabited

/-- A program image whose fields pass R152. -/
structure Image where
  bundles : Table (BitVec 256)
  regions : List ImgRegion
  musters : List MusterDef
  deriving DecidableEq, Repr, Inhabited

/-- The little-endian number of `n` bytes at byte `i`. -/
def imgNum (b : List Byte) (i n : Nat) : Nat := ofBytes ((b.drop i).take n)

def imgRegion (b : List Byte) (at_ : Nat) : ImgRegion :=
  { ranks := imgNum b at_ 2, flags := imgNum b (at_ + 2) 1, base := imgNum b (at_ + 4) 4, size := imgNum b (at_ + 8) 4,
    off := imgNum b (at_ + 16) 8, len := imgNum b (at_ + 24) 4 }
def imgMuster (b : List Byte) (at_ : Nat) : MusterDef :=
  { id := imgNum b at_ 2, scope := imgNum b (at_ + 2) 1, timeout := imgNum b (at_ + 4) 4, lead := imgNum b (at_ + 8) 4,
    paddocks := imgNum b (at_ + 12) 1,
    peers := (List.range (min 31 (imgNum b (at_ + 3) 1))).map fun k => imgNum b (at_ + 18 + 2 * k) 2 }

/-- The region exists on the core of rank `r`. -/
def ImgRegion.onRank (g : ImgRegion) (r : Nat) : Bool := g.ranks == 0 || decide (g.ranks / 2 ^ r % 2 = 1)
/-- A region entry passes R152 for a job of `cores` cores and an image of `len` bytes. -/
def regionOk (b : List Byte) (at_ len cores : Nat) : Bool :=
  let g := imgRegion b at_
  decide (g.ranks < 2 ^ cores) && decide (g.flags < 4) && imgNum b (at_ + 3) 1 == 0 && imgNum b (at_ + 12) 4 == 0 &&
  imgNum b (at_ + 28) 4 == 0 && decide (1 ≤ g.size) && decide (g.base + g.size ≤ 1024) && g.off % 4 == 0 && g.len % 4 == 0 &&
  decide (g.len ≤ g.size * 65536) && (g.len == 0 || decide (g.off + g.len ≤ len))
/-- Two entries that exist on one rank overlap. -/
def clash (cores : Nat) (a b : ImgRegion) : Bool :=
  (List.range cores).any (fun r => a.onRank r && b.onRank r) && decide (a.base < b.base + b.size) && decide (b.base < a.base + a.size)
/-- No two of a list are related. -/
def noPair {α : Type} (p : α → α → Bool) : List α → Bool
  | [] => true
  | a :: r => !(r.any (p a)) && noPair p r
/-- A Muster entry passes R152; `peerOk` says which peers have a valid binding. -/
def musterOk (b : List Byte) (at_ : Nat) (peerOk : Nat → Bool) : Bool :=
  let m := imgMuster b at_
  let n := imgNum b (at_ + 3) 1
  decide (m.id < 0xFFF) && decide (m.scope ≤ 2) && decide (n ≤ 31) && decide (m.timeout ≤ 60000000) && decide (m.lead ≤ 1000000) &&
  decide (m.paddocks < 64) && imgNum b (at_ + 13) 5 == 0 && (m.scope == 1 || m.paddocks == 0) && (m.scope == 2 || n == 0) &&
  imgNum b (at_ + 18 + 2 * n) (62 - 2 * n) == 0 && (m.scope != 2 || m.peers.all peerOk)

/-- Reads an image, or nothing where R152 ends the job with BAD_FIELD. What the image names lies inside LENGTH and inside the object. -/
def parseImage (b : List Byte) (objLen cores entry : Nat) (peerOk : Nat → Bool) : Option Image :=
  let nb := imgNum b 8 4
  let nr := imgNum b 12 1
  let nm := imgNum b 13 1
  let bo := imgNum b 16 8
  let ro := imgNum b 24 8
  let mo := imgNum b 32 8
  let len := min (imgNum b 40 8) objLen
  let rs := (List.range nr).map fun k => ro + 32 * k
  let ms := (List.range nm).map fun k => mo + 80 * k
  if imgNum b 0 4 ≠ 0x4D495850 ∨ imgNum b 4 2 ≠ 1 ∨ imgNum b 6 2 ≠ 0 ∨ imgNum b 14 2 ≠ 0 ∨ imgNum b 48 16 ≠ 0 then none
  else if nb = 0 ∨ 8192 < nb ∨ 31 < nr ∨ 64 < nm ∨ bo % 32 ≠ 0 ∨ ro % 8 ≠ 0 ∨ mo % 8 ≠ 0 then none
  else if len < 64 ∨ len < bo + 32 * nb ∨ (nr ≠ 0 ∧ len < ro + 32 * nr) ∨ (nm ≠ 0 ∧ len < mo + 80 * nm) then none
  else if nb ≤ entry then none
  else if !(rs.all fun a => regionOk b a len cores) || !(noPair (clash cores) (rs.map (imgRegion b))) then none
  else if !(ms.all fun a => musterOk b a peerOk) || !(noPair (fun (x y : MusterDef) => x.id == y.id) (ms.map (imgMuster b))) then none
  else some { bundles := (List.range nb).map fun k => (k, BitVec.ofNat 256 (imgNum b (bo + 32 * k) 32)),
              regions := rs.map (imgRegion b), musters := ms.map (imgMuster b) }

namespace Device

/-- Reads `n` bytes of a memory object at its start; host memory lies outside and brings its own read. -/
def readObj (d : Device) (o : Obj) (n : Nat) (host : ImageRead) : Device × (List Byte ⊕ Code) :=
  match o.space with
  | .host =>
    match host with
    | .bytes b => (d, .inl b)
    | .failed code => (d, .inr code)
  | .yard =>
    match d.readBytes o.core 3 o.base n with
    | (d, .inl b) => (d, .inl b)
    | (d, .inr _) => (d, .inr SPAD_UNCORR)
  | .priv =>
    match d.privCheck o.paddock o.context (objDva o) n false with
    | .inl code => (d, .inr code)
    | .inr P =>
      match d.readPriv o.paddock P n with
      | .inl b => (d, .inl b)
      | .inr q => (d.privFail o.paddock o.context q 0x0302, .inr 0x0302)

/-- The image of a job, with its bytes: its header gives how much of the object it takes. -/
def readImage (d : Device) (v : Job) (host : ImageRead) : Device × ((Image × List Byte) ⊕ Code) :=
  let o := d.obj (handleSlot v.image)
  match d.readObj o (min 64 o.len) host with
  | (d, .inr code) => (d, .inr code)
  | (d, .inl h) =>
    match d.readObj o (min (max 64 (imgNum h 40 8)) o.len) host with
    | (d, .inr code) => (d, .inr code)
    | (d, .inl b) =>
      match parseImage b o.len v.want v.entry fun a => (d.bindingTo v.paddock a).isSome with
      | some i => (d, .inl (i, b))
      | none => (d, .inr BAD_FIELD)

/-- Creates the regions of an image on the cores of a job and writes their initial contents; false where one cannot be
created (R152 steps 1 and 2). -/
def makeRegions (d : Device) (j : Nat) (v : Job) (b : List Byte) : List (Nat × Nat × ImgRegion) → Device × Bool
  | [] => (d, true)
  | (_, c, g) :: r =>
    match (d.slice c).create { valid := true, guarded := decide (g.flags % 2 = 1), resident := false, chute := decide (g.flags / 2 = 1),
                               base := g.base, size := g.size, owner := v.context, job := some j, frame := false,
                               clearing := false } (some g.base) with
    | none => (d, false)
    | some y => makeRegions ((d.setSlice c y).writeYard c (g.base * 65536) ((b.drop g.off).take g.len)) j v b r
/-- Reserves the save frame of each core: two GUARDED units of the job (R352). -/
def makeFrames (d : Device) (j : Nat) (v : Job) : List Nat → Device × Bool
  | [] => (d, true)
  | c :: r =>
    match (d.slice c).create { valid := true, guarded := true, resident := false, chute := false, base := 0, size := 2,
                               owner := v.context, job := some j, frame := true, clearing := false } none with
    | none => (d, false)
    | some y => makeFrames (d.setSlice c y) j v r

/-- The job takes its image: regions, bundles, Musters and frames, or its end with a code (R152). -/
def loadJob (d : Device) (j : Nat) (v : Job) (i : Image) (b : List Byte) : Device :=
  let places := v.cores.zipIdx.flatMap fun (c, r) => (i.regions.filter fun g => g.onRank r).map fun g => (r, c, g)
  match d.makeRegions j v b places with
  | (d, false) => d.endJob j NO_SLOT
  | (d, true) =>
    let defs := v.musters ++ i.musters.filter fun m => !(v.musters.any fun x => x.id == m.id)
    if 64 < d.musterCount v.paddock + (defs.length - v.musters.length) then d.endJob j NO_SLOT
    else match (if defs.isEmpty then some d else d.reserveSlot v.paddock 2) with
      | none => d.endJob j NO_SLOT
      | some d =>
        match d.makeFrames j v v.cores with
        | (d, false) => d.endJob j NO_SLOT
        | (d, true) =>
          let d := d.setJob j { v with bundles := i.bundles, musters := defs, loaded := true }
          { d with rounds := d.rounds ++ defs.map (Round.start v.paddock j) }

/-! ### Start, release and resume (R351, R353, R359) -/

/-- The candidate that is next in the order of R359 among those whose cores are free. -/
def nextCandidate (d : Device) (p : Nat) : Option (Nat × Job) := d.bestCandidate p fun _ v => (d.coresFor v).isSome

/-- The Drover assigns cores to the next candidate if it is READY, and reads its image. -/
def startJob (p : Nat) (img : ImageRead) (d : Device) : Device :=
  if d.fencedPdk p then d
  else match d.nextCandidate p with
    | none => d
    | some (j, v) =>
      match v.state, d.coresFor v with
      | .ready, some cs =>
        let v := { v with state := .loading, cores := cs }
        let d := cs.foldl (fun d c => d.modCore c fun k => { k with job := some j }) (d.setJob j v)
        let d := (d.startCmd v.queue v.seq).withdrawFor j
        match d.readImage v img with
        | (d, .inr code) => d.endJob j code
        | (d, .inl (i, b)) => d.loadJob j v i b
      | _, _ => d

/-- The Pens as they stand at a release or a resume (R91, R149). -/
def freshPens (p : Pens) : Pens :=
  { p with pens := [], fs20 := false, folds := 0, flags := 0, ctl := 0, flights := [], walk := none, loads := [], front := none, skidArmed := false }
/-- The Trough as it stands at a release or a resume (R143, R149); loads that an earlier job left under way have ended (R190). -/
def freshTrough (t : Trough) : Trough :=
  { t.loads.foldl Trough.landLoad t with banks := [], tags := [], bookMode := false, passes := [], loads := [], reload := 0, ctl := 0, flags := 0 }
/-- The bundles of an image in instruction memory (R148, R353). -/
def loadImem (q : Sequencer) (bs : Table (BitVec 256)) : Sequencer :=
  { q with imem := Table.foldl bs (fun m k b => Table.set m 0 k b) q.imem,
           imemBad := q.imemBad.filter fun k => !(bs.any fun kv => kv.1 == k) }
/-- A sequencer that starts at a bundle: registers zero, nothing dispatched. -/
def freshSeq (q : Sequencer) (pc : Nat) : Sequencer :=
  { q with s := [], a := [], v := [], p := [], loops := [], pc := pc, stat := .run, resumed := false, preempt := false, trap := none,
           qp := [], qt := [], qm := [], qc := [], claims := [], hold := none, gap := 0, draining := none, skipped := none }
/-- S1 to S6 at release (R149). -/
def releaseArgs (v : Job) (rank : Nat) : Table W64 :=
  let l := (v.args.take 4) ++ [BitVec.ofNat 64 rank, BitVec.ofNat 64 v.cores.length]
  (l.zipIdx.filterMap fun (x, k) => if x = 0 then none else some (k + 1, x))
/-- Core `c` of the job begins at its entry (R148, R149, R252). -/
def releaseCore (d : Device) (j : Nat) (v : Job) (c rank : Nat) : Device :=
  let d := d.modCore c fun k => { k with
    sq := { loadImem (freshSeq k.sq v.entry) v.bundles with s := releaseArgs v rank }
    pn := freshPens k.pn, tr := freshTrough k.tr, topk := none, job := some j, chutes := [], held := [], musId := 0, musRound := 0,
    musWaiting := false, stepOff := 0, stepEn := false, waits := [] }
  d.resend fun p => p.core == c

/-- The loaded job is released on its cores (R152); a queue that has left its Stall asks it to yield. -/
def releaseJob (j : Nat) (d : Device) : Device :=
  match d.job j with
  | none => d
  | some v =>
    if v.state ≠ .loading || !v.loaded || d.fencedPdk v.paddock then d
    else
      let d := v.cores.zipIdx.foldl (fun d (c, r) => d.releaseCore j v c r) d
      let d := (d.setJob j { v with state := .running, released := d.now }).progress v.paddock
      (if d.queueRuns v.queue then d else d.requestPreempt j none).consider v.paddock

/-- Core `c` takes back what its frame holds for job `j` (R187, R353). -/
def restoreCore (d : Device) (j : Nat) (v : Job) (c : Nat) : Device :=
  match (Table.get d.saved [] c).find? fun f => f.job == j with
  | none => d
  | some f =>
    let d := { d with saved := Table.set d.saved [] c ((Table.get d.saved [] c).erase f) }
    let d := d.modCore c fun k =>
      let q := loadImem (freshSeq k.sq f.pc) v.bundles
      let q := { q with s := f.s, a := f.a, v := f.v, p := f.p, loops := f.loops, resumed := true }
      { k with
        sq := (match f.kerf with
          | some r => q.setSop r 1
          | none => q)
        pn := { freshPens k.pn with fs20 := f.fs20, folds := f.folds, flags := f.flags, ctl := f.ctl }
        tr := { freshTrough k.tr with ctl := f.trgCtl, flags := f.trgFlags }
        topk := none, job := some j, chutes := f.chutes, held := f.held, musWaiting := false, waits := [] }
    (d.traceRec c 1 3 f.pc 1).resend fun p => p.core == c

/-- A yielded job, or the yielded cores of one whose request was withdrawn, go on (R187, R351, R354, R359). -/
def resumeJob (j : Nat) (d : Device) : Device :=
  match d.job j with
  | none => d
  | some v =>
    let next := match d.nextCandidate v.paddock with
      | some (k, _) => k == j
      | none => false
    let whole := v.state == .yielded && (next || v.loan.isSome) && d.queueRuns v.queue
    if !(whole || v.state == .running) || v.yielded.isEmpty || !(v.yielded.all d.freeCore) || d.fencedPdk v.paddock then d
    else
      let d := if whole then d.activate v.paddock (chargeOf v) else d
      let d := v.yielded.foldl (fun d c => d.restoreCore j v c) d
      let d := d.setJob j { v with state := .running, yielded := [], forJob := none, released := if whole then d.now else v.released }
      ((d.withdrawFor j).resumeRounds).consider v.paddock

/-- A job that has run its quantum may be pre-empted by one of its class (R360). -/
def quantumEnds (j : Nat) (d : Device) : Device :=
  match d.job j with
  | none => d
  | some v =>
    if v.state = .running ∧ !d.fencedPdk v.paddock ∧ (d.pdk v.paddock).quantum * 1000 ≤ d.now - v.released then d.consider v.paddock else d

/-- The smallest active account is taken off every account (R356). -/
def normalise (p : Nat) (d : Device) : Device :=
  match d.leastAcct p none with
  | none => d
  | some m => d.modPdk p fun k => { k with shares := Table.mapAll k.shares Share.reset fun x => { x with acct := x.acct - m } }

/-! ### Semaphores (R364) -/

/-- A write of PDK_SEM(n) with VALID set: the setup is accepted, or BAD is set. -/
def setupSem (p n : Nat) (v : W64) (d : Device) : Device :=
  let s := d.sem p n
  let ctx := bits v 19 0
  let count := bits v 23 20
  let h : W32 := BitVec.ofNat 32 (bits v 63 32)
  if !d.pdkPresent p || d.fencedPdk p || s.valid then d
  else if !bit v 24 then d.setSem p n { s with context := ctx, count := count, fence := h }
  else
    let s := { s with context := ctx, count := count, fence := h, valid := false, bad := true }
    match d.liveFence ctx h with
    | none => d.setSem p n s
    | some i =>
      if (d.fence i).code ≠ 0 ∨ count = 0 then d.setSem p n s
      else
        let b := (d.fence i).value
        let d := d.setSem p n { s with valid := true, bad := false, ticket := b.toNat + 1, abandoned := [] }
        (d.signalFence i (b + BitVec.ofNat 64 count)).1
/-- A write of VALID = 0: every waiter is released with CANCELLED. -/
def dropSem (p n : Nat) (d : Device) : Device :=
  let s := d.sem p n
  if s.valid && !d.fencedPdk p then
    match d.semFence p n with
    | some i => (d.attachError i CANCELLED).setSem p n { s with valid := false }
    | none => d.setSem p n { s with valid := false }
  else d

/-! ### Steps (R372, R373, R380) -/

/-- The slot that a Paddock reserved for STEP_START is armed for the next grid instant S, LEAD before it. -/
def armStep (d : Device) (p : Nat) : Device :=
  let k := d.pdk p
  match d.slotOf p 1 with
  | none => d
  | some n =>
    if k.periodic && decide (0 < k.stepPeriod) then
      let s := ((d.now + k.lead * 1000) / k.stepPeriod + 1) * k.stepPeriod
      d.armSlot n p 1 0 (s - k.lead * 1000)
    else d.setAlarm n { d.alarm n with armed := false }

/-- Stepping ends: the sequences become IDLE and the alarm slot is free (R380). -/
def stepsOff (d : Device) (p : Nat) : Device :=
  let d := (d.chargeStep p).idleAll p CANCELLED
  let d := match d.slotOf p 1 with
    | some n => d.freeAlarm n
    | none => d
  d.modPdk p fun k => { k with stepEn := false, closed := none, inStep := none, stepDue := none }

/-- A write of PDK_STEP_CTL. -/
def writeStepCtl (p : Nat) (v : W64) (d : Device) : Device :=
  if !d.pdkPresent p || d.fencedPdk p then d
  else
  let k := d.pdk p
  let max_ := bits v 24 16
  let k1 := if 1 ≤ max_ ∧ max_ ≤ 256 then { k with batchMax := max_ } else k
  if k.stepEn then
    let d := d.setPdk p k1
    if bit v 0 then d else d.stepsOff p
  else
    let lead := bits v 31 25
    let quota := bits v 48 32
    let k2 := { k1 with
      periodic := bit v 1, stepQueue := bits v 15 2, lead := if 1 ≤ lead ∧ lead ≤ 100 then lead else k.lead
      seqQuota := if quota ≤ 65536 then quota else k.seqQuota }
    let d := d.setPdk p k2
    if !bit v 0 || (k2.periodic && decide (k2.stepPeriod < 10000)) then d
    else match d.reserveSlot p 1 with
      | none => d
      | some d => (d.modPdk p fun k => { k with stepEn := true }).armStep p

/-- The STEP_START alarm of a Paddock fires, LEAD before the instant S: the step closes now if its job waits, else at the
job's arrival (R373). -/
def stepAlarm (slot : Nat) (d : Device) : Device :=
  if !d.fires slot 1 then d
  else
    let p := (d.alarm slot).owner
    let k := d.pdk p
    let s := (d.alarm slot).cmp + k.lead * 1000
    let d := (d.fired slot).armStep p
    if !k.stepEn || !k.periodic || k.closed.isSome then d
    else if d.stepArrived p then d.closeBatch p s
    else d.modPdk p fun k => { k with stepDue := some s }

/-- What occupies the cores of a step job that has yielded is pre-empted for a closed step (R360, R361, R373). -/
def clearForStep (d : Device) (p : Nat) : Device :=
  match d.stepJob p, (d.pdk p).closed with
  | some (j, v), some _ =>
    if v.state ≠ .yielded then d
    else
      let fg := (d.share p (chargeOf v)).fg
      ((v.yielded.filterMap fun c => (d.core c).job).eraseDups).foldl (fun d k => match d.job k with
        | some y => if (d.share p (chargeOf y)).fg && !fg then d else d.requestPreempt k (some j)
        | none => d) d
  | _, _ => d

end Device

/-- JOB_START (R351, R152). -/
def execJobStart (pdk : Nat) (img : ImageRead) (s : State) : Res0 := onUnit 6 pdk s (Device.startJob pdk img)
/-- JOB_RELEASE (R152, R149). -/
def execJobRelease (job : Nat) (s : State) : Res0 := done s (Device.releaseJob job)
/-- JOB_RESUME (R187, R354). -/
def execJobResume (job : Nat) (s : State) : Res0 := done s (Device.resumeJob job)
/-- QUANTUM_EXPIRY (R360). -/
def execQuantumExpiry (job : Nat) (s : State) : Res0 := done s (Device.quantumEnds job)
/-- ACCOUNT_NORMALISE (R356). -/
def execAccountNormalise (pdk : Nat) (s : State) : Res0 := onUnit 6 pdk s (Device.normalise pdk)
/-- SEM_SETUP (R364). -/
def execSemSetup (pdk n : Nat) (value : BitVec 64) (s : State) : Res0 :=
  if n < 16 then onUnit 6 pdk s (Device.setupSem pdk n value) else .fault .absentUnit
/-- SEM_TEARDOWN (R364). -/
def execSemTeardown (pdk n : Nat) (s : State) : Res0 :=
  if n < 16 then onUnit 6 pdk s (Device.dropSem pdk n) else .fault .absentUnit
/-- STEP_CTL_WRITE (R372, R380). -/
def execStepCtlWrite (pdk : Nat) (value : BitVec 64) (s : State) : Res0 := onUnit 6 pdk s (Device.writeStepCtl pdk value)
/-- STEP_RELEASE (R373, R378). -/
def execStepRelease (pdk : Nat) (s : State) : Res0 := onUnit 6 pdk s fun d => if d.fencedPdk pdk then d else (d.releaseStep pdk).clearForStep pdk
/-- STEP_START (R373). -/
def execStepStart (slot : Nat) (s : State) : Res0 := onUnit 256 slot s (Device.stepAlarm slot)

end Sys2Proof.Machine
end

