-- ==== Sys2Proof/Machine/HostUnit.lean ====
section
/-! DEFINITION. Stalls and the queue table, capsule writes, parking, event rings, MSI-X vectors and mirrors (spec 10: R308,
R311 to R320, R337 to R344; spec 11: R369 to R371). -/

namespace Sys2Proof.Machine

namespace Device

/-! ### Binding (R311 to R315) -/

/-- A context is bound to a Paddock while a queue of it is not OUT or an object or fence of it exists (R314). -/
def boundTo (d : Device) (ctx : Nat) : List Nat :=
  (((List.range 48).filter fun s => (d.stall s).state != .free && (d.stall s).q.context == ctx).map fun s => (d.stall s).q.paddock) ++
  ((d.objs.filter fun kv => kv.2.used && kv.2.context == ctx).map fun kv => kv.2.paddock) ++
  ((d.fences.filter fun kv => kv.2.used && kv.2.context == ctx).map fun kv => kv.2.paddock)
/-- A Stall already holds or loads the queue. -/
def resident (d : Device) (queue : Nat) : Bool := (List.range 48).any fun s => (d.stall s).state != .free && (d.stall s).queue == queue
/-- The code that refuses a bind, 0 for none (R314, R347, R480, R520). -/
def bindCode (d : Device) (queue : Nat) (entry : Option QueueEntry) : Code :=
  if d.resets.devOos then 0x0702
  else if d.glb.qtabCnt.toNat ≤ queue then BAD_FIELD
  else match entry with
    | none => BAD_FIELD
    | some e =>
      if !e.valid || !e.reservedZero || e.context == 0 || !d.pdkPresent e.paddock || !(d.ring e.ring).en || e.save % 4096 != 0 then
        BAD_FIELD
      else if d.resident queue || (d.boundTo e.context).any (· != e.paddock) then BUSY
      else if (d.pdk e.paddock).rst = .outOfService then 0x0702
      else if (d.layout e.paddock).session && (d.pdkSec e.paddock).memKey == 0 && d.sec.entFail then 0x0604
      else 0

/-- BIND of a FREE Stall: the queue's entry is read and checked. -/
def bindStall (s queue : Nat) (entry : Option QueueEntry) (d : Device) : Device :=
  let x := d.stall s
  if x.state ≠ .free then d
  else
    let code := d.bindCode queue entry
    let d := if entry.isNone && !d.resets.devOos && decide (queue < d.glb.qtabCnt.toNat) then { d with glb := { d.glb with qtabFail := true } } else d
    match entry with
    | some e =>
      if code ≠ 0 then d.setStall s { x with queue := queue, status := code }
      else d.setStall s { x with
        queue := queue, state := .binding
        q := { Queue.reset with context := e.context, paddock := e.paddock, ring := e.ring, share := e.share, save := e.save } }
    | none => d.setStall s { x with queue := queue, status := code }

/-- The queue's state is loaded: NEXT is 0 at the first bind; a wrong check word of a later one refuses (R312, R317). The
queue's copies go on. -/
def boundStall (s : Nat) (checkOk : Bool) (d : Device) : Device :=
  let x := d.stall s
  if x.state ≠ .binding || (d.pdk x.q.paddock).rst != .running || (d.pdkSec x.q.paddock).phase != .none then d
  else
    let o := d.outQueue x.queue
    if o.known && !checkOk then d.setStall s { x with state := .free, status := BAD_FIELD, q := Queue.reset }
    else
      let q := { o.q with context := x.q.context, paddock := x.q.paddock, ring := x.q.ring, share := x.q.share, save := x.q.save }
      let d := d.setStall s { x with state := .bound, status := 0, q := q, dropPosted := false, fencePosted := false }
      let d := d.setOutQueue x.queue { o with known := true, qstate := 1, runnable := false, q := Queue.reset, watch := none }
      let d := d.emit (.queueEntry x.queue 1 false)
      q.accepted.foldl (fun d m => d.advanceCopy s m.seq) d

/-- READY jobs of a queue are withdrawn: their commands have not started. -/
def withdrawReady (d : Device) (queue : Nat) : Device :=
  Table.foldl d.jobs (fun d j v =>
    if v.queue == queue && v.state == .ready then
      { d with jobs := Table.erase d.jobs j }.modCmd queue v.seq fun m => { m with job := none, musters := v.musters }
    else d) d
/-- Every job of a queue is asked to yield. -/
def yieldAll (d : Device) (queue : Nat) : Device :=
  Table.foldl d.jobs (fun d j v => if v.queue == queue then d.requestPreempt j none else d) d

/-- UNBIND of a BOUND or PARKED Stall (R315). -/
def unbindStall (s : Nat) (d : Device) : Device :=
  let x := d.stall s
  if x.state = .bound ∨ x.state = .parked then
    ((d.setStall s { x with state := .unbinding }).withdrawReady x.queue).yieldAll x.queue
  else d

/-- What the head command of a queue waits for: a fence's value, or nothing (R371). -/
def headWait (d : Device) (q : Queue) : Option (Nat × W64) :=
  match q.accepted with
  | m :: _ => if m.opcode = 5 ∧ m.phase ≠ .finished then
      (d.findFence q.context ((cmdWord m 1).setWidth 32)).map fun i => (i, cmdWord m 2) else none
  | [] => none
/-- The queue leaves its Stall: it is OUT with everything that landed, and watched if it owes a command (R315, R371). -/
def unboundStall (s : Nat) (d : Device) : Device :=
  let x := d.stall s
  let holds := d.jobs.any fun kv => kv.2.queue == x.queue && kv.2.state != .yielded
  let pieces := d.owes fun o => match o with
    | .command k _ => k == s
    | .channel _ _ => false
  if x.state ≠ .unbinding || holds || pieces then d
  else
    let owes := !x.q.accepted.isEmpty
    let room := decide ((d.queues.filter fun kv => kv.2.watch.isSome).length < 1024)
    let o : OutQueue := { known := true, qstate := 0, runnable := owes && !room, q := x.q,
                          watch := if owes && room then some (d.headWait x.q) else none }
    let d := ((d.emit (.saveArea x.queue)).emit (.queueEntry x.queue 0 o.runnable)).setOutQueue x.queue o
    let d := d.setStall s { x with state := .free, q := Queue.reset, dropPosted := false, fencePosted := false }
    if o.runnable then
      d.postDev (d.pdkEvent x.q.paddock 6 0x070B 0 x.q.context (queueHandle x.queue))
    else d

/-! ### Landing (R317 to R320, R344) -/

/-- The first write that the fence of a Paddock's reset drops at a Stall posts a record (R344). -/
def fenceWrite (d : Device) (s : Nat) : Device :=
  let x := d.stall s
  if x.state = .fenced && !x.fencePosted && (d.pdk x.q.paddock).rst != .running then
    (d.modStall s fun x => { x with fencePosted := true }).postDev (d.pdkEvent x.q.paddock 6 0x0701 (det 25 s))
  else d
/-- A write of a Stall page outside its rules is dropped and counted. -/
def dropWrite (d : Device) (s : Nat) (shape : Bool) : Device :=
  let x := d.stall s
  let d := (d.setStall s { x with drop := satInc x.drop }).fenceWrite s
  if shape && (x.state == .bound || x.state == .parked) && !x.dropPosted then
    (d.modStall s fun x => { x with dropPosted := true }).commandRecord s BAD_FIELD 0 (BitVec.allOnes 32) 0 0
  else d

/-- A write at offset `off` of a Stall page. -/
def capsuleWrite (s off : Nat) (data : List Byte) (d : Device) : Device :=
  let x := d.stall s
  let n := data.length
  if 4096 ≤ off then d
  else if 0x800 ≤ off then
    if (n = 4 ∨ n = 8) ∧ off % n = 0 then d.fenceWrite s else d.dropWrite s true
  else if n ≠ 64 ∨ off % 64 ≠ 0 then d.dropWrite s true
  else if x.state ≠ .bound ∧ x.state ≠ .parked then d.dropWrite s false
  else
    let w := capsuleWords data
    let seq := capSeq w
    if 32 ≤ (seq - x.q.next).toNat ∨ (Table.find x.q.landed (seq.toNat % 32)).isSome then
      (d.setStall s { x with lastErr := 0x0109 }).commandRecord s 0x0109 0 seq (capOp w) 0
    else d.modStallQ s fun q => { q with landed := Table.put q.landed (seq.toNat % 32) w }

/-! ### Parking (R369 to R371) -/

/-- Core `c` waits in a KP-marked instruction. -/
def kpWaiting (d : Device) (c : Nat) : Bool := kpWaits (d.core c)
/-- An accepted command of the queue can start: a RUN_PROGRAM needs its cores (R369). -/
def canStart (d : Device) (q : Queue) : Bool :=
  match q.nextStart with
  | none => false
  | some m =>
    if m.opcode = 2 then
      match m.job.bind d.job with
      | some v => (d.coresFor v).isSome
      | none => decide (bits (cmdWord m 1) 48 45 ≤ ((d.coresOf q.paddock).filter d.freeCore).length)
    else true
/-- A started command that holds its queue blocked: a WAIT_FENCE that waits, or a job all of whose cores have yielded or wait
at a KP-marked instruction. -/
def holdsBlocked (d : Device) (q : Queue) (m : Cmd) : Bool :=
  if m.opcode = 5 then
    match d.findFence q.context ((cmdWord m 1).setWidth 32) with
    | some i => (d.waitDone i (cmdWord m 2)).isNone
    | none => true
  else if m.opcode = 2 then
    match m.job.bind d.job with
    | some v => !v.cores.isEmpty && v.cores.all fun c => v.yielded.contains c || d.kpWaiting c
    | none => false
  else false
/-- The queue is blocked (R369). -/
def blocked (d : Device) (q : Queue) : Bool :=
  !d.canStart q && (q.accepted.filter fun m => m.phase != .waiting).all fun m => d.holdsBlocked q m

/-- The wait of a watched OUT queue is met. -/
def watchMet (d : Device) (o : OutQueue) : Bool :=
  match o.watch with
  | none => false
  | some none => true
  | some (some (i, v)) => (d.waitDone i v).isSome
/-- RUNNABLE of a watched OUT queue is set and reported. -/
def setRunnable (queue : Nat) (d : Device) : Device :=
  let o := d.outQueue queue
  if o.known && o.qstate == 0 && !o.runnable && d.watchMet o then
    let d := (d.setOutQueue queue { o with runnable := true }).emit (.queueEntry queue 0 true)
    d.postDev (d.pdkEvent o.q.paddock 6 0x070B 0 o.q.context (queueHandle queue))
  else d

def boundOf (d : Device) (p : Nat) : List Nat := (List.range 48).filter fun s => (d.stall s).state == .bound && (d.stall s).q.paddock == p
def parkedOf (d : Device) (p : Nat) : List Nat := (List.range 48).filter fun s => (d.stall s).state == .parked && (d.stall s).q.paddock == p
/-- The conditions under which the Drover of a Paddock parks a queue (R370). -/
def mustPark (d : Device) (p : Nat) : Bool :=
  ((List.range 48).all fun s => (d.stall s).state != .free) && (d.boundOf p).all (fun s => d.blocked (d.stall s).q) &&
  decide ((d.parkedOf p).length < (d.queues.filter fun kv => kv.2.known && kv.2.qstate == 0 && kv.2.runnable && kv.2.q.paddock == p).length)
/-- The queue with the oldest progress is parked; its jobs yield (R370, R315). -/
def parkQueue (p : Nat) (d : Device) : Device :=
  if !d.mustPark p then d
  else match d.boundOf p with
    | [] => d
    | a :: r =>
      let s := r.foldl (fun b x => if (d.stall x).q.progress < (d.stall b).q.progress then x else b) a
      let x := d.stall s
      let d := (d.setStall s { x with state := .parked }).modOutQueue x.queue fun o => { o with qstate := 2 }
      let d := (d.emit (.queueEntry x.queue 2 false)).yieldAll x.queue
      let d := d.postDev (d.pdkEvent p 6 0x070A (det 25 s) x.q.context (queueHandle x.queue))
      Table.foldl d.queues (fun d n o => if o.q.paddock == p then d.setRunnable n else d) d
/-- A PARKED Stall whose queue is no longer blocked returns to BOUND (R370). -/
def unparkStall (s : Nat) (d : Device) : Device :=
  let x := d.stall s
  if x.state = .parked && !d.blocked x.q then
    let d := (d.setStall s { x with state := .bound }).modOutQueue x.queue fun o => { o with qstate := 1 }
    (d.emit (.queueEntry x.queue 1 false)).consider x.q.paddock
  else d

/-! ### Rings, vectors and mirrors (R337, R340 to R343, R348) -/

/-- A write of GLB_EVR_CTL. -/
def writeEvrCtl (n : Nat) (v : W32) (d : Device) : Device :=
  let r := d.ring n
  let ctx := bits v 24 5
  if r.en then
    if bit v 0 then d.setRing n { r with context := ctx, failed := false }
    else d.setRing n { r with context := ctx, en := false, failed := false, p := 0, lost := 0 }
  else
    let size := bits v 4 1
    let r := { r with size := size, context := ctx, en := bit v 0 && decide (6 ≤ size) && decide (size ≤ 16) && ctx != 0 }
    d.setRing n (if r.en then r else { r with p := 0, lost := 0, failed := false })
/-- A ring write fails translation. -/
def failRing (n : Nat) (d : Device) : Device :=
  let r := d.ring n
  if r.en && !r.failed then
    let d := d.setRing n { r with failed := true }
    let d := { d with glb := { d.glb with ringFail := true, failRing := n } }
    if n = 0 then d else d.postDev (d.devEvent 6 0x070C (det 20 n))
  else d
/-- A moderation interval ends: the records it covers have their message, and the next interval runs (R342). -/
def moderationEnd (n : Nat) (d : Device) : Device :=
  let x := d.vec n
  if !x.moderating then d
  else if !x.owed then d.setVec n { x with moderating := false }
  else if x.masked then d.setVec n { x with moderating := false, owed := false, pending := true }
  else (d.emit (.msix n)).setVec n { x with owed := false, moderating := decide ((d.ring (n / 8)).mod ≠ 0) }
/-- A vector is unmasked: a pending message is sent. -/
def unmask (n : Nat) (d : Device) : Device :=
  let x := d.vec n
  let d := d.setVec n { x with masked := false, pending := false }
  if x.pending then
    (d.emit (.msix n)).setVec n { x with masked := false, pending := false, moderating := decide ((d.ring (n / 8)).mod ≠ 0) }
  else d
/-- A mirror write fails: the mirror stops for good, with one COMMAND record (R337). -/
def mirrorFail (i : Nat) (denied : Bool) (d : Device) : Device :=
  let f := d.fence i
  if f.used && f.mirror != 0 && !f.mirrorStopped then
    let d := d.setFence i { f with mirrorStopped := true }
    d.postQueue f.ring (d.pdkEvent f.paddock 3 (if denied then 0x0202 else 0x0201) 0 f.context (handleOf 2 f.gen i))
  else d

end Device

/-- BIND (R314). -/
def execBind (stall queue : Nat) (entry : Option QueueEntry) (s : State) : Res0 :=
  if queue < 16384 then onUnit 48 stall s (Device.bindStall stall queue entry) else .fault .absentUnit
/-- BIND_COMPLETE (R312). -/
def execBindComplete (stall : Nat) (checkOk : Bool) (s : State) : Res0 := onUnit 48 stall s (Device.boundStall stall checkOk)
/-- UNBIND (R315). -/
def execUnbind (stall : Nat) (s : State) : Res0 := onUnit 48 stall s (Device.unbindStall stall)
/-- UNBIND_COMPLETE (R315). -/
def execUnbindComplete (stall : Nat) (s : State) : Res0 := onUnit 48 stall s (Device.unboundStall stall)
/-- CAPSULE_WRITE (R318 to R320). -/
def execCapsuleWrite (stall off : Nat) (data : List Byte) (s : State) : Res0 := onUnit 48 stall s (Device.capsuleWrite stall off data)
/-- QUEUE_PARK (R370). -/
def execQueuePark (pdk : Nat) (s : State) : Res0 := onUnit 6 pdk s (Device.parkQueue pdk)
/-- QUEUE_UNPARK (R370). -/
def execQueueUnpark (stall : Nat) (s : State) : Res0 := onUnit 48 stall s (Device.unparkStall stall)
/-- QUEUE_RUNNABLE (R371). -/
def execQueueRunnable (queue : Nat) (s : State) : Res0 := onUnit 16384 queue s (Device.setRunnable queue)
/-- EVR_CTL_WRITE (R343, R348). -/
def execEvrCtlWrite (ring : Nat) (value : BitVec 32) (s : State) : Res0 := onUnit 64 ring s (Device.writeEvrCtl ring value)
/-- RING_WRITE_FAIL (R343). -/
def execRingWriteFail (ring : Nat) (s : State) : Res0 := onUnit 64 ring s (Device.failRing ring)
/-- MSIX_MODERATION_EXPIRY (R342). -/
def execMsixModerationExpiry (vector : Nat) (s : State) : Res0 := onUnit 512 vector s (Device.moderationEnd vector)
/-- MSIX_VECTOR_UNMASK (R342). -/
def execMsixVectorUnmask (vector : Nat) (s : State) : Res0 := onUnit 512 vector s (Device.unmask vector)
/-- MIRROR_WRITE_FAIL (R337). -/
def execMirrorWriteFail (fence : Nat) (denied : Bool) (s : State) : Res0 := onUnit 65536 fence s (Device.mirrorFail fence denied)

end Sys2Proof.Machine
end

