-- ==== Sys2Proof/Machine/Counters.lean ====
section
/-! DEFINITION. The counters that confidentiality coarsens, under one numbering, and their sample at each 1 ms of the Tally (R455). -/

namespace Sys2Proof.Machine

namespace Device

/-- Counter `n`: 100 c + k for core c, 1200 + 4 n + k for channel n, 1300 + 16 n + k for Drove port n, 1400 + k for the translation
unit, 1410 + p for the late steps of Paddock p. Stall counts are exact cycles. -/
def counterAt (d : Device) (n : Nat) : W64 :=
  if n < 1200 then
    let k := d.core (n / 100)
    let y := d.slice (n / 100)
    match n % 100 with
    | 12 => k.runCnt
    | 13 => k.pn.issueCnt
    | 14 => (d.channel (n / 100) 0).bytes
    | 15 => (d.channel (n / 100) 0).waste
    | 16 => (d.channel (n / 100) 0).merge
    | 17 => (d.channel (n / 100) 1).bytes
    | 18 => (d.channel (n / 100) 1).waste
    | 19 => (d.channel (n / 100) 1).merge
    | 20 => y.portGrant
    | 21 => y.portDeny
    | 22 => y.ceCnt
    | 23 => y.ueCnt
    | 24 => k.tr.cnt
    | 25 => k.sq.kerfCnt
    | 26 => k.sq.kerfYield
    | 27 => k.sq.bundleCnt
    | 28 => k.sq.kerfSkip.setWidth 64
    | 29 => y.mrgCnt
    | 30 => y.auditCnt
    | i => BitVec.ofNat 64 (Table.get k.stalls 0 (i + 1))
  else if n < 1300 then
    let k := d.chan ((n - 1200) / 4)
    match (n - 1200) % 4 with
    | 0 => k.ce
    | 1 => k.ue.setWidth 64
    | _ => k.macf.setWidth 64
  else if n < 1400 then
    let p := d.port ((n - 1300) / 16)
    match (n - 1300) % 16 with
    | 0 => p.txFrm
    | 1 => p.rxFrm
    | 2 => p.rxDrop
    | 3 => p.fwdFrm
    | 4 => p.fwdDrop
    | 5 => p.retx
    | 6 => p.fecCorr
    | 7 => p.fecUncorr
    | _ => p.ptpDrop
  else if n < 1410 then
    match n - 1400 with
    | 0 => d.xlt.hits
    | 1 => d.xlt.missCnt
    | 2 => d.xlt.prCnt
    | 3 => d.xlt.invCnt
    | 4 => d.xlt.invToCnt.setWidth 64
    | _ => d.xlt.holdOvf.setWidth 64
  else BitVec.ofNat 64 (d.pdk (n - 1410)).late
/-- The numbers of all counters, rising. -/
def counterNums : List Nat :=
  ((List.range 12).flatMap fun c => (List.range 31).map (100 * c + ·)) ++
  ((List.range 16).flatMap fun n => (List.range 3).map (1200 + 4 * n + ·)) ++
  ((List.range 2).flatMap fun n => (List.range 9).map (1300 + 16 * n + ·)) ++ (List.range 6).map (1400 + ·) ++ (List.range 6).map (1410 + ·)
/-- A reader other than the core itself sees counter `n` coarsened: its Paddock is confidential, or any is for a counter that
several Paddocks share. -/
def coarsened (d : Device) (n : Nat) : Bool :=
  if n < 1200 ∧ n % 100 ≠ 20 ∧ n % 100 ≠ 21 then (match d.pdkOfCore (n / 100) with
    | some p => d.confidential p
    | none => false)
  else if 1410 ≤ n then d.confidential (n - 1410)
  else d.anyConfidential
/-- What a reader sees of counter `n`. -/
def counter (d : Device) (n : Nat) : W64 :=
  if d.coarsened n then BitVec.ofNat 64 ((Table.get d.coarse 0 n).toNat / 1024 * 1024) else d.counterAt n
/-- The counters as they stand. -/
def sampleAll (d : Device) : Table W64 :=
  counterNums.filterMap fun n => if d.counterAt n = 0 then none else some (n, d.counterAt n)
/-- Samples the counters where the Tally has passed a 1 ms boundary since `before`. -/
def sampled (d : Device) (before : Nat) : Device :=
  if before / 1000000 = d.now / 1000000 then d else { d with coarse := d.sampleAll }

end Device

end Sys2Proof.Machine
end

