-- ==== Sys2Proof/Machine/TallyUnit.lean ====
section
/-! DEFINITION. The Tally's sources, PTP, the calendar and its anchors (spec 02: R25 to R35, R45 to R50; R519). -/

namespace Sys2Proof.Machine

/-! ### TC_SER frames (R28) -/

/-- The register of R28 after frame bits 8 to 71. -/
def tcCrc (f : BitVec 80) : BitVec 8 :=
  (List.range 64).foldl (fun crc k =>
    let fb := crc.getLsbD 7 != f.getLsbD (8 + k)
    let crc := crc <<< 1
    if fb then crc ^^^ 0x07 else crc) 0
/-- Start pattern and CRC are good; frame bit 72 + m carries bit 7 − m of the register. -/
def tcGood (f : BitVec 80) : Bool :=
  bits f 7 0 == 0x7E && (List.range 8).all fun m => f.getLsbD (72 + m) == (tcCrc f).getLsbD (7 - m)
/-- The count a frame carries, least significant bit first. -/
def tcCount (f : BitVec 80) : Nat := bits f 71 8
/-- Nanoseconds per count as 32.32, rounded to nearest (R29). -/
def rateOf (hz : Nat) : W64 := BitVec.ofNat 64 ((2 * 1000000000 * 2 ^ 32 + hz) / (2 * hz))

namespace Device

def modTally (d : Device) (f : Tally → Tally) : Device := { d with tally := f d.tally }

/-- The epoch of this start is written, so the Tally unit works (R519). -/
def tallyUp (d : Device) : Bool := d.boot.released && decide (3 ≤ d.boot.stage)

/-! ### The calendar (R46 to R48) -/

/-- TLY_CAL_NOW (Table 2.8). -/
def calWord (d : Device) : W64 := BitVec.ofNat 64 (d.tally.cal % 2 ^ 63 + b2n d.tally.calValid * 2 ^ 63)
/-- Takes an anchor: the Tally and the calendar of one instant, posted and logged (R48). -/
def anchor (d : Device) : Device :=
  let d := d.modTally fun t => { t with anchTally := t.now, anchCal := d.calWord, anchors := (t.now, d.calWord) :: t.anchors }
  (d.platform 0 (det 20 d.calWord.toNat)).logFlash 0 d.calWord
/-- A value is written to the calendar: it takes effect at the next fraction boundary (R46). -/
def setCalendar (d : Device) (v : Nat) : Device := d.modTally fun t => { t with calSet := some (v % 2 ^ 63) }
/-- VBAT_CAL is lost: the calendar restarts from zero (R47). -/
def calendarLost (d : Device) : Device :=
  d.modTally fun t => { t with cal := 0, calRem := 0, calValid := false, calLost := true, calSet := none }
/-- Wall time of a stamp of this epoch, in nanoseconds: the calendar of the latest anchor at or before it, plus the Tally
difference (R49). -/
def wallTime (d : Device) (stamp : Nat) : Option Nat :=
  (d.tally.anchors.find? fun a => decide (a.1 ≤ stamp)).map fun a => (a.2.toNat % 2 ^ 63) * 1000000000 / 32768 + (stamp - a.1)

/-! ### Offsets and holdover (R31 to R33) -/

/-- The Tally starts to count from `n`; its first anchor is taken (R519). -/
def startTally (d : Device) (n : Nat) : Device :=
  (d.modTally fun t => { t with now := n, running := true }.marked).anchor
/-- Removes an offset of the source against the Tally: a step forward, or a trim of at most 500 ppm (R31). How strong a trim
is stays open within that limit. -/
def removeOffset (d : Device) (off : Int) : Device :=
  if 1000000 < off then
    let d := (d.modTally fun t =>
      { t with now := t.now + off.toNat, stepCnt := t.stepCnt + 1, backward := 0, ahead := 0, trim := 0 }.marked).sampled d.now
    d.platform 0x0705 (det 20 off.toNat)
  else
    let ppm : Int := ((d.freeWord 8).toNat % 500 + 1 : Nat)
    let d := d.tookFree
    if off = 0 then d.modTally fun t => { t with trim := 0, backward := 0, ahead := 0 }
    else d.modTally fun t => { t with trim := if 0 < off then ppm else -ppm, backward := (-off).toNat, ahead := off.toNat }
/-- Enters holdover; the record is posted on entry (R33). -/
def enterHoldover (d : Device) : Device :=
  if d.tally.state = .holdover then d
  else (d.modTally fun t => { t with state := .holdover, errBnd := 0xFFFFFFFF }).platform 0x0706

/-! ### Source 0 (R29, R30) -/

/-- A good frame sets the Tally, or its offset is removed; STATE is LOCKED. Its count is checked against the edges counted
locally since the last good frame, which it then replaces (R30). -/
def goodFrame (d : Device) (count edges : Nat) : Device :=
  let rate := if d.tally.hz = 0 then d.tally.rate else rateOf d.tally.hz
  let ref : Nat := count * rate.toNat / 2 ^ 32 % 2 ^ 64
  let diff : Int := if d.tally.set then (count : Int) - ((d.tally.edges + edges) % 2 ^ 64 : Nat) else 0
  let d := d.modTally fun t => { t with rate := rate, badRow := 0, edges := count, edgeDiff := diff, state := .locked, errBnd := 4 }
  let d := if d.tally.running then d.removeOffset ((ref : Int) - d.now) else d.startTally ref
  d.modTally fun t => { t with set := true }
/-- A bad frame is counted; three in a row lose the source. -/
def badFrame (d : Device) (edges : Nat) : Device :=
  let d := d.modTally fun t => { t with frameErr := satInc t.frameErr, badRow := t.badRow + 1, edges := t.edges + edges }
  if 3 ≤ d.tally.badRow ∧ d.tally.running = true then d.enterHoldover else d
def tcFrame (f : BitVec 80) (edges : Nat) (d : Device) : Device :=
  if !d.tallyUp || d.tally.src != 0 then d
  else if tcGood f then d.goodFrame (tcCount f) edges else d.badFrame edges
def clkLoss (d : Device) : Device :=
  if d.tallyUp && d.tally.src == 0 && d.tally.running then d.enterHoldover else d
/-- The 100 ms of R519 pass with no good frame. -/
def tallyTimeout (d : Device) : Device :=
  if d.tallyUp && d.tally.src == 0 && !d.tally.running then d.startTally 0 else d

/-! ### PTP (R34, R35, R46) -/

/-- A message of the port-0 clock, from the domain it serves: one that uses an unsupported option is dropped and counted. -/
def ptpMsg (m : PtpMsg) (go : Device → Device) (d : Device) : Device :=
  if !d.tallyUp || d.tally.src != 1 then d
  else if !m.supported then d.modPort 0 fun p => { p with ptpDrop := p.ptpDrop + 1 }
  else if m.domain != d.tally.ptpDomain then d
  else go d
/-- A Sync is accepted: master time against the local time of its receipt; a Delay_Req follows. -/
def syncAccepted (d : Device) (master : Int) (at_ : Nat) : Device :=
  (d.modTally fun t => { t with ptpLast := some (master.toNat, at_), ptpSync := none }).emit .ptpDelayReq
def ptpSync (m : PtpMsg) : Device → Device :=
  ptpMsg m fun d =>
    if d.tally.ptpSource ≠ some m.source then d
    else if m.twoStep then d.modTally fun t => { t with ptpSync := some (m.seqId, m.local_.toNat, m.correction) }
    else d.syncAccepted (m.stamp.toNat + m.correction) m.local_.toNat
def ptpFollowUp (m : PtpMsg) : Device → Device :=
  ptpMsg m fun d =>
    match d.tally.ptpSync with
    | some (seq, at_, corr) =>
      if d.tally.ptpSource = some m.source ∧ seq = m.seqId then d.syncAccepted (m.stamp.toNat + (corr + m.correction)) at_ else d
    | none => d
/-- The bound that TLY_ERRBND gives while locked to PTP: at most 40 ns and 25 ns for each hop (R35). -/
def ptpBound (d : Device) : Nat := (d.freeWord 9).toNat % (40 + 25 * d.tally.ptpHops + 1)
/-- The exchange gives the offset of the source: (t1 − t2) plus the mean path delay. -/
def ptpDelayResp (m : PtpMsg) : Device → Device :=
  ptpMsg m fun d =>
    match d.tally.ptpLast with
    | none => d
    | some (t1, t2) =>
      if d.tally.ptpSource ≠ some m.source ∨ d.tally.running = false then d
      else
        let back : Int := (t2 : Int) - t1
        let forth : Int := (m.stamp.toNat : Int) - m.correction - m.reqSent.toNat
        let off : Int := (back + forth) / 2 - back
        let d := (d.modTally fun t => { t with ptpDelay := some ((back + forth) / 2) }).removeOffset off
        let bound := BitVec.ofNat 32 d.ptpBound
        let d := d.tookFree
        if 1000000 < off ∨ off.natAbs ≤ 1000 then d.modTally fun t => { t with state := .locked, errBnd := bound }
        else d.modTally fun t => { t with state := .acquiring, errBnd := 0xFFFFFFFF }
/-- Calendar count of 1/32,768 s that PTP time (ns, TAI) less the UTC offset (s) gives. -/
def utcCount (ptp : Nat) (offset : Int) : Nat := ((ptp * 32768 / 1000000000 : Nat) - offset * 32768 : Int).toNat
def ptpAnnounce (m : PtpMsg) : Device → Device :=
  ptpMsg m fun d =>
    let t := d.tally
    let same := t.ptpSource == some m.source
    if !(same || t.ptpSource.isNone || decide (m.rank < t.ptpRank)) then d
    else
      let d := d.modTally fun t => { t with
        ptpSource := some m.source, ptpRank := m.rank, ptpInterval := m.syncInterval, ptpHops := m.hops,
        utcValid := m.utcValid, utcOffset := m.utcOffset,
        ptpSync := if same then t.ptpSync else none, ptpLast := if same then t.ptpLast else none
        ptpDelay := if same then t.ptpDelay else none }
      match d.tally.ptpLast, d.tally.ptpDelay with
      | some (t1, t2), some delay =>
        if m.utcValid then d.setCalendar (utcCount ((t1 : Int) + (d.now - t2 : Nat) + delay).toNat m.utcOffset) else d
      | _, _ => d
/-- Source 1 is lost: the Announce receipt timeout expires for the selected time transmitter. -/
def announceLost (d : Device) : Device :=
  if d.tallyUp && d.tally.src == 1 && d.tally.ptpSource.isSome then
    (d.modTally fun t => { t with ptpSource := none, ptpRank := 0, ptpSync := none, ptpLast := none, ptpDelay := none }).enterHoldover
  else d
/-- Source 1 is lost: no Sync has been accepted for long enough. -/
def syncLost (d : Device) : Device :=
  if d.tallyUp && d.tally.src == 1 && d.tally.ptpSource.isSome then
    (d.modTally fun t => { t with ptpSync := none, ptpLast := none, ptpDelay := none }).enterHoldover
  else d
/-- Port 1 serves time. -/
def servesTime (d : Device) : Bool := d.tallyUp && d.tally.ptpTx && (d.port 1).up
def delayReq (m : PtpMsg) (d : Device) : Device :=
  if !d.servesTime then d
  else if !m.supported then d.modPort 1 fun p => { p with ptpDrop := p.ptpDrop + 1 }
  else if m.domain != d.tally.ptpDomain then d
  else d.emit (.ptpDelayResp m.local_.toNat)
def timeTransmit (d : Device) : Device :=
  if d.servesTime then ((d.emit .ptpAnnounce).emit .ptpSync).emit (.ptpFollowUp d.now) else d

/-- TALLY_DIVERGED is posted while a backward offset exceeds 100 ms (R32). -/
def diverged (d : Device) : Device := if 100000000 < d.tally.backward then d.platform 0x0707 else d

/-! ### Settings of the dictionary (Table 16.11) -/

/-- A change of source: the new one is acquired, or the Tally runs free. -/
def setSource (d : Device) (src : Nat) : Device :=
  if src = d.tally.src then d
  else
    let d := d.modTally fun t => { t with
      src := src, state := if src = 2 then .freeRun else .acquiring, errBnd := 0xFFFFFFFF, backward := 0, ahead := 0, badRow := 0,
      trim := if src = 2 then 0 else t.trim, ptpSource := none, ptpRank := 0, ptpSync := none, ptpLast := none
      ptpDelay := none }
    if d.tallyUp && !d.tally.running && src != 0 then d.startTally 0 else d
/-- The TC_CLK frequency: TLY_RATE follows at once, or at the next good frame while the source is 0. -/
def setTcHz (d : Device) (hz : Nat) : Device :=
  d.modTally fun t => { t with hz := hz, rate := if t.src = 0 then t.rate else rateOf hz }

end Device

/-- TALLY_START_TIMEOUT (R519). -/
def execTallyStartTimeout (s : State) : Res0 := done s Device.tallyTimeout
/-- TC_SER_FRAME: a complete frame of the system counter (R28 to R31). -/
def execTcSerFrame (bits : BitVec 80) (edges : Nat) (s : State) : Res0 := done s (Device.tcFrame bits edges)
/-- TC_CLK_LOSS: no edge for 1 ms (R30, R33). -/
def execTcClkLoss (s : State) : Res0 := done s Device.clkLoss
/-- TALLY_DIVERGED: a second passes (R32). -/
def execTallyDiverged (s : State) : Res0 := done s Device.diverged
/-- PTP_SYNC (R34). -/
def execPtpSync (m : PtpMsg) (s : State) : Res0 := done s (Device.ptpSync m)
/-- PTP_FOLLOW_UP (R34). -/
def execPtpFollowUp (m : PtpMsg) (s : State) : Res0 := done s (Device.ptpFollowUp m)
/-- PTP_DELAY_RESP (R31, R33 to R35). -/
def execPtpDelayResp (m : PtpMsg) (s : State) : Res0 := done s (Device.ptpDelayResp m)
/-- PTP_ANNOUNCE (R34, R46). -/
def execPtpAnnounce (m : PtpMsg) (s : State) : Res0 := done s (Device.ptpAnnounce m)
/-- PTP_ANNOUNCE_TIMEOUT (R33). -/
def execPtpAnnounceTimeout (s : State) : Res0 := done s Device.announceLost
/-- PTP_SYNC_TIMEOUT (R33). -/
def execPtpSyncTimeout (s : State) : Res0 := done s Device.syncLost
/-- PTP_DELAY_REQ at port 1 (Table 2.2). -/
def execPtpDelayReq (m : PtpMsg) (s : State) : Res0 := done s (Device.delayReq m)
/-- PTP_TIME_TRANSMIT at port 1 (Table 2.2). -/
def execPtpTimeTransmit (s : State) : Res0 := done s Device.timeTransmit
/-- VBAT_CAL_LOSS (R47). -/
def execVbatCalLoss (s : State) : Res0 := done s Device.calendarLost
/-- CALENDAR_ANCHOR: 3,600 s of Tally time have passed (R48). -/
def execCalendarAnchor (s : State) : Res0 := done s fun d => if d.tally.running then d.anchor else d
/-- TLY_NOW_LOW_READ: the high half of the value read is latched (R50). -/
def execTlyNowLowRead (s : State) : Res0 :=
  done s fun d => d.modTally fun t => { t with hiLatch := BitVec.ofNat 32 (t.now / 2 ^ 32) }

end Sys2Proof.Machine
end

