-- ==== Sys2Proof/Machine/MemSlot.lean ====
section
/-! DEFINITION. The M-slot accesses of a core to its own Yard slice: loads, stores and IMLD (spec 06: R171, R194; spec 07:
R204, R206, R213). -/

namespace Sys2Proof.Machine

/-- With PI, A[AB] grows by IMM after the access. -/
def mPost (w : W64) (q : Sequencer) : Sequencer :=
  if mPI w then q.setA (fAB w) (q.aReg (fAB w) + BitVec.ofInt 64 (mIMM w)) else q

namespace Device

/-- An offset of `n` bytes that the program of core `c` may access: a multiple of 4, inside regions its job reaches. -/
def mslotOk (d : Device) (c : Nat) (off : W64) (n : Nat) : Bool := decide (off.toNat % 4 = 0) && d.ownRange c off.toNat n

/-- An earlier M-slot access of the core still has port cycles to take (R203, R204). -/
def portsBusy (d : Device) (c : Nat) : Bool := (d.slice c).requests.any fun r => r.own && r.cls == 4

/-- A load of `n` bytes: it traps on a bad offset or a bad block; otherwise `f` takes the bytes. -/
def mslotLoad (d : Device) (c : Nat) (x : QInstr) (off : W64) (n : Nat) (f : List Byte → Sequencer → Sequencer) : Issue :=
  if !d.mslotOk c off n then illegal x
  else if d.portsBusy c then .wait d (some .bankConflict)
  else match (d.audit c off.toNat n).readYard c 4 off.toNat n with
    | (d, .inr b) => .bad d SPAD_UNCORR (blockInfo b)
    | (d, .inl bs) => .ok (d.modSeq c fun q => mPost x.word (f bs q))

/-- A store of bytes, with a request for each of its lines where `ports` says so: it traps on a bad offset, with nothing
written. -/
def mslotStore (d : Device) (c : Nat) (x : QInstr) (off : W64) (bs : List Byte) (ports : Bool) : Issue :=
  if !d.mslotOk c off bs.length then illegal x
  else if d.portsBusy c then .wait d (some .bankConflict)
  else
    let d := if ports then d.askPorts c 4 true (linesOf off.toNat bs.length) [(c, 2)] else d
    .ok (((d.audit c off.toNat bs.length).writeYard c off.toNat bs).modSeq c (mPost x.word))

end Device

/-- SLD: 8 bytes, or 4 bytes sign-extended with W4 (R171). -/
def sldBody (c : Nat) (x : QInstr) (d : Device) : Issue :=
  let w := x.word
  let n := if bit w 48 then 4 else 8
  d.mslotLoad c x (mOffset (d.core c).sq w) n fun bs q =>
    q.setSop (fD w) (if bit w 48 then (BitVec.ofNat 32 (ofBytes bs)).signExtend 64 else BitVec.ofNat 64 (ofBytes bs))
def execSld (core : Nat) (s : State) : Res0 := onUnit 12 core s (Device.issue core .m 0x01 (sldBody core))

/-- SST: 8 bytes, or the low 4 bytes with W4, into the merge buffer (R171, R214). -/
def sstBody (c : Nat) (x : QInstr) (d : Device) : Issue :=
  let w := x.word
  let q := (d.core c).sq
  d.mslotStore c x (mOffset q w) (toBytes (if bit w 48 then 4 else 8) (q.sop (fD w)).toNat) false
def execSst (core : Nat) (s : State) : Res0 := onUnit 12 core s (Device.issue core .m 0x02 (sstBody core))

/-- Bytes of an element of width code EW. -/
def ewBytes (ew : Nat) : Nat := if ew = 0 then 4 else if ew = 1 then 2 else 1
/-- A lane from its element: 32 bits, BF16 to [31:16], INT8 sign-extended (R171). -/
def widen (ew x : Nat) : W32 :=
  if ew = 0 then BitVec.ofNat 32 x else if ew = 1 then BitVec.ofNat 32 (x * 65536) else (BitVec.ofNat 8 x).signExtend 32
/-- An element from its lane: the inverse of the load. -/
def narrow (ew : Nat) (x : W32) : Nat := if ew = 0 then x.toNat else if ew = 1 then bits x 31 16 else bits x 7 0
/-- Element k of a run of bytes. -/
def elemOf (bs : List Byte) (n k : Nat) : Nat := ofBytes ((bs.drop (n * k)).take n)

/-- VLD: 256 elements of the width of EW from consecutive bytes (R171). -/
def vldBody (c : Nat) (x : QInstr) (d : Device) : Issue :=
  let w := x.word
  let n := ewBytes (mEW w)
  d.mslotLoad c x (mOffset (d.core c).sq w) (256 * n) fun bs q =>
    q.setV (fD w) (vregOf fun i => widen (mEW w) (elemOf bs n i))
def execVld (core : Nat) (s : State) : Res0 := onUnit 12 core s (Device.issue core .m 0x03 (vldBody core))

/-- VST: the 256 lanes, narrowed, to consecutive bytes (R171). -/
def vstBody (c : Nat) (x : QInstr) (d : Device) : Issue :=
  let w := x.word
  let q := (d.core c).sq
  d.mslotStore c x (mOffset q w)
    ((List.range 256).flatMap fun i => toBytes (ewBytes (mEW w)) (narrow (mEW w) (q.lane (fD w) i))) true
def execVst (core : Nat) (s : State) : Res0 := onUnit 12 core s (Device.issue core .m 0x04 (vstBody core))

/-- Offset of lane i of a strided access. -/
def laneOffset (q : Sequencer) (w : W64) (i : Nat) : W64 := mOffset q w + BitVec.ofNat 64 i * q.sop (bits w 54 50)

/-- Reads one word for each offset, up to a bad block. -/
def Device.gatherWords (d : Device) (c : Nat) : List Nat → Device × (List W32 ⊕ Nat)
  | [] => (d, .inl [])
  | o :: r =>
    match d.readBytes c 4 o 4 with
    | (d, .inr b) => (d, .inr b)
    | (d, .inl bs) =>
      match d.gatherWords c r with
      | (d, .inl t) => (d, .inl (BitVec.ofNat 32 (ofBytes bs) :: t))
      | (d, .inr e) => (d, .inr e)

/-- Distinct lines of 4-byte words at the offsets (R204). -/
def wordLines (offs : List W64) : List Nat := (offs.flatMap fun o => linesOf o.toNat 4).eraseDups

/-- VLDS: lane i from offset + i * S[SS] (R171). -/
def vldsBody (c : Nat) (x : QInstr) (d : Device) : Issue :=
  let w := x.word
  let offs := (List.range 256).map (laneOffset (d.core c).sq w)
  if !(offs.all fun o => d.mslotOk c o 4) then Device.illegal x
  else if d.portsBusy c then .wait d (some .bankConflict)
  else match ((d.askPorts c 4 true (wordLines offs)).auditAll c (offs.map fun o => (o.toNat, 4))).gatherWords c (offs.map (·.toNat)) with
    | (d, .inr b) => .bad d SPAD_UNCORR (Device.blockInfo b)
    | (d, .inl ws) => .ok (d.modSeq c fun q => mPost w (q.setV (fD w) (vregOf fun i => ws.getD i 0)))
def execVlds (core : Nat) (s : State) : Res0 := onUnit 12 core s (Device.issue core .m 0x05 (vldsBody core))

/-- VSTS: lane i to offset + i * S[SS], lanes in ascending order (R171). -/
def vstsBody (c : Nat) (x : QInstr) (d : Device) : Issue :=
  let w := x.word
  let q := (d.core c).sq
  let offs := (List.range 256).map (laneOffset q w)
  if !(offs.all fun o => d.mslotOk c o 4) then Device.illegal x
  else if d.portsBusy c then .wait d (some .bankConflict)
  else
    let d := (d.askPorts c 4 true (wordLines offs) [(c, 2)]).auditAll c (offs.map fun o => (o.toNat, 4))
    .ok (((List.range 256).foldl (fun d i => d.writeYard c (laneOffset q w i).toNat (toBytes 4 (q.lane (fD w) i).toNat)) d).modSeq
      c (mPost w))
def execVsts (core : Nat) (s : State) : Res0 := onUnit 12 core s (Device.issue core .m 0x06 (vstsBody core))

/-! ### IMLD (R194) -/

/-- Bundle `n` of the instruction memory takes a block. -/
def Sequencer.loadBundle (q : Sequencer) (n : Nat) (b : Block256) : Sequencer :=
  { q with imem := Table.set q.imem 0 n b, imemBad := q.imemBad.filter (· != n) }
/-- Bundles from `first` onward take the blocks in order, up to a bad one, whose number is returned. -/
def Device.loadBundles (d : Device) (c : Nat) : (first : Nat) → List Nat → Device × Option Nat
  | _, [] => (d, none)
  | first, b :: r =>
    match d.readBlock c 3 b with
    | (d, none) => (d, some b)
    | (d, some k) => Device.loadBundles (d.modSeq c fun q => q.loadBundle first k) c (first + 1) r

/-- IMLD: COUNT bundles from a guarded region to bundles FIRST onward; bundles before a bad block are written. -/
def imldBody (c : Nat) (x : QInstr) (d : Device) : Issue :=
  let w := x.word
  let off := ((d.core c).sq.aReg (fAB w)).toNat
  let first := bits w 33 21
  let n := bits w 47 34
  let bs := Device.blocksOf off (32 * n)
  if off % 32 ≠ 0 ∨ !d.ownRange c off (32 * n) ∨ !(bs.all fun b => (d.slice c).guardedAt (32 * b)) ∨ 8192 < first + n then
    Device.illegal x
  else match (d.askPorts c 3 true (linesOf off (32 * n))).loadBundles c first bs with
    | (d, some b) => .bad d SPAD_UNCORR (Device.blockInfo b)
    | (d, none) => .ok d
def execImld (core : Nat) (s : State) : Res0 := onUnit 12 core s (Device.issue core .m 0x0E (imldBody core))

end Sys2Proof.Machine
end

