-- ==== Sys2Proof/Machine/TroughUnit.lean ====
section
/-! DEFINITION. The Trough and codebook instructions (spec 05: R121 to R134). -/

namespace Sys2Proof.Machine

/-- Every array of the pass lies in regions its job reaches. -/
def Device.passRangesOk (d : Device) (c : Nat) (p : Desc) : Bool :=
  d.ownRange c p.codeBase (p.rows * codeBytes p.fmt p.k) && d.ownRange c p.outBase (4 * p.outs) &&
  (!p.rsen || d.ownRange c p.rsBase (2 * p.rows)) && (p.fmt != 5 || d.ownRange c p.mxsBase (p.rows * (p.k / 32)))

/-- TPASS: queues one pass after the checks of R130 in their order. -/
def tpassBody (c : Nat) (x : QInstr) (d : Device) : Issue :=
  let k := d.core c
  let off := (k.sq.aReg (bits x.word 15 11)).toNat
  if 4 ≤ k.tr.passes.length then .wait d none
  else if off % 32 ≠ 0 || !d.ownRange c off 32 then Device.illegal x
  else match d.readYard c 2 off 32 with
    | (e, .inr b) => .bad e SPAD_UNCORR (Device.blockInfo b)
    | (e, .inl bs) =>
      let n := ofBytes bs
      let p := descOf n
      let books := booksOf p.fmt p.book1 p.book2
      if !descReservedZero n || !p.fieldsOk || !d.passRangesOk c p ||
          (p.op != 2 && (k.tr.bank p.abank).int8 != decide (p.afmt = 1)) then .bad e ISA_ILLEGAL x.word
      else if k.tr.bookLoading books then .wait d none
      else match k.tr.badBook (d.ctxOf c) books with
        | some info => .bad e 0x0806 info
        | none =>
          if !k.tr.pairOk p then .bad e ISA_ILLEGAL x.word
          else .fly (e.modTrough c fun t => { t with failed := false, passes := t.passes ++
            [{ num := x.num, bundle := x.bundle, sd := bits x.word 20 16, d := p, ran := 0 }] })
def execTpass (core : Nat) (s : State) : Res0 := onUnit 12 core s (Device.issue core .t 0x02 (tpassBody core))

/-- TPASS_COMPLETE: the running pass, whose stream cycles have all run, completes, with all its reads and writes, and Sd is
written (R134). -/
def tpassComplete (c : Nat) (d : Device) : Device :=
  match (d.core c).tr.passes with
  | [] => d
  | p :: _ => if p.ran < streamCycles p.d then d else d.runPass c p
def execTpassComplete (core : Nat) (s : State) : Res0 := onUnit 12 core s (tpassComplete core)

/-- TACT: 256 elements of a bank from a vector register (R126). -/
def tactBody (c : Nat) (x : QInstr) (d : Device) : Issue :=
  let w := x.word
  let k := d.core c
  let b := bits w 22 22
  let base := 256 * bits w 28 23
  let int8 := bit w 29
  if k.tr.passes.any fun p => p.d.op != 2 && p.d.abank == b then .wait d none
  else
    let old := k.tr.bank b
    let kept := if old.int8 = int8 then old.elems else []
    let elem := fun i =>
      let v := k.sq.lane (fA w) i
      if int8 then BitVec.ofInt 16 ((satInt 8 v.toInt) % 256) else BitVec.ofNat 16 (bits (rndBf16 (val32 v)) 31 16)
    let elems := (List.range 256).foldl (fun t i => Table.set t 0 (base + i) (elem i)) kept
    .ok (d.modTrough c fun t => { t with banks := Table.set t.banks Bank.reset b { int8 := int8, elems := elems } })
def execTact (core : Nat) (s : State) : Res0 := onUnit 12 core s (Device.issue core .t 0x03 (tactBody core))

/-! ### CBLD (R121 to R123) -/

/-- The entries of a run of bytes. -/
def entriesOf (bs : List Byte) (n : Nat) : List W64 :=
  (List.range n).map fun i => BitVec.ofNat 64 (ofBytes ((bs.drop (8 * i)).take 8))
/-- A load stops at a bad block after it has written `es` (R122). -/
def Trough.failLoad (t : Trough) (l : BookLoad) (es : List W64) : Trough :=
  let k := t.book l.book
  (t.setBook l.book { k.put l.first es with owner := l.context, valid := false, loading := false }).advanceGen l.book

/-- CBLD: the load begins; CBLD_COMPLETE ends it. -/
def cbldBody (c : Nat) (x : QInstr) (d : Device) : Issue :=
  let w := x.word
  let k := d.core c
  let off := (k.sq.aReg (fAB w)).toNat
  let b := bits w 23 21
  let first := 8 * bits w 32 24
  let count := 8 * bits w 42 33
  let efmt := bits w 46 43
  let ctx := d.ctxOf c
  if off % 64 ≠ 0 || decide (4096 < first + count) || !(efmt == 0 || efmt == 4 || efmt == 5) || !d.ownRange c off (8 * count) then
    Device.illegal x
  else if (k.tr.passes.any fun p => (booksOf p.d.fmt p.d.book1 p.d.book2).contains b) || (k.pn.loads.any fun l => l.books.contains b)
      || (k.tr.book b).loading then .wait d none
  else
    let old := k.tr.book b
    let l : BookLoad := { num := x.num, bundle := x.bundle, book := b, first := first, entries := [], efmt := efmt,
                          bscale := BitVec.ofNat 8 (bits w 54 47), context := ctx }
    let start : Book :=
      { old with valid := false, loading := true, entries := if old.owner = ctx then old.entries else [],
                 bad := if old.owner = ctx then old.bad else [] }
    let d := d.modTrough c fun t => t.setBook b start
    match (d.askPorts c 3 true (linesOf off (8 * count))).readBlocks c 3 (Device.blocksOf off (8 * count)) with
    | (d, bs, none) => .fly (d.modTrough c fun t => { t with loads := t.loads ++ [{ l with entries := entriesOf bs count }] })
    | (d, bs, some e) => .bad (d.modTrough c fun t => t.failLoad l (entriesOf bs (bs.length / 8))) SPAD_UNCORR (Device.blockInfo e)
def execCbld (core : Nat) (s : State) : Res0 := onUnit 12 core s (Device.issue core .m 0x0A (cbldBody core))

/-- CBLD_COMPLETE: after the last write the book takes its owner, format and scale, is VALID, and its generation
advances (R122). -/
def cbldComplete (c : Nat) (d : Device) : Device :=
  match (d.core c).tr.loads with
  | [] => d
  | l :: r => d.modCore c fun k => { k with tr := { k.tr.landLoad l with loads := r }, sq := k.sq.release l.num }
def execCbldComplete (core : Nat) (s : State) : Res0 := onUnit 12 core s (cbldComplete core)

end Sys2Proof.Machine
end

