-- ==== Sys2Proof/Machine/YardUnit.lean ====
section
/-! DEFINITION. Events of a Yard slice: uncorrectable reads by requester, write-backs of mended blocks, drains by time,
patrol reads, the remap table and the end of a clear (spec 07: R208, R211, R213, R215, R218 to R220). -/

namespace Sys2Proof.Machine
namespace Device

/-! ### Uncorrectable reads (R213, Table 7.5) -/

/-- The head of slot queue `sl` is an instruction of that bundle with one of these opcodes, and its core issues. -/
def headIs (d : Device) (c : Nat) (sl : Slot) (bundle : Nat) (ops : List Nat) : Bool :=
  let q := (d.core c).sq
  match q.queue sl with
  | x :: _ => q.issues && x.bundle == bundle && ops.contains (opOf x.word)
  | [] => false

/-- Counts and reports block `b` for class `cls`: poisoned where its check bits say so (R212). -/
def meetUe (d : Device) (c b cls : Nat) : Device :=
  let p := match checkBlk ((d.slice c).guardedAt (32 * b)) ((d.slice c).block b) with
    | .bad p => p
    | _ => false
  d.yardUe c b cls p

/-- Block `b` has failed: its merge entry drains, and unless it is bad already its check bits differ from those of its data so
that the check of its mode finds it uncorrectable; which of them differ is open. -/
def failBlock (d : Device) (c b : Nat) : Device :=
  let d := d.drainBlock c b
  let s := d.slice c
  let k := s.block b
  let g := s.guardedAt (32 * b)
  match checkBlk g k with
  | .bad _ => d
  | _ =>
    let n := (d.freeWord 10).toNat
    let flip : W32 := if g then (1 <<< (n % 16)) ^^^ (1 <<< ((n + 1) % 16)) else 1 <<< (n % 32)
    d.tookFree.setSlice c (s.putBlock b { k with chk := checkBits g k.data ^^^ flip })

/-- The instruction at the head of slot queue `sl` of that bundle issues, and its read of block `b` finds it failed. -/
def ueIssue (d : Device) (c : Nat) (sl : Slot) (bundle b op : Nat) (body : QInstr → Device → Issue) : Device :=
  if d.headIs c sl bundle [op] then
    let e := issue c sl op body (d.failBlock c b)
    if (e.core c).sq.stat = .trapped then e else d
  else d
/-- SLD, VLD or VLDS. -/
def ueLoad (d : Device) (c bundle b : Nat) : Device :=
  if d.headIs c .m bundle [1] then d.ueIssue c .m bundle b 1 (sldBody c)
  else if d.headIs c .m bundle [3] then d.ueIssue c .m bundle b 3 (vldBody c)
  else d.ueIssue c .m bundle b 5 (vldsBody c)
/-- PCONV: its descriptor, or a block that the next issue of its walk reads. -/
def uePconv (d : Device) (c bundle b : Nat) : Device :=
  match (d.core c).pn.walk with
  | none => d.ueIssue c .p bundle b 4 (pconvBody c)
  | some w =>
    let reads : Bool := match w.todo with
      | (n, q) :: _ => (w.conv.lanes n q).any fun o => match o.join with
        | some off => (blocksOf off w.conv.esize).contains b
        | none => false
      | [] => false
    if w.bundle == bundle && reads then ((d.failBlock c b).readBlock c 3 b).1.walkFails c w b else d

/-- A PLDW in flight fails: its shadows are EMPTY, and the core traps (R90). -/
def pldwFails (d : Device) (c b idx : Nat) : Device :=
  match (d.core c).pn.loads[idx]? with
  | none => d
  | some l =>
    let d := (d.failBlock c b).meetUe c b 3
    let d := d.modPens c fun p => { p.setShadow l.pens .empty with loads := p.loads.eraseIdx idx }
    (d.modSeq c fun q => q.release l.num).trapCore c SPAD_UNCORR l.bundle .m (blockInfo b)

/-- A CBLD in flight fails after `n` entries were written (R122). -/
def cbldFails (d : Device) (c b idx n : Nat) : Device :=
  match (d.core c).tr.loads[idx]? with
  | none => d
  | some l =>
    let d := (d.failBlock c b).meetUe c b 3
    let d := d.modTrough c fun t => { t.failLoad l (l.entries.take n) with loads := t.loads.eraseIdx idx }
    (d.modSeq c fun q => q.release l.num).trapCore c SPAD_UNCORR l.bundle .m (blockInfo b)

/-- The running pass is abandoned at a row (R140): a failed Yard block, counted and reported, or none. -/
def passFails (d : Device) (c row col : Nat) (block : Option Nat) : Device :=
  match (d.core c).tr.passes with
  | [] => d
  | p :: _ =>
    let ord := fun k => Config.freeOrder 3 (65536 * d.free + k)
    let d := d.tookFree
    let d := match block with
      | some b => (d.failBlock c b).meetUe c b 2
      | none => d
    let e : PassErr := { row := row, col := col, cycle := cycleOf p.d row 0, block := block.getD 0 }
    match (d.core c).tr.loadSet p.d with
    | .inr _ => d.abandonPass c p { e with row := 0, col := 0, cycle := 0 } [] ord
    | .inl t =>
      match (d.modTrough c fun _ => t).readRows c p.d (List.range (min row p.d.rows)) with
      | (d, xs, none) => d.abandonPass c p e xs ord
      | (d, xs, some f) => d.abandonPass c p f xs ord
/-- A parity error on a lookup of the running pass: its set loads again, and the stream cycle is repeated (R141). -/
def lookupFails (d : Device) (c : Nat) : Device :=
  match (d.core c).tr.passes with
  | p :: r =>
    if p.d.fmt ≤ 2 ∧ 0 < p.ran then
      d.modTrough c fun t => { t with reload := t.reload + reloadCycles p.d.fmt, passes := { p with ran := p.ran - 1 } :: r }
    else d
  | [] => d

/-- A guarded block that a drain cannot mend is written with the merged bytes and poisoned (Table 7.5). -/
def drainFails (d : Device) (c b : Nat) : Device :=
  match (d.slice c).merge.find? fun m => m.block == b with
  | none => d
  | some m =>
    if (d.slice c).guardedAt (32 * b) && m.mask != BitVec.allOnes 32 then
      let old := (d.slice c).block b
      let d := d.meetUe c b 4
      d.modSlice c fun s => { s.putBlock b (Blk.poisoned (mixBytes old.data m.data m.mask)) with
        merge := s.merge.filter (fun x => x.block != b), mrgCnt := s.mrgCnt + 1 }
    else d.drainBlock c b

/-- The read of block `b` by a requester finds it uncorrectable or poisoned. A core that is absent or out of use reads
nothing (R23). -/
def ueRead (c b : Nat) (r : Requester) (d : Device) : Device :=
  if !d.corePresent c then d
  else match r with
  | .load n => d.ueLoad c n b
  | .pldw i => d.pldwFails c b i
  | .trough row col => d.passFails c row col (some b)
  | .bank row => d.passFails c row 0 none
  | .book k n => d.modTrough c fun t => t.setBook (k % 8) { t.book (k % 8) with bad := (t.book (k % 8)).bad ++ [n % 1024] }
  | .lookup => d.lookupFails c
  | .fetch n => d.modSeq c fun q => { q with imemBad := if q.imemBad.contains (n % 8192) then q.imemBad else q.imemBad ++ [n % 8192] }
  | .pconv n => d.uePconv c n b
  | .cbld i n => d.cbldFails c b i n
  | .imld n => d.ueIssue c .m n b 0x0E (imldBody c)
  | .haul n => d.ueIssue c .m n b 0x0B (haulBody c)
  | .tpass n => d.ueIssue c .t n b 2 (tpassBody c)
  | .piece i =>
    match d.piece i with
    | none => d
    | some _ => ((d.failBlock c b).meetUe c b 5).failPiece i SPAD_UNCORR (.slice c (32 * b))
  | .mergeDrain => d.drainFails c b
  | .patrol => (d.failBlock c b).meetUe c b 6

/-! ### Write-backs, drains, patrol -/

/-- The oldest queued MEND write-back is granted: the block is written corrected (R211). -/
def mendBack (c : Nat) (d : Device) : Device :=
  match (d.slice c).mends with
  | [] => d
  | b :: r => d.modSlice c fun s =>
      let s := { s.ask 0 false [b / 2] with mends := r }
      if s.guardedAt (32 * b) then
        match checkGuarded (s.block b) with
        | .mended k => s.putBlock b k
        | _ => s
      else s

/-- A merge entry that no write has reached for 32 cycles drains, the oldest first (R215). -/
def drainOldest (c : Nat) (d : Device) : Device :=
  match (d.slice c).merge.find? fun m => decide (m.last + 32 ≤ d.power.cycles) with
  | none => d
  | some m => d.drainBlock c m.block

/-- The next line at or after `line` that lies in a region, from the slice's start after its end (R220). -/
def patrolNext (s : Slice) (line : Nat) : Option Nat :=
  if (s.regionAt (64 * line)).isSome then some line
  else
    let starts := (s.regions.filter fun kv => kv.2.valid).map fun kv => kv.2.base * 1024
    let least := fun (l : List Nat) => match l with
      | [] => none
      | a :: r => some (r.foldl min a)
    match least (starts.filter fun x => decide (line ≤ x)) with
    | some x => some x
    | none => least starts
/-- The patrol reads its next line, both blocks of it, in the PATROL class (R220). -/
def patrol (c : Nat) (d : Device) : Device :=
  if !(d.slice c).patrol || !d.corePresent c then d
  else match patrolNext (d.slice c) (d.slice c).patrolLine with
    | none => d
    | some line =>
      let d := (((d.askPorts c 6 false [line]).readBlock c 6 (2 * line)).1.readBlock c 6 (2 * line + 1)).1
      d.modSlice c fun s => { s with patrolLine := (line + 1) % 2 ^ 20 }

/-! ### The remap table (R217 to R219) -/

/-- Installs an entry: the block is read and mended where it can be, and the spare takes the word's value; a bank whose
8 entries are all VALID takes none, and YARD_REMAP_FULL is posted. -/
def installRemap (d : Device) (c bank row word : Nat) (fused : Bool) : Device :=
  let s := d.slice c
  if s.remap.any fun e => e.bank == bank && e.row == row && e.word == word then d
  else if 8 ≤ (s.remap.filter fun e => e.bank == bank).length then
    d.postDev (d.pdkEvent ((d.pdkOfCore c).getD 0xFF) 5 0x0304)
  else
    let b := remapBlock bank row word
    let k := match checkBlk (s.guardedAt (32 * b)) (s.block b) with
      | .mended k => k
      | _ => s.block b
    let spare := if word < 16 then wordOf k.data (word % 8) else k.chk
    d.setSlice c { s.ask 0 false [b / 2] with remap := s.remap ++ [{ bank := bank, fused := fused, row := row, word := word, spare := spare }] }

/-- A word is due for a soft entry: mended three times by guarded reads, or failed twice in plain reads, within 86,400 s. -/
def wordDue (d : Device) (c bank row word : Nat) : Bool :=
  let l := (d.slice c).faults.filter fun f => f.1 == bank && f.2.1 == row && f.2.2.1 == word && decide (d.now < f.2.2.2.2 + 86400000000000)
  decide (3 ≤ (l.filter fun f => f.2.2.2.1).length) || decide (2 ≤ (l.filter fun f => !f.2.2.2.1).length)
/-- A soft entry: recorded in the reliability log, so that every later start installs it again (R218). -/
def softEntry (c bank row word : Nat) (d : Device) : Device :=
  let e := d.installRemap c bank row word false
  if (e.slice c).remap.length = (d.slice c).remap.length then e
  else { e.logFlash 0 (BitVec.ofNat 64 (c + 16 * bank + 4096 * row + 2 ^ 24 * word)) with
    boot := { e.boot with softRemap := e.boot.softRemap ++ [(c, bank, row, word)] } }
/-- A soft entry for a word that reads have found due. -/
def softRemap (c bank row word : Nat) (d : Device) : Device :=
  if !d.corePresent c || !d.wordDue c bank row word then d
  else (d.modSlice c fun s =>
    { s with faults := s.faults.filter fun f => !(f.1 == bank && f.2.1 == row && f.2.2.1 == word) }).softEntry c bank row word

/-! ### Clears (R208) -/

/-- The lowest-numbered region whose clear runs is zero and gone, and its units are free. -/
def clearDone (c : Nat) (d : Device) : Device :=
  match (d.slice c).regions.find? fun kv => kv.2.valid && kv.2.clearing with
  | none => d
  | some (_, r) =>
    d.modSlice c fun s => s.wipe fun x => x.base == r.base && x.clearing

end Device

/-- YARD_UE_READ (R213). -/
def execYardUeRead (core block : Nat) (req : Requester) (s : State) : Res0 :=
  if block < 2 ^ 21 then onUnit 12 core s (Device.ueRead core block req) else .fault .absentUnit
/-- MEND_WRITEBACK (R211). -/
def execMendWriteback (core : Nat) (s : State) : Res0 := onUnit 12 core s (Device.mendBack core)
/-- MERGE_DRAIN_TIMEOUT (R215). -/
def execMergeDrainTimeout (core : Nat) (s : State) : Res0 := onUnit 12 core s (Device.drainOldest core)
/-- PATROL_READ (R220). -/
def execPatrolRead (core : Nat) (s : State) : Res0 := onUnit 12 core s (Device.patrol core)
/-- REMAP_INSTALL (R218). -/
def execRemapInstall (core bank row word : Nat) (s : State) : Res0 :=
  if bank < 256 ∧ row < 4096 ∧ word < 18 then onUnit 12 core s (Device.softRemap core bank row word) else .fault .absentUnit
/-- REGION_CLEAR_COMPLETE (R208). -/
def execRegionClearComplete (core : Nat) (s : State) : Res0 := onUnit 12 core s (Device.clearDone core)

end Sys2Proof.Machine
end

