-- ==== Sys2Proof/Machine/ResetOps.lean ====
section
/-! DEFINITION. Fences, crash records, the discard of a Paddock's work, tenant removal and the device reset (spec 15: R470 to
R483; spec 14: R440 to R443, R458 to R460; spec 18: R522 to R525). -/

namespace Sys2Proof.Machine

/-- CAUSE of Table 15.2. -/
def causeCode (c : ResetCause) : Code :=
  match c with
  | .hang => 0x070D
  | .droverFault => 0x0711
  | .partitionReset => 0x0701
  | .watchdog => 0x070E
  | .deviceReset => 0x070F
  | .supplyReset => 0x0502
  | .thermalCrit => 0x0506

/-- The Tally instants of a list that lie within the last `span` ns. -/
def within (now span : Nat) (l : List Nat) : List Nat := l.filter fun t => decide (now < t + span)

namespace Device

/-! ### What belongs to a Paddock -/

/-- Stalls that hold or load a queue of Paddock `p`. -/
def stallsOf (d : Device) (p : Nat) : List Nat := (List.range 48).filter fun s => (d.stall s).state != .free && (d.stall s).q.paddock == p
/-- Valid bindings of Paddock `p`. -/
def bindingsOf (d : Device) (p : Nat) : List Nat := (List.range 64).filter fun b => (d.binding b).valid && (d.binding b).pdk == p
def pdksPresent (d : Device) : List Nat := (List.range 6).filter d.pdkPresent

/-! ### The fence (R42, R225, R302, R313, R402, R471 step 1) -/

/-- What every fence does: Stalls FENCED, alarm slots disarmed, armed Pens EMPTY (R87, R99), windows CLOSING. -/
def fenceCommon (d : Device) (p : Nat) : Device :=
  let d := (d.stallsOf p).foldl (fun d s => d.modStall s fun x => { x with state := .fenced, fencePosted := false }) d
  let d := (d.coresOf p).foldl (fun d c => d.modCore c fun k => { k with pn := disarm k.pn }) d
  ((d.modPdk p fun k => { k with fencedAt := d.now }).disarmAll p).closeWindows fun k _ => k / 256 == p
/-- The Paddock's sessions are DOWN and hold nothing. -/
def dropSessions (d : Device) (p : Nat) : Device :=
  (d.bindingsOf p).foldl (fun d b => d.modBinding b fun x => { x with
    state := .down, unacked := [], owed := [], reads := [], acked := [], heldFrames := [], pieces := [], ackOwed := false }) d
/-- The sessions of a Paddock whose route is reachable enter OPENING (R471 step 7). -/
def openSessions (d : Device) (p : Nat) : Device := (d.bindingsOf p).foldl (fun d b => d.sessionOpen b) d
/-- Paddock `p` is fenced for a reset. -/
def fenceUp (d : Device) (p : Nat) : Device := ((d.fenceCommon p).dropSessions p).modPdk p fun k => { k with rst := .fenced }
/-- A reset of Paddock `p` with a cause: fenced and counted, or met by R470. -/
def requestReset (d : Device) (p : Nat) (cause : Code) : Device :=
  if !d.pdkPresent p || (d.pdk p).rst != .running || (d.pdkSec p).phase != .none || d.glb.devState != 1 then d
  else (d.fenceUp p).modPdk p fun k => { k with
    lastCause := cause, resets := satNat 32 (k.resets + 1), history := d.now :: within d.now 600000000000 k.history }

/-! ### Crash records (R474, R475) -/

/-- Kinds and units of the sections that Paddock `p` has (Table 15.5). A confidential Paddock's record leaves out register
content. -/
def crashSections (d : Device) (p : Nat) : List (Nat × Nat) :=
  let ss := d.stallsOf p
  let fs := ((ss.flatMap fun s => (d.stall s).q.accepted.filterMap fun m =>
    d.findFence (d.stall s).q.context (fenceOf m).1)).eraseDups
  let cs := d.coresOf p
  (ss.map fun s => (1, s)) ++ (fs.map fun i => (2, i)) ++
  (((List.range 16).filter fun n => (d.sem p n).valid).map fun n => (3, n)) ++
  (if d.confidential p then [] else (cs.map fun c => (4, c)) ++ cs.flatMap fun c => [(5, 2 * c), (5, 2 * c + 1)]) ++
  ((d.rounds.filter fun r => r.paddock == p).map fun r => (6, r.id)) ++ [(7, p)] ++ (d.bindingsOf p).map fun b => (8, b)
/-- Keeps a record in the next slot of the flash crash area: of 256 slots, the oldest goes (R513). A worn flash counts it as
lost (R512). -/
def keepCrash (d : Device) (c : Crash) : Device :=
  let l := d.resets.crashes ++ [c]
  if d.flash.worn then { d with resets := { d.resets with crashSeq := c.seqno }, flash := { d.flash with logLost := d.flash.logLost + 1 } }
  else { d with
    resets := { d.resets with crashSeq := c.seqno, crashes := l.drop (l.length - 256) }
    flash := { d.flash with crashSlot := (d.flash.crashSlot + 1) % 256 } }
/-- Writes a record to the host crash area where it is enabled, slots in turn (R474). -/
def hostCrash (d : Device) (seqno : Nat) : Device :=
  let g := d.glb
  if g.crashEn then
    { d.emit (.crashRecord g.crashNext seqno) with glb := { g with crashNext := (g.crashNext + 1) % 2 ^ g.crashSlots } }
  else d
/-- A record of the state as it stands. -/
def crashNow (d : Device) (scope p : Nat) (cause : Code) (reduced part : Bool) (inc : BitVec 8) (l : List (Nat × Nat)) : Crash :=
  { scope := scope, paddock := p, tally := d.now, epoch := d.tally.epoch, cause := cause, inc := inc, reduced := reduced, part := part,
    seqno := (d.resets.crashSeq + 1) % 2 ^ 32, sections := l.map fun x => (x.1, x.2, d.now) }
/-- The record of a Paddock at its fence, in the flash and at once in the host area. -/
def capturePdk (d : Device) (p : Nat) : Device :=
  let k := d.pdk p
  let c := d.crashNow 0 p k.lastCause (d.confidential p) false k.inc (d.crashSections p)
  ((d.keepCrash c).hostCrash c.seqno).modPdk p fun k => { k with crashSeq := c.seqno }

/-! ### Discard (R471 step 3, R472) -/

/-- An accepted command is lost: its fence carries the code, and what it held is released. -/
def dropCommand (d : Device) (ctx queue : Nat) (m : Cmd) (code : Code) : Device :=
  let h := (fenceOf m).1
  let d := if h = 0 then d else d.attachTo ctx h code
  let d := m.refs.foldl unrefObj d
  let d := if fenceWord m.opcode = 0 then d else d.unrefFence ((cmdWord m (fenceWord m.opcode)).setWidth 32)
  d.dropHolds queue m.seq
/-- A queue that keeps NEXT and nothing else. -/
def emptied (q : Queue) : Queue := { q with landed := [], accepted := [], musters := [], taken := 0 }
/-- The accepted commands of a Stall are lost, and so are the capsules that had landed. -/
def dropCommands (d : Device) (code : Code) (s : Nat) : Device :=
  let x := d.stall s
  let d := x.q.accepted.foldl (fun d m => d.dropCommand x.q.context x.queue m code) d
  d.modStallQ s emptied
/-- Every job of the Paddock ends. -/
def endJobs (d : Device) (p : Nat) (code : Code) : Device :=
  Table.foldl d.jobs (fun d j v => if v.paddock == p then d.endJob j code else d) d
/-- The private writes of the Paddock that its channels have accepted complete under the present keys (R277, R302). -/
def completeBursts (d : Device) (p : Nat) : Device :=
  Table.foldl d.pieces (fun d _ x =>
    if x.pdk == p && x.phase == .write && x.dst.isPriv then
      match d.writePriv p x.place x.data with
      | .inl d => d
      | .inr q => d.privFail p x.ctx q 0x0302
    else d) d
/-- Accepted bursts complete; pieces, pushes and chain messages of the Paddock are abandoned. -/
def dropTraffic (d : Device) (p : Nat) : Device :=
  let d := d.completeBursts p
  let d := Table.foldl d.pieces (fun d i x => if x.pdk == p then d.dropPiece i else d) d
  let cs := d.coresOf p
  let mine := fun (x : Push) => cs.contains x.core || (match x.src with
    | .program c => cs.contains c
    | .channel c _ => cs.contains c)
  cs.foldl (fun d c => d.setSkid c []) { d with pushes := d.pushes.filter fun x => !mine x }
/-- The queue of a fenced Stall is OUT, its save area written (R472). A queue whose state was still being loaded stays as it was. -/
def outStall (d : Device) (s : Nat) : Device :=
  let x := d.stall s
  if (d.outQueue x.queue).qstate = 0 then d
  else ((d.emit (.saveArea x.queue)).emit (.queueEntry x.queue 0 false)).setOutQueue x.queue
    { known := true, qstate := 0, runnable := false, q := emptied x.q, watch := none }
/-- Every window of the Paddock becomes FREE, its generation advanced. -/
def freeWindows (d : Device) (p : Nat) : Device := Table.foldl d.windows (fun d k _ => if k / 256 == p then d.winFree k else d) d
/-- Stalls of the Paddock become FREE. -/
def freeStalls (d : Device) (p : Nat) : Device :=
  (d.stallsOf p).foldl (fun d s => d.modStall s fun x => { x with
    state := .free, q := Queue.reset, dropPosted := false, fencePosted := false }) d
/-- Step 3 for Paddock `p`; the record of the discard bears the instant of the fence (R43). -/
def discardPdk (d : Device) (p : Nat) (cause : Code) (seqno : Nat) : Device :=
  let d := (d.stallsOf p).foldl (dropCommands · 0x0701) d
  let d := ((d.endJobs p 0x0701).idleAll p 0x0701).dropTraffic p
  let d := ((d.stallsOf p).foldl outStall d).freeWindows p
  d.postDev { d.pdkEvent p 6 0x0701 (det 20 cause.toNat ||| det 24 seqno) with tally := (d.pdk p).fencedAt }

/-! ### Self-refresh and the clear (R277, R286, R471 steps 4 and 5) -/

/-- A channel enters self-refresh and writes its seal under the keys of the Paddock that owns it. -/
def selfRefresh (d : Device) (n : Nat) : Device :=
  d.modChan n fun k =>
    match k.state with
    | .active =>
      match d.pdkOfChan n with
      | none => { k with state := .selfRefresh }
      | some p =>
        let s : Seal := { tally := d.now, epoch := d.tally.epoch, paddock := p, count := satNat 32 (k.sealCount + 1),
                          key := (d.pdkSec p).memKey }
        { k with state := .selfRefresh, sealCount := satNat 32 (k.sealCount + 1), written := some s, copy := some s }
    | .training => { k with state := .selfRefresh }
    | _ => k
/-- A channel leaves self-refresh, or OFF, to train. -/
def beginTraining (d : Device) (n : Nat) : Device :=
  d.modChan n fun k => if k.state = .selfRefresh ∨ k.state = .off then { k with state := .training } else k

/-- A slice after its clear: no data, no regions; remapped words stay remapped, their spares zero. -/
def clearedSlice (s : Slice) : Slice := { Slice.reset with remap := s.remap.map (fun e => { e with spare := 0 }), faults := s.faults }
/-- The Paddock's cores and slices at their reset values, their frames gone. -/
def clearCores (d : Device) (p : Nat) : Device :=
  (d.coresOf p).foldl (fun d c =>
    let d := (d.setCore c Core.reset).setSlice c (clearedSlice (d.slice c))
    { d with saved := Table.erase d.saved c }) d
/-- The Drover registers of a Paddock at their reset values; the reset unit's own stay. -/
def clearDrover (k : Pdk) : Pdk :=
  { Pdk.reset with
    rst := k.rst, memLost := k.memLost, lastCause := k.lastCause, resets := k.resets, history := k.history, prog := k.prog,
    fencedAt := k.fencedAt, progSeen := k.progSeen, alive := k.alive, aliveSeen := k.aliveSeen, crashSeq := k.crashSeq, inc := k.inc }
/-- A memory object is destroyed whoever references it. -/
def killObj (d : Device) (i : Nat) : Device :=
  let d := d.setObj i { Obj.reset with gen := (d.obj i).gen + 1 }
  { d with sec := { d.sec with sealedObjs := d.sec.sealedObjs.filter (· != i) } }
/-- Every object of the Paddock that `p` accepts is destroyed. -/
def killObjs (d : Device) (pdk : Nat) (p : Obj → Bool) : Device :=
  Table.foldl d.objs (fun d i o => if o.used && o.paddock == pdk && p o then d.killObj i else d) d
/-- Entries of the Paddock's contexts leave the translation copy table, and the acknowledgement runs (R300). -/
def dropAtc (d : Device) (p : Nat) : Device :=
  ({ d with xlt := { d.xlt with atc := d.xlt.atc.filter fun e => !((d.boundTo e.context).contains p) } }).notify true
/-- Steps 4 and 5 for Paddock `p`. -/
def clearPdk (d : Device) (p : Nat) : Device :=
  let d := ((d.chansOf p).foldl selfRefresh d).dropAtc p
  ((d.clearCores p).modPdk p clearDrover).killObjs p fun o => o.space == .yard

/-! ### Keys (R439 to R443, Table 14.3) -/

/-- The next number of the DRBG. -/
def draw (d : Device) : Device × Nat :=
  let s := d.sec
  ({ d with sec := { s with keyCount := s.keyCount + 1, drbgReqs := s.drbgReqs + 1 } }, s.keyCount + 1)
/-- The key source that new keys of the Paddock come from. -/
def sessionNext (d : Device) (p : Nat) : Bool := ((d.pdkSec p).newLayout.getD (d.layout p)).session
/-- The number of the FUSED keys of a Paddock: they are a function of it and of its key generation (R441). -/
def fusedKey (p : Nat) (kgen : W32) : Nat := 2 * (8 * kgen.toNat + p) + 1
/-- New memory keys: FUSED ones are derived, SESSION ones drawn, and refused while the entropy source has failed. -/
def newMemKey (d : Device) (p : Nat) : Device :=
  if !d.sessionNext p then d.modPdkSec p fun x => { x with memKey := fusedKey p x.kgen }
  else if d.sec.entFail then d.modPdkSec p fun x => { x with memKey := 0 }
  else
    let (d, n) := d.draw
    d.modPdkSec p fun x => { x with memKey := 2 * n }
/-- A new intake key pair, and no bundle key; none is generated while the entropy source has failed. -/
def newIntake (d : Device) (p : Nat) : Device :=
  let d := d.modPdkSec p fun x => { x with intakeKey := 0, bundles := [] }
  if d.sec.entFail then d
  else
    let (d, n) := d.draw
    d.modPdkSec p fun x => { x with intakeKey := n }

/-- The Paddock's private memory is lost: MEMORY_LOST (R478, R483). -/
def memoryLost (d : Device) (p : Nat) : Device :=
  (d.modPdk p fun k => { k with memLost := true }).postDev (d.pdkEvent p 6 0x0712)
/-- A failed seal: new keys, and every private object destroyed (R483). -/
def loseMemory (d : Device) (p : Nat) : Device :=
  let d := if (d.layout p).session then d else d.modPdkSec p fun x => { x with kgen := x.kgen + 1 }
  let d := (d.newMemKey p).killObjs p fun o => o.space == .priv
  ({ d with segs := Table.keep d.segs fun k _ => k / 256 != p }).memoryLost p

/-- The Paddock is out of service (R278, R443, R479). -/
def outOfService (d : Device) (p : Nat) : Device :=
  let d := (d.freeStalls p).modPdk p fun k => { k with rst := .outOfService }
  d.postDev (d.pdkEvent p 6 0x0702)

/-! ### Tenant removal (R458 to R460, Table 14.8) -/

/-- Commands accepted from queues of the Paddock that are OUT. -/
def dropOutCommands (d : Device) (p : Nat) (code : Code) : Device :=
  Table.foldl d.queues (fun d n o =>
    if o.q.paddock == p && o.qstate == 0 then
      let d := o.q.accepted.foldl (fun d m => d.dropCommand o.q.context n m code) d
      d.modOutQueue n fun o => { o with q := emptied o.q, watch := none }
    else d) d
/-- Phase FENCED: jobs stop, every accepted command's fence receives TENANT_REMOVED. -/
def beginRemoval (d : Device) (p : Nat) : Device :=
  let d := (d.fenceCommon p).modPdkSec p fun x => { x with phase := .fenced, rmvWaits := false }
  let d := ((d.stallsOf p).foldl (dropCommands · 0x0605) d).dropOutCommands p 0x0605
  (d.endJobs p 0x0605).idleAll p 0x0605
/-- A removal that would need SESSION keys is refused while the entropy source has failed (R440). -/
def removalBarred (d : Device) (p : Nat) : Bool := d.sessionNext p && d.sec.entFail
/-- A removal is asked for: ignored in a removal, kept waiting until a reset's record is collected, pending through a device
reset (R458, R460). -/
def requestRemoval (d : Device) (p : Nat) : Device :=
  if !d.pdkPresent p || (d.pdkSec p).phase != .none || d.removalBarred p || (d.glb.devState != 1 && d.glb.devState != 2) then d
  else if d.glb.devState = 2 then d.modPdkSec p fun x => { x with phase := .pending }
  else if (d.pdk p).rst = .fenced then d.modPdkSec p fun x => { x with rmvWaits := true }
  else (d.modPdk p fun k => { k with rst := if k.rst = .retraining then .running else k.rst }).beginRemoval p

/-! ### Built-in tests (R104, R105, R218, R522) -/

/-- Soft repair mends one failed row and one failed column, each only where the fuse skips none (R104). -/
def softMends (d : Device) (x : Nat × Nat × Nat × Nat × Bool) : Bool :=
  let f := ((d.fuse.repair.find? fun y => y.1 == x.1 && y.2.1 == x.2.1).map (·.2.2)).getD (16, 16)
  let spare := fun (fused failed : Nat) => failed = 16 || (fused = 16 && failed < 16)
  x.2.2.2.2 && spare f.1 x.2.2.1 && spare f.2 x.2.2.2.1
/-- What the tests find takes effect: soft repair, core pairs out of use, remapped words, invalid sensors. -/
def runTests (d : Device) (t : TestReport) : Device :=
  let bad := (t.pens.filter fun x => !d.softMends x).map fun x => (x.1, x.2.1)
  let soft := (t.pens.filter fun x => d.softMends x && (x.2.2.1 != 16 || x.2.2.2.1 != 16)).map fun x => (x.1, x.2.1, x.2.2.1, x.2.2.2.1)
  let pairs := ((bad.map fun (x : Nat × Nat) => x.1 / 2) ++ t.pairs).foldl (fun (m : BitVec 6) k => m ||| BitVec.ofNat 6 (2 ^ k)) 0
  let d := { d with boot := { d.boot with soft := soft, failedPens := bad, outPairs := pairs } }
  let d := d.fuse.remap.foldl (fun (d : Device) x => d.installRemap x.1 x.2.1 x.2.2.1 x.2.2.2 true) d
  let d := d.boot.softRemap.foldl (fun (d : Device) x => d.installRemap x.1 x.2.1 x.2.2.1 x.2.2.2 false) d
  let d := t.yard.foldl (fun (d : Device) x => d.softEntry x.1 x.2.1 x.2.2.1 x.2.2.2) d
  { d with power := { d.power with
    sensors := ((List.range 32).filter fun i => !t.sensors.contains i).foldl (fun s i => Table.set s (0, false) i (0, true)) [] } }

/-! ### Device reset (R345, R470, R476 to R480, R524, R525) -/

/-- Every Paddock is fenced at once; a removal stays pending, and a Paddock reset that runs is taken over. -/
def fenceAll (d : Device) : Device :=
  d.pdksPresent.foldl (fun d p =>
    let d := if (d.pdkSec p).phase = .none then d else d.modPdkSec p fun x => { x with phase := .pending }
    match (d.pdk p).rst with
    | .outOfService => d
    | .running => d.fenceUp p
    | _ => d.modPdk p fun k => { k with rst := .fenced, resets := k.resets - 1, history := k.history.drop 1 }) d
/-- A cause of a device reset arises: the fence. -/
def requestDevReset (d : Device) (cause : Code) : Device :=
  if d.resets.devAsked.isSome || d.glb.devState == 0 then d
  else
    let d := d.fenceAll
    { d with resets := { d.resets with devFence := d.now, devAsked := some cause }, glb := { d.glb with devState := 2 } }
/-- The device's record: everything, or only what the Shepherd domain supplies (R477, R524). -/
def captureDev (d : Device) (cause : Code) (part : Bool) : Device :=
  let l := d.pdksPresent.flatMap d.crashSections ++ [(9, 0)]
  let l := if part then l.filter fun x => x.1 == 1 || x.1 == 8 || x.1 == 9 else l
  let c := d.crashNow 1 0xFF cause d.anyConfidential part 0 l
  let d := d.keepCrash c
  { d with resets := { d.resets with owed := d.resets.owed ++ [c.seqno] } }
/-- Segment entries of the FUSED Paddocks (R478). -/
def dormantOf (d : Device) : List Dormant :=
  d.segs.filterMap fun (k, e) =>
    if (d.layout (k / 256)).session || (d.pdkSec (k / 256)).phase != .none then none
    else some { pdk := k / 256, context := e.owner, seg := e.seg, base := e.base, len := e.len, rd := e.rd, wr := e.wr }
/-- Both ports are down; configuration stays, sessions are DOWN and counters zero (R402, R406). -/
def resetLinks (l : Links) : Links :=
  { l with
    ports := Table.mapAll l.ports Port.reset fun p => { Port.reset with ip4 := p.ip4, vid := p.vid, ip6 := p.ip6 }
    bindings := Table.mapAll l.bindings Binding.reset fun b => { Binding.reset with
      valid := b.valid, pdk := b.pdk, peerPdk := b.peerPdk, peer := b.peer, credits := b.credits } }
/-- Power control at its reset values; what the Shepherd domain holds stays, and the pins with it (R432, R484). -/
def resetPower (w : Power) : Power :=
  { Power.reset with
    capSet := w.capSet, ctl := w.ctl, maxStep := pcMaxStep w.ctl, thermWarn := w.thermWarn, phases := w.phases, phaseClock := w.phaseClock,
    alert := w.alert, crit := w.crit,
    interval := w.interval }
/-- All logic outside the Shepherd domain at its reset values (R345, R476, Table 18.5). -/
def resetDomains (d : Device) : Device :=
  { d with
    glb := { Glb.reset with
      devState := d.glb.devState, drvCtx := d.glb.drvCtx, qtabBase := d.glb.qtabBase, crashBase := d.glb.crashBase, crashEn := d.glb.crashEn
      crashSlots := d.glb.crashSlots, crashNext := d.glb.crashNext }
    rings := Table.keep d.rings fun n _ => n == 0
    vecs := [], stalls := [], queues := [], objs := [], fences := [], seqs := [], jobs := [], rounds := [], cores := [], saved := []
    slices := [], windows := [], pieces := [], pushes := [], skid := [], segs := [], xlt := Xlt.reset
    links := resetLinks d.links, power := resetPower d.power
    sec := { d.sec with sealedObjs := [] }
    chans := Table.mapAll d.chans Chan.reset fun k => { k with ce := 0, ue := 0, macf := 0, failLine := 0, failCode := 0, sealOk := false }
    flash := { d.flash with erase := .idle, prog := .idle, eraseQueue := [], progQueue := [], susp := false, suspCnt := 0, forced := false } }
/-- Keys after a device reset, and each Paddock's Drover at its reset values (Table 14.3, R391). -/
def restartPdk (d : Device) (p : Nat) : Device :=
  let d := if (d.layout p).session then d.newMemKey p else d
  let d := (d.newIntake p).modPdkSec p fun x => { x with phase := if x.rmvWaits then .pending else x.phase, rmvWaits := false }
  d.modPdk p fun k => { clearDrover k with
    inc := k.inc + 1, rst := if k.rst = .outOfService then .outOfService else .retraining }
/-- The channels that train at a start: not those of a Paddock out of service, nor of one that waits for its keys, nor those
that the dictionary holds OFF (R276). -/
def trains (d : Device) (n : Nat) : Bool :=
  match d.pdkOfChan n with
  | some p => (d.pdk p).rst != .outOfService && (d.pdkSec p).memKey != 0
  | none => !d.dict.chanOff.contains n
/-- The device reset up to its trainings (R476, R523). -/
def resetDevice (cause : ResetCause) (t : TestReport) (d : Device) : Device :=
  if !d.boot.released || d.boot.stage < 5 || d.boot.stage == 9 then d
  else
    let code := causeCode cause
    let asked := d.resets.devAsked.isSome
    let again := d.glb.devState == 2 && !asked
    let part := again || cause == .supplyReset || cause == .thermalCrit
    let d := if asked then d else { d.fenceAll with resets := { d.resets with devFence := d.now } }
    let d := d.captureDev code part
    let seqno := d.resets.crashSeq
    let d := if part then d.pdksPresent.foldl completeBursts d
      else d.pdksPresent.foldl (fun d p => if (d.pdk p).rst = .outOfService then d else d.discardPdk p code seqno) d
    let d := if d.tally.src = 1 && d.tally.running then
        (d.modTally fun t => { t with ptpSource := none, ptpRank := 0, ptpSync := none, ptpLast := none, ptpDelay := none }).enterHoldover else d
    let d := (List.range 16).foldl selfRefresh d
    let times := d.now :: within d.now 3600000000000 d.resets.devHistory
    let d := { d with
      resets := { d.resets with
        dormant := d.dormantOf, devHistory := times, devOos := decide (8 ≤ times.length), devCause := code
        devTotal := satInc d.resets.devTotal, devAsked := none }
      glb := { d.glb with devState := if d.glb.devState = 0 then 0 else 2 } }
    let d := (List.range 6).foldl disarmAll d.resetDomains
    let d := (d.pdksPresent.foldl restartPdk d).runTests t
    let d := (List.range 16).foldl (fun d n => if d.trains n then d.beginTraining n else d) d
    { d with boot := { d.boot with stage := 8, fail := false, code := 0, linkDone := false, linkBad := false } }

/-- Every channel has finished training, and the link with it. -/
def trained (d : Device) : Bool := d.boot.linkDone && (List.range 16).all fun n => (d.chan n).state != .training
/-- A Paddock goes into service: it has its keys and its channels are ACTIVE. -/
def enterService (d : Device) (p : Nat) : Device :=
  if (d.pdk p).rst = .retraining ∧ (d.pdkSec p).memKey ≠ 0 ∧ (d.chansOf p).all (fun n => (d.chan n).state == .active) then
    (d.modPdk p fun k => { k with rst := .running }).openSessions p
  else d
/-- The seals of all the channels of a Paddock passed. -/
def sealsPass (d : Device) (p : Nat) : Bool := (d.chansOf p).all fun n => (d.chan n).state == .active && (d.chan n).sealOk
/-- A private object for a dormant segment entry, without zeroing (R478). -/
def restoreSeg (d : Device) (e : Dormant) : Device :=
  match lowest (fun i => !(d.obj i).used) 65536, d.privEntry e.pdk with
  | some i, some s =>
    let g : Segment := { rd := e.rd, wr := e.wr, seg := e.seg, owner := e.context, base := e.base, len := e.len }
    let o : Obj := { Obj.reset with
      gen := (d.obj i).gen, used := true, space := .priv, context := e.context, paddock := e.pdk, rd := e.rd, wr := e.wr, seg := e.seg
      base := e.base * 2 ^ 21, len := e.len * 2 ^ 21, href := 1 }
    let d := ({ d with segs := Table.put d.segs (256 * e.pdk + s) g }).setObj i o
    let l := d.resets.crashes
    let last := (l.drop (l.length - 1)).map fun c => { c with sections := c.sections ++ [(10, i, d.now)] }
    { d with resets := { d.resets with crashes := l.dropLast ++ last } }
  | _, _ => d
/-- The private objects of a FUSED Paddock whose seals pass come back; any other Paddock's memory is lost. -/
def restorePdk (d : Device) (p : Nat) : Device :=
  if !(d.layout p).session && d.sealsPass p then (d.resets.dormant.filter fun e => e.pdk == p).foldl restoreSeg d
  else d.memoryLost p
/-- READY is set and posted (R345). -/
def setReady (d : Device) : Device :=
  let d := { d with glb := { d.glb with ready := true, devState := 1 } }
  d.postDev (d.devEvent 6 0x0709 (det 20 d.tally.epoch ||| det 24 d.boot.outPairs.toNat))
/-- The end of a device reset (R480, R523): READY, the records owed to the host, then private memory. -/
def readyAfterReset (ms : BitVec 32) (d : Device) : Device :=
  if d.glb.devState ≠ 2 || d.resets.devAsked.isSome || !d.trained then d
  else
    let d := { d with boot := { d.boot with warm := ms } }
    if d.resets.devOos then { d with glb := { d.glb with devState := 3 } }
    else
      let d := (d.pdksPresent.foldl enterService d).setReady
      let d := d.resets.owed.foldl hostCrash d
      let d := { d with resets := { d.resets with owed := [] } }
      let gone := fun p => (d.pdk p).rst == .outOfService && (!(d.chansOf p).any (fun n => (d.chan n).state == .failed) || (d.pdk p).memLost)
      let ps := d.pdksPresent.filter fun p => !gone p && (d.pdkSec p).phase == .none
      let d := ps.foldl restorePdk d
      { d with resets := { d.resets with dormant := [] } }

end Device

end Sys2Proof.Machine
end

