-- ==== Sys2Proof/Machine/BootUnit.lean ====
section
/-! DEFINITION. The power-on reset and the cold start (spec 18: R515 to R522; spec 17: R503, R504; spec 02: R45, R47). -/

namespace Sys2Proof.Machine

namespace Device

/-! ### Power-on reset (R516, R517, Table 18.5) -/

/-- What the flash and the calendar carry through a power-on reset: the Tally's settings. -/
def keptTally (t : Tally) : Tally :=
  { Tally.reset with
    epoch := t.epoch, src := t.src, hz := t.hz, ptpTx := t.ptpTx, ptpDomain := t.ptpDomain, cal := t.cal, calRem := t.calRem
    calValid := t.calValid, calLost := t.calLost }
/-- The settings of the Drove links. -/
def keptLinks (l : Links) : Links :=
  { Links.reset with
    addr := l.addr, ctl := l.ctl, dport := l.dport, trust := l.trust, nbrs := l.nbrs, routes := l.routes
    ports := Table.mapAll l.ports Port.reset fun p => { Port.reset with ip4 := p.ip4, vid := p.vid, ip6 := p.ip6 }
    bindings := Table.mapAll l.bindings Binding.reset fun b => { Binding.reset with
      valid := b.valid, pdk := b.pdk, peerPdk := b.peerPdk, peer := b.peer, credits := b.credits } }
/-- Layout and key generation of a Paddock; an accepted layout write is in the flash already. -/
def keptSec (x : PdkSec) : PdkSec := { PdkSec.reset with layout := x.newLayout.getD x.layout, kgen := x.kgen }
/-- The store as the controller finds it: its map, its wear, its log. -/
def keptFlash (f : Flash) : Flash :=
  { f with
    erased := [], erase := .idle, prog := .idle, eraseQueue := [], progQueue := [], susp := false, suspCnt := 0, forced := false,
    ce := 0, neCnt := 0, verifyCnt := 0
    line := none, branches := [], stopped := false }
/-- BLK_PORST_N is low: everything is at its reset value but what the fuses, the flash and the calendar hold. -/
def assertReset (d : Device) : Device :=
  { Device.reset with
    fuse := d.fuse, cal := d.cal, tally := keptTally d.tally, links := keptLinks d.links
    power := { Power.reset with capSet := d.power.capSet, ctl := d.power.ctl, thermWarn := d.power.thermWarn }
    sec := { Security.reset with pdks := Table.mapAll d.sec.pdks PdkSec.reset keptSec, keyCount := d.sec.keyCount }
    resets := { Resets.reset with crashSeq := d.resets.crashSeq, hangMs := d.resets.hangMs, crashes := d.resets.crashes }
    dict := { Dict.reset with
      chanOff := d.dict.chanOff, prTimeout := d.dict.prTimeout, roots := d.dict.roots, ceThresh := d.dict.ceThresh
      snaps := Table.mapAll d.dict.snaps Snap.reset fun x => { Snap.reset with period := x.period, cores := x.cores, groups := x.groups } }
    flash := keptFlash d.flash, boot := { Boot.reset with softRemap := d.boot.softRemap }, out := d.out, free := d.free }

/-! ### Cold start (R518 to R522, Table 18.2) -/

/-- The image that the ROM boots, and whether it is the other one (R503). -/
def bootImage (d : Device) (b : BootReport) : Option (Nat × Bool) :=
  let ok := fun n => if n = 0 then b.imageA else b.imageB
  let s := d.flash.bootSlot
  if ok s then some (s, false) else if ok (1 - s) then some (1 - s, true) else none
/-- Stage 3: the epoch advances, and the Tally starts with the source stored (R45, R519). -/
def startEpoch (d : Device) : Device :=
  let d := d.modTally fun t => { t with
    epoch := (t.epoch + 1) % 2 ^ 32, rate := if t.hz = 0 then t.rate else rateOf t.hz
    state := if t.src = 2 then .freeRun else .acquiring }
  if d.tally.src = 0 then d else d.startTally 0
/-- The firmware arms its alarms: HEARTBEAT each 1 ms, and the counter sets of the dictionary (R465, R496). -/
def armFirmware (d : Device) : Device :=
  let d := match d.arm 7 4 0 (d.now + 1000000) 1000000 with
    | some (d, _) => d
    | none => d
  (List.range 8).foldl (fun (d : Device) n =>
    let x := Table.get d.dict.snaps Snap.reset n
    if x.period = 0 then d
    else match d.arm 7 5 n (d.now + x.period * 1000) (x.period * 1000) with
      | some (d, slot) => { d with dict := { d.dict with snaps := Table.set d.dict.snaps Snap.reset n { x with slot := some slot } } }
      | none => d) d
/-- Stage 4: the start-up tests of the entropy source seed the DRBG, or FAIL is set (R439, R440). -/
def startEntropy (ok : Bool) (d : Device) : Device :=
  if ok then { d with sec := { d.sec with seeded := true, seedNum := d.sec.seedNum + 1, seedAt := d.now, drbgReqs := 0 } }
  else ({ d with sec := { d.sec with entFail := true, failCnt := satNat 16 (d.sec.failCnt + 1) } } : Device).platform 0x0604
/-- Stage 6: a Paddock's keys and its incarnation (Table 14.3, R391); it waits for its channels. -/
def startPdk (d : Device) (p : Nat) : Device :=
  let d := (d.newMemKey p).newIntake p
  d.modPdk p fun k => { k with inc := BitVec.ofNat 8 d.tally.epoch, rst := .retraining }
/-- Stages 6 to 8: the Paddocks get their keys, and the channels begin to train (R518). -/
def trainAll (d : Device) : Device :=
  (List.range 16).foldl (fun d n => if d.trains n then d.beginTraining n else d) (d.pdksPresent.foldl startPdk d)
/-- Stage 8: the trainings run, and the operator's largest step rules (R518). -/
def atStage8 (d : Device) : Device :=
  { d with
    boot := { d.boot with stage := 8, linkDone := false, linkBad := false }
    power := { d.power with maxStep := pcMaxStep d.power.ctl } }
/-- The stages from the release of BLK_PORST_N to the trainings of stage 8, or the stage that holds the device. -/
def coldStart (b : BootReport) (d : Device) : Device :=
  if d.boot.released then d
  else
    let d := { d with boot := { d.boot with released := true, stage := 2 } }
    if !b.sfdpOk || !b.calOk then { d with boot := { d.boot with fail := true } }
    else
      let d := d.startEpoch
      match d.bootImage b with
      | none =>
        let d := { d with boot := { d.boot with stage := 9, fail := true, code := 0x0906 } }
        (d.logFlash 0x0906 0).logFlash 0x0713 (9 + 0x09060000)
      | some (n, other) =>
        let d := { d with
          boot := { d.boot with fallback := other }
          flash := { d.flash with active := n, imageOk := Table.set (Table.set d.flash.imageOk false 0 b.imageA) false 1 b.imageB } }
        let d := if other then d.logFlash 0x0906 (BitVec.ofNat 64 n) else d
        atStage8 (trainAll ((startEntropy b.entropyOk d.armFirmware).runTests b.tests))
/-- Stage 8 ends: the channels and the link have trained. A device that restarted too often stays out of service (R480). -/
def startReady (ms : BitVec 32) (d : Device) : Device :=
  if !d.boot.released || d.boot.stage != 8 || d.glb.devState != 0 || d.resets.devAsked.isSome || !d.trained then d
  else
    let d := { d with boot := { d.boot with cold := ms } }
    if d.resets.devOos then { d with glb := { d.glb with devState := 3 } }
    else
      let d := (d.pdksPresent.foldl enterService d).setReady
      if d.tally.calLost then (d.modTally fun t => { t with calLost := false }).platform 0x0708 else d

end Device

/-- POWER_ON_RESET_ASSERT (R516, R517). -/
def execPowerOnResetAssert (s : State) : Res0 := done s Device.assertReset
/-- COLD_START: the rising edge of BLK_PORST_N (R516, R518). -/
def execColdStart (b : BootReport) (s : State) : Res0 := done s (Device.coldStart b)
/-- COLD_START_READY: the end of stage 8 (R518, R531). -/
def execColdStartReady (ms : BitVec 32) (s : State) : Res0 := done s (Device.startReady ms)

end Sys2Proof.Machine
end

