-- ==== Sys2Proof/Machine/CommandUnit.lean ====
section
/-! DEFINITION. The capsule commands of a Stall: taking a capsule, what each opcode does when it starts, the chunks of an
intake, and completion (spec 10: R316 to R337; spec 11: R350; spec 14: R451). -/

namespace Sys2Proof.Machine

namespace Device

/-- A command of an opcode that acts when it is taken: the capsule at NEXT is taken if it is one, and the command that stands
first in start order completes once it starts, unless it still waits for something. -/
def instant (op s : Nat) (peers : List Nat) (waits : Device → Cmd → Bool) (d : Device) : Device :=
  (d.takeIf s peers fun w => capOp w == op && listsPeers w == peers.length).startNext s op fun d m =>
    if waits d m then d else d.finishCmd (d.stall s).queue m.seq 0 m.handle

def noWait (_ : Device) (_ : Cmd) : Bool := false
/-- The zeroing of a new private segment still runs (R273). -/
def zeroWaits (d : Device) (m : Cmd) : Bool := bits m.handle 31 28 == 1 && (d.obj (handleSlot m.handle)).zeroing
/-- The window of a WINDOW_CLOSE has not finished its close (R225). -/
def closeWaits (s : Nat) (d : Device) (m : Cmd) : Bool :=
  let h : W32 := (cmdWord m 1).setWidth 32
  let w := d.window (256 * (d.stall s).q.paddock + winSlot h)
  w.state == .closing && winNames w h
/-- The sequence of a SEQ_LEAVE has not left (R376). -/
def leaveWaits (s : Nat) (d : Device) (m : Cmd) : Bool :=
  let i := handleSlot ((cmdWord m 1).setWidth 32)
  (d.seq i).leave == some ((d.stall s).queue, m.seq)

/-- The job of a RUN_PROGRAM becomes READY (Table 11.1): its group becomes active, and it is a candidate. -/
def readyJob (s : Nat) (d : Device) : Device :=
  if (d.stall s).state ≠ .bound then d
  else match (d.stall s).q.nextStart with
    | none => d
    | some m =>
      if m.opcode ≠ 2 || m.job.isSome then d
      else
        let q := (d.stall s).q
        let qn := (d.stall s).queue
        let v : Job :=
          { state := .ready, paddock := q.paddock, context := q.context, queue := qn, seq := m.seq,
            want := bits (cmdWord m 1) 48 45, cores := [], halted := [], yielded := [], image := (cmdWord m 1).setWidth 32,
            entry := bits (cmdWord m 1) 44 32, args := [cmdWord m 2, cmdWord m 3, cmdWord m 4, cmdWord m 5],
            fence := (cmdWord m 6).setWidth 32, value := cmdWord m 7, share := q.share, loan := none, loanDepth := 0,
            loanFor := (0, 0), bundles := [],
            musters := m.musters, loaded := false, trapCode := 0, haltCode := 0, haltAt := none, forJob := none, since := d.now,
            released := 0, step := false, tickets := [] }
        let j := d.nextJob
        let d := d.activate q.paddock q.share
        let d := d.modCmd qn m.seq fun m => { m with job := some j, musters := [] }
        ({ d with nextJob := j + 1 }.setJob j v).consider q.paddock

/-- A SIGNAL_FENCE signals; a refusal posts a COMMAND record (R332, R333). -/
def signalNow (s : Nat) (d : Device) (m : Cmd) : Device :=
  let q := (d.stall s).q
  let h : W32 := (cmdWord m 1).setWidth 32
  match d.findFence q.context h with
  | none => d.finishCmd (d.stall s).queue m.seq 0
  | some i =>
    let (d, code) := d.signalFence i (cmdWord m 2)
    let d := if code = 0 then d else d.commandRecord s code h m.seq m.opcode 0
    d.finishCmd (d.stall s).queue m.seq code

/-- A WAIT_FENCE that waits is released once its value is reached or its fence carries an error (R335). -/
def releaseWait (s : Nat) (d : Device) : Device :=
  match (d.stall s).q.accepted.find? fun m => m.opcode == 5 && m.phase == .running with
  | none => d
  | some m =>
    match d.findFence (d.stall s).q.context ((cmdWord m 1).setWidth 32) with
    | none => d
    | some i =>
      match d.waitDone i (cmdWord m 2) with
      | some code => d.finishCmd (d.stall s).queue m.seq code
      | none => d

/-- The object that a copy lands in, as its capsule named it. -/
def landsIn (m : Cmd) : Nat := if m.opcode = 3 then m.refs.getD 1 0 else m.refs.getD 0 0
/-- Writes a chunk at the destination of an intake; a Paddock's memory that refuses it answers the code. -/
def landChunk (d : Device) (s : Nat) (m : Cmd) (bs : List Byte) : Device ⊕ (Device × Code) :=
  let q := (d.stall s).q
  match (d.copyEnds m m.done).2 with
  | .slice c off => .inl (d.landBytes c off bs [])
  | .dva a =>
    match d.privCheck q.paddock q.context a bs.length true with
    | .inl code => .inr (d, code)
    | .inr P => match d.writePriv q.paddock P bs with
      | .inl d => .inl d
      | .inr k => .inr (d.privFail q.paddock q.context k 0x0302, 0x0302)
  | _ => .inl d
/-- A decrypted chunk of the running intake: landed when both checks pass, else the command fails (R451). -/
def takeChunk (s : Nat) (c : IntakeChunk) (d : Device) : Device :=
  if (d.stall s).state ≠ .bound then d
  else match (d.stall s).q.accepted.find? fun m => m.phase == .running && (d.intakeOf s m).isSome with
    | none => d
    | some m =>
      if c.data.length ≠ min 14336 (copyLen m - m.done) then d
      else if !c.tagOk || !c.checkOk then d.failCommand s m.seq 0x0603
      else match d.landChunk s m c.data with
        | .inr (d, code) => d.failCommand s m.seq code
        | .inl d =>
          let o := landsIn m
          let d := { d with sec := { d.sec with sealedObjs := if d.sec.sealedObjs.contains o then d.sec.sealedObjs
                                                              else d.sec.sealedObjs ++ [o] } }
          let d := d.modCmd (d.stall s).queue m.seq fun m => { m with done := m.done + c.data.length, issued := m.issued + c.data.length }
          if copyLen m ≤ m.done + c.data.length then d.finishCmd (d.stall s).queue m.seq 0 else d

/-- The first command of the Stall that has ended completes. -/
def completeNext (s : Nat) (d : Device) : Device :=
  match (d.stall s).q.accepted.find? fun m => d.cmdEnded s m with
  | some m => if (d.stall s).state = .bound ∨ (d.stall s).state = .parked then d.completeCmd s m else d
  | none => d

end Device

/-- CAPSULE_TAKE (R321, R324, R325). A MUSTER_SET that lists peers is taken by its own command, which brings the list. -/
def execCapsuleTake (stall : Nat) (s : State) : Res0 := onUnit 48 stall s fun d => d.takeIf stall [] fun w => Device.listsPeers w == 0
/-- CREDIT_RECORD_TIMER (R322). -/
def execCreditRecordTimer (stall : Nat) (s : State) : Res0 :=
  onUnit 48 stall s fun d => if (d.stall stall).q.taken ≠ 0 ∧ (d.stall stall).state ≠ .free then d.postCredit stall else d
/-- NOP (R316, Table 10.7). -/
def execCapsuleNop (stall : Nat) (s : State) : Res0 := onUnit 48 stall s (Device.instant 1 stall [] Device.noWait)
/-- RUN_PROGRAM (R350). -/
def execRunProgram (stall : Nat) (s : State) : Res0 := onUnit 48 stall s (Device.readyJob stall)
/-- COPY (R323). -/
def execCopy (stall : Nat) (s : State) : Res0 :=
  onUnit 48 stall s fun d => d.startNext stall 3 fun d m => d.advanceCopy stall m.seq
/-- INTAKE_CHUNK (R451). -/
def execIntakeChunk (stall : Nat) (c : IntakeChunk) (s : State) : Res0 := onUnit 48 stall s (Device.takeChunk stall c)
/-- SIGNAL_FENCE (R332). -/
def execSignalFence (stall : Nat) (s : State) : Res0 := onUnit 48 stall s fun d => d.startNext stall 4 (Device.signalNow stall)
/-- WAIT_FENCE (R335). -/
def execWaitFence (stall : Nat) (s : State) : Res0 :=
  onUnit 48 stall s fun d => (d.startNext stall 5 fun d _ => d).releaseWait stall
/-- OBJ_CREATE (R328, R331, R273). -/
def execObjCreate (stall : Nat) (s : State) : Res0 := onUnit 48 stall s (Device.instant 6 stall [] Device.zeroWaits)
/-- OBJ_REF (R329). -/
def execObjRef (stall : Nat) (s : State) : Res0 := onUnit 48 stall s (Device.instant 7 stall [] Device.noWait)
/-- OBJ_UNREF (R329, R330). -/
def execObjUnref (stall : Nat) (s : State) : Res0 := onUnit 48 stall s (Device.instant 8 stall [] Device.noWait)
/-- YARD_LOAD (R323). -/
def execYardLoad (stall : Nat) (s : State) : Res0 :=
  onUnit 48 stall s fun d => d.startNext stall 9 fun d m => d.advanceCopy stall m.seq
/-- WINDOW_OPEN (R223). -/
def execWindowOpen (stall : Nat) (s : State) : Res0 := onUnit 48 stall s (Device.instant 0x0A stall [] Device.noWait)
/-- WINDOW_CLOSE (R225). -/
def execWindowClose (stall : Nat) (s : State) : Res0 := onUnit 48 stall s (Device.instant 0x0B stall [] (Device.closeWaits stall))
/-- SEQ_JOIN (R375, R376). -/
def execSeqJoin (stall : Nat) (s : State) : Res0 := onUnit 48 stall s (Device.instant 0x0C stall [] Device.noWait)
/-- SEQ_LEAVE (R375, R376). -/
def execSeqLeave (stall : Nat) (s : State) : Res0 := onUnit 48 stall s (Device.instant 0x0D stall [] (Device.leaveWaits stall))
/-- HINT_PHASE (R418). -/
def execHintPhase (stall : Nat) (s : State) : Res0 := onUnit 48 stall s (Device.instant 0x0E stall [] Device.noWait)
/-- MUSTER_SET (R261, R405). -/
def execMusterSet (stall : Nat) (peers : List (BitVec 16)) (s : State) : Res0 :=
  onUnit 48 stall s (Device.instant 0x0F stall (peers.map BitVec.toNat) Device.noWait)
/-- CANCEL (R327). -/
def execCancel (stall : Nat) (s : State) : Res0 := onUnit 48 stall s fun d => d.takeIf stall [] fun w => capOp w == 0x10
/-- COMMAND_COMPLETE (R333, R334). -/
def execCommandComplete (stall : Nat) (s : State) : Res0 := onUnit 48 stall s (Device.completeNext stall)

end Sys2Proof.Machine
end

