-- ==== Sys2Proof/Machine/Scalar.lean ====
section
/-! DEFINITION. The scalar instructions of the C slot (spec 06: R173, R174, Table 6.7). -/

namespace Sys2Proof.Machine

/-- D := f(A, b) on the ALU format (R173). -/
def aluOp (f : W64 → W64 → W64) (w : W64) (q : Sequencer) : Sequencer := q.setSop (fD w) (f (q.sop (fA w)) (q.aluB w))

/-- ADD: 64-bit wrapping addition (R173). -/
def aluAdd (x y : W64) : W64 := x + y
def execAdd (core : Nat) (s : State) : Res0 :=
  onUnit 12 core s (Device.issue core .c 0x01 (Device.regOp core (aluOp aluAdd)))

/-- SUB: 64-bit wrapping subtraction (R173). -/
def aluSub (x y : W64) : W64 := x - y
def execSub (core : Nat) (s : State) : Res0 :=
  onUnit 12 core s (Device.issue core .c 0x02 (Device.regOp core (aluOp aluSub)))

/-- AND: 64-bit bitwise AND (R173). -/
def aluAnd (x y : W64) : W64 := x &&& y
def execAnd (core : Nat) (s : State) : Res0 :=
  onUnit 12 core s (Device.issue core .c 0x03 (Device.regOp core (aluOp aluAnd)))

/-- OR: 64-bit bitwise OR (R173). -/
def aluOr (x y : W64) : W64 := x ||| y
def execOr (core : Nat) (s : State) : Res0 :=
  onUnit 12 core s (Device.issue core .c 0x04 (Device.regOp core (aluOp aluOr)))

/-- XOR: 64-bit bitwise XOR (R173). -/
def aluXor (x y : W64) : W64 := x ^^^ y
def execXor (core : Nat) (s : State) : Res0 :=
  onUnit 12 core s (Device.issue core .c 0x05 (Device.regOp core (aluOp aluXor)))

/-- SHL: shift left by b mod 64 (R173). -/
def aluShl (x y : W64) : W64 := x <<< (y.toNat % 64)
def execShl (core : Nat) (s : State) : Res0 :=
  onUnit 12 core s (Device.issue core .c 0x06 (Device.regOp core (aluOp aluShl)))

/-- SHR: logical shift right by b mod 64 (R173). -/
def aluShr (x y : W64) : W64 := x >>> (y.toNat % 64)
def execShr (core : Nat) (s : State) : Res0 :=
  onUnit 12 core s (Device.issue core .c 0x07 (Device.regOp core (aluOp aluShr)))

/-- SRA: arithmetic shift right by b mod 64 (R173). -/
def aluSra (x y : W64) : W64 := x.sshiftRight (y.toNat % 64)
def execSra (core : Nat) (s : State) : Res0 :=
  onUnit 12 core s (Device.issue core .c 0x08 (Device.regOp core (aluOp aluSra)))

/-- MUL: multiplication, the low 64 bits kept (R173). -/
def aluMul (x y : W64) : W64 := x * y
def execMul (core : Nat) (s : State) : Res0 :=
  onUnit 12 core s (Device.issue core .c 0x09 (Device.regOp core (aluOp aluMul)))

/-- MIN: signed minimum (R173). -/
def aluMin (x y : W64) : W64 := if x.toInt ≤ y.toInt then x else y
def execMin (core : Nat) (s : State) : Res0 :=
  onUnit 12 core s (Device.issue core .c 0x0A (Device.regOp core (aluOp aluMin)))

/-- MAX: signed maximum (R173). -/
def aluMax (x y : W64) : W64 := if x.toInt ≤ y.toInt then y else x
def execMax (core : Nat) (s : State) : Res0 :=
  onUnit 12 core s (Device.issue core .c 0x0B (Device.regOp core (aluOp aluMax)))

/-- MINU: unsigned minimum (R173). -/
def aluMinu (x y : W64) : W64 := if x ≤ y then x else y
def execMinu (core : Nat) (s : State) : Res0 :=
  onUnit 12 core s (Device.issue core .c 0x0C (Device.regOp core (aluOp aluMinu)))

/-- MAXU: unsigned maximum (R173). -/
def aluMaxu (x y : W64) : W64 := if x ≤ y then y else x
def execMaxu (core : Nat) (s : State) : Res0 :=
  onUnit 12 core s (Device.issue core .c 0x0D (Device.regOp core (aluOp aluMaxu)))

/-- SLT: 1 when A is signed-less than b, else 0 (R173). -/
def aluSlt (x y : W64) : W64 := if x.toInt < y.toInt then 1 else 0
def execSlt (core : Nat) (s : State) : Res0 :=
  onUnit 12 core s (Device.issue core .c 0x0E (Device.regOp core (aluOp aluSlt)))

/-- SLTU: 1 when A is unsigned-less than b, else 0 (R173). -/
def aluSltu (x y : W64) : W64 := if x < y then 1 else 0
def execSltu (core : Nat) (s : State) : Res0 :=
  onUnit 12 core s (Device.issue core .c 0x0F (Device.regOp core (aluOp aluSltu)))

/-- PSET: every lane of Pd := cond(A, b) (R173). -/
def psetOp (w : W64) (q : Sequencer) : Sequencer :=
  q.setP (bits w 12 10) (if condHolds (cCOND w) (q.sop (fA w)) (q.aluB w) then BitVec.allOnes 256 else 0)
def execPset (core : Nat) (s : State) : Res0 :=
  onUnit 12 core s (Device.issue core .c 0x1F (Device.regOp core psetOp))

/-- TLY: D := the core's local Tally (R26, R173). -/
def execTly (core : Nat) (s : State) : Res0 :=
  onUnit 12 core s (Device.issue core .c 0x1B fun x d =>
    .ok (d.modSeq core fun q => q.setSop (fD x.word) (BitVec.ofNat 64 d.now)))

/-- RAND: D := 64 bits of the core's random source, a free value (R181). -/
def execRand (core : Nat) (s : State) : Res0 :=
  onUnit 12 core s (Device.issue core .c 0x1C fun x d =>
    .ok (d.tookFree.modSeq core fun q => q.setSop (fD x.word) (d.freeWord 1)))

/-- TRAP: raises SOFT_TRAP with CODE (R189). -/
def execTrap (core : Nat) (s : State) : Res0 :=
  onUnit 12 core s (Device.issue core .c 0x1D fun x _ => .trap 0x0807 (BitVec.ofNat 64 (bits x.word 47 32)))

end Sys2Proof.Machine
end

