-- ==== Sys2Proof/Machine/Control.lean ====
section
/-! DEFINITION. Dispatch and the control instructions of the C slot: branches and loops, Kerf points and yields, HALT,
YSYNC, Musters, fences, power phases (spec 06, 08, 11, 13). -/

namespace Sys2Proof.Machine

/-! ### Dispatch (R157, R160 to R164, R186, R532) -/

/-- The four slot words of a bundle, in program order (R157). -/
def bundleWords (b : BitVec 256) : List (Slot × W64) :=
  [(.p, BitVec.ofNat 64 (bits b 63 0)), (.t, BitVec.ofNat 64 (bits b 127 64)), (.m, BitVec.ofNat 64 (bits b 191 128)),
   (.c, BitVec.ofNat 64 (bits b 255 192))]

/-- Dispatch of the next bundle waits until this instruction issues (R164, R532). -/
def holdsDispatch (sl : Slot) (w : W64) : Bool :=
  kpMarked sl w || (sl == .c && (opOf w == 0x10 || opOf w == 0x11 || opOf w == 0x19 || opOf w == 0x1E))

/-- Registers that a legal instruction writes. -/
def claimsOf (sl : Slot) (w : W64) : List Res := if legal sl w then writesOf sl w else []

/-- The first instruction of the bundle that breaks R162 (a register written twice) or R186 (a KP-marked instruction
that does not stand alone). -/
def dispatchFault : List (Slot × W64) → List Res → Option (Slot × W64)
  | [], _ => none
  | (sl, w) :: r, seen =>
    if overlap (claimsOf sl w) seen then some (sl, w) else dispatchFault r (claimsOf sl w ++ seen)

namespace Device

/-- The sequencer dispatches the next bundle of core `c` (R160). -/
def dispatch (c : Nat) (d : Device) : Device :=
  let q := (d.core c).sq
  if q.stat ≠ .run || q.hold.isSome || d.frozen c then d
  else if 8192 ≤ q.pc then d.trapCore c ISA_ILLEGAL 8191 .c 0
  else if q.imemBad.contains q.pc then d.trapCore c 0x0802 q.pc .p (BitVec.ofNat 64 q.pc)
  else
    let is := (bundleWords (Table.get q.imem 0 q.pc)).filter fun x => x.2 ≠ 0
    match is.find? fun x => kpMarked x.1 x.2 && decide (1 < is.length) with
    | some x => d.trapCore c ISA_ILLEGAL q.pc x.1 x.2
    | none =>
      match dispatchFault is [] with
      | some x => d.trapCore c ISA_ILLEGAL q.pc x.1 x.2
      | none =>
        let used : Nat := (q.claims.map fun k => k.res.length).foldl (· + ·) 0
        let need : Nat := (is.map fun x => (claimsOf x.1 x.2).length).foldl (· + ·) 0
        if (is.any fun x => decide (8 ≤ (q.queue x.1).length)) || decide (96 < used + need) then d
        else
          let qs := is.map fun x => ({ num := q.num + slotNum x.1, bundle := q.pc, slot := x.1, word := x.2 } : QInstr)
          let q := qs.foldl (fun q x =>
            let q := q.setQueue x.slot (q.queue x.slot ++ [x])
            let rs := claimsOf x.slot x.word
            if rs.isEmpty then q else { q with claims := q.claims ++ [{ num := x.num, res := rs }] }) q
          let q := { q with num := q.num + 4, bundleCnt := q.bundleCnt + 1, sbPeak := max q.sbPeak (used + need) }
          let q := match qs.find? fun x => holdsDispatch x.slot x.word with
            | some x => { q with hold := some (.issue x.num) }
            | none =>
              let q := q.advance q.pc q.loops
              match qs.find? fun x => x.slot == .c && opOf x.word == 0x1A with
              | some x => { q with hold := some (.ysync x.num) }
              | none => q
          d.modCore c fun k => { k with sq := q }

/-- Nothing of the core that has issued is still under way: issues, loads, passes and book loads. -/
def quiet (d : Device) (c : Nat) : Bool :=
  let k := d.core c
  k.pn.flights.isEmpty && k.pn.walk.isNone && k.pn.loads.isEmpty && k.tr.passes.isEmpty && k.tr.loads.isEmpty

end Device

/-- BUNDLE_DISPATCH: the sequencer dispatches the next bundle in program order (R160). -/
def execBundleDispatch (core : Nat) (s : State) : Res0 := onUnit 12 core s (Device.dispatch core)

/-- The head of a slot queue whose OP is NOP or is listed nowhere comes to issue: it traps (R158). -/
def nopStep (c : Nat) (sl : Slot) (d : Device) : Device :=
  match (d.core c).sq.queue sl with
  | [] => d
  | x :: _ =>
    if (assigned sl (opOf x.word)).isNone && (d.core c).sq.issues && !d.frozen c && !d.slotHolds c sl then
      d.trapCore c ISA_ILLEGAL x.bundle sl x.word
    else d
/-- NOP: a NOP slot does nothing, and never enters its queue; a word of that opcode with other bits set, or of an unlisted
opcode, traps when it comes to issue (R158). -/
def execNop (core : Nat) (slot : Slot) (s : State) : Res0 := onUnit 12 core s (nopStep core slot)

/-! ### BR and LOOP (R164, R165) -/

/-- A taken branch: loops whose body the target leaves end. -/
def branchTo (t : Nat) (q : Sequencer) : Sequencer :=
  { q with pc := t, loops := q.loops.filter fun l => decide (l.start ≤ t) && decide (t ≤ l.end_) }
/-- BR: the branch when COND holds of A and B, else the next bundle. -/
def brBody (c : Nat) (x : QInstr) (d : Device) : Issue :=
  let q := (d.core c).sq
  if condHolds (cCOND x.word) (q.sop (fA x.word)) (q.sop (fBb x.word)) then
    .ok (d.modSeq c fun q => { branchTo (bits x.word 44 32) q with hold := none })
  else .ok d
def execBr (core : Nat) (s : State) : Res0 := onUnit 12 core s (Device.issue core .c 0x10 (brBody core))

/-- LOOP: runs the bundles after it up to END COUNT times; the fifth level and an END not after the LOOP trap. -/
def loopBody (c : Nat) (x : QInstr) (d : Device) : Issue :=
  let q := (d.core c).sq
  let w := x.word
  let e := bits w 60 48
  let n := if cI w then bits w 47 32 else bits (q.sop (fA w)) 31 0
  if e ≤ x.bundle then .trap ISA_ILLEGAL w
  else if n = 0 then .ok (d.modSeq c fun q => { q with pc := e + 1, hold := none })
  else if 4 ≤ q.loops.length then .trap ISA_ILLEGAL w
  else .ok (d.modSeq c fun q =>
    { q with pc := x.bundle + 1, loops := { count := n, start := x.bundle + 1, end_ := e } :: q.loops, hold := none })
def execLoop (core : Nat) (s : State) : Res0 := onUnit 12 core s (Device.issue core .c 0x11 (loopBody core))

/-! ### YSYNC, HALT, KERF (R150, R163, R184, R185) -/

/-- YSYNC: dispatch goes on once every Yard write of an earlier bundle is complete. -/
def ysyncBody (c : Nat) (x : QInstr) (d : Device) : Issue :=
  let d := if d.outputsOwed c x.num then d else d.drainAll c
  if d.writesOwed c x.num then .wait d none
  else .ok (d.modSeq c fun q => { q with hold := none })
def execYsync (core : Nat) (s : State) : Res0 := onUnit 12 core s (Device.issue core .c 0x1A (ysyncBody core))

/-- A DRAINING job whose cores have all yielded or halted is YIELDED, and its cores are free (Table 11.1). -/
def settleYield (d : Device) (j : Nat) : Device :=
  match d.job j with
  | none => d
  | some v =>
    if v.state = .draining && !v.yielded.isEmpty && v.cores.all fun k => v.yielded.contains k || v.halted.contains k then
      let d := d.setJob j { v with state := .yielded, since := d.now }
      v.halted.foldl (fun d k => d.modCore k fun x => { x with job := if x.job = some j then none else x.job }) d
    else d

/-- HALT: the core stops once what it dispatched is complete; the job ends when every core of it has halted. -/
def haltBody (c : Nat) (x : QInstr) (d : Device) : Issue :=
  let q := (d.core c).sq
  if (q.waiting.any fun y => y.num != x.num) || !d.quiet c then .wait d none
  else
    let d := (d.drainAll c).modSeq c fun q => { q with stat := .halted }
    match d.jobOf c with
    | none => .ok d
    | some (j, v) =>
      let d := (d.progress v.paddock).setJob j { v with halted := v.halted ++ [c] }
      .ok (if v.cores.all fun k => k == c || v.halted.contains k then d.endJob j 0 else settleYield d j)
def execHalt (core : Nat) (s : State) : Res0 := onUnit 12 core s (Device.issue core .c 0x1E (haltBody core))

/-- Progress of the Paddock whose job holds core `c` (R464). -/
def Device.jobProgress (d : Device) (c : Nat) : Device :=
  match d.jobOf c with
  | some (_, v) => d.progress v.paddock
  | none => d
/-- KERF: without a request it writes 0; with one the core drains and yields, unless R185 forbids it. -/
def kerfBody (c : Nat) (x : QInstr) (d : Device) : Issue :=
  let q := (d.core c).sq
  if q.preempt && d.kerfBarred c then
    .ok ((d.modSeq c fun q => q.kerfPoint.kerfPassed.setSop (fD x.word) 0).jobProgress c)
  else if q.preempt then
    .ok (d.modSeq c fun q => { q with kerfCnt := q.kerfCnt + 1, stat := .draining, draining := some (some (fD x.word)) })
  else .ok ((d.modSeq c fun q => q.kerfPoint.setSop (fD x.word) 0).jobProgress c)
def execKerf (core : Nat) (s : State) : Res0 := onUnit 12 core s (Device.issue core .c 0x19 (kerfBody core))

namespace Device

/-- The drain of R184 is complete: everything dispatched has issued, all but the KP-marked wait that drains. -/
def drained (d : Device) (c : Nat) : Bool :=
  let q := (d.core c).sq
  q.stat == .draining && d.quiet c &&
  (match q.draining with
   | some (some _) => q.waiting.isEmpty && q.claims.isEmpty
   | some none => q.waiting.all (fun x => kpMarked x.slot x.word) && decide (q.waiting.length ≤ 1)
   | none => false)

/-- The state of Table 6.10 as the frame keeps it. -/
def savedOf (d : Device) (c j : Nat) : Saved :=
  let k := d.core c
  { job := j, s := k.sq.s, a := k.sq.a, v := k.sq.v, p := k.sq.p, chutes := k.chutes, pc := k.sq.pc, loops := k.sq.loops,
    fs20 := k.pn.fs20, folds := k.pn.folds, flags := k.pn.flags, ctl := k.pn.ctl, trgCtl := k.tr.ctl, trgFlags := k.tr.flags,
    kerf := k.sq.draining.join, held := k.held }

/-- The core yields (R184, R258, R267): its state goes to its frame, it leaves the job, and the job is YIELDED when its
last core has yielded. -/
def yieldCore (c : Nat) (d : Device) : Device :=
  if !d.drained c || d.frozen c then d
  else match d.jobOf c with
    | none => d
    | some (j, v) =>
      let d := (d.drainAll c).traceRec c 1 3 (d.core c).sq.pc 0
      let d := { d with saved := Table.put d.saved c (d.savedOf c j :: Table.get d.saved [] c) }
      let d := d.pauseRounds j c
      let d := (d.endPhase c).dropWait c
      let d := d.modCore c fun k => { k with
        sq := { k.sq with qp := [], qt := [], qm := [], qc := [], claims := [], hold := none, draining := none, stat := .yielded,
                          kerfGap := k.sq.gapSeen, gap := 0, preempt := false, kerfYield := k.sq.kerfYield + 1 },
        job := none, musWaiting := false, waits := [], grazing := none }
      let d := settleYield (d.setJob j { v with yielded := v.yielded ++ [c] }) j
      d.consider v.paddock

/-- The Drover lends the share of job `w`, which waits on semaphore `n` for a ticket above VALUE, to the holder of the
smallest granted ticket, when that job is YIELDED or DRAINING (R367). -/
def lend (d : Device) (w n : Nat) (v : Job) : Device :=
  let held := fun (x : Job) => (x.tickets.filter fun t => t.1 == n && decide (t.2 ≤ d.granted v.paddock n)).map (·.2)
  let best := Table.foldl d.jobs (fun (b : Option (Nat × Nat)) j x =>
    if x.paddock ≠ v.paddock then b
    else match held x, b with
      | [], _ => b
      | t :: ts, none => some (j, ts.foldl min t)
      | t :: ts, some (k, u) => if ts.foldl min t < u then some (j, ts.foldl min t) else some (k, u)) none
  match best with
  | none => d
  | some (h, tk) =>
    match d.job h with
    | none => d
    | some x =>
      if (x.state = .yielded ∨ x.state = .draining) ∧ x.loan.isNone ∧ v.loanDepth < 4 then
        let fg := (d.share v.paddock (chargeOf v)).fg
        let d := x.cores.foldl (fun d c => if (d.core c).job = some h then d.calmCore c else d) d
        let d := d.setJob h { x with state := if x.state = .draining then .running else x.state, forJob := none,
                                     loan := some (chargeOf v), loanDepth := v.loanDepth + 1, loanFor := (n, tk) }
        let others := (x.cores.filterMap fun c => (d.core c).job).eraseDups.filter (· != h)
        others.foldl (fun d k => match d.job k with
          | some y => if (d.share y.paddock (chargeOf y)).fg && !fg && k != w then d else d.requestPreempt k (some h)
          | none => d) d
      else d

end Device

/-- CORE_YIELD: the drain is complete, the core yields and its state is saved to its frame (R184). -/
def execCoreYield (core : Nat) (s : State) : Res0 := onUnit 12 core s (Device.yieldCore core)

/-! ### Musters (R263, R267, R372) -/

/-- The job is the step job, or becomes it: the job of QUEUE while stepping is enabled and no other runs (R372). -/
def stepJobOk (d : Device) (j : Nat) (v : Job) : Bool :=
  (d.pdk v.paddock).stepEn && v.queue == (d.pdk v.paddock).stepQueue && (match d.stepJob v.paddock with
    | some (k, _) => k == j
    | none => true)

/-- Core `c` waits at Muster `id`. -/
def waitAt (c id : Nat) (round : BitVec 32) (d : Device) : Device :=
  d.modCore c fun k => { k with musId := id, musRound := round, musWaiting := true,
                                grazing := if d.mayGraze then some d.now else none }

/-- MUSTER: the core arrives at the round and waits for its release. -/
def musterBody (c : Nat) (x : QInstr) (d : Device) : Issue :=
  let w := x.word
  let id := bits w 43 32
  if (d.core c).musWaiting then .wait d (some .muster)
  else match d.jobOf c with
    | none => .wait d none
    | some (j, v) =>
      if id = 0xFFF then
        if stepJobOk d j v then
          let d := waitAt c id 0 (d.setJob j { v with step := true })
          .wait (d.stepArrive v.paddock) (some .muster)
        else .trap ISA_ILLEGAL w
      else match Device.musterDef v id, d.roundOf j id with
        | some m, some r =>
          if m.scope = 2 && bit w 29 then .trap ISA_ILLEGAL w
          else
            let operand := if fA w = 0 then none else some ((d.core c).sq.sop (fA w)).toNat
            .wait ((waitAt c id r.round d).arriveRound c j v m r operand) (some .muster)
        | _, _ => .trap ISA_ILLEGAL w
/-- The round's release itself takes the MUSTER from its queue, so nothing is left to wait where it came at once. -/
def musterStep (c : Nat) (d : Device) : Device :=
  let before := (d.core c).musWaiting
  let bundle := match (d.core c).sq.qc with
    | x :: _ => x.bundle
    | [] => 0
  let d := Device.issue c .c 0x16 (musterBody c) d
  let d := if (d.core c).musWaiting && !before then
      d.traceRec c 2 3 bundle ((d.core c).musId + (d.core c).musRound.toNat * 2 ^ 32) else d
  if (d.core c).musWaiting then d else d.modCore c fun k => k.waitsIn .c none
def execMuster (core : Nat) (s : State) : Res0 := onUnit 12 core s (musterStep core)

/-- The rounds of Paddock `p` with an ID whose release instant has come are released (R264). -/
def leadRelease (p id : Nat) (d : Device) : Device :=
  (d.rounds.filter fun r => r.paddock == p && r.id == id).foldl (fun d r => match r.releaseAt with
    | some t => if t ≤ d.now then d.releaseRound r.job r else d
    | none => d) d
/-- MUSTER_LEAD_RELEASE (R264). -/
def execMusterLeadRelease (pdk id : Nat) (s : State) : Res0 :=
  if id < 4096 then onUnit 6 pdk s (leadRelease pdk id) else .fault .absentUnit

/-- The round's deadline fired before it was complete: its job ends with MUSTER_TIMEOUT (R266). -/
def musterTimeout (d : Device) (r : Round) : Device :=
  match d.job r.job with
  | none => d
  | some v =>
    let mask := (r.arrived.map fun c => 2 ^ c).foldl (· + ·) 0
    let ev := det 20 r.id ||| det 22 r.round.toNat ||| det 26 mask ||| det 28 (if r.scope = 2 then r.peers.length else 0)
    (d.postQueue (d.ringOf v.queue) (d.pdkEvent v.paddock 4 0x0704 ev v.context)).endJob r.job 0x0704

/-- The deadline slot of a Paddock fires: every round whose deadline has been reached times out, in ascending ID order,
and the slot is armed again with the earliest that remains (R265). -/
def musterDeadline (slot : Nat) (d : Device) : Device :=
  if d.fires slot 2 then
    let p := (d.alarm slot).owner
    let d := d.fired slot
    let late := sortBy (fun (a b : Round) => decide (a.id < b.id)) (d.rounds.filter fun r => r.paddock == p && (match r.deadline with
      | some t => decide (t ≤ d.now)
      | none => false))
    (late.foldl musterTimeout d).rearmMuster p
  else d
/-- MUSTER_DEADLINE (R265). -/
def execMusterDeadline (slot : Nat) (s : State) : Res0 := onUnit 256 slot s (musterDeadline slot)

/-! ### Fences (R174, R332, R335) -/

/-- FSIGNAL: signals a fence; D := 0 or the code of the refusal. -/
def fsignalBody (c : Nat) (x : QInstr) (d : Device) : Issue :=
  let q := (d.core c).sq
  let h : W32 := (q.sop (fA x.word)).setWidth 32
  match d.findFence (d.ctxOf c) h with
  | none => .ok (d.modSeq c fun q => q.setSop (fD x.word) 0x0103)
  | some i =>
    let (d, code) := d.signalFence i (q.sop (fBb x.word))
    .ok (d.modSeq c fun q => q.setSop (fD x.word) (code.setWidth 64))
def execFsignal (core : Nat) (s : State) : Res0 := onUnit 12 core s (Device.issue core .c 0x17 (fsignalBody core))

/-- The semaphore of a Paddock that is built on a fence handle. -/
def semOn (d : Device) (p : Nat) (h : W32) : Option Nat :=
  (List.range 16).find? fun n => (d.sem p n).valid && (d.sem p n).fence == h
/-- FWAIT: waits until the fence reaches a value or carries an error; D := the status. -/
def fwaitBody (c : Nat) (x : QInstr) (d : Device) : Issue :=
  let q := (d.core c).sq
  let h : W32 := (q.sop (fA x.word)).setWidth 32
  match d.findFence (d.ctxOf c) h with
  | none => .ok (d.modSeq c fun q => q.setSop (fD x.word) 0x0103)
  | some i =>
    match d.waitDone i (q.sop (fBb x.word)) with
    | some code => .ok ((d.modSeq c fun q => q.setSop (fD x.word) (code.setWidth 64)).dropWait c)
    | none =>
      let d := d.holdWait c i
      match d.jobOf c with
      | some (j, v) =>
        (match semOn d v.paddock h with
         | some n => .wait (d.lend j n v) (some .fence)
         | none => .wait d (some .fence))
      | none => .wait d (some .fence)
def execFwait (core : Nat) (s : State) : Res0 := onUnit 12 core s (Device.issue core .c 0x18 (fwaitBody core))

/-! ### Power phases (R417 to R419) -/

/-- Core `c` begins phase `tag`: it leaves the phase it was in, and the step is decided afresh (R415). -/
def beginPhase (d : Device) (c tag : Nat) : Device :=
  let d := d.learn c
  let d := d.modCore c fun k => { k with phase := tag, announced := none }
  let d := match Table.find d.power.prepared c with
    | some s => if s < d.power.cur && d.stepFree then d.lowerTo s 1 else d
    | none => d
  { d with power := { d.power with prepared := Table.erase d.power.prepared c } }.decideStep

/-- The block as it will be once every announced phase has begun. -/
def announcedPhases (d : Device) : Device :=
  (List.range 12).foldl (fun d c => match (d.core c).announced with
    | some (tag, _) => d.modCore c fun k => { k with phase := tag }
    | none => d) d
/-- The step that the announced phase of core `c` will need beside those that others have announced (R419). -/
def prepare (d : Device) (c : Nat) : Device :=
  let e := announcedPhases d
  { d with power := { d.power with prepared := Table.put d.power.prepared c (e.bestStep e.ceiling 0) } }

/-- PHASE: announces that the core enters a phase after LEAD us; a later PHASE replaces a pending one (R417). -/
def phaseBody (c : Nat) (x : QInstr) (d : Device) : Issue :=
  let tag := bits x.word 43 32
  let lead := bits x.word 59 44
  let p := (d.pdkOfCore c).getD 0
  let d := (d.forgetAnnounced c).announce p tag
  if lead = 0 then .ok (beginPhase d c tag)
  else match d.arm p 3 tag (d.now + lead * 1000) with
    | none => .ok (beginPhase d c tag)
    | some (d, n) => .ok (prepare (d.modCore c fun k => { k with announced := some (tag, n) }) c)
def execPhase (core : Nat) (s : State) : Res0 := onUnit 12 core s (Device.issue core .c 0x20 (phaseBody core))

end Sys2Proof.Machine
end

