-- ==== Sys2Proof/Machine/CoreRegs.lean ====
section
/-! DEFINITION. The PEN_ registers of a core (Tables 4.7, 5.8, 6.13, 8.8, 11.8): what a read returns and what an MTC does
(R111, R146, R174, R195, R268, R381). -/

namespace Sys2Proof.Machine

/-- A word put together from fields: (low bit, value). -/
def fieldsOf (l : List (Nat × Nat)) : W64 := BitVec.ofNat 64 (l.foldl (fun x f => x + f.2 * 2 ^ f.1) 0)

def SeqStat.code : SeqStat → Nat
  | .idle => 0 | .run => 1 | .halted => 2 | .trapped => 3 | .draining => 4 | .yielded => 5
def Shadow.code : Shadow → Nat
  | .empty => 0 | .loading => 1 | .full => 2 | .armed => 3
def ChState.code : ChState → Nat
  | .idle => 0 | .running => 1 | .halted => 2
def ChWait.code : ChWait → Nat
  | .none => 0 | .memPort => 1 | .xlate => 2 | .linkCredit => 3 | .chute => 4 | .tile => 5 | .tally => 6 | .window => 7
def Bound.code : Bound → Nat
  | .none => 0 | .full => 1 | .free => 2

namespace Device

/-- PEN_ID (Table 4.8). -/
def penId (d : Device) (c : Nat) : W64 := fieldsOf [(0, c), (4, b2n (d.corePresent c)), (5, 32)]
/-- PEN_REPAIR(p) (Table 4.11): fused and soft skips, 16 for none, and FAILED. -/
def penRepair (d : Device) (c p : Nat) : W64 :=
  let at_ := fun (l : List (Nat × Nat × Nat × Nat)) => (l.find? fun x => x.1 == c && x.2.1 == p).map (·.2.2)
  let f := (at_ d.fuse.repair).getD (16, 16)
  let s := (at_ d.boot.soft).getD (16, 16)
  fieldsOf [(0, f.1), (5, f.2), (10, s.1), (15, s.2), (20, b2n (d.boot.failedPens.contains (c, p)))]
/-- PEN_SKID_STAT (Table 4.10). -/
def penSkidStat (p : Pens) : W64 :=
  let waits := (match p.router with
    | .marker .. :: _ => true
    | _ => false) || (match p.front with
    | some f => !f.taken && !f.dead
    | none => false)
  fieldsOf [(0, p.lastGen.toNat), (8, p.rows), (24, b2n waits)]
/-- The Pen registers of Table 4.7: width in bytes and value. -/
def penReg (d : Device) (c off : Nat) : Option (Nat × W64) :=
  let p := (d.core c).pn
  if off = 0x000 then some (4, d.penId c)
  else if off = 0x008 then some (4, fieldsOf [(0, b2n p.fs20)])
  else if off = 0x010 then some (4, p.folds.setWidth 64)
  else if off = 0x018 then some (4, BitVec.ofNat 64 (bitsOf p.busy 32))
  else if off = 0x020 then some (8, fieldsOf ((List.range 32).map fun n => (2 * n, (p.pen n).shadow.code)))
  else if off = 0x028 then
    some (8, fieldsOf [(0, p.skidMask.toNat), (32, p.skidGen.toNat), (40, b2n p.skidArmed), (41, b2n p.skidUnits), (42, b2n p.skidHold)])
  else if off = 0x030 then some (4, penSkidStat p)
  else if off = 0x038 then some (4, BitVec.ofNat 64 (bitsOf (fun n => decide ((p.pen n).level < 32)) 32))
  else if off = 0x040 then some (8, p.flags)
  else if off = 0x048 then some (4, p.ctl.setWidth 64)
  else if off = 0x050 then some (8, p.issueCnt)
  else if 0x100 ≤ off ∧ off < 0x180 then some (4, d.penRepair c ((off - 0x100) / 4))
  else none

/-- PEN_CB_DESC(b) (Table 5.11). -/
def cbDesc (k : Book) : W64 :=
  fieldsOf [(0, b2n k.valid), (1, b2n k.loading), (2, k.efmt), (6, k.bscale.toNat), (16, k.owner), (36, k.gen.toNat)]
/-- The Trough registers of Table 5.8. -/
def troughReg (d : Device) (c off : Nat) : Option (Nat × W64) :=
  let t := (d.core c).tr
  if off = 0x200 then some (4, t.ctl.setWidth 64)
  else if off = 0x208 then some (4, t.flags.setWidth 64)
  else if off = 0x210 then
    some (8, fieldsOf [(0, t.passes.length), (3, b2n !t.passes.isEmpty), (4, b2n t.failed), (5, b2n t.bookMode), (32, t.failRow % 65536)])
  else if off = 0x218 then some (8, t.cnt)
  else if 0x280 ≤ off ∧ off < 0x2C0 ∧ off % 8 = 0 then some (8, cbDesc (t.book ((off - 0x280) / 8)))
  else none

/-- The sequencer registers of Table 6.13. -/
def seqReg (d : Device) (c off : Nat) : Option (Nat × W64) :=
  let q := (d.core c).sq
  if off = 0x300 then
    some (8, fieldsOf [(0, q.stat.code), (16, q.pc % 8192), (29, q.loops.length), (32, b2n q.resumed), (33, b2n q.preempt)])
  else if off = 0x308 then some (4, match q.trap with | some t => t.code.setWidth 64 | none => 0)
  else if off = 0x30C then some (4, match q.trap with | some t => fieldsOf [(0, t.bundle % 8192), (13, t.slot)] | none => 0)
  else if off = 0x310 then some (8, match q.trap with | some t => t.info | none => 0)
  else if 0x320 ≤ off ∧ off < 0x330 then
    some (4, match q.loops.reverse[(off - 0x320) / 4]? with | some l => BitVec.ofNat 64 (l.count % 2 ^ 32) | none => 0)
  else if off = 0x330 then some (8, q.kerfCnt)
  else if off = 0x338 then some (8, q.kerfYield)
  else if off = 0x340 then some (4, q.kerfGap.setWidth 64)
  else if off = 0x344 then some (4, q.kerfSkip.setWidth 64)
  else if off = 0x348 then some (8, q.bundleCnt)
  else if off = 0x350 then
    some (4, fieldsOf [(0, (q.claims.map fun k => k.res.length).foldl (· + ·) 0), (8, q.sbPeak)])
  else none

/-- PEN_SKD_STAT(ch) (Table 8.9). -/
def skdStat (d : Device) (c ch : Nat) : W64 :=
  let k := d.channel c ch
  let tiles := match k.ring with | some r => r.unreturned.length | none => 0
  fieldsOf [(0, k.state.code), (2, b2n k.halt), (3, k.shownPc % 16), (7, (d.channelWait c ch).code), (10, tiles), (32, k.code.toNat)]
/-- PEN_CHT(c) (Table 8.10). -/
def chtReg (u : Chute) : W64 := fieldsOf [(0, b2n u.handle), (1, u.bound.code), (3, u.bch), (4, u.entries.length)]
/-- PEN_STALL(k): exact cycles in units of 4,096 and the rest (Table 8.11). -/
def stallReg (k : Core) (n : Nat) : W64 :=
  let x := Table.get k.stalls 0 n
  fieldsOf [(0, x / 4096 % 2 ^ 48), (48, x % 4096)]
/-- The Skidder, Chute, chain, Muster and stall registers of Table 8.8. -/
def skidReg (d : Device) (c off : Nat) : Option (Nat × W64) :=
  let k := d.core c
  let ch := (off - 0x400) / 0x40
  if 0x400 ≤ off ∧ off < 0x480 then
    (match (off - 0x400) % 0x40 with
     | 0x00 => some (8, d.skdStat c ch)
     | 0x08 => some (4, 0)
     | 0x10 => some (8, (d.channel c ch).bytes)
     | 0x18 => some (8, (d.channel c ch).waste)
     | 0x20 => some (8, (d.channel c ch).merge)
     | _ => none)
  else if 0x480 ≤ off ∧ off < 0x500 ∧ off % 8 = 0 then some (4, chtReg (d.chute c ((off - 0x480) / 8)))
  else if off = 0x500 then some (4, fieldsOf [(0, k.chainNext), (4, b2n k.chainLast)])
  else if off = 0x508 then some (8, fieldsOf [(0, k.musId), (12, b2n k.musWaiting), (32, k.musRound.toNat)])
  else if 0x600 ≤ off ∧ off < 0x660 ∧ off % 8 = 0 then some (8, stallReg k ((off - 0x600) / 8 + 1))
  else if off = 0x660 then some (8, k.runCnt)
  else none

/-- The Drover's core registers of Table 11.8; a read of PEN_SEM_TKT here takes no ticket. -/
def drvReg (d : Device) (c off : Nat) : Option (Nat × W64) :=
  let k := d.core c
  if 0x700 ≤ off ∧ off < 0x780 ∧ off % 8 = 0 then
    some (8, match d.pdkOfCore c with
      | some p => BitVec.ofNat 64 (d.sem p ((off - 0x700) / 8)).ticket
      | none => 0)
  else if 0x780 ≤ off ∧ off < 0x800 ∧ off % 8 = 0 then some (4, 0)
  else if off = 0x800 then some (4, fieldsOf [(0, k.stepOff), (31, b2n k.stepEn)])
  else none

/-- A register at its own offset. -/
def coreReg (d : Device) (c off : Nat) : Option (Nat × W64) :=
  (d.penReg c off).orElse fun _ => (d.troughReg c off).orElse fun _ => (d.seqReg c off).orElse fun _ =>
    (d.skidReg c off).orElse fun _ => d.drvReg c off
/-- A read of the PEN_ block at an offset that is a multiple of 4: the register there, the upper half of the 64-bit
register before it, or zero where no table assigns the offset (R111, R174). -/
def coreRead (d : Device) (c off : Nat) : W64 :=
  if !d.corePresent c then 0
  else match d.coreReg c off with
    | some (_, v) => v
    | none =>
      match if 4 ≤ off then d.coreReg c (off - 4) else none with
      | some (8, v) => v >>> 32
      | _ => 0

/-! ### What an MFC or MTC does beside -/

/-- The job holding core `c` takes the next ticket of semaphore `n` (R365). -/
def takeTicket (c n : Nat) (x : QInstr) (d : Device) : Issue :=
  match d.jobOf c with
  | none => illegal x
  | some (j, v) =>
    let s := d.sem v.paddock n
    if !s.valid || s.context != v.context || decide (16 ≤ v.tickets.length) then illegal x
    else
      let d := d.setSem v.paddock n { s with ticket := s.ticket + 1 }
      let d := d.setJob j { v with tickets := v.tickets ++ [(n, s.ticket)] }
      .ok (d.modSeq c fun q => q.setSop (fD x.word) (BitVec.ofNat 64 s.ticket))

/-- The job holding core `c` releases its smallest granted ticket of semaphore `n`; a loan made for it ends (R365, R367). -/
def releaseOne (c n : Nat) (x : QInstr) (d : Device) : Issue :=
  match d.jobOf c with
  | none => illegal x
  | some (j, v) =>
    match (v.tickets.filter fun t => t.1 == n && decide (t.2 ≤ d.granted v.paddock n)).map (·.2) with
    | [] => illegal x
    | t :: ts =>
      let t := ts.foldl min t
      let d := d.setJob j { v with tickets := v.tickets.erase (n, t) }
      let d := d.endLoan j (n, t)
      let d := d.releaseTicket v.paddock n ((d.sem v.paddock n).abandoned.length + 1)
      .ok (if v.loan.isSome && v.loanFor == (n, t) then d.consider v.paddock else d)

/-- PEN_CHT(n).MODE (R252). -/
def setChuteMode (c n : Nat) (handle : Bool) (d : Device) : Issue :=
  let u := d.chute c n
  if u.handle == handle then .ok d
  else if !u.entries.isEmpty || u.bound != .none then .trap CHUTE_FAULT (chuteInfo c n)
  else .ok (d.setChute c n { u with handle := handle })

/-- PEN_CHAIN: NEXT must be a core of the job unless LAST is set (Table 8.10). -/
def setChain (c : Nat) (v : W64) (x : QInstr) (d : Device) : Issue :=
  let inJob := match d.jobOf c with
    | some (_, j) => j.cores.contains (bits v 3 0)
    | none => false
  if !bit v 4 && !inJob then illegal x
  else .ok (d.modCore c fun k => { k with chainNext := bits v 3 0, chainLast := bit v 4 })

/-- PEN_STEP_AREA: with EN, the list must lie in a region of the job at a multiple of 64 (R378). -/
def setStepArea (c : Nat) (v : W64) (x : QInstr) (d : Device) : Issue :=
  let off := bits v 25 0
  if bit v 31 && !(decide (off % 64 = 0) && d.ownRange c off 8256) then illegal x
  else .ok (d.modCore c fun k => { k with stepOff := off, stepEn := bit v 31 })

/-- Writing 1 to PEN_SKD_STAT.HALT acknowledges a halt; the job keeps the code of its first halt only while that halt
is not acknowledged (R234). -/
def ackHalt (c ch : Nat) (d : Device) : Device :=
  let k := d.channel c ch
  if k.state = .halted then
    let d := d.setChannel c ch { k with state := .idle, halt := false }
    match d.jobOf c with
    | some (j, v) => if v.haltAt = some (c, ch) then d.setJob j { v with haltCode := 0 } else d
    | none => d
  else d

/-- An MTC of `v` to offset `off` of the PEN_ block, under the access codes of R8: what is RO, reserved or assigned to
nothing ignores it. -/
def coreWrite (c off : Nat) (v : W64) (x : QInstr) (d : Device) : Issue :=
  if off = 0x008 then .ok (d.modPens c fun p => { p with fs20 := bit v 0 })
  else if off = 0x040 then .ok (d.modPens c fun p => { p with flags := p.flags &&& ~~~v })
  else if off = 0x044 then .ok (d.modPens c fun p => { p with flags := p.flags &&& ~~~(v <<< 32) })
  else if off = 0x048 then .ok (d.modPens c fun p => { p with ctl := v.setWidth 5 })
  else if off = 0x200 then .ok (d.modTrough c fun t => { t with ctl := v.setWidth 32 &&& 0x1E })
  else if off = 0x208 then .ok (d.modTrough c fun t => { t with flags := t.flags &&& ~~~(v.setWidth 32) })
  else if (off = 0x400 ∨ off = 0x440) ∧ bit v 2 = true then .ok (d.ackHalt c ((off - 0x400) / 0x40))
  else if (off = 0x408 ∨ off = 0x448) ∧ bit v 0 = true then .ok (d.stopChannel c ((off - 0x400) / 0x40))
  else if 0x480 ≤ off ∧ off < 0x500 ∧ off % 8 = 0 then setChuteMode c ((off - 0x480) / 8) (bit v 0) d
  else if off = 0x500 then setChain c v x d
  else if 0x780 ≤ off ∧ off < 0x800 ∧ off % 8 = 0 then releaseOne c ((off - 0x780) / 8) x d
  else if off = 0x800 then setStepArea c v x d
  else .ok d

/-- CSR of an MFC or MTC. -/
def csrOf (w : W64) : Nat := bits w 43 32
/-- MFC: D takes the register; PEN_SEM_TKT gives a ticket. -/
def mfcBody (c : Nat) (x : QInstr) (d : Device) : Issue :=
  let off := csrOf x.word
  if 0x700 ≤ off ∧ off < 0x780 ∧ off % 8 = 0 then takeTicket c ((off - 0x700) / 8) x d
  else .ok (d.modSeq c fun q => q.setSop (fD x.word) (d.coreRead c off))
/-- MTC: the register takes S[A]. -/
def mtcBody (c : Nat) (x : QInstr) (d : Device) : Issue :=
  coreWrite c (csrOf x.word) ((d.core c).sq.sop (fA x.word)) x d

/-- The head of the C queue is a move of opcode `op` whose CSR `p` accepts: it comes to issue. -/
def issueCsr (c op : Nat) (p : Nat → Bool) (body : Nat → QInstr → Device → Issue) (d : Device) : Device :=
  match (d.core c).sq.qc with
  | x :: _ => if p (csrOf x.word) then issue c .c op (body c) d else d
  | [] => d

end Device

/-- MFC: reads a PEN_ register of the core into a scalar register (R174). -/
def execMfc (core : Nat) (s : State) : Res0 := onUnit 12 core s (Device.issue core .c 0x12 (Device.mfcBody core))
/-- MTC: writes a PEN_ register of the core under its access code (R8, R174). -/
def execMtc (core : Nat) (s : State) : Res0 := onUnit 12 core s (Device.issue core .c 0x13 (Device.mtcBody core))
/-- SEM_TICKET_TAKE: the MFC at the head of the C queue reads PEN_SEM_TKT (R365). -/
def execSemTicketTake (core : Nat) (s : State) : Res0 :=
  onUnit 12 core s (Device.issueCsr core 0x12 (fun o => decide (0x700 ≤ o ∧ o < 0x780) && o % 8 == 0) Device.mfcBody)
/-- SEM_RELEASE: the MTC at the head of the C queue writes PEN_SEM_REL (R365). -/
def execSemRelease (core : Nat) (s : State) : Res0 :=
  onUnit 12 core s (Device.issueCsr core 0x13 (fun o => decide (0x780 ≤ o ∧ o < 0x800) && o % 8 == 0) Device.mtcBody)
/-- CHUTE_MODE_WRITE: the MTC at the head of the C queue writes PEN_CHT (R252). -/
def execChuteModeWrite (core : Nat) (s : State) : Res0 :=
  onUnit 12 core s (Device.issueCsr core 0x13 (fun o => decide (0x480 ≤ o ∧ o < 0x500) && o % 8 == 0) Device.mtcBody)
/-- CHAIN_WRITE: the MTC at the head of the C queue writes PEN_CHAIN (R249). -/
def execChainWrite (core : Nat) (s : State) : Res0 :=
  onUnit 12 core s (Device.issueCsr core 0x13 (· == 0x500) Device.mtcBody)
/-- STEP_AREA_WRITE: the MTC at the head of the C queue writes PEN_STEP_AREA (R378). -/
def execStepAreaWrite (core : Nat) (s : State) : Res0 :=
  onUnit 12 core s (Device.issueCsr core 0x13 (· == 0x800) Device.mtcBody)
/-- CHANNEL_HALT_ACK: the MTC at the head of the C queue writes PEN_SKD_STAT (R234). -/
def execChannelHaltAck (core : Nat) (s : State) : Res0 :=
  onUnit 12 core s (Device.issueCsr core 0x13 (fun o => o == 0x400 || o == 0x440) Device.mtcBody)
/-- CHANNEL_STOP: the MTC at the head of the C queue writes PEN_SKD_CTL (R248). -/
def execChannelStop (core : Nat) (s : State) : Res0 :=
  onUnit 12 core s (Device.issueCsr core 0x13 (fun o => o == 0x408 || o == 0x448) Device.mtcBody)

end Sys2Proof.Machine
end

