-- ==== Sys2Proof/Machine/FlashUnit.lean ====
section
/-! DEFINITION. The firmware store's controller (spec 17: R500, R505 to R513). Commands name logical blocks, units and lines; the
block map gives the physical ones. -/

namespace Sys2Proof.Machine

/-- The physical block of a logical one (R500). -/
def physBlock (f : Flash) (b : Nat) : Nat := Table.get f.map b b
/-- The units `first`, `first + 1` … of a block, `n` of them, as bits of its erased map. -/
def unitMask (first n : Nat) : BitVec 1024 := BitVec.ofNat 1024 ((2 ^ n - 1) * 2 ^ first)

namespace Device

def modFlash (d : Device) (f : Flash → Flash) : Device := { d with flash := f d.flash }
/-- The corrected-bit count from which a read counts (object 0x7011). -/
def ceLimit (d : Device) : Nat := d.dict.ceThresh.getD d.cal.ceThresh

/-! ### The spare pool (R500, R511, R512) -/

/-- Block `b` is served by the next spare block, which takes over what the old block holds. -/
def takeSpare (d : Device) (b : Nat) : Device :=
  d.modFlash fun f =>
    let p := physBlock f b
    let q := 656 + (368 - f.spares)
    let moved := Table.keep f.units fun u _ => u / 1024 == p
    { f with
      map := Table.set f.map b b q, spares := f.spares - 1
      erased := Table.set (Table.set f.erased 0 q (Table.get f.erased 0 p)) 0 p 0
      units := moved.foldl (fun t u x => Table.put t (q * 1024 + u % 1024) x) (Table.keep f.units fun u _ => u / 1024 != p) }
/-- The block that serves `b` failed or is worn out: it is retired, and a spare block takes its place. -/
def retire (d : Device) (b : Nat) : Device :=
  if d.flash.spares = 0 then d.modFlash fun f => { f with worn := true }
  else (d.modFlash fun f => { f with retired := f.retired ++ [physBlock f b] }).takeSpare b
/-- A program or an erase whose status reports failure (R511). -/
def verifyFailed (d : Device) (b : Nat) : Device :=
  (d.logFlash 0x0902 (BitVec.ofNat 64 b)).modFlash fun f => { f with verifyCnt := satNat 16 (f.verifyCnt + 1) }

/-! ### Programs and erases (R507 to R510) -/

/-- An erase is suspended once more; the 64th suspend enters FORCED mode. -/
def countSuspend (f : Flash) : Flash := { f with suspCnt := min 64 (f.suspCnt + 1), forced := f.forced || decide (64 ≤ f.suspCnt + 1) }
/-- A block that an erase in progress or suspended works on. -/
def underErase (f : Flash) (b : Nat) : Bool :=
  match f.erase with
  | .erase b' _ _ => b' == b
  | _ => false
/-- The program is sent, its bits clear, or refused for a unit whose bit is clear (R508). -/
def sendProgram (d : Device) (unit : Nat) (data : List Byte) (retried : Bool) : Device :=
  let f := d.flash
  let b := unit / 1024
  let n := data.length / 64
  let m := unitMask (unit % 1024) n
  let map := Table.get f.erased 0 (physBlock f b)
  if !retried && (underErase f b || map &&& m != m) then d.modFlash fun f => { f with neCnt := satNat 16 (f.neCnt + 1) }
  else
    let d := d.modFlash fun f => { f with
      erased := Table.set f.erased 0 (physBlock f b) (map &&& ~~~ m)
      units := (List.range n).foldl (fun t k =>
        Table.put t (physBlock f b * 1024 + unit % 1024 + k) ((data.drop (64 * k)).take 64)) f.units
      prog := .program unit data retried }
    let d := if f.erase ≠ .idle ∧ f.susp = false then d.modFlash fun f => { countSuspend f with susp := true } else d
    d.emit (.flashProgram unit data)
/-- The erase begins: its 1,024 bits are clear and its count advances; a block at its rated endurance is retired first (R511). -/
def sendErase (d : Device) (b : Nat) (retried : Bool) : Device :=
  let d := if d.cal.endurance ≤ Table.get d.flash.erases 0 (physBlock d.flash b) then d.retire b else d
  let p := physBlock d.flash b
  if d.cal.endurance ≤ Table.get d.flash.erases 0 p then d
  else
    (d.modFlash fun f => { f with
      erased := Table.set f.erased 0 p 0, units := Table.keep f.units fun u _ => u / 1024 != p
      erases := Table.set f.erases 0 p (Table.get f.erases 0 p + 1), erase := .erase b d.now retried
      marked := f.marked.filter (· != b), susp := false, suspCnt := 0, forced := false }).emit (.flashErase b)
/-- Programs that wait go, oldest first, until the flash takes one. -/
def nextPrograms (d : Device) : Nat → Device
  | 0 => d
  | n + 1 =>
    match d.flash.progQueue with
    | (u, x) :: r =>
      if d.flash.prog = .idle ∧ d.flash.forced = false then
        nextPrograms ((d.modFlash fun f => { f with progQueue := r }).sendProgram u x false) n
      else d
    | [] => d
/-- What waits goes, as far as the flash can take it: programs, then an erase. -/
def flashNext (d : Device) : Device :=
  let d := d.nextPrograms d.flash.progQueue.length
  match d.flash.eraseQueue with
  | b :: r =>
    if d.flash.prog = .idle ∧ d.flash.erase = .idle then (d.modFlash fun f => { f with eraseQueue := r }).sendErase b false else d
  | [] => d
/-- A program of one to four units within one page. -/
def programs (unit : Nat) (data : List Byte) : Bool :=
  let n := data.length / 64
  data.length % 64 == 0 && decide (1 ≤ n) && decide (unit % 4 + n ≤ 4)
/-- The controller works: the device has left its start-up code. -/
def flashUp (d : Device) : Bool := d.boot.released && decide (3 ≤ d.boot.stage)
def flashProgram (unit : Nat) (data : List Byte) (d : Device) : Device :=
  if !d.flashUp || !programs unit data then d
  else if d.flash.prog ≠ .idle ∨ d.flash.forced = true ∨ !d.flash.progQueue.isEmpty then
    d.modFlash fun f => { f with progQueue := f.progQueue ++ [(unit, data)] }
  else d.sendProgram unit data false
/-- A program ends; after a failure it is retried once on a spare block. -/
def programEnds (ok : Bool) (d : Device) : Device :=
  match d.flash.prog with
  | .program u x retried =>
    let d := d.modFlash fun f => { f with prog := .idle }
    let again := !ok && !retried && decide (0 < d.flash.spares)
    let d := if ok then d else (d.verifyFailed (u / 1024)).retire (u / 1024)
    if again then d.sendProgram u x true
    else (d.modFlash fun f => { f with susp := false }).flashNext
  | _ => d
def flashErase (b : Nat) (d : Device) : Device :=
  if !d.flashUp then d
  else if d.flash.prog ≠ .idle ∨ d.flash.erase ≠ .idle then d.modFlash fun f => { f with eraseQueue := f.eraseQueue ++ [b] }
  else d.sendErase b false
/-- The erase ends: its bits are set and FORCED mode ends, or it is retried once on a spare block. A suspended erase does not end. -/
def eraseEnds (ok : Bool) (d : Device) : Device :=
  match d.flash.erase with
  | .erase b _ retried =>
    if d.flash.susp then d
    else
      let d := d.modFlash fun f => { f with erase := .idle, suspCnt := 0, forced := false }
      if ok then (d.modFlash fun f => { f with erased := Table.set f.erased 0 (physBlock f b) (BitVec.allOnes 1024) }).flashNext
      else
        let again := !retried && decide (0 < d.flash.spares)
        let d := (d.verifyFailed b).retire b
        if again then d.sendErase b true else d.flashNext
  | _ => d
/-- An erase has been pending for 500 ms. -/
def forcedTimer (d : Device) : Device :=
  match d.flash.erase with
  | .erase _ t _ => if t + 500000000 ≤ d.now then d.modFlash fun f => { f with forced := true } else d
  | _ => d

/-! ### The read path (R505, R506, R511) -/

/-- A read of block `b` at or above the threshold is counted; the first since its last erase is logged and marks the block. -/
def wear (d : Device) (b : Nat) (c : LineCheck) : Device :=
  if c.uncorrectable || decide (c.corrected < d.ceLimit) then d
  else
    let d := d.modFlash fun f => { f with ce := f.ce + 1 }
    if d.flash.marked.contains b then d
    else (d.logFlash 0x0905 (BitVec.ofNat 64 b)).modFlash fun f => { f with marked := f.marked ++ [b] }
def lineBad (c : LineCheck) : Bool := c.uncorrectable || !c.tagOk
/-- A line is fetched: an erase in progress is suspended for it, and in FORCED mode it waits. -/
def readLine (line : Nat) (first second : LineCheck) (d : Device) : Device :=
  if !d.flashUp || d.flash.stopped || d.flash.forced || d.flash.line == some line then d
  else
    let d := if d.flash.erase ≠ .idle ∧ d.flash.susp = false then d.modFlash countSuspend else d
    let b := line / 256
    let d := d.wear b first
    let d := if lineBad first then d.wear b second else d
    if lineBad first && lineBad second then (d.logFlash 0x0904 (BitVec.ofNat 64 line)).modFlash fun f => { f with stopped := true }
    else d.modFlash fun f => { f with
      line := some line
      branches := if f.line.map (· + 1) = some line then f.branches else (line :: f.branches.filter (· != line)).take 32 }
/-- The copy of a marked block passed its read-back: the spare block serves it. -/
def relocate (b : Nat) (ok : Bool) (d : Device) : Device :=
  if !d.flashUp || !d.flash.marked.contains b || underErase d.flash b then d
  else if d.flash.spares = 0 then d.modFlash fun f => { f with worn := true }
  else if ok then (d.modFlash fun f => { f with marked := f.marked.filter (· != b) }).takeSpare b
  else d
def logEntry (code : BitVec 16) (detail : BitVec 64) (d : Device) : Device := if d.flashUp then d.logFlash code detail else d

end Device

/-- FLASH_LINE_READ (R505, R506, R510, R511). -/
def execFlashLineRead (line : Nat) (first second : LineCheck) (s : State) : Res0 :=
  onUnit (2 ^ 18) line s (Device.readLine line first second)
/-- FLASH_PROGRAM (R508, R509). -/
def execFlashProgram (unit : Nat) (data : List Byte) (s : State) : Res0 := onUnit (2 ^ 20) unit s (Device.flashProgram unit data)
/-- FLASH_PROGRAM_COMPLETE (R511). -/
def execFlashProgramComplete (ok : Bool) (s : State) : Res0 := done s (Device.programEnds ok)
/-- FLASH_ERASE (R507, R509). -/
def execFlashErase (block : Nat) (s : State) : Res0 := onUnit 1024 block s (Device.flashErase block)
/-- FLASH_ERASE_COMPLETE (R507, R510). -/
def execFlashEraseComplete (ok : Bool) (s : State) : Res0 := done s (Device.eraseEnds ok)
/-- FLASH_FORCED_TIMER (R510). -/
def execFlashForcedTimer (s : State) : Res0 := done s Device.forcedTimer
/-- FLASH_RELOCATE (R511). -/
def execFlashRelocate (block : Nat) (readBackOk : Bool) (s : State) : Res0 := onUnit 1024 block s (Device.relocate block readBackOk)
/-- FLASH_LOG_ENTRY (R513). -/
def execFlashLogEntry (code : BitVec 16) (detail : BitVec 64) (s : State) : Res0 := done s (Device.logEntry code detail)

end Sys2Proof.Machine
end

