-- ==== Sys2Proof/Machine/Views.lean ====
section
/-! DEFINITION. What the read-only registers hold, as the dictionary reports them (Tables 2.5, 7.9, 9.8, 10.13, 12.8, 13.5, 14.10,
14.12, 15.9, 17.5), and the records that Tables 14.5 and 16.8 make of them. -/

namespace Sys2Proof.Machine

/-- The low `n` bytes of a word. -/
def wordBytes {w : Nat} (n : Nat) (x : BitVec w) : List Byte := toBytes n x.toNat
/-- A signed number of 8 bits. -/
def low8 (x : Int) : Nat := (BitVec.ofInt 8 x).toNat

def TlyState.code : TlyState → Nat
  | .acquiring => 0 | .locked => 1 | .holdover => 2 | .freeRun => 3
def Supply.code : Supply → Nat
  | .normal => 0 | .warning => 1 | .hold => 2
def SessState.code : SessState → Nat
  | .down => 0 | .opening => 1 | .up => 2
def ChanState.code : ChanState → Nat
  | .off => 0 | .training => 1 | .active => 2 | .selfRefresh => 3 | .failed => 4
def RmvPhase.code : RmvPhase → Nat
  | .none => 0 | .fenced => 1 | .retiring => 2 | .scrubbing => 3 | .pending => 4
def PdkRst.code : PdkRst → Nat
  | .running => 0 | .fenced => 1 | .capturing => 2 | .clearing => 3 | .retraining => 4 | .outOfService => 5 | .absent => 6

namespace Device

/-! ### GLB_, TLY_ (Tables 10.13, 2.6) -/

def glbId (d : Device) : W64 := fieldsOf [(0, 0x0B60), (20, d.fuse.cores % 4), (22, d.fuse.cap % 4)]
def tlyStatus (d : Device) : W64 :=
  let t := d.tally
  fieldsOf [(0, t.src), (2, t.state.code), (4, b2n t.calValid), (5, b2n t.ptpTx)]

/-! ### Layout, keys and resets (Tables 14.11, 14.13, 15.9) -/

/-- A layout entry without PRESENT and KGEN. -/
def layoutBits (x : Layout) : Nat :=
  x.corePairs.toNat + 2 ^ 8 * x.chanPairs.toNat + 2 ^ 16 * b2n x.confidential + 2 ^ 17 * b2n x.session + 2 ^ 18 * b2n x.debugOpen
/-- PDK_LAYOUT. -/
def layoutWord (d : Device) (p : Nat) : W64 :=
  if !d.pdkPresent p then 0
  else fieldsOf [(0, layoutBits (d.layout p)), (19, 1), (32, if (d.layout p).session then 0 else (d.pdkSec p).kgen.toNat)]
/-- Bits of the installed bundle slots. -/
def bundleMask (d : Device) (p : Nat) : Nat := bitsOf (fun s => (Table.get (d.pdkSec p).bundles Bundle.reset s).installed) 4
/-- PDK_SEC_STAT. -/
def secStat (d : Device) (p : Nat) : W64 :=
  if !d.pdkPresent p then 0
  else fieldsOf [(0, (d.pdkSec p).phase.code), (8, (d.pdk p).inc.toNat), (16, d.bundleMask p), (32, (d.pdkSec p).rmvCnt.toNat)]
/-- PDK_BUNDLE(s); of a confidential Paddock only INSTALLED (R461). -/
def bundleWord (d : Device) (p s : Nat) : W64 :=
  let b := Table.get (d.pdkSec p).bundles Bundle.reset s
  if !d.pdkPresent p || !b.installed then 0
  else if d.confidential p then 1
  else fieldsOf [(0, 1), (2, b.context), (32, bits b.id 31 0)]
def secFuse (d : Device) : W64 :=
  let f := d.fuse
  fieldsOf [(0, b2n f.debugLock), (1, b2n f.ksFused), (2, b2n f.ksSession), (3, b2n f.identOk)]
def entropyWord (d : Device) : W64 := fieldsOf [(0, b2n d.sec.entFail), (1, b2n d.sec.seeded), (16, d.sec.failCnt)]
/-- SHP_PDK_RST(p). -/
def pdkRstWord (d : Device) (p : Nat) : W64 :=
  let k := d.pdk p
  if !d.pdkPresent p then 6
  else fieldsOf [(0, k.rst.code), (3, min 4 (within d.now 600000000000 k.history).length), (6, b2n k.memLost), (8, k.lastCause.toNat),
    (24, min 255 k.idle), (32, k.resets)]
/-- SHP_DEV_RST. -/
def devRstWord (d : Device) : W64 :=
  let r := d.resets
  fieldsOf [(0, min 8 (within d.now 3600000000000 r.devHistory).length), (4, b2n r.devOos), (16, r.devCause.toNat), (32, r.devTotal.toNat)]

/-! ### Power (Table 13.6) -/

def pwrStep (d : Device) : W64 :=
  let w := d.power
  fieldsOf [(0, w.cur), (4, if w.commonOn then w.common else 15), (8, w.maxStep), (12, w.limit), (15, b2n w.lag)]
def pwrPower (d : Device) : W64 := fieldsOf [(0, d.power.power % 2 ^ 24), (24, b2n d.anyConfidential)]
/-- PWR_ENERGY under R429 and R431. -/
def pwrEnergy (d : Device) : Nat := if d.anyConfidential then d.power.energySeen else d.power.energy
def pwrSupply (d : Device) : W64 := fieldsOf [(0, d.power.supply.code), (16, d.power.dipCnt)]
def pwrTsens (d : Device) (i : Nat) : W64 :=
  let s := Table.get d.power.sensors (0, false) i
  fieldsOf [(0, low8 s.1), (8, b2n s.2)]
/-- PWR_SUPPLY_LVL and PWR_THERM_LVL in one word. -/
def pwrLevels (d : Device) : W64 :=
  fieldsOf [(0, d.cal.warnPct % 256), (8, d.cal.resetPct % 256), (32, d.power.thermWarn), (40, low8 d.cal.trip), (48, low8 d.cal.crit)]

/-! ### Links (Tables 12.10, 12.11) -/

/-- Word 0 of LNK_BIND(b). -/
def bindWord (d : Device) (b : Nat) : W64 :=
  let x := d.binding b
  fieldsOf [(0, b2n x.valid), (1, x.pdk), (4, x.peerPdk), (8, x.peer.toNat), (24, x.credits), (34, x.state.code),
    (36, (d.pdk x.pdk).inc.toNat), (44, x.pinc.toNat)]
/-- LNK_NBR(i). -/
def nbrBytes (d : Device) (i : Nat) : List Byte :=
  let n := Table.get d.links.nbrs Neighbour.reset i
  wordBytes 8 (fieldsOf [(0, n.mac.toNat), (48, b2n n.valid), (49, b2n n.v6)]) ++ toBytes 8 n.ip4.toNat ++ wordBytes 16 n.ip6

/-! ### Cores, slices and channels (Tables 7.10, 8.11, 9.8, 16.8) -/

/-- PEN_STALL(k) of core c as others read it (R455). -/
def stallSeen (d : Device) (c k : Nat) : W64 :=
  let n := 100 * c + (k - 1)
  if d.coarsened n then fieldsOf [(0, (Table.get d.coarse 0 n).toNat / 4096 % 2 ^ 48)] else stallReg (d.core c) k
/-- PEN_STALL(1) to PEN_STALL(12), then PEN_RUN_CNT; an absent core reads zero. -/
def stallBytes (d : Device) (c : Nat) : List Byte :=
  if !d.corePresent c then toBytes 104 0
  else ((List.range 12).flatMap fun k => wordBytes 8 (d.stallSeen c (k + 1))) ++ wordBytes 8 (d.counter (100 * c + 12))
/-- Core c belongs to a confidential Paddock. -/
def coreConfidential (d : Device) (c : Nat) : Bool :=
  match d.pdkOfCore c with
  | some p => d.confidential p
  | none => false
def yardErrBytes (d : Device) (c : Nat) : List Byte :=
  if !d.corePresent c then toBytes 24 0
  else
    let y := d.slice c
    wordBytes 8 (d.counter (100 * c + 22)) ++ wordBytes 8 (d.counter (100 * c + 23)) ++
    (if d.coreConfidential c then toBytes 8 0 else wordBytes 4 y.ceAddr ++ wordBytes 4 y.ueAddr)
/-- YRD_RMP_USE(0) to (31). -/
def rmpUseBytes (d : Device) (c : Nat) : List Byte :=
  if !d.corePresent c then toBytes 128 0
  else (List.range 32).flatMap fun k =>
    wordBytes 4 (fieldsOf ((List.range 8).map fun m => (4 * m, ((d.slice c).remap.filter fun e => e.bank == 8 * k + m).length)))
/-- XLT_MCH_STAT(n). -/
def mchStat (d : Device) (n : Nat) : W64 :=
  fieldsOf [(0, (d.chan n).state.code), (3, (d.pdkOfChan n).getD 7), (6, d.cal.cap % 4), (8, b2n (d.chan n).sealOk)]
def mchBytes (d : Device) (n : Nat) : List Byte :=
  let k := d.chan n
  let seen := match d.pdkOfChan n with
    | some p => !d.confidential p
    | none => true
  wordBytes 8 (d.mchStat n) ++ wordBytes 8 (d.counter (1200 + 4 * n)) ++ wordBytes 4 (d.counter (1201 + 4 * n)) ++
  wordBytes 4 (d.counter (1202 + 4 * n)) ++ (if seen then toBytes 8 (k.failLine % 2 ^ 32 + 2 ^ 32 * k.failCode.toNat) else toBytes 8 0)
/-- The values of one core's groups in a counter set: STALL, issue counts, Skidder counts, Yard port counts (Table 16.8). -/
def groupWords (d : Device) (g : BitVec 8) (c : Nat) : List W64 :=
  (if bit g 0 then (List.range 12).map (fun k => d.stallSeen c (k + 1)) ++ [d.counter (100 * c + 12)] else []) ++
  (if bit g 1 then [d.counter (100 * c + 13)] else []) ++
  (if bit g 2 then (List.range 6).map fun k => d.counter (100 * c + 14 + k) else []) ++
  (if bit g 3 then [d.counter (100 * c + 20), d.counter (100 * c + 21)] else [])
def portBytes (d : Device) (n : Nat) : List Byte := (List.range 9).flatMap fun k => wordBytes 8 (d.counter (1300 + 16 * n + k))

/-! ### The store (Tables 16.8, 16.10, 17.3, 15.4) -/

/-- The 64 bytes of a logical unit: blank where its bit is set; what the flash of the part held is open. -/
def unitBytes (d : Device) (u : Nat) : List Byte :=
  let f := d.flash
  let p := physBlock f (u / 1024) * 1024 + u % 1024
  match Table.find f.units p with
  | some b => b
  | none => if (Table.get f.erased 0 (p / 1024)).getLsbD (p % 1024) then List.replicate 64 0xFF else Config.crypto 10 p
/-- First unit of an image. -/
def imageUnit (s : Nat) : Nat := if s = 0 then 0x4000 else 0x24000
/-- Bytes `i` to `i + n - 1` of an image's header. -/
def headerBytes (d : Device) (s i n : Nat) : List Byte := (((List.range 4).flatMap fun k => d.unitBytes (imageUnit s + k)).drop i).take n
def imageInfo (d : Device) (s : Nat) : List Byte :=
  toBytes 4 (b2n (Table.get d.flash.imageOk false s)) ++ d.headerBytes s 8 4 ++ d.headerBytes s 20 32 ++ d.headerBytes s 52 48
/-- Largest erase count of a mapped block, retired blocks, and reads at or above the threshold. -/
def wearBytes (d : Device) : List Byte :=
  let m := (List.range 1024).foldl (fun m b => max m (Table.get d.flash.erases 0 (physBlock d.flash b))) 0
  toBytes 4 m ++ toBytes 4 d.flash.retired.length ++ wordBytes 8 d.flash.ce
/-- CRC-32 with the IEEE 802.3 polynomial, bits in the order of that standard. -/
def crc32 (l : List Byte) : BitVec 32 :=
  let bit1 := fun (r : BitVec 32) (_ : Nat) => if r.getLsbD 0 then (r >>> 1) ^^^ 0xEDB88320 else r >>> 1
  ~~~(l.foldl (fun r b => (List.range 8).foldl bit1 (r ^^^ b.setWidth 32)) 0xFFFFFFFF)
/-- A section of a crash record: its header, then contents whose layout stays open (Table 15.5). -/
def sectionBytes (n : Nat) (x : Nat × Nat × Nat) : List Byte :=
  let body := Config.crypto 11 n
  toBytes 2 x.1 ++ toBytes 2 x.2.1 ++ toBytes 4 body.length ++ toBytes 8 x.2.2 ++ body
/-- The sections that fit into `room` bytes, and whether some do not. -/
def fitting (room : Nat) : List (List Byte) → List Byte × Bool
  | [] => ([], false)
  | s :: r => if room < s.length then ([], true) else (s ++ (fitting (room - s.length) r).1, (fitting (room - s.length) r).2)
/-- A crash record: the header of Table 15.4, the sections that fit into 64 KiB, and the check word (R475). -/
def crashBytes (c : Crash) : List Byte :=
  let (body, cut) := fitting 65468 ((List.range c.sections.length).map fun i => sectionBytes (65536 * c.seqno + i) (c.sections.getD i (0, 0, 0)))
  let r := toBytes 4 0x48535243 ++ toBytes 2 1 ++ toBytes 1 c.scope ++ toBytes 1 c.paddock ++ toBytes 8 c.tally ++ toBytes 4 c.epoch ++
    wordBytes 2 c.cause ++ wordBytes 1 c.inc ++ toBytes 1 (b2n c.reduced + 2 * b2n cut + 4 * b2n c.part) ++
    toBytes 4 (68 + body.length) ++ toBytes 4 c.seqno ++ toBytes 32 0 ++ body
  r ++ wordBytes 4 (crc32 r)
/-- A log entry in 64 bytes: Tally, epoch, code and detail (R513). -/
def logBytes (e : Nat × Nat × BitVec 16 × W64) : List Byte :=
  toBytes 8 e.1 ++ toBytes 4 e.2.1 ++ wordBytes 4 e.2.2.1 ++ toBytes 48 e.2.2.2.toNat

/-! ### The attestation report (Table 14.5) -/

/-- The repair block of the report (R106): counts over the Pens of present cores, the pairs out of use, the digest of their PEN_REPAIR words
by core and Pen. -/
def repairBlock (d : Device) : List Byte :=
  let here := fun (l : List (Nat × Nat × Nat × Nat)) => (l.filter fun x => d.corePresent x.1).length
  let words := (d.presentCores.flatMap fun c => (List.range 32).flatMap fun p => wordBytes 4 (d.penRepair c p))
  toBytes 4 (here d.fuse.repair) ++ toBytes 4 (here d.boot.soft) ++ wordBytes 1 d.boot.outPairs ++ Config.crypto 31 (ofBytes words)
/-- The raw fields of Table 14.5 in the order in which it lists them, each block after its index; digests and public keys come from
outside the model. -/
def report (d : Device) : List Byte :=
  let bs := (List.range 6).flatMap fun p => (List.range 4).filterMap fun s =>
    let b := Table.get (d.pdkSec p).bundles Bundle.reset s
    if b.installed then some (toBytes 1 p ++ toBytes 1 s ++ toBytes 4 b.context ++ wordBytes 16 b.id ++ Config.crypto 33 b.key) else none
  let t := d.tally
  [1] ++ Config.crypto 30 0 ++ [2] ++ toBytes 1 d.flash.active ++ d.headerBytes d.flash.active 20 32 ++ d.headerBytes d.flash.active 8 4 ++
  [3] ++ d.headerBytes 0 52 48 ++ d.headerBytes 1 52 48 ++ toBytes 1 d.flash.active ++
  [4] ++ wordBytes 4 d.glbId ++ wordBytes 4 d.secFuse ++
  [5] ++ ((List.range 6).flatMap fun p => wordBytes 8 (d.layoutWord p) ++ wordBytes 1 (d.pdk p).inc) ++
  [6] ++ ((List.range 32).flatMap fun i => wordBytes 4 (Table.get d.links.trust 0 i)) ++
  [7] ++ d.repairBlock ++
  [8] ++ (d.pdksPresent.flatMap fun p => Config.crypto 32 (d.pdkSec p).intakeKey) ++ [9] ++ bs.flatten ++
  [10] ++ toBytes 4 t.epoch ++ toBytes 8 t.now ++ wordBytes 8 d.calWord ++ wordBytes 4 t.errBnd ++ toBytes 1 t.state.code

end Device

end Sys2Proof.Machine
end

