-- ==== Sys2Proof/Machine/DictOps.lean ====
section
/-! DEFINITION. The dictionary: its objects, who may reach them, reads, the order of a write's checks and its staging (spec 16: R488 to
R495, Tables 16.2 to 16.11). -/

namespace Sys2Proof.Machine

/-- Access of an object for the operator. -/
inductive DzAccess where | ro | rw | wo
  deriving DecidableEq, Repr, Inhabited

/-- One object of Tables 16.4 to 16.11: index, number of subindices, TYPE of Table 16.3, access, and size in bytes, 0 for one that
varies. -/
structure DzObj where
  index : Nat
  count : Nat
  type : Nat
  access : DzAccess
  size : Nat
  deriving DecidableEq, Repr, Inhabited

/-- Tables 16.4 to 16.7. -/
def dzObjects1 : List DzObj :=
  [⟨0x1000, 1, 4, .ro, 4⟩, ⟨0x1001, 1, 8, .ro, 0⟩, ⟨0x1002, 1, 8, .ro, 0⟩, ⟨0x1003, 1, 7, .ro, 0⟩, ⟨0x1004, 1, 2, .ro, 1⟩,
   ⟨0x1005, 1, 3, .ro, 2⟩, ⟨0x1006, 1, 2, .ro, 1⟩, ⟨0x1007, 1, 2, .ro, 1⟩, ⟨0x1008, 1, 1, .ro, 1⟩, ⟨0x1009, 1, 2, .ro, 1⟩,
   ⟨0x2000, 1, 9, .rw, 48⟩, ⟨0x2001, 6, 5, .ro, 8⟩, ⟨0x2002, 16, 1, .rw, 1⟩, ⟨0x2003, 12, 4, .rw, 4⟩, ⟨0x2004, 1, 4, .rw, 4⟩,
   ⟨0x3000, 1, 2, .rw, 1⟩, ⟨0x3001, 1, 4, .rw, 4⟩, ⟨0x3002, 1, 2, .rw, 1⟩, ⟨0x3003, 1, 4, .ro, 4⟩, ⟨0x3004, 1, 4, .ro, 4⟩,
   ⟨0x3005, 1, 5, .ro, 8⟩, ⟨0x3006, 1, 4, .ro, 4⟩, ⟨0x3007, 32, 4, .ro, 4⟩, ⟨0x3008, 1, 5, .ro, 8⟩,
   ⟨0x4000, 1, 4, .ro, 4⟩, ⟨0x4001, 4, 8, .rw, 0⟩, ⟨0x4010, 32, 4, .rw, 4⟩, ⟨0x4020, 24, 9, .wo, 176⟩, ⟨0x4021, 24, 5, .ro, 8⟩,
   ⟨0x4030, 6, 1, .wo, 1⟩, ⟨0x4031, 6, 5, .ro, 8⟩, ⟨0x4040, 1, 4, .ro, 4⟩, ⟨0x4041, 1, 5, .ro, 8⟩]
/-- Tables 16.8 to 16.11. -/
def dzObjects2 : List DzObj :=
  [⟨0x5000, 1, 4, .rw, 4⟩, ⟨0x5001, 6, 1, .wo, 1⟩, ⟨0x5002, 1, 4, .wo, 4⟩, ⟨0x5003, 1, 5, .ro, 8⟩, ⟨0x5010, 256, 8, .ro, 0⟩,
   ⟨0x5011, 1, 8, .ro, 0⟩, ⟨0x5020, 12, 9, .ro, 104⟩, ⟨0x5021, 12, 9, .ro, 24⟩, ⟨0x5022, 12, 9, .ro, 128⟩, ⟨0x5023, 16, 9, .ro, 32⟩,
   ⟨0x5030, 8, 9, .rw, 8⟩, ⟨0x5031, 8, 9, .ro, 0⟩, ⟨0x6000, 1, 3, .rw, 2⟩, ⟨0x6001, 1, 4, .rw, 4⟩, ⟨0x6002, 1, 3, .rw, 2⟩,
   ⟨0x6003, 2, 8, .ro, 6⟩, ⟨0x6004, 2, 4, .rw, 4⟩, ⟨0x6005, 2, 8, .rw, 16⟩, ⟨0x6006, 2, 4, .rw, 4⟩, ⟨0x6040, 64, 5, .rw, 8⟩,
   ⟨0x6080, 64, 9, .rw, 32⟩] ++
  (List.range 256).map (fun k => (⟨0x6100 + k, 256, 2, .rw, 1⟩ : DzObj)) ++
  [⟨0x6200, 2, 9, .ro, 72⟩, ⟨0x7000, 1, 2, .ro, 1⟩, ⟨0x7001, 2, 9, .ro, 88⟩, ⟨0x7002, 1, 8, .wo, 0⟩, ⟨0x7003, 1, 2, .wo, 1⟩,
   ⟨0x7010, 1, 9, .ro, 16⟩, ⟨0x7011, 1, 2, .rw, 1⟩, ⟨0x8000, 1, 2, .rw, 1⟩, ⟨0x8001, 1, 4, .rw, 4⟩, ⟨0x8002, 1, 2, .rw, 1⟩,
   ⟨0x8003, 1, 1, .rw, 1⟩, ⟨0x8004, 1, 5, .wo, 8⟩, ⟨0x8005, 1, 5, .ro, 8⟩, ⟨0x8006, 1, 4, .ro, 4⟩, ⟨0x8007, 1, 4, .ro, 4⟩,
   ⟨0x8008, 1, 4, .ro, 4⟩, ⟨0x8009, 1, 5, .ro, 8⟩]
/-- Every object, in rising order. -/
def dzObjects : List DzObj := dzObjects1 ++ dzObjects2

namespace Device

/-! ### Sessions and roles (R488 to R490) -/

def sess (d : Device) (k : Nat) : Sess := Table.get d.dict.sessions Sess.reset k
def modDict (d : Device) (f : Dict → Dict) : Device := { d with dict := f d.dict }
def modSess (d : Device) (k : Nat) (f : Sess → Sess) : Device :=
  d.modDict fun x => { x with sessions := Table.set x.sessions Sess.reset k (f (d.sess k)) }
/-- The management path is up: the start-up has reached the images (Table 18.2). -/
def pathUp (d : Device) : Bool := d.boot.released && decide (3 ≤ d.boot.stage)
/-- A message of a session reaches the Shepherd only while the session is open and its handshake complete. -/
def reaches (d : Device) (s : Option Nat) : Bool :=
  d.pathUp && (match s with
    | none => true
    | some k => (d.sess k).isOpen && (d.sess k).finished)
def isOperator (d : Device) (s : Option Nat) : Bool :=
  match s with
  | none => false
  | some k => (d.sess k).operator
/-- The ROM with no good image serves part of the dictionary (R503). -/
def served (d : Device) (i : Nat) : Bool :=
  d.boot.stage != 9 || (decide (0x1000 ≤ i) && decide (i ≤ 0x10FF)) || (decide (0x7000 ≤ i) && decide (i ≤ 0x7011))
/-- Subindices of an object that exist. -/
def dzCount (d : Device) (o : DzObj) : Nat := if o.index = 0x5010 then min 256 d.resets.crashes.length else o.count
/-- The object that an index and a subindex name. -/
def dzFind (d : Device) (i s : Nat) : Option DzObj :=
  match dzObjects.find? fun o => o.index == i with
  | some o => if s < d.dzCount o && d.served i then some o else none
  | none => none

/-! ### Values -/

/-- The value of an object that has one number, or none for the others. -/
def dzNumber (d : Device) (ses : Option Nat) (i s : Nat) : Option Nat :=
  match i with
  | 0x1000 => some d.glbId.toNat
  | 0x1004 => some d.dict.eid.toNat
  | 0x1005 => some d.fuse.vendor.toNat
  | 0x1006 => some (d.dict.i3cAddr.getD d.cal.i3cStatic).toNat
  | 0x1007 => some ((List.range 4).filter fun k => (d.sess k).isOpen).length
  | 0x1008 => some (b2n !d.dict.roots.isEmpty)
  | 0x1009 => some (b2n (d.isOperator ses))
  | 0x2001 => some (d.pdkRstWord s).toNat
  | 0x2002 => some (b2n !(d.dict.chanOff.contains s))
  | 0x2003 => some (if d.corePresent s then b2n (d.slice s).patrol + 2 * b2n (d.slice s).audit else 0)
  | 0x2004 => some d.dict.prTimeout
  | 0x3000 => some d.power.capSet
  | 0x3001 => some d.power.ctl.toNat
  | 0x3002 => some d.power.thermWarn
  | 0x3003 => some d.pwrStep.toNat
  | 0x3004 => some d.pwrPower.toNat
  | 0x3005 => some d.pwrEnergy
  | 0x3006 => some d.pwrSupply.toNat
  | 0x3007 => some (d.pwrTsens s).toNat
  | 0x3008 => some d.pwrLevels.toNat
  | 0x4000 => some d.secFuse.toNat
  | 0x4010 => some (Table.get d.links.trust 0 s).toNat
  | 0x4021 => some (d.bundleWord (s / 4) (s % 4)).toNat
  | 0x4031 => some (d.secStat s).toNat
  | 0x4040 => some d.entropyWord.toNat
  | 0x4041 => some d.sec.attestCnt.toNat
  | 0x5000 => some d.resets.hangMs
  | 0x5003 => some d.devRstWord.toNat
  | 0x6000 => some d.links.addr.toNat
  | 0x6001 => some d.links.ctl.toNat
  | 0x6002 => some d.links.dport.toNat
  | 0x6003 => some (if s = 0 then d.fuse.mac0 else d.fuse.mac1).toNat
  | 0x6004 => some (d.port s).ip4.toNat
  | 0x6005 => some (d.port s).ip6.toNat
  | 0x6006 => some (d.port s).vid.toNat
  | 0x6040 => some (d.bindWord s).toNat
  | 0x7000 => some d.flash.active
  | 0x7011 => some d.ceLimit
  | 0x8000 => some d.tally.src
  | 0x8001 => some d.tally.hz
  | 0x8002 => some d.tally.ptpDomain.toNat
  | 0x8003 => some (b2n d.tally.ptpTx)
  | 0x8005 => some d.calWord.toNat
  | 0x8006 => some d.tally.epoch
  | 0x8007 => some d.tlyStatus.toNat
  | 0x8008 => some d.tally.errBnd.toNat
  | 0x8009 => some d.now
  | _ => none
/-- The bytes of an object without a number; a write-only object reads zero. -/
def dzRecord (d : Device) (o : DzObj) (s : Nat) : List Byte :=
  let snap := Table.get d.dict.snaps Snap.reset s
  match o.index with
  | 0x1001 => wordBytes 16 d.fuse.serial
  | 0x1002 => Config.crypto 1 0
  | 0x1003 => (d.headerBytes d.flash.active 20 32).takeWhile (· != 0)
  | 0x2000 => (List.range 6).flatMap fun p => wordBytes 8 (d.layoutWord p)
  | 0x4001 => Table.get d.dict.roots [] s
  | 0x5010 => match d.resets.crashes.reverse[s]? with
    | some c => crashBytes c
    | none => []
  | 0x5011 => d.flash.log.flatMap logBytes
  | 0x5020 => d.stallBytes s
  | 0x5021 => d.yardErrBytes s
  | 0x5022 => d.rmpUseBytes s
  | 0x5023 => d.mchBytes s
  | 0x5030 => toBytes 4 snap.period ++ wordBytes 2 snap.cores ++ wordBytes 1 snap.groups ++ [0]
  | 0x5031 => toBytes 8 snap.lastTally ++ snap.last.flatMap fun w => wordBytes 8 w
  | 0x6080 => d.nbrBytes s
  | 0x6200 => d.portBytes s
  | 0x7001 => d.imageInfo s
  | 0x7010 => d.wearBytes
  | _ => toBytes o.size 0
/-- The bytes of an object's value. -/
def dzBytes (d : Device) (ses : Option Nat) (o : DzObj) (s : Nat) : List Byte :=
  if 0x6100 ≤ o.index ∧ o.index < 0x6200 then wordBytes 1 (Table.get d.links.routes 0 (256 * (o.index - 0x6100) + s))
  else match d.dzNumber ses o.index s with
    | some v => toBytes o.size v
    | none => d.dzRecord o s

/-! ### Responses and requests (R491, Tables 16.2 and 16.3) -/

/-- A response of Table 16.3. -/
def respond (d : Device) (r : DzRequest) (op i s ty : Nat) (code : Code) (total : Nat := 0) (data : List Byte := []) : Device :=
  d.emit (.dzient code
    ([1] ++ toBytes 1 (op + 0x80) ++ wordBytes 2 r.tag ++ toBytes 2 i ++ toBytes 1 s ++ toBytes 1 ty ++ wordBytes 2 code ++ [0, 0] ++
      toBytes 4 data.length ++ toBytes 4 total ++ data))
/-- Indices that any requester may read. -/
def openIndex (i : Nat) : Bool := decide (0x1000 ≤ i) && decide (i ≤ 0x10FF)
/-- Chunks of the object are staged by another session (R492). -/
def stagedElsewhere (d : Device) (ses : Option Nat) (i s : Nat) : Bool :=
  d.dict.staging.any fun x => x.index == i && x.sub == s && ses != some x.sess
/-- READ. -/
def dzRead (ses : Option Nat) (r : DzRequest) (d : Device) : Device :=
  let i := r.index.toNat
  let s := r.sub.toNat
  if !d.reaches ses then d
  else if !d.isOperator ses && !openIndex i then d.respond r 1 i s 0 ACCESS
  else match d.dzFind i s with
    | none => d.respond r 1 i s 0 NO_OBJECT
    | some o =>
      if r.more || decide (1024 < r.len) then d.respond r 1 i s o.type BAD_FIELD
      else if d.stagedElsewhere ses i s then d.respond r 1 i s o.type BUSY
      else
        let b := d.dzBytes ses o s
        d.respond r 1 i s o.type 0 b.length ((b.drop r.offset).take r.len)
/-- NEXT: the next object after the one named, whether that one exists or not. -/
def dzNext (ses : Option Nat) (r : DzRequest) (d : Device) : Device :=
  let i := r.index.toNat
  let s := r.sub.toNat
  if !d.reaches ses then d
  else if !d.isOperator ses && !openIndex i then d.respond r 3 i s 0 ACCESS
  else if d.stagedElsewhere ses i s then d.respond r 3 i s 0 BUSY
  else
    let here := match d.dzFind i (s + 1) with
      | some o => some (o, s + 1)
      | none => none
    let after := (dzObjects.find? fun o => decide (i < o.index) && decide (0 < d.dzCount o) && d.served o.index).map fun o => (o, 0)
    match here.orElse fun _ => after with
    | some (o, k) => d.respond r 3 o.index k o.type 0 (d.dzBytes ses o k).length
    | none => d.respond r 3 i s 0 NO_OBJECT

/-! ### Writes (R492 to R494) -/

/-- What a session has staged of an object. -/
def stagedBy (d : Device) (k i s : Nat) : List Byte :=
  match d.dict.staging.find? fun x => x.sess == k && x.index == i && x.sub == s with
  | some x => x.bytes
  | none => []
def unstage (d : Device) (k i s : Nat) : Device :=
  d.modDict fun x => { x with staging := x.staging.filter fun y => !(y.sess == k && y.index == i && y.sub == s) }
def stage (d : Device) (k i s : Nat) (b : List Byte) : Device :=
  (d.unstage k i s).modDict fun x => { x with staging := x.staging ++ [{ sess := k, index := i, sub := s, bytes := b }] }
/-- The value has the size of its type, and a BOOL is 0 or 1. -/
def fits (o : DzObj) (b : List Byte) : Bool := (o.size == 0 || b.length == o.size) && (o.type != 1 || decide (ofBytes b < 2))
/-- The checks of a write that come before its value's own, in the order of R493; `go` takes the session, the object, what it had
staged, and whether another session's chunks forbid the write. -/
def dzChecked (ses : Option Nat) (r : DzRequest) (d : Device) (go : Nat → DzObj → List Byte → Bool → Device) : Device :=
  let i := r.index.toNat
  let s := r.sub.toNat
  if !d.reaches ses then d
  else match ses with
    | none => d.respond r 2 i s 0 ACCESS
    | some k =>
      match d.dzFind i s with
      | none => d.respond r 2 i s 0 NO_OBJECT
      | some o =>
        let own := d.stagedBy k i s
        if !d.isOperator ses || o.access == .ro then d.respond r 2 i s o.type ACCESS
        else if r.len != r.data.length || decide (1024 < r.len) || r.offset != own.length || (!r.more && !fits o (own ++ r.data)) then
          (d.unstage k i s).respond r 2 i s o.type BAD_FIELD
        else go k o own (d.stagedElsewhere ses i s)
/-- What a write makes of the device, or the code that refuses it. -/
abbrev Written := Device ⊕ Code
/-- The value must be programmed into the flash; a program that fails refuses the write (R494). -/
def inFlash (r : DzRequest) (x : Written) : Written :=
  match x with
  | .inr c => .inr c
  | .inl d =>
    match r.flash with
    | .ok => .inl d
    | .notErased => .inr 0x0901
    | .verify => .inr 0x0902
    | .worn => .inr 0x0903
/-- WRITE of an object that `mine` accepts: chunks are staged, and the last one applies the value. -/
def dzWrite (mine : Nat → Bool) (apply : Nat → Nat → Nat → List Byte → Device → Written) (ses : Option Nat) (r : DzRequest)
    (d : Device) : Device :=
  let i := r.index.toNat
  let s := r.sub.toNat
  if !mine i then d
  else d.dzChecked ses r fun k o own busy =>
    if r.more then
      if busy then d.respond r 2 i s o.type BUSY else (d.stage k i s (own ++ r.data)).respond r 2 i s o.type 0
    else
      let d := d.unstage k i s
      match apply k i s (own ++ r.data) d with
      | .inr c => d.respond r 2 i s o.type (if busy && c != BAD_FIELD then BUSY else c)
      | .inl e => if busy then d.respond r 2 i s o.type BUSY else e.respond r 2 i s o.type 0

end Device

end Sys2Proof.Machine
end

