-- ==== Sys2Proof/Machine/PowerUnit.lean ====
section
/-! DEFINITION. Power, thermal and supply control as commands (spec 13: R409 to R433; spec 02: Table 2.3). -/

namespace Sys2Proof.Machine

/-- The 8 newest entries of a list that begins with the newest. -/
def newest8 {α : Type} (l : List α) : List α := l.take 8

namespace Device

def modPower (d : Device) (f : Power → Power) : Device := { d with power := f d.power }

/-! ### The interval of 2 us (R411 to R414, R419, R429, R431) -/

/-- Budgets in pJ of the coming interval for the present cores: the needs, and what is left in equal parts, or the pool in
proportion to the needs. -/
def budgetOf (d : Device) (c : Nat) : Nat :=
  let w := d.power
  let cs := d.presentCores
  let pool := d.effCap * 2000 - w.uncore.foldl max 0 - d.leakAt w.cur * 2000
  let need := fun c => d.needAt w.cur c * 2000
  let sum := (cs.map need).foldl (· + ·) 0
  if !cs.contains c then 0
  else if sum ≤ pool then need c + (pool - sum) / cs.length
  else pool * need c / sum
/-- Energy of an interval's uncore events at 0.900 V (Table 13.2). -/
def uncoreWork (d : Device) (a : Activity) : Nat :=
  let w := fun k => d.cal.weights.getD k 0
  a.meshBeats * w 7 + a.bursts * w 8 + a.flits * w 9 + a.frames * w 10
/-- The cores' own events count anew. -/
def clearWork (d : Device) : Device := (List.range 12).foldl (fun d c => d.modCore c fun k => { k with work := 0, waited := 0 }) d
/-- One interval ends with the given activity, and the next begins. -/
def intervalEnds (a : Activity) (d : Device) : Device :=
  if !d.boot.released || d.boot.stage < 5 then d
  else
    let w := d.power
    let cs := d.presentCores
    let core := fun c => d.scaled ((d.core c).work / 32)
    let unc := d.scaled (d.cal.fixedMw * 2000)
    let other := d.scaled (d.uncoreWork a)
    let leak := d.leakAt w.cur * 2000
    let e := (cs.map core).foldl (· + ·) 0 + other + unc + leak
    let total := w.energyRem + e
    let energy := w.energy + total / 1000000
    let edge := decide (w.interval * 2000 / 100000000 ≠ d.now / 100000000)
    let ests := (e / 2000 :: w.ests).take 500
    let power := if !d.anyConfidential then ests.foldl (· + ·) 0 / ests.length
      else if edge then (energy - w.energySeen) / 100 else w.power
    let learning := cs.foldl (fun t c =>
      if d.phaseOf c = 0 then t
      else
        let (s, n) := Table.get t (0, 0) c
        Table.set t (0, 0) c (s + (core c + d.scaled ((d.core c).waited / 32)) * 1000 / stepRel w.cur, n + 1)) w.learning
    let used := cs.foldl (fun t c => Table.set t 0 c (Table.get t 0 c - (core c : Int))) w.balances
    let d := d.modPower fun w => { w with
      energy := energy, energyRem := total % 1000000, energySeen := if edge then energy else w.energySeen
      est := e / 2000, ests := ests, power := power, learning := learning, interval := d.now / 2000
      coreEnergy := cs.foldl (fun t c => Table.set t [] c (newest8 (core c :: Table.get t [] c))) w.coreEnergy
      uncore := newest8 ((other + unc) :: w.uncore) }
    d.clearWork.modPower fun w => { w with
      budgets := cs.foldl (fun t c => Table.set t 0 c (d.budgetOf c / 2000)) w.budgets
      balances := cs.foldl (fun t c => Table.put t c ((d.budgetOf c : Int) + min 0 (Table.get used 0 c))) w.balances }

/-! ### Changes of step (R409, R410, R415, R421, R422) -/

/-- The regulator has reached the request: the raise that waits takes effect, unless it waits for the common instant. -/
def vackRises (d : Device) : Device :=
  let w := d.power
  let d := d.modPower fun w => { w with vack := true }
  match w.pending with
  | some r =>
    if w.lag then d.modPower fun w => { w with pending := none, vreq := stepVid w.cur }
    else if w.lockRaise.isSome ∨ w.supply ≠ .normal ∨ w.therm = 2 then d
    else d.modPower fun w => { w with cur := r.target, pending := none, limit := d.limitOf r.target }
  | none => d
/-- 50 us pass without PM_VACK: the raise is abandoned and raises are suppressed. -/
def vregLate (d : Device) : Device :=
  let w := d.power
  match w.pending with
  | some r =>
    if w.vack || decide (d.now < r.asked + 50000) then d
    else (d.modPower fun w => { w with pending := none, vreq := stepVid w.cur, suppress := true }).platform 0x0507
  | none => d
/-- The instant at which a member raises to the common step. -/
def commonRaise (d : Device) : Device :=
  let w := d.power
  match w.lockRaise with
  | none => d
  | some (s, t) =>
    if d.now < t then d
    else
      let d := d.modPower fun w => { w with lockRaise := none }
      let ready : Bool := match w.pending with
        | some r => w.vack && r.target == s
        | none => false
      if ready && w.supply == .normal && w.therm != 2 then d.modPower fun w => { w with cur := s, pending := none, limit := 2 }
      else (d.modPower fun w => { w with lag := true, lagCnt := satInc w.lagCnt }).platform 0x0505
/-- GRAZE_MAX us after a core's arrival its Grazing ends. -/
def grazeEnds (c : Nat) (d : Device) : Device :=
  match (d.core c).grazing with
  | some t => if t + pcGrazeMax d.power.ctl * 1000 ≤ d.now then d.modCore c fun k => { k with grazing := none } else d
  | none => d

/-! ### The supply (R423 to R425) -/

/-- The request that the monitor's levels are taken of, in mV: the lower one while a step changes. -/
def supplyMv (d : Device) : Nat := 5 * (if d.power.pending.isSome then min d.power.vreq (stepVid d.power.cur) else d.power.vreq)
/-- Every Pen's activity is at most 8. -/
def clampPens (d : Device) : Device :=
  (List.range 12).foldl (fun d c => d.modCore c fun k => { k with pn := { k.pn with
    pens := Table.mapAll k.pn.pens Pen.reset fun p => { p with level := min 8 p.level } } }) d
/-- VDD_CMP is below the warning level. -/
def supplyWarns (mv : Nat) (d : Device) : Device :=
  let w := d.power
  if d.cal.warnPct * d.supplyMv ≤ mv * 100 then d
  else match w.supply with
    | .warning => d.modPower fun w => { w with dipLow := min w.dipLow mv }
    | .hold => d.modPower fun w => { w with
        supply := .warning, dipCnt := satNat 16 (w.dipCnt + 1), warnAt := d.now, dipLow := min w.dipLow mv }
    | .normal =>
      let d := d.modPower fun w => { w with
        supply := .warning, dipCnt := satNat 16 (w.dipCnt + 1), dipAt := d.now, warnAt := d.now, dipLow := mv, dipNs := 0, dipStep := w.cur
        cur := min 4 w.cur, pending := none, limit := 3 }
      d.stopGrazing.clampPens
/-- VDD_CMP is back at the warning level. -/
def supplyHolds (d : Device) : Device :=
  if d.power.supply ≠ .warning then d
  else d.modPower fun w => { w with supply := .hold, holdAt := d.now, dipNs := w.dipNs + (d.now - w.warnAt) }
/-- 20 us of HOLD pass: the step before the warning comes back, or a lower one that was decided meanwhile. -/
def supplyNormal (d : Device) : Device :=
  let w := d.power
  if w.supply ≠ .hold ∨ d.now < w.holdAt + 20000 then d
  else
    let d := d.modPower fun w => { w with supply := .normal }
    let s := if w.therm = 2 then 0
      else if pcMode w.ctl = 1 then min w.dipStep d.fixedStep
      else if pcLockstep w.ctl && w.commonOn then min w.dipStep d.ceiling
      else min w.dipStep (d.bestStep d.ceiling 0)
    let d := d.modPower fun w => { w with cur := s, vreq := stepVid s, limit := d.limitOf s }
    d.postDev { d.devEvent 7 0x0503 (det 20 w.dipLow ||| det 24 w.dipNs) with tally := w.dipAt }
/-- VDD_CMP is below the reset level. -/
def supplyResets (mv : Nat) (d : Device) : Device :=
  if d.cal.resetPct * d.supplyMv ≤ mv * 100 then d
  else (d.logFlash 0x0502 (BitVec.ofNat 64 mv)).requestDevReset 0x0502

/-! ### Temperature (R426 to R428) -/

/-- Sensors of each die: two compute dies, two base dies. -/
def dieSensors : List (List Nat) := [List.range 12, (List.range 12).map (12 + ·), [24, 25, 26, 27], [28, 29, 30, 31]]
/-- Hottest valid sensor, the lowest-numbered among equals: (reading, sensor). -/
def hottest (l : List SensorReading) : Option (Int × Nat) :=
  (l.zipIdx).foldl (fun b (r, i) =>
    if !r.valid then b
    else match b with
      | none => some (r.temp, i)
      | some (t, _) => if t < r.temp then some (r.temp, i) else b) none
/-- The sensors are read. -/
def senseHeat (t : List SensorReading) (d : Device) : Device :=
  let l := (List.range 32).map fun i => t.getD i { valid := false, temp := 0 }
  let blind := dieSensors.any fun s => s.all fun i => !(l.getD i { valid := false, temp := 0 }).valid
  let d := d.modPower fun w => { w with
    sensors := l.zipIdx.foldl (fun t (r, i) => Table.set t (0, false) i (r.temp, r.valid)) w.sensors }
  let d : Device := match hottest l with
    | some (v, i) => d.modPower fun w => { w with hot := v, hotSensor := i }
    | none => d
  let w := d.power
  let trip := blind || decide (d.cal.trip ≤ w.hot)
  let d := if !trip || w.therm == 2 then d
    else
      let d := (d.lowerTo 0 5).stopGrazing
      (d.modPower fun w => { w with therm := 2, alert := true, coolAt := none }).platform 0x0501
  let d := if d.power.therm = 2 then
      d.modPower fun w => { w with coolAt := if !blind && decide (w.hot < d.cal.trip - 10) then some (w.coolAt.getD d.now) else none }
    else if (w.thermWarn : Int) ≤ w.hot then
      let d := d.stopGrazing
      if w.therm = 0 then (d.modPower fun w => { w with therm := 1, thermAt := d.now }).platform 0x0504 else d
    else if w.therm = 1 ∧ w.hot < (w.thermWarn : Int) - 5 then d.modPower fun w => { w with therm := 0, thermAt := d.now }
    else d
  if d.cal.crit ≤ w.hot ∧ w.crit = false then
    ((d.modPower fun w => { w with crit := true }).logFlash 0x0506 (BitVec.ofInt 64 w.hot)).requestDevReset 0x0506
  else d
/-- MAXSTEP moves: down every 100 us at WARN, up every 1 ms below WARN - 5. -/
def maxStepTick (d : Device) : Device :=
  let w := d.power
  if (w.thermWarn : Int) ≤ w.hot ∧ w.thermAt + 100000 ≤ d.now then
    let d := d.modPower fun w => { w with maxStep := w.maxStep - 1, thermAt := d.now }
    if d.power.maxStep < d.power.cur then d.lowerTo d.power.maxStep 4 else d
  else if w.hot < (w.thermWarn : Int) - 5 ∧ w.maxStep < pcMaxStep w.ctl ∧ w.thermAt + 1000000 ≤ d.now then
    d.modPower fun w => { w with maxStep := w.maxStep + 1, thermAt := d.now }
  else d
/-- The reading has stayed below TRIP - 10 for 1 ms: the trip ends. -/
def tripEnds (d : Device) : Device :=
  let w := d.power
  match w.coolAt with
  | some t =>
    if w.therm = 2 ∧ t + 1000000 ≤ d.now then
      d.modPower fun w => { w with therm := if (w.thermWarn : Int) ≤ w.hot then 1 else 0, alert := false, coolAt := none, thermAt := d.now }
    else d
  | none => d

/-! ### Announced phases (R417, R418) -/

/-- The core whose announcement holds an alarm slot. -/
def announcer (d : Device) (slot : Nat) : Option (Nat × Nat) :=
  (List.range 12).findSome? fun c => match (d.core c).announced with
    | some (tag, n) => if n = slot then some (c, tag) else none
    | none => none
/-- The cores that leave the default phase of a Paddock when it changes: they have a job and no phase of their own (R418). -/
def defaultCores (d : Device) (p : Nat) : List Nat :=
  (d.coresOf p).filter fun c => (d.core c).job.isSome && (d.core c).phase == 0
/-- A POWER_PHASE alarm fires: its core's phase begins, or it sets the Paddock's default. -/
def phaseAlarm (slot : Nat) (d : Device) : Device :=
  if !d.fires slot 3 then d
  else
    let a := d.alarm slot
    let d := d.fired slot
    match d.announcer slot with
    | some (c, tag) => beginPhase d c tag
    | none =>
      let d := d.announce a.owner a.target
      let d := (d.defaultCores a.owner).foldl learn d
      (d.modPower fun w => { w with defaults := Table.set w.defaults 0 a.owner a.target }).decideStep
/-- A HOST_EVENT alarm fires: an event record to the owning context, with TARGET in its detail. -/
def hostEvent (slot : Nat) (d : Device) : Device :=
  if !d.fires slot 6 then d
  else
    let a := d.alarm slot
    let d := d.fired slot
    d.postQueue a.ring (d.pdkEvent a.owner 7 0 (det 20 a.target) a.context)

end Device

/-- POWER_PHASE (R417, R418). -/
def execPowerPhase (slot : Nat) (s : State) : Res0 := onUnit 256 slot s (Device.phaseAlarm slot)
/-- HOST_EVENT (R36). -/
def execHostEvent (slot : Nat) (s : State) : Res0 := onUnit 256 slot s (Device.hostEvent slot)
/-- POWER_INTERVAL (R411 to R414, R429). -/
def execPowerInterval (a : Activity) (s : State) : Res0 := done s (Device.intervalEnds a)
/-- STEP_DECISION (R415). -/
def execStepDecision (s : State) : Res0 := done s Device.decideStep
/-- PM_VACK (R409). -/
def execPmVack (s : State) : Res0 := done s Device.vackRises
/-- VREG_TIMEOUT (R410). -/
def execVregTimeout (s : State) : Res0 := done s Device.vregLate
/-- RAISE_SUPPRESS_END (R410). -/
def execRaiseSuppressEnd (s : State) : Res0 := done s fun d => d.modPower fun w => { w with suppress := false }
/-- LOCKSTEP_RAISE (R421). -/
def execLockstepRaise (s : State) : Res0 := done s Device.commonRaise
/-- GRAZE_TIMEOUT (R422). -/
def execGrazeTimeout (core : Nat) (s : State) : Res0 := onUnit 12 core s (Device.grazeEnds core)
/-- SUPPLY_WARNING (R424). -/
def execSupplyWarning (mv : Nat) (s : State) : Res0 := done s (Device.supplyWarns mv)
/-- SUPPLY_HOLD (R423). -/
def execSupplyHold (s : State) : Res0 := done s Device.supplyHolds
/-- SUPPLY_NORMAL (R424). -/
def execSupplyNormal (s : State) : Res0 := done s Device.supplyNormal
/-- SUPPLY_RESET (R425). -/
def execSupplyReset (mv : Nat) (s : State) : Res0 := done s (Device.supplyResets mv)
/-- THERMAL_SAMPLE (R426 to R428). -/
def execThermalSample (t : List SensorReading) (s : State) : Res0 := done s (Device.senseHeat t)
/-- THERMAL_MAXSTEP_TICK (R427). -/
def execThermalMaxstepTick (s : State) : Res0 := done s Device.maxStepTick
/-- THERMAL_TRIP_EXIT (R428). -/
def execThermalTripExit (s : State) : Res0 := done s Device.tripEnds

end Sys2Proof.Machine
end

