-- ==== Sys2Proof/Machine/ResetUnit.lean ====
section
/-! DEFINITION. The progress check and the watchdog, Paddock and device resets as commands, and the trainings that end them
(spec 15: R464 to R483; spec 09: R276 to R278; spec 10: R306, R307; spec 18: R523). -/

namespace Sys2Proof.Machine

namespace Device

/-! ### Progress and liveness (R464 to R467) -/

/-- The job is LOADING, RUNNING, DRAINING or RESUMING and has a core that has not halted and does not wait at the step Muster. -/
def jobBusy (d : Device) (v : Job) : Bool :=
  jobHolds v && v.cores.any fun c =>
    !v.halted.contains c && !((d.core c).musWaiting && (d.core c).musId == 0xFFF && (d.core c).job.isSome)
def pdkBusy (d : Device) (p : Nat) : Bool := d.jobs.any fun kv => kv.2.paddock == p && d.jobBusy kv.2
/-- The idle count has reached HANG_MS: every job with a core not yet halted ends with HANG (R466). -/
def hang (d : Device) (p : Nat) : Device :=
  let js := (d.jobs.filter fun kv => kv.2.paddock == p && kv.2.cores.any fun c => !kv.2.halted.contains c).map (·.1)
  let d := js.foldl (fun d j => d.endJob j 0x070D) d
  d.modPdk p fun k => { k with idle := 0, hangJobs := k.hangJobs ++ js }
/-- `n` checks of Paddock `p`, made at one firing (R465 to R467). -/
def checkPdk (n : Nat) (d : Device) (p : Nat) : Device :=
  let k := d.pdk p
  let idle := if d.pdkBusy p && k.prog == k.progSeen then k.idle + n else 0
  let same := if k.alive = k.aliveSeen then k.aliveSame + n else 0
  let d := d.setPdk p { k with idle := idle, progSeen := k.prog, aliveSeen := k.alive, aliveSame := same }
  if d.fencedPdk p then d
  else if 8 ≤ same then d.requestReset p 0x070D
  else if d.resets.hangMs ≠ 0 ∧ d.resets.hangMs ≤ idle then d.hang p
  else d
/-- The HEARTBEAT alarm fires; while the Shepherd core restarts, nothing is checked or fed (R465, R468). -/
def heartbeat (slot : Nat) (d : Device) : Device :=
  if !d.fires slot 4 then d
  else
    let d := d.fired slot
    if d.resets.restarting then d
    else
      let n := (d.alarm slot).miss + 1
      let d := { d with resets := { d.resets with hb := d.resets.hb + 1, wdFeed := d.now, wdArmed := true } }
      if d.glb.devState = 1 then d.pdksPresent.foldl (checkPdk n) d else d

/-- Jobs ended for HANG are not reported ENDED within 10 ms (R467). -/
def hangUnreported (p : Nat) (d : Device) : Device := if (d.pdk p).hangJobs.isEmpty then d else d.requestReset p 0x070D
/-- A parity error in the Drover's tables (R467). -/
def droverFault (p : Nat) (d : Device) : Device := d.requestReset p 0x0711

/-! ### The watchdog (R468) -/

/-- 8 ms have passed since the last feed: the Shepherd core restarts; a second expiry within 1 s resets the device. SPDM sessions
end with the restart (R489). -/
def watchdog (regs : List (BitVec 32)) (d : Device) : Device :=
  let r := d.resets
  if !r.wdArmed || decide (d.now < r.wdFeed + 8000000) then d
  else
    let again := match r.wdLast with
      | some t => decide (d.now ≤ t + 1000000000)
      | none => false
    let d := { d with
      resets := { r with wdArmed := false, wdExp := satNat 8 (r.wdExp + 1), wdRegs := regs, wdLast := some d.now, restarting := true }
      dict := { d.dict with sessions := [], staging := [], spdmStage := 0, chunk := [] }
      flash := { d.flash with stopped := false, line := none, branches := [] } }
    if again then d.requestDevReset 0x070E else d
/-- The Shepherd core runs again; the record of the expiry bears the instant of it (R43). -/
def restartDone (d : Device) : Device :=
  if !d.resets.restarting then d
  else
    let d := { d with resets := { d.resets with restarting := false } }
    let d := d.postDev { d.devEvent 6 0x070E with tally := d.resets.wdLast.getD d.now }
    let c := d.crashNow 2 0xFF 0x070E false false 0 [(9, 0)]
    (d.keepCrash c).hostCrash c.seqno

/-! ### Paddock reset (R471 to R473, R479) -/

/-- A write of PDK_RST_CTL.RESET, or the operator's request. -/
def askReset (p : Nat) (d : Device) : Device := d.requestReset p 0x0701
/-- A fenced Paddock is captured; a removal that waits takes over, else its work is discarded and its state cleared, and its
channels train, unless this was the fourth reset within 600 s. -/
def resetPdk (p : Nat) (d : Device) : Device :=
  if (d.pdk p).rst ≠ .fenced || d.resets.devAsked.isSome || d.glb.devState ≠ 1 then d
  else
    let d := d.capturePdk p
    if (d.pdkSec p).rmvWaits then (d.modPdk p fun k => { k with rst := .running }).beginRemoval p
    else
      let k := d.pdk p
      let d := (d.discardPdk p k.lastCause k.crashSeq).clearPdk p
      if 4 ≤ k.history.length then d.outOfService p
      else
        let d := d.modPdk p fun k => { k with rst := .retraining }
        (d.chansOf p).foldl beginTraining d
/-- SEAL_OK of the channels of a Paddock, by channel number. -/
def sealMask (d : Device) (p : Nat) : Nat := (((d.chansOf p).filter fun n => (d.chan n).sealOk).map fun n => 2 ^ n).foldl (· + ·) 0
/-- A channel of the Paddock wrote a seal that did not come back. -/
def sealLost (d : Device) (p : Nat) : Bool := (d.chansOf p).any fun n => (d.chan n).written.isSome && !(d.chan n).sealOk
/-- The Paddock's recovery ends. -/
def pdkReady (p : Nat) (d : Device) : Device :=
  if (d.pdk p).rst ≠ .retraining ∨ d.glb.devState ≠ 1 ∨ (d.pdkSec p).memKey = 0 ∨
      !(d.chansOf p).all (fun n => (d.chan n).state == .active) then d
  else
    let d := d.modPdk p fun k => { k with rst := .running, inc := k.inc + 1 }
    let d := (d.openSessions p).freeStalls p
    let d := d.postDev (d.pdkEvent p 6 0x0710 (det 20 (d.sealMask p) ||| det 24 (d.pdk p).crashSeq))
    if d.sealLost p then d.loseMemory p else d

/-! ### Training (R276 to R278, R286, R306) -/

/-- The seal read back after training equals the Shepherd's copy, and the keys that wrote it are still installed. -/
def sealCheck (d : Device) (p n : Nat) : Bool :=
  let k := d.chan n
  match k.written with
  | some s => k.copy == some s && s.key == (d.pdkSec p).memKey && s.key != 0
  | none => false
/-- Training of channel `n` ends. -/
def trainingDone (n : Nat) (ok : Bool) (d : Device) : Device :=
  let k := d.chan n
  if k.state ≠ .training then d
  else if ok then
    match d.pdkOfChan n with
    | none => d.setChan n { k with state := .selfRefresh, fails := 0 }
    | some p =>
      if (d.pdk p).rst = .outOfService ∨ (d.pdkSec p).memKey = 0 then d.setChan n { k with state := .selfRefresh, fails := 0 }
      else d.setChan n { k with state := .active, fails := 0, sealOk := d.sealCheck p n }
  else if k.fails = 0 then d.setChan n { k with fails := 1 }
  else
    let d := d.setChan n { k with state := .failed, fails := k.fails + 1 }
    let d := d.postDev (d.devEvent 5 0x0305 (det 20 n))
    (d.pdksPresent.filter fun p => (d.layout p).chanPairs.getLsbD (n / 2) && (d.pdk p).rst != .outOfService).foldl
      (fun d p => (if d.glb.devState = 1 ∧ (d.pdk p).rst = .retraining then d.loseMemory p else d).outOfService p) d
/-- Training of the host link ends; with both modules failed it is retried (R518). -/
def linkTrained (m0 m1 : Bool) (d : Device) : Device :=
  if d.boot.stage ≠ 8 then d
  else { d with
    glb := { d.glb with link := BitVec.ofNat 2 (b2n m0 + 2 * b2n m1) }
    boot := { d.boot with linkDone := m0 || m1, linkBad := !(m0 && m1) } }

end Device

/-- HEARTBEAT (R465). -/
def execHeartbeat (slot : Nat) (s : State) : Res0 := onUnit 256 slot s (Device.heartbeat slot)
/-- HANG_REPORT_TIMEOUT (R467). -/
def execHangReportTimeout (pdk : Nat) (s : State) : Res0 := onUnit 6 pdk s (Device.hangUnreported pdk)
/-- DROVER_FAULT (R467). -/
def execDroverFault (pdk : Nat) (s : State) : Res0 := onUnit 6 pdk s (Device.droverFault pdk)
/-- WATCHDOG_EXPIRY (R468). -/
def execWatchdogExpiry (regs : List (BitVec 32)) (s : State) : Res0 := done s (Device.watchdog regs)
/-- SHEPHERD_RESTART_DONE (R468). -/
def execShepherdRestartDone (s : State) : Res0 := done s Device.restartDone
/-- PADDOCK_RESET_REQUEST (R469, R470). -/
def execPaddockResetRequest (pdk : Nat) (s : State) : Res0 := onUnit 6 pdk s (Device.askReset pdk)
/-- PADDOCK_RESET (R471). -/
def execPaddockReset (pdk : Nat) (s : State) : Res0 := onUnit 6 pdk s (Device.resetPdk pdk)
/-- PADDOCK_READY (R471). -/
def execPaddockReady (pdk : Nat) (s : State) : Res0 := onUnit 6 pdk s (Device.pdkReady pdk)
/-- FUNCTION_LEVEL_RESET (R307). -/
def execFunctionLevelReset (s : State) : Res0 := done s fun d => d.requestDevReset 0x070F
/-- DEVICE_RESET (R476). -/
def execDeviceReset (cause : ResetCause) (t : TestReport) (s : State) : Res0 := done s (Device.resetDevice cause t)
/-- DEVICE_RESET_READY (R523). -/
def execDeviceResetReady (ms : BitVec 32) (s : State) : Res0 := done s (Device.readyAfterReset ms)
/-- CHANNEL_TRAINING_DONE (R276 to R278, R286). -/
def execChannelTrainingDone (chan : Nat) (ok : Bool) (s : State) : Res0 := onUnit 16 chan s (Device.trainingDone chan ok)
/-- UCIE_LINK_TRAINING (R306). -/
def execUcieLinkTraining (m0 m1 : Bool) (s : State) : Res0 := done s (Device.linkTrained m0 m1)

end Sys2Proof.Machine
end

