-- ==== Sys2Proof/Machine/SecurityUnit.lean ====
section
/-! DEFINITION. Entropy, tenant removal and trace failures as commands (spec 14: R439, R440, R457 to R460; spec 18: R520). -/

namespace Sys2Proof.Machine

namespace Device

/-! ### Entropy (R439, R440, R520) -/

def modSecurity (d : Device) (f : Security → Security) : Device := { d with sec := f d.sec }
/-- The DRBG draws a seed. -/
def seed (d : Device) : Device :=
  d.modSecurity fun s => { s with seeded := true, seedNum := s.seedNum + 1, seedAt := d.now, drbgReqs := 0 }
/-- A Paddock that waited for the entropy source takes its keys, and its channels train (R520). -/
def lateKeys (d : Device) (p : Nat) : Device :=
  let d := if (d.pdkSec p).intakeKey = 0 then d.newIntake p else d
  if (d.pdkSec p).memKey ≠ 0 then d
  else
    let d := d.newMemKey p
    (d.chansOf p).foldl (fun d n => (d.modChan n fun k => { k with written := none, copy := none }).beginTraining n) d
/-- A sample passes or fails the health tests. -/
def entropySample (pass : Bool) (d : Device) : Device :=
  if !d.boot.released then d
  else if !pass then
    let s := d.sec
    let d := d.modSecurity fun s => { s with entFail := true, goodRun := 0, failCnt := satNat 16 (s.failCnt + 1) }
    if s.entFail then d else d.platform 0x0604
  else if !d.sec.entFail then d
  else
    let d := d.modSecurity fun s => { s with goodRun := s.goodRun + 1 }
    if d.sec.goodRun < 1024 then d
    else
      let d := (d.modSecurity fun s => { s with entFail := false, goodRun := 0 }).seed
      if 6 ≤ d.boot.stage ∧ d.boot.stage ≠ 9 then d.pdksPresent.foldl lateKeys d else d
/-- The DRBG draws a new seed after 2^20 requests or 1 s. -/
def reseed (d : Device) : Device :=
  if d.sec.entFail || !(decide (2 ^ 20 ≤ d.sec.drbgReqs) || decide (d.sec.seedAt + 1000000000 ≤ d.now)) then d else d.seed

/-! ### Tenant removal (R443, R458, R459) -/

/-- The drain has ended or is cut off: keys are retired and new ones installed. FUSED keys first program the key record; a flash
that refuses leaves the Paddock out of service. -/
def removalRetire (p : Nat) (flash : FlashStatus) (d : Device) : Device :=
  let x := d.pdkSec p
  if !(x.phase == .fenced || x.phase == .pending) || d.glb.devState != 1 || d.removalBarred p then d
  else
    let d := d.dropTraffic p
    if !x.layout.session && flash != .ok then
      (d.modPdkSec p fun x => { x with phase := .none, newLayout := none }).outOfService p
    else
      let d := if x.layout.session then d else d.modPdkSec p fun x => { x with kgen := x.kgen + 1 }
      ((d.newMemKey p).newIntake p).modPdkSec p fun x => { x with phase := .retiring }
/-- A slice after the scrub: its controls and remap table stay. -/
def scrubbedSlice (s : Slice) : Slice := { clearedSlice s with patrol := s.patrol, audit := s.audit }
/-- The Drover's accounts, semaphores and steps after the scrub. -/
def scrubbedDrover (k : Pdk) : Pdk :=
  { k with
    shares := Table.mapAll k.shares Share.reset fun s => { s with acct := 0 }
    sems := [], stepEn := false, stepNum := 0, lastN := 0, lastFg := 0, late := 0, closed := none, inStep := none, stepDue := none
    hangJobs := [], idle := 0 }
/-- The Paddock's state is scrubbed to zero. -/
def removalScrub (p : Nat) (d : Device) : Device :=
  if (d.pdkSec p).phase ≠ .retiring then d
  else
    let d := (d.coresOf p).foldl (fun d c =>
      let d := (d.setCore c Core.reset).setSlice c (scrubbedSlice (d.slice c))
      { d with saved := Table.erase d.saved c }) d
    let d := ((d.modPdk p scrubbedDrover).dropAtc p).freeWindows p
    let d := Table.foldl d.queues (fun d n o => if o.q.paddock == p then d.modOutQueue n fun o => { o with watch := none } else d) d
    { d.modPdkSec p fun x => { x with phase := .scrubbing } with
      segs := Table.keep d.segs fun k _ => k / 256 != p
      power := { d.power with
        phases := Table.keep d.power.phases fun _ e => e.pdk != p, defaults := Table.erase d.power.defaults p } }
/-- Fences and sequences of the Paddock are destroyed. -/
def killSync (d : Device) (p : Nat) : Device :=
  let d := Table.foldl d.fences (fun d i f =>
    if f.used && f.paddock == p then d.setFence i { Fence.reset with gen := f.gen + 1 } else d) d
  Table.foldl d.seqs (fun d i q =>
    if q.state != .free && q.paddock == p then d.setSeq i { Seq.reset with gen := q.gen + 1 } else d) d
/-- Queues of the Paddock are as before their first bind. -/
def forgetQueues (d : Device) (p : Nat) : Device :=
  Table.foldl d.queues (fun d n o =>
    if o.q.paddock == p || (d.stallsOf p).any (fun s => (d.stall s).queue == n) then
      (d.emit (.queueEntry n 0 false)).setOutQueue n OutQueue.reset
    else d) d
/-- Channels follow the layout: those that no Paddock owns rest, those that one gained train. -/
def settleChans (d : Device) : Device :=
  (List.range 16).foldl (fun d n =>
    match d.pdkOfChan n with
    | none => d.modChan n fun k => if k.state = .active then { k with state := .selfRefresh } else k
    | some p => if (d.pdk p).rst = .running then d.beginTraining n else d) d
/-- A slot audit needs a Paddock that is not confidential and open to debug (R227). -/
def auditRule (d : Device) (p : Nat) : Device :=
  if (d.layout p).debugOpen && !d.confidential p then d
  else (d.coresOf p).foldl (fun d c => d.modSlice c fun s => { s with audit := false }) d
/-- The scrub is complete: the Paddock is empty, in its new form where a layout write gave one. -/
def removalEnd (p : Nat) (d : Device) : Device :=
  let x := d.pdkSec p
  if x.phase ≠ .scrubbing then d
  else
    let d := (((d.killObjs p fun _ => true).killSync p).forgetQueues p).freeStalls p
    let d := d.modPdkSec p fun x => { x with
      phase := .none, layout := x.newLayout.getD x.layout, newLayout := none, rmvCnt := satInc x.rmvCnt, rmvTally := d.now }
    let d := d.modPdk p fun k => { k with
      inc := k.inc + 1, memLost := k.memLost && x.newLayout.isNone
      rst := if k.rst = .outOfService && x.newLayout.isNone then .outOfService else .running }
    let d := ((d.dropSessions p).settleChans).auditRule p
    let d := if d.pdkPresent p then d.openSessions p else d
    d.postDev (d.pdkEvent p 6 0x0605)

/-- A trace ring write fails translation (R457). -/
def traceFails (p : Nat) (d : Device) : Device :=
  if (d.pdkSec p).trace.en then
    d.modPdkSec p fun x => { x with trace := { x.trace with en := false, lost := x.trace.lost + 1 } }
  else d

end Device

/-- ENTROPY_SAMPLE (R440). -/
def execEntropySample (pass : Bool) (s : State) : Res0 := done s (Device.entropySample pass)
/-- DRBG_RESEED (R439). -/
def execDrbgReseed (s : State) : Res0 := done s Device.reseed
/-- TENANT_REMOVE_REQUEST (R458). -/
def execTenantRemoveRequest (pdk : Nat) (s : State) : Res0 := onUnit 6 pdk s fun d => d.requestRemoval pdk
/-- REMOVAL_RETIRE (R443, R458). -/
def execRemovalRetire (pdk : Nat) (flash : FlashStatus) (s : State) : Res0 := onUnit 6 pdk s (Device.removalRetire pdk flash)
/-- REMOVAL_SCRUB (R459). -/
def execRemovalScrub (pdk : Nat) (s : State) : Res0 := onUnit 6 pdk s (Device.removalScrub pdk)
/-- REMOVAL_END (R458). -/
def execRemovalEnd (pdk : Nat) (s : State) : Res0 := onUnit 6 pdk s (Device.removalEnd pdk)
/-- TRACE_WRITE_FAIL (R457). -/
def execTraceWriteFail (pdk : Nat) (s : State) : Res0 := onUnit 6 pdk s (Device.traceFails pdk)

end Sys2Proof.Machine
end

