-- ==== Sys2Proof/Machine/DictUnit.lean ====
section
/-! DEFINITION. The writes of the dictionary's objects, and SNAPSHOT (spec 16: R492 to R497; spec 14: R434, R435, R450; spec 13: R412,
R432; spec 17: R503, R508). -/

namespace Sys2Proof.Machine

namespace Device

/-! ### Layout (R434, R435, R479, Table 18.7) -/

/-- One entry of a LAYOUT value; PRESENT and KGEN are ignored, and emptied masks make the Paddock absent. -/
def layoutOf (w : W64) : Layout :=
  if bits w 5 0 = 0 ∧ bits w 15 8 = 0 then Layout.reset
  else { corePairs := BitVec.ofNat 6 (bits w 5 0), chanPairs := BitVec.ofNat 8 (bits w 15 8), confidential := bit w 16,
         session := bit w 17, debugOpen := bit w 18, present := true }
/-- Channel pairs that hold a FAILED channel. -/
def failedPairs (d : Device) : BitVec 8 :=
  BitVec.ofNat 8 (bitsOf (fun j => (d.chan (2 * j)).state == .failed || (d.chan (2 * j + 1)).state == .failed) 8)
/-- A Paddock's entry obeys R434, R441 and R453. -/
def entryOk (d : Device) (p : Nat) (l : Layout) : Bool :=
  !l.present || (decide (p < d.maxPdks) && l.corePairs != 0 && l.chanPairs != 0 && l.corePairs &&& ~~~ d.pairsInUse == 0 &&
    l.chanPairs &&& d.failedPairs == 0 && !(l.confidential && l.debugOpen) && !(l.debugOpen && d.fuse.debugLock) &&
    (if l.session then d.fuse.ksSession else d.fuse.ksFused))
/-- No pair belongs to two Paddocks. -/
def disjoint (ls : List Layout) : Bool :=
  (List.range 6).all fun p => (List.range p).all fun q =>
    (ls.getD p Layout.reset).corePairs &&& (ls.getD q Layout.reset).corePairs == 0 &&
    (ls.getD p Layout.reset).chanPairs &&& (ls.getD q Layout.reset).chanPairs == 0
/-- The write takes Paddock `p` through a removal: its pairs, mode or key source change, or it is out of service and named. -/
def layoutChanges (d : Device) (p : Nat) (l : Layout) : Bool :=
  let o := d.layout p
  o.present != l.present || (l.present && (o.corePairs != l.corePairs || o.chanPairs != l.chanPairs || o.confidential != l.confidential ||
    o.session != l.session || (d.pdk p).rst == .outOfService))
/-- A layout write or a tenant removal is in progress. -/
def layoutBusy (d : Device) : Bool :=
  (List.range 6).any fun p => (d.pdkSec p).phase != .none || (d.pdkSec p).rmvWaits || (d.pdkSec p).newLayout.isSome
/-- Paddock `p` takes its entry: by a removal, or its debug setting at once. -/
def takeEntry (d : Device) (p : Nat) (l : Layout) : Device :=
  let d := d.modPdk p fun k => { k with memLost := false }
  if d.layoutChanges p l then
    let d := d.modPdkSec p fun x => { x with newLayout := some l }
    if d.pdkPresent p then d.requestRemoval p
    else d.modPdkSec p fun x => { x with phase := if d.glb.devState = 2 then .pending else .fenced }
  else (d.modPdkSec p fun x => { x with layout := { x.layout with debugOpen := l.debugOpen } }).auditRule p
def applyLayout (r : DzRequest) (b : List Byte) (d : Device) : Written :=
  let ws := (List.range 6).map fun p => BitVec.ofNat 64 (ofBytes ((b.drop (8 * p)).take 8))
  let ls := ws.map layoutOf
  let at_ := fun p => ls.getD p Layout.reset
  if ws.any fun w => bits w 7 6 ≠ 0 || bits w 31 20 ≠ 0 then .inr BAD_FIELD
  else if !disjoint ls || (List.range 6).any fun p => !d.entryOk p (at_ p) then .inr BAD_FIELD
  else if d.glb.devState = 0 ∨ d.layoutBusy = true then .inr BUSY
  else if d.sec.entFail && (List.range 6).any fun p => d.layoutChanges p (at_ p) && (at_ p).session then .inr 0x0604
  else inFlash r (.inl ((List.range 6).foldl (fun d p => d.takeEntry p (at_ p)) d))

/-! ### Channels, power, memory of settings (Tables 16.5, 16.6, 16.8, 16.10) -/

/-- CHAN_ON(n): OFF, or training again (R276). -/
def applyChanOn (r : DzRequest) (n : Nat) (b : List Byte) (d : Device) : Written :=
  if ofBytes b = 0 then
    if (d.pdkOfChan n).isSome then .inr BUSY
    else inFlash r (.inl ((d.modDict fun x => { x with chanOff := n :: x.chanOff.filter (· != n) }).modChan n fun k =>
      if k.state = .failed then k else { k with state := .off }))
  else
    let was := d.dict.chanOff.contains n
    let d := d.modDict fun x => { x with chanOff := x.chanOff.filter (· != n) }
    inFlash r (.inl (if was && (d.chan n).state == .off && decide (7 ≤ d.boot.stage) then d.beginTraining n else d))
/-- CAP_SET: 5 W to the fused cap (R412). -/
def applyCap (r : DzRequest) (b : List Byte) (d : Device) : Written :=
  let v := ofBytes b
  if v < 5 ∨ fusedWatts d.fuse < v then .inr BAD_FIELD else inFlash r (.inl (d.modPower fun w => { w with capSet := v }))
/-- PWR_CTL: an LPDK that does not exist is ignored (R432); COMMON is as R529 gives from the moment LOCKSTEP is set. -/
def applyPwrCtl (r : DzRequest) (b : List Byte) (d : Device) : Written :=
  let v := BitVec.ofNat 32 (ofBytes b)
  if 2 ≤ pcMode v ∨ pcGrazeMax v = 0 ∨ 1000 < pcGrazeMax v then .inr BAD_FIELD
  else if !d.pdkPresent (pcLpdk v) then .inl d
  else
    let d := d.modPower fun w =>
      let free := w.maxStep == pcMaxStep w.ctl
      let on := w.commonOn && pcLockstep v && pcLockstep w.ctl
      { w with
        ctl := v, maxStep := if free then pcMaxStep v else min w.maxStep (pcMaxStep v)
        commonOn := on, common := if on then w.common else 15, lag := w.lag && on, lockRaise := if on then w.lockRaise else none
        lockLower := if on then w.lockLower else none }
    inFlash r (.inl (if pcGraze v then d else d.stopGrazing))
/-- YRD_CTL of core c; AUDIT only where R227 permits it, and not kept in the flash. -/
def applyYardCtl (c : Nat) (b : List Byte) (d : Device) : Written :=
  let v := BitVec.ofNat 32 (ofBytes b)
  if bits v 31 2 ≠ 0 then .inr BAD_FIELD
  else if !d.corePresent c then .inr BAD_FIELD
  else
    let ok := match d.pdkOfCore c with
      | some p => (d.layout p).debugOpen && !d.confidential p
      | none => false
    .inl (d.modSlice c fun s => { s with patrol := bit v 0, audit := bit v 1 && ok })

/-! ### Links (Table 16.9, R390, R403, R497) -/

/-- NBR(i): 32 bytes, reserved bits zero. -/
def applyNbr (r : DzRequest) (i : Nat) (b : List Byte) (d : Device) : Written :=
  let w := fun k => BitVec.ofNat 64 (ofBytes ((b.drop (8 * k)).take 8))
  if bits (w 0) 63 50 ≠ 0 ∨ bits (w 1) 63 32 ≠ 0 then .inr BAD_FIELD
  else
    let n : Neighbour := { mac := BitVec.ofNat 48 (bits (w 0) 47 0), valid := bit (w 0) 48, v6 := bit (w 0) 49,
                           ip4 := BitVec.ofNat 32 (bits (w 1) 31 0), ip6 := BitVec.ofNat 128 (ofBytes (b.drop 16)) }
    inFlash r (.inl { d with links := { d.links with nbrs := Table.set d.links.nbrs Neighbour.reset i n } })
/-- ROUTE of address a; sessions whose route it makes reachable open (Table 12.4). -/
def applyRoute (r : DzRequest) (a : Nat) (b : List Byte) (d : Device) : Written :=
  let v := BitVec.ofNat 8 (ofBytes b)
  if bits v 1 0 = 3 ∨ (bits v 1 0 ≠ 0 ∧ !(Table.get d.links.nbrs Neighbour.reset (bits v 7 2)).valid) then .inr BAD_FIELD
  else
    let d := { d with links := { d.links with routes := Table.set d.links.routes 0 a v } }
    inFlash r (.inl ((List.range 64).foldl (fun d k => if (d.binding k).peer.toNat == a then d.sessionOpen k else d) d))
/-- A binding that is cleared or disabled: its session goes DOWN. -/
def clearBinding (d : Device) (k : Nat) (code : Code) : Device := (d.sessionDown k code).modBinding k fun x => { x with valid := false }
/-- TRUST(i): bindings of confidential Paddocks to an address that leaves the table are disabled. -/
def applyTrust (r : DzRequest) (i : Nat) (b : List Byte) (d : Device) : Written :=
  let v := ofBytes b
  if 2 ^ 17 ≤ v then .inr BAD_FIELD
  else
    let d := { d with links := { d.links with trust := Table.set d.links.trust 0 i (BitVec.ofNat 17 v) } }
    inFlash r (.inl ((List.range 64).foldl (fun d k =>
      let x := d.binding k
      if x.valid && d.confidential x.pdk && !d.trusted x.peer.toNat then d.clearBinding k 0x0405 else d) d))
/-- Credits that the other valid bindings hold. -/
def otherCredits (d : Device) (k : Nat) : Nat :=
  ((List.range 64).map fun j => if j != k && (d.binding j).valid then (d.binding j).credits else 0).foldl (· + ·) 0
/-- BIND(k). -/
def applyBind (r : DzRequest) (k : Nat) (b : List Byte) (d : Device) : Written :=
  let w := BitVec.ofNat 64 (ofBytes b)
  let x := d.binding k
  let n : Binding := { Binding.reset with
    valid := bit w 0, pdk := bits w 3 1, peerPdk := bits w 6 4, peer := BitVec.ofNat 16 (bits w 23 8), credits := bits w 33 24 }
  let same := n.pdk == x.pdk && n.peerPdk == x.peerPdk && n.peer == x.peer && n.credits == x.credits
  let twice := (List.range 64).any fun j => j != k && (d.binding j).valid && (d.binding j).pdk == n.pdk && (d.binding j).peer == n.peer
  if bit w 7 || bits w 63 52 ≠ 0 then .inr BAD_FIELD
  else if n.valid && (n.credits == 0 || decide (512 < n.credits + d.otherCredits k) || !d.pdkPresent n.pdk || n.peer == 0 ||
      n.peer == 0xFFFF || n.peer == d.links.addr || twice) then .inr BAD_FIELD
  else if x.valid && !same then .inr BUSY
  else if n.valid && d.confidential n.pdk && !d.trusted n.peer.toNat then .inr 0x0405
  else if x.valid && n.valid then inFlash r (.inl d)
  else if x.valid then inFlash r (.inl (d.clearBinding k 0x0406))
  else inFlash r (.inl ((d.setBinding k n).sessionOpen k))

/-! ### Security and reliability (Tables 16.7, 16.8) -/

/-- OP_ROOT(r): an empty value removes it. -/
def applyRoot (q : DzRequest) (parses : Bool) (s : Nat) (b : List Byte) (d : Device) : Written :=
  if 2048 < b.length || (!b.isEmpty && !parses) then .inr BAD_FIELD
  else inFlash q (.inl (d.modDict fun x => { x with roots := Table.set x.roots [] s b }))
/-- The header is a Faesk header: its tag passes, and MAGIC, VERSION and the reserved fields are as Table 14.6 gives. -/
def faesk (u : BundleUnwrap) : Bool :=
  let h := u.header
  let zero := fun i n => ((h.drop i).take n).all (· == 0)
  u.tagOk && h.length == 512 && ofBytes (h.take 4) == 0x4B534546 && ofBytes ((h.drop 4).take 2) == 1 && zero 40 24 && zero 448 48 &&
    (List.range 16).all fun n => zero (65 + 24 * n) 7
/-- BUNDLE_REL(4p + s): the release of a bundle key, or an unload (R450). -/
def applyBundle (u : BundleUnwrap) (k i : Nat) (b : List Byte) (d : Device) : Written :=
  let p := i / 4
  let s := i % 4
  let num := fun a n => ofBytes ((b.drop a).take n)
  let slot := Table.get (d.pdkSec p).bundles Bundle.reset s
  let put := fun (d : Device) (x : Bundle) => d.modPdkSec p fun y => { y with bundles := Table.set y.bundles Bundle.reset s x }
  let fresh := match (d.sess k).measured.bind d.wallTime, d.wallTime d.now with
    | some t, some u => decide (u ≤ t + 60000000000)
    | _, _ => false
  if num 173 3 ≠ 0 ∨ 2 ^ 20 ≤ num 0 4 ∨ !d.pdkPresent p then .inr BAD_FIELD
  else if num 133 40 = 0 then .inl (put d Bundle.reset)
  else if !fresh then .inr 0x0601
  else
    let host := match d.objOfDva (num 0 4) (num 4 8) (num 12 8) with
      | some o => (d.obj o).space == .host
      | none => false
    if slot.installed || !host then .inr BAD_FIELD
    else if !u.keyOk || (d.pdkSec p).intakeKey == 0 || !faesk u then .inr 0x0603
    else
      let key := d.sec.keyCount + 1
      let d := d.modSecurity fun x => { x with keyCount := key }
      .inl (put d { installed := true, context := num 0 4, dva := num 4 8, length := num 12 8, id := BitVec.ofNat 128 (num 20 16),
                    header := u.header, key := key })
/-- REMOVE(p). -/
def applyRemove (p : Nat) (b : List Byte) (d : Device) : Written :=
  if ofBytes b = 0 then .inl d
  else if !d.pdkPresent p then .inr BAD_FIELD
  else if d.removalBarred p then .inr 0x0604
  else .inl (d.requestRemoval p)
/-- PDK_RESET(p); refused until READY at a cold start (R521). -/
def applyPdkReset (p : Nat) (b : List Byte) (d : Device) : Written :=
  if ofBytes b ≠ 0 ∧ !d.pdkPresent p then .inr BAD_FIELD
  else if d.glb.devState = 0 then .inr BUSY
  else if ofBytes b = 0 then .inl d
  else .inl (d.requestReset p 0x0701)
/-- DEV_RESET. -/
def applyDevReset (b : List Byte) (d : Device) : Written :=
  if ofBytes b ≠ 0x0B60 then .inr BAD_FIELD else if d.glb.devState = 0 then .inr BUSY else .inl (d.requestDevReset 0x070F)
/-- The counter set that slot `slot` names is sampled at this Tally value, where the slot is due (R496). -/
def snapFired (d : Device) (slot : Nat) : Device :=
  if (d.firesAt (d.alarm slot)).isNone || (d.alarm slot).kind != 5 then d
  else
    let n := (d.alarm slot).target
    let x := Table.get d.dict.snaps Snap.reset n
    let l := ((List.range 12).filter fun c => bit x.cores c).flatMap fun c => d.groupWords x.groups c
    (d.fired slot).modDict fun y => { y with snaps := Table.set y.snaps Snap.reset n { x with lastTally := d.now, last := l } }
/-- A SNAPSHOT alarm fires. -/
def snapshot (slot : Nat) (d : Device) : Device := if d.fires slot 5 then d.snapFired slot else d
/-- SNAP_SET(n): the set's alarm slot is armed, or disarmed (R496). A firing that is due comes first (R41). -/
def applySnap (r : DzRequest) (n : Nat) (b : List Byte) (d : Device) : Written :=
  let period := ofBytes (b.take 4)
  let cores := BitVec.ofNat 16 (ofBytes ((b.drop 4).take 2))
  let groups := BitVec.ofNat 8 (ofBytes ((b.drop 6).take 1))
  let x := Table.get d.dict.snaps Snap.reset n
  let put := fun (d : Device) (slot : Option Nat) => d.modDict fun y => { y with
    snaps := Table.set y.snaps Snap.reset n { x with period := period, cores := cores, groups := groups, slot := slot } }
  let absent := (List.range 16).any fun c => bit cores c && !d.corePresent c
  if (b.drop 7).any (· != 0) || bits groups 7 4 ≠ 0 || absent || decide (4294967 < period) then .inr BAD_FIELD
  else if period = 0 then
    inFlash r (.inl (put (match x.slot with | some k => d.freeAlarm k | none => d) none))
  else match x.slot.orElse fun _ => d.freeSlot 7 with
    | none => .inr NO_SLOT
    | some k =>
      let d := d.snapFired k
      let x := Table.get d.dict.snaps Snap.reset n
      let put := fun (d : Device) (slot : Option Nat) => d.modDict fun y => { y with
        snaps := Table.set y.snaps Snap.reset n { x with period := period, cores := cores, groups := groups, slot := slot } }
      inFlash r (.inl (put (d.armSlot k 7 5 n (d.now + period * 1000) (period * 1000)) (some k)))
/-! ### Firmware (Table 16.10, R503, R508) -/

/-- A selector block or a block of the inactive slot is erased. -/
def eraseNow (d : Device) (b : Nat) : Device :=
  let p := physBlock d.flash b
  (d.modFlash fun f => { f with
    erased := Table.set f.erased 0 p (BitVec.allOnes 1024), units := Table.keep f.units fun u _ => u / 1024 != p
    erases := Table.set f.erases 0 p (Table.get f.erases 0 p + 1), marked := f.marked.filter (· != b) }).emit (.flashErase b)
/-- The units of bytes `o` to `o + n - 1` of a slot, counted from its first unit. -/
def stagedUnits (o n : Nat) : List Nat := (List.range ((o + n + 63) / 64 - o / 64)).map (o / 64 + ·)
/-- A unit's bit of the erased map. -/
def unitErased (f : Flash) (u : Nat) : Bool := (Table.get f.erased 0 (physBlock f (u / 1024))).getLsbD (u % 1024)
/-- One unit of a chunk is programmed. -/
def programNow (d : Device) (u : Nat) (b : List Byte) : Device :=
  (d.modFlash fun f =>
    let p := physBlock f (u / 1024)
    { f with
      erased := Table.set f.erased 0 p (Table.get f.erased 0 p &&& ~~~ unitMask (u % 1024) 1)
      units := Table.put f.units (p * 1024 + u % 1024) b }).emit (.flashProgram u b)
/-- A chunk of an image lands in the inactive slot: each block is erased before its first chunk, and a unit whose bit is clear refuses
the chunk. -/
def stageChunk (r : DzRequest) (d : Device) : Written :=
  let base := imageUnit (1 - d.flash.active)
  let us := stagedUnits r.offset r.data.length
  let fresh := us.filter fun u => u % 1024 == 0 && decide (r.offset ≤ 64 * u)
  let d := fresh.foldl (fun d u => d.eraseNow ((base + u) / 1024)) d
  let d := d.modFlash fun f => { f with imageOk := Table.set f.imageOk false (1 - f.active) false }
  if us.any (fun u => !unitErased d.flash (base + u)) || r.flash == .notErased then .inr 0x0901
  else inFlash r (.inl (us.foldl (fun d u =>
    let skip := 64 * u - r.offset
    let lead := r.offset - 64 * u
    let b := List.replicate lead 0xFF ++ (r.data.drop skip).take (64 - lead)
    d.programNow (base + u) (b ++ List.replicate (64 - b.length) 0xFF)) d))
/-- WRITE of STAGE: every chunk is programmed as it comes; a refusal discards the staging. -/
def writeStage (ses : Option Nat) (r : DzRequest) (d : Device) : Device :=
  let i := r.index.toNat
  if i ≠ 0x7002 then d
  else d.dzChecked ses r fun k o own busy =>
    let d := d.unstage k i 0
    if 2 ^ 23 < own.length + r.data.length then d.respond r 2 i 0 o.type BAD_FIELD
    else if busy then d.respond r 2 i 0 o.type BUSY
    else match d.stageChunk r with
      | .inl e => (if r.more then e.stage k i 0 (own ++ r.data) else e).respond r 2 i 0 o.type 0
      | .inr c =>
        let d := if c = 0x0901 then d.modFlash fun f => { f with neCnt := satNat 16 (f.neCnt + 1) } else d
        d.respond r 2 i 0 o.type c
/-- COMMIT: the slot's image is checked, and selected by a record in the other selector block. -/
def applyCommit (r : DzRequest) (imageOk : Bool) (b : List Byte) (d : Device) : Written :=
  let s := ofBytes b
  if 1 < s then .inr BAD_FIELD
  else if s = d.flash.active then .inr BUSY
  else if !imageOk then .inr BAD_FIELD
  else
    let d := d.eraseNow ((d.flash.bootSeq + 1) % 2)
    inFlash r (.inl (d.modFlash fun f => { f with bootSeq := f.bootSeq + 1, bootSlot := s, imageOk := Table.set f.imageOk false s true }))

/-! ### Tally and calendar (Table 16.11) -/

def applySrc (r : DzRequest) (b : List Byte) (d : Device) : Written :=
  let v := ofBytes b
  if 2 < v then .inr BAD_FIELD else if v = 0 ∧ d.tally.hz = 0 then .inr BUSY else inFlash r (.inl (d.setSource v))
def applyTcHz (r : DzRequest) (b : List Byte) (d : Device) : Written :=
  let v := ofBytes b
  if v < 1000000 ∨ 200000000 < v then .inr BAD_FIELD else inFlash r (.inl (d.setTcHz v))
def applyCal (b : List Byte) (d : Device) : Written := .inl (d.setCalendar (ofBytes b % 2 ^ 63))

/-! ### The other objects -/

/-- Indices whose writes have rows of their own. -/
def ownRow (i : Nat) : Bool :=
  [0x2000, 0x2002, 0x3000, 0x4001, 0x4010, 0x4020, 0x4030, 0x5001, 0x5002, 0x5030, 0x6040, 0x7002, 0x7003, 0x8000, 0x8001, 0x8004].contains i ||
    (decide (0x6100 ≤ i) && decide (i < 0x6200))
/-- Writes without a row of their own. -/
def applyOther (r : DzRequest) (i s : Nat) (b : List Byte) (d : Device) : Written :=
  let v := ofBytes b
  let keep := fun (ok : Bool) (e : Device) => if ok then inFlash r (.inl e) else (.inr BAD_FIELD : Written)
  match i with
  | 0x2003 => applyYardCtl s b d
  | 0x2004 => keep (decide (1 ≤ v) && decide (v ≤ 60000)) (d.modDict fun x => { x with prTimeout := v })
  | 0x3001 => applyPwrCtl r b d
  | 0x3002 => keep (decide (70 ≤ v) && decide (v ≤ 105)) (d.modPower fun w => { w with thermWarn := v })
  | 0x5000 => keep (v == 0 || (decide (10 ≤ v) && decide (v ≤ 60000))) { d with resets := { d.resets with hangMs := v } }
  | 0x6000 =>
    if (List.range 64).any fun k => (d.binding k).valid then .inr BUSY
    else keep true { d with links := { d.links with addr := BitVec.ofNat 16 v } }
  | 0x6001 =>
    let w := BitVec.ofNat 32 v
    keep (!bit w 7 && bits w 15 14 == 0 && decide (1 ≤ bits w 31 16) && decide (bits w 31 16 ≤ 60000))
      { d with links := { d.links with ctl := w } }
  | 0x6002 => keep true { d with links := { d.links with dport := BitVec.ofNat 16 v } }
  | 0x6004 => keep true (d.modPort s fun p => { p with ip4 := BitVec.ofNat 32 v })
  | 0x6005 => keep true (d.modPort s fun p => { p with ip6 := BitVec.ofNat 128 v })
  | 0x6006 => keep (decide (v < 2 ^ 13)) (d.modPort s fun p => { p with vid := BitVec.ofNat 32 v })
  | 0x6080 => applyNbr r s b d
  | 0x7011 => keep true (d.modDict fun x => { x with ceThresh := some v })
  | 0x8002 => keep true (d.modTally fun t => { t with ptpDomain := BitVec.ofNat 8 v })
  | 0x8003 => keep true (d.modTally fun t => { t with ptpTx := decide (v = 1) })
  | _ => .inr ACCESS

end Device

/-- SNAPSHOT (R496). -/
def execSnapshot (slot : Nat) (s : State) : Res0 := onUnit 256 slot s (Device.snapshot slot)

/-- A request of session `ses` of 4, or of none. -/
def onSess (ses : Option Nat) (s : State) (f : Device → Device) : Res0 := if ses.all (decide <| · < 4) then done s f else .fault .absentUnit

/-- DZIENT_READ (R491). -/
def execDzientRead (ses : Option Nat) (r : DzRequest) (s : State) : Res0 := onSess ses s (Device.dzRead ses r)
/-- DZIENT_NEXT (R491). -/
def execDzientNext (ses : Option Nat) (r : DzRequest) (s : State) : Res0 := onSess ses s (Device.dzNext ses r)
/-- DZIENT_WRITE of an object whose write has no row of its own (R493 to R495). -/
def execDzientWrite (ses : Option Nat) (r : DzRequest) (s : State) : Res0 :=
  onSess ses s (Device.dzWrite (!Device.ownRow ·) (fun _ i n b d => Device.applyOther r i n b d) ses r)
/-- LAYOUT_WRITE (R434, R435). -/
def execLayoutWrite (ses : Option Nat) (r : DzRequest) (s : State) : Res0 :=
  onSess ses s (Device.dzWrite (· == 0x2000) (fun _ _ _ b d => Device.applyLayout r b d) ses r)
/-- CHAN_ON_WRITE (R276). -/
def execChanOnWrite (ses : Option Nat) (r : DzRequest) (s : State) : Res0 :=
  onSess ses s (Device.dzWrite (· == 0x2002) (fun _ _ n b d => Device.applyChanOn r n b d) ses r)
/-- CAP_SET_WRITE (R412). -/
def execCapSetWrite (ses : Option Nat) (r : DzRequest) (s : State) : Res0 :=
  onSess ses s (Device.dzWrite (· == 0x3000) (fun _ _ _ b d => Device.applyCap r b d) ses r)
/-- OP_ROOT_WRITE (R490). -/
def execOpRootWrite (ses : Option Nat) (r : DzRequest) (parses : Bool) (s : State) : Res0 :=
  onSess ses s (Device.dzWrite (· == 0x4001) (fun _ _ n b d => Device.applyRoot r parses n b d) ses r)
/-- TRUST_WRITE (R403). -/
def execTrustWrite (ses : Option Nat) (r : DzRequest) (s : State) : Res0 :=
  onSess ses s (Device.dzWrite (· == 0x4010) (fun _ _ n b d => Device.applyTrust r n b d) ses r)
/-- BUNDLE_RELEASE (R450). -/
def execBundleRelease (ses : Option Nat) (r : DzRequest) (u : BundleUnwrap) (s : State) : Res0 :=
  onSess ses s (Device.dzWrite (· == 0x4020) (fun k _ n b d => Device.applyBundle u k n b d) ses r)
/-- REMOVE_WRITE (R458). -/
def execRemoveWrite (ses : Option Nat) (r : DzRequest) (s : State) : Res0 :=
  onSess ses s (Device.dzWrite (· == 0x4030) (fun _ _ n b d => Device.applyRemove n b d) ses r)
/-- PDK_RESET_WRITE (R469). -/
def execPdkResetWrite (ses : Option Nat) (r : DzRequest) (s : State) : Res0 :=
  onSess ses s (Device.dzWrite (· == 0x5001) (fun _ _ n b d => Device.applyPdkReset n b d) ses r)
/-- DEV_RESET_WRITE (R469). -/
def execDevResetWrite (ses : Option Nat) (r : DzRequest) (s : State) : Res0 :=
  onSess ses s (Device.dzWrite (· == 0x5002) (fun _ _ _ b d => Device.applyDevReset b d) ses r)
/-- SNAP_SET_WRITE (R496). -/
def execSnapSetWrite (ses : Option Nat) (r : DzRequest) (s : State) : Res0 :=
  onSess ses s (Device.dzWrite (· == 0x5030) (fun _ _ n b d => Device.applySnap r n b d) ses r)
/-- BIND_WRITE (R390, R403, R497). -/
def execBindWrite (ses : Option Nat) (r : DzRequest) (s : State) : Res0 :=
  onSess ses s (Device.dzWrite (· == 0x6040) (fun _ _ n b d => Device.applyBind r n b d) ses r)
/-- ROUTE_WRITE (R388). -/
def execRouteWrite (ses : Option Nat) (r : DzRequest) (s : State) : Res0 :=
  onSess ses s (Device.dzWrite (fun i => decide (0x6100 ≤ i) && decide (i < 0x6200))
    (fun _ i n b d => Device.applyRoute r (256 * (i - 0x6100) + n) b d) ses r)
/-- STAGE_WRITE (R504, R508). -/
def execStageWrite (ses : Option Nat) (r : DzRequest) (s : State) : Res0 := onSess ses s (Device.writeStage ses r)
/-- COMMIT (R503). -/
def execCommit (ses : Option Nat) (r : DzRequest) (imageOk : Bool) (s : State) : Res0 :=
  onSess ses s (Device.dzWrite (· == 0x7003) (fun _ _ _ b d => Device.applyCommit r imageOk b d) ses r)
/-- SRC_WRITE (R31, Table 16.11). -/
def execSrcWrite (ses : Option Nat) (r : DzRequest) (s : State) : Res0 :=
  onSess ses s (Device.dzWrite (· == 0x8000) (fun _ _ _ b d => Device.applySrc r b d) ses r)
/-- TC_HZ_WRITE (R29). -/
def execTcHzWrite (ses : Option Nat) (r : DzRequest) (s : State) : Res0 :=
  onSess ses s (Device.dzWrite (· == 0x8001) (fun _ _ _ b d => Device.applyTcHz r b d) ses r)
/-- CAL_SET (R46). -/
def execCalSet (ses : Option Nat) (r : DzRequest) (s : State) : Res0 :=
  onSess ses s (Device.dzWrite (· == 0x8004) (fun _ _ _ b d => Device.applyCal b d) ses r)

end Sys2Proof.Machine
end

