-- ==== Sys2Proof/Machine/LinkUnit.lean ====
section
/-! DEFINITION. The receiving side of the Drove links: frames applied in PSN order, acknowledgements, sessions, forwarding, and
the ports (spec 12: R382 to R405). -/

namespace Sys2Proof.Machine

namespace Device

/-! ### Acknowledgements (R393 to R396) -/

/-- Sequence distance from `a` up to `b` (R392). -/
def psnDist (a b : BitVec 24) : Nat := (b - a).toNat
/-- `a` is at or before `b` in serial order. -/
def psnUpTo (a b : BitVec 24) : Bool := decide (psnDist a b < 2 ^ 23)

/-- Window handle and offset that a frame names. -/
def argHandle (f : DroveFrame) : W32 := f.arg.setWidth 32
def argOff (f : DroveFrame) : Nat := bits f.arg 63 32
def argPsn (f : DroveFrame) : BitVec 24 := f.arg.setWidth 24

/-- The acknowledged frame `u` of a binding: what it carried is kept for a later NAK, and its round trip is averaged. -/
def ackedFrame (d : Device) (b : Nat) (u : Unacked) : Device :=
  let x := d.binding b
  let owner := u.piece.bind fun i => (d.piece i).map (·.owner)
  let acked := match owner with
    | some o => if u.f.type = FrameType.write then (x.acked ++ [(u.psn, o, argHandle u.f, argOff u.f)]) else x.acked
    | none => x.acked
  let trip := d.now - u.first
  let srtt := if u.first ≠ u.last then x.srtt else if x.srtt = 0 then trip else (7 * x.srtt + trip) / 8
  d.setBinding b { x with acked := acked.drop (acked.length - 512), srtt := srtt }
/-- A remote write is complete when every one of its frames has been acknowledged (R399). -/
def writeAcked (d : Device) (b i : Nat) : Device :=
  let x := d.binding b
  match d.piece i with
  | none => d
  | some p =>
    if p.phase = .write && !(x.unacked.any fun u => u.piece == some i) && !(x.owed.any fun y => y.2 == some i) then d.complete i else d
/-- ACKPSN and CRLIM of a received frame: acknowledged frames are freed, and the credits granted are taken. -/
def takeAck (d : Device) (b : Nat) (f : DroveFrame) : Device :=
  let x := d.binding b
  let freed := x.unacked.filter fun u => psnUpTo u.psn f.ackPsn
  let lim := if psnUpTo x.crLim f.crLim then f.crLim else x.crLim
  let d := d.setBinding b { x with unacked := x.unacked.filter fun u => !psnUpTo u.psn f.ackPsn, crLim := lim }
  let d := freed.foldl (fun d u => d.ackedFrame b u) d
  let d := ((freed.filter fun u => u.f.type == .write).filterMap (·.piece)).eraseDups.foldl (fun d i => d.writeAcked b i) d
  d.flushOwed b (d.binding b).owed.length

/-- Resends an unacknowledged frame: its RTO doubles, up to 1 ms (R395). -/
def resendFrame (d : Device) (b : Nat) (u : Unacked) : Device :=
  let d := d.modBinding b fun x => { x with
    unacked := x.unacked.map fun y => if y.psn = u.psn then { y with last := d.now, rto := min 1000000 (2 * y.rto) } else y }
  let d := match d.routePort (d.binding b).peer.toNat with
    | some n => d.modPort n fun p => { p with retx := p.retx + 1 }
    | none => d
  d.sendFrame b u.f

/-- Sends an ACK: the SACK bitmap shows the frames held after the one expected (R394). -/
def sendAck (d : Device) (b : Nat) : Device :=
  let x := d.binding b
  let sack := bitsOf (fun k => x.heldFrames.any fun f => psnDist x.rxExp f.psn == k + 1) 64
  (d.setBinding b { x with ackOwed := false }).sendFrame b { blankFrame .ack with len := 8, payload := toBytes 8 sack }

/-! ### Sequenced frames (R392, R393, R399 to R405) -/

/-- The Paddock is being removed: from its fence to the end of its scrub (R402). -/
def removing (d : Device) (p : Nat) : Bool :=
  match (d.pdkSec p).phase with
  | .fenced => true
  | .retiring => true
  | .scrubbing => true
  | _ => false

/-- Code that refuses an access of a peer, or the slice offset (R224, R402, R403). -/
def remoteCheck (d : Device) (p : Nat) (f : DroveFrame) (write : Bool) : Code ⊕ Nat :=
  if d.removing p then .inl 0x0401
  else if d.confidential p && !d.trusted f.src.toNat then .inl 0x0405
  else d.winCheck p (argHandle f) (argOff f) f.len.toNat write true

/-- A WRITE lands, or a NAK with its code is queued. -/
def applyWrite (d : Device) (b p : Nat) (f : DroveFrame) : Device :=
  match d.remoteCheck p f true with
  | .inl code => d.sendSeq b { blankFrame .nak with code := code, arg := f.psn.setWidth 64 }
  | .inr off => d.landBytes (d.window (256 * p + winSlot (argHandle f))).core off f.payload []
/-- A READ_REQ is answered with the window's bytes, or with a code. -/
def applyRead (d : Device) (b p : Nat) (f : DroveFrame) : Device :=
  let rsp : DroveFrame := { blankFrame .readRsp with arg := f.psn.setWidth 64 }
  match d.remoteCheck p f false with
  | .inl code => d.sendSeq b { rsp with code := code }
  | .inr off =>
    match d.readYard (d.window (256 * p + winSlot (argHandle f))).core 5 off f.len.toNat with
    | (d, .inl bs) => d.sendSeq b { rsp with len := f.len, payload := bs }
    | (d, .inr _) => d.sendSeq b { rsp with code := SPAD_UNCORR }
/-- A READ_RSP brings data for the piece whose READ_REQ it answers, or the code that halts its channel. -/
def applyRsp (d : Device) (b : Nat) (f : DroveFrame) : Device :=
  match (d.binding b).reads.find? fun r => r.1 == argPsn f with
  | none => d
  | some (psn, i) =>
    let d := d.modBinding b fun x => { x with reads := x.reads.filter fun r => r.1 != psn }
    match d.piece i with
    | none => d
    | some p =>
      if f.code ≠ 0 then d.failPiece i f.code p.src
      else
        let bs := p.data ++ f.payload
        if p.len ≤ bs.length then d.gotData i p bs else d.setPiece i { p with data := bs }
/-- A NAK halts the channel that sent the refused frame (R399). -/
def applyNak (d : Device) (b : Nat) (f : DroveFrame) : Device :=
  let x := d.binding b
  match x.unacked.find? fun u => u.psn == argPsn f with
  | some u =>
    (match u.piece with
     | some i => d.failPiece i f.code (.remote x.peer.toNat (argHandle u.f) (argOff u.f))
     | none => d)
  | none =>
    match x.acked.find? fun a => a.1 == argPsn f with
    | some (_, .channel c ch, h, o) => d.haltChannel c ch f.code (locDetail f.code (.remote x.peer.toNat h o))
    | _ => d

/-- The fabric Muster of an ID that a job of Paddock `p` defines with this peer among its members. -/
def fabricRound (d : Device) (p id peer : Nat) : Option (Nat × Job × MusterDef × Round) :=
  d.jobs.findSome? fun kv =>
    if kv.2.paddock ≠ p then none
    else match musterDef kv.2 id, d.roundOf kv.1 id with
      | some m, some r => if m.scope = 2 && m.peers.contains peer then some (kv.1, kv.2, m, r) else none
      | _, _ => none
/-- Step field of a Muster frame (R420). -/
def argStep (f : DroveFrame) : Nat := bits f.arg 20 16
/-- The leader records a member's arrival (R263, R405). -/
def applyArrive (d : Device) (p : Nat) (f : DroveFrame) : Device :=
  let id := bits f.arg 11 0
  match d.fabricRound p id f.src.toNat with
  | none => d
  | some (j, _, m, r) =>
    let peer := f.src.toNat
    let n := BitVec.ofNat 32 (bits f.arg 63 32)
    if d.fabricLeader m ≠ d.links.addr.toNat then d
    else if n = r.round && !r.peers.contains peer then
      (d.setRound { r with peers := r.peers ++ [peer], offers := r.offers ++ [argStep f] }).tryComplete j id
    else if n = r.round + 1 && !r.early.contains peer then
      d.setRound { r with early := r.early ++ [peer], earlyOffers := r.earlyOffers ++ [argStep f] }
    else d
/-- A member takes the release instant and the common step (R264, R405, R421). -/
def applyRelease (d : Device) (p : Nat) (f : DroveFrame) : Device :=
  let id := bits f.arg 11 0
  match d.fabricRound p id f.src.toNat with
  | none => d
  | some (j, _, m, r) =>
    if d.fabricLeader m ≠ f.src.toNat ∨ BitVec.ofNat 32 (bits f.arg 63 32) ≠ r.round then d
    else
      let t := ofBytes (f.payload.take 8)
      let d := if d.lockstepped p then d.takeCommon (argStep f) f.src.toNat t else d
      if t ≤ d.now then d.releaseRound j r
      else (d.setRound { r with deadline := none, releaseAt := some t }).rearmMuster r.paddock

/-- What a sequenced frame does; during a removal only refusals remain (R402). -/
def applyFrame (d : Device) (b : Nat) (f : DroveFrame) : Device :=
  let p := (d.binding b).pdk
  match f.type with
  | .write => d.applyWrite b p f
  | .readReq => d.applyRead b p f
  | .readRsp => if d.removing p then d else d.applyRsp b f
  | .nak => if d.removing p then d else d.applyNak b f
  | .musterArrive => if d.removing p then d else d.applyArrive p f
  | .musterRelease => if d.removing p then d else d.applyRelease p f
  | _ => d
/-- The frame expected is applied, and its receive buffer is free. -/
def applyNext (d : Device) (b : Nat) (f : DroveFrame) : Device :=
  (d.applyFrame b f).modBinding b fun x => { x with rxExp := x.rxExp + 1, granted := x.granted + 1, ackOwed := true }
/-- Every held frame that now follows in order is applied. -/
def applyHeld (d : Device) (b : Nat) : Nat → Device
  | 0 => d
  | n + 1 =>
    match (d.binding b).heldFrames.find? fun f => f.psn == (d.binding b).rxExp with
    | none => d
    | some f => applyHeld ((d.modBinding b fun x => { x with heldFrames := x.heldFrames.filter fun g => g.psn != f.psn }).applyNext b f) b n
/-- A sequenced frame: applied in order, held, or a duplicate (R392, R394). -/
def takeSequenced (d : Device) (b : Nat) (f : DroveFrame) : Device :=
  let x := d.binding b
  let k := psnDist x.rxExp f.psn
  if k = 0 then ((d.applyNext b f).applyHeld b x.heldFrames.length).takeAck b f
  else if k < 2 ^ 23 then
    let d := d.setBinding b { x with heldFrames := if x.heldFrames.any fun g => g.psn == f.psn then x.heldFrames else x.heldFrames ++ [f] }
    (d.takeAck b f).sendAck b
  else (d.takeAck b f).sendAck b

/-! ### Arrival (R383, R385, R387, R391) -/

def dropFrame (d : Device) (n : Nat) : Device := d.modPort n fun p => { p with rxDrop := p.rxDrop + 1 }
/-- The header of a frame is one that R385 lets through. -/
def headerOk (f : DroveFrame) : Bool :=
  f.wellFormed && f.ver == 1 && f.len.toNat % 4 == 0 && decide (f.len.toNat ≤ 4096) &&
  (if f.type = .readReq then f.payload.isEmpty else decide (f.payload.length = f.len.toNat))
/-- A frame of type `t` for this device reaches the session of its Paddocks, which `go` says it acts in; a frame that no binding,
session or incarnation fits is dropped and counted. A frame taken leaves its receive stamp (R43). -/
def arrive (n : Nat) (t : FrameType) (f : DroveFrame) (go : Device → Nat → Device) (d : Device) : Device :=
  if f.type ≠ t ∨ (d.links.addr ≠ 0 ∧ f.dst ≠ d.links.addr) then d
  else
    let d := d.modPort n fun p => { p with rxFrm := p.rxFrm + 1 }
    if d.links.addr = 0 || !headerOk f then d.dropFrame n
    else if (d.pdk f.dpdk.toNat).rst ≠ .running then d
    else match d.bindingTo f.dpdk.toNat f.src.toNat with
      | none => d.dropFrame n
      | some b =>
        let x := d.binding b
        let e := d.setBinding b { x with rxAt := d.now }
        if x.peerPdk ≠ f.spdk.toNat then d.dropFrame n
        else if t = .hello then go e b
        else if x.state ≠ .up ∨ f.inc ≠ x.pinc then d.dropFrame n
        else go e b

/-- A HELLO: it opens the session, or shows that the peer has reset (R391, R392). -/
def takeHello (f : DroveFrame) (d : Device) (b : Nat) : Device :=
  let x := d.binding b
  match x.state with
  | .down => d
  | .opening =>
    if f.arg.setWidth 8 = (d.pdk x.pdk).inc then d.sessionUp b f.inc f.crLim
    else d.setBinding b { x with pinc := f.inc, heard := true }
  | .up =>
    let d := if f.inc = x.pinc then d else (d.clearSession b 0x0404).sessionUp b f.inc f.crLim
    d.sendFrame b { blankFrame .hello with arg := (d.binding b).pinc.setWidth 64 }

/-- An ACK: frames it covers are freed, and those missing below a held one are sent once more (R395). -/
def takeAckFrame (f : DroveFrame) (d : Device) (b : Nat) : Device :=
  let d := d.takeAck b f
  let sack := ofBytes (f.payload.take 8)
  let top := ((List.range 64).filter fun k => sack / 2 ^ k % 2 == 1).foldl max 0
  if sack = 0 then d
  else
    let exp := f.ackPsn + 1
    let missing := (d.binding b).unacked.filter fun u =>
      let k := psnDist exp u.psn
      decide (k < top + 1) && (k == 0 || sack / 2 ^ (k - 1) % 2 == 0)
    missing.foldl (fun d u => d.resendFrame b u) d

/-- A frame for another address passes through, or is dropped and counted (R388, R389). -/
def forward (n : Nat) (f : DroveFrame) (d : Device) : Device :=
  if d.links.addr = 0 ∨ f.dst = d.links.addr then d
  else
    let d := d.modPort n fun p => { p with rxFrm := p.rxFrm + 1 }
    if !headerOk f then d.dropFrame n
    else match d.routePort f.dst.toNat with
      | none => d.modPort n fun p => { p with fwdDrop := p.fwdDrop + 1 }
      | some e =>
        if e = n ∨ f.hops = 0 then d.modPort n fun p => { p with fwdDrop := p.fwdDrop + 1 }
        else if 128 ≤ fwdFill (d.port e) then d.modPort e fun p => { p with fwdDrop := p.fwdDrop + 1 }
        else d.putPort e true { f with hops := f.hops - 1 }

/-! ### Timers and ports -/

/-- In OPENING a session sends a HELLO (R392). -/
def hello (b : Nat) (d : Device) : Device :=
  let x := d.binding b
  if x.valid ∧ x.state = .opening then d.sendFrame b { blankFrame .hello with arg := x.pinc.setWidth 64 } else d
/-- The ACK owed for applied frames goes out (R394). -/
def ackNow (b : Nat) (d : Device) : Device :=
  let x := d.binding b
  if x.state = .up ∧ x.ackOwed then d.sendAck b else d
/-- A frame unacknowledged for RTO is resent (R395). -/
def retransmit (b : Nat) (psn : BitVec 24) (d : Device) : Device :=
  let x := d.binding b
  match x.unacked.find? fun u => u.psn == psn with
  | some u => if x.state = .up ∧ u.last + u.rto ≤ d.now then d.resendFrame b u else d
  | none => d
/-- LINK_TO of LNK_CTL in ns. -/
def linkTo (d : Device) : Nat := bits d.links.ctl 31 16 * 1000000
/-- The session times out (R396): its channels halt, the record names the binding, and it opens again where it may. -/
def timeoutSession (b : Nat) (d : Device) : Device :=
  let x := d.binding b
  if x.state = .up ∧ x.unacked.any fun u => decide (u.first + d.linkTo ≤ d.now) then
    let d := d.sessionDown b 0x0403
    let d := d.postDev (d.pdkEvent x.pdk 7 0x0403 (det 20 b))
    d.sessionOpen b
  else d

/-- A port's PCS link comes up or goes down. -/
def linkChange (n : Nat) (up : Bool) (d : Device) : Device :=
  let d := d.modPort n fun p => { p with up := up, fecLock := up, anDone := up, paused := if up then p.paused else false }
  if up then (List.range 64).foldl sessionOpen (d.flushPort n) else d
/-- A reply at a port, where the address asked for is the port's own. -/
def answerAt (n : Nat) (own : Bool) (o : Out) (d : Device) : Device :=
  let d := d.modPort n fun p => { p with rxFrm := p.rxFrm + 1 }
  if own then (d.modPort n fun p => { p with txFrm := p.txFrm + 1 }).emit o else d

end Device

/-- DROVE_HELLO (R391, R392). -/
def execDroveHello (port : Nat) (f : DroveFrame) (s : State) : Res0 := onUnit 2 port s (Device.arrive port .hello f (Device.takeHello f))
/-- DROVE_WRITE (R399). -/
def execDroveWrite (port : Nat) (f : DroveFrame) (s : State) : Res0 :=
  onUnit 2 port s (Device.arrive port .write f fun d b => d.takeSequenced b f)
/-- DROVE_READ_REQ (R400). -/
def execDroveReadReq (port : Nat) (f : DroveFrame) (s : State) : Res0 :=
  onUnit 2 port s (Device.arrive port .readReq f fun d b => d.takeSequenced b f)
/-- DROVE_READ_RSP (R400). -/
def execDroveReadRsp (port : Nat) (f : DroveFrame) (s : State) : Res0 :=
  onUnit 2 port s (Device.arrive port .readRsp f fun d b => d.takeSequenced b f)
/-- DROVE_ACK (R395). -/
def execDroveAck (port : Nat) (f : DroveFrame) (s : State) : Res0 := onUnit 2 port s (Device.arrive port .ack f (Device.takeAckFrame f))
/-- DROVE_NAK (R399). -/
def execDroveNak (port : Nat) (f : DroveFrame) (s : State) : Res0 :=
  onUnit 2 port s (Device.arrive port .nak f fun d b => d.takeSequenced b f)
/-- DROVE_MUSTER_ARRIVE (R405). -/
def execDroveMusterArrive (port : Nat) (f : DroveFrame) (s : State) : Res0 :=
  onUnit 2 port s (Device.arrive port .musterArrive f fun d b => d.takeSequenced b f)
/-- DROVE_MUSTER_RELEASE (R405). -/
def execDroveMusterRelease (port : Nat) (f : DroveFrame) (s : State) : Res0 :=
  onUnit 2 port s (Device.arrive port .musterRelease f fun d b => d.takeSequenced b f)
/-- FRAME_FORWARD (R388, R389). -/
def execFrameForward (port : Nat) (f : DroveFrame) (s : State) : Res0 := onUnit 2 port s (Device.forward port f)
/-- RX_FRAME_DROP (R383). -/
def execRxFrameDrop (port : Nat) (s : State) : Res0 := onUnit 2 port s fun d => d.dropFrame port
/-- ARP_REQUEST (R383). -/
def execArpRequest (port : Nat) (ip : BitVec 32) (s : State) : Res0 :=
  onUnit 2 port s fun d => d.answerAt port (ip == (d.port port).ip4 && ip != 0) (.arpReply port)
/-- NEIGHBOUR_SOLICITATION (R383). -/
def execNeighbourSolicitation (port : Nat) (ip : BitVec 128) (s : State) : Res0 :=
  onUnit 2 port s fun d => d.answerAt port (ip == (d.port port).ip6 && ip != 0) (.neighbourAdvert port)
/-- PFC_PAUSE (R389). -/
def execPfcPause (port : Nat) (s : State) : Res0 :=
  onUnit 2 port s fun d => if bit d.links.ctl 6 then d.modPort port fun p => { p with paused := true } else d
/-- PFC_PAUSE_EXPIRY (R389). -/
def execPfcPauseExpiry (port : Nat) (s : State) : Res0 :=
  onUnit 2 port s fun d => (d.modPort port fun p => { p with paused := false }).flushPort port
/-- PORT_LINK_CHANGE (R392). -/
def execPortLinkChange (port : Nat) (up : Bool) (s : State) : Res0 := onUnit 2 port s (Device.linkChange port up)
/-- HELLO_SEND (R392). -/
def execHelloSend (b : Nat) (s : State) : Res0 := onUnit 64 b s (Device.hello b)
/-- ACK_SEND (R394). -/
def execAckSend (b : Nat) (s : State) : Res0 := onUnit 64 b s (Device.ackNow b)
/-- RETRANSMIT (R395). -/
def execRetransmit (b : Nat) (psn : BitVec 24) (s : State) : Res0 := onUnit 64 b s (Device.retransmit b psn)
/-- SESSION_TIMEOUT (R396). -/
def execSessionTimeout (b : Nat) (s : State) : Res0 := onUnit 64 b s (Device.timeoutSession b)

end Sys2Proof.Machine
end

