-- ==== Sys2Proof/Machine/Mmio.lean ====
section
/-! DEFINITION. Writes of the host to BAR0 registers that have no row of their own (spec 10: R308, R319, R344, R346, R348; spec 11:
Table 11.7; spec 15: R486; spec 18: Table 18.9). -/

namespace Sys2Proof.Machine

/-- The half of a 64-bit register that a 4-byte write at `off` replaces. -/
def mergeHalf (old : Nat) (off : Nat) (v : Nat) : Nat :=
  if off % 8 = 0 then old / 2 ^ 32 * 2 ^ 32 + v % 2 ^ 32 else old % 2 ^ 32 + v % 2 ^ 32 * 2 ^ 32
/-- A DVA of 57 bits, rounded down to its alignment. -/
def alignDva (a v : Nat) : Nat := v % 2 ^ 57 / a * a

namespace Device

/-- The host link carries MMIO. -/
def mmioUp (d : Device) : Bool := d.boot.released && d.boot.stage == 8 && d.boot.linkDone

/-! ### 64-bit registers -/

/-- The 64-bit register that holds offset `off` (a multiple of 8): its value, and the device after a write. -/
def wideReg (d : Device) (off : Nat) : Option (Nat × (Nat → Device)) :=
  if off = 0x20 then some (d.glb.qtabBase.toNat, fun v => { d with glb := { d.glb with qtabBase := BitVec.ofNat 64 (alignDva 4096 v) } })
  else if off = 0x40 then
    some (d.glb.crashBase.toNat, fun v =>
      if d.glb.crashEn then d else { d with glb := { d.glb with crashBase := BitVec.ofNat 64 (alignDva 65536 v) } })
  else if 0x1000 ≤ off ∧ off < 0x1800 then
    let n := (off - 0x1000) / 0x20
    let r := d.ring n
    if (off - 0x1000) % 0x20 = 0 then some (r.base, fun v => if r.en then d else d.setRing n { r with base := alignDva 4096 v })
    else if (off - 0x1000) % 0x20 = 0x10 then some (r.wb, fun v => if r.en then d else d.setRing n { r with wb := alignDva 16 v })
    else if (off - 0x1000) % 0x20 = 0x18 then some (r.cons, fun v => d.setRing n { r with cons := v % 2 ^ 64 })
    else none
  else if 0x2000 ≤ off ∧ off < 0x4000 ∧ off % 16 = 0 then
    let n := (off - 0x2000) / 16
    let x := d.vec n
    some (x.addr.toNat, fun v => d.setVec n { x with addr := BitVec.ofNat 64 v })
  else if 0x100 ≤ off ∧ off < 0x280 then
    let s := (off - 0x100) / 8
    let x := d.stall s
    some (x.queue, fun v =>
      if x.state = .free ∧ v / 2 ^ 17 % 4 = 0 then d.setStall s { x with queue := v % 2 ^ 14 } else d)
  else none

/-! ### 32-bit registers -/

/-- GLB_CRASH_CTL: SLOTS holds while EN is 1, and takes no value above 4 (R486). -/
def writeCrashCtl (d : Device) (v : W32) : Device :=
  let g := d.glb
  let n := if g.crashEn || 4 < bits v 3 1 then g.crashSlots else bits v 3 1
  { d with glb := { g with crashEn := bit v 0, crashSlots := n, crashNext := g.crashNext % 2 ^ n } }
/-- MSI-X data and vector control of vector `n`. -/
def writeVec (d : Device) (n : Nat) (ctl : Bool) (v : W32) : Device :=
  let x := d.vec n
  if !ctl then d.setVec n { x with data := v }
  else if bit v 0 then d.setVec n { x with masked := true }
  else d.unmask n
/-- PDK_SHARE(g): a weight of 0 is ignored. -/
def writeShare (d : Device) (p g : Nat) (v : W32) : Device :=
  d.modPdk p fun k =>
    let s := Table.get k.shares Share.reset g
    { k with shares := Table.set k.shares Share.reset g { s with weight := if bits v 7 0 = 0 then s.weight else bits v 7 0, fg := bit v 8 } }
/-- The Drover registers of a Paddock page at offset `o`; a fenced or absent Paddock's drop every write. -/
def writeDrover (d : Device) (p o : Nat) (v : W32) : Device :=
  if !d.pdkPresent p || (d.pdk p).rst != .running then d
  else if o = 0x1000 then
    let q := bits v 31 16
    d.modPdk p fun k => { k with preemptEn := bit v 0, quantum := if 10 ≤ q ∧ q ≤ 10000 then q else k.quantum }
  else if 0x1040 ≤ o ∧ o < 0x1140 then d.writeShare p ((o - 0x1040) / 4) v
  else if o = 0x1208 then d.modPdk p fun k => if k.periodic && v.toNat < 10000 then k else { k with stepPeriod := v.toNat }
  else d
/-- A 4-byte write at `off` to a 32-bit register. -/
def narrowReg (d : Device) (off : Nat) (v : W32) : Device :=
  let g := d.glb
  if off = 0x18 then { d with glb := { g with drvCtx := v &&& 0xFFFFF } }
  else if off = 0x28 then (if v.toNat ≤ 16384 then { d with glb := { g with qtabCnt := v } } else d)
  else if off = 0x30 then { d with glb := { g with ringFail := g.ringFail && !bit v 0, qtabFail := g.qtabFail && !bit v 1 } }
  else if off = 0x48 then d.writeCrashCtl v
  else if 0x1000 ≤ off ∧ off < 0x1800 ∧ off % 0x20 = 0x0C then
    let n := (off - 0x1000) / 0x20
    d.setRing n { d.ring n with mod := bits v 15 0 }
  else if 0x2000 ≤ off ∧ off < 0x4000 ∧ 8 ≤ off % 16 then d.writeVec ((off - 0x2000) / 16) (off % 16 == 12) v
  else if off = 0x6000 then { d with xlt := { d.xlt with priStop := d.xlt.priStop && !bit v 0, qxlt := bit v 1 } }
  else if 0x200000 ≤ off ∧ off < 0x260000 then d.writeDrover ((off - 0x200000) / 0x10000) (off % 0x10000) v
  else d

/-- A write of `width` bytes at `off`: in a Stall page as R319 gives; elsewhere 4 or 8 bytes, aligned, or ignored. An 8-byte write of
two 32-bit registers writes both. -/
def writeReg (off width : Nat) (v : W64) (d : Device) : Device :=
  if !d.mmioUp then d
  else if 0x100000 ≤ off ∧ off < 0x130000 then d.capsuleWrite ((off - 0x100000) / 0x1000) (off % 0x1000) (toBytes width v.toNat)
  else if !(width == 4 || width == 8) || off % width != 0 then d
  else match d.wideReg (off / 8 * 8) with
    | some (old, put) => put (if width = 8 then v.toNat else mergeHalf old off v.toNat)
    | none => if width = 4 then d.narrowReg off (v.setWidth 32) else (d.narrowReg off (v.setWidth 32)).narrowReg (off + 4) ((v >>> 32).setWidth 32)

end Device

/-- REGISTER_WRITE (R8, R308). -/
def execRegisterWrite (off width : Nat) (value : BitVec 64) (s : State) : Res0 := done s (Device.writeReg off width value)

end Sys2Proof.Machine
end

