-- ==== Sys2Proof/Machine/PathUnit.lean ====
section
/-! DEFINITION. The management path: SPDM requests and sessions, MCTP control messages, I3C addresses (spec 16: R487 to R490; spec 14:
R445 to R447). Error codes and the order of the handshake are those of the standards the spec names. -/

namespace Sys2Proof.Machine

namespace Device

/-! ### SPDM (Table 14.4) -/

/-- An ERROR response. -/
def spdmError (d : Device) (what err : Nat) : Device := d.emit (.spdm what false (toBytes 1 err))
def spdmAnswer (d : Device) (what : Nat) (data : List Byte := []) : Device := d.emit (.spdm what true data)
/-- A request that the path carries, supported, and after the requests that must come before it (`stage` outside a session). -/
def spdm (what stage : Nat) (ses : Option Nat) (m : SpdmMsg) (go : Device → Device) (d : Device) : Device :=
  let known := match ses with
    | none => true
    | some k => (d.sess k).isOpen
  if !d.pathUp || !known then d
  else if !m.supported then d.spdmError what 0x07
  else if (match ses with
      | none => decide (d.dict.spdmStage < stage)
      | some k => what != 8 && !(d.sess k).finished) then d.spdmError what 0x04
  else go d
/-- A request that belongs to a session whose handshake is complete. -/
def inSession (what : Nat) (ses : Option Nat) (m : SpdmMsg) (go : Nat → Device → Device) : Device → Device :=
  spdm what 0 ses m fun d =>
    match ses with
    | some k => if (d.sess k).finished then go k d else d.spdmError what 0x04
    | none => d.spdmError what 0x0B
/-- The three requests that begin a connection. -/
def spdmStep (what stage : Nat) (data : List Byte) (ses : Option Nat) (m : SpdmMsg) : Device → Device :=
  spdm what stage ses m fun d =>
    if ses.isSome then d.spdmError what 0x04
    else (d.modDict fun x => { x with spdmStage := stage + 1 }).spdmAnswer what data
/-- A request on certificate slot `m.slot`; only slot 0 is served. -/
def onSlot (what : Nat) (ses : Option Nat) (m : SpdmMsg) (go : Device → Device) : Device → Device :=
  spdm what 3 ses m fun d => if m.slot ≠ 0 then d.spdmError what 0x01 else go d
/-- The chain of slot 0 (R445); the Alias certificate changes with the firmware. -/
def chain (d : Device) : List Byte := Config.crypto 21 d.flash.active
def getCertificate (ses : Option Nat) (m : SpdmMsg) : Device → Device :=
  onSlot 4 ses m fun d => (d.modDict fun x => { x with chunk := d.chain }).spdmAnswer 4 ((d.chain.drop m.offset).take m.length)
/-- The signed report (R447); it is counted, and the session remembers it. -/
def getMeasurements (ses : Option Nat) (m : SpdmMsg) : Device → Device :=
  onSlot 6 ses m fun d =>
    let d := d.modSecurity fun s => { s with attestCnt := s.attestCnt + 1 }
    let d := match ses with
      | some k => if (d.sess k).finished then d.modSess k fun x => { x with measured := some d.now } else d
      | none => d
    let b := d.report ++ Config.crypto 23 m.nonce.toNat
    (d.modDict fun x => { x with chunk := b }).spdmAnswer 6 b
/-- A session opens, its role fixed, or a fifth is refused (R489, R490). -/
def keyExchange (ses : Option Nat) (m : SpdmMsg) : Device → Device :=
  onSlot 7 ses m fun d =>
    if ses.isSome then d.spdmError 7 0x04
    else match lowest (fun k => !(d.sess k).isOpen) 4 with
      | none => d.spdmError 7 0x0A
      | some k =>
        let op := d.dict.roots.isEmpty || m.chainOk
        (d.modSess k fun _ => { Sess.reset with isOpen := true, operator := op, beat := d.now, keyNum := 1 }).spdmAnswer 7 [BitVec.ofNat 8 k]
/-- A session ends, and what it staged is discarded (R489, R492). -/
def endSession (d : Device) (k : Nat) : Device :=
  (d.modSess k fun _ => Sess.reset).modDict fun x => { x with staging := x.staging.filter fun y => y.sess != k }
/-- FINISH completes the handshake; a proof that fails ends the session. -/
def finish (ses : Option Nat) (m : SpdmMsg) : Device → Device :=
  spdm 8 0 ses m fun d =>
    match ses with
    | none => d.spdmError 8 0x0B
    | some k =>
      if (d.sess k).finished then d.spdmError 8 0x04
      else if m.proofOk then (d.modSess k fun x => { x with finished := true, beat := d.now }).spdmAnswer 8
      else (d.endSession k).spdmError 8 0x06
def heartbeatMsg (ses : Option Nat) (m : SpdmMsg) : Device → Device :=
  inSession 9 ses m fun k d => (d.modSess k fun x => { x with beat := d.now }).spdmAnswer 9
def keyUpdate (ses : Option Nat) (m : SpdmMsg) : Device → Device :=
  inSession 10 ses m fun k d =>
    if m.proofOk then (d.modSess k fun x => { x with keyNum := x.keyNum + 1 }).spdmAnswer 10 else d.spdmError 10 0x01
def endSessionMsg (ses : Option Nat) (m : SpdmMsg) : Device → Device :=
  inSession 11 ses m fun k d => (d.endSession k).spdmAnswer 11
def chunkGet (ses : Option Nat) (m : SpdmMsg) : Device → Device :=
  spdm 12 3 ses m fun d => d.spdmAnswer 12 ((d.dict.chunk.drop m.offset).take m.length)
/-- 60 s pass without a heartbeat of the session. -/
def beatMissed (k : Nat) (d : Device) : Device :=
  let x := d.sess k
  if x.isOpen && decide (x.beat + 60000000000 ≤ d.now) then d.endSession k else d

/-! ### MCTP control and I3C (Table 16.1) -/

/-- A control message that the path carries. -/
def mctp (cmd completion : Nat) (data : List Byte) (d : Device) : Device := if d.pathUp then d.emit (.mctp cmd completion data) else d
/-- Set Endpoint ID; 0 and 0xFF are no endpoint. -/
def setEid (eid : BitVec 8) (d : Device) : Device :=
  if !d.pathUp then d
  else if eid = 0 ∨ eid = 0xFF then mctp 1 2 [] d
  else mctp 1 0 [0, eid, 0] (d.modDict fun x => { x with eid := eid })
/-- A dynamic address is assigned to a target that has none. -/
def assignAddr (a : BitVec 7) (d : Device) : Device :=
  if d.pathUp && d.dict.i3cAddr.isNone then d.modDict fun x => { x with i3cAddr := some a } else d

end Device

/-- SPDM_GET_VERSION: 1.2 and 1.3 (R446). -/
def execSpdmGetVersion (ses : Option Nat) (m : SpdmMsg) (s : State) : Res0 := onSess ses s (Device.spdmStep 0 0 [0x12, 0x13] ses m)
/-- SPDM_GET_CAPABILITIES (R446). -/
def execSpdmGetCapabilities (ses : Option Nat) (m : SpdmMsg) (s : State) : Res0 := onSess ses s (Device.spdmStep 1 1 [] ses m)
/-- SPDM_NEGOTIATE_ALGORITHMS (R446). -/
def execSpdmNegotiateAlgorithms (ses : Option Nat) (m : SpdmMsg) (s : State) : Res0 := onSess ses s (Device.spdmStep 2 2 [] ses m)
/-- SPDM_GET_DIGESTS: slot 0 (R446). -/
def execSpdmGetDigests (ses : Option Nat) (m : SpdmMsg) (s : State) : Res0 :=
  onSess ses s (Device.spdm 3 3 ses m fun d => d.spdmAnswer 3 (Config.crypto 20 d.flash.active))
/-- SPDM_GET_CERTIFICATE (R445). -/
def execSpdmGetCertificate (ses : Option Nat) (m : SpdmMsg) (s : State) : Res0 := onSess ses s (Device.getCertificate ses m)
/-- SPDM_CHALLENGE, signed with the Alias key (R446). -/
def execSpdmChallenge (ses : Option Nat) (m : SpdmMsg) (s : State) : Res0 :=
  onSess ses s (Device.onSlot 5 ses m fun d => d.spdmAnswer 5 (Config.crypto 22 m.nonce.toNat))
/-- SPDM_GET_MEASUREMENTS (R447). -/
def execSpdmGetMeasurements (ses : Option Nat) (m : SpdmMsg) (s : State) : Res0 := onSess ses s (Device.getMeasurements ses m)
/-- SPDM_KEY_EXCHANGE (R489, R490). -/
def execSpdmKeyExchange (ses : Option Nat) (m : SpdmMsg) (s : State) : Res0 := onSess ses s (Device.keyExchange ses m)
/-- SPDM_FINISH (R446). -/
def execSpdmFinish (ses : Option Nat) (m : SpdmMsg) (s : State) : Res0 := onSess ses s (Device.finish ses m)
/-- SPDM_HEARTBEAT (R489). -/
def execSpdmHeartbeat (ses : Option Nat) (m : SpdmMsg) (s : State) : Res0 := onSess ses s (Device.heartbeatMsg ses m)
/-- SPDM_KEY_UPDATE (R446). -/
def execSpdmKeyUpdate (ses : Option Nat) (m : SpdmMsg) (s : State) : Res0 := onSess ses s (Device.keyUpdate ses m)
/-- SPDM_END_SESSION (R489). -/
def execSpdmEndSession (ses : Option Nat) (m : SpdmMsg) (s : State) : Res0 := onSess ses s (Device.endSessionMsg ses m)
/-- SPDM_CHUNK_GET (R446). -/
def execSpdmChunkGet (ses : Option Nat) (m : SpdmMsg) (s : State) : Res0 := onSess ses s (Device.chunkGet ses m)
/-- SPDM_HEARTBEAT_MISSED (R489). -/
def execSpdmHeartbeatMissed (ses : Nat) (s : State) : Res0 := onUnit 4 ses s (Device.beatMissed ses)
/-- MCTP_SET_ENDPOINT_ID (R487). -/
def execMctpSetEndpointId (eid : BitVec 8) (s : State) : Res0 := done s (Device.setEid eid)
/-- MCTP_GET_ENDPOINT_ID (R487). -/
def execMctpGetEndpointId (s : State) : Res0 := done s fun d => Device.mctp 2 0 [d.dict.eid, 0, 0] d
/-- MCTP_GET_ENDPOINT_UUID (R487). -/
def execMctpGetEndpointUuid (s : State) : Res0 := done s (Device.mctp 3 0 (Config.crypto 12 0))
/-- MCTP_GET_VERSION_SUPPORT (R487). -/
def execMctpGetVersionSupport (s : State) : Res0 := done s (Device.mctp 4 0 (Config.crypto 13 0))
/-- MCTP_GET_MESSAGE_TYPE_SUPPORT: control, SPDM, secured messages and Dzient (R487). -/
def execMctpGetMessageTypeSupport (s : State) : Res0 := done s (Device.mctp 5 0 [4, 0x00, 0x05, 0x06, 0x7E])
/-- MCTP_UNSUPPORTED_CONTROL: ERROR_UNSUPPORTED_CMD (R487). -/
def execMctpUnsupportedControl (cmd : BitVec 8) (s : State) : Res0 := done s (Device.mctp cmd.toNat 5 [])
/-- I3C_ENTDAA (R487). -/
def execI3cEntdaa (addr : BitVec 7) (s : State) : Res0 := done s (Device.assignAddr addr)
/-- I3C_SETDASA (R487). -/
def execI3cSetdasa (addr : BitVec 7) (s : State) : Res0 := done s (Device.assignAddr addr)

end Sys2Proof.Machine
end

