-- ==== Sys2Proof/Machine/VecFun.lean ====
section
/-! DEFINITION. The functions of VFUN (spec 06: R176, R177, Table 6.9).

The spec bounds the results of all functions but SQRT. The result is a free value; the model keeps it within the bound by
comparing it with an enclosure of the exact result in 96-bit fixed point, and takes the rounded exact result where the
free value lies outside. -/

namespace Sys2Proof.Machine

/-- One in the fixed point of this file. -/
def fxOne : Nat := 2 ^ 96
/-- log2 e times 2^128. -/
def fxLog2e : Nat := 490923683258796565746369346286093237521

/-- 2^f times `acc`, `f` a fraction below one: `c` is 2^(2^-k) at step k. -/
def fxPow : Nat → Nat → Nat → Nat → Nat
  | 0, _, _, acc => acc
  | n + 1, f, c, acc =>
    let c := Nat.sqrt (c * fxOne)
    if fxOne ≤ 2 * f then fxPow n (2 * f - fxOne) c (acc * c / fxOne) else fxPow n (2 * f) c acc

/-- 2^y for y in units of 2^-96. -/
def fxExp2 (y : Int) : FVal :=
  .fin false (fxPow 96 (y % (fxOne : Int)).toNat (2 * fxOne) fxOne) (y / (fxOne : Int) - 96)

/-- The fraction bits of log2 u, u in [1, 2). -/
def fxLogGo : Nat → Nat → Nat → Nat
  | 0, _, r => r
  | n + 1, u, r =>
    let v := u * u / fxOne
    if 2 * fxOne ≤ v then fxLogGo n (v / 2) (2 * r + 1) else fxLogGo n v (2 * r)

/-- log2 (m * 2^e) in units of 2^-96 (m > 0). -/
def fxLog2 (m : Nat) (e : Int) : Int :=
  topExp m e * (fxOne : Int) + (fxLogGo 96 (m * fxOne / 2 ^ Nat.log2 m) 0 : Nat)

/-- A finite value in units of 2^-96, rounded down. -/
def fxOf (neg : Bool) (m : Nat) (e : Int) : Int :=
  let s : Int := if neg then -(m : Int) else m
  if -96 ≤ e then s * (2 ^ (e + 96).toNat : Nat) else s / (2 ^ (-96 - e).toNat : Nat)

/-- x log2 e in units of 2^-96. -/
def fxLn (neg : Bool) (m : Nat) (e : Int) : Int := fxOf neg (m * fxLog2e) (e - 128)

/-- e^a in units of 2^-96 as a natural number, a = m * 2^e at most 64. -/
def fxExpNat (m : Nat) (e : Int) : Nat :=
  match fxExp2 (fxLn false m e) with
  | .fin _ k q => k * 2 ^ (q + 96).toNat
  | _ => 0

/-- Square root with its last bit sticky, exact enough to be rounded correctly. -/
def sqrtVal (m : Nat) (e : Int) : FVal :=
  let m := if e % 2 = 0 then m else 2 * m
  let e := if e % 2 = 0 then e else e - 1
  let k := m * 2 ^ 120
  let r := Nat.sqrt k
  .fin false (2 * r + (if r * r = k then 0 else 1)) (e / 2 - 61)

/-- The exact result, closely enough: a pattern fixed by the table's special values, or an enclosure with the bound of
Table 6.9. -/
inductive FunSpec where
  | exactly (x : W32)
  /-- a value and the bound on the distance from it -/
  | near (v : FVal) (bound : FVal)
  /-- no result stated -/
  | open_
  deriving DecidableEq, Repr, Inhabited

/-- `n` ulp of a value, less the 2^-40 of it that the enclosure may lie off: what keeps this keeps the bound of Table 6.9. -/
def ulps (n : Nat) (v : FVal) : FVal :=
  match v with
  | .fin _ m e => .fin false (n * 2 ^ 40 - 1) (max (-149) (topExp m e - 23) - 40)
  | w => w
/-- 2^-22, less the same part. -/
def absBound : FVal := .fin false (2 ^ 40 - 1) (-62)

/-- EXP2 and EXP, on the exponent in units of 2^-96. -/
def expSpec (y : Int) (n : Nat) : FunSpec :=
  if y < -150 * (fxOne : Int) then .exactly 0
  else if 128 * (fxOne : Int) ≤ y then .exactly (inf32 false)
  else let v := fxExp2 y
    .near v (ulps n v)

/-- TANH and SIGMOID of a finite value. -/
def tanhSpec (neg : Bool) (m : Nat) (e : Int) : FunSpec :=
  if 32 ≤ fxOf false m e / (fxOne : Int) then .near (.fin neg 1 0) absBound
  else
    let E := fxExpNat (2 * m) e
    .near (.fin neg ((E - fxOne) * fxOne / (E + fxOne)) (-96)) absBound
def sigmoidSpec (neg : Bool) (m : Nat) (e : Int) : FunSpec :=
  if 64 ≤ fxOf false m e / (fxOne : Int) then .near (if neg then FVal.zero else .fin false 1 0) absBound
  else
    let E := fxExpNat m e
    .near (.fin false ((if neg then fxOne else E) * fxOne / (E + fxOne)) (-96)) absBound

/-- Table 6.9: function `f` of an FP32 value. -/
def funSpec (f : Nat) (x : FVal) : FunSpec :=
  match x with
  | .nan => .exactly qnan32
  | .inf n =>
    match f with
    | 0 => .exactly (if n then 0 else inf32 false)
    | 1 => .exactly (if n then 0 else inf32 false)
    | 2 => .exactly (if n then qnan32 else inf32 false)
    | 3 => .exactly (BitVec.ofNat 32 (signBit n))
    | 4 => .exactly (if n then qnan32 else 0)
    | 5 => .exactly (if n then qnan32 else inf32 false)
    | 6 => .exactly (if n then 0xBF800000 else 0x3F800000)
    | _ => .exactly (if n then 0 else 0x3F800000)
  | .fin n m e =>
    match f with
    | 0 => expSpec (fxOf n m e) 2
    | 1 => expSpec (fxLn n m e) 3
    | 2 =>
      if m = 0 then (if n then .open_ else .exactly (inf32 true))
      else if n then .exactly qnan32
      else
        let y := fxLog2 m e
        let v : FVal := .fin (decide (y < 0)) y.natAbs (-96)
        .near v (if (y.natAbs : Int) ≤ fxOne then absBound else ulps 2 v)
    | 3 =>
      if m = 0 then .exactly (inf32 n)
      else let v : FVal := .fin n (2 ^ 200 / m) (-200 - e)
        .near v (ulps 1 v)
    | 4 =>
      if m = 0 then (if n then .open_ else .exactly (inf32 false))
      else if n then .exactly qnan32
      else
        let k := if e % 2 = 0 then m else 2 * m
        let q := if e % 2 = 0 then e else e - 1
        let v : FVal := .fin false (Nat.sqrt (2 ^ 300 / k)) (-150 - q / 2)
        .near v (ulps 1 v)
    | 5 =>
      if m = 0 then .exactly (BitVec.ofNat 32 (signBit n))
      else if n then .exactly qnan32
      else .exactly (rndIeee (sqrtVal m e))
    | 6 => if m = 0 then .near FVal.zero absBound else tanhSpec n m e
    | _ => sigmoidSpec n m e

/-- The distance of a candidate from the enclosure is within the bound. -/
def nearEnough (c : W32) (v bound : FVal) : Bool :=
  c == rndIeee v ||
  (match val32 c with
   | .fin n m e => match (((FVal.fin n m e).sub v).1.abs).cmp bound with
     | some o => decide (o ≤ 0)
     | none => false
   | _ => false)

/-- VFUN on an FP32 pattern: the free value where it keeps the bound (R176, R177). -/
def vfun32 (f : Nat) (x : W32) : W32 :=
  match funSpec f (val32 x) with
  | .exactly p => p
  | .near v bound => if nearEnough (Config.vfun f x) v bound then Config.vfun f x else rndIeee v
  | .open_ => if val32 (Config.vfun f x) = .nan then qnan32 else Config.vfun f x

end Sys2Proof.Machine
end

