-- ==== Sys2Proof/Machine/VecOps.lean ====
section
/-! DEFINITION. The vector unit's operand forms and its operations on whole registers (spec 06: R155, R168 to R170,
R176 to R180). -/

namespace Sys2Proof.Machine

/-- The value of a lane under TY: FP32, BF16 in bits [31:16], INT32 (R155). -/
def laneVal (ty : Nat) (x : W32) : FVal :=
  match ty with
  | 0 => val32 x
  | 1 => valBf16 (bits x 31 16)
  | _ => FVal.ofInt x.toInt
/-- A result as a lane of type TY: FP32 to nearest even, BF16 through FP32 (R176). -/
def laneOut (ty : Nat) (v : FVal) : W32 :=
  match ty with
  | 0 => rndIeee v
  | 1 => rndBf16 (val32 (rndIeee v))
  | _ => BitVec.ofInt 32 v.toInt
/-- Bits that a lane of type TY keeps when it is written (R155). -/
def laneFix (ty : Nat) (x : W32) : W32 := if ty = 1 then x &&& 0xFFFF0000 else x

/-- Operand b in lane i: VB, or the low half of a scalar register, broadcast (R168). -/
def Sequencer.vb (q : Sequencer) (w : W64) (i : Nat) : W32 :=
  if vSB w then (q.sop (fBb w)).setWidth 32 else q.lane (fBb w) i
/-- Bit i of P[MP]. -/
def Sequencer.maskOn (q : Sequencer) (w : W64) (i : Nat) : Bool := (q.pReg (vMP w)).getLsbD i
/-- Writes the unmasked lanes of VD; a masked lane keeps its value, or takes zero with MZ (R169). -/
def Sequencer.writeLanes (q : Sequencer) (w : W64) (ty : Nat) (f : Nat → W32) : Sequencer :=
  let old := q.vReg (fD w)
  let m := q.pReg (vMP w)
  q.setV (fD w) (vregOf fun i => if m.getLsbD i then laneFix ty (f i) else if vMZ w then 0 else Table.get old 0 i)

/-- A lane-wise instruction: lane i of VD from lane i of VA and of operand b. -/
def vecOp (f : W64 → W32 → W32 → W32) (w : W64) (q : Sequencer) : Sequencer :=
  q.writeLanes w (vTY w) fun i => f w (q.lane (fA w) i) (q.vb w i)
/-- An operation with an integer and a floating form, on two lanes. -/
def byType (int : W32 → W32 → W32) (flt : FVal → FVal → FVal) (w : W64) (x y : W32) : W32 :=
  if vTY w = 2 then int x y else laneOut (vTY w) (flt (laneVal (vTY w) x) (laneVal (vTY w) y))

def intMin (x y : W32) : W32 := if x.toInt ≤ y.toInt then x else y
def intMax (x y : W32) : W32 := if x.toInt ≤ y.toInt then y else x
/-- b mod 32 of the shifts. -/
def shamt (y : W32) : Nat := y.toNat % 32

/-- VFMA on three lanes: one rounding. -/
def fmaLane (ty : Nat) (x y z : W32) : W32 :=
  if ty = 2 then x * y + z else laneOut ty ((((laneVal ty x).mul (laneVal ty y)).1.add (laneVal ty z)).1)

/-- cond(VA, b) of VCMP: a condition of CMPCNT (Table 3.2). -/
def cmpLane (w : W64) (x y : W32) : Bool := condOf (vAUX w) ((laneVal (vTY w) x).cmp (laneVal (vTY w) y))

/-- VCVT of one lane (R169). -/
def cvtLane (ty aux : Nat) (x : W32) : W32 :=
  let v := laneVal ty x
  let toI := fun n => BitVec.ofInt 32 (match v with
    | .nan => 0
    | .inf s => if s then -(2 ^ (n - 1) : Int) else 2 ^ (n - 1) - 1
    | _ => satInt n v.round)
  match aux with
  | 0 => rndIeee v
  | 1 => rndBf16 v
  | 2 => toI 32
  | 3 => toI 8
  | 4 => BitVec.ofNat 32 (cvtE4M3 (x.getLsbD 31) v)
  | _ => BitVec.ofNat 32 (cvtE5M2 (x.getLsbD 31) v)

/-- VFUN of one lane: FP32, or FP32 rounded to BF16 (R177). -/
def funLane (ty f : Nat) (x : W32) : W32 :=
  if ty = 1 then rndBf16 (val32 (vfun32 f (x &&& 0xFFFF0000))) else vfun32 f x

/-! ### VRED (R176) -/

/-- Two terms of the tree, of which a masked lane has none. -/
def redTwo (f : FVal → FVal → FVal) (a b : Option FVal) : Option FVal :=
  match a, b with
  | none, y => y
  | x, none => x
  | some x, some y => some (f x y)
/-- An FP32 sum in the tree: one rounding each. -/
def sumTwo (a b : FVal) : FVal := val32 (rndIeee (a.add b).1)
/-- The reduction of the unmasked lanes: the tree of depth 8 over the lanes in the free order `ord`, or the identity of
Table 3.4. -/
def redVal (ty aux : Nat) (ord : List Nat) (lanes : List (Option W32)) : W32 :=
  if ty = 2 then
    let xs := lanes.filterMap id
    match aux with
    | 0 => xs.foldl (· + ·) 0
    | 1 => xs.foldl intMax 0x80000000
    | _ => xs.foldl intMin 0x7FFFFFFF
  else
    let f := if aux = 0 then sumTwo else if aux = 1 then FVal.max else FVal.min
    match treeOf (redTwo f) none 8 (reorder ord (lanes.map fun o => o.map (laneVal ty))) with
    | some v => laneOut ty v
    | none => if aux = 0 then 0 else inf32 (decide (aux = 1))

/-! ### Packing (R170, Table 6.5) -/

/-- The unsigned value packed for one lane: its width in bits, and its low bits. -/
def packBits (aux : Nat) : Nat := match aux with | 0 => 8 | 1 => 4 | 2 => 12 | 3 => 8 | _ => 16
def packLane (ty aux : Nat) (x : W32) : Nat :=
  let v := laneVal ty x
  let i : Int := match v with
    | .nan => 0
    | .inf s => if s then -(2 ^ 31 : Int) else 2 ^ 31 - 1
    | _ => satInt 32 v.round
  match aux with
  | 0 => ((satInt 8 i) % 256).toNat
  | 1 => ((satInt 4 i) % 16).toNat
  | 2 => (i % 4096).toNat
  | 3 => (i % 256).toNat
  | _ => bits (rndBf16 v) 31 16
/-- All 256 lanes packed, element k at bit k * width; a lane past the packed data is zero. -/
def packAll (ty aux : Nat) (f : Nat → W32) : Nat :=
  (List.range 256).foldl (fun a i => a + packLane ty aux (f i) * 2 ^ (packBits aux * i)) 0
/-- Element i of the packed data. -/
def unpackLane (aux : Nat) (data : Nat) (i : Nat) : W32 :=
  let x := data / 2 ^ (packBits aux * i) % 2 ^ packBits aux
  match aux with
  | 0 => (BitVec.ofNat 8 x).signExtend 32
  | 1 => (BitVec.ofNat 4 x).signExtend 32
  | 4 => if valBf16 x = .nan then qnan32 else BitVec.ofNat 32 (x * 65536)
  | _ => BitVec.ofNat 32 x
/-- A whole register as one number, lane 0 lowest. -/
def vregNat (q : Sequencer) (n : Nat) : Nat := (List.range 256).foldl (fun a i => a + (q.lane n i).toNat * 2 ^ (32 * i)) 0

/-! ### Sorting and top-k (R178, R179) -/

/-- Numeric order, -0 below +0 when `zeros`. -/
def below (zeros : Bool) (a b : FVal) : Bool :=
  match a.cmp b with
  | some c => decide (c < 0) || (zeros && decide (c = 0) && a.negative && !b.negative)
  | none => false
/-- Inserts before the first entry that `lt` puts after it: stable. -/
def insertStable {α : Type} (lt : α → α → Bool) (x : α) : List α → List α
  | [] => [x]
  | y :: r => if lt x y then x :: y :: r else y :: insertStable lt x r
def sortStable {α : Type} (lt : α → α → Bool) (l : List α) : List α := l.foldl (fun s x => insertStable lt x s) []

/-- Lane numbers in the order of VSORT. -/
def sortOrder (q : Sequencer) (w : W64) : List Nat :=
  let v := fun i => laneVal (vTY w) (q.lane (fA w) i)
  let all := List.range 256
  let on := all.filter (q.maskOn w)
  let nums := on.filter fun i => !(v i).isNan
  let lt := fun i j => if bit w 41 then below true (v j) (v i) else below true (v i) (v j)
  sortStable lt nums ++ (on.filter fun i => (v i).isNan) ++ (all.filter fun i => !q.maskOn w i)

/-- Offer `a` ranks before offer `b`: the better value, then the smaller index. -/
def better (t : TopK) (a b : W32 × W32) : Bool :=
  let x := laneVal t.ty a.1
  let y := laneVal t.ty b.1
  let lt := if t.smallest then below false x y else below false y x
  let gt := if t.smallest then below false y x else below false x y
  lt || (!gt && decide (a.2 < b.2))
/-- The list after the offers (R179). -/
def TopK.offer (t : TopK) (offers : List (W32 × W32)) : TopK :=
  { t with entries := (offers.foldl (fun s x => insertStable (better t) x s) t.entries).take t.k }

/-! ### VSAMP (R180) -/

/-- Weight of a lane: none for a lane that is never drawn. -/
def sampWeight (v : FVal) : Option FVal :=
  match v with
  | .fin false m e => if m = 0 then none else some (.fin false m e)
  | _ => none
/-- A prefix sum as the unit may round it: a free FP32 value within delta of the exact one, else the rounded exact
sum. -/
def sampSum (free : W32) (exact : FVal) : FVal :=
  let c := val32 free
  let bound := (exact.mul (.fin false 808 0)).1.scale (-24)  -- 1.01 * 8 * 2^-24, in hundredths
  let dist := (((c.sub exact).1.abs).mul (.fin false 100 0)).1
  match c, dist.cmp bound with
  | .fin _ _ _, some o => if o ≤ 0 then c else val32 (rndIeee exact)
  | _, _ => val32 (rndIeee exact)
/-- Exact prefix sums. -/
def runningSums : FVal → List FVal → List FVal
  | _, [] => []
  | s, w :: r => let t := (s.add w).1
    t :: runningSums t r
/-- The lane drawn, by the procedure of R180: `va` the lanes (none: masked), `u` the draw, `free i` the rounding of the
prefix sum of lane i. -/
def sampLane (va : List (Option FVal)) (u : W32) (free : Nat → W32) : W64 :=
  match va.findIdx? (fun o => o == some (.inf false)) with
  | some i => BitVec.ofNat 64 i
  | none =>
    let ws := va.map fun o => o.bind sampWeight
    let sums := runningSums FVal.zero (ws.map fun o => o.getD FVal.zero)
    let c := (List.range 256).map fun i => sampSum (free i) (sums.getD i FVal.zero)
    let total := c.getD 255 FVal.zero
    match total with
    | .fin _ m _ =>
      if m = 0 then BitVec.allOnes 64
      else
        let thr := val32 (rnd32 ((total.mul (FVal.ofInt u.toNat)).1.scale (-32))).1
        let drawn := fun i => (ws.getD i none).isSome
        let past := fun i => match (c.getD i FVal.zero).cmp thr with
          | some o => decide (0 < o)
          | none => false
        match (List.range 256).find? (fun i => drawn i && past i) with
        | some i => BitVec.ofNat 64 i
        | none => BitVec.ofNat 64 (((List.range 256).reverse.find? drawn).getD 0)
    | _ => BitVec.allOnes 64

end Sys2Proof.Machine
end

