-- ==== Sys2Proof/Machine/Vector.lean ====
section
/-! DEFINITION. The vector instructions of the T slot (spec 06: R168 to R170, R176 to R180). -/

namespace Sys2Proof.Machine

/-- A vector instruction that only reads and writes registers of its core. -/
def vecIssue (core op : Nat) (f : W64 → Sequencer → Sequencer) (s : State) : Res0 :=
  onUnit 12 core s (Device.issue core .t op (Device.regOp core f))

/-- VADD: VD := VA + b (R176). -/
def laneAdd : W64 → W32 → W32 → W32 := byType (· + ·) fun a b => (a.add b).1
def execVadd (core : Nat) (s : State) : Res0 := vecIssue core 0x10 (vecOp laneAdd) s

/-- VSUB: VD := VA - b (R176). -/
def laneSub : W64 → W32 → W32 → W32 := byType (· - ·) fun a b => (a.sub b).1
def execVsub (core : Nat) (s : State) : Res0 := vecIssue core 0x11 (vecOp laneSub) s

/-- VMUL: VD := VA * b (R176). -/
def laneMul : W64 → W32 → W32 → W32 := byType (· * ·) fun a b => (a.mul b).1
def execVmul (core : Nat) (s : State) : Res0 := vecIssue core 0x12 (vecOp laneMul) s

/-- VFMA: VD := VA * b + VC, with one rounding (R168). -/
def vecFma (w : W64) (q : Sequencer) : Sequencer :=
  q.writeLanes w (vTY w) fun i => fmaLane (vTY w) (q.lane (fA w) i) (q.vb w i) (q.lane (vC w) i)
def execVfma (core : Nat) (s : State) : Res0 := vecIssue core 0x13 vecFma s

/-- VMIN: the IEEE minimum under R69. -/
def laneMin : W64 → W32 → W32 → W32 := byType intMin FVal.min
def execVmin (core : Nat) (s : State) : Res0 := vecIssue core 0x14 (vecOp laneMin) s

/-- VMAX: the IEEE maximum under R69. -/
def laneMax : W64 → W32 → W32 → W32 := byType intMax FVal.max
def execVmax (core : Nat) (s : State) : Res0 := vecIssue core 0x15 (vecOp laneMax) s

/-- VABS: the magnitude of VA; every NaN is canonical (R176). -/
def laneAbs : W64 → W32 → W32 → W32 := byType (fun x _ => if x.toInt < 0 then -x else x) fun a _ => a.abs
def execVabs (core : Nat) (s : State) : Res0 := vecIssue core 0x16 (vecOp laneAbs) s

/-- VNEG: VA with its sign changed. -/
def laneNeg : W64 → W32 → W32 → W32 := byType (fun x _ => -x) fun a _ => a.neg
def execVneg (core : Nat) (s : State) : Res0 := vecIssue core 0x17 (vecOp laneNeg) s

/-- VAND: bitwise AND of INT32 lanes. -/
def laneAnd (_ : W64) (x y : W32) : W32 := x &&& y
def execVand (core : Nat) (s : State) : Res0 := vecIssue core 0x18 (vecOp laneAnd) s

/-- VOR: bitwise OR of INT32 lanes. -/
def laneOr (_ : W64) (x y : W32) : W32 := x ||| y
def execVor (core : Nat) (s : State) : Res0 := vecIssue core 0x19 (vecOp laneOr) s

/-- VXOR: bitwise XOR of INT32 lanes. -/
def laneXor (_ : W64) (x y : W32) : W32 := x ^^^ y
def execVxor (core : Nat) (s : State) : Res0 := vecIssue core 0x1A (vecOp laneXor) s

/-- VSHL: shift left by b mod 32. -/
def laneShl (_ : W64) (x y : W32) : W32 := x <<< shamt y
def execVshl (core : Nat) (s : State) : Res0 := vecIssue core 0x1B (vecOp laneShl) s

/-- VSHR: logical shift right by b mod 32. -/
def laneShr (_ : W64) (x y : W32) : W32 := x >>> shamt y
def execVshr (core : Nat) (s : State) : Res0 := vecIssue core 0x1C (vecOp laneShr) s

/-- VSRA: arithmetic shift right by b mod 32. -/
def laneSra (_ : W64) (x y : W32) : W32 := x.sshiftRight (shamt y)
def execVsra (core : Nat) (s : State) : Res0 := vecIssue core 0x1D (vecOp laneSra) s

/-- VCMP: P[VD[2:0]] := cond(VA, b); a masked lane keeps its bit, or takes 0 with MZ (R168, R169). -/
def vecCmp (w : W64) (q : Sequencer) : Sequencer :=
  let old := q.pReg (bits w 12 10)
  let m := q.pReg (vMP w)
  q.setP (bits w 12 10) (BitVec.ofNat 256 (bitsOf (fun i =>
    if m.getLsbD i then cmpLane w (q.lane (fA w) i) (q.vb w i) else !vMZ w && old.getLsbD i) 256))
def execVcmp (core : Nat) (s : State) : Res0 := vecIssue core 0x1E vecCmp s

/-- VSEL: VD := VA where P[VC[2:0]], else b (R168). -/
def vecSel (w : W64) (q : Sequencer) : Sequencer :=
  let p := q.pReg (bits w 30 28)
  q.writeLanes w (vTY w) fun i => if p.getLsbD i then q.lane (fA w) i else q.vb w i
def execVsel (core : Nat) (s : State) : Res0 := vecIssue core 0x1F vecSel s

/-- VCVT: converts from TY to AUX (R169). -/
def vecCvt (w : W64) (q : Sequencer) : Sequencer :=
  q.writeLanes w (if vAUX w = 1 then 1 else 0) fun i => cvtLane (vTY w) (vAUX w) (q.lane (fA w) i)
def execVcvt (core : Nat) (s : State) : Res0 := vecIssue core 0x20 vecCvt s

/-- VFUN: VD := f(VA) within the bound of Table 6.9 (R177). -/
def vecFun (w : W64) (q : Sequencer) : Sequencer :=
  q.writeLanes w (vTY w) fun i => funLane (vTY w) (vAUX w) (q.lane (fA w) i)
def execVfun (core : Nat) (s : State) : Res0 := vecIssue core 0x21 vecFun s

/-- VRED: every written lane := the reduction of the unmasked lanes of VA (R169, R176). -/
def vecRed (ord : List Nat) (w : W64) (q : Sequencer) : Sequencer :=
  let r := redVal (vTY w) (vAUX w) ord ((List.range 256).map fun i => if q.maskOn w i then some (q.lane (fA w) i) else none)
  q.writeLanes w (vTY w) fun _ => r
def execVred (core : Nat) (s : State) : Res0 :=
  onUnit 12 core s (Device.issue core .t 0x22 fun x d =>
    .ok (d.tookFree.modSeq core (vecRed (Config.freeOrder 1 d.free) x.word)))

/-- VPERM: VD[i] := VA[b[i] mod 256] (R168). -/
def vecPerm (w : W64) (q : Sequencer) : Sequencer :=
  q.writeLanes w (vTY w) fun i => q.lane (fA w) ((q.vb w i).toNat % 256)
def execVperm (core : Nat) (s : State) : Res0 := vecIssue core 0x23 vecPerm s

/-- VEXT: scalar VD := lane (S[VB] mod 256) of VA, sign-extended for INT32 (R169). -/
def vecExt (w : W64) (q : Sequencer) : Sequencer :=
  let x := q.lane (fA w) ((q.sop (fBb w)).toNat % 256)
  q.setSop (fD w) (if vTY w = 2 then x.signExtend 64 else (laneFix (vTY w) x).setWidth 64)
def execVext (core : Nat) (s : State) : Res0 := vecIssue core 0x24 vecExt s

/-- VPACK: the lanes of VA packed in the mode of AUX (R170). -/
def vecPack (w : W64) (q : Sequencer) : Sequencer :=
  let data := packAll (vTY w) (vAUX w) (q.lane (fA w))
  q.writeLanes w 2 fun i => BitVec.ofNat 32 (data / 2 ^ (32 * i))
def execVpack (core : Nat) (s : State) : Res0 := vecIssue core 0x25 vecPack s

/-- VUNPK: the packed elements of VA as lanes (R170). -/
def vecUnpk (w : W64) (q : Sequencer) : Sequencer :=
  let data := vregNat q (fA w)
  q.writeLanes w 2 fun i => unpackLane (vAUX w) data i
def execVunpk (core : Nat) (s : State) : Res0 := vecIssue core 0x26 vecUnpk s

/-- VSORT: values in order to VD, source lane numbers to VC (R178). -/
def vecSort (w : W64) (q : Sequencer) : Sequencer :=
  let ord := sortOrder q w
  let va := q.vReg (fA w)
  (q.setV (fD w) (vregOf fun i => laneFix (vTY w) (Table.get va 0 (ord.getD i 0)))).setV (vC w)
    (vregOf fun i => BitVec.ofNat 32 (ord.getD i 0))
def execVsort (core : Nat) (s : State) : Res0 := vecIssue core 0x27 vecSort s

/-- VTKCLR: empties the list and sets k, TY and direction (R179). -/
def execVtkclr (core : Nat) (s : State) : Res0 :=
  onUnit 12 core s (Device.issue core .t 0x28 fun x d =>
    let t : TopK := { k := bits x.word 46 41 + 1, ty := vTY x.word, smallest := bit x.word 47, entries := [] }
    .ok (d.modCore core fun k => { k with topk := some t }))

/-- The offers of VTKADD: unmasked lanes that are no NaN, with their indices. -/
def topOffers (q : Sequencer) (w : W64) : List (W32 × W32) :=
  let base : W32 := (q.sop (fBb w)).setWidth 32
  (List.range 256).filterMap fun i =>
    let x := laneFix (vTY w) (q.lane (fA w) i)
    if q.maskOn w i && !(laneVal (vTY w) x).isNan then some (x, base + BitVec.ofNat 32 i) else none
/-- VTKADD: offers the lanes; it traps without a VTKCLR of its TY (R179). -/
def execVtkadd (core : Nat) (s : State) : Res0 :=
  onUnit 12 core s (Device.issue core .t 0x29 fun x d =>
    match (d.core core).topk with
    | none => Device.illegal x
    | some t =>
      if t.ty ≠ vTY x.word then Device.illegal x
      else .ok (d.modCore core fun k => { k with topk := some (t.offer (topOffers k.sq x.word)) }))

/-- VTKGET: the list to VD and its indices to VC, whatever P[MP] holds (R169, R179). Where VD and VC are one register,
which of the two it holds is open: a free value decides. -/
def vecTop (t : TopK) (free : W64) (w : W64) (q : Sequencer) : Sequencer :=
  let vals := vregOf fun i => match t.entries[i]? with
    | some e => e.1
    | none => if t.ty = 2 then 0x80000000 else qnan32
  let idxs := vregOf fun i => match t.entries[i]? with
    | some e => e.2
    | none => 0xFFFFFFFF
  if fD w = vC w && bit free 0 then (q.setV (vC w) idxs).setV (fD w) vals else (q.setV (fD w) vals).setV (vC w) idxs
def execVtkget (core : Nat) (s : State) : Res0 :=
  onUnit 12 core s (Device.issue core .t 0x2A fun x d =>
    match (d.core core).topk with
    | none => Device.illegal x
    | some t =>
      if t.ty ≠ vTY x.word then Device.illegal x
      else .ok (d.tookFree.modSeq core (vecTop t (d.freeWord 2) x.word)))

/-- VSAMP: draws one lane of VA by its weight; `draw` is the core's random source (R180). -/
def vecSamp (draw : W32) (free : Nat → W32) (w : W64) (q : Sequencer) : Sequencer :=
  let u := if vSB w then (q.sop (fBb w)).setWidth 32 else draw
  let va := (List.range 256).map fun i => if q.maskOn w i then some (laneVal (vTY w) (q.lane (fA w) i)) else none
  q.setSop (fD w) (sampLane va u free)
def execVsamp (core : Nat) (s : State) : Res0 :=
  onUnit 12 core s (Device.issue core .t 0x2B fun x d =>
    let free := fun i => (Config.freeValue 3 (256 * d.free + i)).setWidth 32
    .ok (d.tookFree.modSeq core (vecSamp ((d.freeWord 1).setWidth 32) free x.word)))

/-- VIOTA: VD[i] := i as INT32 (R168). -/
def vecIota (w : W64) (q : Sequencer) : Sequencer := q.writeLanes w 2 fun i => BitVec.ofNat 32 i
def execViota (core : Nat) (s : State) : Res0 := vecIssue core 0x2C vecIota s

end Sys2Proof.Machine
end

