-- ==== Sys2Proof/Machine/Dispatch.lean ====
section
/-! DEFINITION. The meaning of every command: one arm per constructor of `Instr`. -/

namespace Sys2Proof.Machine

def exec (i : Instr) (s : State) : Host.Outcome State Fault Refusal :=
  match i with
  | .powerOnResetAssert => Sys2Proof.Machine.execPowerOnResetAssert s
  | .coldStart b => Sys2Proof.Machine.execColdStart b s
  | .coldStartReady ms => Sys2Proof.Machine.execColdStartReady ms s
  | .tallyStartTimeout => Sys2Proof.Machine.execTallyStartTimeout s
  | .tcSerFrame bits edges => Sys2Proof.Machine.execTcSerFrame bits edges s
  | .tcClkLoss => Sys2Proof.Machine.execTcClkLoss s
  | .tallyDiverged => Sys2Proof.Machine.execTallyDiverged s
  | .ptpSync m => Sys2Proof.Machine.execPtpSync m s
  | .ptpFollowUp m => Sys2Proof.Machine.execPtpFollowUp m s
  | .ptpDelayResp m => Sys2Proof.Machine.execPtpDelayResp m s
  | .ptpAnnounce m => Sys2Proof.Machine.execPtpAnnounce m s
  | .ptpAnnounceTimeout => Sys2Proof.Machine.execPtpAnnounceTimeout s
  | .ptpSyncTimeout => Sys2Proof.Machine.execPtpSyncTimeout s
  | .vbatCalLoss => Sys2Proof.Machine.execVbatCalLoss s
  | .calendarAnchor => Sys2Proof.Machine.execCalendarAnchor s
  | .tlyNowLowRead => Sys2Proof.Machine.execTlyNowLowRead s
  | .stepStart slot => Sys2Proof.Machine.execStepStart slot s
  | .musterDeadline slot => Sys2Proof.Machine.execMusterDeadline slot s
  | .powerPhase slot => Sys2Proof.Machine.execPowerPhase slot s
  | .heartbeat slot => Sys2Proof.Machine.execHeartbeat slot s
  | .snapshot slot => Sys2Proof.Machine.execSnapshot slot s
  | .hostEvent slot => Sys2Proof.Machine.execHostEvent slot s
  | .bundleDispatch core => Sys2Proof.Machine.execBundleDispatch core s
  | .nop core slot => Sys2Proof.Machine.execNop core slot s
  | .pissue core => Sys2Proof.Machine.execPissue core s
  | .penSlotWrite core => Sys2Proof.Machine.execPenSlotWrite core s
  | .pswap core => Sys2Proof.Machine.execPswap core s
  | .pfold core => Sys2Proof.Machine.execPfold core s
  | .pconv core => Sys2Proof.Machine.execPconv core s
  | .pdrn core => Sys2Proof.Machine.execPdrn core s
  | .pldw core => Sys2Proof.Machine.execPldw core s
  | .pldwComplete core => Sys2Proof.Machine.execPldwComplete core s
  | .pskarm core => Sys2Proof.Machine.execPskarm core s
  | .skidMarkerArrive core => Sys2Proof.Machine.execSkidMarkerArrive core s
  | .skidBeatArrive core => Sys2Proof.Machine.execSkidBeatArrive core s
  | .tpass core => Sys2Proof.Machine.execTpass core s
  | .tpassComplete core => Sys2Proof.Machine.execTpassComplete core s
  | .tact core => Sys2Proof.Machine.execTact core s
  | .cbld core => Sys2Proof.Machine.execCbld core s
  | .cbldComplete core => Sys2Proof.Machine.execCbldComplete core s
  | .vadd core => Sys2Proof.Machine.execVadd core s
  | .vsub core => Sys2Proof.Machine.execVsub core s
  | .vmul core => Sys2Proof.Machine.execVmul core s
  | .vfma core => Sys2Proof.Machine.execVfma core s
  | .vmin core => Sys2Proof.Machine.execVmin core s
  | .vmax core => Sys2Proof.Machine.execVmax core s
  | .vabs core => Sys2Proof.Machine.execVabs core s
  | .vneg core => Sys2Proof.Machine.execVneg core s
  | .vand core => Sys2Proof.Machine.execVand core s
  | .vor core => Sys2Proof.Machine.execVor core s
  | .vxor core => Sys2Proof.Machine.execVxor core s
  | .vshl core => Sys2Proof.Machine.execVshl core s
  | .vshr core => Sys2Proof.Machine.execVshr core s
  | .vsra core => Sys2Proof.Machine.execVsra core s
  | .vcmp core => Sys2Proof.Machine.execVcmp core s
  | .vsel core => Sys2Proof.Machine.execVsel core s
  | .vcvt core => Sys2Proof.Machine.execVcvt core s
  | .vfun core => Sys2Proof.Machine.execVfun core s
  | .vred core => Sys2Proof.Machine.execVred core s
  | .vperm core => Sys2Proof.Machine.execVperm core s
  | .vext core => Sys2Proof.Machine.execVext core s
  | .vpack core => Sys2Proof.Machine.execVpack core s
  | .vunpk core => Sys2Proof.Machine.execVunpk core s
  | .vsort core => Sys2Proof.Machine.execVsort core s
  | .vtkclr core => Sys2Proof.Machine.execVtkclr core s
  | .vtkadd core => Sys2Proof.Machine.execVtkadd core s
  | .vtkget core => Sys2Proof.Machine.execVtkget core s
  | .vsamp core => Sys2Proof.Machine.execVsamp core s
  | .viota core => Sys2Proof.Machine.execViota core s
  | .sld core => Sys2Proof.Machine.execSld core s
  | .sst core => Sys2Proof.Machine.execSst core s
  | .vld core => Sys2Proof.Machine.execVld core s
  | .vst core => Sys2Proof.Machine.execVst core s
  | .vlds core => Sys2Proof.Machine.execVlds core s
  | .vsts core => Sys2Proof.Machine.execVsts core s
  | .haul core => Sys2Proof.Machine.execHaul core s
  | .chpush core => Sys2Proof.Machine.execChpush core s
  | .chpop core => Sys2Proof.Machine.execChpop core s
  | .imld core => Sys2Proof.Machine.execImld core s
  | .add core => Sys2Proof.Machine.execAdd core s
  | .sub core => Sys2Proof.Machine.execSub core s
  | .and core => Sys2Proof.Machine.execAnd core s
  | .or core => Sys2Proof.Machine.execOr core s
  | .xor core => Sys2Proof.Machine.execXor core s
  | .shl core => Sys2Proof.Machine.execShl core s
  | .shr core => Sys2Proof.Machine.execShr core s
  | .sra core => Sys2Proof.Machine.execSra core s
  | .mul core => Sys2Proof.Machine.execMul core s
  | .min core => Sys2Proof.Machine.execMin core s
  | .max core => Sys2Proof.Machine.execMax core s
  | .minu core => Sys2Proof.Machine.execMinu core s
  | .maxu core => Sys2Proof.Machine.execMaxu core s
  | .slt core => Sys2Proof.Machine.execSlt core s
  | .sltu core => Sys2Proof.Machine.execSltu core s
  | .br core => Sys2Proof.Machine.execBr core s
  | .loop core => Sys2Proof.Machine.execLoop core s
  | .mfc core => Sys2Proof.Machine.execMfc core s
  | .mtc core => Sys2Proof.Machine.execMtc core s
  | .msend core => Sys2Proof.Machine.execMsend core s
  | .mrecv core => Sys2Proof.Machine.execMrecv core s
  | .messageArrive src dst => Sys2Proof.Machine.execMessageArrive src dst s
  | .muster core => Sys2Proof.Machine.execMuster core s
  | .musterLeadRelease pdk id => Sys2Proof.Machine.execMusterLeadRelease pdk id s
  | .fsignal core => Sys2Proof.Machine.execFsignal core s
  | .fwait core => Sys2Proof.Machine.execFwait core s
  | .kerf core => Sys2Proof.Machine.execKerf core s
  | .coreYield core => Sys2Proof.Machine.execCoreYield core s
  | .ysync core => Sys2Proof.Machine.execYsync core s
  | .tly core => Sys2Proof.Machine.execTly core s
  | .rand core => Sys2Proof.Machine.execRand core s
  | .trap core => Sys2Proof.Machine.execTrap core s
  | .halt core => Sys2Proof.Machine.execHalt core s
  | .pset core => Sys2Proof.Machine.execPset core s
  | .phase core => Sys2Proof.Machine.execPhase core s
  | .semTicketTake core => Sys2Proof.Machine.execSemTicketTake core s
  | .semRelease core => Sys2Proof.Machine.execSemRelease core s
  | .chuteModeWrite core => Sys2Proof.Machine.execChuteModeWrite core s
  | .chainWrite core => Sys2Proof.Machine.execChainWrite core s
  | .stepAreaWrite core => Sys2Proof.Machine.execStepAreaWrite core s
  | .channelHaltAck core => Sys2Proof.Machine.execChannelHaltAck core s
  | .channelStop core => Sys2Proof.Machine.execChannelStop core s
  | .registerWrite off width value => Sys2Proof.Machine.execRegisterWrite off width value s
  | .haulEnd core ch => Sys2Proof.Machine.execHaulEnd core ch s
  | .channelIdle core ch => Sys2Proof.Machine.execChannelIdle core ch s
  | .haulBase core ch => Sys2Proof.Machine.execHaulBase core ch s
  | .haulStride core ch => Sys2Proof.Machine.execHaulStride core ch s
  | .haulLoop core ch => Sys2Proof.Machine.execHaulLoop core ch s
  | .move core ch => Sys2Proof.Machine.execMove core ch s
  | .pieceIssue core ch => Sys2Proof.Machine.execPieceIssue core ch s
  | .tring core ch => Sys2Proof.Machine.execTring core ch s
  | .tnext core ch => Sys2Proof.Machine.execTnext core ch s
  | .tput core ch => Sys2Proof.Machine.execTput core ch s
  | .tileCreditReturn core ch => Sys2Proof.Machine.execTileCreditReturn core ch s
  | .hpop core ch => Sys2Proof.Machine.execHpop core ch s
  | .hpush core ch => Sys2Proof.Machine.execHpush core ch s
  | .hbase core ch => Sys2Proof.Machine.execHbase core ch s
  | .wopen core ch => Sys2Proof.Machine.execWopen core ch s
  | .wclose core ch => Sys2Proof.Machine.execWclose core ch s
  | .skidmark core ch => Sys2Proof.Machine.execSkidmark core ch s
  | .twait core ch => Sys2Proof.Machine.execTwait core ch s
  | .chutePushArrive src dst => Sys2Proof.Machine.execChutePushArrive src dst s
  | .chuteFreeSignal core chute => Sys2Proof.Machine.execChuteFreeSignal core chute s
  | .landBurst pid => Sys2Proof.Machine.execLandBurst pid s
  | .yardUeRead core block req => Sys2Proof.Machine.execYardUeRead core block req s
  | .mendWriteback core => Sys2Proof.Machine.execMendWriteback core s
  | .mergeDrainTimeout core => Sys2Proof.Machine.execMergeDrainTimeout core s
  | .patrolRead core => Sys2Proof.Machine.execPatrolRead core s
  | .remapInstall core bank row word => Sys2Proof.Machine.execRemapInstall core bank row word s
  | .regionClearComplete core => Sys2Proof.Machine.execRegionClearComplete core s
  | .windowTransferCheck pid => Sys2Proof.Machine.execWindowTransferCheck pid s
  | .windowCloseComplete pdk slot => Sys2Proof.Machine.execWindowCloseComplete pdk slot s
  | .channelTrainingDone chan ok => Sys2Proof.Machine.execChannelTrainingDone chan ok s
  | .segmentZeroComplete pdk entry => Sys2Proof.Machine.execSegmentZeroComplete pdk entry s
  | .privateReadComplete pid check => Sys2Proof.Machine.execPrivateReadComplete pid check s
  | .cxlGo pid => Sys2Proof.Machine.execCxlGo pid s
  | .cxlReadData pid data => Sys2Proof.Machine.execCxlReadData pid data s
  | .cxlSnoop => Sys2Proof.Machine.execCxlSnoop s
  | .atsCompletion walker r => Sys2Proof.Machine.execAtsCompletion walker r s
  | .atsTimeout walker => Sys2Proof.Machine.execAtsTimeout walker s
  | .prgResponse walker code => Sys2Proof.Machine.execPrgResponse walker code s
  | .pageRequestTimeout walker => Sys2Proof.Machine.execPageRequestTimeout walker s
  | .atsInvalidate ctx dva size => Sys2Proof.Machine.execAtsInvalidate ctx dva size s
  | .invalAck agent => Sys2Proof.Machine.execInvalAck agent s
  | .invalTimeout agent => Sys2Proof.Machine.execInvalTimeout agent s
  | .xltFlush value => Sys2Proof.Machine.execXltFlush value s
  | .priResume => Sys2Proof.Machine.execPriResume s
  | .ucieLinkTraining m0 m1 => Sys2Proof.Machine.execUcieLinkTraining m0 m1 s
  | .functionLevelReset => Sys2Proof.Machine.execFunctionLevelReset s
  | .bind stall queue entry => Sys2Proof.Machine.execBind stall queue entry s
  | .bindComplete stall checkOk => Sys2Proof.Machine.execBindComplete stall checkOk s
  | .unbind stall => Sys2Proof.Machine.execUnbind stall s
  | .unbindComplete stall => Sys2Proof.Machine.execUnbindComplete stall s
  | .capsuleWrite stall off data => Sys2Proof.Machine.execCapsuleWrite stall off data s
  | .capsuleTake stall => Sys2Proof.Machine.execCapsuleTake stall s
  | .creditRecordTimer stall => Sys2Proof.Machine.execCreditRecordTimer stall s
  | .capsuleNop stall => Sys2Proof.Machine.execCapsuleNop stall s
  | .runProgram stall => Sys2Proof.Machine.execRunProgram stall s
  | .copy stall => Sys2Proof.Machine.execCopy stall s
  | .intakeChunk stall c => Sys2Proof.Machine.execIntakeChunk stall c s
  | .signalFence stall => Sys2Proof.Machine.execSignalFence stall s
  | .waitFence stall => Sys2Proof.Machine.execWaitFence stall s
  | .objCreate stall => Sys2Proof.Machine.execObjCreate stall s
  | .objRef stall => Sys2Proof.Machine.execObjRef stall s
  | .objUnref stall => Sys2Proof.Machine.execObjUnref stall s
  | .yardLoad stall => Sys2Proof.Machine.execYardLoad stall s
  | .windowOpen stall => Sys2Proof.Machine.execWindowOpen stall s
  | .windowClose stall => Sys2Proof.Machine.execWindowClose stall s
  | .seqJoin stall => Sys2Proof.Machine.execSeqJoin stall s
  | .seqLeave stall => Sys2Proof.Machine.execSeqLeave stall s
  | .hintPhase stall => Sys2Proof.Machine.execHintPhase stall s
  | .musterSet stall peers => Sys2Proof.Machine.execMusterSet stall peers s
  | .cancel stall => Sys2Proof.Machine.execCancel stall s
  | .commandComplete stall => Sys2Proof.Machine.execCommandComplete stall s
  | .mirrorWriteFail fence denied => Sys2Proof.Machine.execMirrorWriteFail fence denied s
  | .ringWriteFail ring => Sys2Proof.Machine.execRingWriteFail ring s
  | .msixModerationExpiry vector => Sys2Proof.Machine.execMsixModerationExpiry vector s
  | .evrCtlWrite ring value => Sys2Proof.Machine.execEvrCtlWrite ring value s
  | .jobStart pdk img => Sys2Proof.Machine.execJobStart pdk img s
  | .jobRelease job => Sys2Proof.Machine.execJobRelease job s
  | .jobResume job => Sys2Proof.Machine.execJobResume job s
  | .quantumExpiry job => Sys2Proof.Machine.execQuantumExpiry job s
  | .accountNormalise pdk => Sys2Proof.Machine.execAccountNormalise pdk s
  | .semSetup pdk n value => Sys2Proof.Machine.execSemSetup pdk n value s
  | .semTeardown pdk n => Sys2Proof.Machine.execSemTeardown pdk n s
  | .queuePark pdk => Sys2Proof.Machine.execQueuePark pdk s
  | .queueUnpark stall => Sys2Proof.Machine.execQueueUnpark stall s
  | .queueRunnable queue => Sys2Proof.Machine.execQueueRunnable queue s
  | .stepRelease pdk => Sys2Proof.Machine.execStepRelease pdk s
  | .stepCtlWrite pdk value => Sys2Proof.Machine.execStepCtlWrite pdk value s
  | .droveHello port f => Sys2Proof.Machine.execDroveHello port f s
  | .droveWrite port f => Sys2Proof.Machine.execDroveWrite port f s
  | .droveReadReq port f => Sys2Proof.Machine.execDroveReadReq port f s
  | .droveReadRsp port f => Sys2Proof.Machine.execDroveReadRsp port f s
  | .droveAck port f => Sys2Proof.Machine.execDroveAck port f s
  | .droveNak port f => Sys2Proof.Machine.execDroveNak port f s
  | .droveMusterArrive port f => Sys2Proof.Machine.execDroveMusterArrive port f s
  | .droveMusterRelease port f => Sys2Proof.Machine.execDroveMusterRelease port f s
  | .frameForward port f => Sys2Proof.Machine.execFrameForward port f s
  | .arpRequest port ip => Sys2Proof.Machine.execArpRequest port ip s
  | .neighbourSolicitation port ip => Sys2Proof.Machine.execNeighbourSolicitation port ip s
  | .pfcPause port => Sys2Proof.Machine.execPfcPause port s
  | .portLinkChange port up => Sys2Proof.Machine.execPortLinkChange port up s
  | .helloSend b => Sys2Proof.Machine.execHelloSend b s
  | .ackSend b => Sys2Proof.Machine.execAckSend b s
  | .retransmit b psn => Sys2Proof.Machine.execRetransmit b psn s
  | .sessionTimeout b => Sys2Proof.Machine.execSessionTimeout b s
  | .powerInterval a => Sys2Proof.Machine.execPowerInterval a s
  | .stepDecision => Sys2Proof.Machine.execStepDecision s
  | .pmVack => Sys2Proof.Machine.execPmVack s
  | .vregTimeout => Sys2Proof.Machine.execVregTimeout s
  | .raiseSuppressEnd => Sys2Proof.Machine.execRaiseSuppressEnd s
  | .lockstepRaise => Sys2Proof.Machine.execLockstepRaise s
  | .grazeTimeout core => Sys2Proof.Machine.execGrazeTimeout core s
  | .supplyWarning mv => Sys2Proof.Machine.execSupplyWarning mv s
  | .supplyHold => Sys2Proof.Machine.execSupplyHold s
  | .supplyNormal => Sys2Proof.Machine.execSupplyNormal s
  | .supplyReset mv => Sys2Proof.Machine.execSupplyReset mv s
  | .thermalSample t => Sys2Proof.Machine.execThermalSample t s
  | .thermalMaxstepTick => Sys2Proof.Machine.execThermalMaxstepTick s
  | .thermalTripExit => Sys2Proof.Machine.execThermalTripExit s
  | .entropySample pass => Sys2Proof.Machine.execEntropySample pass s
  | .drbgReseed => Sys2Proof.Machine.execDrbgReseed s
  | .tenantRemoveRequest pdk => Sys2Proof.Machine.execTenantRemoveRequest pdk s
  | .removalRetire pdk flash => Sys2Proof.Machine.execRemovalRetire pdk flash s
  | .removalScrub pdk => Sys2Proof.Machine.execRemovalScrub pdk s
  | .removalEnd pdk => Sys2Proof.Machine.execRemovalEnd pdk s
  | .traceWriteFail pdk => Sys2Proof.Machine.execTraceWriteFail pdk s
  | .hangReportTimeout pdk => Sys2Proof.Machine.execHangReportTimeout pdk s
  | .droverFault pdk => Sys2Proof.Machine.execDroverFault pdk s
  | .watchdogExpiry regs => Sys2Proof.Machine.execWatchdogExpiry regs s
  | .shepherdRestartDone => Sys2Proof.Machine.execShepherdRestartDone s
  | .paddockResetRequest pdk => Sys2Proof.Machine.execPaddockResetRequest pdk s
  | .paddockReset pdk => Sys2Proof.Machine.execPaddockReset pdk s
  | .paddockReady pdk => Sys2Proof.Machine.execPaddockReady pdk s
  | .deviceReset cause t => Sys2Proof.Machine.execDeviceReset cause t s
  | .deviceResetReady ms => Sys2Proof.Machine.execDeviceResetReady ms s
  | .dzientRead sess r => Sys2Proof.Machine.execDzientRead sess r s
  | .dzientNext sess r => Sys2Proof.Machine.execDzientNext sess r s
  | .dzientWrite sess r => Sys2Proof.Machine.execDzientWrite sess r s
  | .layoutWrite sess r => Sys2Proof.Machine.execLayoutWrite sess r s
  | .chanOnWrite sess r => Sys2Proof.Machine.execChanOnWrite sess r s
  | .capSetWrite sess r => Sys2Proof.Machine.execCapSetWrite sess r s
  | .opRootWrite sess r parses => Sys2Proof.Machine.execOpRootWrite sess r parses s
  | .trustWrite sess r => Sys2Proof.Machine.execTrustWrite sess r s
  | .bundleRelease sess r u => Sys2Proof.Machine.execBundleRelease sess r u s
  | .removeWrite sess r => Sys2Proof.Machine.execRemoveWrite sess r s
  | .pdkResetWrite sess r => Sys2Proof.Machine.execPdkResetWrite sess r s
  | .devResetWrite sess r => Sys2Proof.Machine.execDevResetWrite sess r s
  | .snapSetWrite sess r => Sys2Proof.Machine.execSnapSetWrite sess r s
  | .bindWrite sess r => Sys2Proof.Machine.execBindWrite sess r s
  | .routeWrite sess r => Sys2Proof.Machine.execRouteWrite sess r s
  | .stageWrite sess r => Sys2Proof.Machine.execStageWrite sess r s
  | .commit sess r imageOk => Sys2Proof.Machine.execCommit sess r imageOk s
  | .srcWrite sess r => Sys2Proof.Machine.execSrcWrite sess r s
  | .tcHzWrite sess r => Sys2Proof.Machine.execTcHzWrite sess r s
  | .calSet sess r => Sys2Proof.Machine.execCalSet sess r s
  | .spdmGetVersion sess m => Sys2Proof.Machine.execSpdmGetVersion sess m s
  | .spdmGetCapabilities sess m => Sys2Proof.Machine.execSpdmGetCapabilities sess m s
  | .spdmNegotiateAlgorithms sess m => Sys2Proof.Machine.execSpdmNegotiateAlgorithms sess m s
  | .spdmGetDigests sess m => Sys2Proof.Machine.execSpdmGetDigests sess m s
  | .spdmGetCertificate sess m => Sys2Proof.Machine.execSpdmGetCertificate sess m s
  | .spdmChallenge sess m => Sys2Proof.Machine.execSpdmChallenge sess m s
  | .spdmGetMeasurements sess m => Sys2Proof.Machine.execSpdmGetMeasurements sess m s
  | .spdmKeyExchange sess m => Sys2Proof.Machine.execSpdmKeyExchange sess m s
  | .spdmFinish sess m => Sys2Proof.Machine.execSpdmFinish sess m s
  | .spdmHeartbeat sess m => Sys2Proof.Machine.execSpdmHeartbeat sess m s
  | .spdmKeyUpdate sess m => Sys2Proof.Machine.execSpdmKeyUpdate sess m s
  | .spdmEndSession sess m => Sys2Proof.Machine.execSpdmEndSession sess m s
  | .spdmChunkGet sess m => Sys2Proof.Machine.execSpdmChunkGet sess m s
  | .spdmHeartbeatMissed sess => Sys2Proof.Machine.execSpdmHeartbeatMissed sess s
  | .mctpSetEndpointId eid => Sys2Proof.Machine.execMctpSetEndpointId eid s
  | .mctpGetEndpointId => Sys2Proof.Machine.execMctpGetEndpointId s
  | .mctpGetEndpointUuid => Sys2Proof.Machine.execMctpGetEndpointUuid s
  | .mctpGetVersionSupport => Sys2Proof.Machine.execMctpGetVersionSupport s
  | .mctpGetMessageTypeSupport => Sys2Proof.Machine.execMctpGetMessageTypeSupport s
  | .mctpUnsupportedControl cmd => Sys2Proof.Machine.execMctpUnsupportedControl cmd s
  | .i3cEntdaa addr => Sys2Proof.Machine.execI3cEntdaa addr s
  | .i3cSetdasa addr => Sys2Proof.Machine.execI3cSetdasa addr s
  | .flashLineRead line first second => Sys2Proof.Machine.execFlashLineRead line first second s
  | .flashProgram unit data => Sys2Proof.Machine.execFlashProgram unit data s
  | .flashProgramComplete ok => Sys2Proof.Machine.execFlashProgramComplete ok s
  | .flashErase block => Sys2Proof.Machine.execFlashErase block s
  | .flashEraseComplete ok => Sys2Proof.Machine.execFlashEraseComplete ok s
  | .flashForcedTimer => Sys2Proof.Machine.execFlashForcedTimer s
  | .flashRelocate block readBackOk => Sys2Proof.Machine.execFlashRelocate block readBackOk s
  | .flashLogEntry code detail => Sys2Proof.Machine.execFlashLogEntry code detail s
  | .twaitReached core ch => Sys2Proof.Machine.execTwaitReached core ch s
  | .privateWriteComplete pid => Sys2Proof.Machine.execPrivateWriteComplete pid s
  | .ptpDelayReq m => Sys2Proof.Machine.execPtpDelayReq m s
  | .ptpTimeTransmit => Sys2Proof.Machine.execPtpTimeTransmit s
  | .rxFrameDrop port => Sys2Proof.Machine.execRxFrameDrop port s
  | .pfcPauseExpiry port => Sys2Proof.Machine.execPfcPauseExpiry port s
  | .msixVectorUnmask vector => Sys2Proof.Machine.execMsixVectorUnmask vector s

end Sys2Proof.Machine
end

