-- ==== Sys2Proof/Machine/Tick.lean ====
section
/-! DEFINITION. What passes while nothing is commanded: one period of the 1 GHz Tally clock. What happens at a tick
whatever is commanded stands here; deadlines, timeouts and alarms that fire are commands of their own. -/

namespace Sys2Proof.Machine

/-- The calendar counts 1/32,768 s; at such a boundary a written value takes effect (R46). -/
def calStep (t : Tally) : Tally :=
  let r := t.calRem + 32768
  if 1000000000 ≤ r then
    match t.calSet with
    | some v => { t with cal := v, calRem := 0, calValid := true, calSet := none }
    | none => { t with cal := (t.cal + 1) % 2 ^ 63, calRem := r - 1000000000 }
  else { t with calRem := r }

/-- The offset that is left shrinks with a trimmed period; outside holdover the trim ends with it (R31, R33). -/
def trimmed (t : Tally) (back ahead : Nat) : Tally :=
  let b := t.backward - back
  let a := t.ahead - ahead
  { t with backward := b, ahead := a, trim := if b = 0 ∧ a = 0 ∧ t.state ≠ .holdover then 0 else t.trim }

/-- One Tally clock period: the Tally advances by 1, and by 2 or 0 in the isolated periods of a trim (R25). -/
def tallyStep (t : Tally) : Tally :=
  if t.running then
    let r := t.trimRem + t.trim
    if 1000000 ≤ r then trimmed { t with now := t.now + 2, trimRem := r - 1000000 } 0 1
    else if r ≤ -1000000 then trimmed { t with trimRem := r + 1000000 } 1 0
    else { t with now := t.now + 1, trimRem := r }
  else t

/-- Number of a stall cause (Table 8.6). -/
def Cause.number (c : Cause) : Nat :=
  match c with
  | .chuteEmpty => 1 | .chuteFull => 2 | .copy => 3 | .bankConflict => 4 | .memPort => 5 | .linkCredit => 6
  | .xlate => 7 | .muster => 8 | .fence => 9 | .power => 10 | .preempt => 11 | .scrub => 12

/-- Precedence of a stall cause (Table 8.6). -/
def Cause.rank (c : Cause) : Nat :=
  match c with
  | .scrub => 1 | .preempt => 2 | .power => 3 | .copy => 4 | .xlate => 5 | .linkCredit => 6 | .memPort => 7
  | .bankConflict => 8 | .fence => 9 | .muster => 10 | .chuteFull => 11 | .chuteEmpty => 12
/-- The first of some causes in the order of precedence. -/
def firstCause (l : List Cause) : Option Cause :=
  l.foldl (fun b c => match b with
    | some x => if c.rank < x.rank then some c else b
    | none => some c) none

/-- What one cycle of a core takes from outside the core: the grid cycle, a supply dip, a request of its own that its port
has refused, a clear that its release waits for, a spent balance, and the weights of the filler, of a waiting Pen issue and of a
waiting stream cycle. -/
structure CycleIn where
  now : Nat
  dip : Bool
  conflict : Bool
  scrub : Bool
  spent : Bool
  filler : Nat
  issue : Nat
  stream : Nat

/-- The cause that a cycle of the core counts under (R259). -/
def stallOf (i : CycleIn) (k : Core) : Option Cause :=
  firstCause ((if i.scrub then [.scrub] else []) ++ (if k.sq.stat = .draining then [.preempt] else []) ++
    (if i.conflict then [.bankConflict] else []) ++ k.waits.map (·.2))

/-- Activity level at the end of a cycle: one more after an issue, or after one that the ramp alone held back, else one less; it
stays while the core grazes, and a supply dip clamps it (R100, R422, R424). -/
def Pen.levelled (i : CycleIn) (graze : Bool) (p : Pen) : Pen :=
  let l := if p.issued.head? = some i.now ∨ p.barred = some i.now then min 32 (p.level + 1)
           else if graze then p.level else p.level - 1
  { p with level := if i.dip then min 8 l else l, barred := if p.level = 0 then none else p.barred }
/-- Activity of the Pens that run filler in a cycle (R101); a grazing core with a spent balance runs none (R422). -/
def fillerOf (i : CycleIn) (k : Core) : Nat :=
  if k.grazing.isSome && i.spent then 0
  else (k.pn.pens.map fun kv => if kv.2.issued.head? = some i.now then 0 else kv.2.level).sum

/-- The gap since the last Kerf point grows; in a wait at a KP-marked instruction only while the core drains (R188). -/
def gapStep (kp : Bool) (q : Sequencer) : Sequencer :=
  match q.stat with
  | .run => if kp then q else { q with gap := q.gap + 1 }
  | .draining => { q with gap := q.gap + 1 }
  | _ => q

/-- Energy of the issues that wait under POWER in a cycle (R419). -/
def waitedOf (i : CycleIn) (k : Core) : Nat :=
  (if Table.find k.waits 0 = some .power then i.issue else 0) + (if Table.find k.waits 4 = some .power then i.stream else 0)

/-- One cycle of a core (R100, R101, R188, R259, R260). -/
def coreCycle (i : CycleIn) (k : Core) : Core :=
  let kp := kpWaits k
  let k := { k with work := k.work + i.filler * fillerOf i k,
                    pn := { k.pn with pens := Table.mapAll k.pn.pens Pen.reset (Pen.levelled i k.grazing.isSome) } }
  if k.job.isNone then k
  else
    let k := { k with sq := gapStep kp k.sq, runCnt := k.runCnt + 1 }
    match stallOf i k with
    | none => k
    | some c =>
      { k with stalls := Table.set k.stalls 0 c.number (Table.get k.stalls 0 c.number + 1),
               waited := if c = .power then k.waited + waitedOf i k else k.waited }

namespace Device

/-- Energy of the Pen issue that waits at the head of core `c`'s P queue, or of its walk's next one. -/
def headWeight (d : Device) (c : Nat) : Nat :=
  let k := d.core c
  match k.pn.walk with
  | some w => d.weight (issueKind 0 w.conv.elem w.conv.elem)
  | none =>
    match k.sq.qp with
    | x :: _ =>
      let a := issueArgs k.sq x.word
      ((maskUnits k.sq x.word).flatMap (pensOf a.fold)).length * d.weight (issueKind a.op a.fw a.fx)
    | [] => 0
/-- Core `c` waits for its release while a clear that an earlier job left in its slice runs (Table 8.6). -/
def scrubWait (d : Device) (c : Nat) : Bool :=
  (match d.jobOf c with
   | some (_, v) => v.state == .loading
   | none => false) && (d.slice c).regions.any fun kv => kv.2.valid && kv.2.clearing
/-- What a cycle of core `c` takes from the rest of the block. -/
def cycleIn (d : Device) (c : Nat) : CycleIn :=
  { now := d.power.cycles, dip := d.power.supply != .normal, conflict := (d.slice c).conflict, scrub := d.scrubWait c,
    spent := d.withheld c, filler := d.cal.weights.getD 3 0, issue := d.headWeight c, stream := d.weight 4 }
/-- The ports of core `c`'s slice grant requests for one cycle; the core's budget bears each grant (R201, R414). -/
def portsCycle (d : Device) (c : Nat) : Device :=
  let s := d.slice c
  if s.requests.isEmpty then d
  else
    let t := s.portCycle d.power.cycles
    (d.setSlice c t).spend c ((s.requests.length - t.requests.length) * d.weight 5)
/-- One cycle of the grid clock: the walks and the streams, the ports, then every core that is not at reset. -/
def gridCycle (d : Device) : Device :=
  let d := (List.range 12).foldl (fun d c => (d.walkCycle c).troughCycle c) d
  let d := (List.range 12).foldl portsCycle d
  let d := Table.foldl d.cores (fun e c k => e.setCore c (coreCycle (d.cycleIn c) k)) d
  { d with power := { d.power with cycles := d.power.cycles + 1 } }

/-- The grid clock runs at the frequency of the step in force (Table 13.1). -/
def gridStep (d : Device) : Device :=
  let r := d.power.cycRem + stepMHz d.power.cur
  if 1000 ≤ r then { d with power := { d.power with cycRem := r - 1000 } }.gridCycle
  else { d with power := { d.power with cycRem := r } }

/-- `n` nanoseconds of Tally time are charged for the cores of one job: to its group, or to the step that it runs (R355,
R357). Between steps the step job charges nothing. -/
def chargeJob (n : Nat) (d : Device) (v : Job) : Device :=
  if !jobHolds v then d
  else
    let t := n * (v.cores.filter fun c => !v.yielded.contains c).length
    if v.step && v.loan.isNone then
      d.modPdk v.paddock fun k => { k with inStep := k.inStep.map fun b => { b with time := b.time + t } }
    else d.chargeGroup v.paddock (chargeOf v) t

/-- The accounts grow with the Tally since `before`. -/
def charged (d : Device) (before : Nat) : Device :=
  if d.now ≤ before then d else Table.foldl d.jobs (fun d _ v => d.chargeJob (d.now - before) v) d

/-- The Drover of each running Paddock advances its liveness count every 100 us (R467). -/
def livened (d : Device) (before : Nat) : Device :=
  if before / 100000 = d.now / 100000 then d
  else ((List.range 6).filter fun p => d.pdkPresent p && (d.pdk p).rst == .running).foldl
    (fun d p => d.modPdk p fun k => { k with alive := k.alive + 1 }) d

end Device

/-- One Tally clock period of the block. A calendar value that takes effect in it is anchored (R48). -/
def tick (d : Device) : Device :=
  let e : Device := { d with tally := (tallyStep (calStep d.tally)).marked }
  let e := if d.tally.calSet.isSome && e.tally.calSet.isNone then e.anchor else e
  ((((e.gridStep).framed d.now).charged d.now).livened d.now).sampled d.now

end Sys2Proof.Machine
end

