-- ==== Sys2Proof/Safety.lean ====
section
/-! DEFINITION. What statements about whole runs speak of: the canonical form of the memories, what every command keeps,
and what every command but the start of the device keeps. -/

namespace Sys2Proof.Machine

/-- The Yard slices, and the data of each, in canonical form. -/
def slicesWf (t : Table Slice) : Bool := Table.wf t Slice.reset && t.all fun kv => Table.wf kv.2.data Blk.reset
/-- The channels of private memory, and the lines of each, in canonical form. -/
def chansWf (t : Table Chan) : Bool := Table.wf t Chan.reset && t.all fun kv => Table.wf kv.2.lines Line.reset
/-- The memories of the block are in canonical form: equal contents are equal data. -/
def Device.memWf (d : Device) : Bool := slicesWf d.slices && chansWf d.chans

/-- The Tally reads 0 until it starts (R519). -/
def Device.tallyOk (d : Device) : Bool := d.tally.running || d.tally.now == 0

/-- `e` may follow `d` at any command: the fuses and the factory's data stand, what has left the block stays first in the
log of what left it, the memories keep their form, and a Tally that has not started reads 0. -/
structure Device.Kept (d e : Device) : Prop where
  fuse : e.fuse = d.fuse
  cal : e.cal = d.cal
  out : d.out <+: e.out
  mem : d.memWf = true → e.memWf = true
  tally : d.tallyOk = true → e.tallyOk = true

/-- `e` may follow `d` at any command but a power-on reset and a cold start: the epoch stands, and the Tally does not go
back (R25, R27, R45). -/
structure Device.Later (d e : Device) : Prop extends Device.Kept d e where
  epoch : e.tally.epoch = d.tally.epoch
  now : d.tallyOk = true → d.tally.now ≤ e.tally.now

/-! ### An instruction that issues -/

/-- The head of slot queue `sl` of core `c` is `x`, an instruction of opcode `op` that issues now: the core is there and
issues, its Paddock is not fenced, no PCONV walks where it is for the P slot, the core does not drain at its Kerf point, no
returned push holds the slot, the word is legal, no earlier instruction stands in its way, and its guard holds (R108, R158 to
R161, R186, R257). -/
def Device.mayIssue (d : Device) (c : Nat) (sl : Slot) (op : Nat) (x : QInstr) : Bool :=
  decide (c < 12) && ((d.core c).sq.queue sl).head? == some x && x.slot == sl && opOf x.word == op && (d.core c).sq.issues && !d.frozen c &&
  !(sl == .p && (d.core c).pn.walk.isSome) && !((d.core c).sq.draining == some none && kpMarked sl x.word) &&
  !d.slotHolds c sl && legal sl x.word && (d.core c).sq.ready x && (d.core c).sq.guardOk x.word

/-- The head of slot queue `sl` of core `c` leaves its queue with its values readable, and the slot waits for nothing. -/
def Device.retired (d : Device) (c : Nat) (sl : Slot) : Device :=
  d.modCore c fun k => { k.waitsIn sl none with sq := k.sq.retire sl }

/-- The head of slot queue `sl` of core `c` leaves its queue; its claims stay until its values are readable. -/
def Device.departed (d : Device) (c : Nat) (sl : Slot) : Device :=
  d.modCore c fun k => { k.waitsIn sl none with sq := k.sq.issued sl }

/-- A vector instruction of core `c` leaves its queue, and its energy is counted (R411). -/
def Device.vecRetired (d : Device) (c : Nat) : Device := (d.spend c (d.weight 6)).retired c .t

/-- The registers of core `c`. -/
abbrev Device.regs (d : Device) (c : Nat) : Sequencer := (d.core c).sq

/-! ### Shapes of result statements

Each says that a command completes on every state and operands that meet the hypotheses, and with what next state. -/

/-- Instruction `i`, opcode `op` of the C slot, writes `f` of A and operand b to D; nothing else changes but its queue (R173). -/
def AluResult (i : Nat → Instr) (op : Nat) (f : W64 → W64 → W64) : Prop :=
  ∀ (s : State) (c : Nat) (x : QInstr), s.dev.mayIssue c .c op x = true →
    exec (i c) s = .next { s with dev :=
      (s.dev.modSeq c fun q => q.setSop (fD x.word) (f (q.sop (fA x.word)) (q.aluB x.word))).retired c .c }

/-- Instruction `i`, opcode `op` of the T slot, writes VD: an unmasked lane `l` takes `f` of the word, the registers and `l`,
with the bits its type `ty` keeps; a masked lane keeps its value, or takes zero with MZ (R155, R168, R169). Nothing else
changes but its queue and the core's energy. -/
def VecResult (i : Nat → Instr) (op : Nat) (ty : W64 → Nat) (f : W64 → Sequencer → Nat → W32) : Prop :=
  ∀ (s : State) (c : Nat) (x : QInstr), s.dev.mayIssue c .t op x = true →
    ∃ v : VReg, exec (i c) s = .next { s with dev := (s.dev.modSeq c fun q => q.setV (fD x.word) v).vecRetired c } ∧
      ∀ l < 256, Table.get v 0 l =
        if ((s.dev.regs c).pReg (vMP x.word)).getLsbD l then laneFix (ty x.word) (f x.word (s.dev.regs c) l)
        else if vMZ x.word then 0 else (s.dev.regs c).lane (fD x.word) l

/-- A lane-wise result of two operands: the integer form on INT32 lanes, else the exact value rounded to the type (R176). -/
def lanes2 (int : W32 → W32 → W32) (flt : FVal → FVal → FVal) (w : W64) (q : Sequencer) (l : Nat) : W32 :=
  let x := q.lane (fA w) l
  let y := q.vb w l
  if vTY w = 2 then int x y else laneOut (vTY w) (flt (laneVal (vTY w) x) (laneVal (vTY w) y))

/-- Instruction `i`, opcode `op` of the M slot, loads `n` bytes from its Yard offset: where the offset is a multiple of 4 inside
regions its job reaches, no earlier access of the slot holds the ports and no block fails, `f` of the bytes is written, and
A[AB] grows with PI (R171, R203, R206). -/
def LoadResult (i : Nat → Instr) (op : Nat) (n : W64 → Nat) (f : W64 → List Byte → Sequencer → Sequencer) : Prop :=
  ∀ (s : State) (c : Nat) (x : QInstr) (e : Device) (bs : List Byte), s.dev.mayIssue c .m op x = true →
    let off := mOffset (s.dev.regs c) x.word
    off.toNat % 4 = 0 → s.dev.ownRange c off.toNat (n x.word) = true → s.dev.portsBusy c = false →
    (s.dev.audit c off.toNat (n x.word)).readYard c 4 off.toNat (n x.word) = (e, .inl bs) →
    exec (i c) s = .next { s with dev := (e.modSeq c fun q => mPost x.word (f x.word bs q)).retired c .m }

/-- Instruction `x` of core `c` completes with the device `e`, from `d`: it leaves its queue, its Kerf point is counted where it
is one (R186), and the trace unit notes it where it is enabled (R456). -/
def Device.completed (d : Device) (c : Nat) (x : QInstr) (e : Device) : Device :=
  Device.traceIssue d c x ((e.retired c x.slot).kpDone c x)

/-- Instruction `i`, opcode `op` of the M slot, stores bytes at its Yard offset: where that is a multiple of 4 inside regions its
job reaches and no earlier access of the slot holds the ports, `f` of the registers is written, and A[AB] grows with PI; with
`ports` its lines ask the slice's ports first (R171, R203, R206). -/
def StoreResult (i : Nat → Instr) (op : Nat) (ports : Bool) (f : W64 → Sequencer → List Byte) : Prop :=
  ∀ (s : State) (c : Nat) (x : QInstr), s.dev.mayIssue c .m op x = true →
    let off := mOffset (s.dev.regs c) x.word
    let bs := f x.word (s.dev.regs c)
    off.toNat % 4 = 0 → s.dev.ownRange c off.toNat bs.length = true → s.dev.portsBusy c = false →
    let d := if ports then s.dev.askPorts c 4 true (linesOf off.toNat bs.length) [(c, 2)] else s.dev
    let e := ((d.audit c off.toNat bs.length).writeYard c off.toNat bs).modSeq c (mPost x.word)
    exec (i c) s = .next { s with dev := s.dev.completed c x e }

/-- Byte `a` of slice `c` as its next reader gets it where its block is good: the merge entry's byte if it holds one, else the
byte of the block, mended in a GUARDED region (R211, R214, R215). -/
def Slice.byteAt (s : Slice) (a : Nat) : Byte :=
  let b := a / 32
  let blk := s.block b
  let data := if s.guardedAt (32 * b) then (match checkGuarded blk with
    | .mended k => k.data
    | _ => blk.data) else blk.data
  let byteOf := fun (x : Block256) => BitVec.ofNat 8 (bits x (8 * (a % 32) + 7) (8 * (a % 32)))
  match s.merge.find? fun m => m.block == b with
  | some m => if m.mask.getLsbD (a % 32) then byteOf m.data else byteOf data
  | none => byteOf data

/-- Block `b` of slice `c` reads as it is: no merge entry holds it, and its check finds nothing to mend. -/
def Device.plainRead (d : Device) (c b : Nat) : Bool :=
  ((d.slice c).merge.all fun m => m.block != b) &&
  checkBlk ((d.slice c).guardedAt (32 * b)) ((d.slice c).block b) == .good

/-- Channel `ch` of core `c` runs, its Paddock is not fenced, it waits for no close, its earlier pieces have issued, and its
next instruction has HOP `op` (R231, R235). -/
def Device.mayExecute (d : Device) (c ch op : Nat) : Bool :=
  let k := d.channel c ch
  decide (c < 12) && decide (ch < 2) && k.state == .running && !d.frozen c && !k.ending && k.closing.isNone && hop k.word == op &&
  k.planned.isEmpty

/-- Channel `ch` of core `c` becomes `k`, whose instruction is done. -/
abbrev Device.executed (d : Device) (c ch : Nat) (k : Channel) : Device := d.setChannel c ch k.next

/-- Command `i` on channel `ch` of core `c`, whose instruction of HOP `op` may execute, makes it `f` of its word and itself, and it
goes on; nothing else changes. -/
def ChannelResult (i : Nat → Nat → Instr) (op : Nat) (f : W64 → Channel → Channel) : Prop :=
  ∀ (s : State) (c ch : Nat), s.dev.mayExecute c ch op = true →
    exec (i c ch) s = .next { s with dev := s.dev.executed c ch (f (s.dev.channel c ch).word (s.dev.channel c ch)) }

/-- The capsule at NEXT of Stall `st` has left its landing slot, NEXT has advanced, and the capsule is counted (R321, R322). -/
def Device.tookCapsule (d : Device) (st : Nat) : Device :=
  let p := (d.stall st).q.paddock
  let q := { (d.stall st).q with landed := Table.erase (d.stall st).q.landed ((d.stall st).q.next.toNat % 32),
                                 next := (d.stall st).q.next + 1 }
  ((d.setStall st { d.stall st with dropPosted := false, q := q }).progress p).countTaken st

/-- The answer with `d` in place of the device, and the queue as it is. -/
abbrev State.goes (s : State) (d : Device) : Res0 := .next { s with dev := d }

/-! ### Frames of the Drove links -/

/-- Frame `f`, of type `t`, comes in at port `n` for this device, its header is good, its Paddock runs, and binding `b` of that
Paddock names the Paddock that sent it (R385, R387, R390). -/
def Device.frameFor (d : Device) (n b : Nat) (t : FrameType) (f : DroveFrame) : Bool :=
  decide (n < 2) && f.type == t && d.links.addr != 0 && f.dst == d.links.addr && Device.headerOk f &&
  (d.pdk f.dpdk.toNat).rst == .running && d.bindingTo f.dpdk.toNat f.src.toNat == some b && (d.binding b).peerPdk == f.spdk.toNat

/-- Such a frame belongs to the open session of binding `b` (R391, R392). -/
def Device.upFrame (d : Device) (n b : Nat) (t : FrameType) (f : DroveFrame) : Bool :=
  d.frameFor n b t f && (d.binding b).state == .up && f.inc == (d.binding b).pinc

/-- A frame is counted at port `n`. -/
abbrev Device.received (d : Device) (n : Nat) : Device := d.modPort n fun p => { p with rxFrm := p.rxFrm + 1 }

/-- Such a frame is counted, and leaves its receive stamp at its binding (R43). -/
abbrev Device.reached (d : Device) (n b : Nat) : Device := (d.received n).modBinding b fun x => { x with rxAt := d.now }

/-- The frame `f` that binding `b` expected has had its effect, with the device `e`: the next one is expected, its receive buffer is
granted again, an ACK is owed, the frames held behind it are applied in order, and what it acknowledges is freed
(R392, R393). -/
def Device.inOrder (d : Device) (b : Nat) (f : DroveFrame) (e : Device) : Device :=
  ((e.modBinding b fun x => { x with rxExp := x.rxExp + 1, granted := x.granted + 1, ackOwed := true }).applyHeld b
    (d.binding b).heldFrames.length).takeAck b f

/-! ### The dictionary -/

/-- Request `r` of the operator's session `k` ends a write of the value `b`, of its type, to object `o`, which exists and may be
written; its chunks ran from 0 without a gap, and no other session has staged the object (R491 to R493). -/
def Device.lastChunk (d : Device) (k : Nat) (r : DzRequest) (o : DzObj) (b : List Byte) : Bool :=
  let own := d.stagedBy k r.index.toNat r.sub.toNat
  decide (k < 4) && d.reaches (some k) && (d.sess k).operator && d.dzFind r.index.toNat r.sub.toNat == some o && o.access != .ro &&
  !r.more && r.len == r.data.length && decide (r.len ≤ 1024) && r.offset == own.length && b == own ++ r.data && Device.fits o b &&
  !d.stagedElsewhere (some k) r.index.toNat r.sub.toNat

/-! ### What the Shepherd's units leave alone -/

/-- Rows of the Tally, the rings and vectors, the power controller's own decisions, the management path and the firmware store. -/
def shepherdRow (c : Instr) : Bool :=
  match c with
  | .tallyStartTimeout => true
  | .tcSerFrame _ _ => true
  | .tcClkLoss => true
  | .tallyDiverged => true
  | .ptpSync _ => true
  | .ptpFollowUp _ => true
  | .ptpDelayResp _ => true
  | .ptpAnnounce _ => true
  | .ptpAnnounceTimeout => true
  | .ptpSyncTimeout => true
  | .ptpDelayReq _ => true
  | .ptpTimeTransmit => true
  | .vbatCalLoss => true
  | .calendarAnchor => true
  | .tlyNowLowRead => true
  | .snapshot _ => true
  | .hostEvent _ => true
  | .evrCtlWrite _ _ => true
  | .ringWriteFail _ => true
  | .msixModerationExpiry _ => true
  | .msixVectorUnmask _ => true
  | .powerInterval _ => true
  | .stepDecision => true
  | .pmVack => true
  | .vregTimeout => true
  | .raiseSuppressEnd => true
  | .lockstepRaise => true
  | .supplyHold => true
  | .supplyNormal => true
  | .thermalMaxstepTick => true
  | .thermalTripExit => true
  | .drbgReseed => true
  | .traceWriteFail _ => true
  | .dzientRead _ _ => true
  | .dzientNext _ _ => true
  | .capSetWrite _ _ => true
  | .opRootWrite _ _ _ => true
  | .stageWrite _ _ => true
  | .commit _ _ _ => true
  | .srcWrite _ _ => true
  | .tcHzWrite _ _ => true
  | .calSet _ _ => true
  | .spdmGetVersion _ _ => true
  | .spdmGetCapabilities _ _ => true
  | .spdmNegotiateAlgorithms _ _ => true
  | .spdmGetDigests _ _ => true
  | .spdmGetCertificate _ _ => true
  | .spdmChallenge _ _ => true
  | .spdmGetMeasurements _ _ => true
  | .spdmKeyExchange _ _ => true
  | .spdmFinish _ _ => true
  | .spdmHeartbeat _ _ => true
  | .spdmKeyUpdate _ _ => true
  | .spdmEndSession _ _ => true
  | .spdmChunkGet _ _ => true
  | .spdmHeartbeatMissed _ => true
  | .mctpSetEndpointId _ => true
  | .mctpGetEndpointId => true
  | .mctpGetEndpointUuid => true
  | .mctpGetVersionSupport => true
  | .mctpGetMessageTypeSupport => true
  | .mctpUnsupportedControl _ => true
  | .i3cEntdaa _ => true
  | .i3cSetdasa _ => true
  | .flashLineRead _ _ _ => true
  | .flashProgram _ _ => true
  | .flashProgramComplete _ => true
  | .flashErase _ => true
  | .flashEraseComplete _ => true
  | .flashForcedTimer => true
  | .flashRelocate _ _ => true
  | .flashLogEntry _ _ => true
  | _ => false

/-- What jobs compute with, and what the host has placed, is the same in both: cores, Yard, frames, channels of memory,
segments, windows, pieces and messages on their way, jobs and rounds, Stalls and queues, objects, fences and sequences. -/
structure Device.SameWork (d e : Device) : Prop where
  cores : e.cores = d.cores
  slices : e.slices = d.slices
  saved : e.saved = d.saved
  chans : e.chans = d.chans
  segs : e.segs = d.segs
  windows : e.windows = d.windows
  pieces : e.pieces = d.pieces
  pushes : e.pushes = d.pushes
  skid : e.skid = d.skid
  jobs : e.jobs = d.jobs
  rounds : e.rounds = d.rounds
  pdks : e.pdks = d.pdks
  stalls : e.stalls = d.stalls
  queues : e.queues = d.queues
  objs : e.objs = d.objs
  fences : e.fences = d.fences
  seqs : e.seqs = d.seqs

end Sys2Proof.Machine
end

