-- ==== Sys2Proof/Certificates/Slice0/Obligations.lean ====
section
/-! DEFINITION. The statements about the block, for the provers. -/

open Sys2Proof Sys2Proof.Machine

/-! ### The C slot -/

/-- R173: the scalar arithmetic, logic, shift, minimum, maximum and compare instructions write their result to D. Shift amounts
are b mod 64; MIN, MAX, SLT and SRA are signed, MINU, MAXU, SLTU and SHR are not; arithmetic wraps at 64 bits. -/
def Obligations.ScalarArithmeticResults : Prop :=
  AluResult .add 0x01 (fun a b => BitVec.ofNat 64 (a.toNat + b.toNat)) ∧
  AluResult .sub 0x02 (fun a b => BitVec.ofInt 64 (a.toInt - b.toInt)) ∧
  AluResult .and 0x03 (fun a b => a &&& b) ∧
  AluResult .or 0x04 (fun a b => a ||| b) ∧
  AluResult .xor 0x05 (fun a b => a ^^^ b) ∧
  AluResult .shl 0x06 (fun a b => BitVec.ofNat 64 (a.toNat * 2 ^ (b.toNat % 64))) ∧
  AluResult .shr 0x07 (fun a b => BitVec.ofNat 64 (a.toNat / 2 ^ (b.toNat % 64))) ∧
  AluResult .sra 0x08 (fun a b => BitVec.ofInt 64 (a.toInt / 2 ^ (b.toNat % 64))) ∧
  AluResult .mul 0x09 (fun a b => BitVec.ofNat 64 (a.toNat * b.toNat)) ∧
  AluResult .min 0x0A (fun a b => BitVec.ofInt 64 (min a.toInt b.toInt)) ∧
  AluResult .max 0x0B (fun a b => BitVec.ofInt 64 (max a.toInt b.toInt)) ∧
  AluResult .minu 0x0C (fun a b => BitVec.ofNat 64 (min a.toNat b.toNat)) ∧
  AluResult .maxu 0x0D (fun a b => BitVec.ofNat 64 (max a.toNat b.toNat)) ∧
  AluResult .slt 0x0E (fun a b => if a.toInt < b.toInt then 1 else 0) ∧
  AluResult .sltu 0x0F (fun a b => if a.toNat < b.toNat then 1 else 0)

/-- R26, R173, R181: PSET sets every lane of Pd to the condition of A and b, TLY writes the Tally to D, RAND writes 64 bits that
nothing constrains. -/
def Obligations.PredicateTimeAndRandomResults : Prop :=
  (∀ (s : State) (c : Nat) (x : QInstr), s.dev.mayIssue c .c 0x1F x = true →
    ∃ p : BitVec 256, exec (.pset c) s =
      .next { s with dev := (s.dev.modSeq c fun q => q.setP (bits x.word 12 10) p).retired c .c } ∧
      ∀ l < 256, p.getLsbD l = condHolds (cCOND x.word) ((s.dev.regs c).sop (fA x.word)) ((s.dev.regs c).aluB x.word)) ∧
  (∀ (s : State) (c : Nat) (x : QInstr), s.dev.mayIssue c .c 0x1B x = true →
    exec (.tly c) s = .next { s with dev :=
      (s.dev.modSeq c fun q => q.setSop (fD x.word) (BitVec.ofNat 64 s.dev.tally.now)).retired c .c }) ∧
  (∀ (s : State) (c : Nat) (x : QInstr), s.dev.mayIssue c .c 0x1C x = true →
    ∃ v : W64, exec (.rand c) s = .next { s with dev :=
      ({ s.dev with free := s.dev.free + 1 }.modSeq c fun q => q.setSop (fD x.word) v).retired c .c })

/-- R173 and R153, the frame: a scalar instruction that completes leaves every scalar register but D (and S0 even there), the
vector and predicate registers, the Pens and their flags, the Trough, the Chutes and channels of its core, every other core, and
every byte of memory. -/
def Obligations.ScalarFrame : Prop :=
  ∀ i ∈ ([(.add, 0x01), (.sub, 0x02), (.and, 0x03), (.or, 0x04), (.xor, 0x05), (.shl, 0x06), (.shr, 0x07), (.sra, 0x08),
      (.mul, 0x09), (.min, 0x0A), (.max, 0x0B), (.minu, 0x0C), (.maxu, 0x0D), (.slt, 0x0E), (.sltu, 0x0F), (.tly, 0x1B),
      (.rand, 0x1C)] : List ((Nat → Instr) × Nat)),
    ∀ (s t : State) (c : Nat) (x : QInstr), s.dev.mayIssue c .c i.2 x = true → exec (i.1 c) s = .next t →
      (∀ r, r ≠ fD x.word ∨ r = 0 → (t.dev.regs c).sop r = (s.dev.regs c).sop r) ∧
      (t.dev.regs c).v = (s.dev.regs c).v ∧ (t.dev.regs c).p = (s.dev.regs c).p ∧ (t.dev.regs c).trap = (s.dev.regs c).trap ∧
      (t.dev.core c).pn = (s.dev.core c).pn ∧ (t.dev.core c).tr = (s.dev.core c).tr ∧
      (t.dev.core c).chutes = (s.dev.core c).chutes ∧ (t.dev.core c).channels = (s.dev.core c).channels ∧
      (∀ k, k ≠ c → t.dev.core k = s.dev.core k) ∧
      (∀ k b, (t.dev.slice k).block b = (s.dev.slice k).block b) ∧ t.dev.chans = s.dev.chans ∧ t.dev.out = s.dev.out

/-! ### The T slot: vectors -/

/-- R168, R176: lane arithmetic. INT32 lanes wrap; FP32 and BF16 lanes hold the exact result rounded to their type, VFMA with one
rounding. Bitwise and shift operations act on the lanes' bits, shift amounts b mod 32; VIOTA numbers the lanes. -/
def Obligations.VectorLaneResults : Prop :=
  VecResult .vadd 0x10 vTY (lanes2 (· + ·) fun a b => (a.add b).1) ∧
  VecResult .vsub 0x11 vTY (lanes2 (· - ·) fun a b => (a.sub b).1) ∧
  VecResult .vmul 0x12 vTY (lanes2 (· * ·) fun a b => (a.mul b).1) ∧
  VecResult .vfma 0x13 vTY (fun w q l =>
    if vTY w = 2 then q.lane (fA w) l * q.vb w l + q.lane (vC w) l
    else laneOut (vTY w) ((((laneVal (vTY w) (q.lane (fA w) l)).mul (laneVal (vTY w) (q.vb w l))).1.add
      (laneVal (vTY w) (q.lane (vC w) l))).1)) ∧
  VecResult .vmin 0x14 vTY (lanes2 (fun x y => BitVec.ofInt 32 (min x.toInt y.toInt)) FVal.min) ∧
  VecResult .vmax 0x15 vTY (lanes2 (fun x y => BitVec.ofInt 32 (max x.toInt y.toInt)) FVal.max) ∧
  VecResult .vabs 0x16 vTY (lanes2 (fun x _ => BitVec.ofNat 32 x.toInt.natAbs) fun a _ => a.abs) ∧
  VecResult .vneg 0x17 vTY (lanes2 (fun x _ => BitVec.ofInt 32 (-x.toInt)) fun a _ => a.neg) ∧
  VecResult .vand 0x18 vTY (fun w q l => q.lane (fA w) l &&& q.vb w l) ∧
  VecResult .vor 0x19 vTY (fun w q l => q.lane (fA w) l ||| q.vb w l) ∧
  VecResult .vxor 0x1A vTY (fun w q l => q.lane (fA w) l ^^^ q.vb w l) ∧
  VecResult .vshl 0x1B vTY (fun w q l => BitVec.ofNat 32 ((q.lane (fA w) l).toNat * 2 ^ ((q.vb w l).toNat % 32))) ∧
  VecResult .vshr 0x1C vTY (fun w q l => BitVec.ofNat 32 ((q.lane (fA w) l).toNat / 2 ^ ((q.vb w l).toNat % 32))) ∧
  VecResult .vsra 0x1D vTY (fun w q l => BitVec.ofInt 32 ((q.lane (fA w) l).toInt / 2 ^ ((q.vb w l).toNat % 32))) ∧
  VecResult .viota 0x2C (fun _ => 2) (fun _ _ l => BitVec.ofNat 32 l)

/-- R168 to R170, R177: selection, permutation, conversion, VFUN, and packing; VPACK writes its packed data as words, VUNPK
takes them apart. -/
def Obligations.VectorMoveResults : Prop :=
  VecResult .vsel 0x1F vTY (fun w q l => if (q.pReg (bits w 30 28)).getLsbD l then q.lane (fA w) l else q.vb w l) ∧
  VecResult .vperm 0x23 vTY (fun w q l => q.lane (fA w) ((q.vb w l).toNat % 256)) ∧
  VecResult .vcvt 0x20 (fun w => if vAUX w = 1 then 1 else 0) (fun w q l => cvtLane (vTY w) (vAUX w) (q.lane (fA w) l)) ∧
  VecResult .vfun 0x21 vTY (fun w q l => funLane (vTY w) (vAUX w) (q.lane (fA w) l)) ∧
  VecResult .vpack 0x25 (fun _ => 2) (fun w q l =>
    BitVec.ofNat 32 (((List.range 256).map fun i => packLane (vTY w) (vAUX w) (q.lane (fA w) i) * 2 ^ (packBits (vAUX w) * i)).sum /
      2 ^ (32 * l))) ∧
  VecResult .vunpk 0x26 (fun _ => 2) (fun w q l =>
    unpackLane (vAUX w) ((List.range 256).map fun i => (q.lane (fA w) i).toNat * 2 ^ (32 * i)).sum l)

/-- R168, R169, R176, R180: the vector instructions that write a predicate or one value. VCMP compares lane by lane; VEXT takes
one lane, sign-extended for INT32, and of a BF16 lane the bits the type keeps; VRED writes one value to every written lane, for
an INT32 sum the wrapping sum of the unmasked lanes; VSAMP writes the lane that its draw selects. -/
def Obligations.VectorReduceResults : Prop :=
  (∀ (s : State) (c : Nat) (x : QInstr), s.dev.mayIssue c .t 0x1E x = true →
    ∃ p : BitVec 256, exec (.vcmp c) s = .next { s with dev := (s.dev.modSeq c fun q => q.setP (bits x.word 12 10) p).vecRetired c } ∧
      ∀ l < 256, p.getLsbD l =
        if ((s.dev.regs c).pReg (vMP x.word)).getLsbD l then
          condOf (vAUX x.word) ((laneVal (vTY x.word) ((s.dev.regs c).lane (fA x.word) l)).cmp
            (laneVal (vTY x.word) ((s.dev.regs c).vb x.word l)))
        else !vMZ x.word && ((s.dev.regs c).pReg (bits x.word 12 10)).getLsbD l) ∧
  (∀ (s : State) (c : Nat) (x : QInstr), s.dev.mayIssue c .t 0x24 x = true →
    let v := (s.dev.regs c).lane (fA x.word) (((s.dev.regs c).sop (fBb x.word)).toNat % 256)
    exec (.vext c) s = .next { s with dev := (s.dev.modSeq c fun q =>
      q.setSop (fD x.word) (if vTY x.word = 2 then BitVec.ofInt 64 v.toInt else BitVec.ofNat 64 (laneFix (vTY x.word) v).toNat)).vecRetired c }) ∧
  (∀ (s : State) (c : Nat) (x : QInstr), s.dev.mayIssue c .t 0x22 x = true →
    ∃ r : W32, exec (.vred c) s = .next { s with dev := ({ s.dev with free := s.dev.free + 1 }.modSeq c fun q =>
        q.writeLanes x.word (vTY x.word) fun _ => r).vecRetired c } ∧
      (∃ ord, r = redVal (vTY x.word) (vAUX x.word) ord ((List.range 256).map fun l =>
        if (s.dev.regs c).maskOn x.word l then some ((s.dev.regs c).lane (fA x.word) l) else none)) ∧
      (vTY x.word = 2 → vAUX x.word = 0 →
        r = (((List.range 256).filter ((s.dev.regs c).maskOn x.word)).map ((s.dev.regs c).lane (fA x.word))).sum)) ∧
  (∀ (s : State) (c : Nat) (x : QInstr), s.dev.mayIssue c .t 0x2B x = true →
    ∃ (u : W32) (r : Nat → W32), (vSB x.word = true → u = ((s.dev.regs c).sop (fBb x.word)).setWidth 32) ∧
      exec (.vsamp c) s = .next { s with dev := ({ s.dev with free := s.dev.free + 1 }.modSeq c fun q =>
        q.setSop (fD x.word) (sampLane ((List.range 256).map fun l =>
          if q.maskOn x.word l then some (laneVal (vTY x.word) (q.lane (fA x.word) l)) else none) u r)).vecRetired c })

/-- R178, R179: VSORT writes a rearrangement of VA and the lane numbers it came from; VTKCLR empties the top-k list, VTKADD offers
the lanes to a list of its type, and VTKGET reads it out, best first, the rest of VD a NaN or the least INT32 and of VC all ones. -/
def Obligations.VectorSortResults : Prop :=
  (∀ (s : State) (c : Nat) (x : QInstr), s.dev.mayIssue c .t 0x27 x = true →
    ∃ (ord : List Nat) (v n : VReg), ord.Perm (List.range 256) ∧ ord = sortOrder (s.dev.regs c) x.word ∧
      exec (.vsort c) s = .next { s with dev := (s.dev.modSeq c fun q => (q.setV (fD x.word) v).setV (vC x.word) n).vecRetired c } ∧
      ∀ l < 256, Table.get n 0 l = BitVec.ofNat 32 (ord.getD l 0) ∧
        Table.get v 0 l = laneFix (vTY x.word) ((s.dev.regs c).lane (fA x.word) (ord.getD l 0))) ∧
  (∀ (s : State) (c : Nat) (x : QInstr), s.dev.mayIssue c .t 0x28 x = true →
    let t : TopK := { k := bits x.word 46 41 + 1, ty := vTY x.word, smallest := bit x.word 47, entries := [] }
    exec (.vtkclr c) s = .next { s with dev := (s.dev.modCore c fun k => { k with topk := some t }).vecRetired c }) ∧
  (∀ (s : State) (c : Nat) (x : QInstr) (t : TopK), s.dev.mayIssue c .t 0x29 x = true → (s.dev.core c).topk = some t →
    t.ty = vTY x.word →
    exec (.vtkadd c) s = .next { s with dev := (s.dev.modCore c fun k =>
      { k with topk := some (t.offer (topOffers k.sq x.word)) }).vecRetired c }) ∧
  (∀ (s : State) (c : Nat) (x : QInstr) (t : TopK), s.dev.mayIssue c .t 0x2A x = true → (s.dev.core c).topk = some t →
    t.ty = vTY x.word → fD x.word ≠ vC x.word →
    ∃ v n : VReg, exec (.vtkget c) s = .next { s with dev := ({ s.dev with free := s.dev.free + 1 }.modSeq c fun q =>
        (q.setV (fD x.word) v).setV (vC x.word) n).vecRetired c } ∧
      ∀ l < 256, Table.get v 0 l = (t.entries.map (·.1)).getD l (if t.ty = 2 then 0x80000000 else 0x7FC00000) ∧
        Table.get n 0 l = (t.entries.map (·.2)).getD l 0xFFFFFFFF)

/-! ### The M slot and the Yard -/

/-- R171: SLD loads 8 bytes, or 4 sign-extended with W4; VLD loads 256 elements, 32-bit ones as they are, BF16 into the upper half
of a lane, INT8 sign-extended; VLDS loads one word for each lane at offset + lane × S[SS].
SST stores the 8 bytes of DS, or the low 4 with W4; VST stores the 256 lanes, BF16 from the upper half, INT8 the low byte;
VSTS stores each lane's word at offset + lane × S[SS], in ascending lanes. -/
def Obligations.YardAccessResults : Prop :=
  LoadResult .sld 0x01 (fun w => if bit w 48 then 4 else 8) (fun w bs q =>
    q.setSop (fD w) (if bit w 48 then (BitVec.ofNat 32 (ofBytes bs)).signExtend 64 else BitVec.ofNat 64 (ofBytes bs))) ∧
  LoadResult .vld 0x03 (fun w => 256 * ewBytes (mEW w)) (fun w bs q =>
    q.setV (fD w) (vregOf fun l =>
      let x := elemOf bs (ewBytes (mEW w)) l
      if mEW w = 0 then BitVec.ofNat 32 x else if mEW w = 1 then BitVec.ofNat 32 (x * 65536)
      else (BitVec.ofNat 8 x).signExtend 32)) ∧
  (∀ (s : State) (c : Nat) (x : QInstr) (e : Device) (ws : List W32), s.dev.mayIssue c .m 0x05 x = true →
    let offs := (List.range 256).map fun l =>
      mOffset (s.dev.regs c) x.word + BitVec.ofNat 64 l * (s.dev.regs c).sop (bits x.word 54 50)
    (offs.all fun o => decide (o.toNat % 4 = 0) && s.dev.ownRange c o.toNat 4) = true → s.dev.portsBusy c = false →
    ((s.dev.askPorts c 4 true (wordLines offs)).auditAll c (offs.map fun o => (o.toNat, 4))).gatherWords c (offs.map (·.toNat)) = (e, .inl ws) →
    exec (.vlds c) s = .next { s with dev := (e.modSeq c fun q =>
      mPost x.word (q.setV (fD x.word) (vregOf fun l => ws.getD l 0))).retired c .m }) ∧
  StoreResult .sst 0x02 false (fun w q => toBytes (if bit w 48 then 4 else 8) (q.sop (fD w)).toNat) ∧
  StoreResult .vst 0x04 true (fun w q => (List.range 256).flatMap fun l => toBytes (ewBytes (mEW w))
    (if mEW w = 0 then (q.lane (fD w) l).toNat else if mEW w = 1 then (q.lane (fD w) l).toNat / 65536
     else (q.lane (fD w) l).toNat % 256)) ∧
  (∀ (s : State) (c : Nat) (x : QInstr), s.dev.mayIssue c .m 0x06 x = true →
    let off := fun (l : Nat) => mOffset (s.dev.regs c) x.word + BitVec.ofNat 64 l * (s.dev.regs c).sop (bits x.word 54 50)
    ((List.range 256).all fun l => decide ((off l).toNat % 4 = 0) && s.dev.ownRange c (off l).toNat 4) = true →
    s.dev.portsBusy c = false →
    let d := s.dev.askPorts c 4 true (wordLines ((List.range 256).map off)) [(c, 2)]
    let e := (List.range 256).foldl
      (fun d l => d.writeYard c (off l).toNat (toBytes 4 ((s.dev.regs c).lane (fD x.word) l).toNat))
      (d.auditAll c ((List.range 256).map fun l => ((off l).toNat, 4)))
    exec (.vsts c) s = .next { s with dev := (e.modSeq c (mPost x.word)).retired c .m })

/-- R206: an M-slot access to an offset that is not a multiple of 4, or outside the regions its job reaches, traps with
ISA_ILLEGAL, and nothing is written. -/
def Obligations.YardAccessTraps : Prop :=
  ∀ (s : State) (c : Nat) (x : QInstr), s.dev.mayIssue c .m 0x02 x = true →
    let off := mOffset (s.dev.regs c) x.word
    (off.toNat % 4 ≠ 0 ∨ s.dev.ownRange c off.toNat (if bit x.word 48 then 4 else 8) = false) →
    exec (.sst c) s = .next { s with dev := s.dev.trapCore c 0x0801 x.bundle .m x.word }

/-- R214, R215: a narrow write, one within a block that does not cover it, changes exactly the bytes of its mask as a reader gets
them, in its slice and in no other, whatever it drains from the merge buffer on its way. Premise: the merge entries hold blocks
of the slice, which `MergeBlocksDistinct` keeps. -/
def Obligations.NarrowWriteChangesItsBytes : Prop :=
  ∀ (d : Device) (c : Nat) (m : Merge), (∀ x ∈ (d.slice c).merge, x.block < 2 ^ 21) →
    m.block < 2 ^ 21 → m.mask ≠ BitVec.allOnes 32 →
    (∀ a < 2 ^ 26, ((d.writeBlock c m).slice c).byteAt a =
      if a / 32 = m.block ∧ m.mask.getLsbD (a % 32) = true then BitVec.ofNat 8 (bits m.data (8 * (a % 32) + 7) (8 * (a % 32)))
      else (d.slice c).byteAt a) ∧
    (∀ k, k ≠ c → (d.writeBlock c m).slice k = d.slice k)

/-- R214: a write keeps the merge buffer's entries for different blocks of the slice, and at most 16 of them. -/
def Obligations.MergeBlocksDistinct : Prop :=
  ∀ (d : Device) (c off : Nat) (bs : List Byte), off + bs.length ≤ 2 ^ 26 → ((d.slice c).merge.map (·.block)).Nodup →
    (∀ x ∈ (d.slice c).merge, x.block < 2 ^ 21) → (d.slice c).merge.length ≤ 16 →
    let e := (d.writeYard c off bs).slice c
    (e.merge.map (·.block)).Nodup ∧ (∀ x ∈ e.merge, x.block < 2 ^ 21) ∧ e.merge.length ≤ 16

/-- R209, R211, R217: a full write of a block that no merge entry holds is read back as written, through any remap entries, in
either mode. -/
def Obligations.FullWriteReadsBack : Prop :=
  ∀ (d : Device) (c b cls : Nat) (x : Block256), ((d.slice c).merge.all fun m => m.block != b) = true →
    let e := d.writeBlock c { block := b, data := x, mask := BitVec.allOnes 32, last := 0, chans := [] }
    e.readBlock c cls b = (e, some x)

/-! ### Messages and handles -/

/-- R182, R183, R252 to R257: MSEND places A in a message-mode Chute of its own core at once, and sends it on its way to another
core; where the Chute is full it waits under CHUTE_FULL, with its sender queued there. MESSAGE_ARRIVE enters a message. MRECV
takes the oldest message. A push whose Chute is full at its arrival is returned: its sender holds it and waits for the free
signal, and the Chute's entries are as they were. R252 to R257: CHPUSH pushes a good handle into a handle-mode Chute once the
core's Yard writes are granted, and the core holds it no longer; CHUTE_PUSH_ARRIVE enters a push that was on its way; CHPOP
takes the oldest handle, which the core then holds; CHUTE_FREE_SIGNAL lets the first waiting sender send again. -/
def Obligations.ChuteResults : Prop :=
  (∀ (s : State) (c : Nat) (x : QInstr), s.dev.mayIssue c .c 0x14 x = true →
    let n := bits x.word 39 36
    let core := bits x.word 35 32
    let v := (s.dev.regs c).sop (fA x.word)
    s.dev.samePaddock c core = true → s.dev.suits (.program c) core n false = true →
    s.dev.heldBefore (.program c) core n = false →
    (core = c → s.dev.fullFor c n (.program c) = false →
      let e := s.dev.setChute c n { s.dev.chute c n with entries := (s.dev.chute c n).entries ++ [v] }
      exec (.msend c) s = .next { s with dev := s.dev.completed c x e }) ∧
    (core ≠ c → s.dev.receives core = true → s.dev.fullFor core n (.program c) = false →
      let p : Push := { src := .program c, core := core, chute := n, value := v, handle := false, held := false, bundle := x.bundle,
                        job := (s.dev.core c).job, due := s.dev.power.cycles + meshLatency c core + 2 }
      exec (.msend c) s = .next { s with dev := s.dev.completed c x { s.dev with pushes := s.dev.pushes ++ [p] } }) ∧
    (core = c ∨ s.dev.receives core = true → s.dev.fullFor core n (.program c) = true →
      exec (.msend c) s = .next { s with dev :=
        (s.dev.refuse core n (.program c)).modCore c fun k => k.waitsIn .c (some .chuteFull) })) ∧
  (∀ (s : State) (src dst : Nat) (p : Push), src < 12 → dst < 12 → s.dev.arriving (.program src) dst false = some p →
    s.dev.heldBefore (.program src) dst p.chute = false → s.dev.receives dst = true →
    s.dev.suits (.program src) dst p.chute false = true → (s.dev.chute dst p.chute).entries.length < 64 →
    ∃ t, exec (.messageArrive src dst) s = .next t ∧ t.dev.pushes = s.dev.pushes.erase p ∧
      (t.dev.chute dst p.chute).entries = (s.dev.chute dst p.chute).entries ++ [p.value]) ∧
  (∀ (s : State) (c : Nat) (x : QInstr) (v : W64) (r : List W64), s.dev.mayIssue c .c 0x15 x = true →
    (s.dev.chute c (bits x.word 39 36)).handle = false → (s.dev.chute c (bits x.word 39 36)).entries = v :: r →
    let n := bits x.word 39 36
    let e := (s.dev.setChute c n { s.dev.chute c n with entries := r }).modSeq c fun q => q.setSop (fD x.word) v
    exec (.mrecv c) s = .next { s with dev := s.dev.completed c x e }) ∧
  (∀ (s : State) (src dst : Nat) (p : Push) (j : Nat), src < 12 → dst < 12 → s.dev.arriving (.program src) dst false = some p →
      p.job = some j → (s.dev.job j).isSome = true → s.dev.heldBefore (.program src) dst p.chute = false → s.dev.receives dst = true →
      s.dev.suits (.program src) dst p.chute false = true → 64 ≤ (s.dev.chute dst p.chute).entries.length →
      ∃ t, exec (.messageArrive src dst) s = .next t ∧ { p with held := true } ∈ t.dev.pushes ∧
        (t.dev.chute dst p.chute).entries = (s.dev.chute dst p.chute).entries ∧
        Sender.program src ∈ (t.dev.chute dst p.chute).waiting) ∧
  (∀ (s : State) (c : Nat) (x : QInstr), s.dev.mayIssue c .m 0x0C x = true →
    let n := bits x.word 19 16
    let core := if bit x.word 24 then bits x.word 23 20 else c
    let v := (s.dev.regs c).sop (fD x.word)
    let d := s.dev.drainAll c
    s.dev.samePaddock c core = true → s.dev.suits (.program c) core n true = true → s.dev.goodHandle c v = true →
    s.dev.outputsOwed c x.num = false → d.writesOwed c x.num = false → d.heldBefore (.program c) core n = false →
    (core = c → d.fullFor c n (.program c) = false →
      let e := (d.setChute c n { d.chute c n with entries := (d.chute c n).entries ++ [v] }).giveHandle c v
      exec (.chpush c) s = .next { s with dev := s.dev.completed c x e }) ∧
    (core ≠ c → d.receives core = true → d.fullFor core n (.program c) = false →
      let p : Push := { src := .program c, core := core, chute := n, value := v, handle := true, held := false, bundle := x.bundle,
                        job := (d.core c).job, due := d.power.cycles + meshLatency c core + 2 }
      let e := { d with pushes := d.pushes ++ [p] }.giveHandle c v
      exec (.chpush c) s = .next { s with dev := s.dev.completed c x e })) ∧
  (∀ (s : State) (src : Sender) (dst : Nat) (p : Push), src.wf = true → dst < 12 → s.dev.arriving src dst true = some p →
    s.dev.heldBefore src dst p.chute = false → s.dev.receives dst = true →
    s.dev.suits src dst p.chute true = true → (s.dev.chute dst p.chute).entries.length < 64 →
    ∃ t, exec (.chutePushArrive src dst) s = .next t ∧ t.dev.pushes = s.dev.pushes.erase p ∧
      (t.dev.chute dst p.chute).entries = (s.dev.chute dst p.chute).entries ++ [p.value]) ∧
  (∀ (s : State) (c : Nat) (x : QInstr) (v : W64) (r : List W64), s.dev.mayIssue c .m 0x0D x = true →
    (s.dev.chute c (bits x.word 19 16)).handle = true → (s.dev.chute c (bits x.word 19 16)).bound ≠ .free →
    (s.dev.chute c (bits x.word 19 16)).entries = v :: r →
    let n := bits x.word 19 16
    let e := ((s.dev.setChute c n { s.dev.chute c n with entries := r }).holdHandle c v).modSeq c fun q => q.setSop (fD x.word) v
    exec (.chpop c) s = .next { s with dev := s.dev.completed c x e }) ∧
  (∀ (s : State) (c n : Nat) (src : Sender) (r : List Sender), c < 12 → n < 16 → (s.dev.chute c n).waiting = src :: r →
    (s.dev.chute c n).entries.length < 64 →
    ∃ t, exec (.chuteFreeSignal c n) s = .next t ∧ (t.dev.chute c n).waiting = r ∧
      ∀ p ∈ s.dev.pushes, p.held = true → p.src = src → p.core = c → p.chute = n →
        { p with held := false, due := s.dev.power.cycles + meshLatency (senderCore src) c + 2 } ∈ t.dev.pushes)


/-! ### Dispatch, control flow and the end of a job -/

/-- R157, R160 to R165: BUNDLE_DISPATCH puts the words of the next bundle that are no NOPs into their slot queues, in program
order, and counts the bundle; where none of them holds dispatch, the bundle after it is next. A NOP slot does nothing. -/
def Obligations.DispatchResults : Prop :=
  (∀ (s : State) (c : Nat), c < 12 →
    let q := s.dev.regs c
    let is := (bundleWords (Table.get q.imem 0 q.pc)).filter fun x => x.2 ≠ 0
    q.stat = .run → q.hold = none → s.dev.frozen c = false → q.pc < 8192 → q.imemBad.contains q.pc = false →
    (is.any fun x => kpMarked x.1 x.2 && decide (1 < is.length)) = false → dispatchFault is [] = none →
    (is.all fun x => decide ((q.queue x.1).length < 8)) = true →
    (q.claims.map fun k => k.res.length).sum + (is.map fun x => (claimsOf x.1 x.2).length).sum ≤ 96 →
    ∃ t, exec (.bundleDispatch c) s = .next t ∧
      (∀ sl, (t.dev.regs c).queue sl = q.queue sl ++ (is.filter fun x => x.1 == sl).map fun x =>
        { num := q.num + slotNum x.1, bundle := q.pc, slot := x.1, word := x.2 }) ∧
      (t.dev.regs c).bundleCnt = q.bundleCnt + 1 ∧
      ((is.all fun x => !holdsDispatch x.1 x.2) = true → (t.dev.regs c).pc = (q.advance q.pc q.loops).pc)) ∧
  (∀ (s : State) (c : Nat) (sl : Slot), c < 12 → (s.dev.regs c).queue sl = [] → exec (.nop c sl) s = .next s)

/-- R164, R165, R174: BR goes to TARGET where COND holds of A and B, and the loops whose body it leaves end; else the next bundle
follows. LOOP runs the bundles after it up to END COUNT times, none for 0. -/
def Obligations.BranchAndLoopResults : Prop :=
  (∀ (s : State) (c : Nat) (x : QInstr), s.dev.mayIssue c .c 0x10 x = true →
    let q := s.dev.regs c
    let target := bits x.word 44 32
    (condHolds (cCOND x.word) (q.sop (fA x.word)) (q.sop (fBb x.word)) = true →
      let e := s.dev.modSeq c fun q =>
        { q with pc := target, loops := q.loops.filter fun l => decide (l.start ≤ target) && decide (target ≤ l.end_), hold := none }
      exec (.br c) s = .next { s with dev := s.dev.completed c x e }) ∧
    (condHolds (cCOND x.word) (q.sop (fA x.word)) (q.sop (fBb x.word)) = false →
      exec (.br c) s = .next { s with dev := s.dev.completed c x s.dev })) ∧
  (∀ (s : State) (c : Nat) (x : QInstr), s.dev.mayIssue c .c 0x11 x = true →
    let q := s.dev.regs c
    let last := bits x.word 60 48
    let n := if cI x.word then bits x.word 47 32 else bits (q.sop (fA x.word)) 31 0
    x.bundle < last →
    (n = 0 →
      let e := s.dev.modSeq c fun q => { q with pc := last + 1, hold := none }
      exec (.loop c) s = .next { s with dev := s.dev.completed c x e }) ∧
    (n ≠ 0 → q.loops.length < 4 →
      let l : Loop := { count := n, start := x.bundle + 1, end_ := last }
      let e := s.dev.modSeq c fun q => { q with pc := x.bundle + 1, loops := l :: q.loops, hold := none }
      exec (.loop c) s = .next { s with dev := s.dev.completed c x e }))

/-- R161, R164: an instruction that completes leaves its queue and its claims, and where dispatch was held for it, the bundle
after its own is next. R165: a loop that has runs left goes back to its first bundle after END with one run less; after the last
run the bundle after END follows. -/
def Obligations.DispatchGoesOn : Prop :=
  (∀ (q : Sequencer) (sl : Slot) (x : QInstr) (r : List QInstr), q.queue sl = x :: r →
    (q.retire sl).queue sl = r ∧ (∀ k ∈ (q.retire sl).claims, k.num ≠ x.num) ∧
    (q.hold = some (.issue x.num) → (q.retire sl).hold = none ∧ (q.retire sl).pc = (q.advance x.bundle q.loops).pc ∧
      (q.retire sl).loops = (q.advance x.bundle q.loops).loops) ∧
    (q.hold ≠ some (.issue x.num) → (q.retire sl).hold = q.hold ∧ (q.retire sl).pc = q.pc ∧ (q.retire sl).loops = q.loops)) ∧
  (∀ (q : Sequencer) (l : Loop) (r : List Loop),
    (1 < l.count → (q.advance l.end_ (l :: r)).pc = l.start ∧
      (q.advance l.end_ (l :: r)).loops = { l with count := l.count - 1 } :: r) ∧
    (l.count ≤ 1 → (∀ m ∈ r, m.end_ ≠ l.end_) → (q.advance l.end_ (l :: r)).pc = l.end_ + 1 ∧ (q.advance l.end_ (l :: r)).loops = r))


/-- R163, R184, R185, R187, R188, R350: YSYNC completes once every earlier Yard write is granted, with the merge buffer empty,
and dispatch goes on; HALT of a core that is not its job's last stops the core; HALT of the last ends the job; KERF with no
request pending writes 0 to D, with one it drains the core, and while a Haul program runs or a front is armed it goes on. R184,
R189 to R191, R258, R267: once a core has drained, CORE_YIELD keeps its state of Table 6.10 in its frame, and the core is
YIELDED and belongs to no job; TRAP records SOFT_TRAP, its bundle, its slot and CODE, the core is TRAPPED, and its job ends with
the code. R350: a job that has ended is no longer listed. -/
def Obligations.EndingResults : Prop :=
  (∀ (s : State) (c : Nat) (x : QInstr), s.dev.mayIssue c .c 0x1A x = true →
    s.dev.outputsOwed c x.num = false → (s.dev.drainAll c).writesOwed c x.num = false →
    let e := (s.dev.drainAll c).modSeq c fun q => { q with hold := none }
    exec (.ysync c) s = .next { s with dev := s.dev.completed c x e } ∧
      ((s.dev.completed c x e).slice c).merge = [] ∧ ((s.dev.completed c x e).regs c).hold = none) ∧
  (∀ (s : State) (c : Nat) (x : QInstr) (j : Nat) (v : Job), s.dev.mayIssue c .c 0x1E x = true →
    ((s.dev.regs c).waiting.any fun y => y.num != x.num) = false → s.dev.quiet c = true → s.dev.jobOf c = some (j, v) →
    let d := ((s.dev.drainAll c).modSeq c fun q => { q with stat := .halted }).progress v.paddock
    let e := d.setJob j { v with halted := v.halted ++ [c] }
    ((v.cores.all fun k => k == c || v.halted.contains k) = false → v.state ≠ .draining →
      exec (.halt c) s = .next { s with dev := s.dev.completed c x e }) ∧
    ((v.cores.all fun k => k == c || v.halted.contains k) = true →
      exec (.halt c) s = .next { s with dev := s.dev.completed c x (e.endJob j 0) })) ∧
  (∀ (s : State) (c : Nat) (x : QInstr) (j : Nat) (v : Job), s.dev.mayIssue c .c 0x19 x = true → s.dev.jobOf c = some (j, v) →
    ((s.dev.regs c).preempt = false →
      let e := s.dev.modSeq c fun q => q.kerfPoint.setSop (fD x.word) 0
      exec (.kerf c) s = .next { s with dev := s.dev.completed c x (e.progress v.paddock) }) ∧
    ((s.dev.regs c).preempt = true → s.dev.kerfBarred c = false →
      let e := s.dev.modSeq c fun q => { q with kerfCnt := q.kerfCnt + 1, stat := .draining, draining := some (some (fD x.word)) }
      exec (.kerf c) s = .next { s with dev := s.dev.completed c x e }) ∧
    ((s.dev.regs c).preempt = true → s.dev.kerfBarred c = true →
      let e := s.dev.modSeq c fun q => q.kerfPoint.kerfPassed.setSop (fD x.word) 0
      exec (.kerf c) s = .next { s with dev := s.dev.completed c x (e.progress v.paddock) })) ∧
  (∀ (s : State) (c j : Nat) (v : Job), c < 12 → s.dev.drained c = true → s.dev.frozen c = false → s.dev.jobOf c = some (j, v) →
      ∃ t, exec (.coreYield c) s = .next t ∧ Table.get t.dev.saved [] c = s.dev.savedOf c j :: Table.get s.dev.saved [] c ∧
        (t.dev.regs c).stat = .yielded ∧ (t.dev.core c).job = none) ∧
  (∀ (s : State) (c : Nat) (x : QInstr) (j : Nat) (v : Job), s.dev.mayIssue c .c 0x1D x = true → s.dev.jobOf c = some (j, v) →
      let t : Trap := { code := 0x0807, bundle := x.bundle, slot := 3, info := BitVec.ofNat 64 (bits x.word 47 32) }
      let d := s.dev.modSeq c fun q => { q with stat := .trapped, trap := some t }
      ∃ e : Device, e.cores = d.cores ∧ e.jobs = d.jobs ∧ exec (.trap c) s = .next { s with dev := e.endJob j 0x0807 }) ∧
  (∀ (d : Device) (j : Nat) (code : Code), (d.endJob j code).job j = none)


/-! ### Musters, fences, phases and core registers -/

/-- R262 to R266: MUSTER takes the core's arrival into the round of its ID and the core waits while others are missing;
MUSTER_LEAD_RELEASE releases the waiting cores at the release instant, and the next round begins with no arrival; at
its deadline a round that is not complete ends its job. -/
def Obligations.MusterResults : Prop :=
  (∀ (s : State) (c : Nat) (x : QInstr) (j : Nat) (v : Job) (m : MusterDef) (r : Round), s.dev.mayIssue c .c 0x16 x = true →
    let id := bits x.word 43 32
    (s.dev.core c).musWaiting = false → s.dev.jobOf c = some (j, v) → id ≠ 0xFFF → Device.musterDef v id = some m →
    s.dev.roundOf j id = some r → m.scope = 0 → (v.cores.all (r.arrived ++ [c]).contains) = false → r.arrived.contains c = false →
    ∃ t, exec (.muster c) s = .next t ∧ (t.dev.core c).musWaiting = true ∧ (t.dev.core c).musId = id ∧
      (t.dev.core c).musRound = r.round ∧
      ∃ r', t.dev.roundOf j id = some r' ∧ r'.arrived = r.arrived ++ [c] ∧ r'.round = r.round) ∧
  (∀ (s : State) (p id : Nat) (r : Round) (v : Job) (at_ : Nat), p < 6 → id < 4096 →
    (s.dev.rounds.filter fun r => r.paddock == p && r.id == id) = [r] → r.releaseAt = some at_ → at_ ≤ s.dev.now →
    s.dev.job r.job = some v →
    ∃ t, exec (.musterLeadRelease p id) s = .next t ∧ (∀ c ∈ v.cores, (t.dev.core c).musWaiting = false) ∧
      ∃ r' ∈ t.dev.rounds, r'.job = r.job ∧ r'.id = id ∧ r'.round = r.round + 1 ∧ r'.arrived = []) ∧
  (∀ (s : State) (slot : Nat) (r : Round), slot < 256 → s.dev.fires slot 2 = true →
      (s.dev.rounds.filter fun r => r.paddock == (s.dev.alarm slot).owner && (match r.deadline with
        | some t => decide (t ≤ s.dev.now)
        | none => false)) = [r] →
      ∃ t, exec (.musterDeadline slot) s = .next t ∧ t.dev.job r.job = none)

/-- R331 to R336: a signal above VALUE of a fence without an error becomes its VALUE; any other is refused with its code and
changes nothing. -/
def Obligations.SignalRule : Prop :=
  ∀ (d : Device) (i : Nat) (v : W64),
    ((d.fence i).code = 0 → (d.fence i).value < v → (d.signalFence i v).2 = 0 ∧
      ((d.signalFence i v).1.fence i) = { d.fence i with value := v }) ∧
    ((d.fence i).code = 0 → v ≤ (d.fence i).value → d.signalFence i v = (d, 0x0105)) ∧
    ((d.fence i).code ≠ 0 → d.signalFence i v = (d, 0x0108))

/-- R174, R332, R335: FSIGNAL signals the fence its handle names, and D takes 0 or the refusal's code; FWAIT completes once the
fence has reached the value, D taking 0, or carries an error, D taking its code; a handle that names no fence gives BAD_HANDLE. -/
def Obligations.FenceInstructionResults : Prop :=
  ∀ (s : State) (c : Nat) (x : QInstr),
    let q := s.dev.regs c
    let h : W32 := (q.sop (fA x.word)).setWidth 32
    let v := q.sop (fBb x.word)
    (s.dev.mayIssue c .c 0x17 x = true →
      (s.dev.findFence (s.dev.ctxOf c) h = none →
        exec (.fsignal c) s = .next { s with dev := s.dev.completed c x (s.dev.modSeq c fun q => q.setSop (fD x.word) 0x0103) }) ∧
      (∀ i, s.dev.findFence (s.dev.ctxOf c) h = some i →
        let r := s.dev.signalFence i v
        let e := r.1.modSeq c fun q => q.setSop (fD x.word) (r.2.setWidth 64)
        exec (.fsignal c) s = .next { s with dev := s.dev.completed c x e })) ∧
    (s.dev.mayIssue c .c 0x18 x = true →
      (s.dev.findFence (s.dev.ctxOf c) h = none →
        exec (.fwait c) s = .next { s with dev := s.dev.completed c x (s.dev.modSeq c fun q => q.setSop (fD x.word) 0x0103) }) ∧
      (∀ i, s.dev.findFence (s.dev.ctxOf c) h = some i →
        (v ≤ (s.dev.fence i).value →
          let e := s.dev.modSeq c fun q => q.setSop (fD x.word) 0
          exec (.fwait c) s = .next { s with dev := s.dev.completed c x (e.dropWait c) }) ∧
        ((s.dev.fence i).value < v → (s.dev.fence i).code ≠ 0 →
          let e := s.dev.modSeq c fun q => q.setSop (fD x.word) ((s.dev.fence i).code.setWidth 64)
          exec (.fwait c) s = .next { s with dev := s.dev.completed c x (e.dropWait c) })))

/-- R417, R418: PHASE with LEAD 0 puts the core into its phase at once; with a lead it announces the phase for the instant LEAD
us ahead and arms an alarm slot of the Paddock for it, and POWER_PHASE begins the phase at that instant. -/
def Obligations.PhaseResults : Prop :=
  (∀ (s : State) (c : Nat) (x : QInstr), s.dev.mayIssue c .c 0x20 x = true → (s.dev.core c).announced = none →
    let tag := bits x.word 43 32
    let lead := bits x.word 59 44
    let p := (s.dev.pdkOfCore c).getD 0
    (lead = 0 → ∃ t, exec (.phase c) s = .next t ∧ (t.dev.core c).phase = tag ∧ (t.dev.core c).announced = none) ∧
    (∀ n, lead ≠ 0 → s.dev.freeSlot p = some n → ∃ t, exec (.phase c) s = .next t ∧ (t.dev.core c).announced = some (tag, n) ∧
      (t.dev.core c).phase = (s.dev.core c).phase ∧ (t.dev.alarm n).armed = true ∧ (t.dev.alarm n).kind = 3 ∧
      (t.dev.alarm n).cmp = s.dev.now + lead * 1000)) ∧
  (∀ (s : State) (slot : Nat), slot < 256 → s.dev.fires slot 3 = true →
    (∀ c tag, s.dev.announcer slot = some (c, tag) →
      ∃ t, exec (.powerPhase slot) s = .next t ∧ (t.dev.core c).phase = tag ∧ (t.dev.core c).announced = none) ∧
    (s.dev.announcer slot = none → ∃ t, exec (.powerPhase slot) s = .next t ∧
      Table.get t.dev.power.defaults 0 (s.dev.alarm slot).owner = (s.dev.alarm slot).target))

/-- R8, R111, R174: MFC takes a core register into D; MTC writes S[A] into one under its access code, and leaves a register that
is read-only as it is. R234, R248, R249, R252, R378: the writes of PEN_CHT of an empty unbound Chute, PEN_CHAIN, PEN_STEP_AREA,
PEN_SKD_STAT.HALT of a halted channel and PEN_SKD_CTL.STOP. -/
def Obligations.CoreRegisterResults : Prop :=
  (∀ (s : State) (c : Nat) (x : QInstr),
    let off := bits x.word 43 32
    let v := (s.dev.regs c).sop (fA x.word)
    (s.dev.mayIssue c .c 0x12 x = true → (off < 0x700 ∨ 0x780 ≤ off ∨ off % 8 ≠ 0) →
      let e := s.dev.modSeq c fun q => q.setSop (fD x.word) (s.dev.coreRead c off)
      exec (.mfc c) s = .next { s with dev := s.dev.completed c x e }) ∧
    (s.dev.mayIssue c .c 0x13 x = true →
      let gives := fun (e : Device) => exec (.mtc c) s = .next { s with dev := s.dev.completed c x e }
      (off = 0x008 → gives (s.dev.modPens c fun p => { p with fs20 := bit v 0 })) ∧
      (off = 0x040 → gives (s.dev.modPens c fun p => { p with flags := p.flags &&& ~~~v })) ∧
      (off = 0x048 → gives (s.dev.modPens c fun p => { p with ctl := v.setWidth 5 })) ∧
      (off = 0x200 → gives (s.dev.modTrough c fun t => { t with ctl := v.setWidth 32 &&& 0x1E })) ∧
      (off = 0x208 → gives (s.dev.modTrough c fun t => { t with flags := t.flags &&& ~~~(v.setWidth 32) })) ∧
      ((off = 0x000 ∨ off = 0x010 ∨ off = 0x018 ∨ off = 0x210 ∨ off = 0x300 ∨ off = 0x508) → gives s.dev))) ∧
  (∀ (s : State) (c : Nat) (x : QInstr), s.dev.mayIssue c .c 0x13 x = true →
    let off := bits x.word 43 32
    let v := (s.dev.regs c).sop (fA x.word)
    (∀ n < 16, off = 0x480 + 8 * n → (s.dev.chute c n).handle ≠ bit v 0 → (s.dev.chute c n).entries = [] →
      (s.dev.chute c n).bound = .none →
      let e := s.dev.setChute c n { s.dev.chute c n with handle := bit v 0 }
      exec (.chuteModeWrite c) s = .next { s with dev := s.dev.completed c x e }) ∧
    (off = 0x500 → (bit v 4 = true ∨ ∃ j k, s.dev.jobOf c = some (j, k) ∧ k.cores.contains (bits v 3 0) = true) →
      let e := s.dev.modCore c fun k => { k with chainNext := bits v 3 0, chainLast := bit v 4 }
      exec (.chainWrite c) s = .next { s with dev := s.dev.completed c x e }) ∧
    (off = 0x800 → (bit v 31 = false ∨ (bits v 25 0 % 64 = 0 ∧ s.dev.ownRange c (bits v 25 0) 8256 = true)) →
      let e := s.dev.modCore c fun k => { k with stepOff := bits v 25 0, stepEn := bit v 31 }
      exec (.stepAreaWrite c) s = .next { s with dev := s.dev.completed c x e }) ∧
    (∀ ch < 2, off = 0x400 + 0x40 * ch → bit v 2 = true → (s.dev.channel c ch).state = .halted →
      let e := s.dev.setChannel c ch { s.dev.channel c ch with state := .idle, halt := false }
      ∀ j k, e.jobOf c = some (j, k) → k.haltAt = some (c, ch) →
        exec (.channelHaltAck c) s = .next { s with dev := s.dev.completed c x (e.setJob j { k with haltCode := 0 }) }) ∧
    (∀ ch < 2, off = 0x408 + 0x40 * ch → bit v 0 = true →
      exec (.channelStop c) s = .next { s with dev := s.dev.completed c x (s.dev.stopChannel c ch) }))

/-- R365: SEM_TICKET_TAKE gives the job the semaphore's next ticket and D its number; SEM_RELEASE gives up the smallest granted
ticket of the job, and the semaphore's fence goes up by 1. -/
def Obligations.SemaphoreTicketResults : Prop :=
  ∀ (s : State) (c n j : Nat) (x : QInstr) (v : Job), n < 16 → s.dev.jobOf c = some (j, v) →
    (s.dev.mayIssue c .c 0x12 x = true → bits x.word 43 32 = 0x700 + 8 * n → (s.dev.sem v.paddock n).valid = true →
      (s.dev.sem v.paddock n).context = v.context → v.tickets.length < 16 →
      let k := s.dev.sem v.paddock n
      let e := (s.dev.setSem v.paddock n { k with ticket := k.ticket + 1 }).setJob j { v with tickets := v.tickets ++ [(n, k.ticket)] }
      let f := e.modSeq c fun q => q.setSop (fD x.word) (BitVec.ofNat 64 k.ticket)
      exec (.semTicketTake c) s = .next { s with dev := s.dev.completed c x f }) ∧
    (∀ i t ts, s.dev.mayIssue c .c 0x13 x = true → bits x.word 43 32 = 0x780 + 8 * n →
      (v.tickets.filter fun t => t.1 == n && decide (t.2 ≤ s.dev.granted v.paddock n)).map (·.2) = t :: ts → v.loan = none →
      (s.dev.sem v.paddock n).abandoned = [] → s.dev.semFence v.paddock n = some i →
      let e := (s.dev.setJob j { v with tickets := v.tickets.erase (n, ts.foldl min t) }).endLoan j (n, ts.foldl min t)
      exec (.semRelease c) s = .next { s with dev := s.dev.completed c x (e.signalFence i ((s.dev.fence i).value + 1)).1 })

/-- R8, R308, R340, R348, R355, R359: REGISTER_WRITE stores the value a register takes while the host link carries it: the
Drover's context, the queue table, a ring's base and index, and PDK_DRV_CTL and PDK_SHARE of a Paddock that runs. -/
def Obligations.RegisterWriteResults : Prop :=
  ∀ (s : State) (v : W64), s.dev.mmioUp = true →
    let g := s.dev.glb
    exec (.registerWrite 0x18 4 v) s = .next { s with dev := { s.dev with glb := { g with drvCtx := v.setWidth 32 &&& 0xFFFFF } } } ∧
    exec (.registerWrite 0x20 8 v) s =
      .next { s with dev := { s.dev with glb := { g with qtabBase := BitVec.ofNat 64 (v.toNat % 2 ^ 57 / 4096 * 4096) } } } ∧
    (∀ n < 64, ∀ off, off = 0x1000 + 0x20 * n → (s.dev.ring n).en = false →
      let e := s.dev.setRing n { s.dev.ring n with base := v.toNat % 2 ^ 57 / 4096 * 4096 }
      exec (.registerWrite off 8 v) s = .next { s with dev := e }) ∧
    (∀ n < 64, ∀ off, off = 0x1018 + 0x20 * n →
      let e := s.dev.setRing n { s.dev.ring n with cons := v.toNat }
      exec (.registerWrite off 8 v) s = .next { s with dev := e }) ∧
    (∀ p < 6, s.dev.pdkPresent p = true → (s.dev.pdk p).rst = .running →
      (10 ≤ bits v 31 16 → bits v 31 16 ≤ 10000 →
        let e := s.dev.modPdk p fun k => { k with preemptEn := bit v 0, quantum := bits v 31 16 }
        exec (.registerWrite (0x201000 + 0x10000 * p) 4 v) s = .next { s with dev := e }) ∧
      (∀ g < 64, bits v 7 0 ≠ 0 →
        ∃ t, exec (.registerWrite (0x201040 + 0x10000 * p + 4 * g) 4 v) s = .next t ∧ (t.dev.share p g).weight = bits v 7 0 ∧
          (t.dev.share p g).fg = bit v 8 ∧ (t.dev.share p g).acct = (s.dev.share p g).acct))

/-! ### Pens and the moving front -/

/-- R65, R72, R76, R77, R81, R89, R96, R100, R102, R414: PISSUE sends one issue of the named units on its way, with SWAP switching
them after the weights are taken, where no front or burst holds the core, the controller lets it, the Pens' intervals and latencies
allow it and none of them is held back by its ramp; where only the ramp holds it back it waits under POWER and nothing enters.
PEN_SLOT_WRITE, once the earliest write cycle has ended, combines the row results of the issue that writes in it with its slots;
where the writes of that cycle raise an enabled condition the core traps once, with the conditions of all of them and the bundle of
the oldest that carries one. -/
def Obligations.PenIssueResults : Prop :=
  (∀ (s : State) (c : Nat) (x : QInstr), s.dev.mayIssue c .p 0x01 x = true →
    let w := x.word
    let k := s.dev.core c
    let a := issueArgs k.sq w
    let us := maskUnits k.sq w
    pairOk a.op a.cond a.fw a.fx = true → (a.fold = true ∨ a.slot < 16) →
    (if fmtMx a.fx then bits w 51 47 % 2 = 0 else bits w 51 47 = 0) → us ≠ [] → badUnits k.pn.folds a.fold us = false →
    (bit w 46 = true → anyShadow k.pn a.fold us [.loading, .armed] = false) →
    (a.init = true ∨ k.pn.slotBusy a.fold (us.flatMap (pensOf a.fold)) a.slot = false) →
    let now := s.dev.power.cycles
    let f := flightOf k.pn a x.num x.bundle s.dev.free now us
    s.dev.copyHeld c = false → s.dev.withheld c = false → k.pn.accept now f.due f.pens = true →
    ((f.pens.all fun n => (k.pn.pen n).rampOk now) = true →
      let e := (s.dev.tookFree.spend c (f.pens.length * s.dev.weight (issueKind a.op a.fw a.fx))).modPens c fun p =>
        let p := p.enter f now (interval a.fx)
        if bit w 46 then us.foldl (fun p u => p.switchUnit a.fold u) p else p
      exec (.pissue c) s = .next { s with dev := e.departed c .p }) ∧
    ((f.pens.all fun n => (k.pn.pen n).rampOk now) = false →
      ∃ t, exec (.pissue c) s = .next t ∧ (t.dev.core c).pn = k.pn.bar now f.pens ∧ (t.dev.regs c).queue .p = k.sq.queue .p ∧
        Table.find (t.dev.core c).waits 0 = some .power)) ∧
  (∀ (s : State) (c : Nat) (f : Flight), c < 12 → (∀ x ∈ (s.dev.core c).pn.flights, f.due ≤ x.due) →
    ((s.dev.core c).pn.flights.filter fun x => x.due == f.due) = [f] → f.due < s.dev.power.cycles →
    (condBits ((s.dev.core c).pn.landFlight f).2).1 &&& (s.dev.core c).pn.ctl = 0 →
    ((f.rows.map fun x => cellAt f.fold x.1 x.2.1 f.slot) ++ (f.irows.map fun x => cellAt f.fold x.1 x.2.1 f.slot)).Nodup →
    ∃ t, exec (.penSlotWrite c) s = .next t ∧
      (t.dev.core c).pn.flights = ((s.dev.core c).pn.flights.filter fun x => x.due != f.due) ∧
      (∀ u i v, (u, i, v) ∈ f.rows → (t.dev.core c).pn.slotVal f.fold u i f.slot =
        (combineF f.op f.init ((s.dev.core c).pn.slotVal f.fold u i f.slot) v).1) ∧
      (∀ u i v, (u, i, v) ∈ f.irows → (t.dev.core c).pn.slotVal f.fold u i f.slot =
        (combineI f.op f.init ((s.dev.core c).pn.slotVal f.fold u i f.slot) v).1) ∧
      ∀ k ∈ (t.dev.regs c).claims, k.num ≠ f.num) ∧
  (∀ (s : State) (c j due : Nat) (v : Job) (b : Nat × FFlags × W32), c < 12 → s.dev.jobOf c = some (j, v) →
    (s.dev.regs c).stat ≠ .trapped → (∀ x ∈ (s.dev.core c).pn.flights, due ≤ x.due) →
    ((s.dev.core c).pn.flights.any fun x => x.due == due) = true → due < s.dev.power.cycles →
    let group := (s.dev.core c).pn.flights.filter fun x => x.due == due
    let landed := (s.dev.core c).pn.landAll group
    landed.2.2.find? (fun b => b.2.1 &&& (s.dev.core c).pn.ctl ≠ 0) = some b →
    let t : Trap := { code := 0x0803, bundle := b.1, slot := 0, info := arithInfo (condBits landed.2.1) }
    ∃ e : Device, (e.regs c).trap = some t ∧ (e.regs c).stat = .trapped ∧
      exec (.penSlotWrite c) s = .next { s with dev := e.endJob j 0x0803 })

/-- R66, Table 3.4: the identity of each operator and accumulator type is the value an issue with INIT = IDENTITY (bit 39 of the
word, 0 ACCUMULATE) starts from, in place of the slot, and the term of a lane whose valid bit is clear, whatever its weight and
activation hold. Beside it, from R65: an INT32 slot takes the minimum or the maximum, or the sum saturated at 32 bits. -/
def Obligations.OperatorIdentities : Prop :=
  ∀ op : Nat,
    let idI : W32 := if op = 3 then 0x7FFFFFFF else if op = 4 then 0x80000000 else 0
    let idF : W32 := if op = 3 then 0x7F800000 else if op = 4 then 0xFF800000 else 0
    (∀ acc t, combineI op true acc t = combineI op false idI t) ∧
    (∀ acc t, combineF op true acc t = combineF op false idF t) ∧
    (∀ (q : Sequencer) (w : W64), (issueArgs q w).init = bit w 39) ∧
    (∀ (p : Pens) (a : IssueArgs) (u i : Nat), a.op = op →
      (∃ term : Nat → Int × FFlags, rowI p a u i = treeI op ((List.range (unitDim a.fold)).map term) ∧
        ∀ j, a.valid u j = false → term j = (idI.toInt, 0)) ∧
      (∀ ord, fmtMx a.fx = false → ∃ term : Nat → FVal × FFlags,
        rowF p a ord u i = (fun t => ((rnd32 t.1).1, t.2))
          (treeF op a.fx (if a.fold then 5 else 4) ord ((List.range (unitDim a.fold)).map term)) ∧ ∀ j, a.valid u j = false → term j = (acc32 idF, 0)) ∧
      (∀ ord, fmtMx a.fx = true → ∃ term : Nat → FVal × FFlags,
        rowF p a ord u i = (fun t => ((rnd32 t.1).1, t.2)) (mxScale a.fx (p.rowScale a.fold u i) (a.sx u)
          (treeF op a.fx (if a.fold then 5 else 4) ord ((List.range (unitDim a.fold)).map term))) ∧ ∀ j, a.valid u j = false → term j = (acc32 idF, 0))) ∧
    (∀ (acc : W32) (t : Int), -(2 ^ 31) ≤ t → t < 2 ^ 31 →
      (op = 3 → ((combineI op false acc t).1).toInt = min acc.toInt t) ∧
      (op = 4 → ((combineI op false acc t).1).toInt = max acc.toInt t) ∧
      (op ≠ 3 → op ≠ 4 →
        ((combineI op false acc t).1).toInt = max (-(2 ^ 31)) (min (2 ^ 31 - 1) (acc.toInt + t)) ∧
        ((combineI op false acc t).2 ≠ 0 ↔ acc.toInt + t < -(2 ^ 31) ∨ 2 ^ 31 ≤ acc.toInt + t)))

/-- R89: a switch of a unit whose shadow is FULL copies every H into W and every shadow row scale into its row scale, in one
command; other Pens are unchanged, and so is a unit whose shadow is not FULL. PSWAP switches each named unit as it issues, a
PISSUE with SWAP after the old weights are sampled; both wait, and change no Pen, while a named unit is LOADING or ARMED. -/
def Obligations.SwitchRule : Prop :=
  (∀ (p : Pens) (fold : Bool) (u : Nat),
    (p.shadowOf fold u = .full → ∀ n,
      (n ∈ pensOf fold u → ((p.switchUnit fold u).pen n).w = (p.pen n).h ∧ ((p.switchUnit fold u).pen n).sw = (p.pen n).sh ∧
        ((p.switchUnit fold u).pen n).shadow = .empty) ∧
      (n ∉ pensOf fold u → (p.switchUnit fold u).pen n = p.pen n)) ∧
    (p.shadowOf fold u ≠ .full → p.switchUnit fold u = p)) ∧
  (∀ (s : State) (c : Nat) (x : QInstr), s.dev.mayIssue c .p 0x02 x = true →
    let k := s.dev.core c
    let us := maskUnits k.sq x.word
    badUnits k.pn.folds (fUK x.word) us = false →
    (anyShadow k.pn (fUK x.word) us [.loading, .armed] = false → ∃ t, exec (.pswap c) s = .next t ∧
      (t.dev.core c).pn = us.foldl (fun p u => p.switchUnit (fUK x.word) u) k.pn) ∧
    (anyShadow k.pn (fUK x.word) us [.loading, .armed] = true → ∃ t, exec (.pswap c) s = .next t ∧
      (t.dev.core c).pn = k.pn ∧ (t.dev.regs c).queue .p = k.sq.queue .p)) ∧
  (∀ (s : State) (c : Nat) (x : QInstr), s.dev.mayIssue c .p 0x01 x = true →
    let w := x.word
    let k := s.dev.core c
    let a := issueArgs k.sq w
    let us := maskUnits k.sq w
    pairOk a.op a.cond a.fw a.fx = true → (a.fold = true ∨ a.slot < 16) →
    (if fmtMx a.fx then bits w 51 47 % 2 = 0 else bits w 51 47 = 0) → us ≠ [] → badUnits k.pn.folds a.fold us = false →
    bit w 46 = true →
    let now := s.dev.power.cycles
    let f := flightOf k.pn a x.num x.bundle s.dev.free now us
    (anyShadow k.pn a.fold us [.loading, .armed] = true → ∃ t, exec (.pissue c) s = .next t ∧
      (t.dev.core c).pn = k.pn ∧ (t.dev.regs c).queue .p = k.sq.queue .p) ∧
    (anyShadow k.pn a.fold us [.loading, .armed] = false →
      (a.init = true ∨ k.pn.slotBusy a.fold (us.flatMap (pensOf a.fold)) a.slot = false) → s.dev.penHold c f.pens f.due = none →
      ∃ t, exec (.pissue c) s = .next t ∧ (t.dev.core c).pn = us.foldl (fun p u => p.switchUnit a.fold u)
        (k.pn.enter f now (interval a.fx))))

/-- R84, R85, R89, R92, R93, R107 to R110: PSWAP switches the named units; PFOLD joins or splits the named Folds; PDRN PLAIN copies
slot S of the named units into the vector register, SUM combines them; PCONV begins its walk, which has one issue for each
position and chunk, in order, and in a cycle in which its next issue may enter, that issue enters its Pen with the lanes read. -/
def Obligations.PenInstructionResults : Prop :=
  (∀ (s : State) (c : Nat) (x : QInstr), s.dev.mayIssue c .p 0x02 x = true →
    let k := s.dev.core c
    let us := maskUnits k.sq x.word
    badUnits k.pn.folds (fUK x.word) us = false → anyShadow k.pn (fUK x.word) us [.loading, .armed] = false →
    let e := s.dev.modPens c fun p => us.foldl (fun p u => p.switchUnit (fUK x.word) u) p
    exec (.pswap c) s = .next { s with dev := s.dev.completed c x e }) ∧
  (∀ (s : State) (c : Nat) (x : QInstr), s.dev.mayIssue c .p 0x03 x = true →
    let k := s.dev.core c
    let m := k.sq.sop (fSU x.word)
    let ps := (unitsOf true m).flatMap (pensOf true)
    (ps.any fun n => k.pn.busy n || (k.pn.pen n).shadow == .loading) = false →
    (bit x.word 16 = true → (ps.any fun n => (k.pn.pen n).shadow == .armed) = false) →
    ∃ t, exec (.pfold c) s = .next t ∧ ∀ f < 8, (t.dev.core c).pn.folds.getLsbD f =
      if bit m f then bit x.word 16 else k.pn.folds.getLsbD f) ∧
  (∀ (s : State) (c : Nat) (x : QInstr), s.dev.mayIssue c .t 0x01 x = true →
    let w := x.word
    let k := s.dev.core c
    let fold := fUK w
    let us := maskUnits k.sq w
    let slot := bits w 26 22
    let dim := unitDim fold
    let m := if fold then 8 else 16
    (fold = true ∨ slot < 16) → us ≠ [] → badUnits k.pn.folds fold us = false →
    k.pn.slotOwed x.num fold (us.flatMap (pensOf fold)) slot = false →
    (bit w 27 = false → (us.map (· % m)).eraseDups.length = us.length →
      ∃ v : VReg, exec (.pdrn c) s = .next { s with dev := s.dev.completed c x (s.dev.modSeq c fun q => q.setV (fA w) v) } ∧
        ∀ l < 256, Table.get v 0 l = match us.find? fun u => u % m == l / dim with
          | some u => k.pn.slotVal fold u (l % dim) slot
          | none => 0) ∧
    (bit w 27 = true → k.pn.ctl = 0 →
      ∃ t, exec (.pdrn c) s = .next t ∧ ∀ l < 256, (t.dev.regs c).lane (fA w) l =
        if l < dim then (sumLane (sumKind k.pn fold (us.headD 0) slot (s.dev.freeWord 4)) (Config.freeOrder 4 (64 * s.dev.free + l))
          (us.map fun u => k.pn.slotVal fold u l slot)).1 else 0)) ∧
  (∀ (s : State) (c : Nat) (x : QInstr) (e : Device) (bs : List Byte), s.dev.mayIssue c .p 0x04 x = true →
    let k := s.dev.core c
    let off := (k.sq.aReg (bits x.word 15 11)).toNat
    let first := bits x.word 20 16
    let v := convOf (ofBytes bs)
    k.pn.fs20 = true → off % 32 = 0 → s.dev.ownRange c off 32 = true →
    s.dev.readYard c 3 off 32 = (e, .inl bs) → v.reserved = false → (v.elem = 0 ∨ v.elem = 7) → v.base % 4 = 0 →
    [v.kh, v.kw, v.sy, v.sx, v.dy, v.dx].any (· == 0) = false → 1 ≤ v.count → v.count ≤ 16 → first + v.chunks ≤ 32 →
    (v.reads.all fun o => s.dev.ownRange c o v.esize) = true →
    badUnits k.pn.folds false ((List.range v.chunks).map (first + ·)) = false →
    let walk : Walk := { num := x.num, bundle := x.bundle, first := first, conv := v, todo := v.issues, extra := v.extra v.issues }
    let g := e.modPens c fun p => { p with walk := if v.issues.isEmpty then none else some walk }
    exec (.pconv c) s = .next { s with dev := g.departed c .p } ∧ v.issues.length = v.count * v.chunks) ∧
  (∀ (d g : Device) (c n q : Nat) (w : Walk) (rest : List (Nat × Nat)) (ls : List (Bool × W32)),
    let v := w.conv
    let now := d.power.cycles
    (d.core c).pn.walk = some w → w.todo = (n, q) :: rest → w.extra = 0 →
    (v.acc = true → (d.core c).pn.slotBusy false [w.first + q] ((v.slot0 + n) % 16) = false) →
    d.penHold c [w.first + q] (now + latency 0 v.elem false - 1) = none →
    (d.askPorts c 3 true (v.lines n q)).convLanes c v.esize (v.lanes n q) = (g, .inl ls) →
    let a : IssueArgs := { op := 0, cond := 0, fw := v.elem, fx := v.elem, init := !v.acc, slot := (v.slot0 + n) % 16, fold := false,
                           valid := fun _ j => (ls.getD j (false, 0)).1, x := fun _ j => (ls.getD j (false, 0)).2, sx := fun _ => 0 }
    let f := flightOf (d.core c).pn a w.num w.bundle g.free now [w.first + q]
    ((d.walkCycle c).core c).pn = { (d.core c).pn.enter f now (interval v.elem) with
      walk := if rest.isEmpty then none else some { w with todo := rest, extra := v.extra rest } })

/-- R86 to R88, R142, R172: PLDW reads the named units' rows and leaves their shadows LOADING; PLDW_COMPLETE writes the oldest
load's tile, leaves its shadows FULL, and releases its claims. -/
def Obligations.PenLoadResults : Prop :=
  (∀ (s : State) (c : Nat) (x : QInstr) (e : Device) (rows : List ((Nat × Nat) × List Byte)), s.dev.mayIssue c .m 0x08 x = true →
    let w := x.word
    let k := s.dev.core c
    let us := maskUnits k.sq w
    let ctl := bits w 32 31
    let b1 := bits w 35 33
    let b2 := bits w 38 36
    let bs := if bit w 30 then booksOf ctl b1 b2 else []
    pldwFieldsOk w = true → us ≠ [] → badUnits k.pn.folds (fUK w) us = false →
    anyShadow k.pn (fUK w) us [.armed] = false → ((pldwRows k.sq w us).all fun r => s.dev.ownRange c r.2.toNat (pldwRow w)) = true →
    k.tr.bookLoading bs = false → anyShadow k.pn (fUK w) us [.loading] = false → k.tr.badBook (s.dev.ctxOf c) bs = none →
    (bit w 30 = true → ctl = 1 → (k.tr.book b1).efmt = (k.tr.book b2).efmt ∧ (k.tr.book b1).bscale = (k.tr.book b2).bscale) →
    s.dev.readTile c (pldwRow w) (pldwRows k.sq w us) = (e, .inl rows) →
    ∃ t l, exec (.pldw c) s = .next t ∧ (t.dev.core c).pn.loads = (e.core c).pn.loads ++ [l] ∧ l.num = x.num ∧
      l.pens = us.flatMap (pensOf (fUK w)) ∧ (∀ n ∈ l.pens, ((t.dev.core c).pn.pen n).shadow = .loading) ∧
      l.cells = rows.flatMap fun r => (List.range (unitDim (fUK w))).map fun j =>
        ((cellAt (fUK w) r.1.1 r.1.2 j).1, (cellAt (fUK w) r.1.1 r.1.2 j).2,
          if bit w 30 then k.tr.decodeElem ctl b1 (bits w 43 39) b2 (bits w 47 44) (ofBytes r.2) j else rowElem (bits w 29 26) r.2 j)) ∧
  (∀ (s : State) (c : Nat) (l : Load) (r : List Load), c < 12 → (s.dev.core c).pn.loads = l :: r →
    (l.cells.map fun x => (x.1, x.2.1)).Nodup →
    ∃ t, exec (.pldwComplete c) s = .next t ∧ (t.dev.core c).pn.loads = r ∧
      (∀ n k v, (n, k, v) ∈ l.cells → Table.get ((t.dev.core c).pn.pen n).h 0 k = v) ∧
      (∀ n ∈ l.pens, ((t.dev.core c).pn.pen n).shadow = .full) ∧ ∀ k ∈ (t.dev.regs c).claims, k.num ≠ l.num)

/-- R94 to R99, R249: PSKARM arms the named units for a front of a generation; a marker of that generation and length is taken and
forwarded along the chain; each beat lands in order, and with the last the units are FULL, or switch when HOLD is 0. -/
def Obligations.MovingFrontResults : Prop :=
  (∀ (s : State) (c : Nat) (x : QInstr), s.dev.mayIssue c .m 0x09 x = true →
    let k := s.dev.core c
    let us := maskUnits k.sq x.word
    badUnits k.pn.folds (fUK x.word) us = false → us ≠ [] →
    anyShadow k.pn (fUK x.word) us [.armed] = false → anyShadow k.pn (fUK x.word) us [.loading, .full] = false →
    ∃ t, exec (.pskarm c) s = .next t ∧ (t.dev.core c).pn.skidArmed = true ∧
      (t.dev.core c).pn.skidGen = BitVec.ofNat 8 (bits x.word 23 16) ∧ (t.dev.core c).pn.skidHold = bit x.word 24 ∧
      ∀ n ∈ us.flatMap (pensOf (fUK x.word)), ((t.dev.core c).pn.pen n).shadow = .armed) ∧
  (∀ (s : State) (c gen fmt : Nat) (src : Nat × Nat) (r : List SkidMsg), c < 12 →
    let p := (s.dev.core c).pn
    let pens := (List.range 32).filter fun n => (p.pen n).shadow == .armed
    let beats := frontBeats fmt pens.length
    p.router = [] → s.dev.skidTo c = .marker gen fmt beats src :: r → s.dev.discards c = false → p.skidArmed = true →
    p.held = false → gen = p.skidGen.toNat →
    ∃ t, exec (.skidMarkerArrive c) s = .next t ∧ (t.dev.core c).pn.rows = 0 ∧ (t.dev.core c).pn.front =
        some { gen := gen, fmt := fmt, beats := beats, got := 0, taken := true, dead := false, src := src, pens := pens } ∧
      ((s.dev.core c).chainLast = true → t.dev.skidTo c = r) ∧
      ((s.dev.core c).chainLast = false → s.dev.corePresent (s.dev.core c).chainNext = true → (s.dev.core c).chainNext ≠ c →
        t.dev.skidTo (s.dev.core c).chainNext = s.dev.skidTo (s.dev.core c).chainNext ++ [.marker gen fmt beats src])) ∧
  (∀ (s : State) (c : Nat) (f : Front) (data : List Byte) (r : List SkidMsg), c < 12 →
    let p := (s.dev.core c).pn
    let landed := p.landTile [] (beatLands f f.got data).1 (beatLands f f.got data).2
    p.router = [] → s.dev.skidTo c = .beat data :: r → p.front = some f → f.dead = false →
    ∃ t, exec (.skidBeatArrive c) s = .next t ∧
      (f.got + 1 ≠ f.beats → (t.dev.core c).pn.front = some { f with got := f.got + 1 } ∧
        ∀ n, ((t.dev.core c).pn.pen n).h = (landed.pen n).h ∧ ((t.dev.core c).pn.pen n).w = (p.pen n).w) ∧
      (f.got + 1 = f.beats → (t.dev.core c).pn.front = none ∧
        ((∀ n < 32, n ∉ f.pens → (p.pen n).shadow ≠ .armed) → (t.dev.core c).pn.skidArmed = false) ∧
        (t.dev.core c).pn.lastGen = BitVec.ofNat 8 f.gen ∧ ∀ n ∈ f.pens,
          (p.skidHold = true → ((t.dev.core c).pn.pen n).shadow = .full ∧ ((t.dev.core c).pn.pen n).h = (landed.pen n).h) ∧
          (p.skidHold = false → ((t.dev.core c).pn.pen n).shadow = .empty ∧ ((t.dev.core c).pn.pen n).w = (landed.pen n).h)))

/-! ### The Trough, the codebooks and the instruction memory -/

/-- R112, R113, R126, R129, R130, R134: TPASS puts a pass whose descriptor is legal behind those that wait; TPASS_COMPLETE
writes the outputs of the pass at the head, whose stream cycles have all run, and its row count, its column count for mode 1, to
Sd; TACT fills 256 elements of a bank, rounded to its format. A cycle of the grid takes the first pass that has stream cycles
left one cycle on and counts it, or leaves it under COPY or POWER (R135, R147, R414). -/
def Obligations.TroughResults : Prop :=
  (∀ (s : State) (c : Nat) (x : QInstr) (e : Device) (bs : List Byte), s.dev.mayIssue c .t 0x02 x = true →
    let k := s.dev.core c
    let off := (k.sq.aReg (bits x.word 15 11)).toNat
    let p := descOf (ofBytes bs)
    let books := booksOf p.fmt p.book1 p.book2
    k.tr.passes.length < 4 → off % 32 = 0 → s.dev.ownRange c off 32 = true → s.dev.readYard c 2 off 32 = (e, .inl bs) →
    descReservedZero (ofBytes bs) = true → p.fieldsOk = true → s.dev.passRangesOk c p = true →
    (p.op = 2 ∨ (k.tr.bank p.abank).int8 = decide (p.afmt = 1)) → k.tr.bookLoading books = false →
    k.tr.badBook (s.dev.ctxOf c) books = none → k.tr.pairOk p = true →
    let y : Pass := { num := x.num, bundle := x.bundle, sd := bits x.word 20 16, d := p, ran := 0 }
    let g := e.modCore c fun k => { k with tr := { k.tr with failed := false, passes := k.tr.passes ++ [y] } }
    exec (.tpass c) s = .next { s with dev := g.departed c .t }) ∧
  (∀ (s : State) (c : Nat) (y : Pass) (r : List Pass) (t : Trough) (e g : Device) (xs : List RowIn) (out : List Byte), c < 12 →
    let p := y.d
    let ord := fun k => Config.freeOrder 3 (65536 * s.dev.free + k)
    let m := if p.acc && p.op = 1 then p.k else 0
    let ys := match p.op with
      | 0 => (List.range p.rows).map fun r => rowOut t p ord r (xs.getD r default)
      | 1 => (List.range p.k).map fun j => colOut t p ord xs ((Device.wordsOf out m).getD j 0) j
      | _ => xs.flatMap (expandOut t p)
    (s.dev.core c).tr.passes = y :: r → streamCycles p ≤ y.ran → (s.dev.core c).tr.loadSet p = .inl t →
    ({ s.dev with free := s.dev.free + 1 }.modTrough c fun _ => t).readRows c p (List.range p.rows) = (e, xs, none) →
    e.streamRead c p.outBase (4 * m) = (g, .inl out) →
    (∀ z ∈ ys, z.2 &&& ((s.dev.core c).tr.ctl).setWidth 5 = 0) →
    ∃ u, exec (.tpassComplete c) s = .next u ∧
      u.dev.slices = ((g.askPorts c 2 true (linesOf p.outBase (4 * ys.length)) [(c, 2)]).writeYard c p.outBase
        (ys.flatMap fun z => toBytes 4 z.1.toNat)).slices ∧
      (u.dev.core c).tr.passes = r ∧ (u.dev.core c).tr.cnt = (s.dev.core c).tr.cnt ∧
      (u.dev.regs c).sop y.sd = (if y.sd = 0 then 0 else BitVec.ofNat 64 (if p.op = 1 then p.k else p.rows)) ∧
      ∀ k ∈ (u.dev.regs c).claims, k.num ≠ y.num) ∧
  (∀ (s : State) (c : Nat) (x : QInstr), s.dev.mayIssue c .t 0x03 x = true →
    let k := s.dev.core c
    let b := bits x.word 22 22
    (k.tr.passes.any fun p => p.d.op != 2 && p.d.abank == b) = false →
    ∃ v : Bank, exec (.tact c) s = .next { s with dev := (s.dev.modCore c fun k =>
        { k with tr := { k.tr with banks := Table.set k.tr.banks Bank.reset b v } }).retired c .t } ∧
      v.int8 = bit x.word 29 ∧ ∀ i < 256, Table.get v.elems 0 (256 * bits x.word 28 23 + i) =
        if bit x.word 29 then BitVec.ofInt 16 (max (-128) (min 127 (k.sq.lane (fA x.word) i).toInt) % 256)
        else BitVec.ofNat 16 ((rndBf16 (val32 (k.sq.lane (fA x.word) i))).toNat / 65536)) ∧
  (∀ (d : Device) (c : Nat) (y : Pass), c < 12 → (d.core c).tr.passes.find? (fun p => decide (p.ran < streamCycles p.d)) = some y →
    (d.core c).tr.reload = 0 →
    let e := d.troughCycle c
    (d.copyHeld c = true → e = d.tWaits c (some .copy)) ∧
    (d.copyHeld c = false → d.withheld c = true → e = d.tWaits c (some .power)) ∧
    (d.copyHeld c = false → d.withheld c = false → ((d.slice c).requests.any fun r => r.own && r.cls == 2) = false →
      (e.core c).tr.cnt = (d.core c).tr.cnt + 1 ∧ (e.core c).tr.passes = (d.core c).tr.passes.map fun x =>
        if x.num = y.num then { x with ran := x.ran + 1 } else x))

/-- R121 to R124, R194: CBLD leaves its codebook not VALID and its entries on their way; CBLD_COMPLETE writes them, and the codebook
takes its owner, format, scale and the next generation, and is VALID; IMLD writes bundles to the instruction memory; HAUL launches
a legal Haul program on an IDLE channel with eight argument registers. -/
def Obligations.LoadAndLaunchResults : Prop :=
  (∀ (s : State) (c : Nat) (x : QInstr) (e : Device) (bs : List Byte), s.dev.mayIssue c .m 0x0A x = true →
    let k := s.dev.core c
    let off := (k.sq.aReg (fAB x.word)).toNat
    let b := bits x.word 23 21
    let n := 8 * bits x.word 42 33
    let old := k.tr.book b
    let mine := decide (old.owner = s.dev.ctxOf c)
    off % 64 = 0 → 8 * bits x.word 32 24 + n ≤ 4096 →
    (bits x.word 46 43 = 0 ∨ bits x.word 46 43 = 4 ∨ bits x.word 46 43 = 5) → s.dev.ownRange c off (8 * n) = true →
    (k.tr.passes.any fun p => (booksOf p.d.fmt p.d.book1 p.d.book2).contains b) = false →
    (k.pn.loads.any fun l => l.books.contains b) = false → old.loading = false →
    let start : Book := { old with valid := false, loading := true, entries := if mine then old.entries else [],
                                   bad := if mine then old.bad else [] }
    ((s.dev.modCore c fun k => { k with tr := k.tr.setBook b start }).askPorts c 3 true (linesOf off (8 * n))).readBlocks c 3
      (Device.blocksOf off (8 * n)) = (e, bs, none) →
    let l : BookLoad := { num := x.num, bundle := x.bundle, book := b, first := 8 * bits x.word 32 24,
                          entries := (List.range n).map fun i => BitVec.ofNat 64 (ofBytes ((bs.drop (8 * i)).take 8)),
                          efmt := bits x.word 46 43, bscale := BitVec.ofNat 8 (bits x.word 54 47), context := s.dev.ctxOf c }
    let g := e.modCore c fun k => { k with tr := { k.tr with loads := k.tr.loads ++ [l] } }
    exec (.cbld c) s = .next { s with dev := g.departed c .m }) ∧
  (∀ (s : State) (c : Nat) (l : BookLoad) (r : List BookLoad), c < 12 → (s.dev.core c).tr.loads = l :: r → l.book < 8 →
    ∃ t, exec (.cbldComplete c) s = .next t ∧ (t.dev.core c).tr.loads = r ∧ (∀ k ∈ (t.dev.regs c).claims, k.num ≠ l.num) ∧
      let old := (s.dev.core c).tr.book l.book
      let b := (t.dev.core c).tr.book l.book
      b.valid = true ∧ b.loading = false ∧ b.owner = l.context ∧ b.efmt = l.efmt ∧ b.bscale = l.bscale ∧ b.gen = old.gen + 1 ∧
      ∀ i, Table.get b.entries 0 i =
        if l.first ≤ i ∧ i < l.first + l.entries.length then l.entries.getD (i - l.first) 0 else Table.get old.entries 0 i) ∧
  (∀ (s : State) (c : Nat) (x : QInstr), s.dev.mayIssue c .m 0x0E x = true →
    let off := ((s.dev.regs c).aReg (fAB x.word)).toNat
    let first := bits x.word 33 21
    let n := bits x.word 47 34
    off % 32 = 0 → s.dev.ownRange c off (32 * n) = true → first + n ≤ 8192 →
    ((List.range n).all fun i => (s.dev.slice c).guardedAt (off + 32 * i) && s.dev.plainRead c (off / 32 + i)) = true →
    ∃ t, exec (.imld c) s = .next t ∧ (∀ k, t.dev.slice k = (s.dev.askPorts c 3 true (linesOf off (32 * n))).slice k) ∧
      ∀ i, Table.get (t.dev.regs c).imem 0 i =
        if first ≤ i ∧ i < first + n then ((s.dev.slice c).block (off / 32 + (i - first))).data
        else Table.get (s.dev.regs c).imem 0 i) ∧
  (∀ (s : State) (c : Nat) (x : QInstr) (e : Device) (bs : List Byte), s.dev.mayIssue c .m 0x0B x = true →
    let q := s.dev.regs c
    let ch := if bit x.word 10 then 1 else 0
    let ar := bits x.word 26 21
    let off := (q.aReg (fAB x.word)).toNat
    let prog := (List.range 16).map fun i => BitVec.ofNat 64 (ofBytes ((bs.drop (8 * i)).take 8))
    (s.dev.channel c ch).state = .idle → ar ≤ 56 → off % 128 = 0 → s.dev.ownRange c off 128 = true →
    s.dev.readYard c 4 off 128 = (e, .inl bs) → haulLegal prog = true →
    let k := e.channel c ch
    let g := e.setChannel c ch { Channel.reset with
      state := .running, prog := prog, g := (List.range 8).map fun i => q.sop (ar + i), job := (e.core c).job,
      bytes := k.bytes, waste := k.waste, merge := k.merge }
    exec (.haul c) s = .next { s with dev := s.dev.completed c x g })

/-! ### Haul programs -/

/-- R232, R235 to R240, R247, R250: BASE points a generator at a space and an address, STRIDE sets the stride of a level, LOOP
runs its body COUNT times or, for 0, goes on after it, MOVE is cut into pieces that stay within 4 KiB blocks of either end,
HBASE points a generator at the slot of a handle, and TWAIT goes on once the Tally has reached its argument; END stops the issue
of a channel and unbinds its Chutes, and the channel is IDLE once it owes nothing and its writes are granted; SKIDMARK sends a
marker to its core's router once earlier pieces are complete. -/
def Obligations.HaulInstructionResults : Prop :=
  ChannelResult .haulBase 0x1 (fun w k => k.setGen (bit w 4) { k.gen (bit w 4) with
    space := bits w 7 5, xa := bits w 14 12, slot := false,
    base := (if bit w 11 then k.arg (bits w 10 8) else 0) + (BitVec.ofNat 48 (bits w 63 16)).signExtend 64 }) ∧
  ChannelResult .haulStride 0x2 (fun w k => k.setGen (bit w 4) { k.gen (bit w 4) with
    stride := Table.set (k.gen (bit w 4)).stride 0 (bits w 7 5)
      ((if bit w 11 then k.arg (bits w 10 8) else 0) + (BitVec.ofNat 48 (bits w 63 16)).signExtend 64) }) ∧
  ChannelResult .haulLoop 0x3 (fun w k =>
    let n := if bit w 11 then bits (k.arg (bits w 10 8)) 31 0 else bits w 47 16
    if n = 0 then { k with pc := bits w 15 12 }
    else { k with loops := { level := bits w 7 5, cnt := n, idx := 0, top := k.pc + 1, bot := bits w 15 12 } :: k.loops }) ∧
  ChannelResult .move 0x4 (fun w k =>
    let src := k.addr k.src
    let dst := k.addr k.dst
    let cuts := Device.pieceCuts src dst 1024 (bits w 24 4) 0
    { k with planned := cuts.map fun x =>
        { srcSpace := k.src.space, dstSpace := k.dst.space, src := src + BitVec.ofNat 64 x.1, dst := dst + BitVec.ofNat 64 x.1,
          srcXa := k.src.xa, dstXa := k.dst.xa, srcSlot := k.src.slot, dstSlot := k.dst.slot, len := x.2,
          joinable := !bit w 25 && decide (cuts.length = 1), tile := k.tileNow, pc := k.pc } }) ∧
  (∀ (s : State) (c ch : Nat), s.dev.mayExecute c ch 0xA = true →
    let k := s.dev.channel c ch
    let w := k.word
    let v := Table.get k.h 0 (bits w 5 4)
    let g : Gen := { k.gen (bit w 6) with base := BitVec.ofNat 64 (bits v 25 0) }
    let x := if bits v 29 26 = c then { g with space := 0, slot := false } else { g with space := 1, xa := bits w 10 8, slot := true }
    exec (.hbase c ch) s = .next { s with dev := s.dev.executed c ch (k.setGen (bit w 6) x) }) ∧
  (∀ (s : State) (c ch : Nat), s.dev.mayExecute c ch 0xE = true →
    let k := s.dev.channel c ch
    let at_ := (k.arg (bits k.word 10 8)).toNat
    (at_ ≤ s.dev.now → exec (.twait c ch) s = .next { s with dev := s.dev.executed c ch k }) ∧
    (at_ ≤ s.dev.now → k.wait = .tally → exec (.twaitReached c ch) s = .next { s with dev := s.dev.executed c ch k }) ∧
    (s.dev.now < at_ → exec (.twait c ch) s = .next { s with dev := s.dev.setChannel c ch { k with wait := .tally } })) ∧
  (∀ (s : State) (c ch : Nat), s.dev.mayExecute c ch 0x0 = true →
    ∃ t, exec (.haulEnd c ch) s = .next t ∧
      t.dev.channel c ch = { s.dev.channel c ch with ending := true, ring := none, olds := [], fetched := [], loops := [], wait := .none } ∧
      ∀ n < 12, ∀ m, t.dev.chute n m =
        if (s.dev.chute n m).bound ≠ .none ∧ (s.dev.chute n m).bcore = c ∧ (s.dev.chute n m).bch = ch then
          { s.dev.chute n m with bound := .none, bch := 0, bcore := 0 }
        else s.dev.chute n m) ∧
  (∀ (s : State) (c ch : Nat), c < 12 → ch < 2 → (s.dev.channel c ch).state = .running → (s.dev.channel c ch).ending = true →
    (s.dev.pieces.any fun x => x.2.owner == .channel c ch) = false → s.dev.writesPending c ch = false →
    let k' := { s.dev.channel c ch with state := .idle, ending := false, stopping := false }
    exec (.channelIdle c ch) s = .next { s with dev := s.dev.setChannel c ch k' }) ∧
  (∀ (s : State) (c ch : Nat), s.dev.mayExecute c ch 0xD = true →
    (s.dev.pieces.any fun x => x.2.owner == .channel c ch) = false →
    let k := s.dev.channel c ch
    let w := k.word
    let e := s.dev.setSkid c (s.dev.skidTo c ++ [.marker (bits w 11 4) (bits w 15 12) (bits w 31 16) (c, ch)])
    exec (.skidmark c ch) s = .next { s with dev := e.executed c ch { k with beat := [] } })

/-- R239: the pieces of a MOVE follow one another from its first byte to its last, and each stays within a 4 KiB block of its source
and of its destination. -/
def Obligations.PiecesCoverTheMove : Prop :=
  ∀ (src dst : W64) (n : Nat), n ≤ 1048576 →
    let ps := Device.pieceCuts src dst 1024 n 0
    (ps.map (·.2)).sum = n ∧ (∀ i < ps.length, (ps.getD i (0, 0)).1 = ((ps.take i).map (·.2)).sum) ∧
    ∀ p ∈ ps, 0 < p.2 ∧ (src.toNat + p.1) % 4096 + p.2 ≤ 4096 ∧ (dst.toNat + p.1) % 4096 + p.2 ≤ 4096

/-- R245, R246: TRING binds its FULL and FREE Chutes and sets four slots of SIZE bytes at DST; TNEXT points DST at the slot of
the next tile while fewer than four are unreturned; TPUT pushes the handle of the open tile once its writes are done; a handle
that comes back in order returns its credit. -/
def Obligations.TileStreamResults : Prop :=
  (∀ (s : State) (c ch : Nat), s.dev.mayExecute c ch 0x5 = true →
    let k := s.dev.channel c ch
    let w := k.word
    let a := k.addr k.dst
    let p := (s.dev.pdkOfCore c).getD 0
    let h : W32 := if k.dst.slot then (k.arg k.dst.xa).setWidth 32 else BitVec.ofNat 32 (bits a 63 32)
    let x := s.dev.window (256 * p + Device.winSlot h)
    let o := if k.dst.slot then (bits a 31 0 + 2 ^ 32 - x.base) % 2 ^ 32 else bits a 31 0
    let size := (if bits w 27 16 = 0 then 4096 else bits w 27 16) * 256
    s.dev.bindable (bits w 11 8) (bits w 7 4) = true → s.dev.bindable c (bits w 15 12) = true →
    (bits w 11 8 = c → bits w 7 4 ≠ bits w 15 12) →
    let d := s.dev.setChute (bits w 11 8) (bits w 7 4)
      { s.dev.chute (bits w 11 8) (bits w 7 4) with bound := .full, bch := ch, bcore := c }
    let e := d.setChute c (bits w 15 12) { d.chute c (bits w 15 12) with bound := .free, bch := ch, bcore := c }
    let olds := k.ring.toList ++ k.olds
    let r : Ring4 := { id := olds.length, space := k.dst.space, handle := 0, off := a.toNat, soff := a.toNat, core := bits w 11 8,
                       size := size, fullChute := bits w 7 4, freeChute := bits w 15 12, next := 0, open_ := false, unreturned := [] }
    (k.dst.space = 0 → bits w 11 8 = c →
      exec (.tring c ch) s = .next { s with dev := e.executed c ch { k with olds := olds, ring := some r } }) ∧
    (k.dst.space = 1 → bits w 11 8 = x.core →
      let r := { r with handle := h, off := o, soff := x.base + o }
      exec (.tring c ch) s = .next { s with dev := e.executed c ch { k with olds := olds, ring := some r } })) ∧
  (∀ (s : State) (c ch : Nat) (r : Ring4), s.dev.mayExecute c ch 0x6 = true → (s.dev.channel c ch).ring = some r → r.open_ = false →
    r.unreturned.length < 4 →
    let k := s.dev.channel c ch
    let o := r.off + r.size * (r.next % 4)
    let base := if r.space = 0 then BitVec.ofNat 64 o else BitVec.ofNat 64 (r.handle.toNat * 2 ^ 32 + o % 2 ^ 32)
    let dst := { k.dst with space := r.space, base := base, slot := false }
    let k' := { k with dst := dst, ring := some { r with next := r.next + 1, open_ := true } }
    exec (.tnext c ch) s = .next { s with dev := s.dev.executed c ch k' }) ∧
  (∀ (s : State) (c ch : Nat) (r : Ring4), s.dev.mayExecute c ch 0x7 = true → (s.dev.channel c ch).ring = some r → r.open_ = true →
    (s.dev.pieces.any fun x => x.2.owner == .channel c ch) = false → s.dev.writesPending c ch = false →
    s.dev.heldBefore (.channel c ch) r.core r.fullChute = false →
    let k := s.dev.channel c ch
    let so := r.soff + r.size * ((r.next - 1) % 4)
    let v := slotHandle so r.core (r.size / 256) ((r.next - 1) % 2 ^ 20)
    let k' := { k with ring := some { r with open_ := false, unreturned := r.unreturned ++ [(r.next - 1, so)] } }
    so % 256 = 0 → so + r.size ≤ 2 ^ 26 →
    let full := s.dev.chute r.core r.fullChute
    (r.core = c → s.dev.fullFor c r.fullChute (.channel c ch) = false →
      let e := s.dev.setChute c r.fullChute { full with entries := full.entries ++ [v] }
      exec (.tput c ch) s = .next { s with dev := e.executed c ch k' }) ∧
    (r.core ≠ c → s.dev.receives r.core = true → s.dev.fullFor r.core r.fullChute (.channel c ch) = false →
      let p : Push := { src := .channel c ch, core := r.core, chute := r.fullChute, value := v, handle := true, held := false, bundle := 0,
                        job := (s.dev.core c).job, due := s.dev.power.cycles + meshLatency c r.core + 2 }
      let e := { s.dev with pushes := s.dev.pushes ++ [p] }
      exec (.tput c ch) s = .next { s with dev := e.executed c ch k' }) ∧
    (r.core = c → 64 ≤ full.entries.length →
      let w := if full.waiting.contains (.channel c ch) then full.waiting else full.waiting ++ [.channel c ch]
      let e := s.dev.setChute c r.fullChute { full with waiting := w }
      exec (.tput c ch) s = .next { s with dev := e.haulWait c ch .chute })) ∧
  (∀ (s : State) (c ch n so : Nat) (r : Ring4) (v : W64) (l : List W64) (u : List (Nat × Nat)), c < 12 → ch < 2 →
    (s.dev.channel c ch).ring = some r → (s.dev.channel c ch).state = .running → (s.dev.chute c r.freeChute).entries = v :: l →
    r.unreturned = (n, so) :: u → bits v 25 0 = so → bits v 63 44 = n % 2 ^ 20 →
    ∃ t, exec (.tileCreditReturn c ch) s = .next t ∧ (t.dev.chute c r.freeChute).entries = l ∧
      (t.dev.channel c ch).fetched = Table.erase (s.dev.channel c ch).fetched (2 ^ 32 * r.id + n) ∧
      ∃ r', (t.dev.channel c ch).ring = some r' ∧ r'.unreturned = u ∧ r'.next = r.next ∧ r'.open_ = r.open_)

/-- R223, R225, R235, R255, R256: HPOP takes the oldest handle of a Chute of the core, HPUSH pushes a good handle once the channel's
writes are done, WOPEN opens the lowest FREE window slot, and WCLOSE moves a window to CLOSING and waits. -/
def Obligations.HaulHandleResults : Prop :=
  (∀ (s : State) (c ch : Nat) (v : W64) (l : List W64), s.dev.mayExecute c ch 0x8 = true →
    let k := s.dev.channel c ch
    let n := bits k.word 11 8
    let x := s.dev.chute c n
    x.handle = true → (x.bound = .free → x.bch = ch) → x.entries = v :: l →
    let e := (s.dev.setChute c n { x with entries := l }).modCore c fun k => { k with held := (k.held ++ [v]).take 16 }
    exec (.hpop c ch) s = .next { s with dev := e.executed c ch { k with h := Table.set k.h 0 (bits k.word 5 4) v } }) ∧
  (∀ (s : State) (c ch : Nat), s.dev.mayExecute c ch 0x9 = true →
    let k := s.dev.channel c ch
    let v := Table.get k.h 0 (bits k.word 5 4)
    let n := bits k.word 11 8
    let core := bits k.word 15 12
    s.dev.samePaddock c core = true → s.dev.suits (.channel c ch) core n true = true → s.dev.goodHandle c v = true →
    (s.dev.pieces.any fun x => x.2.owner == .channel c ch) = false → s.dev.writesPending c ch = false →
    s.dev.heldBefore (.channel c ch) core n = false →
    (core = c → s.dev.fullFor c n (.channel c ch) = false →
      let e := s.dev.setChute c n { s.dev.chute c n with entries := (s.dev.chute c n).entries ++ [v] }
      let g := e.modCore c fun k => { k with held := k.held.erase v }
      exec (.hpush c ch) s = .next { s with dev := g.executed c ch k }) ∧
    (core ≠ c → s.dev.receives core = true → s.dev.fullFor core n (.channel c ch) = false →
      let p : Push := { src := .channel c ch, core := core, chute := n, value := v, handle := true, held := false, bundle := 0,
                        job := (s.dev.core c).job, due := s.dev.power.cycles + meshLatency c core + 2 }
      let e := { s.dev with pushes := s.dev.pushes ++ [p] }
      let g := e.modCore c fun k => { k with held := k.held.erase v }
      exec (.hpush c ch) s = .next { s with dev := g.executed c ch k })) ∧
  (∀ (s : State) (c ch slot : Nat), s.dev.mayExecute c ch 0xB = true →
    let k := s.dev.channel c ch
    let w := k.word
    let p := (s.dev.pdkOfCore c).getD 0
    let off := (k.arg (bits w 10 8)).toNat
    let len := (k.arg (bits w 14 12)).toNat
    s.dev.winOpenCheck p c off len (s.dev.core c).job (s.dev.ctxOf c) = .inr slot →
    let old := s.dev.window (256 * p + slot)
    let x : Window := { state := .open_, rd := bit w 15, wr := bit w 16, mesh := bit w 17, drove := bit w 18, core := c, gen := old.gen,
                        base := off, len := len, owner := s.dev.ctxOf c, job := (s.dev.core c).job, inFlight := 0, obj := none }
    let h := BitVec.ofNat 64 (5 * 2 ^ 28 + old.gen.toNat * 256 + slot)
    let k' := { k with h := Table.set k.h 0 (bits w 5 4) h }
    exec (.wopen c ch) s = .next { s with dev := (s.dev.setWindow (256 * p + slot) x).executed c ch k' }) ∧
  (∀ (s : State) (c ch : Nat), s.dev.mayExecute c ch 0xC = true →
    let k := s.dev.channel c ch
    let h : W32 := (Table.get k.h 0 (bits k.word 5 4)).setWidth 32
    let key := 256 * (s.dev.pdkOfCore c).getD 0 + Device.winSlot h
    let x := s.dev.window key
    Device.winNames x h = true → x.state = .open_ →
    let e := s.dev.setWindow key { x with state := .closing }
    exec (.wclose c ch) s = .next { s with dev := e.setChannel c ch { k with closing := some key, wait := .window } })

/-! ### Pieces, windows, private and host memory -/

/-- R224, R225, R232, R239, R243, R283, R287, R288: PIECE_ISSUE sends the next piece of a channel on its way;
WINDOW_TRANSFER_CHECK accepts a read or a write whose handle, bounds and permissions hold, a write in its turn and with room to
land; a memory slot goes to the oldest request of its class, else of the first class that has one (R241); LAND_BURST writes the
bytes of a piece into its slice; WINDOW_CLOSE_COMPLETE frees a closed window at the next generation; private reads, private
writes, host reads and host writes of a piece return and go on; a CXL snoop is answered. -/
def Obligations.PieceResults : Prop :=
  (∀ (s : State) (c ch : Nat) (p : Planned) (r : List Planned) (b : Option Nat), c < 12 → ch < 2 →
    let k := s.dev.channel c ch
    k.planned = p :: r → k.state = .running → s.dev.frozen c = false → (r ≠ [] ∨ k.ending = true ∨ Device.joins k k.word p = false) →
    let src := Device.locOf c k p.srcSpace p.src p.srcXa p.srcSlot
    let dst := Device.locOf c k p.dstSpace p.dst p.dstXa p.dstSlot
    let pdk := (s.dev.pdkOfCore c).getD 0
    s.dev.remoteGate pdk src dst = .go b →
    let d := match b with
      | some n => s.dev.setBinding n { s.dev.binding n with pieces := (s.dev.binding n).pieces ++ [s.dev.nextPiece] }
      | none => s.dev
    let e := d.setChannel c ch { k with planned := r, wait := .none }
    let y : Piece := { owner := .channel c ch, ctx := e.ctxOf c, pdk := pdk, job := k.job, src := src, dst := dst, len := p.len,
                       phase := .translate, data := [], land := none, win := none, srcHpa := none, dstHpa := none, tile := p.tile,
                       discard := false, pc := p.pc, sent := 0, place := 0, asked := 0, bursts := [], redo := false }
    exec (.pieceIssue c ch) s = .next { s with dev := e.startPiece y }) ∧
  (∀ (s : State) (pid o : Nat) (h : W32) (p : Piece), s.dev.piece pid = some p →
    let w := s.dev.window (256 * p.pdk + Device.winSlot h)
    w.state = .open_ → Device.winNames w h = true → w.mesh = true → o % 4 = 0 → p.len % 4 = 0 → o + p.len ≤ w.len →
    (∀ e bs, p.phase = .read → p.src = .window h o → p.discard = false → w.rd = true →
      s.dev.readYard w.core 5 (w.base + o) p.len = (e, .inl bs) →
      exec (.windowTransferCheck pid) s = .next { s with dev := e.gotData pid p bs }) ∧
    (p.phase = .check → s.dev.mayGo pid p = true → s.dev.firstSent p = true → p.dst = .window h o → w.wr = true →
      s.dev.landRoom w.core p.len = true →
      let key := 256 * p.pdk + Device.winSlot h
      let y := { p with phase := .land, land := some (w.core, w.base + o), win := some key }
      exec (.windowTransferCheck pid) s =
        .next { s with dev := ((s.dev.setWindow key { w with inFlight := w.inFlight + 1 }).setPiece pid y).pump p.owner })) ∧
  (∀ (s : State) (pid c off : Nat) (p : Piece), s.dev.piece pid = some p → p.phase = .land → p.land = some (c, off) →
    s.dev.first pid p = true →
    let d := match p.owner, p.win with
      | .channel k _, none => if k = c then s.dev.audit c off p.len else s.dev
      | _, _ => s.dev
    let chan := match p.owner with
      | .channel k ch => [(k, ch)]
      | .command _ _ => []
    exec (.landBurst pid) s = .next { s with dev := (d.landBytes c off p.data chan).complete pid }) ∧
  (∀ (s : State) (p n : Nat), p < 6 → n < 256 → (s.dev.window (256 * p + n)).state = .closing →
    (s.dev.window (256 * p + n)).inFlight = 0 →
    ∃ t, exec (.windowCloseComplete p n) s = .next t ∧ (t.dev.window (256 * p + n)).state = .free ∧
      (t.dev.window (256 * p + n)).gen = (s.dev.window (256 * p + n)).gen + 1) ∧
  (∀ (s : State) (pid a : Nat) (p : Piece), s.dev.piece pid = some p → p.phase = .read → p.src = .dva a → isPriv a = true →
    p.bursts = [] →
    (∀ bs, s.dev.readPriv p.pdk p.place p.len = .inl bs →
      exec (.privateReadComplete pid .good) s = .next { s with dev := s.dev.gotData pid p bs }) ∧
    (0 < p.len → ∃ t, exec (.privateReadComplete pid .macFail) s = .next t ∧ ∃ q ∈ Device.privUnits p.place p.len,
      let c := (s.dev.privLine p.pdk q).1
      (t.dev.chan c).macf = satInc (s.dev.chan c).macf ∧ (t.dev.chan c).failLine = (s.dev.privLine p.pdk q).2 ∧
      (t.dev.chan c).failCode = 0x0302 ∧ (t.dev.chan c).lines = (s.dev.chan c).lines)) ∧
  (∀ (d : Device) (n c i : Nat) (p : Piece), d.frameTakes n c = some (i, p) →
    let wants := fun (x : Piece) => Table.get x.bursts 0 c ≠ 0
    (i, p) ∈ d.pieces ∧ wants p ∧ (∀ x ∈ d.pieces, wants x.2 → Device.frameClass x.2 = Device.frameClass p → p.asked ≤ x.2.asked) ∧
    (Device.frameClass p ≠ Device.slotClass n → ∀ x ∈ d.pieces, wants x.2 → Device.frameClass x.2 ≠ Device.slotClass n ∧ Device.frameClass p ≤ Device.frameClass x.2)) ∧
  (∀ (s : State) (pid a : Nat) (p : Piece) (d : Device), s.dev.piece pid = some p → p.phase = .write → p.dst = .dva a →
    isPriv a = true → p.bursts = [] → s.dev.first pid p = true → s.dev.writePriv p.pdk p.place p.data = .inl d →
    exec (.privateWriteComplete pid) s = .next { s with dev := d.complete pid }) ∧
  (∀ (s : State) (pid a : Nat) (p : Piece) (data : List Byte), s.dev.piece pid = some p → p.phase = .read → p.src = .dva a →
    isPriv a = false → data.length = p.len →
    exec (.cxlReadData pid data) s = .next { s with dev := s.dev.gotData pid p data }) ∧
  (∀ (s : State) (pid a : Nat) (p : Piece), s.dev.piece pid = some p → p.phase = .write → p.dst = .dva a → isPriv a = false →
    exec (.cxlGo pid) s = .next { s with dev := s.dev.complete pid }) ∧
  (∀ (s : State), exec .cxlSnoop s = .next { s with dev := { s.dev with out := s.dev.out ++ [.snoopResponse] } })

/-- R140, R141, R208, R211, R213, R215, R218, R220, R273, R276: an uncorrectable read makes its block fail and ends its
requester: an instruction traps with what its body answers, a PLDW or a CBLD in flight is dropped and its core traps, a pass is
abandoned, a piece fails, a guarded block that drains is poisoned; a patrol read only counts it; a mended block is written back;
a merge entry drains 32 cycles after its last write; the patrol reads one line; a remap entry takes the word of its block once
that is due; a cleared region is gone, its blocks zero; a new segment's creation completes; a trained channel of a running
Paddock is ACTIVE. Which check bits a failed block shows is open, a free value; log entry 20. -/
def Obligations.YardAndMemoryEvents : Prop :=
  (∀ (d : Device) (c b : Nat), b < 2 ^ 21 → (d.slice c).merge.all (fun m => m.block != b) = true →
    let e := d.failBlock c b
    (∃ q, checkBlk ((e.slice c).guardedAt (32 * b)) ((e.slice c).block b) = .bad q) ∧
    ((e.slice c).block b).data = ((d.slice c).block b).data ∧
    ∀ k, k ≠ b → k < 2 ^ 21 → (e.slice c).block k = (d.slice c).block k) ∧
  (∀ (s : State) (c b op : Nat) (x : QInstr) (sl : Slot) (req : Requester) (body : QInstr → Device → Issue) (e : Device) (code : Code)
      (info : W64), b < 2 ^ 21 → s.dev.corePresent c = true → s.dev.mayIssue c sl op x = true → (s.dev.jobOf c).isSome = true →
    ((req = .load x.bundle ∧ sl = .m ∧ op = 1 ∧ body = sldBody c) ∨ (req = .load x.bundle ∧ sl = .m ∧ op = 3 ∧ body = vldBody c) ∨
      (req = .load x.bundle ∧ sl = .m ∧ op = 5 ∧ body = vldsBody c) ∨ (req = .pconv x.bundle ∧ sl = .p ∧ op = 4 ∧ body = pconvBody c) ∨
      (req = .imld x.bundle ∧ sl = .m ∧ op = 0x0E ∧ body = imldBody c) ∨ (req = .haul x.bundle ∧ sl = .m ∧ op = 0x0B ∧ body = haulBody c) ∨
      (req = .tpass x.bundle ∧ sl = .t ∧ op = 2 ∧ body = tpassBody c)) →
    body x (s.dev.failBlock c b) = .bad e code info →
    exec (.yardUeRead c b req) s = .next { s with dev := e.trapCore c code x.bundle sl info }) ∧
  (∀ (s : State) (c b : Nat), c < 12 → b < 2 ^ 21 → s.dev.corePresent c = true →
    let f := s.dev.failBlock c b
    let info : W64 := BitVec.ofNat 64 (32 * b)
    (∀ i l, (s.dev.core c).pn.loads[i]? = some l →
      let e := (f.meetUe c b 3).modCore c fun k =>
        { k with pn := { k.pn.setShadow l.pens .empty with loads := k.pn.loads.eraseIdx i }, sq := k.sq.release l.num }
      exec (.yardUeRead c b (.pldw i)) s = .next { s with dev := e.trapCore c 0x0301 l.bundle .m info }) ∧
    (∀ i n l, (s.dev.core c).tr.loads[i]? = some l →
      let e := (f.meetUe c b 3).modCore c fun k =>
        { k with tr := { k.tr.failLoad l (l.entries.take n) with loads := k.tr.loads.eraseIdx i }, sq := k.sq.release l.num }
      exec (.yardUeRead c b (.cbld i n)) s = .next { s with dev := e.trapCore c 0x0301 l.bundle .m info }) ∧
    (∀ row y r, (s.dev.core c).tr.passes = y :: r → y.d.op ≠ 1 →
      ∃ t, exec (.yardUeRead c b (.bank row)) s = .next t ∧ (t.dev.core c).tr.passes = [] ∧ (t.dev.core c).tr.failed = true ∧
        (t.dev.core c).tr.failRow ≤ row) ∧
    (∀ row col y r, (s.dev.core c).tr.passes = y :: r → y.d.op ≠ 1 →
      ∃ t, exec (.yardUeRead c b (.trough row col)) s = .next t ∧ (t.dev.core c).tr.passes = [] ∧ (t.dev.core c).tr.failed = true ∧
        (t.dev.core c).tr.failRow ≤ row) ∧
    (∀ k n, ∃ t, exec (.yardUeRead c b (.book k n)) s = .next t ∧ n % 1024 ∈ ((t.dev.core c).tr.book (k % 8)).bad) ∧
    (∀ y r, (s.dev.core c).tr.passes = y :: r → y.d.fmt ≤ 2 → 0 < y.ran →
      ∃ t, exec (.yardUeRead c b .lookup) s = .next t ∧ (t.dev.core c).tr.passes = { y with ran := y.ran - 1 } :: r ∧
        (t.dev.core c).tr.reload = (s.dev.core c).tr.reload + (if y.d.fmt = 0 then 64 else if y.d.fmt = 1 then 8 else 2)) ∧
    (∀ n, ∃ t, exec (.yardUeRead c b (.fetch n)) s = .next t ∧ n % 8192 ∈ (t.dev.regs c).imemBad ∧ (t.dev.regs c).imem = (s.dev.regs c).imem) ∧
    (∀ m, ((s.dev.slice c).merge.find? fun m => m.block == b) = some m → (s.dev.slice c).guardedAt (32 * b) = true →
      m.mask ≠ BitVec.allOnes 32 →
      ∃ t, exec (.yardUeRead c b .mergeDrain) s = .next t ∧
        (t.dev.slice c).block b = Blk.poisoned (Device.mixBytes ((s.dev.slice c).block b).data m.data m.mask) ∧
        (t.dev.slice c).merge = (s.dev.slice c).merge.filter fun x => x.block != b) ∧
    (∀ n p, s.dev.piece n = some p → exec (.yardUeRead c b (.piece n)) s =
      .next { s with dev := (f.meetUe c b 5).failPiece n 0x0301 (.slice c (32 * b)) }) ∧
    ((s.dev.slice c).merge.all (fun m => m.block != b) = true →
      ∃ t, exec (.yardUeRead c b .patrol) s = .next t ∧ (t.dev.slice c).ueCnt = (s.dev.slice c).ueCnt + 1 ∧
        bits (t.dev.slice c).ueAddr 25 0 = 32 * b ∧ t.dev.cores = s.dev.cores ∧
        ∀ k, k ≠ b → k < 2 ^ 21 → (t.dev.slice c).block k = (s.dev.slice c).block k)) ∧
  (∀ (s : State) (c b : Nat) (r : List Nat) (k : Blk), c < 12 → (s.dev.slice c).mends = b :: r →
    (s.dev.slice c).guardedAt (32 * b) = true → checkGuarded ((s.dev.slice c).block b) = .mended k →
    let x := { (s.dev.slice c).ask 0 false [b / 2] with mends := r }.putBlock b k
    exec (.mendWriteback c) s = .next { s with dev := s.dev.setSlice c x }) ∧
  (∀ (s : State) (c : Nat) (m : Merge), c < 12 →
    (s.dev.slice c).merge.find? (fun m => decide (m.last + 32 ≤ s.dev.power.cycles)) = some m →
    ∃ t, exec (.mergeDrainTimeout c) s = .next t ∧ (t.dev.slice c).merge = (s.dev.slice c).merge.filter fun x => x.block != m.block) ∧
  (∀ (s : State) (c line : Nat), c < 12 → s.dev.corePresent c = true → (s.dev.slice c).patrol = true →
    Device.patrolNext (s.dev.slice c) (s.dev.slice c).patrolLine = some line →
    ∃ t, exec (.patrolRead c) s = .next t ∧ (t.dev.slice c).patrolLine = (line + 1) % 2 ^ 20) ∧
  (∀ (s : State) (c bank row word : Nat), c < 12 → bank < 256 → row < 4096 → word < 18 → s.dev.corePresent c = true →
    s.dev.wordDue c bank row word = true →
    ((s.dev.slice c).remap.any fun e => e.bank == bank && e.row == row && e.word == word) = false →
    ((s.dev.slice c).remap.filter fun e => e.bank == bank).length < 8 →
    ∃ t spare, exec (.remapInstall c bank row word) s = .next t ∧ (t.dev.slice c).remap =
      (s.dev.slice c).remap ++ [{ bank := bank, fused := false, row := row, word := word, spare := spare }] ∧
      t.dev.boot.softRemap = s.dev.boot.softRemap ++ [(c, bank, row, word)]) ∧
  (∀ (s : State) (c n : Nat) (r : Region), c < 12 →
    ((s.dev.slice c).regions.find? fun kv => kv.2.valid && kv.2.clearing) = some (n, r) →
    ∃ t, exec (.regionClearComplete c) s = .next t ∧
      ((t.dev.slice c).regions.all fun kv => !(kv.2.valid && kv.2.clearing && kv.2.base == r.base)) = true ∧
      ∀ b m x, b < 2 ^ 21 → (s.dev.slice c).regionAt (32 * b) = some (m, x) → x.base = r.base → x.clearing = true →
        (t.dev.slice c).block b = { data := 0, chk := 0 }) ∧
  (∀ (s : State) (p n i : Nat) (e : Segment) (o : Obj), p < 6 → n < 256 → Table.find s.dev.segs (256 * p + n) = some e →
    (s.dev.objs.find? fun kv => kv.2.used && kv.2.zeroing && kv.2.space == .priv && kv.2.paddock == p &&
      kv.2.context == e.owner && kv.2.seg == e.seg) = some (i, o) →
    ∃ t, exec (.segmentZeroComplete p n) s = .next t ∧ (t.dev.obj i).zeroing = false) ∧
  (∀ (s : State) (n p : Nat), n < 16 → (s.dev.chan n).state = .training → s.dev.pdkOfChan n = some p →
    (s.dev.pdk p).rst ≠ .outOfService → (s.dev.pdkSec p).memKey ≠ 0 →
    ∃ ok, exec (.channelTrainingDone n true) s =
      .next { s with dev := s.dev.setChan n { s.dev.chan n with state := .active, fails := 0, sealOk := ok } })

/-- R294 to R300, R306, R307: a Translation Completion in time gives its pages and frees the walker, or asks again after an
invalidation; a refused, late or unanswered request ends its pieces and frees the walker; a PRG Response of success asks again;
an invalidation or a flush removes its entries and tells every agent, and a piece that has not used a lost translation asks
again; agents acknowledge once they owe nothing, and one that is late is halted, its outstanding requests abandoned; PRI_RESUME
lets page requests go on; a training of the host link sets its modules, and a function-level reset is requested. -/
def Obligations.TranslationResults : Prop :=
  (∀ (s : State) (w : Nat) (v : Walker) (r : AtsResult), w < 16 → s.dev.walker w = some v → v.phase = .translation →
    (v.stale = true →
      let e := s.dev.setWalker w { v with stale := false }
      exec (.atsCompletion w r) s = .next { s with dev := { e with out := e.out ++ [.atsRequest v.context v.group] } }) ∧
    (v.stale = false → r.denied = true → exec (.atsCompletion w r) s = .next { s with dev := s.dev.failWalker w v 0x0202 }) ∧
    (∀ g, v.stale = false → r.denied = false → r.size = 4096 → r.pages = [g] → (g.r || g.w) = true → g.u = false → v.pieces = [] → v.queued = [] →
      s.dev.xlt.misses = [] →
      ∃ t, exec (.atsCompletion w r) s = .next t ∧ Table.find t.dev.xlt.walkers w = none ∧
        t.dev.xlt.atc.any (fun e => e.covers v.context (65536 * v.group + 4096 * (g.page % 16)) && e.r == g.r && e.w == g.w &&
          (!g.global || e.global)) = true) ∧
    exec (.atsTimeout w) s = .next { s with dev := s.dev.failWalker w v 0x0201 }) ∧
  (∀ (s : State) (w : Nat) (v : Walker), w < 16 → s.dev.walker w = some v → v.phase = .page →
    let e := s.dev.setWalker w { v with phase := .translation, retried := true, stale := false }
    exec (.prgResponse w .success) s = .next { s with dev := { e with out := e.out ++ [.atsRequest v.context v.group] } } ∧
    exec (.prgResponse w .invalidRequest) s = .next { s with dev := s.dev.failWalker w v 0x0201 } ∧
    exec (.prgResponse w .responseFailure) s =
      .next { s with dev := { s.dev with xlt := { s.dev.xlt with priStop := true } }.failWalker w v 0x0201 } ∧
    exec (.pageRequestTimeout w) s = .next { s with dev := s.dev.failWalker w v 0x0201 }) ∧
  (∀ (s : State) (ctx a n : Nat), (s.dev.xlt.invals.filter fun v => !v.flush).length < 32 →
    (∀ x ∈ s.dev.pieces, x.2.srcHpa = none ∧ x.2.dstHpa = none) →
    ∃ t, exec (.atsInvalidate (some ctx) a n) s = .next t ∧
      (∀ e ∈ t.dev.xlt.atc, e ∈ s.dev.xlt.atc ∧
        ∀ x, e.context = ctx ∨ e.global = true → a ≤ x → x < a + n → e.covers e.context x = false) ∧
      (∀ e ∈ s.dev.xlt.atc, e.context ≠ ctx → e.global = false → e ∈ t.dev.xlt.atc) ∧
      t.dev.xlt.invals.length = s.dev.xlt.invals.length + 1 ∧ t.dev.xlt.invCnt = s.dev.xlt.invCnt + 1) ∧
  (∀ (s : State) (i a h : Nat) (p : Piece), s.dev.pieces = [(i, p)] → p.phase = .read → p.dst = .dva a → p.dstHpa = some h →
    a < 2 ^ 57 → isPriv a = false → s.dev.xlt.invals = [] → s.dev.xlt.walkers = [] →
    ∃ t q, exec (.atsInvalidate (some p.ctx) (a / 65536 * 65536) 65536) s = .next t ∧ t.dev.pieces = [(i, q)] ∧ q.dstHpa = none ∧
      t.dev.xlt.walkers = [(0, { context := p.ctx, group := a / 65536, pdk := p.pdk, phase := .translation, pieces := [i],
                                 retried := false, stale := false, page := 0, queued := [] })]) ∧
  (∀ (s : State) (v : W64), (∀ x ∈ s.dev.pieces, x.2.srcHpa = none ∧ x.2.dstHpa = none) →
    ∃ t, exec (.xltFlush v) s = .next t ∧ t.dev.xlt.atc =
        (s.dev.xlt.atc.filter fun e => !bit v 20 && e.context != bits v 19 0) ∧
      t.dev.xlt.invals.length = s.dev.xlt.invals.length + 1) ∧
  (∀ (s : State) (agent : Nat) (v : Inval) (r : List Inval), agent < 34 → s.dev.xlt.invals = v :: r → v.agents.contains agent = true →
    s.dev.owedTo v agent = [] →
    ∃ t, exec (.invalAck agent) s = .next t ∧
      (v.agents = [agent] → t.dev.xlt.invals = r ∧
        t.dev.out = s.dev.out ++ if v.flush then [] else [.invalidateCompletion]) ∧
      ((v.agents.filter (· != agent)) ≠ [] →
        t.dev.xlt.invals = { v with agents := v.agents.filter (· != agent) } :: r ∧ t.dev.out = s.dev.out)) ∧
  (∀ (s : State) (agent : Nat) (v : Inval) (r : List Inval), agent < 34 → s.dev.xlt.invals = v :: r →
    v.agents.contains agent = true →
    let owed := s.dev.pieces.filter fun x => x.2.hostOut && s.dev.agentOf x.2 == agent
    let late := fun (b : Device) =>
      let d := if agent < 24 then b.haltChannel (agent / 2) (agent % 2) 0x0203 0 else b
      let e := { d with xlt := { d.xlt with invToCnt := satInc d.xlt.invToCnt } }
      exec (.invalTimeout agent) s = .next { s with dev := e.ackBy agent }
    (owed = [] → late s.dev) ∧
    (∀ i p, owed = [(i, p)] → s.dev.piece i = some p →
      let l := if p.phase = .read then p.src else p.dst
      let x := { s.dev.xlt with faultDva := l.dva? / 4096 * 4096, faultCtx := p.ctx, faultCode := 0x0203, faultPdk := p.pdk }
      late ({ s.dev with xlt := x }.failPiece i 0x0203 l))) ∧
  (∀ (s : State), exec .priResume s = .next { s with dev := { s.dev with xlt := { s.dev.xlt with priStop := false } } }) ∧
  (∀ (s : State) (m0 m1 : Bool), s.dev.boot.stage = 8 →
    let glb := { s.dev.glb with link := BitVec.ofNat 2 (b2n m0 + 2 * b2n m1) }
    let boot := { s.dev.boot with linkDone := m0 || m1, linkBad := !(m0 && m1) }
    exec (.ucieLinkTraining m0 m1) s = .next { s with dev := { s.dev with glb := glb, boot := boot } }) ∧
  (∀ (s : State), s.dev.resets.devAsked = none → s.dev.glb.devState ≠ 0 →
    ∃ t, exec .functionLevelReset s = .next t ∧ t.dev.resets.devAsked = some 0x070F ∧ t.dev.glb.devState = 2)

/-! ### Stalls and queues -/

/-- R312 to R315, R317 to R322, R333: BIND loads a queue whose entry passes its checks, and BIND_COMPLETE leaves the Stall BOUND
with NEXT 0 or where it stood; UNBIND and its completion leave the queue OUT with what landed; a capsule of 64 bytes lands in
its slot, one that repeats a sequence number does not; CAPSULE_TAKE takes the capsule at NEXT; credits go back; COMMAND_COMPLETE
removes a command that has ended. -/
def Obligations.StallResults : Prop :=
  (∀ (s : State) (st queue : Nat) (e : QueueEntry), st < 48 → queue < 16384 →
    let x := s.dev.stall st
    x.state = .free → s.dev.resets.devOos = false → queue < s.dev.glb.qtabCnt.toNat → e.valid = true → e.reservedZero = true →
    e.context ≠ 0 → s.dev.pdkPresent e.paddock = true → (s.dev.ring e.ring).en = true → e.save % 4096 = 0 →
    (∀ k < 48, (s.dev.stall k).state ≠ .free → (s.dev.stall k).queue ≠ queue) →
    (∀ p ∈ s.dev.boundTo e.context, p = e.paddock) → (s.dev.pdk e.paddock).rst ≠ .outOfService →
    ((s.dev.layout e.paddock).session = true → (s.dev.pdkSec e.paddock).memKey ≠ 0 ∨ s.dev.sec.entFail = false) →
    let q := { Queue.reset with context := e.context, paddock := e.paddock, ring := e.ring, share := e.share, save := e.save }
    exec (.bind st queue (some e)) s =
      .next { s with dev := s.dev.setStall st { x with queue := queue, state := .binding, q := q } }) ∧
  (∀ (s : State) (st : Nat) (ok : Bool), st < 48 →
    let x := s.dev.stall st
    let o := s.dev.outQueue x.queue
    x.state = .binding → (s.dev.pdk x.q.paddock).rst = .running → (s.dev.pdkSec x.q.paddock).phase = .none →
    (o.known = true → ok = true) → o.q.accepted = [] →
    ∃ t, exec (.bindComplete st ok) s = .next t ∧ (t.dev.stall st).state = .bound ∧ (t.dev.stall st).q.next = o.q.next ∧
      (t.dev.stall st).q.landed = o.q.landed ∧ (t.dev.stall st).q.context = x.q.context ∧
      (t.dev.outQueue x.queue).known = true ∧ (t.dev.outQueue x.queue).qstate = 1) ∧
  (∀ (s : State) (st : Nat), st < 48 → ((s.dev.stall st).state = .bound ∨ (s.dev.stall st).state = .parked) →
    let x := s.dev.stall st
    let e := s.dev.setStall st { x with state := .unbinding }
    exec (.unbind st) s = .next { s with dev := (e.withdrawReady x.queue).yieldAll x.queue }) ∧
  (∀ (s : State) (st : Nat), st < 48 →
    let x := s.dev.stall st
    x.state = .unbinding → (s.dev.jobs.any fun kv => kv.2.queue == x.queue && kv.2.state != .yielded) = false →
    (∀ y ∈ s.dev.pieces, ∀ seq, y.2.owner ≠ .command st seq) →
    ∃ t, exec (.unbindComplete st) s = .next t ∧ (t.dev.stall st).state = .free ∧ (t.dev.outQueue x.queue).qstate = 0 ∧
      (t.dev.outQueue x.queue).q = x.q) ∧
  (∀ (s : State) (st off : Nat) (data : List Byte), st < 48 →
    let x := s.dev.stall st
    let w := capsuleWords data
    off < 2048 → off % 64 = 0 → data.length = 64 → (x.state = .bound ∨ x.state = .parked) →
    ((capSeq w - x.q.next).toNat < 32 → Table.find x.q.landed ((capSeq w).toNat % 32) = none →
      let q := { x.q with landed := Table.put x.q.landed ((capSeq w).toNat % 32) w }
      exec (.capsuleWrite st off data) s = .next { s with dev := s.dev.setStall st { x with q := q } }) ∧
    (32 ≤ (capSeq w - x.q.next).toNat →
      ∃ t, exec (.capsuleWrite st off data) s = .next t ∧ (t.dev.stall st).lastErr = 0x0109 ∧ (t.dev.stall st).q = x.q)) ∧
  (∀ (s : State) (st : Nat) (w : List W64), st < 48 → s.dev.headCapsule st = some w → s.dev.takes st = true →
    Device.listsPeers w = 0 → exec (.capsuleTake st) s = .next { s with dev := s.dev.takeCapsule st w [] }) ∧
  (∀ (s : State) (st : Nat), st < 48 → (s.dev.stall st).q.taken ≠ 0 → (s.dev.stall st).state ≠ .free →
    ∃ t, exec (.creditRecordTimer st) s = .next t ∧ (t.dev.stall st).q.taken = 0 ∧
      (t.dev.stall st).q.next = (s.dev.stall st).q.next) ∧
  (∀ (s : State) (st : Nat) (m : Cmd), st < 48 → (s.dev.stall st).state = .bound →
    ((s.dev.stall st).q.accepted.find? fun m => s.dev.cmdEnded st m) = some m →
    ∃ t, exec (.commandComplete st) s = .next t ∧ ∀ x ∈ (t.dev.stall st).q.accepted, x.seq ≠ m.seq)

/-! ### Capsule commands -/

/-- R273, R316, R323 to R335, R350, R375, R405, R418, R451: the accepted command that stands first in start order starts and
does what its opcode says: NOP, OBJ_REF, OBJ_UNREF, WINDOW_OPEN, SEQ_JOIN, HINT_PHASE and MUSTER_SET have acted when they were
taken and end; OBJ_CREATE, WINDOW_CLOSE and SEQ_LEAVE end once their object, window or sequence is done; COPY and YARD_LOAD
issue their pieces; SIGNAL_FENCE signals its fence, with a record where that is refused; WAIT_FENCE ends once its fence has its
value; a RUN_PROGRAM's job becomes READY; a chunk of an intake lands; CANCEL is taken at once. -/
def Obligations.CapsuleCommandResults : Prop :=
  (∀ i ∈ ([(.capsuleNop, 1), (.objRef, 7), (.objUnref, 8), (.windowOpen, 0x0A), (.seqJoin, 0x0C), (.hintPhase, 0x0E),
      (fun st => .musterSet st [], 0x0F), (.objCreate, 6), (.windowClose, 0x0B), (.seqLeave, 0x0D)] : List ((Nat → Instr) × Nat)),
    ∀ (s : State) (st : Nat) (m : Cmd), st < 48 → s.dev.headCapsule st = none → (s.dev.stall st).state = .bound →
      (s.dev.stall st).q.nextStart = some m → m.opcode = i.2 →
      let e := s.dev.startCmd (s.dev.stall st).queue m.seq
      (m.opcode = 6 → Device.zeroWaits e m = false) → (m.opcode = 0x0B → Device.closeWaits st e m = false) →
      (m.opcode = 0x0D → Device.leaveWaits st e m = false) →
      exec (i.1 st) s = .next { s with dev := e.finishCmd (e.stall st).queue m.seq 0 m.handle }) ∧
  (∀ (s : State) (st : Nat) (m : Cmd), st < 48 → (s.dev.stall st).state = .bound → (s.dev.stall st).q.nextStart = some m →
    let e := s.dev.startCmd (s.dev.stall st).queue m.seq
    (m.opcode = 3 → exec (.copy st) s = .next { s with dev := e.advanceCopy st m.seq }) ∧
    (m.opcode = 9 → exec (.yardLoad st) s = .next { s with dev := e.advanceCopy st m.seq }) ∧
    (m.opcode = 5 → exec (.waitFence st) s = .next { s with dev := e.releaseWait st })) ∧
  (∀ (s : State) (st i : Nat) (m : Cmd) (code : Code), st < 48 → (s.dev.stall st).q.nextStart = none →
    ((s.dev.stall st).q.accepted.find? fun m => m.opcode == 5 && m.phase == .running) = some m →
    s.dev.findFence (s.dev.stall st).q.context ((Device.cmdWord m 1).setWidth 32) = some i →
    s.dev.waitDone i (Device.cmdWord m 2) = some code →
    exec (.waitFence st) s = .next { s with dev := s.dev.finishCmd (s.dev.stall st).queue m.seq code }) ∧
  (∀ (s : State) (st : Nat) (m : Cmd), st < 48 → (s.dev.stall st).state = .bound → (s.dev.stall st).q.nextStart = some m →
    m.opcode = 4 →
    let e := s.dev.startCmd (s.dev.stall st).queue m.seq
    let h : W32 := (Device.cmdWord m 1).setWidth 32
    (∀ i, e.findFence (e.stall st).q.context h = some i →
      let r := e.signalFence i (Device.cmdWord m 2)
      let g := if r.2 = 0 then r.1 else r.1.commandRecord st r.2 h m.seq m.opcode 0
      exec (.signalFence st) s = .next { s with dev := g.finishCmd (g.stall st).queue m.seq r.2 }) ∧
    (e.findFence (e.stall st).q.context h = none →
      exec (.signalFence st) s = .next { s with dev := e.finishCmd (e.stall st).queue m.seq 0 })) ∧
  (∀ (s : State) (st : Nat) (m : Cmd), st < 48 → (s.dev.stall st).state = .bound → (s.dev.stall st).q.nextStart = some m →
    m.opcode = 2 → m.job = none → (s.dev.pdk (s.dev.stall st).q.paddock).preemptEn = false →
    ∃ t v, exec (.runProgram st) s = .next t ∧ t.dev.nextJob = s.dev.nextJob + 1 ∧ t.dev.job s.dev.nextJob = some v ∧
      v.state = .ready ∧ v.queue = (s.dev.stall st).queue ∧ v.seq = m.seq ∧ v.want = bits (Device.cmdWord m 1) 48 45 ∧
      v.entry = bits (Device.cmdWord m 1) 44 32 ∧ v.musters = m.musters ∧
      v.args = [Device.cmdWord m 2, Device.cmdWord m 3, Device.cmdWord m 4, Device.cmdWord m 5]) ∧
  (∀ (s : State) (st : Nat) (m : Cmd) (c : IntakeChunk), st < 48 → (s.dev.stall st).state = .bound →
    ((s.dev.stall st).q.accepted.find? fun m => m.phase == .running && (s.dev.intakeOf st m).isSome) = some m →
    c.data.length = min 14336 (Device.copyLen m - m.done) →
    ((c.tagOk && c.checkOk) = false → exec (.intakeChunk st c) s = .next { s with dev := s.dev.failCommand st m.seq 0x0603 }) ∧
    (∀ d, (c.tagOk && c.checkOk) = true → s.dev.landChunk st m c.data = .inl d →
      let o := Device.landsIn m
      let objs := if d.sec.sealedObjs.contains o then d.sec.sealedObjs else d.sec.sealedObjs ++ [o]
      let e := { d with sec := { d.sec with sealedObjs := objs } }
      let g := e.modCmd (e.stall st).queue m.seq fun m => { m with done := m.done + c.data.length, issued := m.issued + c.data.length }
      let h := if Device.copyLen m ≤ m.done + c.data.length then g.finishCmd (g.stall st).queue m.seq 0 else g
      exec (.intakeChunk st c) s = .next { s with dev := h })) ∧
  (∀ (s : State) (st : Nat) (w : List W64), st < 48 → s.dev.headCapsule st = some w → s.dev.takes st = true → capOp w = 0x10 →
    exec (.cancel st) s = .next { s with dev := s.dev.takeCapsule st w [] }) ∧
  (∀ (s : State) (st : Nat) (w : List W64) (peers : List (BitVec 16)), st < 48 → s.dev.headCapsule st = some w →
    s.dev.takes st = true → capOp w = 0x0F → Device.listsPeers w = peers.length →
    let d := s.dev.takeCapsule st w (peers.map BitVec.toNat)
    (d.stall st).q.nextStart = none → exec (.musterSet st peers) s = .next { s with dev := d })

/-- R324, R325, R327 to R331, R375, R418. A taken capsule leaves its landing slot and NEXT advances; refused, it leaves its code
in LAST_ERR and no command; else it becomes the queue's last accepted command. What a capsule does when it is taken. OBJ_CREATE
makes the lowest free fence or object with HREF 1; OBJ_REF and OBJ_UNREF count HREF, and an object that nothing names any more
is gone at the next generation; SEQ_LEAVE marks its sequence; HINT_PHASE arms the lowest free alarm slot of the Paddock; a
cancelled COPY ends with CANCELLED. -/
def Obligations.CapsuleTaking : Prop :=
  (∀ (d : Device) (st : Nat) (w : List W64) (peers : List Nat), d.headCapsule st = some w → (d.stall st).state = .bound →
      let e := d.tookCapsule st
      (∀ n, e.refusal st w peers = some n →
        ((d.takeCapsule st w peers).stall st).q.next = (d.stall st).q.next + 1 ∧
        ((d.takeCapsule st w peers).stall st).lastErr = n.code ∧
        ((d.takeCapsule st w peers).stall st).q.accepted = (d.stall st).q.accepted) ∧
      (e.refusal st w peers = none → capOp w ≠ 0x10 →
        let g := (d.takeCapsule st w peers).stall st
        (g.q.accepted.map fun x => (x.seq, x.opcode)) = ((d.stall st).q.accepted.map fun x => (x.seq, x.opcode)) ++ [(capSeq w, capOp w)] ∧
        (∃ m ∈ g.q.accepted, m.seq = capSeq w ∧ m.opcode = capOp w ∧ m.w = w.drop 1 ∧ m.phase = .waiting) ∧
        g.q.next = (d.stall st).q.next + 1)) ∧
  (∀ (d : Device) (st : Nat) (w : List W64),
      let q := (d.stall st).q
      (∀ i, capOp w = 6 → ocKind w = 2 → lowest (fun i => !(d.fence i).used) 65536 = some i →
        let r := d.actTaken st w []
        r.2 = Device.handleOf 2 (d.fence i).gen i ∧ (r.1.fence i).used = true ∧ (r.1.fence i).value = capWord w 2 ∧ (r.1.fence i).code = 0 ∧
        (r.1.fence i).context = q.context ∧ (r.1.fence i).href = 1 ∧ (r.1.fence i).notify = bit (capWord w 1) 17) ∧
      (∀ i, capOp w = 6 → ocKind w = 1 → ocSpace w = 0 → lowest (fun i => !(d.obj i).used) 65536 = some i →
        let r := d.actTaken st w []
        r.2 = Device.handleOf 1 (d.obj i).gen i ∧ (r.1.obj i).used = true ∧ (r.1.obj i).space = .host ∧ (r.1.obj i).base = (capWord w 2).toNat ∧
        (r.1.obj i).len = (capWord w 3).toNat ∧ (r.1.obj i).href = 1 ∧ (r.1.obj i).rd = bit (capWord w 1) 6 ∧
        (r.1.obj i).wr = bit (capWord w 1) 7) ∧
      (∀ i, capOp w = 7 → d.findObj q.context (capHandle w 1) = some i →
        ((d.actTaken st w []).1.obj i).href = (d.obj i).href + 1) ∧
      (∀ i, capOp w = 8 → d.findObj q.context (capHandle w 1) = some i →
        (1 < (d.obj i).href → ((d.actTaken st w []).1.obj i).href = (d.obj i).href - 1 ∧ ((d.actTaken st w []).1.obj i).used = true) ∧
        ((d.obj i).href = 1 → (d.obj i).dref = 0 →
          ((d.actTaken st w []).1.obj i).used = false ∧ ((d.actTaken st w []).1.obj i).gen = (d.obj i).gen + 1)) ∧
      (∀ i, capOp w = 0x0D → d.liveSeq q.context (capHandle w 1) = some i →
        ((d.actTaken st w []).1.seq i).state = .leaving) ∧
      (∀ n, capOp w = 0x0E → d.freeSlot q.paddock = some n →
        let a := (d.actTaken st w []).1.alarm n
        a.armed = true ∧ a.kind = 3 ∧ a.target = bits (capWord w 1) 11 0 ∧
        a.cmp = if capWord w 2 = 0 then d.now else (capWord w 2).toNat) ∧
      (∀ m : Cmd, m.opcode = 3 → d.cancelOne st m = (d.stopPieces (· == .command st m.seq)).finishCmd (d.stall st).queue m.seq 0x0703 m.handle))

/-! ### Rings, vectors and the Drover -/

/-- R337, R340 to R343, R348, R364, R369 to R371: GLB_EVR_CTL enables a ring of 2^6 to 2^16 records, and disables it with its
counts at zero; a ring whose write fails stays FAILED; a moderation interval ends with the message that is owed; an unmasked
vector sends its pending message; a failed mirror stops for good; a semaphore of a live fence is set up with COUNT tickets, and
its teardown cancels its waiters; a blocked queue is parked, one that is no longer blocked returns, and a watched queue becomes
RUNNABLE. -/
def Obligations.RingAndQueueResults : Prop :=
  (∀ (s : State) (n : Nat) (v : W32), n < 64 → (s.dev.ring n).en = false → bit v 0 = true → 6 ≤ bits v 4 1 → bits v 4 1 ≤ 16 →
    bits v 24 5 ≠ 0 →
    let r := { s.dev.ring n with size := bits v 4 1, context := bits v 24 5, en := true }
    exec (.evrCtlWrite n v) s = .next { s with dev := s.dev.setRing n r }) ∧
  (∀ (s : State) (n : Nat) (v : W32), n < 64 → (s.dev.ring n).en = true → bit v 0 = false →
    let r := { s.dev.ring n with context := bits v 24 5, en := false, failed := false, p := 0, lost := 0 }
    exec (.evrCtlWrite n v) s = .next { s with dev := s.dev.setRing n r }) ∧
  (∀ (s : State) (n : Nat), n < 64 → (s.dev.ring n).en = true → (s.dev.ring n).failed = false →
    ∃ t, exec (.ringWriteFail n) s = .next t ∧ (t.dev.ring n).failed = true ∧ t.dev.glb.ringFail = true ∧ t.dev.glb.failRing = n ∧
      (n = 0 → t.dev.out = s.dev.out)) ∧
  (∀ (s : State) (n : Nat), n < 512 → (s.dev.vec n).moderating = true →
    ((s.dev.vec n).owed = false →
      exec (.msixModerationExpiry n) s = .next { s with dev := s.dev.setVec n { s.dev.vec n with moderating := false } }) ∧
    ((s.dev.vec n).owed = true → (s.dev.vec n).masked = false →
      ∃ t, exec (.msixModerationExpiry n) s = .next t ∧ t.dev.out = s.dev.out ++ [.msix n] ∧ (t.dev.vec n).owed = false)) ∧
  (∀ (s : State) (n : Nat), n < 512 →
    ∃ t, exec (.msixVectorUnmask n) s = .next t ∧ (t.dev.vec n).masked = false ∧ (t.dev.vec n).pending = false ∧
      t.dev.out = s.dev.out ++ if (s.dev.vec n).pending then [.msix n] else []) ∧
  (∀ (s : State) (i : Nat) (denied : Bool), i < 65536 → (s.dev.fence i).used = true → (s.dev.fence i).mirror ≠ 0 →
    (s.dev.fence i).mirrorStopped = false →
    ∃ t, exec (.mirrorWriteFail i denied) s = .next t ∧ t.dev.fence i = { s.dev.fence i with mirrorStopped := true }) ∧
  (∀ (s : State) (p n i : Nat) (v : W64), p < 6 → n < 16 → s.dev.pdkPresent p = true → s.dev.fencedPdk p = false →
    (s.dev.sem p n).valid = false → bit v 24 = true → bits v 23 20 ≠ 0 →
    s.dev.liveFence (bits v 19 0) (BitVec.ofNat 32 (bits v 63 32)) = some i → (s.dev.fence i).code = 0 →
    let x : Sem := { context := bits v 19 0, count := bits v 23 20, valid := true, bad := false,
                     fence := BitVec.ofNat 32 (bits v 63 32), ticket := (s.dev.fence i).value.toNat + 1, abandoned := [] }
    exec (.semSetup p n v) s = .next { s with dev :=
      ((s.dev.setSem p n x).signalFence i ((s.dev.fence i).value + BitVec.ofNat 64 (bits v 23 20))).1 }) ∧
  (∀ (s : State) (p n : Nat), p < 6 → n < 16 → s.dev.fencedPdk p = false → (s.dev.sem p n).valid = true →
    ∃ t, exec (.semTeardown p n) s = .next t ∧ (t.dev.sem p n).valid = false ∧
      ∀ i, s.dev.semFence p n = some i → (t.dev.fence i).code = if (s.dev.fence i).code = 0 then 0x0703 else (s.dev.fence i).code) ∧
  (∀ (s : State) (p : Nat), p < 6 → s.dev.mustPark p = true → s.dev.boundOf p ≠ [] →
    ∃ t st, exec (.queuePark p) s = .next t ∧ st ∈ s.dev.boundOf p ∧ (t.dev.stall st).state = .parked ∧
      ∀ k ∈ s.dev.boundOf p, (s.dev.stall st).q.progress ≤ (s.dev.stall k).q.progress) ∧
  (∀ (s : State) (st : Nat), st < 48 → (s.dev.stall st).state = .parked → s.dev.blocked (s.dev.stall st).q = false →
    ∃ t, exec (.queueUnpark st) s = .next t ∧ (t.dev.stall st).state = .bound ∧
      (t.dev.outQueue (s.dev.stall st).queue).qstate = 1) ∧
  (∀ (s : State) (n : Nat), n < 16384 → (s.dev.outQueue n).known = true → (s.dev.outQueue n).qstate = 0 →
    (s.dev.outQueue n).runnable = false → s.dev.watchMet (s.dev.outQueue n) = true →
    ∃ t, exec (.queueRunnable n) s = .next t ∧ t.dev.outQueue n = { s.dev.outQueue n with runnable := true })

/-- R348: while EN is 1, a write to GLB_EVR_BASE, GLB_EVR_WB or SIZE leaves them as they are, and a write that sets EN with SIZE
outside 6 to 16, or with CONTEXT 0, leaves EN clear. -/
def Obligations.RingEnableRule : Prop :=
  ∀ (s : State) (n : Nat), n < 64 →
    ((s.dev.ring n).en = true →
      (∀ (off width : Nat) (v : W64), 0x1000 + 0x20 * n ≤ off → off + width ≤ 0x1018 + 0x20 * n → off % 0x20 < 8 ∨ 0x10 ≤ off % 0x20 →
        ∃ t, exec (.registerWrite off width v) s = .next t ∧ t.dev.ring n = s.dev.ring n) ∧
      (∀ v : W32, ∃ t, exec (.evrCtlWrite n v) s = .next t ∧ (t.dev.ring n).size = (s.dev.ring n).size ∧
        (t.dev.ring n).base = (s.dev.ring n).base ∧ (t.dev.ring n).wb = (s.dev.ring n).wb)) ∧
    ((s.dev.ring n).en = false → ∀ v : W32, bit v 0 = true → (bits v 4 1 < 6 ∨ 16 < bits v 4 1 ∨ bits v 24 5 = 0) →
      ∃ t, exec (.evrCtlWrite n v) s = .next t ∧ (t.dev.ring n).en = false)

/-- R148, R149, R152, R184, R351 to R360, R372, R373, R378, R380: JOB_START gives the next candidate its cores and reads its
image; JOB_RELEASE begins its entry on each core with A0 to A3, rank and size in S1 to S6; JOB_RESUME gives a yielded job its
cores back; a job past its quantum is considered; accounts are normalised; steps are set up and close at their alarm, and a
closed batch is released. -/
def Obligations.DroverResults : Prop :=
  (∀ (s : State) (p j : Nat) (v : Job) (cs : List Nat) (img : ImageRead) (e : Device) (i : Image) (b : List Byte), p < 6 →
    s.dev.fencedPdk p = false → s.dev.nextCandidate p = some (j, v) → v.state = .ready → s.dev.coresFor v = some cs →
    let v := { v with state := .loading, cores := cs }
    let d := cs.foldl (fun d c => d.setCore c { d.core c with job := some j }) (s.dev.setJob j v)
    let d := (d.startCmd v.queue v.seq).withdrawFor j
    d.readImage v img = (e, .inl (i, b)) → exec (.jobStart p img) s = .next { s with dev := e.loadJob j v i b }) ∧
  (∀ (s : State) (j : Nat) (v : Job), s.dev.job j = some v → v.state = .loading → v.loaded = true →
    s.dev.fencedPdk v.paddock = false → s.dev.queueRuns v.queue = true → (s.dev.pdk v.paddock).preemptEn = false → v.cores.Nodup →
    ∃ t, exec (.jobRelease j) s = .next t ∧ t.dev.job j = some { v with state := .running, released := s.dev.now } ∧
      ∀ r c, v.cores[r]? = some c → (t.dev.regs c).stat = .run ∧ (t.dev.regs c).pc = v.entry ∧ (t.dev.core c).job = some j ∧
        (∀ k < 4, (t.dev.regs c).sop (k + 1) = v.args.getD k 0 ∨ v.args.length < 4) ∧
        (4 ≤ v.args.length → (t.dev.regs c).sop 5 = BitVec.ofNat 64 r ∧ (t.dev.regs c).sop 6 = BitVec.ofNat 64 v.cores.length)) ∧
  (∀ (s : State) (j : Nat) (v : Job), s.dev.job j = some v → v.state = .yielded → v.loan = none →
    (s.dev.nextCandidate v.paddock).map (·.1) = some j → s.dev.queueRuns v.queue = true → v.yielded ≠ [] →
    (v.yielded.all s.dev.freeCore) = true → s.dev.fencedPdk v.paddock = false → (s.dev.pdk v.paddock).preemptEn = false →
    ∃ t, exec (.jobResume j) s = .next t ∧
      t.dev.job j = some { v with state := .running, yielded := [], forJob := none, released := s.dev.now }) ∧
  (∀ (s : State) (j : Nat) (v : Job), s.dev.job j = some v → v.state = .running → s.dev.fencedPdk v.paddock = false →
    (s.dev.pdk v.paddock).quantum * 1000 ≤ s.dev.now - v.released →
    exec (.quantumExpiry j) s = .next { s with dev := s.dev.consider v.paddock }) ∧
  (∀ (s : State) (p m : Nat), p < 6 → s.dev.leastAcct p none = some m →
    ∃ t, exec (.accountNormalise p) s = .next t ∧ ∀ g, (t.dev.share p g).acct = (s.dev.share p g).acct - m) ∧
  (∀ (s : State) (p : Nat) (v : W64), p < 6 → s.dev.pdkPresent p = true → s.dev.fencedPdk p = false →
    ((s.dev.pdk p).stepEn = false → bit v 0 = false → 1 ≤ bits v 24 16 → bits v 24 16 ≤ 256 → 1 ≤ bits v 31 25 → bits v 31 25 ≤ 100 →
      bits v 48 32 ≤ 65536 →
      let k := { s.dev.pdk p with periodic := bit v 1, stepQueue := bits v 15 2, batchMax := bits v 24 16, lead := bits v 31 25,
                                  seqQuota := bits v 48 32 }
      exec (.stepCtlWrite p v) s = .next { s with dev := s.dev.setPdk p k }) ∧
    ((s.dev.pdk p).stepEn = true → bit v 0 = false →
      ∃ t, exec (.stepCtlWrite p v) s = .next t ∧ (t.dev.pdk p).stepEn = false ∧ (t.dev.pdk p).closed = none ∧
        (t.dev.pdk p).inStep = none)) ∧
  (∀ (s : State) (n : Nat), n < 256 → s.dev.fires n 1 = true →
    let p := (s.dev.alarm n).owner
    let at_ := (s.dev.alarm n).cmp + (s.dev.pdk p).lead * 1000
    let d := (s.dev.fired n).armStep p
    (s.dev.pdk p).stepEn = true → (s.dev.pdk p).periodic = true → (s.dev.pdk p).closed = none →
    (d.stepArrived p = true → exec (.stepStart n) s = .next { s with dev := d.closeBatch p at_ }) ∧
    (d.stepArrived p = false → exec (.stepStart n) s = .next { s with dev := d.setPdk p { d.pdk p with stepDue := some at_ } })) ∧
  (∀ (s : State) (p j : Nat) (v : Job) (b : Batch), p < 6 → s.dev.fencedPdk p = false → (s.dev.pdk p).closed = some b →
    s.dev.stepJob p = some (j, v) → s.dev.stepReady p b = true →
    ∃ t, exec (.stepRelease p) s = .next t ∧ (t.dev.pdk p).closed = none ∧ (t.dev.pdk p).inStep = some b ∧
      (t.dev.pdk p).stepNum = b.step ∧ (t.dev.pdk p).lastN = b.entries.length ∧ ∀ c ∈ v.cores, (t.dev.core c).musWaiting = false)

/-! ### Links -/

/-- R383, R385, R388, R389, R391 to R396, R399, R400, R405: a HELLO opens a session, or is answered; the frame a session expects has
its effect, a later one is held and a duplicate answered; an ACK frees what it covers, and frames missing below a held one are
sent again; a frame for another address passes on with HOPS less by 1, or is counted as dropped; ports answer for their own
address and obey a pause; HELLOs, ACKs, resends and timeouts of a session. -/
def Obligations.LinkResults : Prop :=
  (∀ (s : State) (n b : Nat) (f : DroveFrame), s.dev.frameFor n b .hello f = true →
    let d := s.dev.reached n b
    let x := d.binding b
    (x.state = .opening → f.arg.setWidth 8 = (d.pdk x.pdk).inc →
      ∃ t, exec (.droveHello n f) s = .next t ∧ (t.dev.binding b).state = .up ∧ (t.dev.binding b).pinc = f.inc ∧
        (t.dev.binding b).rxExp = 0 ∧ (t.dev.binding b).crLim = f.crLim) ∧
    (x.state = .opening → f.arg.setWidth 8 ≠ (d.pdk x.pdk).inc →
      exec (.droveHello n f) s = s.goes (d.setBinding b { x with pinc := f.inc, heard := true })) ∧
    (x.state = .up → f.inc = x.pinc →
      exec (.droveHello n f) s = s.goes (d.sendFrame b { blankFrame .hello with arg := x.pinc.setWidth 64 }))) ∧
  (∀ (s : State) (n b off : Nat) (f : DroveFrame) (code : Code), s.dev.upFrame n b .write f = true →
    f.psn = (s.dev.binding b).rxExp →
    let d := s.dev.reached n b
    let p := (d.binding b).pdk
    (d.remoteCheck p f true = .inr off →
      exec (.droveWrite n f) s = s.goes (
        s.dev.inOrder b f (d.landBytes (d.window (256 * p + Device.winSlot (Device.argHandle f))).core off f.payload []))) ∧
    (d.remoteCheck p f true = .inl code →
      exec (.droveWrite n f) s = s.goes (
        s.dev.inOrder b f (d.sendSeq b { blankFrame .nak with code := code, arg := f.psn.setWidth 64 })))) ∧
  (∀ (s : State) (n b off : Nat) (f : DroveFrame) (code : Code) (e : Device) (bs : List Byte),
    s.dev.upFrame n b .readReq f = true → f.psn = (s.dev.binding b).rxExp →
    let d := s.dev.reached n b
    let p := (d.binding b).pdk
    let rsp : DroveFrame := { blankFrame .readRsp with arg := f.psn.setWidth 64 }
    (d.remoteCheck p f false = .inr off →
      d.readYard (d.window (256 * p + Device.winSlot (Device.argHandle f))).core 5 off f.len.toNat = (e, .inl bs) →
      exec (.droveReadReq n f) s = s.goes (s.dev.inOrder b f (e.sendSeq b { rsp with len := f.len, payload := bs }))) ∧
    (d.remoteCheck p f false = .inl code →
      exec (.droveReadReq n f) s = s.goes (s.dev.inOrder b f (d.sendSeq b { rsp with code := code })))) ∧
  (∀ (s : State) (n b i : Nat) (f : DroveFrame) (p : Piece), s.dev.upFrame n b .readRsp f = true →
    f.psn = (s.dev.binding b).rxExp → s.dev.removing (s.dev.binding b).pdk = false →
    ((s.dev.binding b).reads.find? fun r => r.1 == f.arg.setWidth 24) = some (f.arg.setWidth 24, i) → s.dev.piece i = some p →
    let d := (s.dev.reached n b).modBinding b fun x => { x with reads := x.reads.filter fun r => r.1 != f.arg.setWidth 24 }
    (f.code ≠ 0 → exec (.droveReadRsp n f) s = s.goes (s.dev.inOrder b f (d.failPiece i f.code p.src))) ∧
    (f.code = 0 → (p.data ++ f.payload).length < p.len →
      exec (.droveReadRsp n f) s = s.goes (s.dev.inOrder b f (d.setPiece i { p with data := p.data ++ f.payload }))) ∧
    (f.code = 0 → p.len ≤ (p.data ++ f.payload).length →
      exec (.droveReadRsp n f) s = s.goes (s.dev.inOrder b f (d.gotData i p (p.data ++ f.payload))))) ∧
  (∀ (s : State) (n b i : Nat) (f : DroveFrame) (u : Unacked), s.dev.upFrame n b .nak f = true →
    f.psn = (s.dev.binding b).rxExp → s.dev.removing (s.dev.binding b).pdk = false →
    ((s.dev.binding b).unacked.find? fun u => u.psn == f.arg.setWidth 24) = some u → u.piece = some i →
    let d := s.dev.reached n b
    exec (.droveNak n f) s = s.goes (s.dev.inOrder b f
      (d.failPiece i f.code (.remote (d.binding b).peer.toNat (u.f.arg.setWidth 32) (bits u.f.arg 63 32))))) ∧
  (∀ (s : State) (n b j : Nat) (f : DroveFrame) (v : Job) (m : MusterDef) (r : Round),
    f.psn = (s.dev.binding b).rxExp → s.dev.removing (s.dev.binding b).pdk = false →
    (s.dev.reached n b).fabricRound (s.dev.binding b).pdk (bits f.arg 11 0) f.src.toNat = some (j, v, m, r) →
    bits f.arg 63 32 = r.round.toNat →
    let d := s.dev.reached n b
    (s.dev.upFrame n b .musterArrive f = true → d.fabricLeader m = d.links.addr.toNat → r.peers.contains f.src.toNat = false →
      exec (.droveMusterArrive n f) s = s.goes (s.dev.inOrder b f
        ((d.setRound { r with peers := r.peers ++ [f.src.toNat], offers := r.offers ++ [bits f.arg 20 16] }).tryComplete j
          (bits f.arg 11 0)))) ∧
    (s.dev.upFrame n b .musterRelease f = true → d.fabricLeader m = f.src.toNat →
      let t := ofBytes (f.payload.take 8)
      let d := if d.lockstepped (d.binding b).pdk then d.takeCommon (bits f.arg 20 16) f.src.toNat t else d
      (t ≤ d.now → exec (.droveMusterRelease n f) s = s.goes (s.dev.inOrder b f (d.releaseRound j r))) ∧
      (d.now < t → exec (.droveMusterRelease n f) s = s.goes (s.dev.inOrder b f
        ((d.setRound { r with deadline := none, releaseAt := some t }).rearmMuster r.paddock))))) ∧
  (∀ (s : State) (n b : Nat) (f : DroveFrame), f.psn ≠ (s.dev.binding b).rxExp →
    ∀ z ∈ 
      [(FrameType.write, Instr.droveWrite n f), (.readReq, .droveReadReq n f), (.readRsp, .droveReadRsp n f), (.nak, .droveNak n f),
           (.musterArrive, .droveMusterArrive n f), (.musterRelease, .droveMusterRelease n f)],
    s.dev.upFrame n b z.1 f = true →
    let d := s.dev.reached n b
    let x := d.binding b
    (2 ^ 23 ≤ (f.psn - x.rxExp).toNat → exec z.2 s = s.goes ((d.takeAck b f).sendAck b)) ∧
    ((f.psn - x.rxExp).toNat < 2 ^ 23 → (x.heldFrames.all fun g => g.psn != f.psn) = true →
      let e := d.setBinding b { x with heldFrames := x.heldFrames ++ [f] }
      exec z.2 s = s.goes ((e.takeAck b f).sendAck b))) ∧
  (∀ (s : State) (n b : Nat) (f : DroveFrame), s.dev.upFrame n b .ack f = true →
    let d := (s.dev.reached n b).takeAck b f
    (ofBytes (f.payload.take 8) = 0 → exec (.droveAck n f) s = s.goes d) ∧
    (ofBytes (f.payload.take 8) = 1 →
      let missing := (d.binding b).unacked.filter fun u => u.psn == f.ackPsn + 1
      exec (.droveAck n f) s = s.goes (missing.foldl (fun d u => d.resendFrame b u) d))) ∧
  (∀ (s : State) (n : Nat) (f : DroveFrame), n < 2 → s.dev.links.addr ≠ 0 → f.dst ≠ s.dev.links.addr → Device.headerOk f = true →
    let d := s.dev.received n
    (∀ e, s.dev.routePort f.dst.toNat = some e → e ≠ n → f.hops ≠ 0 →
      (Device.fwdFill (s.dev.port e) < 128 →
        exec (.frameForward n f) s = s.goes (d.putPort e true { f with hops := f.hops - 1 })) ∧
      (128 ≤ Device.fwdFill (s.dev.port e) →
        exec (.frameForward n f) s = s.goes (d.modPort e fun p => { p with fwdDrop := p.fwdDrop + 1 }))) ∧
    (s.dev.routePort f.dst.toNat = none ∨ s.dev.routePort f.dst.toNat = some n ∨ f.hops = 0 →
      exec (.frameForward n f) s = s.goes (d.modPort n fun p => { p with fwdDrop := p.fwdDrop + 1 }))) ∧
  (∀ (s : State) (n : Nat), n < 2 →
    exec (.rxFrameDrop n) s = s.goes (s.dev.modPort n fun p => { p with rxDrop := p.rxDrop + 1 })) ∧
  (∀ (s : State) (n : Nat) (ip : BitVec 32) (ip6 : BitVec 128), n < 2 → ip ≠ 0 → ip6 ≠ 0 →
    let d := s.dev.received n
    let sent := d.modPort n fun p => { p with txFrm := p.txFrm + 1 }
    exec (.arpRequest n ip) s = s.goes (if ip = (s.dev.port n).ip4 then sent.emit (.arpReply n) else d) ∧
    exec (.neighbourSolicitation n ip6) s =
      s.goes (if ip6 = (s.dev.port n).ip6 then sent.emit (.neighbourAdvert n) else d)) ∧
  (∀ (s : State) (n : Nat), n < 2 →
    exec (.pfcPause n) s = s.goes (if bit s.dev.links.ctl 6 then s.dev.modPort n fun p => { p with paused := true } else s.dev) ∧
    ∃ t, exec (.pfcPauseExpiry n) s = .next t ∧ (t.dev.port n).paused = false ∧
      ((t.dev.port n).up = true → (t.dev.port n).queue = [])) ∧
  (∀ (s : State) (n : Nat), n < 2 →
    (∃ t, exec (.portLinkChange n true) s = .next t ∧ (t.dev.port n).up = true ∧
      ∀ b < 64, let x := s.dev.binding b
        x.valid = true → x.state = .down → (s.dev.routePort x.peer.toNat).isSome = true → (s.dev.pdk x.pdk).rst = .running →
        (t.dev.binding b).state = .opening) ∧
    ∃ t, exec (.portLinkChange n false) s = .next t ∧ (t.dev.port n).up = false) ∧
  (∀ (s : State) (b : Nat), b < 64 →
    ((s.dev.binding b).valid = true → (s.dev.binding b).state = .opening →
      exec (.helloSend b) s = s.goes (s.dev.sendFrame b { blankFrame .hello with arg := (s.dev.binding b).pinc.setWidth 64 })) ∧
    ((s.dev.binding b).state = .up → (s.dev.binding b).ackOwed = true →
      let sack := bitsOf (fun k => (s.dev.binding b).heldFrames.any fun f => (f.psn - (s.dev.binding b).rxExp).toNat == k + 1) 64
      exec (.ackSend b) s = s.goes ((s.dev.setBinding b { s.dev.binding b with ackOwed := false }).sendFrame b
        { blankFrame .ack with len := 8, payload := toBytes 8 sack }))) ∧
  (∀ (s : State) (b : Nat) (psn : BitVec 24) (u : Unacked), b < 64 → (s.dev.binding b).state = .up →
    ((s.dev.binding b).unacked.find? fun u => u.psn == psn) = some u → u.last + u.rto ≤ s.dev.now →
    ∃ t, exec (.retransmit b psn) s = .next t ∧
      (t.dev.binding b).unacked = (s.dev.binding b).unacked.map fun y =>
        if y.psn = psn then { y with last := s.dev.now, rto := min 1000000 (2 * y.rto) } else y) ∧
  (∀ (s : State) (b : Nat), b < 64 → (s.dev.binding b).state = .up →
    ((s.dev.binding b).unacked.any fun u => decide (u.first + bits s.dev.links.ctl 31 16 * 1000000 ≤ s.dev.now)) = true →
    ∃ t, exec (.sessionTimeout b) s = .next t ∧ (t.dev.binding b).state ≠ .up ∧ (t.dev.binding b).unacked = [] ∧
      (t.dev.binding b).owed = [])

/-! ### Power, supply and temperature -/

/-- R409, R410, R411, R414, R415, R421 to R428, R429, R433: an interval adds its energy and opens the next budgets; a decision
lowers at once and raises when two successive decisions allow it; a raise takes effect at PM_VACK and is abandoned after
50 us; a common raise takes place at its instant or lags; a supply warning drops to step 4 and clamps the Pens, HOLD follows,
and NORMAL returns after 20 us; a trip goes to step 0, MAXSTEP moves by 1, and the trip ends after 1 ms below TRIP - 10. -/
def Obligations.PowerResults : Prop :=
  (∀ (s : State) (a : Activity), s.dev.boot.released = true → 5 ≤ s.dev.boot.stage →
    let cs := s.dev.presentCores
    let spent := fun c => s.dev.scaled ((s.dev.core c).work / 32)
    let e := ((cs.map spent).foldl (· + ·) 0) + s.dev.scaled (s.dev.uncoreWork a) +
      s.dev.scaled (s.dev.cal.fixedMw * 2000) + s.dev.leakAt s.dev.power.cur * 2000
    ∃ t, exec (.powerInterval a) s = .next t ∧ t.dev = { s.dev.clearWork with power := t.dev.power } ∧ t.dev.power.est = e / 2000 ∧
      1000000 * t.dev.power.energy + t.dev.power.energyRem =
        1000000 * s.dev.power.energy + s.dev.power.energyRem + e ∧
      t.dev.power.energyRem < 1000000 ∧
      ∀ c ∈ cs, Table.get t.dev.power.budgets 0 c = t.dev.budgetOf c / 2000 ∧ Table.get t.dev.power.balances 0 c =
        (t.dev.budgetOf c : Int) + min 0 (Table.get s.dev.power.balances 0 c - (spent c : Int))) ∧
  (∀ (s : State), s.dev.power.therm ≠ 2 → s.dev.power.supply = .normal →
    let w := s.dev.power
    let step := s.dev.fixedStep
    let low := s.dev.bestStep s.dev.ceiling 0
    let hi := s.dev.bestStep s.dev.ceiling 5
    (pcMode w.ctl = 1 → step < w.cur → exec .stepDecision s = s.goes (s.dev.lowerTo step (s.dev.limitOf step))) ∧
    (pcMode w.ctl ≠ 1 → (pcLockstep w.ctl && w.commonOn) = false →
      (low < w.cur → ∃ t, exec .stepDecision s = .next t ∧ t.dev.power.cur = low ∧ t.dev.power.vreq = stepVid low ∧
        t.dev.power.pending = none) ∧
      (w.cur ≤ low → w.cur < hi → w.agreed = none → ∃ t, exec .stepDecision s = .next t ∧ t.dev.power = { w with agreed := some hi }) ∧
      (∀ k, w.cur ≤ low → w.cur < hi → w.cur < k → w.agreed = some k → w.pending = none → w.suppress = false →
        ∃ t, exec .stepDecision s = .next t ∧ t.dev.power.cur = w.cur ∧
          t.dev.power.pending = some { target := min k hi, asked := s.dev.now } ∧ t.dev.power.vreq = stepVid (min k hi)))) ∧
  (∀ (s : State) (r : Raise), s.dev.power.pending = some r →
    (s.dev.power.lockRaise = none → s.dev.power.lag = false → s.dev.power.supply = .normal → s.dev.power.therm ≠ 2 →
      ∃ t, exec .pmVack s = .next t ∧ t.dev = { s.dev with power := t.dev.power } ∧ t.dev.power.cur = r.target ∧
        t.dev.power.vack = true ∧ t.dev.power.pending = none) ∧
    (s.dev.power.lag = true → exec .pmVack s = s.goes { s.dev with power :=
      { s.dev.power with vack := true, pending := none, vreq := stepVid s.dev.power.cur } }) ∧
    (s.dev.power.vack = false → r.asked + 50000 ≤ s.dev.now →
      let d := { s.dev with power := { s.dev.power with pending := none, vreq := stepVid s.dev.power.cur, suppress := true } }
      exec .vregTimeout s = s.goes (d.platform 0x0507))) ∧
  (∀ (s : State), exec .raiseSuppressEnd s = s.goes { s.dev with power := { s.dev.power with suppress := false } }) ∧
  (∀ (s : State) (k t0 : Nat), s.dev.power.lockRaise = some (k, t0) → t0 ≤ s.dev.now →
    (∀ r, s.dev.power.pending = some r → r.target = k → s.dev.power.vack = true → s.dev.power.supply = .normal →
      s.dev.power.therm ≠ 2 → exec .lockstepRaise s =
        s.goes { s.dev with power := { s.dev.power with lockRaise := none, cur := k, pending := none, limit := 2 } }) ∧
    (s.dev.power.pending = none ∨ s.dev.power.vack = false →
      let d := { s.dev with power := { s.dev.power with lockRaise := none, lag := true, lagCnt := satInc s.dev.power.lagCnt } }
      exec .lockstepRaise s = s.goes (d.platform 0x0505))) ∧
  (∀ (s : State) (c t0 : Nat), c < 12 → (s.dev.core c).grazing = some t0 → t0 + pcGrazeMax s.dev.power.ctl * 1000 ≤ s.dev.now →
    exec (.grazeTimeout c) s = s.goes (s.dev.setCore c { s.dev.core c with grazing := none })) ∧
  (∀ (s : State) (mv : Nat), mv * 100 < s.dev.cal.warnPct * s.dev.supplyMv → s.dev.power.supply = .normal →
    ∃ t, exec (.supplyWarning mv) s = .next t ∧ t.dev.power.supply = .warning ∧ t.dev.power.cur = min 4 s.dev.power.cur ∧
      t.dev.power.vreq = s.dev.power.vreq ∧ t.dev.power.pending = none ∧ t.dev.power.dipAt = s.dev.now ∧
      t.dev.power.dipCnt = satNat 16 (s.dev.power.dipCnt + 1) ∧
      ∀ c < 12, (t.dev.core c).grazing = none ∧ ∀ n, (Table.get (t.dev.core c).pn.pens Pen.reset n).level ≤ 8) ∧
  (∀ (s : State), s.dev.power.supply = .warning →
    let w := s.dev.power
    exec .supplyHold s = s.goes { s.dev with power :=
      { w with supply := .hold, holdAt := s.dev.now, dipNs := w.dipNs + (s.dev.now - w.warnAt) } }) ∧
  (∀ (s : State), s.dev.power.supply = .hold → s.dev.power.holdAt + 20000 ≤ s.dev.now →
    ∃ t, exec .supplyNormal s = .next t ∧ t.dev.power.supply = .normal ∧
      (s.dev.power.therm ≠ 2 → t.dev.power.cur ≤ s.dev.power.dipStep) ∧ (s.dev.power.therm = 2 → t.dev.power.cur = 0) ∧
      t.dev.power.vreq = stepVid t.dev.power.cur) ∧
  (∀ (s : State) (mv : Nat), mv * 100 < s.dev.cal.resetPct * s.dev.supplyMv →
    exec (.supplyReset mv) s = s.goes ((s.dev.logFlash 0x0502 (BitVec.ofNat 64 mv)).requestDevReset 0x0502)) ∧
  (∀ (s : State) (l : List SensorReading) (v : Int) (i : Nat),
    Device.hottest ((List.range 32).map fun i => l.getD i { valid := false, temp := 0 }) = some (v, i) →
    ∃ t, exec (.thermalSample l) s = .next t ∧ t.dev.power.hot = v ∧ t.dev.power.hotSensor = i ∧
      (s.dev.cal.trip ≤ v → t.dev.power.therm = 2 ∧ (s.dev.power.therm ≠ 2 → t.dev.power.cur = 0 ∧ t.dev.power.alert = true)) ∧
      (s.dev.cal.crit ≤ v → t.dev.power.crit = true)) ∧
  (∀ (s : State),
    let w := s.dev.power
    ((w.thermWarn : Int) ≤ w.hot → w.thermAt + 100000 ≤ s.dev.now → w.cur ≤ w.maxStep - 1 →
      exec .thermalMaxstepTick s = s.goes { s.dev with power := { w with maxStep := w.maxStep - 1, thermAt := s.dev.now } }) ∧
    ((w.thermWarn : Int) ≤ w.hot → w.thermAt + 100000 ≤ s.dev.now → w.maxStep - 1 < w.cur →
      ∃ t, exec .thermalMaxstepTick s = .next t ∧ t.dev = { s.dev with power := t.dev.power } ∧
        t.dev.power.maxStep = w.maxStep - 1 ∧ t.dev.power.cur = w.maxStep - 1) ∧
    (w.hot < (w.thermWarn : Int) - 5 → w.maxStep < pcMaxStep w.ctl → w.thermAt + 1000000 ≤ s.dev.now →
      exec .thermalMaxstepTick s = s.goes { s.dev with power := { w with maxStep := w.maxStep + 1, thermAt := s.dev.now } })) ∧
  (∀ (s : State) (t0 : Nat), s.dev.power.therm = 2 → s.dev.power.coolAt = some t0 → t0 + 1000000 ≤ s.dev.now →
    let w := s.dev.power
    exec .thermalTripExit s = s.goes { s.dev with power := { w with
      therm := if (w.thermWarn : Int) ≤ w.hot then 1 else 0, alert := false, coolAt := none, thermAt := s.dev.now } })

/-! ### Entropy, tenant removal, resets -/

/-- R439, R440, R443, R457 to R459, R520: a failed health test stops the DRBG and 1,024 good samples in a row start it again, with
the keys that waited; a removal is fenced, retires the keys, scrubs and ends with the Paddock empty. -/
def Obligations.RemovalResults : Prop :=
  (∀ (s : State), s.dev.boot.released = true →
    (∃ t, exec (.entropySample false) s = .next t ∧ t.dev.sec.entFail = true ∧ t.dev.sec.goodRun = 0 ∧
      t.dev.sec.failCnt = satNat 16 (s.dev.sec.failCnt + 1)) ∧
    (s.dev.sec.entFail = false → exec (.entropySample true) s = .next s) ∧
    (s.dev.sec.entFail = true → s.dev.sec.goodRun + 1 < 1024 → exec (.entropySample true) s =
      s.goes { s.dev with sec := { s.dev.sec with goodRun := s.dev.sec.goodRun + 1 } }) ∧
    (s.dev.sec.entFail = true → s.dev.sec.goodRun + 1 = 1024 →
      ∃ t, exec (.entropySample true) s = .next t ∧ t.dev.sec.entFail = false ∧ t.dev.sec.seedNum = s.dev.sec.seedNum + 1 ∧
        (6 ≤ s.dev.boot.stage → s.dev.boot.stage ≠ 9 → ∀ p ∈ s.dev.pdksPresent, (t.dev.pdkSec p).memKey ≠ 0))) ∧
  (∀ (s : State), s.dev.sec.entFail = false → 2 ^ 20 ≤ s.dev.sec.drbgReqs ∨ s.dev.sec.seedAt + 1000000000 ≤ s.dev.now →
    exec .drbgReseed s = s.goes { s.dev with sec :=
      { s.dev.sec with seeded := true, seedNum := s.dev.sec.seedNum + 1, seedAt := s.dev.now, drbgReqs := 0 } }) ∧
  (∀ (s : State) (p : Nat), p < 6 → s.dev.pdkPresent p = true → (s.dev.pdkSec p).phase = .none → s.dev.removalBarred p = false →
    (s.dev.glb.devState = 1 → (s.dev.pdk p).rst ≠ .fenced →
      ∃ t, exec (.tenantRemoveRequest p) s = .next t ∧ (t.dev.pdkSec p).phase = .fenced ∧
        ∀ st ∈ s.dev.stallsOf p, (t.dev.stall st).state = .fenced) ∧
    (s.dev.glb.devState = 1 → (s.dev.pdk p).rst = .fenced → exec (.tenantRemoveRequest p) s =
      s.goes (s.dev.setPdkSec p { s.dev.pdkSec p with rmvWaits := true })) ∧
    (s.dev.glb.devState = 2 → exec (.tenantRemoveRequest p) s =
      s.goes (s.dev.setPdkSec p { s.dev.pdkSec p with phase := .pending }))) ∧
  (∀ (s : State) (p : Nat), p < 6 → (s.dev.pdkSec p).phase ≠ .none → exec (.tenantRemoveRequest p) s = .next s) ∧
  (∀ (s : State) (p : Nat) (flash : FlashStatus), p < 6 → (s.dev.pdkSec p).phase = .fenced ∨ (s.dev.pdkSec p).phase = .pending →
    s.dev.glb.devState = 1 → s.dev.removalBarred p = false →
    let x := s.dev.pdkSec p
    (x.layout.session = true ∨ flash = .ok →
      ∃ t, exec (.removalRetire p flash) s = .next t ∧ (t.dev.pdkSec p).phase = .retiring ∧ (t.dev.pdkSec p).bundles = [] ∧
        (t.dev.pdkSec p).kgen = (if x.layout.session then x.kgen else x.kgen + 1) ∧
        (t.dev.pdkSec p).memKey = if s.dev.sessionNext p then 2 * (s.dev.sec.keyCount + 1) else Device.fusedKey p (t.dev.pdkSec p).kgen) ∧
    (x.layout.session = false → flash ≠ .ok →
      ∃ t, exec (.removalRetire p flash) s = .next t ∧ (t.dev.pdkSec p).phase = .none ∧ (t.dev.pdk p).rst = .outOfService)) ∧
  (∀ (s : State) (p : Nat), p < 6 → (s.dev.pdkSec p).phase = .retiring →
    ∃ t, exec (.removalScrub p) s = .next t ∧ (t.dev.pdkSec p).phase = .scrubbing ∧
      (∀ c ∈ s.dev.coresOf p, t.dev.core c = Core.reset ∧ (t.dev.slice c).data = [] ∧ (t.dev.slice c).regions = Slice.reset.regions ∧
        (t.dev.slice c).merge = []) ∧
      (∀ k, k / 256 = p → Table.find t.dev.segs k = none) ∧ (t.dev.pdk p).sems = [] ∧
      ∀ kv ∈ t.dev.power.phases, kv.2.pdk ≠ p) ∧
  (∀ (s : State) (p : Nat), p < 6 → (s.dev.pdkSec p).phase = .scrubbing →
    let x := s.dev.pdkSec p
    ∃ t, exec (.removalEnd p) s = .next t ∧ (t.dev.pdkSec p).phase = .none ∧ (t.dev.pdkSec p).layout = x.newLayout.getD x.layout ∧
      (t.dev.pdkSec p).rmvCnt = satInc x.rmvCnt ∧ (t.dev.pdkSec p).rmvTally = s.dev.now ∧
      (t.dev.pdk p).inc = (s.dev.pdk p).inc + 1 ∧ ∀ st ∈ s.dev.stallsOf p, (t.dev.stall st).state = .free) ∧
  (∀ (s : State) (p : Nat), p < 6 → (s.dev.pdkSec p).trace.en = true →
    let x := s.dev.pdkSec p
    exec (.traceWriteFail p) s =
      s.goes (s.dev.setPdkSec p { x with trace := { x.trace with en := false, lost := x.trace.lost + 1 } }))

/-- R307, R465 to R468, R470 to R473, R476, R480, R496, R523: the causes of a Paddock reset fence it and count it, and leave alone
what R470 says; the reset clears its cores and trains its channels, and its end lets it run with a new incarnation; a device
reset clears every core and job and goes back to stage 8, and its end sets READY; the heartbeat feeds the watchdog and counts;
the watchdog restarts the Shepherd core, and a second expiry within 1 s asks for a device reset; a SNAPSHOT alarm samples its set,
and a HOST_EVENT alarm posts its record. -/
def Obligations.ResetResults : Prop :=
  (∀ (s : State) (p : Nat), p < 6 →
    ∀ z ∈ [(Instr.hangReportTimeout p, (0x070D : Code)), (.droverFault p, 0x0711), (.paddockResetRequest p, 0x0701)],
    (z.1 = .hangReportTimeout p → (s.dev.pdk p).hangJobs ≠ []) →
    (s.dev.pdkPresent p = true → (s.dev.pdk p).rst = .running → (s.dev.pdkSec p).phase = .none → s.dev.glb.devState = 1 →
      ∃ t, exec z.1 s = .next t ∧ (t.dev.pdk p).rst = .fenced ∧ (t.dev.pdk p).lastCause = z.2 ∧
        (t.dev.pdk p).resets = satNat 32 ((s.dev.pdk p).resets + 1) ∧ ∀ st ∈ s.dev.stallsOf p, (t.dev.stall st).state = .fenced) ∧
    ((s.dev.pdk p).rst ≠ .running ∨ (s.dev.pdkSec p).phase ≠ .none → exec z.1 s = .next s)) ∧
  (∀ (s : State) (p : Nat), p < 6 → (s.dev.pdk p).hangJobs = [] → exec (.hangReportTimeout p) s = .next s) ∧
  (∀ (s : State) (p : Nat), p < 6 → (s.dev.pdk p).rst = .fenced → s.dev.resets.devAsked = none → s.dev.glb.devState = 1 →
    (s.dev.pdkSec p).rmvWaits = false → (s.dev.pdk p).history.length < 4 →
    ∃ t, exec (.paddockReset p) s = .next t ∧ (t.dev.pdk p).rst = .retraining ∧
      t.dev.resets.crashSeq = (s.dev.resets.crashSeq + 1) % 2 ^ 32 ∧ (t.dev.pdk p).crashSeq = t.dev.resets.crashSeq ∧
      (∀ c ∈ s.dev.coresOf p, t.dev.core c = Core.reset) ∧
      ∀ n ∈ s.dev.chansOf p, (s.dev.chan n).state = .active → (t.dev.chan n).state = .training) ∧
  (∀ (s : State) (p : Nat), p < 6 → (s.dev.pdk p).rst = .retraining → s.dev.glb.devState = 1 → (s.dev.pdkSec p).memKey ≠ 0 →
    (∀ n ∈ s.dev.chansOf p, (s.dev.chan n).state = .active) →
    ∃ t, exec (.paddockReady p) s = .next t ∧ (t.dev.pdk p).rst = .running ∧ (t.dev.pdk p).inc = (s.dev.pdk p).inc + 1 ∧
      ∀ st ∈ s.dev.stallsOf p, (t.dev.stall st).state = .free) ∧
  (∀ (s : State) (cause : ResetCause) (r : TestReport), s.dev.boot.released = true → 5 ≤ s.dev.boot.stage → s.dev.boot.stage ≠ 9 →
    ∃ t, exec (.deviceReset cause r) s = .next t ∧ t.dev.boot.stage = 8 ∧ t.dev.glb.ready = false ∧ t.dev.cores = [] ∧
      t.dev.jobs = [] ∧ t.dev.stalls = [] ∧ t.dev.resets.devCause = causeCode cause ∧ t.dev.resets.devAsked = none ∧
      t.dev.resets.devTotal = satInc s.dev.resets.devTotal) ∧
  (∀ (s : State) (ms : W32), s.dev.glb.devState = 2 → s.dev.resets.devAsked = none → s.dev.trained = true →
    (s.dev.resets.devOos = true → exec (.deviceResetReady ms) s =
      s.goes { s.dev with glb := { s.dev.glb with devState := 3 }, boot := { s.dev.boot with warm := ms } }) ∧
    (s.dev.resets.devOos = false → ∃ t, exec (.deviceResetReady ms) s = .next t ∧ t.dev.glb.ready = true ∧ t.dev.glb.devState = 1 ∧
      t.dev.boot.warm = ms ∧ t.dev.resets.owed = [])) ∧
  (∀ (s : State) (n : Nat), n < 256 → s.dev.fires n 4 = true → s.dev.resets.restarting = false →
    ∃ t, exec (.heartbeat n) s = .next t ∧ t.dev.resets.hb = s.dev.resets.hb + 1 ∧ t.dev.resets.wdFeed = s.dev.now ∧
      t.dev.resets.wdArmed = true) ∧
  (∀ (s : State) (n p : Nat), n < 256 → s.dev.fires n 4 = true → s.dev.resets.restarting = false → s.dev.glb.devState = 1 →
    s.dev.pdksPresent = [p] → s.dev.fencedPdk p = false →
    let e := s.dev.fired n
    let k := s.dev.pdk p
    let idle := if s.dev.pdkBusy p && k.prog == k.progSeen then k.idle + (e.alarm n).miss + 1 else 0
    k.alive ≠ k.aliveSeen → s.dev.resets.hangMs ≠ 0 → s.dev.resets.hangMs ≤ idle →
    let f := { e with resets := { e.resets with hb := e.resets.hb + 1, wdFeed := e.now, wdArmed := true } }
    exec (.heartbeat n) s =
      s.goes ((f.setPdk p { k with idle := idle, progSeen := k.prog, aliveSeen := k.alive, aliveSame := 0 }).hang p)) ∧
  (∀ (s : State) (regs : List W32), s.dev.resets.wdArmed = true → s.dev.resets.wdFeed + 8000000 ≤ s.dev.now →
    ∃ t, exec (.watchdogExpiry regs) s = .next t ∧ t.dev.resets.restarting = true ∧ t.dev.resets.wdArmed = false ∧
      t.dev.resets.wdRegs = regs ∧ t.dev.resets.wdLast = some s.dev.now ∧ t.dev.resets.wdExp = satNat 8 (s.dev.resets.wdExp + 1) ∧
      t.dev.dict.sessions = [] ∧
      (∀ t0, s.dev.resets.wdLast = some t0 → s.dev.now ≤ t0 + 1000000000 → s.dev.glb.devState ≠ 0 →
        s.dev.resets.devAsked = none → t.dev.resets.devAsked = some 0x070E) ∧
      (s.dev.resets.wdLast = none → t.dev.resets.devAsked = s.dev.resets.devAsked)) ∧
  (∀ (s : State), s.dev.resets.restarting = true →
    ∃ t, exec .shepherdRestartDone s = .next t ∧ t.dev.resets.restarting = false ∧
      t.dev.resets.crashSeq = (s.dev.resets.crashSeq + 1) % 2 ^ 32) ∧
  (∀ (s : State) (n : Nat), n < 256 → s.dev.fires n 5 = true →
    let k := (s.dev.alarm n).target
    let x := Table.get s.dev.dict.snaps Snap.reset k
    let l := ((List.range 12).filter fun c => bit x.cores c).flatMap fun c => s.dev.groupWords x.groups c
    ∃ t, exec (.snapshot n) s = .next t ∧ Table.get t.dev.dict.snaps Snap.reset k = { x with lastTally := s.dev.now, last := l } ∧
      (t.dev.alarm n) = ((s.dev.fired n).alarm n)) ∧
  (∀ (s : State) (n : Nat), n < 256 → s.dev.fires n 6 = true →
    let a := s.dev.alarm n
    exec (.hostEvent n) s = s.goes ((s.dev.fired n).postQueue a.ring (s.dev.pdkEvent a.owner 7 0 (det 20 a.target) a.context)))

/-! ### The dictionary -/

/-- R491 to R493: a READ answers the bytes asked for of an object's value, in a session that may read it; NEXT names the next
object; a write outside an operator's session is refused with ACCESS, and one to no object with NO_OBJECT; chunks are staged
until the last one. -/
def Obligations.DictionaryRequests : Prop :=
  (∀ (s : State) (ses : Option Nat) (r : DzRequest) (o : DzObj), (∀ k, ses = some k → k < 4) → s.dev.reaches ses = true →
    let i := r.index.toNat
    let n := r.sub.toNat
    (s.dev.isOperator ses = true ∨ Device.openIndex i = true →
      (s.dev.dzFind i n = some o → r.more = false → r.len ≤ 1024 → s.dev.stagedElsewhere ses i n = false →
        let v := s.dev.dzBytes ses o n
        exec (.dzientRead ses r) s = s.goes (s.dev.respond r 1 i n o.type 0 v.length ((v.drop r.offset).take r.len))) ∧
      (s.dev.dzFind i n = none → exec (.dzientRead ses r) s = s.goes (s.dev.respond r 1 i n 0 NO_OBJECT)) ∧
      (s.dev.stagedElsewhere ses i n = true → exec (.dzientNext ses r) s = s.goes (s.dev.respond r 3 i n 0 BUSY)) ∧
      (s.dev.stagedElsewhere ses i n = false → s.dev.dzFind i (n + 1) = some o →
        exec (.dzientNext ses r) s = s.goes (s.dev.respond r 3 o.index (n + 1) o.type 0 (s.dev.dzBytes ses o (n + 1)).length)) ∧
      (s.dev.stagedElsewhere ses i n = false → s.dev.dzFind i (n + 1) = none →
        (dzObjects.find? fun x => decide (i < x.index) && decide (0 < s.dev.dzCount x) && s.dev.served x.index) = some o →
        exec (.dzientNext ses r) s = s.goes (s.dev.respond r 3 o.index 0 o.type 0 (s.dev.dzBytes ses o 0).length)) ∧
      (s.dev.stagedElsewhere ses i n = false → s.dev.dzFind i (n + 1) = none →
        (dzObjects.all fun x => !(decide (i < x.index) && decide (0 < s.dev.dzCount x) && s.dev.served x.index)) = true →
        exec (.dzientNext ses r) s = s.goes (s.dev.respond r 3 i n 0 NO_OBJECT))) ∧
    (s.dev.isOperator ses = false → Device.openIndex i = false →
      exec (.dzientRead ses r) s = s.goes (s.dev.respond r 1 i n 0 ACCESS) ∧
      exec (.dzientNext ses r) s = s.goes (s.dev.respond r 3 i n 0 ACCESS))) ∧
  (∀ (s : State) (k : Nat) (r : DzRequest), k < 4 → s.dev.pathUp = true → r.index = 0x5000 →
    exec (.dzientWrite none r) s = s.goes (s.dev.respond r 2 0x5000 r.sub.toNat 0 ACCESS) ∧
    (s.dev.reaches (some k) = true → (s.dev.sess k).operator = false → s.dev.served 0x5000 = true → r.sub = 0 →
      exec (.dzientWrite (some k) r) s = s.goes (s.dev.respond r 2 0x5000 0 4 ACCESS)) ∧
    (s.dev.reaches (some k) = true → r.sub ≠ 0 →
      exec (.dzientWrite (some k) r) s = s.goes (s.dev.respond r 2 0x5000 r.sub.toNat 0 NO_OBJECT))) ∧
  (∀ (s : State) (k : Nat) (r : DzRequest), k < 4 → s.dev.reaches (some k) = true → (s.dev.sess k).operator = true →
    r.index = 0x4001 → r.sub = 0 → s.dev.served 0x4001 = true → r.more = true → r.len = r.data.length → r.len ≤ 1024 →
    let own := s.dev.stagedBy k 0x4001 0
    ∀ parses, (r.offset = own.length → s.dev.stagedElsewhere (some k) 0x4001 0 = false →
      exec (.opRootWrite (some k) r parses) s = s.goes ((s.dev.stage k 0x4001 0 (own ++ r.data)).respond r 2 0x4001 0 8 0)) ∧
    (r.offset ≠ own.length →
      exec (.opRootWrite (some k) r parses) s = s.goes ((s.dev.unstage k 0x4001 0).respond r 2 0x4001 0 8 BAD_FIELD)))

/-- R29, R31, R46, R276, R390, R403, R412, R434, R435, R450, R458, R469, R480, R494 to R497, R503, R508: what an accepted write of
each object does, and the codes that refuse one. -/
def Obligations.DictionaryWrites : Prop :=
  ∀ (s : State) (k : Nat) (r : DzRequest) (o : DzObj) (b : List Byte), s.dev.lastChunk k r o b = true →
    let n := r.sub.toNat
    let d := s.dev.unstage k r.index.toNat n
    let yes : Device → Res0 := fun e => s.goes (e.respond r 2 r.index.toNat n o.type 0)
    let no : Code → Res0 := fun c => s.goes (d.respond r 2 r.index.toNat n o.type c)
    let v := ofBytes b
    let ses := some k
    (r.index = 0x3002 → r.flash = .ok → 70 ≤ v → v ≤ 105 →
      exec (.dzientWrite ses r) s = yes { d with power := { d.power with thermWarn := v } }) ∧
    (r.index = 0x3002 → v < 70 ∨ 105 < v → exec (.dzientWrite ses r) s = no BAD_FIELD) ∧
    (r.index = 0x5000 → r.flash = .ok → v = 0 ∨ (10 ≤ v ∧ v ≤ 60000) →
      exec (.dzientWrite ses r) s = yes { d with resets := { d.resets with hangMs := v } }) ∧
    (r.index = 0x2000 → r.flash = .ok → s.dev.glb.devState = 1 → s.dev.layoutBusy = false → s.dev.sec.entFail = false →
      let w := fun p => BitVec.ofNat 64 (ofBytes ((b.drop (8 * p)).take 8))
      let ls := (List.range 6).map fun p => Device.layoutOf (w p)
      (∀ p < 6, bits (w p) 7 6 = 0 ∧ bits (w p) 31 20 = 0) → Device.disjoint ls = true →
      (∀ p < 6, s.dev.entryOk p (Device.layoutOf (w p)) = true) →
      ∃ t, exec (.layoutWrite ses r) s = .next t ∧ ∀ p < 6, let l := Device.layoutOf (w p)
        (s.dev.layoutChanges p l = true → (t.dev.pdkSec p).newLayout = some l ∧
          ((t.dev.pdkSec p).phase = .fenced ∨ (t.dev.pdkSec p).rmvWaits = true)) ∧
        (s.dev.layoutChanges p l = false → (t.dev.pdkSec p).phase = .none ∧ (t.dev.layout p).debugOpen = l.debugOpen)) ∧
    (r.index = 0x2000 → b.all (· == 0) = true → s.dev.layoutBusy = true → exec (.layoutWrite ses r) s = no BUSY) ∧
    (r.index = 0x2002 → v = 0 → (s.dev.pdkOfChan n).isSome = true → exec (.chanOnWrite ses r) s = no BUSY) ∧
    (r.index = 0x2002 → v = 0 → s.dev.pdkOfChan n = none → r.flash = .ok → (s.dev.chan n).state ≠ .failed →
      ∃ t, exec (.chanOnWrite ses r) s = .next t ∧ (t.dev.chan n).state = .off ∧ n ∈ t.dev.dict.chanOff) ∧
    (r.index = 0x3000 → r.flash = .ok → 5 ≤ v → v ≤ fusedWatts s.dev.fuse →
      exec (.capSetWrite ses r) s = yes { d with power := { d.power with capSet := v } }) ∧
    (r.index = 0x3000 → v < 5 ∨ fusedWatts s.dev.fuse < v → exec (.capSetWrite ses r) s = no BAD_FIELD) ∧
    (r.index = 0x3000 → 5 ≤ v → v ≤ fusedWatts s.dev.fuse →
      (r.flash = .verify → exec (.capSetWrite ses r) s = no 0x0902) ∧ (r.flash = .worn → exec (.capSetWrite ses r) s = no 0x0903)) ∧
    (∀ parses, r.index = 0x4001 → r.flash = .ok → b.length ≤ 2048 → b = [] ∨ parses = true →
      exec (.opRootWrite ses r parses) s = yes { d with dict := { d.dict with roots := Table.set d.dict.roots [] n b } }) ∧
    (r.index = 0x4010 → r.flash = .ok → v < 2 ^ 17 →
      ∃ t, exec (.trustWrite ses r) s = .next t ∧ Table.get t.dev.links.trust 0 n = BitVec.ofNat 17 v ∧
        ∀ j < 64, let x := t.dev.binding j
          x.valid = true → t.dev.confidential x.pdk = true → t.dev.trusted x.peer.toNat = true) ∧
    (∀ u, r.index = 0x4020 → ofBytes ((b.drop 173).take 3) = 0 → ofBytes (b.take 4) < 2 ^ 20 → s.dev.pdkPresent (n / 4) = true →
      let num := fun a m => ofBytes ((b.drop a).take m)
      let x := d.pdkSec (n / 4)
      (num 133 40 = 0 → exec (.bundleRelease ses r u) s =
        yes (d.setPdkSec (n / 4) { x with bundles := Table.set x.bundles Bundle.reset (n % 4) Bundle.reset })) ∧
      (num 133 40 ≠ 0 → (∀ t0 a z, (s.dev.sess k).measured = some t0 → s.dev.wallTime t0 = some a → s.dev.wallTime s.dev.now = some z →
        a + 60000000000 < z) → exec (.bundleRelease ses r u) s = no 0x0601) ∧
      (∀ t0 a z i, num 133 40 ≠ 0 → (s.dev.sess k).measured = some t0 → s.dev.wallTime t0 = some a →
        s.dev.wallTime s.dev.now = some z → z ≤ a + 60000000000 → d.objOfDva (num 0 4) (num 4 8) (num 12 8) = some i → (d.obj i).space = .host →
        (Table.get x.bundles Bundle.reset (n % 4)).installed = false → u.keyOk = true → x.intakeKey ≠ 0 → Device.faesk u = true →
        let y : Bundle := { installed := true, context := num 0 4, dva := num 4 8, length := num 12 8,
                            id := BitVec.ofNat 128 (num 20 16), header := u.header, key := d.sec.keyCount + 1 }
        let e := { d with sec := { d.sec with keyCount := d.sec.keyCount + 1 } }
        exec (.bundleRelease ses r u) s = yes (e.setPdkSec (n / 4) { x with bundles := Table.set x.bundles Bundle.reset (n % 4) y }))) ∧
    (r.index = 0x4030 → v ≠ 0 → s.dev.pdkPresent n = true →
      (s.dev.removalBarred n = false → exec (.removeWrite ses r) s = yes (d.requestRemoval n)) ∧
      (s.dev.removalBarred n = true → exec (.removeWrite ses r) s = no 0x0604)) ∧
    (r.index = 0x5001 → v ≠ 0 → s.dev.pdkPresent n = true → s.dev.glb.devState ≠ 0 →
      exec (.pdkResetWrite ses r) s = yes (d.requestReset n 0x0701)) ∧
    (r.index = 0x5002 → v = 0x0B60 → s.dev.glb.devState ≠ 0 → exec (.devResetWrite ses r) s = yes (d.requestDevReset 0x070F)) ∧
    (r.index = 0x5002 → v ≠ 0x0B60 → exec (.devResetWrite ses r) s = no BAD_FIELD) ∧
    (r.index = 0x5030 → r.flash = .ok → (b.drop 7).all (· == 0) = true → bits (BitVec.ofNat 8 (ofBytes ((b.drop 6).take 1))) 7 4 = 0 →
      let period := ofBytes (b.take 4)
      let cores := BitVec.ofNat 16 (ofBytes ((b.drop 4).take 2))
      let at_ := fun (d : Device) => { Table.get d.dict.snaps Snap.reset n with
        period := period, cores := cores, groups := BitVec.ofNat 8 (ofBytes ((b.drop 6).take 1)) }
      (∀ c < 16, bit cores c = true → s.dev.corePresent c = true) → 0 < period → period ≤ 4294967 →
      ∀ j, (at_ d).slot = some j ∨ ((at_ d).slot = none ∧ s.dev.freeSlot 7 = some j) →
        let f := d.snapFired j
        let e := f.armSlot j 7 5 n (f.now + period * 1000) (period * 1000)
        exec (.snapSetWrite ses r) s =
          yes { e with dict := { e.dict with snaps := Table.set e.dict.snaps Snap.reset n { at_ f with slot := some j } } }) ∧
    (r.index = 0x6040 → r.flash = .ok →
      let w := BitVec.ofNat 64 v
      let y : Binding := { Binding.reset with
        valid := bit w 0, pdk := bits w 3 1, peerPdk := bits w 6 4, peer := BitVec.ofNat 16 (bits w 23 8), credits := bits w 33 24 }
      bit w 7 = false → bits w 63 52 = 0 →
      (bit w 0 = true → (s.dev.binding n).valid = false → y.credits ≠ 0 → y.credits + s.dev.otherCredits n ≤ 512 →
        s.dev.pdkPresent y.pdk = true → y.peer ≠ 0 → y.peer ≠ 0xFFFF → y.peer ≠ s.dev.links.addr →
        (∀ j < 64, j ≠ n → (s.dev.binding j).valid = true → (s.dev.binding j).pdk = y.pdk → (s.dev.binding j).peer ≠ y.peer) →
        (s.dev.confidential y.pdk = false ∨ s.dev.trusted y.peer.toNat = true →
          exec (.bindWrite ses r) s = yes ((d.setBinding n y).sessionOpen n)) ∧
        (s.dev.confidential y.pdk = true → s.dev.trusted y.peer.toNat = false → exec (.bindWrite ses r) s = no 0x0405)) ∧
      (bit w 0 = false → (s.dev.binding n).valid = true → (s.dev.binding n).pdk = y.pdk → (s.dev.binding n).peerPdk = y.peerPdk →
        (s.dev.binding n).peer = y.peer → (s.dev.binding n).credits = y.credits →
        exec (.bindWrite ses r) s = yes (d.clearBinding n 0x0406)) ∧
      (bit w 0 = false → (s.dev.binding n).valid = true → (s.dev.binding n).peer ≠ y.peer → exec (.bindWrite ses r) s = no BUSY)) ∧
    (∀ a, 0x6100 ≤ r.index.toNat → r.index.toNat < 0x6200 → a = 256 * (r.index.toNat - 0x6100) + n → r.flash = .ok →
      (bits (BitVec.ofNat 8 v) 1 0 = 0 → exec (.routeWrite ses r) s =
        yes { d with links := { d.links with routes := Table.set d.links.routes 0 a (BitVec.ofNat 8 v) } }) ∧
      (1 ≤ bits (BitVec.ofNat 8 v) 1 0 → bits (BitVec.ofNat 8 v) 1 0 ≤ 2 →
        (Table.get s.dev.links.nbrs Neighbour.reset (bits (BitVec.ofNat 8 v) 7 2)).valid = true →
        ∃ t, exec (.routeWrite ses r) s = .next t ∧ Table.get t.dev.links.routes 0 a = BitVec.ofNat 8 v ∧
          ∀ j < 64, let x := s.dev.binding j
            x.valid = true → x.state = .down → x.peer.toNat = a → (s.dev.pdk x.pdk).rst = .running → (t.dev.binding j).state = .opening)) ∧
    (r.index = 0x7002 → 2 ^ 23 < b.length → exec (.stageWrite ses r) s = no BAD_FIELD) ∧
    (r.index = 0x7002 → b.length ≤ 2 ^ 23 → r.offset % 64 = 0 → r.offset / 64 % 1024 ≠ 0 → r.data.length = 64 →
      let u := Device.imageUnit (1 - s.dev.flash.active) + r.offset / 64
      let e := { d with flash := { d.flash with imageOk := Table.set d.flash.imageOk false (1 - d.flash.active) false } }
      (Device.unitErased s.dev.flash u = true → r.flash = .ok → exec (.stageWrite ses r) s = yes (e.programNow u r.data)) ∧
      (Device.unitErased s.dev.flash u = false → exec (.stageWrite ses r) s =
        s.goes (({ d with flash := { d.flash with neCnt := satNat 16 (d.flash.neCnt + 1) } } : Device).respond r 2 0x7002 0 8 0x0901))) ∧
    (∀ ok, r.index = 0x7003 → 1 < v → exec (.commit ses r ok) s = no BAD_FIELD) ∧
    (∀ ok, r.index = 0x7003 → v ≤ 1 → v = s.dev.flash.active → exec (.commit ses r ok) s = no BUSY) ∧
    (r.index = 0x7003 → v ≤ 1 → v ≠ s.dev.flash.active → r.flash = .ok →
      ∃ t, exec (.commit ses r true) s = .next t ∧ t.dev.flash.bootSlot = v ∧ t.dev.flash.bootSeq = s.dev.flash.bootSeq + 1 ∧
        t.dev.flash.active = s.dev.flash.active) ∧
    (r.index = 0x8000 → r.flash = .ok → v ≤ 2 → v ≠ 0 ∨ s.dev.tally.hz ≠ 0 → exec (.srcWrite ses r) s = yes (d.setSource v)) ∧
    (r.index = 0x8000 → v = 0 → s.dev.tally.hz = 0 → exec (.srcWrite ses r) s = no BUSY) ∧
    (r.index = 0x8001 → r.flash = .ok → 1000000 ≤ v → v ≤ 200000000 →
      exec (.tcHzWrite ses r) s = yes { d with tally := { d.tally with
        hz := v, rate := if s.dev.tally.src = 0 then s.dev.tally.rate else rateOf v } }) ∧
    (r.index = 0x8004 → exec (.calSet ses r) s =
      yes { d with tally := { d.tally with calSet := some (v % 2 ^ 63) } })

/-! ### The management path -/

/-- R445 to R447, R487, R489, R490, Tables 14.4 and 16.1: the requests that begin a connection in their order; digests, chain,
challenge and measurements of slot 0; a session opens with its role fixed, and a fifth is refused; FINISH, heartbeats, key
updates and ends of sessions; MCTP control messages; dynamic addresses. Error codes of SPDM and completion codes of MCTP are the
standards', which the model takes from outside the spec (log entry 118). -/
def Obligations.ManagementPathResults : Prop :=
  (∀ (s : State) (m : SpdmMsg), s.dev.pathUp = true → m.supported = true →
    let d := s.dev
    let at_ := fun n => { d with dict := { d.dict with spdmStage := n } }
    exec (.spdmGetVersion none m) s = s.goes ((at_ 1).spdmAnswer 0 [0x12, 0x13]) ∧
    (1 ≤ d.dict.spdmStage → exec (.spdmGetCapabilities none m) s = s.goes ((at_ 2).spdmAnswer 1)) ∧
    (2 ≤ d.dict.spdmStage → exec (.spdmNegotiateAlgorithms none m) s = s.goes ((at_ 3).spdmAnswer 2)) ∧
    (d.dict.spdmStage < 3 → ∀ z ∈ [(3, Instr.spdmGetDigests none m), (4, .spdmGetCertificate none m), (5, .spdmChallenge none m),
      (6, .spdmGetMeasurements none m), (7, .spdmKeyExchange none m), (12, .spdmChunkGet none m)],
      exec z.2 s = s.goes (d.spdmError z.1 0x04))) ∧
  (∀ (s : State) (ses : Option Nat) (m : SpdmMsg), s.dev.pathUp = true → m.supported = true →
    (ses = none ∧ 3 ≤ s.dev.dict.spdmStage) ∨ (∃ k < 4, ses = some k ∧ (s.dev.sess k).isOpen = true ∧ (s.dev.sess k).finished = true) →
    let d := s.dev
    exec (.spdmGetDigests ses m) s = s.goes (d.spdmAnswer 3 (Config.crypto 20 d.flash.active)) ∧
    exec (.spdmChunkGet ses m) s = s.goes (d.spdmAnswer 12 ((d.dict.chunk.drop m.offset).take m.length)) ∧
    (m.slot ≠ 0 → ∀ z ∈ [(4, Instr.spdmGetCertificate ses m), (5, .spdmChallenge ses m), (6, .spdmGetMeasurements ses m)],
      exec z.2 s = s.goes (d.spdmError z.1 0x01)) ∧
    (m.slot = 0 →
      exec (.spdmGetCertificate ses m) s = s.goes (({ d with dict := { d.dict with chunk := d.chain } } : Device).spdmAnswer 4
        ((d.chain.drop m.offset).take m.length)) ∧
      exec (.spdmChallenge ses m) s = s.goes (d.spdmAnswer 5 (Config.crypto 22 m.nonce.toNat)) ∧
      ∃ t, exec (.spdmGetMeasurements ses m) s = .next t ∧ t.dev.sec.attestCnt = d.sec.attestCnt + 1 ∧
        (∀ k, ses = some k → (t.dev.sess k).measured = some d.now) ∧ t.dev.dict.staging = d.dict.staging)) ∧
  (∀ (s : State) (m : SpdmMsg), s.dev.pathUp = true → m.supported = true → 3 ≤ s.dev.dict.spdmStage → m.slot = 0 →
    let d := s.dev
    (∀ k, lowest (fun k => !(d.sess k).isOpen) 4 = some k →
      let x := { Sess.reset with isOpen := true, operator := d.dict.roots.isEmpty || m.chainOk, beat := d.now, keyNum := 1 }
      let e := { d with dict := { d.dict with sessions := Table.set d.dict.sessions Sess.reset k x } }
      exec (.spdmKeyExchange none m) s = s.goes (e.spdmAnswer 7 [BitVec.ofNat 8 k])) ∧
    ((∀ k < 4, (d.sess k).isOpen = true) → exec (.spdmKeyExchange none m) s = s.goes (d.spdmError 7 0x0A))) ∧
  (∀ (s : State) (k : Nat) (m : SpdmMsg), k < 4 → s.dev.pathUp = true → m.supported = true → (s.dev.sess k).isOpen = true →
    let d := s.dev
    let x := d.sess k
    ((x.finished = false → m.proofOk = true →
      exec (.spdmFinish (some k) m) s = s.goes ((d.modSess k fun x => { x with finished := true, beat := d.now }).spdmAnswer 8)) ∧
     (x.finished = false → m.proofOk = false → exec (.spdmFinish (some k) m) s = s.goes ((d.endSession k).spdmError 8 0x06))) ∧
    (x.finished = true →
      exec (.spdmHeartbeat (some k) m) s = s.goes ((d.modSess k fun x => { x with beat := d.now }).spdmAnswer 9) ∧
      (m.proofOk = true →
        exec (.spdmKeyUpdate (some k) m) s = s.goes ((d.modSess k fun x => { x with keyNum := x.keyNum + 1 }).spdmAnswer 10)) ∧
      ∃ t, exec (.spdmEndSession (some k) m) s = .next t ∧ (t.dev.sess k).isOpen = false ∧
        ∀ y ∈ t.dev.dict.staging, y ∈ d.dict.staging ∧ y.sess ≠ k)) ∧
  (∀ (s : State) (k : Nat), k < 4 → (s.dev.sess k).isOpen = true →
    ((s.dev.sess k).beat + 60000000000 ≤ s.dev.now → exec (.spdmHeartbeatMissed k) s = s.goes (s.dev.endSession k)) ∧
    (s.dev.now < (s.dev.sess k).beat + 60000000000 → exec (.spdmHeartbeatMissed k) s = .next s)) ∧
  (∀ (s : State) (m : SpdmMsg), s.dev.pathUp = true → m.supported = false →
    ∀ z ∈ [(0, Instr.spdmGetVersion none m), (1, .spdmGetCapabilities none m), (2, .spdmNegotiateAlgorithms none m),
      (3, .spdmGetDigests none m), (4, .spdmGetCertificate none m), (5, .spdmChallenge none m), (6, .spdmGetMeasurements none m),
      (7, .spdmKeyExchange none m), (12, .spdmChunkGet none m)], exec z.2 s = s.goes (s.dev.spdmError z.1 0x07)) ∧
  (∀ (s : State) (eid cmd : BitVec 8), s.dev.pathUp = true →
    let d := s.dev
    (eid ≠ 0 → eid ≠ 0xFF → exec (.mctpSetEndpointId eid) s =
      s.goes (({ d with dict := { d.dict with eid := eid } } : Device).emit (.mctp 1 0 [0, eid, 0]))) ∧
    exec .mctpGetEndpointId s = s.goes (d.emit (.mctp 2 0 [d.dict.eid, 0, 0])) ∧
    exec .mctpGetEndpointUuid s = s.goes (d.emit (.mctp 3 0 (Config.crypto 12 0))) ∧
    exec .mctpGetVersionSupport s = s.goes (d.emit (.mctp 4 0 (Config.crypto 13 0))) ∧
    exec .mctpGetMessageTypeSupport s = s.goes (d.emit (.mctp 5 0 [4, 0x00, 0x05, 0x06, 0x7E])) ∧
    exec (.mctpUnsupportedControl cmd) s = s.goes (d.emit (.mctp cmd.toNat 5 []))) ∧
  (∀ (s : State) (a : BitVec 7), s.dev.pathUp = true →
    (s.dev.dict.i3cAddr = none →
      let e := { s.dev with dict := { s.dev.dict with i3cAddr := some a } }
      exec (.i3cEntdaa a) s = s.goes e ∧ exec (.i3cSetdasa a) s = s.goes e) ∧
    (s.dev.dict.i3cAddr ≠ none → exec (.i3cEntdaa a) s = .next s ∧ exec (.i3cSetdasa a) s = .next s))

/-! ### The firmware store -/

/-- R505 to R513: a good line goes to the prefetch buffer, a jump's line to the branch cache, and two bad reads stop execution;
a program clears the bits of its units and is refused over a clear bit; an erase clears its block's bits and sets them when it
ends; 500 ms, or 64 suspends, enter FORCED mode; a failure is logged and retried once on a spare block; a marked block moves to
a spare block; the log takes its entry. -/
def Obligations.FlashResults : Prop :=
  (∀ (s : State) (l : Nat) (a b : LineCheck), l < 2 ^ 18 → s.dev.flashUp = true → s.dev.flash.stopped = false →
    s.dev.flash.forced = false → s.dev.flash.line ≠ some l →
    (Device.lineBad a = false → ∃ t, exec (.flashLineRead l a b) s = .next t ∧ t.dev.flash.line = some l ∧ t.dev.flash.stopped = false ∧
      (s.dev.flash.line.map (· + 1) = some l → t.dev.flash.branches = s.dev.flash.branches) ∧
      (s.dev.flash.line.map (· + 1) ≠ some l →
        t.dev.flash.branches = (l :: s.dev.flash.branches.filter (· != l)).take 32)) ∧
    (Device.lineBad a = true → Device.lineBad b = true →
      ∃ t, exec (.flashLineRead l a b) s = .next t ∧ t.dev.flash.stopped = true ∧ t.dev.flash.line = s.dev.flash.line) ∧
    (s.dev.flash.erase ≠ .idle → s.dev.flash.susp = false → ∃ t, exec (.flashLineRead l a b) s = .next t ∧
      t.dev.flash.suspCnt = min 64 (s.dev.flash.suspCnt + 1) ∧ (63 ≤ s.dev.flash.suspCnt → t.dev.flash.forced = true))) ∧
  (∀ (s : State) (u : Nat) (x : List Byte), u < 2 ^ 20 → s.dev.flashUp = true → Device.programs u x = true →
    let f := s.dev.flash
    let m := unitMask (u % 1024) (x.length / 64)
    let map := Table.get f.erased 0 (physBlock f (u / 1024))
    (f.prog ≠ .idle ∨ f.forced = true ∨ f.progQueue ≠ [] → exec (.flashProgram u x) s =
      s.goes { s.dev with flash := { f with progQueue := f.progQueue ++ [(u, x)] } }) ∧
    (f.prog = .idle → f.forced = false → f.progQueue = [] →
      (map &&& m ≠ m → exec (.flashProgram u x) s = s.goes { s.dev with flash := { f with neCnt := satNat 16 (f.neCnt + 1) } }) ∧
      (map &&& m = m → f.erase = .idle → ∃ t, exec (.flashProgram u x) s = .next t ∧ t.dev.flash.prog = .program u x false ∧
        Table.get t.dev.flash.erased 0 (physBlock f (u / 1024)) = map &&& ~~~ m ∧ t.dev.out = s.dev.out ++ [.flashProgram u x]))) ∧
  (∀ (s : State) (u : Nat) (x : List Byte) (again : Bool), s.dev.flash.prog = .program u x again →
    (s.dev.flash.progQueue = [] → s.dev.flash.eraseQueue = [] →
      exec (.flashProgramComplete true) s = s.goes { s.dev with flash := { s.dev.flash with prog := .idle, susp := false } }) ∧
    (again = false → 0 < s.dev.flash.spares →
      ∃ t, exec (.flashProgramComplete false) s = .next t ∧ t.dev.flash.prog = .program u x true ∧
        t.dev.flash.verifyCnt = satNat 16 (s.dev.flash.verifyCnt + 1) ∧ t.dev.flash.spares = s.dev.flash.spares - 1 ∧
        physBlock s.dev.flash (u / 1024) ∈ t.dev.flash.retired)) ∧
  (∀ (s : State) (b : Nat), b < 1024 → s.dev.flashUp = true →
    (s.dev.flash.prog ≠ .idle ∨ s.dev.flash.erase ≠ .idle → exec (.flashErase b) s =
      s.goes { s.dev with flash := { s.dev.flash with eraseQueue := s.dev.flash.eraseQueue ++ [b] } }) ∧
    (s.dev.flash.prog = .idle → s.dev.flash.erase = .idle →
      Table.get s.dev.flash.erases 0 (physBlock s.dev.flash b) < s.dev.cal.endurance →
      let p := physBlock s.dev.flash b
      ∃ t, exec (.flashErase b) s = .next t ∧ t.dev.flash.erase = .erase b s.dev.now false ∧ Table.get t.dev.flash.erased 0 p = 0 ∧
        Table.get t.dev.flash.erases 0 p = Table.get s.dev.flash.erases 0 p + 1 ∧ t.dev.out = s.dev.out ++ [.flashErase b])) ∧
  (∀ (s : State) (b t0 : Nat) (again : Bool), s.dev.flash.erase = .erase b t0 again →
    (s.dev.flash.susp = false → s.dev.flash.progQueue = [] → s.dev.flash.eraseQueue = [] →
      ∃ t, exec (.flashEraseComplete true) s = .next t ∧ t.dev.flash.erase = .idle ∧ t.dev.flash.forced = false ∧
        Table.get t.dev.flash.erased 0 (physBlock s.dev.flash b) = BitVec.allOnes 1024) ∧
    (s.dev.flash.susp = false → again = false → 0 < s.dev.flash.spares → 0 < s.dev.cal.endurance → s.dev.flash.erases = [] →
      ∃ t, exec (.flashEraseComplete false) s = .next t ∧ t.dev.flash.erase = .erase b s.dev.now true ∧
        physBlock s.dev.flash b ∈ t.dev.flash.retired) ∧
    (t0 + 500000000 ≤ s.dev.now → exec .flashForcedTimer s = s.goes { s.dev with flash := { s.dev.flash with forced := true } })) ∧
  (∀ (s : State) (b : Nat), b < 1024 → s.dev.flashUp = true → s.dev.flash.marked.contains b = true → Device.underErase s.dev.flash b = false →
    (s.dev.flash.spares = 0 → exec (.flashRelocate b true) s = s.goes { s.dev with flash := { s.dev.flash with worn := true } }) ∧
    (0 < s.dev.flash.spares → ∃ t, exec (.flashRelocate b true) s = .next t ∧ t.dev.flash.spares = s.dev.flash.spares - 1 ∧
      b ∉ t.dev.flash.marked ∧ physBlock t.dev.flash b = 656 + (368 - s.dev.flash.spares))) ∧
  (∀ (s : State) (code : Code) (x : W64), s.dev.flashUp = true → s.dev.flash.worn = false → s.dev.flash.log.length < 131072 →
    exec (.flashLogEntry code x) s = s.goes { s.dev with flash :=
      { s.dev.flash with log := s.dev.flash.log ++ [(s.dev.now, s.dev.tally.epoch, code, x)] } })

/-! ### The Tally, the calendar and the start -/

/-- R28 to R34, R45, R47, R48, R50, R516 to R519: a good frame of source 0 sets or steers the Tally and locks it, a third bad
one or a lost clock puts it into holdover; an offset of more than 1 ms steps it forward, any other is trimmed; the calendar and
its anchors; PTP; a power-on reset keeps the fuses and the epoch, and a cold start advances the epoch and ends with READY. -/
def Obligations.TallyAndStartResults : Prop :=
  (∀ (s : State) (f : BitVec 80) (edges : Nat), s.dev.tallyUp = true → s.dev.tally.src = 0 →
    let rate := if s.dev.tally.hz = 0 then s.dev.tally.rate else rateOf s.dev.tally.hz
    let ref : Nat := bits f 71 8 * rate.toNat / 2 ^ 32 % 2 ^ 64
    (tcGood f = true → s.dev.tally.running = false → ∃ t, exec (.tcSerFrame f edges) s = .next t ∧ t.dev.now = ref ∧
      t.dev.tally.running = true ∧ t.dev.tally.state = .locked ∧ t.dev.tally.anchTally = ref) ∧
    (tcGood f = true → s.dev.tally.running = true →
      ∃ t, exec (.tcSerFrame f edges) s = .next t ∧ t.dev.tally.state = .locked ∧ t.dev.tally.badRow = 0 ∧
        (s.dev.now + 1000000 < ref → t.dev.now = ref ∧ t.dev.tally.stepCnt = s.dev.tally.stepCnt + 1) ∧
        (ref ≤ s.dev.now + 1000000 → t.dev.now = s.dev.now ∧ t.dev.tally.trim.natAbs ≤ 500 ∧
          (s.dev.now < ref → 0 < t.dev.tally.trim) ∧ (ref < s.dev.now → t.dev.tally.trim < 0))) ∧
    (tcGood f = false → ∃ t, exec (.tcSerFrame f edges) s = .next t ∧ t.dev.tally.frameErr = satInc s.dev.tally.frameErr ∧
      t.dev.now = s.dev.now ∧ (2 ≤ s.dev.tally.badRow → s.dev.tally.running = true → t.dev.tally.state = .holdover)) ∧
    (s.dev.tally.running = true → exec .tcClkLoss s = s.goes s.dev.enterHoldover) ∧
    (s.dev.tally.running = false → exec .tallyStartTimeout s = s.goes (s.dev.startTally 0) ∧ (s.dev.startTally 0).now = 0 ∧
      (s.dev.startTally 0).tally.running = true ∧ (s.dev.startTally 0).tally.anchTally = 0)) ∧
  (∀ (s : State), (100000000 < s.dev.tally.backward → exec .tallyDiverged s = s.goes (s.dev.platform 0x0707)) ∧
    (s.dev.tally.backward ≤ 100000000 → exec .tallyDiverged s = .next s) ∧
    (s.dev.tally.running = true → exec .calendarAnchor s = s.goes s.dev.anchor) ∧
    exec .vbatCalLoss s = s.goes
      { s.dev with tally := { s.dev.tally with cal := 0, calRem := 0, calValid := false, calLost := true, calSet := none } } ∧
    exec .tlyNowLowRead s = s.goes
      { s.dev with tally := { s.dev.tally with hiLatch := BitVec.ofNat 32 (s.dev.now / 2 ^ 32) } }) ∧
  (∀ (s : State) (m : PtpMsg), s.dev.tallyUp = true → s.dev.tally.src = 1 →
    (m.supported = false → ∀ i ∈ [Instr.ptpSync m, .ptpFollowUp m, .ptpDelayResp m, .ptpAnnounce m], exec i s = s.goes
      (s.dev.modPort 0 fun p => { p with ptpDrop := p.ptpDrop + 1 })) ∧
    (m.supported = true → m.domain = s.dev.tally.ptpDomain → s.dev.tally.ptpSource = some m.source →
      (m.twoStep = true → exec (.ptpSync m) s =
        s.goes { s.dev with tally := { s.dev.tally with ptpSync := some (m.seqId, m.local_.toNat, m.correction) } }) ∧
      (m.twoStep = false → exec (.ptpSync m) s = s.goes (s.dev.syncAccepted (m.stamp.toNat + m.correction) m.local_.toNat)) ∧
      (∀ at_ corr, s.dev.tally.ptpSync = some (m.seqId, at_, corr) →
        exec (.ptpFollowUp m) s = s.goes (s.dev.syncAccepted (m.stamp.toNat + (corr + m.correction)) at_)) ∧
      (∀ t1 t2, s.dev.tally.ptpLast = some (t1, t2) → s.dev.tally.running = true →
        let back : Int := (t2 : Int) - t1
        let off : Int := (back + ((m.stamp.toNat : Int) - m.correction - m.reqSent.toNat)) / 2 - back
        ∃ t, exec (.ptpDelayResp m) s = .next t ∧
          (1000000 < off → t.dev.now = s.dev.now + off.toNat ∧ t.dev.tally.state = .locked) ∧
          (off ≤ 1000000 → t.dev.now = s.dev.now ∧ (t.dev.tally.state = .locked ↔ off.natAbs ≤ 1000)) ∧
          (t.dev.tally.state = .locked → t.dev.tally.errBnd.toNat ≤ 40 + 25 * s.dev.tally.ptpHops)) ∧
      ∃ t, exec (.ptpAnnounce m) s = .next t ∧ t.dev.tally.ptpSource = some m.source ∧ t.dev.tally.utcValid = m.utcValid ∧
        t.dev.tally.utcOffset = m.utcOffset) ∧
    (s.dev.tally.ptpSource.isSome = true → s.dev.tally.state ≠ .holdover →
      (∃ t, exec .ptpAnnounceTimeout s = .next t ∧ t.dev.tally.state = .holdover ∧ t.dev.tally.ptpSource = none ∧
        t.dev.tally.errBnd = 0xFFFFFFFF) ∧
      ∃ t, exec .ptpSyncTimeout s = .next t ∧ t.dev.tally.state = .holdover ∧ t.dev.tally.ptpLast = none)) ∧
  (∀ (s : State) (m : PtpMsg), s.dev.servesTime = true →
    (m.supported = true → m.domain = s.dev.tally.ptpDomain → exec (.ptpDelayReq m) s = s.goes (s.dev.emit (.ptpDelayResp m.local_.toNat))) ∧
    exec .ptpTimeTransmit s = s.goes (((s.dev.emit .ptpAnnounce).emit .ptpSync).emit (.ptpFollowUp s.dev.now))) ∧
  (∀ (s : State), ∃ t, exec .powerOnResetAssert s = .next t ∧ t.dev.fuse = s.dev.fuse ∧ t.dev.tally.epoch = s.dev.tally.epoch ∧
    t.dev.now = 0 ∧ t.dev.boot.released = false ∧ t.dev.glb.ready = false ∧ t.dev.power.vreq = 0x78 ∧ t.dev.cores = [] ∧
    t.dev.slices = [] ∧ t.dev.jobs = [] ∧ t.dev.tally.cal = s.dev.tally.cal) ∧
  (∀ (s : State) (b : BootReport), s.dev.boot.released = false →
    (b.sfdpOk = false ∨ b.calOk = false → ∃ t, exec (.coldStart b) s = .next t ∧ t.dev.boot.released = true ∧ t.dev.boot.stage = 2 ∧
      t.dev.boot.fail = true ∧ t.dev.tally.epoch = s.dev.tally.epoch) ∧
    (b.sfdpOk = true → b.calOk = true →
      (b.imageA = false → b.imageB = false → ∃ t, exec (.coldStart b) s = .next t ∧ t.dev.boot.stage = 9 ∧ t.dev.boot.fail = true ∧
        t.dev.boot.code = 0x0906 ∧ t.dev.tally.epoch = (s.dev.tally.epoch + 1) % 2 ^ 32) ∧
      (b.imageA = true → b.imageB = true → s.dev.flash.bootSlot ≤ 1 →
        ∃ t, exec (.coldStart b) s = .next t ∧ t.dev.boot.stage = 8 ∧ t.dev.flash.active = s.dev.flash.bootSlot ∧
          t.dev.tally.epoch = (s.dev.tally.epoch + 1) % 2 ^ 32 ∧ t.dev.boot.fallback = false ∧
          (b.entropyOk = true → t.dev.sec.seedNum = s.dev.sec.seedNum + 1)))) ∧
  (∀ (s : State) (ms : W32), s.dev.boot.released = true → s.dev.boot.stage = 8 → s.dev.glb.devState = 0 →
    s.dev.resets.devAsked = none → s.dev.trained = true → s.dev.resets.devOos = false →
    ∃ t, exec (.coldStartReady ms) s = .next t ∧ t.dev.glb.ready = true ∧ t.dev.glb.devState = 1 ∧ t.dev.boot.cold = ms)

/-- R40: a one-shot slot clears ARMED when it fires. A periodic slot that fires at Tally T takes CMP + k × PER for its compare
value, k the least integer of at least 1 for which that exceeds T, and MISS takes k − 1, at most 255. LATE tells whether it was
armed with a value already past. No other slot changes. A HOST_EVENT alarm fires so. -/
def Obligations.AlarmFiringRule : Prop :=
  (∀ (d : Device) (n : Nat),
    let a := d.alarm n
    (a.periodic = false → ∃ m, (d.fired n).alarm n = { a with armed := false, miss := m, late := a.past, past := false, due := none }) ∧
    (a.periodic = true → 0 < a.per → a.cmp ≤ d.now →
      ∃ k, 1 ≤ k ∧ d.now < a.cmp + k * a.per ∧ (∀ j, 1 ≤ j → j < k → a.cmp + j * a.per ≤ d.now) ∧
        (d.fired n).alarm n =
          { a with cmp := a.cmp + k * a.per, miss := min 255 (k - 1), late := a.past, past := false, due := none }) ∧
    (∀ m, m ≠ n → (d.fired n).alarm m = d.alarm m)) ∧
  (∀ (s : State) (slot : Nat), slot < 256 → s.dev.fires slot 6 = true →
    ∃ t, exec (.hostEvent slot) s = .next t ∧ t.dev.alarm slot = (s.dev.fired slot).alarm slot)

/-! ### The whole block -/

/-- A step runs the command at the front of the queue with the queue's rest. On an empty queue one period of the Tally clock
passes, which is the model's choice (log entry 1). -/
def Obligations.StepRule : Prop :=
  (∀ (c : Instr) (s : State), step { s with pending := c :: s.pending } = exec c s) ∧
  (∀ d : Device, step { dev := d, pending := [] } = .next { dev := tick d, pending := [] })

/-- Every command whose units the full configuration has completes in every state and leaves the queue as it is; a command that
names a unit which no configuration has faults. That such a command faults is the model's choice (log entry 2). -/
def Obligations.CompletionRule : Prop :=
  ∀ (c : Instr) (s : State), (c.wf = true → ∃ t, exec c s = .next t ∧ t.pending = s.pending) ∧
    (c.wf = false → exec c s = .fault .absentUnit)

/-- R25, R27, R45, R519: whatever a step does, the fuses and the factory's data stand, what has left the block stays in the order in
which it left, the memories keep their canonical form, and a Tally that has not started reads 0; and unless the step was a power-on
reset or a cold start, the epoch stands and the Tally does not go back. -/
def Obligations.EveryStepKeeps : Prop :=
  ∀ s t : State, step s = .next t → Device.Kept s.dev t.dev ∧ t.pending = s.pending.tail ∧
    ((∀ c ∈ s.pending.head?, c ≠ .powerOnResetAssert ∧ ∀ b, c ≠ .coldStart b) → Device.Later s.dev t.dev)

/-- R434, R435, R516, R517, R519, Tables 2.6, 12.9, 13.5, 13.6, 18.1: after a power-on reset nothing waits, the Tally reads 0
and does not run, its source is 0 and being acquired, the memories list nothing and are in their form, the fabric is not READY,
the regulator is asked for 0.600 V, and the registers named read as the spec's tables give; Paddock 0 holds every present core
pair and every channel pair. -/
def Obligations.ResetState : Prop :=
  let d := State.reset.dev
  State.reset.pending = [] ∧ d.memWf = true ∧ d.tallyOk = true ∧ d.now = 0 ∧ d.tally.running = false ∧ d.tally.src = 0 ∧
  d.tally.state = .acquiring ∧ d.tally.rate = 0x0000000100000000 ∧ d.tally.errBnd = 0xFFFFFFFF ∧ d.glb.ready = false ∧
  d.glb.devState = 0 ∧ d.pwrStep = 0xF0 ∧ d.power.ctl = 0x0032F0C0 ∧ d.power.vreq = 0x78 ∧ d.power.thermWarn = 95 ∧
  d.power.alert = false ∧ d.power.crit = false ∧ d.links.ctl = 0x000A001A ∧ d.links.dport = 47102 ∧ d.resets.hangMs = 100 ∧
  (∀ c, (d.slice c).data = [] ∧ (d.slice c).patrol = true ∧ (d.slice c).audit = false) ∧ (∀ n, (d.chan n).lines = []) ∧
  (∀ n, (d.alarm n).armed = false) ∧ (∀ n, (d.ring n).en = false) ∧ (∀ st, (d.stall st).state = .free) ∧
  (d.layout 0).corePairs = fusedPairs d.fuse ∧ (d.layout 0).chanPairs = 0xFF ∧ (d.layout 0).present = true ∧
  ∀ p, p ≠ 0 → (d.layout p).present = false

/-- What a command of the Tally, the rings, the power controller's decisions, the management path or the firmware store leaves
unchanged: all that jobs compute with and all that the host has placed, and the queue of commands. -/
def Obligations.ShepherdFrame : Prop :=
  ∀ (c : Instr) (s t : State), shepherdRow c = true → exec c s = .next t → Device.SameWork s.dev t.dev ∧ t.pending = s.pending
end

