-- ==== Sys2Proof/Laws/Table.lean ====
section
/-! SUPPORT. Sparse tables: reading after writing, and the canonical form that every operation keeps. -/

namespace Sys2Proof

variable {α : Type}

theorem Table.get_erase (t : Table α) (d : α) (i j : Nat) :
    Table.get (Table.erase t i) d j = if i = j then d else Table.get t d j := by
  induction t with
  | nil => simp [Table.erase, Table.get]
  | cons kv r ih =>
    obtain ⟨k, v⟩ := kv
    simp only [Table.erase]
    split
    · next h => subst h; rw [ih]; split <;> simp_all [Table.get]
    · next h =>
      simp only [Table.get, ih]
      by_cases hk : k = j
      · have : ¬ i = j := fun e => h (hk.trans e.symm)
        simp [hk, this]
      · simp [hk]

theorem Table.get_insert (t : Table α) (d v : α) (i j : Nat) (h : ∀ w, (i, w) ∉ t) :
    Table.get (Table.insert t i v) d j = if i = j then v else Table.get t d j := by
  induction t with
  | nil => simp [Table.insert, Table.get]
  | cons kv r ih =>
    obtain ⟨k, w⟩ := kv
    have hk : k ≠ i := by rintro rfl; exact h w (by simp)
    have hr : ∀ w, (i, w) ∉ r := fun w' hw => h w' (List.mem_cons_of_mem _ hw)
    simp only [Table.insert]
    split
    · simp [Table.get]
    · simp only [Table.get, ih hr]; split <;> simp_all

theorem Table.mem_erase {t : Table α} {i : Nat} {kv : Nat × α} : kv ∈ Table.erase t i ↔ kv ∈ t ∧ kv.1 ≠ i := by
  induction t with
  | nil => simp [Table.erase]
  | cons x r ih =>
    obtain ⟨k, v⟩ := x
    simp only [Table.erase]
    split
    · next h => subst h; rw [ih]; constructor
                · rintro ⟨h1, h2⟩; exact ⟨List.mem_cons_of_mem _ h1, h2⟩
                · rintro ⟨h1, h2⟩
                  rcases List.mem_cons.mp h1 with rfl | h1
                  · exact absurd rfl h2
                  · exact ⟨h1, h2⟩
    · next h =>
      rw [List.mem_cons, ih, List.mem_cons]
      constructor
      · rintro (rfl | ⟨h1, h2⟩)
        · exact ⟨.inl rfl, h⟩
        · exact ⟨.inr h1, h2⟩
      · rintro ⟨rfl | h1, h2⟩
        · exact .inl rfl
        · exact .inr ⟨h1, h2⟩

theorem Table.mem_insert {t : Table α} {i : Nat} {v : α} {kv : Nat × α} :
    kv ∈ Table.insert t i v ↔ kv = (i, v) ∨ kv ∈ t := by
  induction t with
  | nil => simp [Table.insert]
  | cons x r ih =>
    obtain ⟨k, w⟩ := x
    simp only [Table.insert]
    split
    · simp
    · rw [List.mem_cons, ih, List.mem_cons]; tauto

@[simp] theorem Table.get_put_same (t : Table α) (d v : α) (i : Nat) : Table.get (Table.put t i v) d i = v := by
  rw [Table.put, Table.get_insert _ _ _ _ _ (by simp [Table.mem_erase])]; simp

theorem Table.get_put_ne (t : Table α) (d v : α) {i j : Nat} (h : i ≠ j) :
    Table.get (Table.put t i v) d j = Table.get t d j := by
  rw [Table.put, Table.get_insert _ _ _ _ _ (by simp [Table.mem_erase]), if_neg h, Table.get_erase, if_neg h]

theorem Table.find_erase (t : Table α) (i j : Nat) :
    Table.find (Table.erase t i) j = if i = j then none else Table.find t j := by
  induction t with
  | nil => simp [Table.erase, Table.find]
  | cons kv r ih =>
    obtain ⟨k, v⟩ := kv
    simp only [Table.erase]
    split
    · next h => subst h; rw [ih]; split <;> simp_all [Table.find]
    · next h =>
      simp only [Table.find, ih]
      by_cases hk : k = j
      · have : ¬ i = j := fun e => h (hk.trans e.symm)
        simp [hk, this]
      · simp [hk]

theorem Table.find_insert (t : Table α) (v : α) (i j : Nat) (h : ∀ w, (i, w) ∉ t) :
    Table.find (Table.insert t i v) j = if i = j then some v else Table.find t j := by
  induction t with
  | nil => simp [Table.insert, Table.find]
  | cons kv r ih =>
    obtain ⟨k, w⟩ := kv
    have hk : k ≠ i := by rintro rfl; exact h w (by simp)
    have hr : ∀ w, (i, w) ∉ r := fun w' hw => h w' (List.mem_cons_of_mem _ hw)
    simp only [Table.insert]
    split
    · simp [Table.find]
    · simp only [Table.find, ih hr]; split <;> simp_all

/-- Finding entry `j` after listing entry `i`. -/
theorem Table.find_put (t : Table α) (v : α) (i j : Nat) :
    Table.find (Table.put t i v) j = if i = j then some v else Table.find t j := by
  rw [Table.put, Table.find_insert _ _ _ _ (by simp [Table.mem_erase]), Table.find_erase]
  split <;> rfl

@[simp] theorem Table.find_put_same (t : Table α) (v : α) (i : Nat) : Table.find (Table.put t i v) i = some v := by
  simp [Table.find_put]
@[simp] theorem Table.find_nil (i : Nat) : Table.find ([] : Table α) i = none := rfl

/-- Reading entry `j` after writing entry `i`. -/
theorem Table.get_set [DecidableEq α] (t : Table α) (d v : α) (i j : Nat) :
    Table.get (Table.set t d i v) d j = if i = j then v else Table.get t d j := by
  unfold Table.set
  split
  · next h => rw [Table.get_erase, h]
  · split
    · next h => subst h; simp
    · next h => exact Table.get_put_ne _ _ _ h

@[simp] theorem Table.get_set_same [DecidableEq α] (t : Table α) (d v : α) (i : Nat) :
    Table.get (Table.set t d i v) d i = v := by simp [Table.get_set]

theorem Table.get_set_ne [DecidableEq α] (t : Table α) (d v : α) {i j : Nat} (h : i ≠ j) :
    Table.get (Table.set t d i v) d j = Table.get t d j := by simp [Table.get_set, h]

@[simp] theorem Table.get_nil (d : α) (i : Nat) : Table.get ([] : Table α) d i = d := rfl

/-! ### Rising numbers -/

/-- Every number of the table is above `lo`. -/
def Table.Above (lo : Option Nat) (t : Table α) : Prop := ∀ kv ∈ t, ∀ l, lo = some l → l < kv.1

theorem Table.rising_iff (t : Table α) (lo : Option Nat) :
    Table.risingFrom t lo = true ↔ Table.Above lo t ∧ t.Pairwise fun x y => x.1 < y.1 := by
  induction t generalizing lo with
  | nil => simp [Table.risingFrom, Table.Above]
  | cons kv r ih =>
    obtain ⟨k, v⟩ := kv
    simp only [Table.risingFrom, Bool.and_eq_true, ih, List.pairwise_cons, Table.Above, List.mem_cons, forall_eq_or_imp]
    constructor
    · rintro ⟨h1, h2, h3⟩
      refine ⟨⟨?_, ?_⟩, ?_, h3⟩
      · rintro l rfl; simpa using h1
      · rintro kv hkv l rfl
        have := h2 kv hkv k rfl
        have h1 : l < k := by simpa using h1
        omega
      · exact fun kv hkv => h2 kv hkv k rfl
    · rintro ⟨⟨h1, h2⟩, h3, h4⟩
      refine ⟨?_, ?_, h4⟩
      · cases lo with
        | none => rfl
        | some l => simpa using h1 l rfl
      · rintro kv hkv l ⟨⟩; exact h3 kv hkv

theorem Table.rising_none (t : Table α) :
    Table.risingFrom t none = true ↔ t.Pairwise fun x y => x.1 < y.1 := by
  rw [Table.rising_iff]; simp [Table.Above]

theorem Table.erase_sublist (t : Table α) (i : Nat) : (Table.erase t i).Sublist t := by
  induction t with
  | nil => exact .slnil
  | cons kv r ih =>
    obtain ⟨k, v⟩ := kv
    simp only [Table.erase]
    split
    · exact .cons _ ih
    · exact .cons_cons _ ih

theorem Table.pairwise_insert {t : Table α} {i : Nat} {v : α} (h : t.Pairwise fun x y => x.1 < y.1)
    (hi : ∀ kv ∈ t, kv.1 ≠ i) : (Table.insert t i v).Pairwise fun x y => x.1 < y.1 := by
  induction t with
  | nil => simp [Table.insert]
  | cons kv r ih =>
    obtain ⟨k, w⟩ := kv
    rw [List.pairwise_cons] at h
    have hk : k ≠ i := hi (k, w) (List.mem_cons_self ..)
    simp only [Table.insert]
    split
    · next hlt =>
      refine List.pairwise_cons.mpr ⟨?_, List.pairwise_cons.mpr h⟩
      intro kv hkv
      rcases List.mem_cons.mp hkv with rfl | hkv
      · exact hlt
      · exact lt_trans hlt (h.1 kv hkv)
    · next hge =>
      refine List.pairwise_cons.mpr ⟨?_, ih h.2 fun kv hkv => hi kv (List.mem_cons_of_mem _ hkv)⟩
      intro kv hkv
      rcases Table.mem_insert.mp hkv with rfl | hkv
      · show k < i; omega
      · exact h.1 kv hkv

/-- The canonical form, said of the list. -/
theorem Table.wf_iff [DecidableEq α] (t : Table α) (d : α) :
    Table.wf t d = true ↔ (t.Pairwise fun x y => x.1 < y.1) ∧ ∀ kv ∈ t, kv.2 ≠ d := by
  simp [Table.wf, Table.rising_none]

@[simp] theorem Table.wf_nil [DecidableEq α] (d : α) : Table.wf ([] : Table α) d = true := rfl

theorem Table.wf_sublist [DecidableEq α] {t u : Table α} {d : α} (h : t.Sublist u) (hu : Table.wf u d = true) :
    Table.wf t d = true := by
  rw [Table.wf_iff] at *
  exact ⟨hu.1.sublist h, fun kv hkv => hu.2 kv (h.subset hkv)⟩

theorem Table.wf_erase [DecidableEq α] {t : Table α} {d : α} (i : Nat) (h : Table.wf t d = true) :
    Table.wf (Table.erase t i) d = true := Table.wf_sublist (Table.erase_sublist t i) h

/-- A write keeps the canonical form. -/
theorem Table.wf_set [DecidableEq α] {t : Table α} {d : α} (i : Nat) (v : α) (h : Table.wf t d = true) :
    Table.wf (Table.set t d i v) d = true := by
  unfold Table.set
  split
  · exact Table.wf_erase i h
  · next hv =>
    have he := (Table.wf_iff _ _).mp (Table.wf_erase i h)
    refine (Table.wf_iff _ _).mpr ⟨Table.pairwise_insert he.1 fun kv hkv => (Table.mem_erase.mp hkv).2, ?_⟩
    intro kv hkv
    rcases Table.mem_insert.mp hkv with rfl | hkv
    · exact hv
    · exact he.2 kv hkv

theorem Table.wf_keep [DecidableEq α] {t : Table α} {d : α} (p : Nat → α → Bool) (h : Table.wf t d = true) :
    Table.wf (Table.keep t p) d = true := Table.wf_sublist List.filter_sublist h

theorem Table.wf_mapAll [DecidableEq α] {t : Table α} {d : α} (f : α → α) (h : Table.wf t d = true) :
    Table.wf (Table.mapAll t d f) d = true := by
  rw [Table.wf_iff] at *
  constructor
  · refine List.Pairwise.sublist List.filter_sublist ?_
    rw [List.pairwise_map]; exact h.1
  · intro kv hkv; simpa using (List.mem_filter.mp hkv).2

theorem Table.all_set [DecidableEq α] {t : Table α} {d : α} {i : Nat} {v : α} {p : Nat × α → Bool}
    (h : t.all p = true) (hv : p (i, v) = true) : (Table.set t d i v).all p = true := by
  rw [List.all_eq_true] at *
  intro kv hkv
  unfold Table.set at hkv
  split at hkv
  · exact h kv (Table.mem_erase.mp hkv).1
  · rcases Table.mem_insert.mp hkv with rfl | hkv
    · exact hv
    · exact h kv (Table.mem_erase.mp hkv).1

/-- A listed entry, or the default: what holds of both holds of what a number reads as. -/
theorem Table.get_all {t : Table α} {d : α} {p : α → Bool} (i : Nat) (h : t.all (fun kv => p kv.2) = true) (hd : p d = true) :
    p (Table.get t d i) = true := by
  induction t with
  | nil => exact hd
  | cons kv r ih =>
    obtain ⟨k, v⟩ := kv
    simp only [List.all_cons, Bool.and_eq_true] at h
    simp only [Table.get]
    split
    · exact h.1
    · exact ih h.2

end Sys2Proof
end

