-- ==== Sys2Proof/Laws/Regs.lean ====
section
/-! SUPPORT. What the operations on a core's registers leave, and what reads of a register give after a write. -/

namespace Sys2Proof.Machine
namespace Sequencer

variable (q : Sequencer)

@[simp] theorem advance_s (b : Nat) (l : List Loop) : (q.advance b l).s = q.s := by
  induction l with
  | nil => rfl
  | cons x r ih => unfold advance; split <;> (try split) <;> first | exact ih | rfl
@[simp] theorem advance_a (b : Nat) (l : List Loop) : (q.advance b l).a = q.a := by
  induction l with
  | nil => rfl
  | cons x r ih => unfold advance; split <;> (try split) <;> first | exact ih | rfl
@[simp] theorem advance_v (b : Nat) (l : List Loop) : (q.advance b l).v = q.v := by
  induction l with
  | nil => rfl
  | cons x r ih => unfold advance; split <;> (try split) <;> first | exact ih | rfl
@[simp] theorem advance_p (b : Nat) (l : List Loop) : (q.advance b l).p = q.p := by
  induction l with
  | nil => rfl
  | cons x r ih => unfold advance; split <;> (try split) <;> first | exact ih | rfl
@[simp] theorem advance_stat (b : Nat) (l : List Loop) : (q.advance b l).stat = q.stat := by
  induction l with
  | nil => rfl
  | cons x r ih => unfold advance; split <;> (try split) <;> first | exact ih | rfl
@[simp] theorem advance_resumed (b : Nat) (l : List Loop) : (q.advance b l).resumed = q.resumed := by
  induction l with
  | nil => rfl
  | cons x r ih => unfold advance; split <;> (try split) <;> first | exact ih | rfl
@[simp] theorem advance_preempt (b : Nat) (l : List Loop) : (q.advance b l).preempt = q.preempt := by
  induction l with
  | nil => rfl
  | cons x r ih => unfold advance; split <;> (try split) <;> first | exact ih | rfl
@[simp] theorem advance_trap (b : Nat) (l : List Loop) : (q.advance b l).trap = q.trap := by
  induction l with
  | nil => rfl
  | cons x r ih => unfold advance; split <;> (try split) <;> first | exact ih | rfl
@[simp] theorem advance_kerfCnt (b : Nat) (l : List Loop) : (q.advance b l).kerfCnt = q.kerfCnt := by
  induction l with
  | nil => rfl
  | cons x r ih => unfold advance; split <;> (try split) <;> first | exact ih | rfl
@[simp] theorem advance_kerfYield (b : Nat) (l : List Loop) : (q.advance b l).kerfYield = q.kerfYield := by
  induction l with
  | nil => rfl
  | cons x r ih => unfold advance; split <;> (try split) <;> first | exact ih | rfl
@[simp] theorem advance_kerfGap (b : Nat) (l : List Loop) : (q.advance b l).kerfGap = q.kerfGap := by
  induction l with
  | nil => rfl
  | cons x r ih => unfold advance; split <;> (try split) <;> first | exact ih | rfl
@[simp] theorem advance_kerfSkip (b : Nat) (l : List Loop) : (q.advance b l).kerfSkip = q.kerfSkip := by
  induction l with
  | nil => rfl
  | cons x r ih => unfold advance; split <;> (try split) <;> first | exact ih | rfl
@[simp] theorem advance_bundleCnt (b : Nat) (l : List Loop) : (q.advance b l).bundleCnt = q.bundleCnt := by
  induction l with
  | nil => rfl
  | cons x r ih => unfold advance; split <;> (try split) <;> first | exact ih | rfl
@[simp] theorem advance_sbPeak (b : Nat) (l : List Loop) : (q.advance b l).sbPeak = q.sbPeak := by
  induction l with
  | nil => rfl
  | cons x r ih => unfold advance; split <;> (try split) <;> first | exact ih | rfl
@[simp] theorem advance_imem (b : Nat) (l : List Loop) : (q.advance b l).imem = q.imem := by
  induction l with
  | nil => rfl
  | cons x r ih => unfold advance; split <;> (try split) <;> first | exact ih | rfl
@[simp] theorem advance_imemBad (b : Nat) (l : List Loop) : (q.advance b l).imemBad = q.imemBad := by
  induction l with
  | nil => rfl
  | cons x r ih => unfold advance; split <;> (try split) <;> first | exact ih | rfl
@[simp] theorem advance_qp (b : Nat) (l : List Loop) : (q.advance b l).qp = q.qp := by
  induction l with
  | nil => rfl
  | cons x r ih => unfold advance; split <;> (try split) <;> first | exact ih | rfl
@[simp] theorem advance_qt (b : Nat) (l : List Loop) : (q.advance b l).qt = q.qt := by
  induction l with
  | nil => rfl
  | cons x r ih => unfold advance; split <;> (try split) <;> first | exact ih | rfl
@[simp] theorem advance_qm (b : Nat) (l : List Loop) : (q.advance b l).qm = q.qm := by
  induction l with
  | nil => rfl
  | cons x r ih => unfold advance; split <;> (try split) <;> first | exact ih | rfl
@[simp] theorem advance_qc (b : Nat) (l : List Loop) : (q.advance b l).qc = q.qc := by
  induction l with
  | nil => rfl
  | cons x r ih => unfold advance; split <;> (try split) <;> first | exact ih | rfl
@[simp] theorem advance_claims (b : Nat) (l : List Loop) : (q.advance b l).claims = q.claims := by
  induction l with
  | nil => rfl
  | cons x r ih => unfold advance; split <;> (try split) <;> first | exact ih | rfl
@[simp] theorem advance_hold (b : Nat) (l : List Loop) : (q.advance b l).hold = q.hold := by
  induction l with
  | nil => rfl
  | cons x r ih => unfold advance; split <;> (try split) <;> first | exact ih | rfl
@[simp] theorem advance_num (b : Nat) (l : List Loop) : (q.advance b l).num = q.num := by
  induction l with
  | nil => rfl
  | cons x r ih => unfold advance; split <;> (try split) <;> first | exact ih | rfl
@[simp] theorem advance_gap (b : Nat) (l : List Loop) : (q.advance b l).gap = q.gap := by
  induction l with
  | nil => rfl
  | cons x r ih => unfold advance; split <;> (try split) <;> first | exact ih | rfl
@[simp] theorem advance_draining (b : Nat) (l : List Loop) : (q.advance b l).draining = q.draining := by
  induction l with
  | nil => rfl
  | cons x r ih => unfold advance; split <;> (try split) <;> first | exact ih | rfl
@[simp] theorem advance_skipped (b : Nat) (l : List Loop) : (q.advance b l).skipped = q.skipped := by
  induction l with
  | nil => rfl
  | cons x r ih => unfold advance; split <;> (try split) <;> first | exact ih | rfl
@[simp] theorem setQueue_s (sl : Slot) (l : List QInstr) : (q.setQueue sl l).s = q.s := by cases sl <;> rfl
@[simp] theorem setQueue_a (sl : Slot) (l : List QInstr) : (q.setQueue sl l).a = q.a := by cases sl <;> rfl
@[simp] theorem setQueue_v (sl : Slot) (l : List QInstr) : (q.setQueue sl l).v = q.v := by cases sl <;> rfl
@[simp] theorem setQueue_p (sl : Slot) (l : List QInstr) : (q.setQueue sl l).p = q.p := by cases sl <;> rfl
@[simp] theorem setQueue_loops (sl : Slot) (l : List QInstr) : (q.setQueue sl l).loops = q.loops := by cases sl <;> rfl
@[simp] theorem setQueue_pc (sl : Slot) (l : List QInstr) : (q.setQueue sl l).pc = q.pc := by cases sl <;> rfl
@[simp] theorem setQueue_stat (sl : Slot) (l : List QInstr) : (q.setQueue sl l).stat = q.stat := by cases sl <;> rfl
@[simp] theorem setQueue_resumed (sl : Slot) (l : List QInstr) : (q.setQueue sl l).resumed = q.resumed := by cases sl <;> rfl
@[simp] theorem setQueue_preempt (sl : Slot) (l : List QInstr) : (q.setQueue sl l).preempt = q.preempt := by cases sl <;> rfl
@[simp] theorem setQueue_trap (sl : Slot) (l : List QInstr) : (q.setQueue sl l).trap = q.trap := by cases sl <;> rfl
@[simp] theorem setQueue_kerfCnt (sl : Slot) (l : List QInstr) : (q.setQueue sl l).kerfCnt = q.kerfCnt := by cases sl <;> rfl
@[simp] theorem setQueue_kerfYield (sl : Slot) (l : List QInstr) : (q.setQueue sl l).kerfYield = q.kerfYield := by cases sl <;> rfl
@[simp] theorem setQueue_kerfGap (sl : Slot) (l : List QInstr) : (q.setQueue sl l).kerfGap = q.kerfGap := by cases sl <;> rfl
@[simp] theorem setQueue_kerfSkip (sl : Slot) (l : List QInstr) : (q.setQueue sl l).kerfSkip = q.kerfSkip := by cases sl <;> rfl
@[simp] theorem setQueue_bundleCnt (sl : Slot) (l : List QInstr) : (q.setQueue sl l).bundleCnt = q.bundleCnt := by cases sl <;> rfl
@[simp] theorem setQueue_sbPeak (sl : Slot) (l : List QInstr) : (q.setQueue sl l).sbPeak = q.sbPeak := by cases sl <;> rfl
@[simp] theorem setQueue_imem (sl : Slot) (l : List QInstr) : (q.setQueue sl l).imem = q.imem := by cases sl <;> rfl
@[simp] theorem setQueue_imemBad (sl : Slot) (l : List QInstr) : (q.setQueue sl l).imemBad = q.imemBad := by cases sl <;> rfl
@[simp] theorem setQueue_claims (sl : Slot) (l : List QInstr) : (q.setQueue sl l).claims = q.claims := by cases sl <;> rfl
@[simp] theorem setQueue_hold (sl : Slot) (l : List QInstr) : (q.setQueue sl l).hold = q.hold := by cases sl <;> rfl
@[simp] theorem setQueue_num (sl : Slot) (l : List QInstr) : (q.setQueue sl l).num = q.num := by cases sl <;> rfl
@[simp] theorem setQueue_gap (sl : Slot) (l : List QInstr) : (q.setQueue sl l).gap = q.gap := by cases sl <;> rfl
@[simp] theorem setQueue_draining (sl : Slot) (l : List QInstr) : (q.setQueue sl l).draining = q.draining := by cases sl <;> rfl
@[simp] theorem setQueue_skipped (sl : Slot) (l : List QInstr) : (q.setQueue sl l).skipped = q.skipped := by cases sl <;> rfl
@[simp] theorem issued_s (sl : Slot) : (q.issued sl).s = q.s := by
  unfold issued
  split
  · rfl
  · dsimp only; split <;> simp
@[simp] theorem issued_a (sl : Slot) : (q.issued sl).a = q.a := by
  unfold issued
  split
  · rfl
  · dsimp only; split <;> simp
@[simp] theorem issued_v (sl : Slot) : (q.issued sl).v = q.v := by
  unfold issued
  split
  · rfl
  · dsimp only; split <;> simp
@[simp] theorem issued_p (sl : Slot) : (q.issued sl).p = q.p := by
  unfold issued
  split
  · rfl
  · dsimp only; split <;> simp
@[simp] theorem issued_stat (sl : Slot) : (q.issued sl).stat = q.stat := by
  unfold issued
  split
  · rfl
  · dsimp only; split <;> simp
@[simp] theorem issued_resumed (sl : Slot) : (q.issued sl).resumed = q.resumed := by
  unfold issued
  split
  · rfl
  · dsimp only; split <;> simp
@[simp] theorem issued_preempt (sl : Slot) : (q.issued sl).preempt = q.preempt := by
  unfold issued
  split
  · rfl
  · dsimp only; split <;> simp
@[simp] theorem issued_trap (sl : Slot) : (q.issued sl).trap = q.trap := by
  unfold issued
  split
  · rfl
  · dsimp only; split <;> simp
@[simp] theorem issued_kerfCnt (sl : Slot) : (q.issued sl).kerfCnt = q.kerfCnt := by
  unfold issued
  split
  · rfl
  · dsimp only; split <;> simp
@[simp] theorem issued_kerfYield (sl : Slot) : (q.issued sl).kerfYield = q.kerfYield := by
  unfold issued
  split
  · rfl
  · dsimp only; split <;> simp
@[simp] theorem issued_kerfGap (sl : Slot) : (q.issued sl).kerfGap = q.kerfGap := by
  unfold issued
  split
  · rfl
  · dsimp only; split <;> simp
@[simp] theorem issued_kerfSkip (sl : Slot) : (q.issued sl).kerfSkip = q.kerfSkip := by
  unfold issued
  split
  · rfl
  · dsimp only; split <;> simp
@[simp] theorem issued_bundleCnt (sl : Slot) : (q.issued sl).bundleCnt = q.bundleCnt := by
  unfold issued
  split
  · rfl
  · dsimp only; split <;> simp
@[simp] theorem issued_sbPeak (sl : Slot) : (q.issued sl).sbPeak = q.sbPeak := by
  unfold issued
  split
  · rfl
  · dsimp only; split <;> simp
@[simp] theorem issued_imem (sl : Slot) : (q.issued sl).imem = q.imem := by
  unfold issued
  split
  · rfl
  · dsimp only; split <;> simp
@[simp] theorem issued_imemBad (sl : Slot) : (q.issued sl).imemBad = q.imemBad := by
  unfold issued
  split
  · rfl
  · dsimp only; split <;> simp
@[simp] theorem issued_claims (sl : Slot) : (q.issued sl).claims = q.claims := by
  unfold issued
  split
  · rfl
  · dsimp only; split <;> simp
@[simp] theorem issued_num (sl : Slot) : (q.issued sl).num = q.num := by
  unfold issued
  split
  · rfl
  · dsimp only; split <;> simp
@[simp] theorem issued_gap (sl : Slot) : (q.issued sl).gap = q.gap := by
  unfold issued
  split
  · rfl
  · dsimp only; split <;> simp
@[simp] theorem issued_draining (sl : Slot) : (q.issued sl).draining = q.draining := by
  unfold issued
  split
  · rfl
  · dsimp only; split <;> simp
@[simp] theorem issued_skipped (sl : Slot) : (q.issued sl).skipped = q.skipped := by
  unfold issued
  split
  · rfl
  · dsimp only; split <;> simp
@[simp] theorem retire_s (sl : Slot) : (q.retire sl).s = q.s := by
  unfold retire
  split
  · rfl
  · simp [release]
@[simp] theorem retire_a (sl : Slot) : (q.retire sl).a = q.a := by
  unfold retire
  split
  · rfl
  · simp [release]
@[simp] theorem retire_v (sl : Slot) : (q.retire sl).v = q.v := by
  unfold retire
  split
  · rfl
  · simp [release]
@[simp] theorem retire_p (sl : Slot) : (q.retire sl).p = q.p := by
  unfold retire
  split
  · rfl
  · simp [release]
@[simp] theorem retire_stat (sl : Slot) : (q.retire sl).stat = q.stat := by
  unfold retire
  split
  · rfl
  · simp [release]
@[simp] theorem retire_resumed (sl : Slot) : (q.retire sl).resumed = q.resumed := by
  unfold retire
  split
  · rfl
  · simp [release]
@[simp] theorem retire_preempt (sl : Slot) : (q.retire sl).preempt = q.preempt := by
  unfold retire
  split
  · rfl
  · simp [release]
@[simp] theorem retire_trap (sl : Slot) : (q.retire sl).trap = q.trap := by
  unfold retire
  split
  · rfl
  · simp [release]
@[simp] theorem retire_kerfCnt (sl : Slot) : (q.retire sl).kerfCnt = q.kerfCnt := by
  unfold retire
  split
  · rfl
  · simp [release]
@[simp] theorem retire_kerfYield (sl : Slot) : (q.retire sl).kerfYield = q.kerfYield := by
  unfold retire
  split
  · rfl
  · simp [release]
@[simp] theorem retire_kerfGap (sl : Slot) : (q.retire sl).kerfGap = q.kerfGap := by
  unfold retire
  split
  · rfl
  · simp [release]
@[simp] theorem retire_kerfSkip (sl : Slot) : (q.retire sl).kerfSkip = q.kerfSkip := by
  unfold retire
  split
  · rfl
  · simp [release]
@[simp] theorem retire_bundleCnt (sl : Slot) : (q.retire sl).bundleCnt = q.bundleCnt := by
  unfold retire
  split
  · rfl
  · simp [release]
@[simp] theorem retire_sbPeak (sl : Slot) : (q.retire sl).sbPeak = q.sbPeak := by
  unfold retire
  split
  · rfl
  · simp [release]
@[simp] theorem retire_imem (sl : Slot) : (q.retire sl).imem = q.imem := by
  unfold retire
  split
  · rfl
  · simp [release]
@[simp] theorem retire_imemBad (sl : Slot) : (q.retire sl).imemBad = q.imemBad := by
  unfold retire
  split
  · rfl
  · simp [release]
@[simp] theorem retire_num (sl : Slot) : (q.retire sl).num = q.num := by
  unfold retire
  split
  · rfl
  · simp [release]
@[simp] theorem retire_gap (sl : Slot) : (q.retire sl).gap = q.gap := by
  unfold retire
  split
  · rfl
  · simp [release]
@[simp] theorem retire_draining (sl : Slot) : (q.retire sl).draining = q.draining := by
  unfold retire
  split
  · rfl
  · simp [release]
@[simp] theorem retire_skipped (sl : Slot) : (q.retire sl).skipped = q.skipped := by
  unfold retire
  split
  · rfl
  · simp [release]
@[simp] theorem setSop_v (n : Nat) (v : W64) : (q.setSop n v).v = q.v := by
  unfold setSop
  split
  · split <;> rfl
  · rfl
@[simp] theorem setSop_p (n : Nat) (v : W64) : (q.setSop n v).p = q.p := by
  unfold setSop
  split
  · split <;> rfl
  · rfl
@[simp] theorem setSop_loops (n : Nat) (v : W64) : (q.setSop n v).loops = q.loops := by
  unfold setSop
  split
  · split <;> rfl
  · rfl
@[simp] theorem setSop_pc (n : Nat) (v : W64) : (q.setSop n v).pc = q.pc := by
  unfold setSop
  split
  · split <;> rfl
  · rfl
@[simp] theorem setSop_stat (n : Nat) (v : W64) : (q.setSop n v).stat = q.stat := by
  unfold setSop
  split
  · split <;> rfl
  · rfl
@[simp] theorem setSop_resumed (n : Nat) (v : W64) : (q.setSop n v).resumed = q.resumed := by
  unfold setSop
  split
  · split <;> rfl
  · rfl
@[simp] theorem setSop_preempt (n : Nat) (v : W64) : (q.setSop n v).preempt = q.preempt := by
  unfold setSop
  split
  · split <;> rfl
  · rfl
@[simp] theorem setSop_trap (n : Nat) (v : W64) : (q.setSop n v).trap = q.trap := by
  unfold setSop
  split
  · split <;> rfl
  · rfl
@[simp] theorem setSop_kerfCnt (n : Nat) (v : W64) : (q.setSop n v).kerfCnt = q.kerfCnt := by
  unfold setSop
  split
  · split <;> rfl
  · rfl
@[simp] theorem setSop_kerfYield (n : Nat) (v : W64) : (q.setSop n v).kerfYield = q.kerfYield := by
  unfold setSop
  split
  · split <;> rfl
  · rfl
@[simp] theorem setSop_kerfGap (n : Nat) (v : W64) : (q.setSop n v).kerfGap = q.kerfGap := by
  unfold setSop
  split
  · split <;> rfl
  · rfl
@[simp] theorem setSop_kerfSkip (n : Nat) (v : W64) : (q.setSop n v).kerfSkip = q.kerfSkip := by
  unfold setSop
  split
  · split <;> rfl
  · rfl
@[simp] theorem setSop_bundleCnt (n : Nat) (v : W64) : (q.setSop n v).bundleCnt = q.bundleCnt := by
  unfold setSop
  split
  · split <;> rfl
  · rfl
@[simp] theorem setSop_sbPeak (n : Nat) (v : W64) : (q.setSop n v).sbPeak = q.sbPeak := by
  unfold setSop
  split
  · split <;> rfl
  · rfl
@[simp] theorem setSop_imem (n : Nat) (v : W64) : (q.setSop n v).imem = q.imem := by
  unfold setSop
  split
  · split <;> rfl
  · rfl
@[simp] theorem setSop_imemBad (n : Nat) (v : W64) : (q.setSop n v).imemBad = q.imemBad := by
  unfold setSop
  split
  · split <;> rfl
  · rfl
@[simp] theorem setSop_qp (n : Nat) (v : W64) : (q.setSop n v).qp = q.qp := by
  unfold setSop
  split
  · split <;> rfl
  · rfl
@[simp] theorem setSop_qt (n : Nat) (v : W64) : (q.setSop n v).qt = q.qt := by
  unfold setSop
  split
  · split <;> rfl
  · rfl
@[simp] theorem setSop_qm (n : Nat) (v : W64) : (q.setSop n v).qm = q.qm := by
  unfold setSop
  split
  · split <;> rfl
  · rfl
@[simp] theorem setSop_qc (n : Nat) (v : W64) : (q.setSop n v).qc = q.qc := by
  unfold setSop
  split
  · split <;> rfl
  · rfl
@[simp] theorem setSop_claims (n : Nat) (v : W64) : (q.setSop n v).claims = q.claims := by
  unfold setSop
  split
  · split <;> rfl
  · rfl
@[simp] theorem setSop_hold (n : Nat) (v : W64) : (q.setSop n v).hold = q.hold := by
  unfold setSop
  split
  · split <;> rfl
  · rfl
@[simp] theorem setSop_num (n : Nat) (v : W64) : (q.setSop n v).num = q.num := by
  unfold setSop
  split
  · split <;> rfl
  · rfl
@[simp] theorem setSop_gap (n : Nat) (v : W64) : (q.setSop n v).gap = q.gap := by
  unfold setSop
  split
  · split <;> rfl
  · rfl
@[simp] theorem setSop_draining (n : Nat) (v : W64) : (q.setSop n v).draining = q.draining := by
  unfold setSop
  split
  · split <;> rfl
  · rfl
@[simp] theorem setSop_skipped (n : Nat) (v : W64) : (q.setSop n v).skipped = q.skipped := by
  unfold setSop
  split
  · split <;> rfl
  · rfl
@[simp] theorem setV_s (n : Nat) (v : VReg) : (q.setV n v).s = q.s := rfl
@[simp] theorem setV_a (n : Nat) (v : VReg) : (q.setV n v).a = q.a := rfl
@[simp] theorem setV_p (n : Nat) (v : VReg) : (q.setV n v).p = q.p := rfl
@[simp] theorem setV_loops (n : Nat) (v : VReg) : (q.setV n v).loops = q.loops := rfl
@[simp] theorem setV_pc (n : Nat) (v : VReg) : (q.setV n v).pc = q.pc := rfl
@[simp] theorem setV_stat (n : Nat) (v : VReg) : (q.setV n v).stat = q.stat := rfl
@[simp] theorem setV_resumed (n : Nat) (v : VReg) : (q.setV n v).resumed = q.resumed := rfl
@[simp] theorem setV_preempt (n : Nat) (v : VReg) : (q.setV n v).preempt = q.preempt := rfl
@[simp] theorem setV_trap (n : Nat) (v : VReg) : (q.setV n v).trap = q.trap := rfl
@[simp] theorem setV_kerfCnt (n : Nat) (v : VReg) : (q.setV n v).kerfCnt = q.kerfCnt := rfl
@[simp] theorem setV_kerfYield (n : Nat) (v : VReg) : (q.setV n v).kerfYield = q.kerfYield := rfl
@[simp] theorem setV_kerfGap (n : Nat) (v : VReg) : (q.setV n v).kerfGap = q.kerfGap := rfl
@[simp] theorem setV_kerfSkip (n : Nat) (v : VReg) : (q.setV n v).kerfSkip = q.kerfSkip := rfl
@[simp] theorem setV_bundleCnt (n : Nat) (v : VReg) : (q.setV n v).bundleCnt = q.bundleCnt := rfl
@[simp] theorem setV_sbPeak (n : Nat) (v : VReg) : (q.setV n v).sbPeak = q.sbPeak := rfl
@[simp] theorem setV_imem (n : Nat) (v : VReg) : (q.setV n v).imem = q.imem := rfl
@[simp] theorem setV_imemBad (n : Nat) (v : VReg) : (q.setV n v).imemBad = q.imemBad := rfl
@[simp] theorem setV_qp (n : Nat) (v : VReg) : (q.setV n v).qp = q.qp := rfl
@[simp] theorem setV_qt (n : Nat) (v : VReg) : (q.setV n v).qt = q.qt := rfl
@[simp] theorem setV_qm (n : Nat) (v : VReg) : (q.setV n v).qm = q.qm := rfl
@[simp] theorem setV_qc (n : Nat) (v : VReg) : (q.setV n v).qc = q.qc := rfl
@[simp] theorem setV_claims (n : Nat) (v : VReg) : (q.setV n v).claims = q.claims := rfl
@[simp] theorem setV_hold (n : Nat) (v : VReg) : (q.setV n v).hold = q.hold := rfl
@[simp] theorem setV_num (n : Nat) (v : VReg) : (q.setV n v).num = q.num := rfl
@[simp] theorem setV_gap (n : Nat) (v : VReg) : (q.setV n v).gap = q.gap := rfl
@[simp] theorem setV_draining (n : Nat) (v : VReg) : (q.setV n v).draining = q.draining := rfl
@[simp] theorem setV_skipped (n : Nat) (v : VReg) : (q.setV n v).skipped = q.skipped := rfl
@[simp] theorem setA_s (n : Nat) (v : W64) : (q.setA n v).s = q.s := rfl
@[simp] theorem setA_v (n : Nat) (v : W64) : (q.setA n v).v = q.v := rfl
@[simp] theorem setA_p (n : Nat) (v : W64) : (q.setA n v).p = q.p := rfl
@[simp] theorem setA_loops (n : Nat) (v : W64) : (q.setA n v).loops = q.loops := rfl
@[simp] theorem setA_pc (n : Nat) (v : W64) : (q.setA n v).pc = q.pc := rfl
@[simp] theorem setA_stat (n : Nat) (v : W64) : (q.setA n v).stat = q.stat := rfl
@[simp] theorem setA_resumed (n : Nat) (v : W64) : (q.setA n v).resumed = q.resumed := rfl
@[simp] theorem setA_preempt (n : Nat) (v : W64) : (q.setA n v).preempt = q.preempt := rfl
@[simp] theorem setA_trap (n : Nat) (v : W64) : (q.setA n v).trap = q.trap := rfl
@[simp] theorem setA_kerfCnt (n : Nat) (v : W64) : (q.setA n v).kerfCnt = q.kerfCnt := rfl
@[simp] theorem setA_kerfYield (n : Nat) (v : W64) : (q.setA n v).kerfYield = q.kerfYield := rfl
@[simp] theorem setA_kerfGap (n : Nat) (v : W64) : (q.setA n v).kerfGap = q.kerfGap := rfl
@[simp] theorem setA_kerfSkip (n : Nat) (v : W64) : (q.setA n v).kerfSkip = q.kerfSkip := rfl
@[simp] theorem setA_bundleCnt (n : Nat) (v : W64) : (q.setA n v).bundleCnt = q.bundleCnt := rfl
@[simp] theorem setA_sbPeak (n : Nat) (v : W64) : (q.setA n v).sbPeak = q.sbPeak := rfl
@[simp] theorem setA_imem (n : Nat) (v : W64) : (q.setA n v).imem = q.imem := rfl
@[simp] theorem setA_imemBad (n : Nat) (v : W64) : (q.setA n v).imemBad = q.imemBad := rfl
@[simp] theorem setA_qp (n : Nat) (v : W64) : (q.setA n v).qp = q.qp := rfl
@[simp] theorem setA_qt (n : Nat) (v : W64) : (q.setA n v).qt = q.qt := rfl
@[simp] theorem setA_qm (n : Nat) (v : W64) : (q.setA n v).qm = q.qm := rfl
@[simp] theorem setA_qc (n : Nat) (v : W64) : (q.setA n v).qc = q.qc := rfl
@[simp] theorem setA_claims (n : Nat) (v : W64) : (q.setA n v).claims = q.claims := rfl
@[simp] theorem setA_hold (n : Nat) (v : W64) : (q.setA n v).hold = q.hold := rfl
@[simp] theorem setA_num (n : Nat) (v : W64) : (q.setA n v).num = q.num := rfl
@[simp] theorem setA_gap (n : Nat) (v : W64) : (q.setA n v).gap = q.gap := rfl
@[simp] theorem setA_draining (n : Nat) (v : W64) : (q.setA n v).draining = q.draining := rfl
@[simp] theorem setA_skipped (n : Nat) (v : W64) : (q.setA n v).skipped = q.skipped := rfl
@[simp] theorem setP_s (n : Nat) (v : BitVec 256) : (q.setP n v).s = q.s := by
  unfold setP
  split <;> rfl
@[simp] theorem setP_a (n : Nat) (v : BitVec 256) : (q.setP n v).a = q.a := by
  unfold setP
  split <;> rfl
@[simp] theorem setP_v (n : Nat) (v : BitVec 256) : (q.setP n v).v = q.v := by
  unfold setP
  split <;> rfl
@[simp] theorem setP_loops (n : Nat) (v : BitVec 256) : (q.setP n v).loops = q.loops := by
  unfold setP
  split <;> rfl
@[simp] theorem setP_pc (n : Nat) (v : BitVec 256) : (q.setP n v).pc = q.pc := by
  unfold setP
  split <;> rfl
@[simp] theorem setP_stat (n : Nat) (v : BitVec 256) : (q.setP n v).stat = q.stat := by
  unfold setP
  split <;> rfl
@[simp] theorem setP_resumed (n : Nat) (v : BitVec 256) : (q.setP n v).resumed = q.resumed := by
  unfold setP
  split <;> rfl
@[simp] theorem setP_preempt (n : Nat) (v : BitVec 256) : (q.setP n v).preempt = q.preempt := by
  unfold setP
  split <;> rfl
@[simp] theorem setP_trap (n : Nat) (v : BitVec 256) : (q.setP n v).trap = q.trap := by
  unfold setP
  split <;> rfl
@[simp] theorem setP_kerfCnt (n : Nat) (v : BitVec 256) : (q.setP n v).kerfCnt = q.kerfCnt := by
  unfold setP
  split <;> rfl
@[simp] theorem setP_kerfYield (n : Nat) (v : BitVec 256) : (q.setP n v).kerfYield = q.kerfYield := by
  unfold setP
  split <;> rfl
@[simp] theorem setP_kerfGap (n : Nat) (v : BitVec 256) : (q.setP n v).kerfGap = q.kerfGap := by
  unfold setP
  split <;> rfl
@[simp] theorem setP_kerfSkip (n : Nat) (v : BitVec 256) : (q.setP n v).kerfSkip = q.kerfSkip := by
  unfold setP
  split <;> rfl
@[simp] theorem setP_bundleCnt (n : Nat) (v : BitVec 256) : (q.setP n v).bundleCnt = q.bundleCnt := by
  unfold setP
  split <;> rfl
@[simp] theorem setP_sbPeak (n : Nat) (v : BitVec 256) : (q.setP n v).sbPeak = q.sbPeak := by
  unfold setP
  split <;> rfl
@[simp] theorem setP_imem (n : Nat) (v : BitVec 256) : (q.setP n v).imem = q.imem := by
  unfold setP
  split <;> rfl
@[simp] theorem setP_imemBad (n : Nat) (v : BitVec 256) : (q.setP n v).imemBad = q.imemBad := by
  unfold setP
  split <;> rfl
@[simp] theorem setP_qp (n : Nat) (v : BitVec 256) : (q.setP n v).qp = q.qp := by
  unfold setP
  split <;> rfl
@[simp] theorem setP_qt (n : Nat) (v : BitVec 256) : (q.setP n v).qt = q.qt := by
  unfold setP
  split <;> rfl
@[simp] theorem setP_qm (n : Nat) (v : BitVec 256) : (q.setP n v).qm = q.qm := by
  unfold setP
  split <;> rfl
@[simp] theorem setP_qc (n : Nat) (v : BitVec 256) : (q.setP n v).qc = q.qc := by
  unfold setP
  split <;> rfl
@[simp] theorem setP_claims (n : Nat) (v : BitVec 256) : (q.setP n v).claims = q.claims := by
  unfold setP
  split <;> rfl
@[simp] theorem setP_hold (n : Nat) (v : BitVec 256) : (q.setP n v).hold = q.hold := by
  unfold setP
  split <;> rfl
@[simp] theorem setP_num (n : Nat) (v : BitVec 256) : (q.setP n v).num = q.num := by
  unfold setP
  split <;> rfl
@[simp] theorem setP_gap (n : Nat) (v : BitVec 256) : (q.setP n v).gap = q.gap := by
  unfold setP
  split <;> rfl
@[simp] theorem setP_draining (n : Nat) (v : BitVec 256) : (q.setP n v).draining = q.draining := by
  unfold setP
  split <;> rfl
@[simp] theorem setP_skipped (n : Nat) (v : BitVec 256) : (q.setP n v).skipped = q.skipped := by
  unfold setP
  split <;> rfl

/-- Reading a scalar operand after writing one; S0 takes nothing (R153). -/
theorem sop_setSop (n m : Nat) (v : W64) : (q.setSop n v).sop m = if n = m ∧ n ≠ 0 then v else q.sop m := by
  unfold setSop sop
  by_cases h : n < 32 <;> by_cases h0 : n = 0 <;> by_cases k : m < 32 <;> by_cases k0 : m = 0 <;>
    simp [h, h0, k, k0, Table.get_set] <;> (try omega) <;> split <;> split <;> first | rfl | omega

@[simp] theorem sop_zero : q.sop 0 = 0 := rfl

/-- Reads of scalar operands depend on the two scalar files only. -/
theorem sop_congr {q r : Sequencer} (hs : q.s = r.s) (ha : q.a = r.a) (n : Nat) : q.sop n = r.sop n := by
  simp [sop, hs, ha]

@[simp] theorem retire_sop (sl : Slot) (n : Nat) : (q.retire sl).sop n = q.sop n := sop_congr (by simp) (by simp) n
@[simp] theorem issued_sop (sl : Slot) (n : Nat) : (q.issued sl).sop n = q.sop n := sop_congr (by simp) (by simp) n

/-- Lane `i` of a register built lane by lane. -/
theorem get_vregOf (f : Nat → W32) (i : Nat) : Table.get (vregOf f) 0 i = if i < 256 then f i else 0 := by
  have key : ∀ l : List Nat, l.Nodup →
      Table.get (l.filterMap fun i => if f i = 0 then none else some (i, f i)) 0 i = if i ∈ l then f i else 0 := by
    intro l
    induction l with
    | nil => intro; rfl
    | cons x r ih =>
      intro hl
      have ⟨hx, hr⟩ := List.nodup_cons.1 hl
      by_cases h0 : f x = 0
      · rw [List.filterMap_cons_none (by simpa using h0), ih hr]
        by_cases hi : i = x
        · subst hi; simp [hx, h0]
        · simp [hi]
      · rw [List.filterMap_cons_some (b := (x, f x)) (by simpa using h0)]
        unfold Table.get
        by_cases hi : x = i
        · subst hi; simp
        · rw [if_neg hi, ih hr]
          have : i ≠ x := fun e => hi e.symm
          simp [this]
  rw [vregOf, key _ List.nodup_range]
  simp [List.mem_range]

end Sequencer
end Sys2Proof.Machine
end

