-- ==== Sys2Proof/Laws/Run.lean ====
section
/-! SUPPORT. The wrappers of commands: when they complete, and with what. -/

namespace Sys2Proof.Machine

theorem done_next (s : State) (f : Device → Device) : done s f = .next { s with dev := f s.dev } := rfl

theorem onUnit_next {n i : Nat} (s : State) (f : Device → Device) (h : i < n) :
    onUnit n i s f = .next { s with dev := f s.dev } := by simp [onUnit, h, done, State.onDev]

theorem onUnit_absent {n i : Nat} (s : State) (f : Device → Device) (h : ¬ i < n) : onUnit n i s f = .fault .absentUnit := by
  simp [onUnit, h]

theorem onChannel_next {c ch : Nat} (s : State) (f : Device → Device) (h : c < 12) (k : ch < 2) :
    onChannel c ch s f = .next { s with dev := f s.dev } := by simp [onChannel, k, onUnit_next s f h]

theorem onSess_next {k : Option Nat} (s : State) (f : Device → Device) (h : k.all (decide <| · < 4) = true) :
    onSess k s f = .next { s with dev := f s.dev } := by simp [onSess, h, done, State.onDev]

/-- A wrapped command changes the device alone, and by its function. -/
theorem done_dev {s t : State} {f : Device → Device} (h : done s f = .next t) : t = { s with dev := f s.dev } := by
  cases h; rfl
theorem onUnit_dev {n i : Nat} {s t : State} {f : Device → Device} (h : onUnit n i s f = .next t) :
    t = { s with dev := f s.dev } := by
  unfold onUnit at h
  split at h
  · exact done_dev h
  · cases h
theorem onChannel_dev {c ch : Nat} {s t : State} {f : Device → Device} (h : onChannel c ch s f = .next t) :
    t = { s with dev := f s.dev } := by
  unfold onChannel at h
  split at h
  · exact onUnit_dev h
  · cases h
theorem onSess_dev {k : Option Nat} {s t : State} {f : Device → Device} (h : onSess k s f = .next t) :
    t = { s with dev := f s.dev } := by
  unfold onSess at h
  split at h
  · exact done_dev h
  · cases h

end Sys2Proof.Machine
end

