-- ==== Sys2Proof/Laws/State.lean ====
section
/-! SUPPORT. What each write of a unit leaves, and what it makes a read of that unit give: one lemma for each field and each
update. -/

namespace Sys2Proof.Machine
namespace Device

variable (d : Device)

/-! ### `setCore` -/

@[simp] theorem setCore_fuse (c : Nat) (v : Core) : (d.setCore c v).fuse = d.fuse := rfl
@[simp] theorem setCore_cal (c : Nat) (v : Core) : (d.setCore c v).cal = d.cal := rfl
@[simp] theorem setCore_tally (c : Nat) (v : Core) : (d.setCore c v).tally = d.tally := rfl
@[simp] theorem setCore_glb (c : Nat) (v : Core) : (d.setCore c v).glb = d.glb := rfl
@[simp] theorem setCore_rings (c : Nat) (v : Core) : (d.setCore c v).rings = d.rings := rfl
@[simp] theorem setCore_vecs (c : Nat) (v : Core) : (d.setCore c v).vecs = d.vecs := rfl
@[simp] theorem setCore_stalls (c : Nat) (v : Core) : (d.setCore c v).stalls = d.stalls := rfl
@[simp] theorem setCore_queues (c : Nat) (v : Core) : (d.setCore c v).queues = d.queues := rfl
@[simp] theorem setCore_objs (c : Nat) (v : Core) : (d.setCore c v).objs = d.objs := rfl
@[simp] theorem setCore_fences (c : Nat) (v : Core) : (d.setCore c v).fences = d.fences := rfl
@[simp] theorem setCore_seqs (c : Nat) (v : Core) : (d.setCore c v).seqs = d.seqs := rfl
@[simp] theorem setCore_pdks (c : Nat) (v : Core) : (d.setCore c v).pdks = d.pdks := rfl
@[simp] theorem setCore_jobs (c : Nat) (v : Core) : (d.setCore c v).jobs = d.jobs := rfl
@[simp] theorem setCore_nextJob (c : Nat) (v : Core) : (d.setCore c v).nextJob = d.nextJob := rfl
@[simp] theorem setCore_rounds (c : Nat) (v : Core) : (d.setCore c v).rounds = d.rounds := rfl
@[simp] theorem setCore_slices (c : Nat) (v : Core) : (d.setCore c v).slices = d.slices := rfl
@[simp] theorem setCore_saved (c : Nat) (v : Core) : (d.setCore c v).saved = d.saved := rfl
@[simp] theorem setCore_windows (c : Nat) (v : Core) : (d.setCore c v).windows = d.windows := rfl
@[simp] theorem setCore_pieces (c : Nat) (v : Core) : (d.setCore c v).pieces = d.pieces := rfl
@[simp] theorem setCore_nextPiece (c : Nat) (v : Core) : (d.setCore c v).nextPiece = d.nextPiece := rfl
@[simp] theorem setCore_sends (c : Nat) (v : Core) : (d.setCore c v).sends = d.sends := rfl
@[simp] theorem setCore_pushes (c : Nat) (v : Core) : (d.setCore c v).pushes = d.pushes := rfl
@[simp] theorem setCore_skid (c : Nat) (v : Core) : (d.setCore c v).skid = d.skid := rfl
@[simp] theorem setCore_chans (c : Nat) (v : Core) : (d.setCore c v).chans = d.chans := rfl
@[simp] theorem setCore_segs (c : Nat) (v : Core) : (d.setCore c v).segs = d.segs := rfl
@[simp] theorem setCore_xlt (c : Nat) (v : Core) : (d.setCore c v).xlt = d.xlt := rfl
@[simp] theorem setCore_links (c : Nat) (v : Core) : (d.setCore c v).links = d.links := rfl
@[simp] theorem setCore_power (c : Nat) (v : Core) : (d.setCore c v).power = d.power := rfl
@[simp] theorem setCore_sec (c : Nat) (v : Core) : (d.setCore c v).sec = d.sec := rfl
@[simp] theorem setCore_resets (c : Nat) (v : Core) : (d.setCore c v).resets = d.resets := rfl
@[simp] theorem setCore_dict (c : Nat) (v : Core) : (d.setCore c v).dict = d.dict := rfl
@[simp] theorem setCore_flash (c : Nat) (v : Core) : (d.setCore c v).flash = d.flash := rfl
@[simp] theorem setCore_boot (c : Nat) (v : Core) : (d.setCore c v).boot = d.boot := rfl
@[simp] theorem setCore_coarse (c : Nat) (v : Core) : (d.setCore c v).coarse = d.coarse := rfl
@[simp] theorem setCore_out (c : Nat) (v : Core) : (d.setCore c v).out = d.out := rfl
@[simp] theorem setCore_free (c : Nat) (v : Core) : (d.setCore c v).free = d.free := rfl
@[simp] theorem setCore_core_same (c : Nat) (v : Core) : (d.setCore c v).core c = v := Table.get_set_same _ _ _ _
theorem setCore_core_ne (c : Nat) (v : Core) {k : Nat} (h : c ≠ k) : (d.setCore c v).core k = d.core k := Table.get_set_ne _ _ _ h
@[simp] theorem setCore_slice (c : Nat) (v : Core) (k : Nat) : (d.setCore c v).slice k = d.slice k := rfl
@[simp] theorem setCore_stall (c : Nat) (v : Core) (k : Nat) : (d.setCore c v).stall k = d.stall k := rfl
@[simp] theorem setCore_outQueue (c : Nat) (v : Core) (k : Nat) : (d.setCore c v).outQueue k = d.outQueue k := rfl
@[simp] theorem setCore_ring (c : Nat) (v : Core) (k : Nat) : (d.setCore c v).ring k = d.ring k := rfl
@[simp] theorem setCore_vec (c : Nat) (v : Core) (k : Nat) : (d.setCore c v).vec k = d.vec k := rfl
@[simp] theorem setCore_obj (c : Nat) (v : Core) (k : Nat) : (d.setCore c v).obj k = d.obj k := rfl
@[simp] theorem setCore_fence (c : Nat) (v : Core) (k : Nat) : (d.setCore c v).fence k = d.fence k := rfl
@[simp] theorem setCore_seq (c : Nat) (v : Core) (k : Nat) : (d.setCore c v).seq k = d.seq k := rfl
@[simp] theorem setCore_pdk (c : Nat) (v : Core) (k : Nat) : (d.setCore c v).pdk k = d.pdk k := rfl
@[simp] theorem setCore_pdkSec (c : Nat) (v : Core) (k : Nat) : (d.setCore c v).pdkSec k = d.pdkSec k := rfl
@[simp] theorem setCore_window (c : Nat) (v : Core) (k : Nat) : (d.setCore c v).window k = d.window k := rfl
@[simp] theorem setCore_chan (c : Nat) (v : Core) (k : Nat) : (d.setCore c v).chan k = d.chan k := rfl
@[simp] theorem setCore_port (c : Nat) (v : Core) (k : Nat) : (d.setCore c v).port k = d.port k := rfl
@[simp] theorem setCore_binding (c : Nat) (v : Core) (k : Nat) : (d.setCore c v).binding k = d.binding k := rfl
@[simp] theorem setCore_alarm (c : Nat) (v : Core) (k : Nat) : (d.setCore c v).alarm k = d.alarm k := rfl
@[simp] theorem setCore_job (c : Nat) (v : Core) (k : Nat) : (d.setCore c v).job k = d.job k := rfl
theorem setCore_core (c : Nat) (v : Core) (k : Nat) : (d.setCore c v).core k = if c = k then v else d.core k := by
  split
  · subst_vars; simp
  · exact d.setCore_core_ne c v ‹_›

/-! ### `setSlice` -/

@[simp] theorem setSlice_fuse (c : Nat) (v : Slice) : (d.setSlice c v).fuse = d.fuse := rfl
@[simp] theorem setSlice_cal (c : Nat) (v : Slice) : (d.setSlice c v).cal = d.cal := rfl
@[simp] theorem setSlice_tally (c : Nat) (v : Slice) : (d.setSlice c v).tally = d.tally := rfl
@[simp] theorem setSlice_glb (c : Nat) (v : Slice) : (d.setSlice c v).glb = d.glb := rfl
@[simp] theorem setSlice_rings (c : Nat) (v : Slice) : (d.setSlice c v).rings = d.rings := rfl
@[simp] theorem setSlice_vecs (c : Nat) (v : Slice) : (d.setSlice c v).vecs = d.vecs := rfl
@[simp] theorem setSlice_stalls (c : Nat) (v : Slice) : (d.setSlice c v).stalls = d.stalls := rfl
@[simp] theorem setSlice_queues (c : Nat) (v : Slice) : (d.setSlice c v).queues = d.queues := rfl
@[simp] theorem setSlice_objs (c : Nat) (v : Slice) : (d.setSlice c v).objs = d.objs := rfl
@[simp] theorem setSlice_fences (c : Nat) (v : Slice) : (d.setSlice c v).fences = d.fences := rfl
@[simp] theorem setSlice_seqs (c : Nat) (v : Slice) : (d.setSlice c v).seqs = d.seqs := rfl
@[simp] theorem setSlice_pdks (c : Nat) (v : Slice) : (d.setSlice c v).pdks = d.pdks := rfl
@[simp] theorem setSlice_jobs (c : Nat) (v : Slice) : (d.setSlice c v).jobs = d.jobs := rfl
@[simp] theorem setSlice_nextJob (c : Nat) (v : Slice) : (d.setSlice c v).nextJob = d.nextJob := rfl
@[simp] theorem setSlice_rounds (c : Nat) (v : Slice) : (d.setSlice c v).rounds = d.rounds := rfl
@[simp] theorem setSlice_cores (c : Nat) (v : Slice) : (d.setSlice c v).cores = d.cores := rfl
@[simp] theorem setSlice_saved (c : Nat) (v : Slice) : (d.setSlice c v).saved = d.saved := rfl
@[simp] theorem setSlice_windows (c : Nat) (v : Slice) : (d.setSlice c v).windows = d.windows := rfl
@[simp] theorem setSlice_pieces (c : Nat) (v : Slice) : (d.setSlice c v).pieces = d.pieces := rfl
@[simp] theorem setSlice_nextPiece (c : Nat) (v : Slice) : (d.setSlice c v).nextPiece = d.nextPiece := rfl
@[simp] theorem setSlice_sends (c : Nat) (v : Slice) : (d.setSlice c v).sends = d.sends := rfl
@[simp] theorem setSlice_pushes (c : Nat) (v : Slice) : (d.setSlice c v).pushes = d.pushes := rfl
@[simp] theorem setSlice_skid (c : Nat) (v : Slice) : (d.setSlice c v).skid = d.skid := rfl
@[simp] theorem setSlice_chans (c : Nat) (v : Slice) : (d.setSlice c v).chans = d.chans := rfl
@[simp] theorem setSlice_segs (c : Nat) (v : Slice) : (d.setSlice c v).segs = d.segs := rfl
@[simp] theorem setSlice_xlt (c : Nat) (v : Slice) : (d.setSlice c v).xlt = d.xlt := rfl
@[simp] theorem setSlice_links (c : Nat) (v : Slice) : (d.setSlice c v).links = d.links := rfl
@[simp] theorem setSlice_power (c : Nat) (v : Slice) : (d.setSlice c v).power = d.power := rfl
@[simp] theorem setSlice_sec (c : Nat) (v : Slice) : (d.setSlice c v).sec = d.sec := rfl
@[simp] theorem setSlice_resets (c : Nat) (v : Slice) : (d.setSlice c v).resets = d.resets := rfl
@[simp] theorem setSlice_dict (c : Nat) (v : Slice) : (d.setSlice c v).dict = d.dict := rfl
@[simp] theorem setSlice_flash (c : Nat) (v : Slice) : (d.setSlice c v).flash = d.flash := rfl
@[simp] theorem setSlice_boot (c : Nat) (v : Slice) : (d.setSlice c v).boot = d.boot := rfl
@[simp] theorem setSlice_coarse (c : Nat) (v : Slice) : (d.setSlice c v).coarse = d.coarse := rfl
@[simp] theorem setSlice_out (c : Nat) (v : Slice) : (d.setSlice c v).out = d.out := rfl
@[simp] theorem setSlice_free (c : Nat) (v : Slice) : (d.setSlice c v).free = d.free := rfl
@[simp] theorem setSlice_core (c : Nat) (v : Slice) (k : Nat) : (d.setSlice c v).core k = d.core k := rfl
@[simp] theorem setSlice_slice_same (c : Nat) (v : Slice) : (d.setSlice c v).slice c = v := Table.get_set_same _ _ _ _
theorem setSlice_slice_ne (c : Nat) (v : Slice) {k : Nat} (h : c ≠ k) : (d.setSlice c v).slice k = d.slice k := Table.get_set_ne _ _ _ h
@[simp] theorem setSlice_stall (c : Nat) (v : Slice) (k : Nat) : (d.setSlice c v).stall k = d.stall k := rfl
@[simp] theorem setSlice_outQueue (c : Nat) (v : Slice) (k : Nat) : (d.setSlice c v).outQueue k = d.outQueue k := rfl
@[simp] theorem setSlice_ring (c : Nat) (v : Slice) (k : Nat) : (d.setSlice c v).ring k = d.ring k := rfl
@[simp] theorem setSlice_vec (c : Nat) (v : Slice) (k : Nat) : (d.setSlice c v).vec k = d.vec k := rfl
@[simp] theorem setSlice_obj (c : Nat) (v : Slice) (k : Nat) : (d.setSlice c v).obj k = d.obj k := rfl
@[simp] theorem setSlice_fence (c : Nat) (v : Slice) (k : Nat) : (d.setSlice c v).fence k = d.fence k := rfl
@[simp] theorem setSlice_seq (c : Nat) (v : Slice) (k : Nat) : (d.setSlice c v).seq k = d.seq k := rfl
@[simp] theorem setSlice_pdk (c : Nat) (v : Slice) (k : Nat) : (d.setSlice c v).pdk k = d.pdk k := rfl
@[simp] theorem setSlice_pdkSec (c : Nat) (v : Slice) (k : Nat) : (d.setSlice c v).pdkSec k = d.pdkSec k := rfl
@[simp] theorem setSlice_window (c : Nat) (v : Slice) (k : Nat) : (d.setSlice c v).window k = d.window k := rfl
@[simp] theorem setSlice_chan (c : Nat) (v : Slice) (k : Nat) : (d.setSlice c v).chan k = d.chan k := rfl
@[simp] theorem setSlice_port (c : Nat) (v : Slice) (k : Nat) : (d.setSlice c v).port k = d.port k := rfl
@[simp] theorem setSlice_binding (c : Nat) (v : Slice) (k : Nat) : (d.setSlice c v).binding k = d.binding k := rfl
@[simp] theorem setSlice_alarm (c : Nat) (v : Slice) (k : Nat) : (d.setSlice c v).alarm k = d.alarm k := rfl
@[simp] theorem setSlice_job (c : Nat) (v : Slice) (k : Nat) : (d.setSlice c v).job k = d.job k := rfl
theorem setSlice_slice (c : Nat) (v : Slice) (k : Nat) : (d.setSlice c v).slice k = if c = k then v else d.slice k := by
  split
  · subst_vars; simp
  · exact d.setSlice_slice_ne c v ‹_›

/-! ### `setStall` -/

@[simp] theorem setStall_fuse (n : Nat) (v : Stall) : (d.setStall n v).fuse = d.fuse := rfl
@[simp] theorem setStall_cal (n : Nat) (v : Stall) : (d.setStall n v).cal = d.cal := rfl
@[simp] theorem setStall_tally (n : Nat) (v : Stall) : (d.setStall n v).tally = d.tally := rfl
@[simp] theorem setStall_glb (n : Nat) (v : Stall) : (d.setStall n v).glb = d.glb := rfl
@[simp] theorem setStall_rings (n : Nat) (v : Stall) : (d.setStall n v).rings = d.rings := rfl
@[simp] theorem setStall_vecs (n : Nat) (v : Stall) : (d.setStall n v).vecs = d.vecs := rfl
@[simp] theorem setStall_queues (n : Nat) (v : Stall) : (d.setStall n v).queues = d.queues := rfl
@[simp] theorem setStall_objs (n : Nat) (v : Stall) : (d.setStall n v).objs = d.objs := rfl
@[simp] theorem setStall_fences (n : Nat) (v : Stall) : (d.setStall n v).fences = d.fences := rfl
@[simp] theorem setStall_seqs (n : Nat) (v : Stall) : (d.setStall n v).seqs = d.seqs := rfl
@[simp] theorem setStall_pdks (n : Nat) (v : Stall) : (d.setStall n v).pdks = d.pdks := rfl
@[simp] theorem setStall_jobs (n : Nat) (v : Stall) : (d.setStall n v).jobs = d.jobs := rfl
@[simp] theorem setStall_nextJob (n : Nat) (v : Stall) : (d.setStall n v).nextJob = d.nextJob := rfl
@[simp] theorem setStall_rounds (n : Nat) (v : Stall) : (d.setStall n v).rounds = d.rounds := rfl
@[simp] theorem setStall_cores (n : Nat) (v : Stall) : (d.setStall n v).cores = d.cores := rfl
@[simp] theorem setStall_slices (n : Nat) (v : Stall) : (d.setStall n v).slices = d.slices := rfl
@[simp] theorem setStall_saved (n : Nat) (v : Stall) : (d.setStall n v).saved = d.saved := rfl
@[simp] theorem setStall_windows (n : Nat) (v : Stall) : (d.setStall n v).windows = d.windows := rfl
@[simp] theorem setStall_pieces (n : Nat) (v : Stall) : (d.setStall n v).pieces = d.pieces := rfl
@[simp] theorem setStall_nextPiece (n : Nat) (v : Stall) : (d.setStall n v).nextPiece = d.nextPiece := rfl
@[simp] theorem setStall_sends (n : Nat) (v : Stall) : (d.setStall n v).sends = d.sends := rfl
@[simp] theorem setStall_pushes (n : Nat) (v : Stall) : (d.setStall n v).pushes = d.pushes := rfl
@[simp] theorem setStall_skid (n : Nat) (v : Stall) : (d.setStall n v).skid = d.skid := rfl
@[simp] theorem setStall_chans (n : Nat) (v : Stall) : (d.setStall n v).chans = d.chans := rfl
@[simp] theorem setStall_segs (n : Nat) (v : Stall) : (d.setStall n v).segs = d.segs := rfl
@[simp] theorem setStall_xlt (n : Nat) (v : Stall) : (d.setStall n v).xlt = d.xlt := rfl
@[simp] theorem setStall_links (n : Nat) (v : Stall) : (d.setStall n v).links = d.links := rfl
@[simp] theorem setStall_power (n : Nat) (v : Stall) : (d.setStall n v).power = d.power := rfl
@[simp] theorem setStall_sec (n : Nat) (v : Stall) : (d.setStall n v).sec = d.sec := rfl
@[simp] theorem setStall_resets (n : Nat) (v : Stall) : (d.setStall n v).resets = d.resets := rfl
@[simp] theorem setStall_dict (n : Nat) (v : Stall) : (d.setStall n v).dict = d.dict := rfl
@[simp] theorem setStall_flash (n : Nat) (v : Stall) : (d.setStall n v).flash = d.flash := rfl
@[simp] theorem setStall_boot (n : Nat) (v : Stall) : (d.setStall n v).boot = d.boot := rfl
@[simp] theorem setStall_coarse (n : Nat) (v : Stall) : (d.setStall n v).coarse = d.coarse := rfl
@[simp] theorem setStall_out (n : Nat) (v : Stall) : (d.setStall n v).out = d.out := rfl
@[simp] theorem setStall_free (n : Nat) (v : Stall) : (d.setStall n v).free = d.free := rfl
@[simp] theorem setStall_core (n : Nat) (v : Stall) (k : Nat) : (d.setStall n v).core k = d.core k := rfl
@[simp] theorem setStall_slice (n : Nat) (v : Stall) (k : Nat) : (d.setStall n v).slice k = d.slice k := rfl
@[simp] theorem setStall_stall_same (n : Nat) (v : Stall) : (d.setStall n v).stall n = v := Table.get_set_same _ _ _ _
theorem setStall_stall_ne (n : Nat) (v : Stall) {k : Nat} (h : n ≠ k) : (d.setStall n v).stall k = d.stall k := Table.get_set_ne _ _ _ h
@[simp] theorem setStall_outQueue (n : Nat) (v : Stall) (k : Nat) : (d.setStall n v).outQueue k = d.outQueue k := rfl
@[simp] theorem setStall_ring (n : Nat) (v : Stall) (k : Nat) : (d.setStall n v).ring k = d.ring k := rfl
@[simp] theorem setStall_vec (n : Nat) (v : Stall) (k : Nat) : (d.setStall n v).vec k = d.vec k := rfl
@[simp] theorem setStall_obj (n : Nat) (v : Stall) (k : Nat) : (d.setStall n v).obj k = d.obj k := rfl
@[simp] theorem setStall_fence (n : Nat) (v : Stall) (k : Nat) : (d.setStall n v).fence k = d.fence k := rfl
@[simp] theorem setStall_seq (n : Nat) (v : Stall) (k : Nat) : (d.setStall n v).seq k = d.seq k := rfl
@[simp] theorem setStall_pdk (n : Nat) (v : Stall) (k : Nat) : (d.setStall n v).pdk k = d.pdk k := rfl
@[simp] theorem setStall_pdkSec (n : Nat) (v : Stall) (k : Nat) : (d.setStall n v).pdkSec k = d.pdkSec k := rfl
@[simp] theorem setStall_window (n : Nat) (v : Stall) (k : Nat) : (d.setStall n v).window k = d.window k := rfl
@[simp] theorem setStall_chan (n : Nat) (v : Stall) (k : Nat) : (d.setStall n v).chan k = d.chan k := rfl
@[simp] theorem setStall_port (n : Nat) (v : Stall) (k : Nat) : (d.setStall n v).port k = d.port k := rfl
@[simp] theorem setStall_binding (n : Nat) (v : Stall) (k : Nat) : (d.setStall n v).binding k = d.binding k := rfl
@[simp] theorem setStall_alarm (n : Nat) (v : Stall) (k : Nat) : (d.setStall n v).alarm k = d.alarm k := rfl
@[simp] theorem setStall_job (n : Nat) (v : Stall) (k : Nat) : (d.setStall n v).job k = d.job k := rfl
theorem setStall_stall (n : Nat) (v : Stall) (k : Nat) : (d.setStall n v).stall k = if n = k then v else d.stall k := by
  split
  · subst_vars; simp
  · exact d.setStall_stall_ne n v ‹_›

/-! ### `setOutQueue` -/

@[simp] theorem setOutQueue_fuse (n : Nat) (v : OutQueue) : (d.setOutQueue n v).fuse = d.fuse := rfl
@[simp] theorem setOutQueue_cal (n : Nat) (v : OutQueue) : (d.setOutQueue n v).cal = d.cal := rfl
@[simp] theorem setOutQueue_tally (n : Nat) (v : OutQueue) : (d.setOutQueue n v).tally = d.tally := rfl
@[simp] theorem setOutQueue_glb (n : Nat) (v : OutQueue) : (d.setOutQueue n v).glb = d.glb := rfl
@[simp] theorem setOutQueue_rings (n : Nat) (v : OutQueue) : (d.setOutQueue n v).rings = d.rings := rfl
@[simp] theorem setOutQueue_vecs (n : Nat) (v : OutQueue) : (d.setOutQueue n v).vecs = d.vecs := rfl
@[simp] theorem setOutQueue_stalls (n : Nat) (v : OutQueue) : (d.setOutQueue n v).stalls = d.stalls := rfl
@[simp] theorem setOutQueue_objs (n : Nat) (v : OutQueue) : (d.setOutQueue n v).objs = d.objs := rfl
@[simp] theorem setOutQueue_fences (n : Nat) (v : OutQueue) : (d.setOutQueue n v).fences = d.fences := rfl
@[simp] theorem setOutQueue_seqs (n : Nat) (v : OutQueue) : (d.setOutQueue n v).seqs = d.seqs := rfl
@[simp] theorem setOutQueue_pdks (n : Nat) (v : OutQueue) : (d.setOutQueue n v).pdks = d.pdks := rfl
@[simp] theorem setOutQueue_jobs (n : Nat) (v : OutQueue) : (d.setOutQueue n v).jobs = d.jobs := rfl
@[simp] theorem setOutQueue_nextJob (n : Nat) (v : OutQueue) : (d.setOutQueue n v).nextJob = d.nextJob := rfl
@[simp] theorem setOutQueue_rounds (n : Nat) (v : OutQueue) : (d.setOutQueue n v).rounds = d.rounds := rfl
@[simp] theorem setOutQueue_cores (n : Nat) (v : OutQueue) : (d.setOutQueue n v).cores = d.cores := rfl
@[simp] theorem setOutQueue_slices (n : Nat) (v : OutQueue) : (d.setOutQueue n v).slices = d.slices := rfl
@[simp] theorem setOutQueue_saved (n : Nat) (v : OutQueue) : (d.setOutQueue n v).saved = d.saved := rfl
@[simp] theorem setOutQueue_windows (n : Nat) (v : OutQueue) : (d.setOutQueue n v).windows = d.windows := rfl
@[simp] theorem setOutQueue_pieces (n : Nat) (v : OutQueue) : (d.setOutQueue n v).pieces = d.pieces := rfl
@[simp] theorem setOutQueue_nextPiece (n : Nat) (v : OutQueue) : (d.setOutQueue n v).nextPiece = d.nextPiece := rfl
@[simp] theorem setOutQueue_sends (n : Nat) (v : OutQueue) : (d.setOutQueue n v).sends = d.sends := rfl
@[simp] theorem setOutQueue_pushes (n : Nat) (v : OutQueue) : (d.setOutQueue n v).pushes = d.pushes := rfl
@[simp] theorem setOutQueue_skid (n : Nat) (v : OutQueue) : (d.setOutQueue n v).skid = d.skid := rfl
@[simp] theorem setOutQueue_chans (n : Nat) (v : OutQueue) : (d.setOutQueue n v).chans = d.chans := rfl
@[simp] theorem setOutQueue_segs (n : Nat) (v : OutQueue) : (d.setOutQueue n v).segs = d.segs := rfl
@[simp] theorem setOutQueue_xlt (n : Nat) (v : OutQueue) : (d.setOutQueue n v).xlt = d.xlt := rfl
@[simp] theorem setOutQueue_links (n : Nat) (v : OutQueue) : (d.setOutQueue n v).links = d.links := rfl
@[simp] theorem setOutQueue_power (n : Nat) (v : OutQueue) : (d.setOutQueue n v).power = d.power := rfl
@[simp] theorem setOutQueue_sec (n : Nat) (v : OutQueue) : (d.setOutQueue n v).sec = d.sec := rfl
@[simp] theorem setOutQueue_resets (n : Nat) (v : OutQueue) : (d.setOutQueue n v).resets = d.resets := rfl
@[simp] theorem setOutQueue_dict (n : Nat) (v : OutQueue) : (d.setOutQueue n v).dict = d.dict := rfl
@[simp] theorem setOutQueue_flash (n : Nat) (v : OutQueue) : (d.setOutQueue n v).flash = d.flash := rfl
@[simp] theorem setOutQueue_boot (n : Nat) (v : OutQueue) : (d.setOutQueue n v).boot = d.boot := rfl
@[simp] theorem setOutQueue_coarse (n : Nat) (v : OutQueue) : (d.setOutQueue n v).coarse = d.coarse := rfl
@[simp] theorem setOutQueue_out (n : Nat) (v : OutQueue) : (d.setOutQueue n v).out = d.out := rfl
@[simp] theorem setOutQueue_free (n : Nat) (v : OutQueue) : (d.setOutQueue n v).free = d.free := rfl
@[simp] theorem setOutQueue_core (n : Nat) (v : OutQueue) (k : Nat) : (d.setOutQueue n v).core k = d.core k := rfl
@[simp] theorem setOutQueue_slice (n : Nat) (v : OutQueue) (k : Nat) : (d.setOutQueue n v).slice k = d.slice k := rfl
@[simp] theorem setOutQueue_stall (n : Nat) (v : OutQueue) (k : Nat) : (d.setOutQueue n v).stall k = d.stall k := rfl
@[simp] theorem setOutQueue_outQueue_same (n : Nat) (v : OutQueue) : (d.setOutQueue n v).outQueue n = v := Table.get_set_same _ _ _ _
theorem setOutQueue_outQueue_ne (n : Nat) (v : OutQueue) {k : Nat} (h : n ≠ k) : (d.setOutQueue n v).outQueue k = d.outQueue k := Table.get_set_ne _ _ _ h
@[simp] theorem setOutQueue_ring (n : Nat) (v : OutQueue) (k : Nat) : (d.setOutQueue n v).ring k = d.ring k := rfl
@[simp] theorem setOutQueue_vec (n : Nat) (v : OutQueue) (k : Nat) : (d.setOutQueue n v).vec k = d.vec k := rfl
@[simp] theorem setOutQueue_obj (n : Nat) (v : OutQueue) (k : Nat) : (d.setOutQueue n v).obj k = d.obj k := rfl
@[simp] theorem setOutQueue_fence (n : Nat) (v : OutQueue) (k : Nat) : (d.setOutQueue n v).fence k = d.fence k := rfl
@[simp] theorem setOutQueue_seq (n : Nat) (v : OutQueue) (k : Nat) : (d.setOutQueue n v).seq k = d.seq k := rfl
@[simp] theorem setOutQueue_pdk (n : Nat) (v : OutQueue) (k : Nat) : (d.setOutQueue n v).pdk k = d.pdk k := rfl
@[simp] theorem setOutQueue_pdkSec (n : Nat) (v : OutQueue) (k : Nat) : (d.setOutQueue n v).pdkSec k = d.pdkSec k := rfl
@[simp] theorem setOutQueue_window (n : Nat) (v : OutQueue) (k : Nat) : (d.setOutQueue n v).window k = d.window k := rfl
@[simp] theorem setOutQueue_chan (n : Nat) (v : OutQueue) (k : Nat) : (d.setOutQueue n v).chan k = d.chan k := rfl
@[simp] theorem setOutQueue_port (n : Nat) (v : OutQueue) (k : Nat) : (d.setOutQueue n v).port k = d.port k := rfl
@[simp] theorem setOutQueue_binding (n : Nat) (v : OutQueue) (k : Nat) : (d.setOutQueue n v).binding k = d.binding k := rfl
@[simp] theorem setOutQueue_alarm (n : Nat) (v : OutQueue) (k : Nat) : (d.setOutQueue n v).alarm k = d.alarm k := rfl
@[simp] theorem setOutQueue_job (n : Nat) (v : OutQueue) (k : Nat) : (d.setOutQueue n v).job k = d.job k := rfl
theorem setOutQueue_outQueue (n : Nat) (v : OutQueue) (k : Nat) : (d.setOutQueue n v).outQueue k = if n = k then v else d.outQueue k := by
  split
  · subst_vars; simp
  · exact d.setOutQueue_outQueue_ne n v ‹_›

/-! ### `setRing` -/

@[simp] theorem setRing_fuse (n : Nat) (v : Ring) : (d.setRing n v).fuse = d.fuse := rfl
@[simp] theorem setRing_cal (n : Nat) (v : Ring) : (d.setRing n v).cal = d.cal := rfl
@[simp] theorem setRing_tally (n : Nat) (v : Ring) : (d.setRing n v).tally = d.tally := rfl
@[simp] theorem setRing_glb (n : Nat) (v : Ring) : (d.setRing n v).glb = d.glb := rfl
@[simp] theorem setRing_vecs (n : Nat) (v : Ring) : (d.setRing n v).vecs = d.vecs := rfl
@[simp] theorem setRing_stalls (n : Nat) (v : Ring) : (d.setRing n v).stalls = d.stalls := rfl
@[simp] theorem setRing_queues (n : Nat) (v : Ring) : (d.setRing n v).queues = d.queues := rfl
@[simp] theorem setRing_objs (n : Nat) (v : Ring) : (d.setRing n v).objs = d.objs := rfl
@[simp] theorem setRing_fences (n : Nat) (v : Ring) : (d.setRing n v).fences = d.fences := rfl
@[simp] theorem setRing_seqs (n : Nat) (v : Ring) : (d.setRing n v).seqs = d.seqs := rfl
@[simp] theorem setRing_pdks (n : Nat) (v : Ring) : (d.setRing n v).pdks = d.pdks := rfl
@[simp] theorem setRing_jobs (n : Nat) (v : Ring) : (d.setRing n v).jobs = d.jobs := rfl
@[simp] theorem setRing_nextJob (n : Nat) (v : Ring) : (d.setRing n v).nextJob = d.nextJob := rfl
@[simp] theorem setRing_rounds (n : Nat) (v : Ring) : (d.setRing n v).rounds = d.rounds := rfl
@[simp] theorem setRing_cores (n : Nat) (v : Ring) : (d.setRing n v).cores = d.cores := rfl
@[simp] theorem setRing_slices (n : Nat) (v : Ring) : (d.setRing n v).slices = d.slices := rfl
@[simp] theorem setRing_saved (n : Nat) (v : Ring) : (d.setRing n v).saved = d.saved := rfl
@[simp] theorem setRing_windows (n : Nat) (v : Ring) : (d.setRing n v).windows = d.windows := rfl
@[simp] theorem setRing_pieces (n : Nat) (v : Ring) : (d.setRing n v).pieces = d.pieces := rfl
@[simp] theorem setRing_nextPiece (n : Nat) (v : Ring) : (d.setRing n v).nextPiece = d.nextPiece := rfl
@[simp] theorem setRing_sends (n : Nat) (v : Ring) : (d.setRing n v).sends = d.sends := rfl
@[simp] theorem setRing_pushes (n : Nat) (v : Ring) : (d.setRing n v).pushes = d.pushes := rfl
@[simp] theorem setRing_skid (n : Nat) (v : Ring) : (d.setRing n v).skid = d.skid := rfl
@[simp] theorem setRing_chans (n : Nat) (v : Ring) : (d.setRing n v).chans = d.chans := rfl
@[simp] theorem setRing_segs (n : Nat) (v : Ring) : (d.setRing n v).segs = d.segs := rfl
@[simp] theorem setRing_xlt (n : Nat) (v : Ring) : (d.setRing n v).xlt = d.xlt := rfl
@[simp] theorem setRing_links (n : Nat) (v : Ring) : (d.setRing n v).links = d.links := rfl
@[simp] theorem setRing_power (n : Nat) (v : Ring) : (d.setRing n v).power = d.power := rfl
@[simp] theorem setRing_sec (n : Nat) (v : Ring) : (d.setRing n v).sec = d.sec := rfl
@[simp] theorem setRing_resets (n : Nat) (v : Ring) : (d.setRing n v).resets = d.resets := rfl
@[simp] theorem setRing_dict (n : Nat) (v : Ring) : (d.setRing n v).dict = d.dict := rfl
@[simp] theorem setRing_flash (n : Nat) (v : Ring) : (d.setRing n v).flash = d.flash := rfl
@[simp] theorem setRing_boot (n : Nat) (v : Ring) : (d.setRing n v).boot = d.boot := rfl
@[simp] theorem setRing_coarse (n : Nat) (v : Ring) : (d.setRing n v).coarse = d.coarse := rfl
@[simp] theorem setRing_out (n : Nat) (v : Ring) : (d.setRing n v).out = d.out := rfl
@[simp] theorem setRing_free (n : Nat) (v : Ring) : (d.setRing n v).free = d.free := rfl
@[simp] theorem setRing_core (n : Nat) (v : Ring) (k : Nat) : (d.setRing n v).core k = d.core k := rfl
@[simp] theorem setRing_slice (n : Nat) (v : Ring) (k : Nat) : (d.setRing n v).slice k = d.slice k := rfl
@[simp] theorem setRing_stall (n : Nat) (v : Ring) (k : Nat) : (d.setRing n v).stall k = d.stall k := rfl
@[simp] theorem setRing_outQueue (n : Nat) (v : Ring) (k : Nat) : (d.setRing n v).outQueue k = d.outQueue k := rfl
@[simp] theorem setRing_ring_same (n : Nat) (v : Ring) : (d.setRing n v).ring n = v := Table.get_set_same _ _ _ _
theorem setRing_ring_ne (n : Nat) (v : Ring) {k : Nat} (h : n ≠ k) : (d.setRing n v).ring k = d.ring k := Table.get_set_ne _ _ _ h
@[simp] theorem setRing_vec (n : Nat) (v : Ring) (k : Nat) : (d.setRing n v).vec k = d.vec k := rfl
@[simp] theorem setRing_obj (n : Nat) (v : Ring) (k : Nat) : (d.setRing n v).obj k = d.obj k := rfl
@[simp] theorem setRing_fence (n : Nat) (v : Ring) (k : Nat) : (d.setRing n v).fence k = d.fence k := rfl
@[simp] theorem setRing_seq (n : Nat) (v : Ring) (k : Nat) : (d.setRing n v).seq k = d.seq k := rfl
@[simp] theorem setRing_pdk (n : Nat) (v : Ring) (k : Nat) : (d.setRing n v).pdk k = d.pdk k := rfl
@[simp] theorem setRing_pdkSec (n : Nat) (v : Ring) (k : Nat) : (d.setRing n v).pdkSec k = d.pdkSec k := rfl
@[simp] theorem setRing_window (n : Nat) (v : Ring) (k : Nat) : (d.setRing n v).window k = d.window k := rfl
@[simp] theorem setRing_chan (n : Nat) (v : Ring) (k : Nat) : (d.setRing n v).chan k = d.chan k := rfl
@[simp] theorem setRing_port (n : Nat) (v : Ring) (k : Nat) : (d.setRing n v).port k = d.port k := rfl
@[simp] theorem setRing_binding (n : Nat) (v : Ring) (k : Nat) : (d.setRing n v).binding k = d.binding k := rfl
@[simp] theorem setRing_alarm (n : Nat) (v : Ring) (k : Nat) : (d.setRing n v).alarm k = d.alarm k := rfl
@[simp] theorem setRing_job (n : Nat) (v : Ring) (k : Nat) : (d.setRing n v).job k = d.job k := rfl
theorem setRing_ring (n : Nat) (v : Ring) (k : Nat) : (d.setRing n v).ring k = if n = k then v else d.ring k := by
  split
  · subst_vars; simp
  · exact d.setRing_ring_ne n v ‹_›

/-! ### `setVec` -/

@[simp] theorem setVec_fuse (n : Nat) (v : Vec) : (d.setVec n v).fuse = d.fuse := rfl
@[simp] theorem setVec_cal (n : Nat) (v : Vec) : (d.setVec n v).cal = d.cal := rfl
@[simp] theorem setVec_tally (n : Nat) (v : Vec) : (d.setVec n v).tally = d.tally := rfl
@[simp] theorem setVec_glb (n : Nat) (v : Vec) : (d.setVec n v).glb = d.glb := rfl
@[simp] theorem setVec_rings (n : Nat) (v : Vec) : (d.setVec n v).rings = d.rings := rfl
@[simp] theorem setVec_stalls (n : Nat) (v : Vec) : (d.setVec n v).stalls = d.stalls := rfl
@[simp] theorem setVec_queues (n : Nat) (v : Vec) : (d.setVec n v).queues = d.queues := rfl
@[simp] theorem setVec_objs (n : Nat) (v : Vec) : (d.setVec n v).objs = d.objs := rfl
@[simp] theorem setVec_fences (n : Nat) (v : Vec) : (d.setVec n v).fences = d.fences := rfl
@[simp] theorem setVec_seqs (n : Nat) (v : Vec) : (d.setVec n v).seqs = d.seqs := rfl
@[simp] theorem setVec_pdks (n : Nat) (v : Vec) : (d.setVec n v).pdks = d.pdks := rfl
@[simp] theorem setVec_jobs (n : Nat) (v : Vec) : (d.setVec n v).jobs = d.jobs := rfl
@[simp] theorem setVec_nextJob (n : Nat) (v : Vec) : (d.setVec n v).nextJob = d.nextJob := rfl
@[simp] theorem setVec_rounds (n : Nat) (v : Vec) : (d.setVec n v).rounds = d.rounds := rfl
@[simp] theorem setVec_cores (n : Nat) (v : Vec) : (d.setVec n v).cores = d.cores := rfl
@[simp] theorem setVec_slices (n : Nat) (v : Vec) : (d.setVec n v).slices = d.slices := rfl
@[simp] theorem setVec_saved (n : Nat) (v : Vec) : (d.setVec n v).saved = d.saved := rfl
@[simp] theorem setVec_windows (n : Nat) (v : Vec) : (d.setVec n v).windows = d.windows := rfl
@[simp] theorem setVec_pieces (n : Nat) (v : Vec) : (d.setVec n v).pieces = d.pieces := rfl
@[simp] theorem setVec_nextPiece (n : Nat) (v : Vec) : (d.setVec n v).nextPiece = d.nextPiece := rfl
@[simp] theorem setVec_sends (n : Nat) (v : Vec) : (d.setVec n v).sends = d.sends := rfl
@[simp] theorem setVec_pushes (n : Nat) (v : Vec) : (d.setVec n v).pushes = d.pushes := rfl
@[simp] theorem setVec_skid (n : Nat) (v : Vec) : (d.setVec n v).skid = d.skid := rfl
@[simp] theorem setVec_chans (n : Nat) (v : Vec) : (d.setVec n v).chans = d.chans := rfl
@[simp] theorem setVec_segs (n : Nat) (v : Vec) : (d.setVec n v).segs = d.segs := rfl
@[simp] theorem setVec_xlt (n : Nat) (v : Vec) : (d.setVec n v).xlt = d.xlt := rfl
@[simp] theorem setVec_links (n : Nat) (v : Vec) : (d.setVec n v).links = d.links := rfl
@[simp] theorem setVec_power (n : Nat) (v : Vec) : (d.setVec n v).power = d.power := rfl
@[simp] theorem setVec_sec (n : Nat) (v : Vec) : (d.setVec n v).sec = d.sec := rfl
@[simp] theorem setVec_resets (n : Nat) (v : Vec) : (d.setVec n v).resets = d.resets := rfl
@[simp] theorem setVec_dict (n : Nat) (v : Vec) : (d.setVec n v).dict = d.dict := rfl
@[simp] theorem setVec_flash (n : Nat) (v : Vec) : (d.setVec n v).flash = d.flash := rfl
@[simp] theorem setVec_boot (n : Nat) (v : Vec) : (d.setVec n v).boot = d.boot := rfl
@[simp] theorem setVec_coarse (n : Nat) (v : Vec) : (d.setVec n v).coarse = d.coarse := rfl
@[simp] theorem setVec_out (n : Nat) (v : Vec) : (d.setVec n v).out = d.out := rfl
@[simp] theorem setVec_free (n : Nat) (v : Vec) : (d.setVec n v).free = d.free := rfl
@[simp] theorem setVec_core (n : Nat) (v : Vec) (k : Nat) : (d.setVec n v).core k = d.core k := rfl
@[simp] theorem setVec_slice (n : Nat) (v : Vec) (k : Nat) : (d.setVec n v).slice k = d.slice k := rfl
@[simp] theorem setVec_stall (n : Nat) (v : Vec) (k : Nat) : (d.setVec n v).stall k = d.stall k := rfl
@[simp] theorem setVec_outQueue (n : Nat) (v : Vec) (k : Nat) : (d.setVec n v).outQueue k = d.outQueue k := rfl
@[simp] theorem setVec_ring (n : Nat) (v : Vec) (k : Nat) : (d.setVec n v).ring k = d.ring k := rfl
@[simp] theorem setVec_vec_same (n : Nat) (v : Vec) : (d.setVec n v).vec n = v := Table.get_set_same _ _ _ _
theorem setVec_vec_ne (n : Nat) (v : Vec) {k : Nat} (h : n ≠ k) : (d.setVec n v).vec k = d.vec k := Table.get_set_ne _ _ _ h
@[simp] theorem setVec_obj (n : Nat) (v : Vec) (k : Nat) : (d.setVec n v).obj k = d.obj k := rfl
@[simp] theorem setVec_fence (n : Nat) (v : Vec) (k : Nat) : (d.setVec n v).fence k = d.fence k := rfl
@[simp] theorem setVec_seq (n : Nat) (v : Vec) (k : Nat) : (d.setVec n v).seq k = d.seq k := rfl
@[simp] theorem setVec_pdk (n : Nat) (v : Vec) (k : Nat) : (d.setVec n v).pdk k = d.pdk k := rfl
@[simp] theorem setVec_pdkSec (n : Nat) (v : Vec) (k : Nat) : (d.setVec n v).pdkSec k = d.pdkSec k := rfl
@[simp] theorem setVec_window (n : Nat) (v : Vec) (k : Nat) : (d.setVec n v).window k = d.window k := rfl
@[simp] theorem setVec_chan (n : Nat) (v : Vec) (k : Nat) : (d.setVec n v).chan k = d.chan k := rfl
@[simp] theorem setVec_port (n : Nat) (v : Vec) (k : Nat) : (d.setVec n v).port k = d.port k := rfl
@[simp] theorem setVec_binding (n : Nat) (v : Vec) (k : Nat) : (d.setVec n v).binding k = d.binding k := rfl
@[simp] theorem setVec_alarm (n : Nat) (v : Vec) (k : Nat) : (d.setVec n v).alarm k = d.alarm k := rfl
@[simp] theorem setVec_job (n : Nat) (v : Vec) (k : Nat) : (d.setVec n v).job k = d.job k := rfl
theorem setVec_vec (n : Nat) (v : Vec) (k : Nat) : (d.setVec n v).vec k = if n = k then v else d.vec k := by
  split
  · subst_vars; simp
  · exact d.setVec_vec_ne n v ‹_›

/-! ### `setObj` -/

@[simp] theorem setObj_fuse (n : Nat) (v : Obj) : (d.setObj n v).fuse = d.fuse := rfl
@[simp] theorem setObj_cal (n : Nat) (v : Obj) : (d.setObj n v).cal = d.cal := rfl
@[simp] theorem setObj_tally (n : Nat) (v : Obj) : (d.setObj n v).tally = d.tally := rfl
@[simp] theorem setObj_glb (n : Nat) (v : Obj) : (d.setObj n v).glb = d.glb := rfl
@[simp] theorem setObj_rings (n : Nat) (v : Obj) : (d.setObj n v).rings = d.rings := rfl
@[simp] theorem setObj_vecs (n : Nat) (v : Obj) : (d.setObj n v).vecs = d.vecs := rfl
@[simp] theorem setObj_stalls (n : Nat) (v : Obj) : (d.setObj n v).stalls = d.stalls := rfl
@[simp] theorem setObj_queues (n : Nat) (v : Obj) : (d.setObj n v).queues = d.queues := rfl
@[simp] theorem setObj_fences (n : Nat) (v : Obj) : (d.setObj n v).fences = d.fences := rfl
@[simp] theorem setObj_seqs (n : Nat) (v : Obj) : (d.setObj n v).seqs = d.seqs := rfl
@[simp] theorem setObj_pdks (n : Nat) (v : Obj) : (d.setObj n v).pdks = d.pdks := rfl
@[simp] theorem setObj_jobs (n : Nat) (v : Obj) : (d.setObj n v).jobs = d.jobs := rfl
@[simp] theorem setObj_nextJob (n : Nat) (v : Obj) : (d.setObj n v).nextJob = d.nextJob := rfl
@[simp] theorem setObj_rounds (n : Nat) (v : Obj) : (d.setObj n v).rounds = d.rounds := rfl
@[simp] theorem setObj_cores (n : Nat) (v : Obj) : (d.setObj n v).cores = d.cores := rfl
@[simp] theorem setObj_slices (n : Nat) (v : Obj) : (d.setObj n v).slices = d.slices := rfl
@[simp] theorem setObj_saved (n : Nat) (v : Obj) : (d.setObj n v).saved = d.saved := rfl
@[simp] theorem setObj_windows (n : Nat) (v : Obj) : (d.setObj n v).windows = d.windows := rfl
@[simp] theorem setObj_pieces (n : Nat) (v : Obj) : (d.setObj n v).pieces = d.pieces := rfl
@[simp] theorem setObj_nextPiece (n : Nat) (v : Obj) : (d.setObj n v).nextPiece = d.nextPiece := rfl
@[simp] theorem setObj_sends (n : Nat) (v : Obj) : (d.setObj n v).sends = d.sends := rfl
@[simp] theorem setObj_pushes (n : Nat) (v : Obj) : (d.setObj n v).pushes = d.pushes := rfl
@[simp] theorem setObj_skid (n : Nat) (v : Obj) : (d.setObj n v).skid = d.skid := rfl
@[simp] theorem setObj_chans (n : Nat) (v : Obj) : (d.setObj n v).chans = d.chans := rfl
@[simp] theorem setObj_segs (n : Nat) (v : Obj) : (d.setObj n v).segs = d.segs := rfl
@[simp] theorem setObj_xlt (n : Nat) (v : Obj) : (d.setObj n v).xlt = d.xlt := rfl
@[simp] theorem setObj_links (n : Nat) (v : Obj) : (d.setObj n v).links = d.links := rfl
@[simp] theorem setObj_power (n : Nat) (v : Obj) : (d.setObj n v).power = d.power := rfl
@[simp] theorem setObj_sec (n : Nat) (v : Obj) : (d.setObj n v).sec = d.sec := rfl
@[simp] theorem setObj_resets (n : Nat) (v : Obj) : (d.setObj n v).resets = d.resets := rfl
@[simp] theorem setObj_dict (n : Nat) (v : Obj) : (d.setObj n v).dict = d.dict := rfl
@[simp] theorem setObj_flash (n : Nat) (v : Obj) : (d.setObj n v).flash = d.flash := rfl
@[simp] theorem setObj_boot (n : Nat) (v : Obj) : (d.setObj n v).boot = d.boot := rfl
@[simp] theorem setObj_coarse (n : Nat) (v : Obj) : (d.setObj n v).coarse = d.coarse := rfl
@[simp] theorem setObj_out (n : Nat) (v : Obj) : (d.setObj n v).out = d.out := rfl
@[simp] theorem setObj_free (n : Nat) (v : Obj) : (d.setObj n v).free = d.free := rfl
@[simp] theorem setObj_core (n : Nat) (v : Obj) (k : Nat) : (d.setObj n v).core k = d.core k := rfl
@[simp] theorem setObj_slice (n : Nat) (v : Obj) (k : Nat) : (d.setObj n v).slice k = d.slice k := rfl
@[simp] theorem setObj_stall (n : Nat) (v : Obj) (k : Nat) : (d.setObj n v).stall k = d.stall k := rfl
@[simp] theorem setObj_outQueue (n : Nat) (v : Obj) (k : Nat) : (d.setObj n v).outQueue k = d.outQueue k := rfl
@[simp] theorem setObj_ring (n : Nat) (v : Obj) (k : Nat) : (d.setObj n v).ring k = d.ring k := rfl
@[simp] theorem setObj_vec (n : Nat) (v : Obj) (k : Nat) : (d.setObj n v).vec k = d.vec k := rfl
@[simp] theorem setObj_obj_same (n : Nat) (v : Obj) : (d.setObj n v).obj n = v := Table.get_set_same _ _ _ _
theorem setObj_obj_ne (n : Nat) (v : Obj) {k : Nat} (h : n ≠ k) : (d.setObj n v).obj k = d.obj k := Table.get_set_ne _ _ _ h
@[simp] theorem setObj_fence (n : Nat) (v : Obj) (k : Nat) : (d.setObj n v).fence k = d.fence k := rfl
@[simp] theorem setObj_seq (n : Nat) (v : Obj) (k : Nat) : (d.setObj n v).seq k = d.seq k := rfl
@[simp] theorem setObj_pdk (n : Nat) (v : Obj) (k : Nat) : (d.setObj n v).pdk k = d.pdk k := rfl
@[simp] theorem setObj_pdkSec (n : Nat) (v : Obj) (k : Nat) : (d.setObj n v).pdkSec k = d.pdkSec k := rfl
@[simp] theorem setObj_window (n : Nat) (v : Obj) (k : Nat) : (d.setObj n v).window k = d.window k := rfl
@[simp] theorem setObj_chan (n : Nat) (v : Obj) (k : Nat) : (d.setObj n v).chan k = d.chan k := rfl
@[simp] theorem setObj_port (n : Nat) (v : Obj) (k : Nat) : (d.setObj n v).port k = d.port k := rfl
@[simp] theorem setObj_binding (n : Nat) (v : Obj) (k : Nat) : (d.setObj n v).binding k = d.binding k := rfl
@[simp] theorem setObj_alarm (n : Nat) (v : Obj) (k : Nat) : (d.setObj n v).alarm k = d.alarm k := rfl
@[simp] theorem setObj_job (n : Nat) (v : Obj) (k : Nat) : (d.setObj n v).job k = d.job k := rfl
theorem setObj_obj (n : Nat) (v : Obj) (k : Nat) : (d.setObj n v).obj k = if n = k then v else d.obj k := by
  split
  · subst_vars; simp
  · exact d.setObj_obj_ne n v ‹_›

/-! ### `setFence` -/

@[simp] theorem setFence_fuse (n : Nat) (v : Fence) : (d.setFence n v).fuse = d.fuse := rfl
@[simp] theorem setFence_cal (n : Nat) (v : Fence) : (d.setFence n v).cal = d.cal := rfl
@[simp] theorem setFence_tally (n : Nat) (v : Fence) : (d.setFence n v).tally = d.tally := rfl
@[simp] theorem setFence_glb (n : Nat) (v : Fence) : (d.setFence n v).glb = d.glb := rfl
@[simp] theorem setFence_rings (n : Nat) (v : Fence) : (d.setFence n v).rings = d.rings := rfl
@[simp] theorem setFence_vecs (n : Nat) (v : Fence) : (d.setFence n v).vecs = d.vecs := rfl
@[simp] theorem setFence_stalls (n : Nat) (v : Fence) : (d.setFence n v).stalls = d.stalls := rfl
@[simp] theorem setFence_queues (n : Nat) (v : Fence) : (d.setFence n v).queues = d.queues := rfl
@[simp] theorem setFence_objs (n : Nat) (v : Fence) : (d.setFence n v).objs = d.objs := rfl
@[simp] theorem setFence_seqs (n : Nat) (v : Fence) : (d.setFence n v).seqs = d.seqs := rfl
@[simp] theorem setFence_pdks (n : Nat) (v : Fence) : (d.setFence n v).pdks = d.pdks := rfl
@[simp] theorem setFence_jobs (n : Nat) (v : Fence) : (d.setFence n v).jobs = d.jobs := rfl
@[simp] theorem setFence_nextJob (n : Nat) (v : Fence) : (d.setFence n v).nextJob = d.nextJob := rfl
@[simp] theorem setFence_rounds (n : Nat) (v : Fence) : (d.setFence n v).rounds = d.rounds := rfl
@[simp] theorem setFence_cores (n : Nat) (v : Fence) : (d.setFence n v).cores = d.cores := rfl
@[simp] theorem setFence_slices (n : Nat) (v : Fence) : (d.setFence n v).slices = d.slices := rfl
@[simp] theorem setFence_saved (n : Nat) (v : Fence) : (d.setFence n v).saved = d.saved := rfl
@[simp] theorem setFence_windows (n : Nat) (v : Fence) : (d.setFence n v).windows = d.windows := rfl
@[simp] theorem setFence_pieces (n : Nat) (v : Fence) : (d.setFence n v).pieces = d.pieces := rfl
@[simp] theorem setFence_nextPiece (n : Nat) (v : Fence) : (d.setFence n v).nextPiece = d.nextPiece := rfl
@[simp] theorem setFence_sends (n : Nat) (v : Fence) : (d.setFence n v).sends = d.sends := rfl
@[simp] theorem setFence_pushes (n : Nat) (v : Fence) : (d.setFence n v).pushes = d.pushes := rfl
@[simp] theorem setFence_skid (n : Nat) (v : Fence) : (d.setFence n v).skid = d.skid := rfl
@[simp] theorem setFence_chans (n : Nat) (v : Fence) : (d.setFence n v).chans = d.chans := rfl
@[simp] theorem setFence_segs (n : Nat) (v : Fence) : (d.setFence n v).segs = d.segs := rfl
@[simp] theorem setFence_xlt (n : Nat) (v : Fence) : (d.setFence n v).xlt = d.xlt := rfl
@[simp] theorem setFence_links (n : Nat) (v : Fence) : (d.setFence n v).links = d.links := rfl
@[simp] theorem setFence_power (n : Nat) (v : Fence) : (d.setFence n v).power = d.power := rfl
@[simp] theorem setFence_sec (n : Nat) (v : Fence) : (d.setFence n v).sec = d.sec := rfl
@[simp] theorem setFence_resets (n : Nat) (v : Fence) : (d.setFence n v).resets = d.resets := rfl
@[simp] theorem setFence_dict (n : Nat) (v : Fence) : (d.setFence n v).dict = d.dict := rfl
@[simp] theorem setFence_flash (n : Nat) (v : Fence) : (d.setFence n v).flash = d.flash := rfl
@[simp] theorem setFence_boot (n : Nat) (v : Fence) : (d.setFence n v).boot = d.boot := rfl
@[simp] theorem setFence_coarse (n : Nat) (v : Fence) : (d.setFence n v).coarse = d.coarse := rfl
@[simp] theorem setFence_out (n : Nat) (v : Fence) : (d.setFence n v).out = d.out := rfl
@[simp] theorem setFence_free (n : Nat) (v : Fence) : (d.setFence n v).free = d.free := rfl
@[simp] theorem setFence_core (n : Nat) (v : Fence) (k : Nat) : (d.setFence n v).core k = d.core k := rfl
@[simp] theorem setFence_slice (n : Nat) (v : Fence) (k : Nat) : (d.setFence n v).slice k = d.slice k := rfl
@[simp] theorem setFence_stall (n : Nat) (v : Fence) (k : Nat) : (d.setFence n v).stall k = d.stall k := rfl
@[simp] theorem setFence_outQueue (n : Nat) (v : Fence) (k : Nat) : (d.setFence n v).outQueue k = d.outQueue k := rfl
@[simp] theorem setFence_ring (n : Nat) (v : Fence) (k : Nat) : (d.setFence n v).ring k = d.ring k := rfl
@[simp] theorem setFence_vec (n : Nat) (v : Fence) (k : Nat) : (d.setFence n v).vec k = d.vec k := rfl
@[simp] theorem setFence_obj (n : Nat) (v : Fence) (k : Nat) : (d.setFence n v).obj k = d.obj k := rfl
@[simp] theorem setFence_fence_same (n : Nat) (v : Fence) : (d.setFence n v).fence n = v := Table.get_set_same _ _ _ _
theorem setFence_fence_ne (n : Nat) (v : Fence) {k : Nat} (h : n ≠ k) : (d.setFence n v).fence k = d.fence k := Table.get_set_ne _ _ _ h
@[simp] theorem setFence_seq (n : Nat) (v : Fence) (k : Nat) : (d.setFence n v).seq k = d.seq k := rfl
@[simp] theorem setFence_pdk (n : Nat) (v : Fence) (k : Nat) : (d.setFence n v).pdk k = d.pdk k := rfl
@[simp] theorem setFence_pdkSec (n : Nat) (v : Fence) (k : Nat) : (d.setFence n v).pdkSec k = d.pdkSec k := rfl
@[simp] theorem setFence_window (n : Nat) (v : Fence) (k : Nat) : (d.setFence n v).window k = d.window k := rfl
@[simp] theorem setFence_chan (n : Nat) (v : Fence) (k : Nat) : (d.setFence n v).chan k = d.chan k := rfl
@[simp] theorem setFence_port (n : Nat) (v : Fence) (k : Nat) : (d.setFence n v).port k = d.port k := rfl
@[simp] theorem setFence_binding (n : Nat) (v : Fence) (k : Nat) : (d.setFence n v).binding k = d.binding k := rfl
@[simp] theorem setFence_alarm (n : Nat) (v : Fence) (k : Nat) : (d.setFence n v).alarm k = d.alarm k := rfl
@[simp] theorem setFence_job (n : Nat) (v : Fence) (k : Nat) : (d.setFence n v).job k = d.job k := rfl
theorem setFence_fence (n : Nat) (v : Fence) (k : Nat) : (d.setFence n v).fence k = if n = k then v else d.fence k := by
  split
  · subst_vars; simp
  · exact d.setFence_fence_ne n v ‹_›

/-! ### `setSeq` -/

@[simp] theorem setSeq_fuse (n : Nat) (v : Seq) : (d.setSeq n v).fuse = d.fuse := rfl
@[simp] theorem setSeq_cal (n : Nat) (v : Seq) : (d.setSeq n v).cal = d.cal := rfl
@[simp] theorem setSeq_tally (n : Nat) (v : Seq) : (d.setSeq n v).tally = d.tally := rfl
@[simp] theorem setSeq_glb (n : Nat) (v : Seq) : (d.setSeq n v).glb = d.glb := rfl
@[simp] theorem setSeq_rings (n : Nat) (v : Seq) : (d.setSeq n v).rings = d.rings := rfl
@[simp] theorem setSeq_vecs (n : Nat) (v : Seq) : (d.setSeq n v).vecs = d.vecs := rfl
@[simp] theorem setSeq_stalls (n : Nat) (v : Seq) : (d.setSeq n v).stalls = d.stalls := rfl
@[simp] theorem setSeq_queues (n : Nat) (v : Seq) : (d.setSeq n v).queues = d.queues := rfl
@[simp] theorem setSeq_objs (n : Nat) (v : Seq) : (d.setSeq n v).objs = d.objs := rfl
@[simp] theorem setSeq_fences (n : Nat) (v : Seq) : (d.setSeq n v).fences = d.fences := rfl
@[simp] theorem setSeq_pdks (n : Nat) (v : Seq) : (d.setSeq n v).pdks = d.pdks := rfl
@[simp] theorem setSeq_jobs (n : Nat) (v : Seq) : (d.setSeq n v).jobs = d.jobs := rfl
@[simp] theorem setSeq_nextJob (n : Nat) (v : Seq) : (d.setSeq n v).nextJob = d.nextJob := rfl
@[simp] theorem setSeq_rounds (n : Nat) (v : Seq) : (d.setSeq n v).rounds = d.rounds := rfl
@[simp] theorem setSeq_cores (n : Nat) (v : Seq) : (d.setSeq n v).cores = d.cores := rfl
@[simp] theorem setSeq_slices (n : Nat) (v : Seq) : (d.setSeq n v).slices = d.slices := rfl
@[simp] theorem setSeq_saved (n : Nat) (v : Seq) : (d.setSeq n v).saved = d.saved := rfl
@[simp] theorem setSeq_windows (n : Nat) (v : Seq) : (d.setSeq n v).windows = d.windows := rfl
@[simp] theorem setSeq_pieces (n : Nat) (v : Seq) : (d.setSeq n v).pieces = d.pieces := rfl
@[simp] theorem setSeq_nextPiece (n : Nat) (v : Seq) : (d.setSeq n v).nextPiece = d.nextPiece := rfl
@[simp] theorem setSeq_sends (n : Nat) (v : Seq) : (d.setSeq n v).sends = d.sends := rfl
@[simp] theorem setSeq_pushes (n : Nat) (v : Seq) : (d.setSeq n v).pushes = d.pushes := rfl
@[simp] theorem setSeq_skid (n : Nat) (v : Seq) : (d.setSeq n v).skid = d.skid := rfl
@[simp] theorem setSeq_chans (n : Nat) (v : Seq) : (d.setSeq n v).chans = d.chans := rfl
@[simp] theorem setSeq_segs (n : Nat) (v : Seq) : (d.setSeq n v).segs = d.segs := rfl
@[simp] theorem setSeq_xlt (n : Nat) (v : Seq) : (d.setSeq n v).xlt = d.xlt := rfl
@[simp] theorem setSeq_links (n : Nat) (v : Seq) : (d.setSeq n v).links = d.links := rfl
@[simp] theorem setSeq_power (n : Nat) (v : Seq) : (d.setSeq n v).power = d.power := rfl
@[simp] theorem setSeq_sec (n : Nat) (v : Seq) : (d.setSeq n v).sec = d.sec := rfl
@[simp] theorem setSeq_resets (n : Nat) (v : Seq) : (d.setSeq n v).resets = d.resets := rfl
@[simp] theorem setSeq_dict (n : Nat) (v : Seq) : (d.setSeq n v).dict = d.dict := rfl
@[simp] theorem setSeq_flash (n : Nat) (v : Seq) : (d.setSeq n v).flash = d.flash := rfl
@[simp] theorem setSeq_boot (n : Nat) (v : Seq) : (d.setSeq n v).boot = d.boot := rfl
@[simp] theorem setSeq_coarse (n : Nat) (v : Seq) : (d.setSeq n v).coarse = d.coarse := rfl
@[simp] theorem setSeq_out (n : Nat) (v : Seq) : (d.setSeq n v).out = d.out := rfl
@[simp] theorem setSeq_free (n : Nat) (v : Seq) : (d.setSeq n v).free = d.free := rfl
@[simp] theorem setSeq_core (n : Nat) (v : Seq) (k : Nat) : (d.setSeq n v).core k = d.core k := rfl
@[simp] theorem setSeq_slice (n : Nat) (v : Seq) (k : Nat) : (d.setSeq n v).slice k = d.slice k := rfl
@[simp] theorem setSeq_stall (n : Nat) (v : Seq) (k : Nat) : (d.setSeq n v).stall k = d.stall k := rfl
@[simp] theorem setSeq_outQueue (n : Nat) (v : Seq) (k : Nat) : (d.setSeq n v).outQueue k = d.outQueue k := rfl
@[simp] theorem setSeq_ring (n : Nat) (v : Seq) (k : Nat) : (d.setSeq n v).ring k = d.ring k := rfl
@[simp] theorem setSeq_vec (n : Nat) (v : Seq) (k : Nat) : (d.setSeq n v).vec k = d.vec k := rfl
@[simp] theorem setSeq_obj (n : Nat) (v : Seq) (k : Nat) : (d.setSeq n v).obj k = d.obj k := rfl
@[simp] theorem setSeq_fence (n : Nat) (v : Seq) (k : Nat) : (d.setSeq n v).fence k = d.fence k := rfl
@[simp] theorem setSeq_seq_same (n : Nat) (v : Seq) : (d.setSeq n v).seq n = v := Table.get_set_same _ _ _ _
theorem setSeq_seq_ne (n : Nat) (v : Seq) {k : Nat} (h : n ≠ k) : (d.setSeq n v).seq k = d.seq k := Table.get_set_ne _ _ _ h
@[simp] theorem setSeq_pdk (n : Nat) (v : Seq) (k : Nat) : (d.setSeq n v).pdk k = d.pdk k := rfl
@[simp] theorem setSeq_pdkSec (n : Nat) (v : Seq) (k : Nat) : (d.setSeq n v).pdkSec k = d.pdkSec k := rfl
@[simp] theorem setSeq_window (n : Nat) (v : Seq) (k : Nat) : (d.setSeq n v).window k = d.window k := rfl
@[simp] theorem setSeq_chan (n : Nat) (v : Seq) (k : Nat) : (d.setSeq n v).chan k = d.chan k := rfl
@[simp] theorem setSeq_port (n : Nat) (v : Seq) (k : Nat) : (d.setSeq n v).port k = d.port k := rfl
@[simp] theorem setSeq_binding (n : Nat) (v : Seq) (k : Nat) : (d.setSeq n v).binding k = d.binding k := rfl
@[simp] theorem setSeq_alarm (n : Nat) (v : Seq) (k : Nat) : (d.setSeq n v).alarm k = d.alarm k := rfl
@[simp] theorem setSeq_job (n : Nat) (v : Seq) (k : Nat) : (d.setSeq n v).job k = d.job k := rfl
theorem setSeq_seq (n : Nat) (v : Seq) (k : Nat) : (d.setSeq n v).seq k = if n = k then v else d.seq k := by
  split
  · subst_vars; simp
  · exact d.setSeq_seq_ne n v ‹_›

/-! ### `setPdk` -/

@[simp] theorem setPdk_fuse (n : Nat) (v : Pdk) : (d.setPdk n v).fuse = d.fuse := rfl
@[simp] theorem setPdk_cal (n : Nat) (v : Pdk) : (d.setPdk n v).cal = d.cal := rfl
@[simp] theorem setPdk_tally (n : Nat) (v : Pdk) : (d.setPdk n v).tally = d.tally := rfl
@[simp] theorem setPdk_glb (n : Nat) (v : Pdk) : (d.setPdk n v).glb = d.glb := rfl
@[simp] theorem setPdk_rings (n : Nat) (v : Pdk) : (d.setPdk n v).rings = d.rings := rfl
@[simp] theorem setPdk_vecs (n : Nat) (v : Pdk) : (d.setPdk n v).vecs = d.vecs := rfl
@[simp] theorem setPdk_stalls (n : Nat) (v : Pdk) : (d.setPdk n v).stalls = d.stalls := rfl
@[simp] theorem setPdk_queues (n : Nat) (v : Pdk) : (d.setPdk n v).queues = d.queues := rfl
@[simp] theorem setPdk_objs (n : Nat) (v : Pdk) : (d.setPdk n v).objs = d.objs := rfl
@[simp] theorem setPdk_fences (n : Nat) (v : Pdk) : (d.setPdk n v).fences = d.fences := rfl
@[simp] theorem setPdk_seqs (n : Nat) (v : Pdk) : (d.setPdk n v).seqs = d.seqs := rfl
@[simp] theorem setPdk_jobs (n : Nat) (v : Pdk) : (d.setPdk n v).jobs = d.jobs := rfl
@[simp] theorem setPdk_nextJob (n : Nat) (v : Pdk) : (d.setPdk n v).nextJob = d.nextJob := rfl
@[simp] theorem setPdk_rounds (n : Nat) (v : Pdk) : (d.setPdk n v).rounds = d.rounds := rfl
@[simp] theorem setPdk_cores (n : Nat) (v : Pdk) : (d.setPdk n v).cores = d.cores := rfl
@[simp] theorem setPdk_slices (n : Nat) (v : Pdk) : (d.setPdk n v).slices = d.slices := rfl
@[simp] theorem setPdk_saved (n : Nat) (v : Pdk) : (d.setPdk n v).saved = d.saved := rfl
@[simp] theorem setPdk_windows (n : Nat) (v : Pdk) : (d.setPdk n v).windows = d.windows := rfl
@[simp] theorem setPdk_pieces (n : Nat) (v : Pdk) : (d.setPdk n v).pieces = d.pieces := rfl
@[simp] theorem setPdk_nextPiece (n : Nat) (v : Pdk) : (d.setPdk n v).nextPiece = d.nextPiece := rfl
@[simp] theorem setPdk_sends (n : Nat) (v : Pdk) : (d.setPdk n v).sends = d.sends := rfl
@[simp] theorem setPdk_pushes (n : Nat) (v : Pdk) : (d.setPdk n v).pushes = d.pushes := rfl
@[simp] theorem setPdk_skid (n : Nat) (v : Pdk) : (d.setPdk n v).skid = d.skid := rfl
@[simp] theorem setPdk_chans (n : Nat) (v : Pdk) : (d.setPdk n v).chans = d.chans := rfl
@[simp] theorem setPdk_segs (n : Nat) (v : Pdk) : (d.setPdk n v).segs = d.segs := rfl
@[simp] theorem setPdk_xlt (n : Nat) (v : Pdk) : (d.setPdk n v).xlt = d.xlt := rfl
@[simp] theorem setPdk_links (n : Nat) (v : Pdk) : (d.setPdk n v).links = d.links := rfl
@[simp] theorem setPdk_power (n : Nat) (v : Pdk) : (d.setPdk n v).power = d.power := rfl
@[simp] theorem setPdk_sec (n : Nat) (v : Pdk) : (d.setPdk n v).sec = d.sec := rfl
@[simp] theorem setPdk_resets (n : Nat) (v : Pdk) : (d.setPdk n v).resets = d.resets := rfl
@[simp] theorem setPdk_dict (n : Nat) (v : Pdk) : (d.setPdk n v).dict = d.dict := rfl
@[simp] theorem setPdk_flash (n : Nat) (v : Pdk) : (d.setPdk n v).flash = d.flash := rfl
@[simp] theorem setPdk_boot (n : Nat) (v : Pdk) : (d.setPdk n v).boot = d.boot := rfl
@[simp] theorem setPdk_coarse (n : Nat) (v : Pdk) : (d.setPdk n v).coarse = d.coarse := rfl
@[simp] theorem setPdk_out (n : Nat) (v : Pdk) : (d.setPdk n v).out = d.out := rfl
@[simp] theorem setPdk_free (n : Nat) (v : Pdk) : (d.setPdk n v).free = d.free := rfl
@[simp] theorem setPdk_core (n : Nat) (v : Pdk) (k : Nat) : (d.setPdk n v).core k = d.core k := rfl
@[simp] theorem setPdk_slice (n : Nat) (v : Pdk) (k : Nat) : (d.setPdk n v).slice k = d.slice k := rfl
@[simp] theorem setPdk_stall (n : Nat) (v : Pdk) (k : Nat) : (d.setPdk n v).stall k = d.stall k := rfl
@[simp] theorem setPdk_outQueue (n : Nat) (v : Pdk) (k : Nat) : (d.setPdk n v).outQueue k = d.outQueue k := rfl
@[simp] theorem setPdk_ring (n : Nat) (v : Pdk) (k : Nat) : (d.setPdk n v).ring k = d.ring k := rfl
@[simp] theorem setPdk_vec (n : Nat) (v : Pdk) (k : Nat) : (d.setPdk n v).vec k = d.vec k := rfl
@[simp] theorem setPdk_obj (n : Nat) (v : Pdk) (k : Nat) : (d.setPdk n v).obj k = d.obj k := rfl
@[simp] theorem setPdk_fence (n : Nat) (v : Pdk) (k : Nat) : (d.setPdk n v).fence k = d.fence k := rfl
@[simp] theorem setPdk_seq (n : Nat) (v : Pdk) (k : Nat) : (d.setPdk n v).seq k = d.seq k := rfl
@[simp] theorem setPdk_pdk_same (n : Nat) (v : Pdk) : (d.setPdk n v).pdk n = v := Table.get_set_same _ _ _ _
theorem setPdk_pdk_ne (n : Nat) (v : Pdk) {k : Nat} (h : n ≠ k) : (d.setPdk n v).pdk k = d.pdk k := Table.get_set_ne _ _ _ h
@[simp] theorem setPdk_pdkSec (n : Nat) (v : Pdk) (k : Nat) : (d.setPdk n v).pdkSec k = d.pdkSec k := rfl
@[simp] theorem setPdk_window (n : Nat) (v : Pdk) (k : Nat) : (d.setPdk n v).window k = d.window k := rfl
@[simp] theorem setPdk_chan (n : Nat) (v : Pdk) (k : Nat) : (d.setPdk n v).chan k = d.chan k := rfl
@[simp] theorem setPdk_port (n : Nat) (v : Pdk) (k : Nat) : (d.setPdk n v).port k = d.port k := rfl
@[simp] theorem setPdk_binding (n : Nat) (v : Pdk) (k : Nat) : (d.setPdk n v).binding k = d.binding k := rfl
@[simp] theorem setPdk_alarm (n : Nat) (v : Pdk) (k : Nat) : (d.setPdk n v).alarm k = d.alarm k := rfl
@[simp] theorem setPdk_job (n : Nat) (v : Pdk) (k : Nat) : (d.setPdk n v).job k = d.job k := rfl
theorem setPdk_pdk (n : Nat) (v : Pdk) (k : Nat) : (d.setPdk n v).pdk k = if n = k then v else d.pdk k := by
  split
  · subst_vars; simp
  · exact d.setPdk_pdk_ne n v ‹_›

/-! ### `setPdkSec` -/

@[simp] theorem setPdkSec_fuse (n : Nat) (v : PdkSec) : (d.setPdkSec n v).fuse = d.fuse := rfl
@[simp] theorem setPdkSec_cal (n : Nat) (v : PdkSec) : (d.setPdkSec n v).cal = d.cal := rfl
@[simp] theorem setPdkSec_tally (n : Nat) (v : PdkSec) : (d.setPdkSec n v).tally = d.tally := rfl
@[simp] theorem setPdkSec_glb (n : Nat) (v : PdkSec) : (d.setPdkSec n v).glb = d.glb := rfl
@[simp] theorem setPdkSec_rings (n : Nat) (v : PdkSec) : (d.setPdkSec n v).rings = d.rings := rfl
@[simp] theorem setPdkSec_vecs (n : Nat) (v : PdkSec) : (d.setPdkSec n v).vecs = d.vecs := rfl
@[simp] theorem setPdkSec_stalls (n : Nat) (v : PdkSec) : (d.setPdkSec n v).stalls = d.stalls := rfl
@[simp] theorem setPdkSec_queues (n : Nat) (v : PdkSec) : (d.setPdkSec n v).queues = d.queues := rfl
@[simp] theorem setPdkSec_objs (n : Nat) (v : PdkSec) : (d.setPdkSec n v).objs = d.objs := rfl
@[simp] theorem setPdkSec_fences (n : Nat) (v : PdkSec) : (d.setPdkSec n v).fences = d.fences := rfl
@[simp] theorem setPdkSec_seqs (n : Nat) (v : PdkSec) : (d.setPdkSec n v).seqs = d.seqs := rfl
@[simp] theorem setPdkSec_pdks (n : Nat) (v : PdkSec) : (d.setPdkSec n v).pdks = d.pdks := rfl
@[simp] theorem setPdkSec_jobs (n : Nat) (v : PdkSec) : (d.setPdkSec n v).jobs = d.jobs := rfl
@[simp] theorem setPdkSec_nextJob (n : Nat) (v : PdkSec) : (d.setPdkSec n v).nextJob = d.nextJob := rfl
@[simp] theorem setPdkSec_rounds (n : Nat) (v : PdkSec) : (d.setPdkSec n v).rounds = d.rounds := rfl
@[simp] theorem setPdkSec_cores (n : Nat) (v : PdkSec) : (d.setPdkSec n v).cores = d.cores := rfl
@[simp] theorem setPdkSec_slices (n : Nat) (v : PdkSec) : (d.setPdkSec n v).slices = d.slices := rfl
@[simp] theorem setPdkSec_saved (n : Nat) (v : PdkSec) : (d.setPdkSec n v).saved = d.saved := rfl
@[simp] theorem setPdkSec_windows (n : Nat) (v : PdkSec) : (d.setPdkSec n v).windows = d.windows := rfl
@[simp] theorem setPdkSec_pieces (n : Nat) (v : PdkSec) : (d.setPdkSec n v).pieces = d.pieces := rfl
@[simp] theorem setPdkSec_nextPiece (n : Nat) (v : PdkSec) : (d.setPdkSec n v).nextPiece = d.nextPiece := rfl
@[simp] theorem setPdkSec_sends (n : Nat) (v : PdkSec) : (d.setPdkSec n v).sends = d.sends := rfl
@[simp] theorem setPdkSec_pushes (n : Nat) (v : PdkSec) : (d.setPdkSec n v).pushes = d.pushes := rfl
@[simp] theorem setPdkSec_skid (n : Nat) (v : PdkSec) : (d.setPdkSec n v).skid = d.skid := rfl
@[simp] theorem setPdkSec_chans (n : Nat) (v : PdkSec) : (d.setPdkSec n v).chans = d.chans := rfl
@[simp] theorem setPdkSec_segs (n : Nat) (v : PdkSec) : (d.setPdkSec n v).segs = d.segs := rfl
@[simp] theorem setPdkSec_xlt (n : Nat) (v : PdkSec) : (d.setPdkSec n v).xlt = d.xlt := rfl
@[simp] theorem setPdkSec_links (n : Nat) (v : PdkSec) : (d.setPdkSec n v).links = d.links := rfl
@[simp] theorem setPdkSec_power (n : Nat) (v : PdkSec) : (d.setPdkSec n v).power = d.power := rfl
@[simp] theorem setPdkSec_resets (n : Nat) (v : PdkSec) : (d.setPdkSec n v).resets = d.resets := rfl
@[simp] theorem setPdkSec_dict (n : Nat) (v : PdkSec) : (d.setPdkSec n v).dict = d.dict := rfl
@[simp] theorem setPdkSec_flash (n : Nat) (v : PdkSec) : (d.setPdkSec n v).flash = d.flash := rfl
@[simp] theorem setPdkSec_boot (n : Nat) (v : PdkSec) : (d.setPdkSec n v).boot = d.boot := rfl
@[simp] theorem setPdkSec_coarse (n : Nat) (v : PdkSec) : (d.setPdkSec n v).coarse = d.coarse := rfl
@[simp] theorem setPdkSec_out (n : Nat) (v : PdkSec) : (d.setPdkSec n v).out = d.out := rfl
@[simp] theorem setPdkSec_free (n : Nat) (v : PdkSec) : (d.setPdkSec n v).free = d.free := rfl
@[simp] theorem setPdkSec_core (n : Nat) (v : PdkSec) (k : Nat) : (d.setPdkSec n v).core k = d.core k := rfl
@[simp] theorem setPdkSec_slice (n : Nat) (v : PdkSec) (k : Nat) : (d.setPdkSec n v).slice k = d.slice k := rfl
@[simp] theorem setPdkSec_stall (n : Nat) (v : PdkSec) (k : Nat) : (d.setPdkSec n v).stall k = d.stall k := rfl
@[simp] theorem setPdkSec_outQueue (n : Nat) (v : PdkSec) (k : Nat) : (d.setPdkSec n v).outQueue k = d.outQueue k := rfl
@[simp] theorem setPdkSec_ring (n : Nat) (v : PdkSec) (k : Nat) : (d.setPdkSec n v).ring k = d.ring k := rfl
@[simp] theorem setPdkSec_vec (n : Nat) (v : PdkSec) (k : Nat) : (d.setPdkSec n v).vec k = d.vec k := rfl
@[simp] theorem setPdkSec_obj (n : Nat) (v : PdkSec) (k : Nat) : (d.setPdkSec n v).obj k = d.obj k := rfl
@[simp] theorem setPdkSec_fence (n : Nat) (v : PdkSec) (k : Nat) : (d.setPdkSec n v).fence k = d.fence k := rfl
@[simp] theorem setPdkSec_seq (n : Nat) (v : PdkSec) (k : Nat) : (d.setPdkSec n v).seq k = d.seq k := rfl
@[simp] theorem setPdkSec_pdk (n : Nat) (v : PdkSec) (k : Nat) : (d.setPdkSec n v).pdk k = d.pdk k := rfl
@[simp] theorem setPdkSec_pdkSec_same (n : Nat) (v : PdkSec) : (d.setPdkSec n v).pdkSec n = v := Table.get_set_same _ _ _ _
theorem setPdkSec_pdkSec_ne (n : Nat) (v : PdkSec) {k : Nat} (h : n ≠ k) : (d.setPdkSec n v).pdkSec k = d.pdkSec k := Table.get_set_ne _ _ _ h
@[simp] theorem setPdkSec_window (n : Nat) (v : PdkSec) (k : Nat) : (d.setPdkSec n v).window k = d.window k := rfl
@[simp] theorem setPdkSec_chan (n : Nat) (v : PdkSec) (k : Nat) : (d.setPdkSec n v).chan k = d.chan k := rfl
@[simp] theorem setPdkSec_port (n : Nat) (v : PdkSec) (k : Nat) : (d.setPdkSec n v).port k = d.port k := rfl
@[simp] theorem setPdkSec_binding (n : Nat) (v : PdkSec) (k : Nat) : (d.setPdkSec n v).binding k = d.binding k := rfl
@[simp] theorem setPdkSec_alarm (n : Nat) (v : PdkSec) (k : Nat) : (d.setPdkSec n v).alarm k = d.alarm k := rfl
@[simp] theorem setPdkSec_job (n : Nat) (v : PdkSec) (k : Nat) : (d.setPdkSec n v).job k = d.job k := rfl
theorem setPdkSec_pdkSec (n : Nat) (v : PdkSec) (k : Nat) : (d.setPdkSec n v).pdkSec k = if n = k then v else d.pdkSec k := by
  split
  · subst_vars; simp
  · exact d.setPdkSec_pdkSec_ne n v ‹_›

/-! ### `setWindow` -/

@[simp] theorem setWindow_fuse (n : Nat) (v : Window) : (d.setWindow n v).fuse = d.fuse := rfl
@[simp] theorem setWindow_cal (n : Nat) (v : Window) : (d.setWindow n v).cal = d.cal := rfl
@[simp] theorem setWindow_tally (n : Nat) (v : Window) : (d.setWindow n v).tally = d.tally := rfl
@[simp] theorem setWindow_glb (n : Nat) (v : Window) : (d.setWindow n v).glb = d.glb := rfl
@[simp] theorem setWindow_rings (n : Nat) (v : Window) : (d.setWindow n v).rings = d.rings := rfl
@[simp] theorem setWindow_vecs (n : Nat) (v : Window) : (d.setWindow n v).vecs = d.vecs := rfl
@[simp] theorem setWindow_stalls (n : Nat) (v : Window) : (d.setWindow n v).stalls = d.stalls := rfl
@[simp] theorem setWindow_queues (n : Nat) (v : Window) : (d.setWindow n v).queues = d.queues := rfl
@[simp] theorem setWindow_objs (n : Nat) (v : Window) : (d.setWindow n v).objs = d.objs := rfl
@[simp] theorem setWindow_fences (n : Nat) (v : Window) : (d.setWindow n v).fences = d.fences := rfl
@[simp] theorem setWindow_seqs (n : Nat) (v : Window) : (d.setWindow n v).seqs = d.seqs := rfl
@[simp] theorem setWindow_pdks (n : Nat) (v : Window) : (d.setWindow n v).pdks = d.pdks := rfl
@[simp] theorem setWindow_jobs (n : Nat) (v : Window) : (d.setWindow n v).jobs = d.jobs := rfl
@[simp] theorem setWindow_nextJob (n : Nat) (v : Window) : (d.setWindow n v).nextJob = d.nextJob := rfl
@[simp] theorem setWindow_rounds (n : Nat) (v : Window) : (d.setWindow n v).rounds = d.rounds := rfl
@[simp] theorem setWindow_cores (n : Nat) (v : Window) : (d.setWindow n v).cores = d.cores := rfl
@[simp] theorem setWindow_slices (n : Nat) (v : Window) : (d.setWindow n v).slices = d.slices := rfl
@[simp] theorem setWindow_saved (n : Nat) (v : Window) : (d.setWindow n v).saved = d.saved := rfl
@[simp] theorem setWindow_pieces (n : Nat) (v : Window) : (d.setWindow n v).pieces = d.pieces := rfl
@[simp] theorem setWindow_nextPiece (n : Nat) (v : Window) : (d.setWindow n v).nextPiece = d.nextPiece := rfl
@[simp] theorem setWindow_sends (n : Nat) (v : Window) : (d.setWindow n v).sends = d.sends := rfl
@[simp] theorem setWindow_pushes (n : Nat) (v : Window) : (d.setWindow n v).pushes = d.pushes := rfl
@[simp] theorem setWindow_skid (n : Nat) (v : Window) : (d.setWindow n v).skid = d.skid := rfl
@[simp] theorem setWindow_chans (n : Nat) (v : Window) : (d.setWindow n v).chans = d.chans := rfl
@[simp] theorem setWindow_segs (n : Nat) (v : Window) : (d.setWindow n v).segs = d.segs := rfl
@[simp] theorem setWindow_xlt (n : Nat) (v : Window) : (d.setWindow n v).xlt = d.xlt := rfl
@[simp] theorem setWindow_links (n : Nat) (v : Window) : (d.setWindow n v).links = d.links := rfl
@[simp] theorem setWindow_power (n : Nat) (v : Window) : (d.setWindow n v).power = d.power := rfl
@[simp] theorem setWindow_sec (n : Nat) (v : Window) : (d.setWindow n v).sec = d.sec := rfl
@[simp] theorem setWindow_resets (n : Nat) (v : Window) : (d.setWindow n v).resets = d.resets := rfl
@[simp] theorem setWindow_dict (n : Nat) (v : Window) : (d.setWindow n v).dict = d.dict := rfl
@[simp] theorem setWindow_flash (n : Nat) (v : Window) : (d.setWindow n v).flash = d.flash := rfl
@[simp] theorem setWindow_boot (n : Nat) (v : Window) : (d.setWindow n v).boot = d.boot := rfl
@[simp] theorem setWindow_coarse (n : Nat) (v : Window) : (d.setWindow n v).coarse = d.coarse := rfl
@[simp] theorem setWindow_out (n : Nat) (v : Window) : (d.setWindow n v).out = d.out := rfl
@[simp] theorem setWindow_free (n : Nat) (v : Window) : (d.setWindow n v).free = d.free := rfl
@[simp] theorem setWindow_core (n : Nat) (v : Window) (k : Nat) : (d.setWindow n v).core k = d.core k := rfl
@[simp] theorem setWindow_slice (n : Nat) (v : Window) (k : Nat) : (d.setWindow n v).slice k = d.slice k := rfl
@[simp] theorem setWindow_stall (n : Nat) (v : Window) (k : Nat) : (d.setWindow n v).stall k = d.stall k := rfl
@[simp] theorem setWindow_outQueue (n : Nat) (v : Window) (k : Nat) : (d.setWindow n v).outQueue k = d.outQueue k := rfl
@[simp] theorem setWindow_ring (n : Nat) (v : Window) (k : Nat) : (d.setWindow n v).ring k = d.ring k := rfl
@[simp] theorem setWindow_vec (n : Nat) (v : Window) (k : Nat) : (d.setWindow n v).vec k = d.vec k := rfl
@[simp] theorem setWindow_obj (n : Nat) (v : Window) (k : Nat) : (d.setWindow n v).obj k = d.obj k := rfl
@[simp] theorem setWindow_fence (n : Nat) (v : Window) (k : Nat) : (d.setWindow n v).fence k = d.fence k := rfl
@[simp] theorem setWindow_seq (n : Nat) (v : Window) (k : Nat) : (d.setWindow n v).seq k = d.seq k := rfl
@[simp] theorem setWindow_pdk (n : Nat) (v : Window) (k : Nat) : (d.setWindow n v).pdk k = d.pdk k := rfl
@[simp] theorem setWindow_pdkSec (n : Nat) (v : Window) (k : Nat) : (d.setWindow n v).pdkSec k = d.pdkSec k := rfl
@[simp] theorem setWindow_window_same (n : Nat) (v : Window) : (d.setWindow n v).window n = v := Table.get_set_same _ _ _ _
theorem setWindow_window_ne (n : Nat) (v : Window) {k : Nat} (h : n ≠ k) : (d.setWindow n v).window k = d.window k := Table.get_set_ne _ _ _ h
@[simp] theorem setWindow_chan (n : Nat) (v : Window) (k : Nat) : (d.setWindow n v).chan k = d.chan k := rfl
@[simp] theorem setWindow_port (n : Nat) (v : Window) (k : Nat) : (d.setWindow n v).port k = d.port k := rfl
@[simp] theorem setWindow_binding (n : Nat) (v : Window) (k : Nat) : (d.setWindow n v).binding k = d.binding k := rfl
@[simp] theorem setWindow_alarm (n : Nat) (v : Window) (k : Nat) : (d.setWindow n v).alarm k = d.alarm k := rfl
@[simp] theorem setWindow_job (n : Nat) (v : Window) (k : Nat) : (d.setWindow n v).job k = d.job k := rfl
theorem setWindow_window (n : Nat) (v : Window) (k : Nat) : (d.setWindow n v).window k = if n = k then v else d.window k := by
  split
  · subst_vars; simp
  · exact d.setWindow_window_ne n v ‹_›

/-! ### `setChan` -/

@[simp] theorem setChan_fuse (n : Nat) (v : Chan) : (d.setChan n v).fuse = d.fuse := rfl
@[simp] theorem setChan_cal (n : Nat) (v : Chan) : (d.setChan n v).cal = d.cal := rfl
@[simp] theorem setChan_tally (n : Nat) (v : Chan) : (d.setChan n v).tally = d.tally := rfl
@[simp] theorem setChan_glb (n : Nat) (v : Chan) : (d.setChan n v).glb = d.glb := rfl
@[simp] theorem setChan_rings (n : Nat) (v : Chan) : (d.setChan n v).rings = d.rings := rfl
@[simp] theorem setChan_vecs (n : Nat) (v : Chan) : (d.setChan n v).vecs = d.vecs := rfl
@[simp] theorem setChan_stalls (n : Nat) (v : Chan) : (d.setChan n v).stalls = d.stalls := rfl
@[simp] theorem setChan_queues (n : Nat) (v : Chan) : (d.setChan n v).queues = d.queues := rfl
@[simp] theorem setChan_objs (n : Nat) (v : Chan) : (d.setChan n v).objs = d.objs := rfl
@[simp] theorem setChan_fences (n : Nat) (v : Chan) : (d.setChan n v).fences = d.fences := rfl
@[simp] theorem setChan_seqs (n : Nat) (v : Chan) : (d.setChan n v).seqs = d.seqs := rfl
@[simp] theorem setChan_pdks (n : Nat) (v : Chan) : (d.setChan n v).pdks = d.pdks := rfl
@[simp] theorem setChan_jobs (n : Nat) (v : Chan) : (d.setChan n v).jobs = d.jobs := rfl
@[simp] theorem setChan_nextJob (n : Nat) (v : Chan) : (d.setChan n v).nextJob = d.nextJob := rfl
@[simp] theorem setChan_rounds (n : Nat) (v : Chan) : (d.setChan n v).rounds = d.rounds := rfl
@[simp] theorem setChan_cores (n : Nat) (v : Chan) : (d.setChan n v).cores = d.cores := rfl
@[simp] theorem setChan_slices (n : Nat) (v : Chan) : (d.setChan n v).slices = d.slices := rfl
@[simp] theorem setChan_saved (n : Nat) (v : Chan) : (d.setChan n v).saved = d.saved := rfl
@[simp] theorem setChan_windows (n : Nat) (v : Chan) : (d.setChan n v).windows = d.windows := rfl
@[simp] theorem setChan_pieces (n : Nat) (v : Chan) : (d.setChan n v).pieces = d.pieces := rfl
@[simp] theorem setChan_nextPiece (n : Nat) (v : Chan) : (d.setChan n v).nextPiece = d.nextPiece := rfl
@[simp] theorem setChan_sends (n : Nat) (v : Chan) : (d.setChan n v).sends = d.sends := rfl
@[simp] theorem setChan_pushes (n : Nat) (v : Chan) : (d.setChan n v).pushes = d.pushes := rfl
@[simp] theorem setChan_skid (n : Nat) (v : Chan) : (d.setChan n v).skid = d.skid := rfl
@[simp] theorem setChan_segs (n : Nat) (v : Chan) : (d.setChan n v).segs = d.segs := rfl
@[simp] theorem setChan_xlt (n : Nat) (v : Chan) : (d.setChan n v).xlt = d.xlt := rfl
@[simp] theorem setChan_links (n : Nat) (v : Chan) : (d.setChan n v).links = d.links := rfl
@[simp] theorem setChan_power (n : Nat) (v : Chan) : (d.setChan n v).power = d.power := rfl
@[simp] theorem setChan_sec (n : Nat) (v : Chan) : (d.setChan n v).sec = d.sec := rfl
@[simp] theorem setChan_resets (n : Nat) (v : Chan) : (d.setChan n v).resets = d.resets := rfl
@[simp] theorem setChan_dict (n : Nat) (v : Chan) : (d.setChan n v).dict = d.dict := rfl
@[simp] theorem setChan_flash (n : Nat) (v : Chan) : (d.setChan n v).flash = d.flash := rfl
@[simp] theorem setChan_boot (n : Nat) (v : Chan) : (d.setChan n v).boot = d.boot := rfl
@[simp] theorem setChan_coarse (n : Nat) (v : Chan) : (d.setChan n v).coarse = d.coarse := rfl
@[simp] theorem setChan_out (n : Nat) (v : Chan) : (d.setChan n v).out = d.out := rfl
@[simp] theorem setChan_free (n : Nat) (v : Chan) : (d.setChan n v).free = d.free := rfl
@[simp] theorem setChan_core (n : Nat) (v : Chan) (k : Nat) : (d.setChan n v).core k = d.core k := rfl
@[simp] theorem setChan_slice (n : Nat) (v : Chan) (k : Nat) : (d.setChan n v).slice k = d.slice k := rfl
@[simp] theorem setChan_stall (n : Nat) (v : Chan) (k : Nat) : (d.setChan n v).stall k = d.stall k := rfl
@[simp] theorem setChan_outQueue (n : Nat) (v : Chan) (k : Nat) : (d.setChan n v).outQueue k = d.outQueue k := rfl
@[simp] theorem setChan_ring (n : Nat) (v : Chan) (k : Nat) : (d.setChan n v).ring k = d.ring k := rfl
@[simp] theorem setChan_vec (n : Nat) (v : Chan) (k : Nat) : (d.setChan n v).vec k = d.vec k := rfl
@[simp] theorem setChan_obj (n : Nat) (v : Chan) (k : Nat) : (d.setChan n v).obj k = d.obj k := rfl
@[simp] theorem setChan_fence (n : Nat) (v : Chan) (k : Nat) : (d.setChan n v).fence k = d.fence k := rfl
@[simp] theorem setChan_seq (n : Nat) (v : Chan) (k : Nat) : (d.setChan n v).seq k = d.seq k := rfl
@[simp] theorem setChan_pdk (n : Nat) (v : Chan) (k : Nat) : (d.setChan n v).pdk k = d.pdk k := rfl
@[simp] theorem setChan_pdkSec (n : Nat) (v : Chan) (k : Nat) : (d.setChan n v).pdkSec k = d.pdkSec k := rfl
@[simp] theorem setChan_window (n : Nat) (v : Chan) (k : Nat) : (d.setChan n v).window k = d.window k := rfl
@[simp] theorem setChan_chan_same (n : Nat) (v : Chan) : (d.setChan n v).chan n = v := Table.get_set_same _ _ _ _
theorem setChan_chan_ne (n : Nat) (v : Chan) {k : Nat} (h : n ≠ k) : (d.setChan n v).chan k = d.chan k := Table.get_set_ne _ _ _ h
@[simp] theorem setChan_port (n : Nat) (v : Chan) (k : Nat) : (d.setChan n v).port k = d.port k := rfl
@[simp] theorem setChan_binding (n : Nat) (v : Chan) (k : Nat) : (d.setChan n v).binding k = d.binding k := rfl
@[simp] theorem setChan_alarm (n : Nat) (v : Chan) (k : Nat) : (d.setChan n v).alarm k = d.alarm k := rfl
@[simp] theorem setChan_job (n : Nat) (v : Chan) (k : Nat) : (d.setChan n v).job k = d.job k := rfl
theorem setChan_chan (n : Nat) (v : Chan) (k : Nat) : (d.setChan n v).chan k = if n = k then v else d.chan k := by
  split
  · subst_vars; simp
  · exact d.setChan_chan_ne n v ‹_›

/-! ### `setPort` -/

@[simp] theorem setPort_fuse (n : Nat) (v : Port) : (d.setPort n v).fuse = d.fuse := rfl
@[simp] theorem setPort_cal (n : Nat) (v : Port) : (d.setPort n v).cal = d.cal := rfl
@[simp] theorem setPort_tally (n : Nat) (v : Port) : (d.setPort n v).tally = d.tally := rfl
@[simp] theorem setPort_glb (n : Nat) (v : Port) : (d.setPort n v).glb = d.glb := rfl
@[simp] theorem setPort_rings (n : Nat) (v : Port) : (d.setPort n v).rings = d.rings := rfl
@[simp] theorem setPort_vecs (n : Nat) (v : Port) : (d.setPort n v).vecs = d.vecs := rfl
@[simp] theorem setPort_stalls (n : Nat) (v : Port) : (d.setPort n v).stalls = d.stalls := rfl
@[simp] theorem setPort_queues (n : Nat) (v : Port) : (d.setPort n v).queues = d.queues := rfl
@[simp] theorem setPort_objs (n : Nat) (v : Port) : (d.setPort n v).objs = d.objs := rfl
@[simp] theorem setPort_fences (n : Nat) (v : Port) : (d.setPort n v).fences = d.fences := rfl
@[simp] theorem setPort_seqs (n : Nat) (v : Port) : (d.setPort n v).seqs = d.seqs := rfl
@[simp] theorem setPort_pdks (n : Nat) (v : Port) : (d.setPort n v).pdks = d.pdks := rfl
@[simp] theorem setPort_jobs (n : Nat) (v : Port) : (d.setPort n v).jobs = d.jobs := rfl
@[simp] theorem setPort_nextJob (n : Nat) (v : Port) : (d.setPort n v).nextJob = d.nextJob := rfl
@[simp] theorem setPort_rounds (n : Nat) (v : Port) : (d.setPort n v).rounds = d.rounds := rfl
@[simp] theorem setPort_cores (n : Nat) (v : Port) : (d.setPort n v).cores = d.cores := rfl
@[simp] theorem setPort_slices (n : Nat) (v : Port) : (d.setPort n v).slices = d.slices := rfl
@[simp] theorem setPort_saved (n : Nat) (v : Port) : (d.setPort n v).saved = d.saved := rfl
@[simp] theorem setPort_windows (n : Nat) (v : Port) : (d.setPort n v).windows = d.windows := rfl
@[simp] theorem setPort_pieces (n : Nat) (v : Port) : (d.setPort n v).pieces = d.pieces := rfl
@[simp] theorem setPort_nextPiece (n : Nat) (v : Port) : (d.setPort n v).nextPiece = d.nextPiece := rfl
@[simp] theorem setPort_sends (n : Nat) (v : Port) : (d.setPort n v).sends = d.sends := rfl
@[simp] theorem setPort_pushes (n : Nat) (v : Port) : (d.setPort n v).pushes = d.pushes := rfl
@[simp] theorem setPort_skid (n : Nat) (v : Port) : (d.setPort n v).skid = d.skid := rfl
@[simp] theorem setPort_chans (n : Nat) (v : Port) : (d.setPort n v).chans = d.chans := rfl
@[simp] theorem setPort_segs (n : Nat) (v : Port) : (d.setPort n v).segs = d.segs := rfl
@[simp] theorem setPort_xlt (n : Nat) (v : Port) : (d.setPort n v).xlt = d.xlt := rfl
@[simp] theorem setPort_power (n : Nat) (v : Port) : (d.setPort n v).power = d.power := rfl
@[simp] theorem setPort_sec (n : Nat) (v : Port) : (d.setPort n v).sec = d.sec := rfl
@[simp] theorem setPort_resets (n : Nat) (v : Port) : (d.setPort n v).resets = d.resets := rfl
@[simp] theorem setPort_dict (n : Nat) (v : Port) : (d.setPort n v).dict = d.dict := rfl
@[simp] theorem setPort_flash (n : Nat) (v : Port) : (d.setPort n v).flash = d.flash := rfl
@[simp] theorem setPort_boot (n : Nat) (v : Port) : (d.setPort n v).boot = d.boot := rfl
@[simp] theorem setPort_coarse (n : Nat) (v : Port) : (d.setPort n v).coarse = d.coarse := rfl
@[simp] theorem setPort_out (n : Nat) (v : Port) : (d.setPort n v).out = d.out := rfl
@[simp] theorem setPort_free (n : Nat) (v : Port) : (d.setPort n v).free = d.free := rfl
@[simp] theorem setPort_core (n : Nat) (v : Port) (k : Nat) : (d.setPort n v).core k = d.core k := rfl
@[simp] theorem setPort_slice (n : Nat) (v : Port) (k : Nat) : (d.setPort n v).slice k = d.slice k := rfl
@[simp] theorem setPort_stall (n : Nat) (v : Port) (k : Nat) : (d.setPort n v).stall k = d.stall k := rfl
@[simp] theorem setPort_outQueue (n : Nat) (v : Port) (k : Nat) : (d.setPort n v).outQueue k = d.outQueue k := rfl
@[simp] theorem setPort_ring (n : Nat) (v : Port) (k : Nat) : (d.setPort n v).ring k = d.ring k := rfl
@[simp] theorem setPort_vec (n : Nat) (v : Port) (k : Nat) : (d.setPort n v).vec k = d.vec k := rfl
@[simp] theorem setPort_obj (n : Nat) (v : Port) (k : Nat) : (d.setPort n v).obj k = d.obj k := rfl
@[simp] theorem setPort_fence (n : Nat) (v : Port) (k : Nat) : (d.setPort n v).fence k = d.fence k := rfl
@[simp] theorem setPort_seq (n : Nat) (v : Port) (k : Nat) : (d.setPort n v).seq k = d.seq k := rfl
@[simp] theorem setPort_pdk (n : Nat) (v : Port) (k : Nat) : (d.setPort n v).pdk k = d.pdk k := rfl
@[simp] theorem setPort_pdkSec (n : Nat) (v : Port) (k : Nat) : (d.setPort n v).pdkSec k = d.pdkSec k := rfl
@[simp] theorem setPort_window (n : Nat) (v : Port) (k : Nat) : (d.setPort n v).window k = d.window k := rfl
@[simp] theorem setPort_chan (n : Nat) (v : Port) (k : Nat) : (d.setPort n v).chan k = d.chan k := rfl
@[simp] theorem setPort_port_same (n : Nat) (v : Port) : (d.setPort n v).port n = v := Table.get_set_same _ _ _ _
theorem setPort_port_ne (n : Nat) (v : Port) {k : Nat} (h : n ≠ k) : (d.setPort n v).port k = d.port k := Table.get_set_ne _ _ _ h
@[simp] theorem setPort_binding (n : Nat) (v : Port) (k : Nat) : (d.setPort n v).binding k = d.binding k := rfl
@[simp] theorem setPort_alarm (n : Nat) (v : Port) (k : Nat) : (d.setPort n v).alarm k = d.alarm k := rfl
@[simp] theorem setPort_job (n : Nat) (v : Port) (k : Nat) : (d.setPort n v).job k = d.job k := rfl
theorem setPort_port (n : Nat) (v : Port) (k : Nat) : (d.setPort n v).port k = if n = k then v else d.port k := by
  split
  · subst_vars; simp
  · exact d.setPort_port_ne n v ‹_›

/-! ### `setBinding` -/

@[simp] theorem setBinding_fuse (n : Nat) (v : Binding) : (d.setBinding n v).fuse = d.fuse := rfl
@[simp] theorem setBinding_cal (n : Nat) (v : Binding) : (d.setBinding n v).cal = d.cal := rfl
@[simp] theorem setBinding_tally (n : Nat) (v : Binding) : (d.setBinding n v).tally = d.tally := rfl
@[simp] theorem setBinding_glb (n : Nat) (v : Binding) : (d.setBinding n v).glb = d.glb := rfl
@[simp] theorem setBinding_rings (n : Nat) (v : Binding) : (d.setBinding n v).rings = d.rings := rfl
@[simp] theorem setBinding_vecs (n : Nat) (v : Binding) : (d.setBinding n v).vecs = d.vecs := rfl
@[simp] theorem setBinding_stalls (n : Nat) (v : Binding) : (d.setBinding n v).stalls = d.stalls := rfl
@[simp] theorem setBinding_queues (n : Nat) (v : Binding) : (d.setBinding n v).queues = d.queues := rfl
@[simp] theorem setBinding_objs (n : Nat) (v : Binding) : (d.setBinding n v).objs = d.objs := rfl
@[simp] theorem setBinding_fences (n : Nat) (v : Binding) : (d.setBinding n v).fences = d.fences := rfl
@[simp] theorem setBinding_seqs (n : Nat) (v : Binding) : (d.setBinding n v).seqs = d.seqs := rfl
@[simp] theorem setBinding_pdks (n : Nat) (v : Binding) : (d.setBinding n v).pdks = d.pdks := rfl
@[simp] theorem setBinding_jobs (n : Nat) (v : Binding) : (d.setBinding n v).jobs = d.jobs := rfl
@[simp] theorem setBinding_nextJob (n : Nat) (v : Binding) : (d.setBinding n v).nextJob = d.nextJob := rfl
@[simp] theorem setBinding_rounds (n : Nat) (v : Binding) : (d.setBinding n v).rounds = d.rounds := rfl
@[simp] theorem setBinding_cores (n : Nat) (v : Binding) : (d.setBinding n v).cores = d.cores := rfl
@[simp] theorem setBinding_slices (n : Nat) (v : Binding) : (d.setBinding n v).slices = d.slices := rfl
@[simp] theorem setBinding_saved (n : Nat) (v : Binding) : (d.setBinding n v).saved = d.saved := rfl
@[simp] theorem setBinding_windows (n : Nat) (v : Binding) : (d.setBinding n v).windows = d.windows := rfl
@[simp] theorem setBinding_pieces (n : Nat) (v : Binding) : (d.setBinding n v).pieces = d.pieces := rfl
@[simp] theorem setBinding_nextPiece (n : Nat) (v : Binding) : (d.setBinding n v).nextPiece = d.nextPiece := rfl
@[simp] theorem setBinding_sends (n : Nat) (v : Binding) : (d.setBinding n v).sends = d.sends := rfl
@[simp] theorem setBinding_pushes (n : Nat) (v : Binding) : (d.setBinding n v).pushes = d.pushes := rfl
@[simp] theorem setBinding_skid (n : Nat) (v : Binding) : (d.setBinding n v).skid = d.skid := rfl
@[simp] theorem setBinding_chans (n : Nat) (v : Binding) : (d.setBinding n v).chans = d.chans := rfl
@[simp] theorem setBinding_segs (n : Nat) (v : Binding) : (d.setBinding n v).segs = d.segs := rfl
@[simp] theorem setBinding_xlt (n : Nat) (v : Binding) : (d.setBinding n v).xlt = d.xlt := rfl
@[simp] theorem setBinding_power (n : Nat) (v : Binding) : (d.setBinding n v).power = d.power := rfl
@[simp] theorem setBinding_sec (n : Nat) (v : Binding) : (d.setBinding n v).sec = d.sec := rfl
@[simp] theorem setBinding_resets (n : Nat) (v : Binding) : (d.setBinding n v).resets = d.resets := rfl
@[simp] theorem setBinding_dict (n : Nat) (v : Binding) : (d.setBinding n v).dict = d.dict := rfl
@[simp] theorem setBinding_flash (n : Nat) (v : Binding) : (d.setBinding n v).flash = d.flash := rfl
@[simp] theorem setBinding_boot (n : Nat) (v : Binding) : (d.setBinding n v).boot = d.boot := rfl
@[simp] theorem setBinding_coarse (n : Nat) (v : Binding) : (d.setBinding n v).coarse = d.coarse := rfl
@[simp] theorem setBinding_out (n : Nat) (v : Binding) : (d.setBinding n v).out = d.out := rfl
@[simp] theorem setBinding_free (n : Nat) (v : Binding) : (d.setBinding n v).free = d.free := rfl
@[simp] theorem setBinding_core (n : Nat) (v : Binding) (k : Nat) : (d.setBinding n v).core k = d.core k := rfl
@[simp] theorem setBinding_slice (n : Nat) (v : Binding) (k : Nat) : (d.setBinding n v).slice k = d.slice k := rfl
@[simp] theorem setBinding_stall (n : Nat) (v : Binding) (k : Nat) : (d.setBinding n v).stall k = d.stall k := rfl
@[simp] theorem setBinding_outQueue (n : Nat) (v : Binding) (k : Nat) : (d.setBinding n v).outQueue k = d.outQueue k := rfl
@[simp] theorem setBinding_ring (n : Nat) (v : Binding) (k : Nat) : (d.setBinding n v).ring k = d.ring k := rfl
@[simp] theorem setBinding_vec (n : Nat) (v : Binding) (k : Nat) : (d.setBinding n v).vec k = d.vec k := rfl
@[simp] theorem setBinding_obj (n : Nat) (v : Binding) (k : Nat) : (d.setBinding n v).obj k = d.obj k := rfl
@[simp] theorem setBinding_fence (n : Nat) (v : Binding) (k : Nat) : (d.setBinding n v).fence k = d.fence k := rfl
@[simp] theorem setBinding_seq (n : Nat) (v : Binding) (k : Nat) : (d.setBinding n v).seq k = d.seq k := rfl
@[simp] theorem setBinding_pdk (n : Nat) (v : Binding) (k : Nat) : (d.setBinding n v).pdk k = d.pdk k := rfl
@[simp] theorem setBinding_pdkSec (n : Nat) (v : Binding) (k : Nat) : (d.setBinding n v).pdkSec k = d.pdkSec k := rfl
@[simp] theorem setBinding_window (n : Nat) (v : Binding) (k : Nat) : (d.setBinding n v).window k = d.window k := rfl
@[simp] theorem setBinding_chan (n : Nat) (v : Binding) (k : Nat) : (d.setBinding n v).chan k = d.chan k := rfl
@[simp] theorem setBinding_port (n : Nat) (v : Binding) (k : Nat) : (d.setBinding n v).port k = d.port k := rfl
@[simp] theorem setBinding_binding_same (n : Nat) (v : Binding) : (d.setBinding n v).binding n = v := Table.get_set_same _ _ _ _
theorem setBinding_binding_ne (n : Nat) (v : Binding) {k : Nat} (h : n ≠ k) : (d.setBinding n v).binding k = d.binding k := Table.get_set_ne _ _ _ h
@[simp] theorem setBinding_alarm (n : Nat) (v : Binding) (k : Nat) : (d.setBinding n v).alarm k = d.alarm k := rfl
@[simp] theorem setBinding_job (n : Nat) (v : Binding) (k : Nat) : (d.setBinding n v).job k = d.job k := rfl
theorem setBinding_binding (n : Nat) (v : Binding) (k : Nat) : (d.setBinding n v).binding k = if n = k then v else d.binding k := by
  split
  · subst_vars; simp
  · exact d.setBinding_binding_ne n v ‹_›

/-! ### `setAlarm` -/

@[simp] theorem setAlarm_fuse (n : Nat) (v : Alarm) : (d.setAlarm n v).fuse = d.fuse := rfl
@[simp] theorem setAlarm_cal (n : Nat) (v : Alarm) : (d.setAlarm n v).cal = d.cal := rfl
@[simp] theorem setAlarm_glb (n : Nat) (v : Alarm) : (d.setAlarm n v).glb = d.glb := rfl
@[simp] theorem setAlarm_rings (n : Nat) (v : Alarm) : (d.setAlarm n v).rings = d.rings := rfl
@[simp] theorem setAlarm_vecs (n : Nat) (v : Alarm) : (d.setAlarm n v).vecs = d.vecs := rfl
@[simp] theorem setAlarm_stalls (n : Nat) (v : Alarm) : (d.setAlarm n v).stalls = d.stalls := rfl
@[simp] theorem setAlarm_queues (n : Nat) (v : Alarm) : (d.setAlarm n v).queues = d.queues := rfl
@[simp] theorem setAlarm_objs (n : Nat) (v : Alarm) : (d.setAlarm n v).objs = d.objs := rfl
@[simp] theorem setAlarm_fences (n : Nat) (v : Alarm) : (d.setAlarm n v).fences = d.fences := rfl
@[simp] theorem setAlarm_seqs (n : Nat) (v : Alarm) : (d.setAlarm n v).seqs = d.seqs := rfl
@[simp] theorem setAlarm_pdks (n : Nat) (v : Alarm) : (d.setAlarm n v).pdks = d.pdks := rfl
@[simp] theorem setAlarm_jobs (n : Nat) (v : Alarm) : (d.setAlarm n v).jobs = d.jobs := rfl
@[simp] theorem setAlarm_nextJob (n : Nat) (v : Alarm) : (d.setAlarm n v).nextJob = d.nextJob := rfl
@[simp] theorem setAlarm_rounds (n : Nat) (v : Alarm) : (d.setAlarm n v).rounds = d.rounds := rfl
@[simp] theorem setAlarm_cores (n : Nat) (v : Alarm) : (d.setAlarm n v).cores = d.cores := rfl
@[simp] theorem setAlarm_slices (n : Nat) (v : Alarm) : (d.setAlarm n v).slices = d.slices := rfl
@[simp] theorem setAlarm_saved (n : Nat) (v : Alarm) : (d.setAlarm n v).saved = d.saved := rfl
@[simp] theorem setAlarm_windows (n : Nat) (v : Alarm) : (d.setAlarm n v).windows = d.windows := rfl
@[simp] theorem setAlarm_pieces (n : Nat) (v : Alarm) : (d.setAlarm n v).pieces = d.pieces := rfl
@[simp] theorem setAlarm_nextPiece (n : Nat) (v : Alarm) : (d.setAlarm n v).nextPiece = d.nextPiece := rfl
@[simp] theorem setAlarm_sends (n : Nat) (v : Alarm) : (d.setAlarm n v).sends = d.sends := rfl
@[simp] theorem setAlarm_pushes (n : Nat) (v : Alarm) : (d.setAlarm n v).pushes = d.pushes := rfl
@[simp] theorem setAlarm_skid (n : Nat) (v : Alarm) : (d.setAlarm n v).skid = d.skid := rfl
@[simp] theorem setAlarm_chans (n : Nat) (v : Alarm) : (d.setAlarm n v).chans = d.chans := rfl
@[simp] theorem setAlarm_segs (n : Nat) (v : Alarm) : (d.setAlarm n v).segs = d.segs := rfl
@[simp] theorem setAlarm_xlt (n : Nat) (v : Alarm) : (d.setAlarm n v).xlt = d.xlt := rfl
@[simp] theorem setAlarm_links (n : Nat) (v : Alarm) : (d.setAlarm n v).links = d.links := rfl
@[simp] theorem setAlarm_power (n : Nat) (v : Alarm) : (d.setAlarm n v).power = d.power := rfl
@[simp] theorem setAlarm_sec (n : Nat) (v : Alarm) : (d.setAlarm n v).sec = d.sec := rfl
@[simp] theorem setAlarm_resets (n : Nat) (v : Alarm) : (d.setAlarm n v).resets = d.resets := rfl
@[simp] theorem setAlarm_dict (n : Nat) (v : Alarm) : (d.setAlarm n v).dict = d.dict := rfl
@[simp] theorem setAlarm_flash (n : Nat) (v : Alarm) : (d.setAlarm n v).flash = d.flash := rfl
@[simp] theorem setAlarm_boot (n : Nat) (v : Alarm) : (d.setAlarm n v).boot = d.boot := rfl
@[simp] theorem setAlarm_coarse (n : Nat) (v : Alarm) : (d.setAlarm n v).coarse = d.coarse := rfl
@[simp] theorem setAlarm_out (n : Nat) (v : Alarm) : (d.setAlarm n v).out = d.out := rfl
@[simp] theorem setAlarm_free (n : Nat) (v : Alarm) : (d.setAlarm n v).free = d.free := rfl
@[simp] theorem setAlarm_core (n : Nat) (v : Alarm) (k : Nat) : (d.setAlarm n v).core k = d.core k := rfl
@[simp] theorem setAlarm_slice (n : Nat) (v : Alarm) (k : Nat) : (d.setAlarm n v).slice k = d.slice k := rfl
@[simp] theorem setAlarm_stall (n : Nat) (v : Alarm) (k : Nat) : (d.setAlarm n v).stall k = d.stall k := rfl
@[simp] theorem setAlarm_outQueue (n : Nat) (v : Alarm) (k : Nat) : (d.setAlarm n v).outQueue k = d.outQueue k := rfl
@[simp] theorem setAlarm_ring (n : Nat) (v : Alarm) (k : Nat) : (d.setAlarm n v).ring k = d.ring k := rfl
@[simp] theorem setAlarm_vec (n : Nat) (v : Alarm) (k : Nat) : (d.setAlarm n v).vec k = d.vec k := rfl
@[simp] theorem setAlarm_obj (n : Nat) (v : Alarm) (k : Nat) : (d.setAlarm n v).obj k = d.obj k := rfl
@[simp] theorem setAlarm_fence (n : Nat) (v : Alarm) (k : Nat) : (d.setAlarm n v).fence k = d.fence k := rfl
@[simp] theorem setAlarm_seq (n : Nat) (v : Alarm) (k : Nat) : (d.setAlarm n v).seq k = d.seq k := rfl
@[simp] theorem setAlarm_pdk (n : Nat) (v : Alarm) (k : Nat) : (d.setAlarm n v).pdk k = d.pdk k := rfl
@[simp] theorem setAlarm_pdkSec (n : Nat) (v : Alarm) (k : Nat) : (d.setAlarm n v).pdkSec k = d.pdkSec k := rfl
@[simp] theorem setAlarm_window (n : Nat) (v : Alarm) (k : Nat) : (d.setAlarm n v).window k = d.window k := rfl
@[simp] theorem setAlarm_chan (n : Nat) (v : Alarm) (k : Nat) : (d.setAlarm n v).chan k = d.chan k := rfl
@[simp] theorem setAlarm_port (n : Nat) (v : Alarm) (k : Nat) : (d.setAlarm n v).port k = d.port k := rfl
@[simp] theorem setAlarm_binding (n : Nat) (v : Alarm) (k : Nat) : (d.setAlarm n v).binding k = d.binding k := rfl
@[simp] theorem setAlarm_alarm_same (n : Nat) (v : Alarm) : (d.setAlarm n v).alarm n = v := Table.get_set_same _ _ _ _
theorem setAlarm_alarm_ne (n : Nat) (v : Alarm) {k : Nat} (h : n ≠ k) : (d.setAlarm n v).alarm k = d.alarm k := Table.get_set_ne _ _ _ h
@[simp] theorem setAlarm_job (n : Nat) (v : Alarm) (k : Nat) : (d.setAlarm n v).job k = d.job k := rfl
theorem setAlarm_alarm (n : Nat) (v : Alarm) (k : Nat) : (d.setAlarm n v).alarm k = if n = k then v else d.alarm k := by
  split
  · subst_vars; simp
  · exact d.setAlarm_alarm_ne n v ‹_›

/-! ### `setJob` -/

@[simp] theorem setJob_fuse (n : Nat) (v : Job) : (d.setJob n v).fuse = d.fuse := rfl
@[simp] theorem setJob_cal (n : Nat) (v : Job) : (d.setJob n v).cal = d.cal := rfl
@[simp] theorem setJob_tally (n : Nat) (v : Job) : (d.setJob n v).tally = d.tally := rfl
@[simp] theorem setJob_glb (n : Nat) (v : Job) : (d.setJob n v).glb = d.glb := rfl
@[simp] theorem setJob_rings (n : Nat) (v : Job) : (d.setJob n v).rings = d.rings := rfl
@[simp] theorem setJob_vecs (n : Nat) (v : Job) : (d.setJob n v).vecs = d.vecs := rfl
@[simp] theorem setJob_stalls (n : Nat) (v : Job) : (d.setJob n v).stalls = d.stalls := rfl
@[simp] theorem setJob_queues (n : Nat) (v : Job) : (d.setJob n v).queues = d.queues := rfl
@[simp] theorem setJob_objs (n : Nat) (v : Job) : (d.setJob n v).objs = d.objs := rfl
@[simp] theorem setJob_fences (n : Nat) (v : Job) : (d.setJob n v).fences = d.fences := rfl
@[simp] theorem setJob_seqs (n : Nat) (v : Job) : (d.setJob n v).seqs = d.seqs := rfl
@[simp] theorem setJob_pdks (n : Nat) (v : Job) : (d.setJob n v).pdks = d.pdks := rfl
@[simp] theorem setJob_nextJob (n : Nat) (v : Job) : (d.setJob n v).nextJob = d.nextJob := rfl
@[simp] theorem setJob_rounds (n : Nat) (v : Job) : (d.setJob n v).rounds = d.rounds := rfl
@[simp] theorem setJob_cores (n : Nat) (v : Job) : (d.setJob n v).cores = d.cores := rfl
@[simp] theorem setJob_slices (n : Nat) (v : Job) : (d.setJob n v).slices = d.slices := rfl
@[simp] theorem setJob_saved (n : Nat) (v : Job) : (d.setJob n v).saved = d.saved := rfl
@[simp] theorem setJob_windows (n : Nat) (v : Job) : (d.setJob n v).windows = d.windows := rfl
@[simp] theorem setJob_pieces (n : Nat) (v : Job) : (d.setJob n v).pieces = d.pieces := rfl
@[simp] theorem setJob_nextPiece (n : Nat) (v : Job) : (d.setJob n v).nextPiece = d.nextPiece := rfl
@[simp] theorem setJob_sends (n : Nat) (v : Job) : (d.setJob n v).sends = d.sends := rfl
@[simp] theorem setJob_pushes (n : Nat) (v : Job) : (d.setJob n v).pushes = d.pushes := rfl
@[simp] theorem setJob_skid (n : Nat) (v : Job) : (d.setJob n v).skid = d.skid := rfl
@[simp] theorem setJob_chans (n : Nat) (v : Job) : (d.setJob n v).chans = d.chans := rfl
@[simp] theorem setJob_segs (n : Nat) (v : Job) : (d.setJob n v).segs = d.segs := rfl
@[simp] theorem setJob_xlt (n : Nat) (v : Job) : (d.setJob n v).xlt = d.xlt := rfl
@[simp] theorem setJob_links (n : Nat) (v : Job) : (d.setJob n v).links = d.links := rfl
@[simp] theorem setJob_power (n : Nat) (v : Job) : (d.setJob n v).power = d.power := rfl
@[simp] theorem setJob_sec (n : Nat) (v : Job) : (d.setJob n v).sec = d.sec := rfl
@[simp] theorem setJob_resets (n : Nat) (v : Job) : (d.setJob n v).resets = d.resets := rfl
@[simp] theorem setJob_dict (n : Nat) (v : Job) : (d.setJob n v).dict = d.dict := rfl
@[simp] theorem setJob_flash (n : Nat) (v : Job) : (d.setJob n v).flash = d.flash := rfl
@[simp] theorem setJob_boot (n : Nat) (v : Job) : (d.setJob n v).boot = d.boot := rfl
@[simp] theorem setJob_coarse (n : Nat) (v : Job) : (d.setJob n v).coarse = d.coarse := rfl
@[simp] theorem setJob_out (n : Nat) (v : Job) : (d.setJob n v).out = d.out := rfl
@[simp] theorem setJob_free (n : Nat) (v : Job) : (d.setJob n v).free = d.free := rfl
@[simp] theorem setJob_core (n : Nat) (v : Job) (k : Nat) : (d.setJob n v).core k = d.core k := rfl
@[simp] theorem setJob_slice (n : Nat) (v : Job) (k : Nat) : (d.setJob n v).slice k = d.slice k := rfl
@[simp] theorem setJob_stall (n : Nat) (v : Job) (k : Nat) : (d.setJob n v).stall k = d.stall k := rfl
@[simp] theorem setJob_outQueue (n : Nat) (v : Job) (k : Nat) : (d.setJob n v).outQueue k = d.outQueue k := rfl
@[simp] theorem setJob_ring (n : Nat) (v : Job) (k : Nat) : (d.setJob n v).ring k = d.ring k := rfl
@[simp] theorem setJob_vec (n : Nat) (v : Job) (k : Nat) : (d.setJob n v).vec k = d.vec k := rfl
@[simp] theorem setJob_obj (n : Nat) (v : Job) (k : Nat) : (d.setJob n v).obj k = d.obj k := rfl
@[simp] theorem setJob_fence (n : Nat) (v : Job) (k : Nat) : (d.setJob n v).fence k = d.fence k := rfl
@[simp] theorem setJob_seq (n : Nat) (v : Job) (k : Nat) : (d.setJob n v).seq k = d.seq k := rfl
@[simp] theorem setJob_pdk (n : Nat) (v : Job) (k : Nat) : (d.setJob n v).pdk k = d.pdk k := rfl
@[simp] theorem setJob_pdkSec (n : Nat) (v : Job) (k : Nat) : (d.setJob n v).pdkSec k = d.pdkSec k := rfl
@[simp] theorem setJob_window (n : Nat) (v : Job) (k : Nat) : (d.setJob n v).window k = d.window k := rfl
@[simp] theorem setJob_chan (n : Nat) (v : Job) (k : Nat) : (d.setJob n v).chan k = d.chan k := rfl
@[simp] theorem setJob_port (n : Nat) (v : Job) (k : Nat) : (d.setJob n v).port k = d.port k := rfl
@[simp] theorem setJob_binding (n : Nat) (v : Job) (k : Nat) : (d.setJob n v).binding k = d.binding k := rfl
@[simp] theorem setJob_alarm (n : Nat) (v : Job) (k : Nat) : (d.setJob n v).alarm k = d.alarm k := rfl
@[simp] theorem setJob_job_same (n : Nat) (v : Job) : (d.setJob n v).job n = some v := by
  simp [setJob, job]

/-! ### `emit` -/

@[simp] theorem emit_fuse (o : Out) : (d.emit o).fuse = d.fuse := rfl
@[simp] theorem emit_cal (o : Out) : (d.emit o).cal = d.cal := rfl
@[simp] theorem emit_tally (o : Out) : (d.emit o).tally = d.tally := rfl
@[simp] theorem emit_glb (o : Out) : (d.emit o).glb = d.glb := rfl
@[simp] theorem emit_rings (o : Out) : (d.emit o).rings = d.rings := rfl
@[simp] theorem emit_vecs (o : Out) : (d.emit o).vecs = d.vecs := rfl
@[simp] theorem emit_stalls (o : Out) : (d.emit o).stalls = d.stalls := rfl
@[simp] theorem emit_queues (o : Out) : (d.emit o).queues = d.queues := rfl
@[simp] theorem emit_objs (o : Out) : (d.emit o).objs = d.objs := rfl
@[simp] theorem emit_fences (o : Out) : (d.emit o).fences = d.fences := rfl
@[simp] theorem emit_seqs (o : Out) : (d.emit o).seqs = d.seqs := rfl
@[simp] theorem emit_pdks (o : Out) : (d.emit o).pdks = d.pdks := rfl
@[simp] theorem emit_jobs (o : Out) : (d.emit o).jobs = d.jobs := rfl
@[simp] theorem emit_nextJob (o : Out) : (d.emit o).nextJob = d.nextJob := rfl
@[simp] theorem emit_rounds (o : Out) : (d.emit o).rounds = d.rounds := rfl
@[simp] theorem emit_cores (o : Out) : (d.emit o).cores = d.cores := rfl
@[simp] theorem emit_slices (o : Out) : (d.emit o).slices = d.slices := rfl
@[simp] theorem emit_saved (o : Out) : (d.emit o).saved = d.saved := rfl
@[simp] theorem emit_windows (o : Out) : (d.emit o).windows = d.windows := rfl
@[simp] theorem emit_pieces (o : Out) : (d.emit o).pieces = d.pieces := rfl
@[simp] theorem emit_nextPiece (o : Out) : (d.emit o).nextPiece = d.nextPiece := rfl
@[simp] theorem emit_sends (o : Out) : (d.emit o).sends = d.sends := rfl
@[simp] theorem emit_pushes (o : Out) : (d.emit o).pushes = d.pushes := rfl
@[simp] theorem emit_skid (o : Out) : (d.emit o).skid = d.skid := rfl
@[simp] theorem emit_chans (o : Out) : (d.emit o).chans = d.chans := rfl
@[simp] theorem emit_segs (o : Out) : (d.emit o).segs = d.segs := rfl
@[simp] theorem emit_xlt (o : Out) : (d.emit o).xlt = d.xlt := rfl
@[simp] theorem emit_links (o : Out) : (d.emit o).links = d.links := rfl
@[simp] theorem emit_power (o : Out) : (d.emit o).power = d.power := rfl
@[simp] theorem emit_sec (o : Out) : (d.emit o).sec = d.sec := rfl
@[simp] theorem emit_resets (o : Out) : (d.emit o).resets = d.resets := rfl
@[simp] theorem emit_dict (o : Out) : (d.emit o).dict = d.dict := rfl
@[simp] theorem emit_flash (o : Out) : (d.emit o).flash = d.flash := rfl
@[simp] theorem emit_boot (o : Out) : (d.emit o).boot = d.boot := rfl
@[simp] theorem emit_coarse (o : Out) : (d.emit o).coarse = d.coarse := rfl
@[simp] theorem emit_free (o : Out) : (d.emit o).free = d.free := rfl
@[simp] theorem emit_core (o : Out) (k : Nat) : (d.emit o).core k = d.core k := rfl
@[simp] theorem emit_slice (o : Out) (k : Nat) : (d.emit o).slice k = d.slice k := rfl
@[simp] theorem emit_stall (o : Out) (k : Nat) : (d.emit o).stall k = d.stall k := rfl
@[simp] theorem emit_outQueue (o : Out) (k : Nat) : (d.emit o).outQueue k = d.outQueue k := rfl
@[simp] theorem emit_ring (o : Out) (k : Nat) : (d.emit o).ring k = d.ring k := rfl
@[simp] theorem emit_vec (o : Out) (k : Nat) : (d.emit o).vec k = d.vec k := rfl
@[simp] theorem emit_obj (o : Out) (k : Nat) : (d.emit o).obj k = d.obj k := rfl
@[simp] theorem emit_fence (o : Out) (k : Nat) : (d.emit o).fence k = d.fence k := rfl
@[simp] theorem emit_seq (o : Out) (k : Nat) : (d.emit o).seq k = d.seq k := rfl
@[simp] theorem emit_pdk (o : Out) (k : Nat) : (d.emit o).pdk k = d.pdk k := rfl
@[simp] theorem emit_pdkSec (o : Out) (k : Nat) : (d.emit o).pdkSec k = d.pdkSec k := rfl
@[simp] theorem emit_window (o : Out) (k : Nat) : (d.emit o).window k = d.window k := rfl
@[simp] theorem emit_chan (o : Out) (k : Nat) : (d.emit o).chan k = d.chan k := rfl
@[simp] theorem emit_port (o : Out) (k : Nat) : (d.emit o).port k = d.port k := rfl
@[simp] theorem emit_binding (o : Out) (k : Nat) : (d.emit o).binding k = d.binding k := rfl
@[simp] theorem emit_alarm (o : Out) (k : Nat) : (d.emit o).alarm k = d.alarm k := rfl
@[simp] theorem emit_job (o : Out) (k : Nat) : (d.emit o).job k = d.job k := rfl

/-! ### Changes of one unit -/

@[simp] theorem modCore_eq (n : Nat) (f : Core → Core) : d.modCore n f = d.setCore n (f (d.core n)) := rfl
@[simp] theorem modSlice_eq (n : Nat) (f : Slice → Slice) : d.modSlice n f = d.setSlice n (f (d.slice n)) := rfl
@[simp] theorem modStall_eq (n : Nat) (f : Stall → Stall) : d.modStall n f = d.setStall n (f (d.stall n)) := rfl
@[simp] theorem modOutQueue_eq (n : Nat) (f : OutQueue → OutQueue) : d.modOutQueue n f = d.setOutQueue n (f (d.outQueue n)) := rfl
@[simp] theorem modPdk_eq (n : Nat) (f : Pdk → Pdk) : d.modPdk n f = d.setPdk n (f (d.pdk n)) := rfl
@[simp] theorem modPdkSec_eq (n : Nat) (f : PdkSec → PdkSec) : d.modPdkSec n f = d.setPdkSec n (f (d.pdkSec n)) := rfl
@[simp] theorem modChan_eq (n : Nat) (f : Chan → Chan) : d.modChan n f = d.setChan n (f (d.chan n)) := rfl
@[simp] theorem modPort_eq (n : Nat) (f : Port → Port) : d.modPort n f = d.setPort n (f (d.port n)) := rfl
@[simp] theorem modBinding_eq (n : Nat) (f : Binding → Binding) : d.modBinding n f = d.setBinding n (f (d.binding n)) := rfl
@[simp] theorem modSeq_eq (c : Nat) (f : Sequencer → Sequencer) :
    d.modSeq c f = d.setCore c { d.core c with sq := f (d.core c).sq } := rfl
@[simp] theorem modPens_eq (c : Nat) (f : Pens → Pens) :
    d.modPens c f = d.setCore c { d.core c with pn := f (d.core c).pn } := rfl
@[simp] theorem modTrough_eq (c : Nat) (f : Trough → Trough) :
    d.modTrough c f = d.setCore c { d.core c with tr := f (d.core c).tr } := rfl
@[simp] theorem setChannel_eq (c ch : Nat) (v : Channel) : d.setChannel c ch v =
    d.setCore c { d.core c with channels := Table.set (d.core c).channels Channel.reset ch v } := rfl
@[simp] theorem setChute_eq (c n : Nat) (v : Chute) : d.setChute c n v =
    d.setCore c { d.core c with chutes := Table.set (d.core c).chutes Chute.reset n v } := rfl
@[simp] theorem modChannel_eq (c ch : Nat) (f : Channel → Channel) :
    d.modChannel c ch f = d.setChannel c ch (f (d.channel c ch)) := rfl

end Device

/-! ### What a wait of a slot queue leaves of its core -/

@[simp] theorem waitsIn_sq (k : Core) (sl : Slot) (v : Option Cause) : (k.waitsIn sl v).sq = k.sq := rfl
@[simp] theorem waitsIn_pn (k : Core) (sl : Slot) (v : Option Cause) : (k.waitsIn sl v).pn = k.pn := rfl
@[simp] theorem waitsIn_tr (k : Core) (sl : Slot) (v : Option Cause) : (k.waitsIn sl v).tr = k.tr := rfl
@[simp] theorem waitsIn_topk (k : Core) (sl : Slot) (v : Option Cause) : (k.waitsIn sl v).topk = k.topk := rfl
@[simp] theorem waitsIn_job (k : Core) (sl : Slot) (v : Option Cause) : (k.waitsIn sl v).job = k.job := rfl
@[simp] theorem waitsIn_chutes (k : Core) (sl : Slot) (v : Option Cause) : (k.waitsIn sl v).chutes = k.chutes := rfl
@[simp] theorem waitsIn_channels (k : Core) (sl : Slot) (v : Option Cause) : (k.waitsIn sl v).channels = k.channels := rfl
@[simp] theorem waitsIn_held (k : Core) (sl : Slot) (v : Option Cause) : (k.waitsIn sl v).held = k.held := rfl
@[simp] theorem waitsIn_chainNext (k : Core) (sl : Slot) (v : Option Cause) : (k.waitsIn sl v).chainNext = k.chainNext := rfl
@[simp] theorem waitsIn_chainLast (k : Core) (sl : Slot) (v : Option Cause) : (k.waitsIn sl v).chainLast = k.chainLast := rfl
@[simp] theorem waitsIn_musId (k : Core) (sl : Slot) (v : Option Cause) : (k.waitsIn sl v).musId = k.musId := rfl
@[simp] theorem waitsIn_musRound (k : Core) (sl : Slot) (v : Option Cause) : (k.waitsIn sl v).musRound = k.musRound := rfl
@[simp] theorem waitsIn_musWaiting (k : Core) (sl : Slot) (v : Option Cause) : (k.waitsIn sl v).musWaiting = k.musWaiting := rfl
@[simp] theorem waitsIn_stepOff (k : Core) (sl : Slot) (v : Option Cause) : (k.waitsIn sl v).stepOff = k.stepOff := rfl
@[simp] theorem waitsIn_stepEn (k : Core) (sl : Slot) (v : Option Cause) : (k.waitsIn sl v).stepEn = k.stepEn := rfl
@[simp] theorem waitsIn_stalls (k : Core) (sl : Slot) (v : Option Cause) : (k.waitsIn sl v).stalls = k.stalls := rfl
@[simp] theorem waitsIn_runCnt (k : Core) (sl : Slot) (v : Option Cause) : (k.waitsIn sl v).runCnt = k.runCnt := rfl
@[simp] theorem waitsIn_phase (k : Core) (sl : Slot) (v : Option Cause) : (k.waitsIn sl v).phase = k.phase := rfl
@[simp] theorem waitsIn_announced (k : Core) (sl : Slot) (v : Option Cause) : (k.waitsIn sl v).announced = k.announced := rfl
@[simp] theorem waitsIn_grazing (k : Core) (sl : Slot) (v : Option Cause) : (k.waitsIn sl v).grazing = k.grazing := rfl
@[simp] theorem waitsIn_fwait (k : Core) (sl : Slot) (v : Option Cause) : (k.waitsIn sl v).fwait = k.fwait := rfl
@[simp] theorem waitsIn_work (k : Core) (sl : Slot) (v : Option Cause) : (k.waitsIn sl v).work = k.work := rfl
@[simp] theorem waitsIn_waited (k : Core) (sl : Slot) (v : Option Cause) : (k.waitsIn sl v).waited = k.waited := rfl

end Sys2Proof.Machine
end

