-- ==== Sys2Proof/Laws/Issue.lean ====
section
/-! SUPPORT. What `Device.issue` does with an instruction that may issue, for each answer of its body. -/

namespace Sys2Proof.Machine
namespace Device

variable {d e : Device} {c op : Nat} {sl : Slot} {x : QInstr} {body : QInstr → Device → Issue}

/-- The parts of `mayIssue`. -/
theorem mayIssue_iff : d.mayIssue c sl op x = true ↔ c < 12 ∧ ((d.core c).sq.queue sl).head? = some x ∧ x.slot = sl ∧ opOf x.word = op ∧
    (d.core c).sq.issues = true ∧ d.frozen c = false ∧ (sl = .p → (d.core c).pn.walk = none) ∧
    ((d.core c).sq.draining = some none → kpMarked sl x.word = false) ∧ d.slotHolds c sl = false ∧ legal sl x.word = true ∧ (d.core c).sq.ready x = true ∧
    (d.core c).sq.guardOk x.word = true := by
  simp [mayIssue, and_assoc, imp_iff_not_or]

/-! ### Which instructions are Kerf points, and which are traced -/

/-- The marked C-slot instructions are MRECV, MUSTER and FWAIT (R186). -/
theorem kpMarked_c {w : W64} (h : opOf w = op) (h1 : op ≠ 0x15 := by decide) (h2 : op ≠ 0x16 := by decide)
    (h3 : op ≠ 0x18 := by decide) : kpMarked .c w = false := by subst h; simp [kpMarked, h1, h2, h3]
/-- The marked M-slot instructions are CHPUSH and CHPOP (R186). -/
theorem kpMarked_m {w : W64} (h : opOf w = op) (h1 : op ≠ 0x0C := by decide) (h2 : op ≠ 0x0D := by decide) :
    kpMarked .m w = false := by subst h; simp [kpMarked, h1, h2]
/-- Of the C slot only BR and HALT are traced (R456). -/
theorem traceOf_c (hs : x.slot = .c) (h : opOf x.word = op) (h1 : op ≠ 0x10 := by decide) (h2 : op ≠ 0x1E := by decide) :
    traceOf d c x = none := by
  subst h; unfold traceOf; simp only [hs]; split <;> simp_all
/-- Of the M slot the handle instructions, HAUL and two stores are traced (R456). -/
theorem traceOf_m (hs : x.slot = .m) (h : opOf x.word = op) (h1 : op ≠ 0x0C := by decide) (h2 : op ≠ 0x0D := by decide)
    (h3 : op ≠ 0x02 := by decide) (h4 : op ≠ 0x04 := by decide) (h5 : op ≠ 0x0B := by decide) : traceOf d c x = none := by
  subst h; unfold traceOf; simp only [hs]; split <;> simp_all
theorem traceOf_p (hs : x.slot = .p) : traceOf d c x = none := by simp [traceOf, hs]
theorem traceOf_t (hs : x.slot = .t) : traceOf d c x = none := by simp [traceOf, hs]

/-- An instruction that may issue does what its body answers. -/
theorem issue_eq (h : d.mayIssue c sl op x = true) : issue c sl op body d = match body x d with
    | .wait d cause => (d.modCore c fun k => k.waitsIn sl cause).kpWait c x
    | .trap code info => d.trapCore c code x.bundle sl info
    | .bad d code info => d.trapCore c code x.bundle sl info
    | .ok e => traceIssue d c x (((if sl == .t && decide (0x10 ≤ op) then e.spend c (e.weight 6) else e).retired c sl).kpDone c x)
    | .fly d => d.departed c sl := by
  obtain ⟨-, hq, -, ho, hi, hf, hw, hk', hs, hl, hr, hg⟩ := mayIssue_iff.1 h
  unfold issue
  dsimp only
  cases hk : (d.core c).sq.queue sl with
  | nil => simp [hk] at hq
  | cons y r =>
    obtain rfl : y = x := by simpa [hk] using hq
    simp [ho, hi, hf, hs, hl, hr, hg, Option.isSome_iff_ne_none]
    rw [if_neg (by rintro (⟨h, h'⟩ | ⟨h, h'⟩) <;> simp_all)]
    try cases body y d <;> rfl

/-- The body completes at once, and the instruction is no Kerf point and is not traced. -/
theorem issue_ok (h : d.mayIssue c sl op x = true) (hb : body x d = .ok e) (hk : kpMarked sl x.word = false)
    (ht : traceOf d c x = none) (hv : (sl == .t && decide (0x10 ≤ op)) = false) : issue c sl op body d = e.retired c sl := by
  obtain ⟨-, -, hs, -⟩ := mayIssue_iff.1 h
  rw [issue_eq h, hb]
  simp [kpDone, traceIssue, ht, retired, hs, hk, hv]

/-- A vector instruction's body completes at once. -/
theorem issue_vec (h : d.mayIssue c .t op x = true) (hb : body x d = .ok e) (hv : 0x10 ≤ op) :
    issue c .t op body d = e.vecRetired c := by
  obtain ⟨-, -, hs, -⟩ := mayIssue_iff.1 h
  rw [issue_eq h, hb]
  simp [kpDone, traceIssue, traceOf_t hs, vecRetired, hs, hv, kpMarked]

/-- The body completes at an event to come. -/
theorem issue_fly (h : d.mayIssue c sl op x = true) (hb : body x d = .fly e) : issue c sl op body d = e.departed c sl := by
  rw [issue_eq h, hb]

/-- A command whose instruction completes at once, as `issue_ok`. -/
theorem onUnit_issue_ok {s : State} (h : s.dev.mayIssue c sl op x = true) (hb : body x s.dev = .ok e)
    (hk : kpMarked sl x.word = false) (ht : traceOf s.dev c x = none) (hv : (sl == .t && decide (0x10 ≤ op)) = false) :
    onUnit 12 c s (issue c sl op body) = .next { s with dev := e.retired c sl } := by
  rw [onUnit_next _ _ (mayIssue_iff.1 h).1, issue_ok h hb hk ht hv]

/-- A command whose instruction completes at once, its Kerf point and its trace record with it. -/
theorem onUnit_completed {s : State} (h : s.dev.mayIssue c sl op x = true) (hb : body x s.dev = .ok e)
    (hv : (sl == .t && decide (0x10 ≤ op)) = false) :
    onUnit 12 c s (issue c sl op body) = .next { s with dev := s.dev.completed c x e } := by
  obtain ⟨hc, -, hs, -⟩ := mayIssue_iff.1 h
  rw [onUnit_next _ _ hc, issue_eq h, hb]
  subst hs
  simp [hv, completed]

/-- The body traps. -/
theorem issue_trap (h : d.mayIssue c sl op x = true) {code : Code} {info : W64} (hb : body x d = .trap code info) :
    issue c sl op body d = d.trapCore c code x.bundle sl info := by
  rw [issue_eq h, hb]

/-- The body traps after effects that stand. -/
theorem issue_bad (h : d.mayIssue c sl op x = true) {code : Code} {info : W64} (hb : body x d = .bad e code info) :
    issue c sl op body d = e.trapCore c code x.bundle sl info := by
  rw [issue_eq h, hb]

/-- The body waits. -/
theorem issue_wait (h : d.mayIssue c sl op x = true) {cause : Option Cause} (hb : body x d = .wait e cause) :
    issue c sl op body d = (e.modCore c fun k => k.waitsIn sl cause).kpWait c x := by
  rw [issue_eq h, hb]

end Device
end Sys2Proof.Machine
end

