-- ==== Sys2Proof/Laws/Later.lean ====
section
/-! SUPPORT. The relation `Device.Later`: how it composes, and that the writes of single units keep it. -/

namespace Sys2Proof.Machine

/-- Writing a block keeps the form of the slice's data. -/
theorem Slice.putBlock_wf {s : Slice} {b : Nat} {v : Blk} (h : Table.wf s.data Blk.reset = true) :
    Table.wf (s.putBlock b v).data Blk.reset = true := Table.wf_set _ _ h

/-- Clearing regions keeps the form of the slice's data. -/
theorem Slice.wipe_wf {s : Slice} {p : Region → Bool} (h : Table.wf s.data Blk.reset = true) :
    Table.wf (s.wipe p).data Blk.reset = true := by unfold Slice.wipe; dsimp only; exact Table.wf_keep _ h

/-- A new region leaves the slice's data. -/
theorem Slice.create_wf {s t : Slice} {r : Region} {b : Option Nat} (k : s.create r b = some t)
    (h : Table.wf s.data Blk.reset = true) : Table.wf t.data Blk.reset = true := by
  unfold Slice.create at k
  split at k
  · cases k; exact h
  · cases k

namespace Device

variable {a d e f : Device}

theorem Kept.refl (d : Device) : Kept d d := ⟨rfl, rfl, List.prefix_rfl, id, id⟩
theorem Kept.trans (h : Kept d e) (k : Kept e f) : Kept d f :=
  ⟨k.fuse.trans h.fuse, k.cal.trans h.cal, h.out.trans k.out, fun m => k.mem (h.mem m), fun m => k.tally (h.tally m)⟩
theorem Later.refl (d : Device) : Later d d := ⟨Kept.refl d, rfl, fun _ => le_rfl⟩
theorem Later.trans (h : Later d e) (k : Later e f) : Later d f :=
  ⟨h.toKept.trans k.toKept, k.epoch.trans h.epoch,
   fun m => (h.now m).trans (k.now (h.tally m))⟩

/-- A change of fields other than those the relation speaks of. -/
theorem Later.same (h : Later a d) (h1 : e.fuse = d.fuse) (h2 : e.cal = d.cal) (h3 : e.out = d.out)
    (h4 : e.slices = d.slices) (h5 : e.chans = d.chans) (h6 : e.tally.epoch = d.tally.epoch)
    (h7 : e.tally.now = d.tally.now) (h8 : e.tally.running = d.tally.running) : Later a e :=
  h.trans ⟨⟨h1, h2, h3 ▸ List.prefix_rfl, fun m => by simpa [memWf, h4, h5] using m,
    fun m => by simpa [tallyOk, h7, h8] using m⟩, h6, fun _ => h7 ▸ le_rfl⟩

/-- A record update of fields other than those the relation speaks of. -/
theorem Later.upd {tally0 : Tally} {glb0 : Glb} {rings0 : Table Ring} {vecs0 : Table Vec} {stalls0 : Table Stall} {queues0 : Table
    OutQueue} {objs0 : Table Obj} {fences0 : Table Fence} {seqs0 : Table Seq} {pdks0 : Table Pdk} {jobs0 : Table Job}
    {nextJob0 : Nat} {rounds0 : List Round} {cores0 : Table Core} {saved0 : Table (List Saved)} {windows0 : Table
    Window} {pieces0 : Table Piece} {nextPiece0 sends0 : Nat} {pushes0 : List Push} {skid0 : Table (List SkidMsg)} {segs0 :
    Table Segment} {xlt0 : Xlt} {links0 : Links} {power0 : Power} {sec0 : Security} {resets0 : Resets} {dict0 : Dict}
    {flash0 : Flash} {boot0 : Boot} {coarse0 : Table W64} {free0 : Nat}
    (h : Later a d) (h6 : tally0.epoch = d.tally.epoch) (h7 : tally0.now = d.tally.now)
    (h8 : tally0.running = d.tally.running) :
    Later a ⟨d.fuse, d.cal, tally0, glb0, rings0, vecs0, stalls0, queues0, objs0, fences0, seqs0, pdks0, jobs0, nextJob0,
      rounds0, cores0, d.slices, saved0, windows0, pieces0, nextPiece0, sends0, pushes0, skid0, d.chans, segs0, xlt0, links0,
      power0, sec0, resets0, dict0, flash0, boot0, coarse0, d.out, free0⟩ := h.same rfl rfl rfl rfl rfl h6 h7 h8

/-- A value on the way: what is proved of it may be used in what follows. -/
theorem Later.via (x : Device) (hx : Later a x) (k : Later a x → Later a e) : Later a e := k hx

/-- The device of a pair. -/
theorem Later.of_eq {β : Type} {p : Device × β} {y : β} (k : p = (e, y)) (h : Later a p.1) : Later a e := by
  rw [k] at h; exact h

theorem Later.ite {c : Prop} [Decidable c] (h : Later a d) (k : Later a e) : Later a (if c then d else e) := by
  split <;> assumption

theorem Later.of_ite {c : Prop} [Decidable c] {o : Option Device} (k : (if c then some d else o) = some e) (h : Later a d)
    (ho : ∀ e, o = some e → Later a e) : Later a e := by
  split at k
  · cases k; exact h
  · exact ho _ k

theorem Later.foldl {β : Type} {g : Device → β → Device} {l : List β} (hg : ∀ x b, Later a x → Later a (g x b))
    (h : Later a d) : Later a (l.foldl g d) := by
  induction l generalizing d with
  | nil => exact h
  | cons b r ih => exact ih (hg _ _ h)

theorem Later.tfoldl {β : Type} {g : Device → Nat → β → Device} {t : Table β}
    (hg : ∀ x i b, Later a x → Later a (g x i b)) (h : Later a d) : Later a (Table.foldl t g d) :=
  Later.foldl (fun x b => hg x b.1 b.2) h

theorem emit_later (o : Out) (h : Later a d) : Later a (d.emit o) :=
  h.trans ⟨⟨rfl, rfl, List.prefix_append _ _, id, id⟩, rfl, fun _ => le_rfl⟩

theorem slicesWf_set {t : Table Slice} {c : Nat} {v : Slice} (h : slicesWf t = true)
    (hv : Table.wf v.data Blk.reset = true) : slicesWf (Table.set t Slice.reset c v) = true := by
  simp only [slicesWf, Bool.and_eq_true] at *
  exact ⟨Table.wf_set _ _ h.1, Table.all_set h.2 hv⟩

theorem chansWf_set {t : Table Chan} {n : Nat} {v : Chan} (h : chansWf t = true)
    (hv : Table.wf v.lines Line.reset = true) : chansWf (Table.set t Chan.reset n v) = true := by
  simp only [chansWf, Bool.and_eq_true] at *
  exact ⟨Table.wf_set _ _ h.1, Table.all_set h.2 hv⟩

/-- The data of a slice are in canonical form. -/
theorem slice_wf (m : d.memWf = true) (c : Nat) : Table.wf (d.slice c).data Blk.reset = true := by
  simp only [memWf, slicesWf, Bool.and_eq_true] at m
  exact Table.get_all (p := fun s : Slice => Table.wf s.data Blk.reset) c m.1.2 rfl

/-- The lines of a channel are in canonical form. -/
theorem chan_wf (m : d.memWf = true) (n : Nat) : Table.wf (d.chan n).lines Line.reset = true := by
  simp only [memWf, chansWf, Bool.and_eq_true] at m
  exact Table.get_all (p := fun k : Chan => Table.wf k.lines Line.reset) n m.2.2 rfl

theorem setSlice_later (c : Nat) (v : Slice) (h : Later a d)
    (hv : Table.wf (d.slice c).data Blk.reset = true → Table.wf v.data Blk.reset = true) : Later a (d.setSlice c v) := by
  refine h.trans ⟨⟨rfl, rfl, List.prefix_rfl, fun m => ?_, id⟩, rfl, fun _ => le_rfl⟩
  have := hv (slice_wf m c)
  simp only [memWf, Bool.and_eq_true] at m ⊢
  exact ⟨slicesWf_set m.1 this, m.2⟩

theorem setChan_later (n : Nat) (v : Chan) (h : Later a d)
    (hv : Table.wf (d.chan n).lines Line.reset = true → Table.wf v.lines Line.reset = true) : Later a (d.setChan n v) := by
  refine h.trans ⟨⟨rfl, rfl, List.prefix_rfl, fun m => ?_, id⟩, rfl, fun _ => le_rfl⟩
  have := hv (chan_wf m n)
  simp only [memWf, Bool.and_eq_true] at m ⊢
  exact ⟨m.1, chansWf_set m.2 this⟩

theorem modSlice_later (c : Nat) (g : Slice → Slice) (h : Later a d)
    (hv : ∀ s, Table.wf s.data Blk.reset = true → Table.wf (g s).data Blk.reset = true) : Later a (d.modSlice c g) :=
  setSlice_later c _ h (hv _)

theorem modChan_later (n : Nat) (g : Chan → Chan) (h : Later a d)
    (hv : ∀ k, Table.wf k.lines Line.reset = true → Table.wf (g k).lines Line.reset = true) : Later a (d.modChan n g) :=
  setChan_later n _ h (hv _)

/-- A change of the Tally that keeps its epoch and does not take it back. -/
theorem modTally_later (g : Tally → Tally) (h : Later a d) (h1 : (g d.tally).epoch = d.tally.epoch)
    (h2 : d.tallyOk = true → d.tally.now ≤ (g d.tally).now)
    (h3 : d.tallyOk = true → ((g d.tally).running || (g d.tally).now == 0) = true) :
    Later a (d.modTally g) :=
  h.trans ⟨⟨rfl, rfl, List.prefix_rfl, id, h3⟩, h1, h2⟩

theorem setAlarm_later (n : Nat) (v : Alarm) (h : Later a d) : Later a (d.setAlarm n v) := h.same rfl rfl rfl rfl rfl rfl rfl rfl

end Device

/-- A device that is answered in a sum is later. -/
inductive SumLater {β : Type} (a : Device) : Device ⊕ β → Prop where
  | inl {d : Device} (h : a.Later d) : SumLater a (.inl d)
  | inr {b : β} : SumLater a (.inr b)

theorem SumLater.ite {β : Type} {a : Device} {p q : Device ⊕ β} {c : Prop} [Decidable c] (h : SumLater a p) (k : SumLater a q) :
    SumLater a (if c then p else q) := by
  split <;> assumption

theorem SumLater.of_inl {β : Type} {a d : Device} {p : Device ⊕ β} (k : p = .inl d) (h : SumLater a p) : a.Later d := by
  subst k; cases h; assumption

/-- What an instruction does when it comes to issue leaves a later device. -/
inductive Issue.Later (a : Device) : Issue → Prop where
  | wait {d : Device} {c : Option Cause} (h : a.Later d) : Issue.Later a (.wait d c)
  | trap {code : Code} {info : W64} : Issue.Later a (.trap code info)
  | bad {d : Device} {code : Code} {info : W64} (h : a.Later d) : Issue.Later a (.bad d code info)
  | ok {d : Device} (h : a.Later d) : Issue.Later a (.ok d)
  | fly {d : Device} (h : a.Later d) : Issue.Later a (.fly d)

theorem Issue.Later.ite {a : Device} {i j : Issue} {c : Prop} [Decidable c] (h : Issue.Later a i) (k : Issue.Later a j) :
    Issue.Later a (if c then i else j) := by
  split <;> assumption
theorem Issue.Later.of_ok {a d : Device} {i : Issue} (k : i = .ok d) (h : Issue.Later a i) : a.Later d := by
  subst k; cases h; assumption
theorem Issue.Later.of_wait {a d : Device} {i : Issue} {c : Option Cause} (k : i = .wait d c) (h : Issue.Later a i) :
    a.Later d := by subst k; cases h; assumption
theorem Issue.Later.of_bad {a d : Device} {i : Issue} {c : Code} {w : W64} (k : i = .bad d c w) (h : Issue.Later a i) :
    a.Later d := by subst k; cases h; assumption
theorem Issue.Later.of_fly {a d : Device} {i : Issue} (k : i = .fly d) (h : Issue.Later a i) : a.Later d := by
  subst k; cases h; assumption
theorem Device.illegal_later {a : Device} (x : QInstr) : Issue.Later a (Device.illegal x) := .trap

end Sys2Proof.Machine
end

