-- ==== Sys2Proof/Laws/LaterOps.lean ====
section
/-! SUPPORT. The relation `Device.Later`, one lemma per operation: the shared operations. -/

set_option linter.unusedTactic false
set_option linter.unreachableTactic false

namespace Sys2Proof.Machine

/-! ### Ops -/

theorem Device.arm_later {a : Device} : ∀ x0 x1 x2 x3 x4 x5 x6 x7, Device.Later a x0 → ∀ e b, @Device.arm x0 x1 x2 x3 x4 x5 x6 x7 = some (e, b) → Device.Later a e := by
  intro x0 x1 x2 x3 x4 x5 x6 x7 h e b hs
  simp only [Device.arm, Option.map_eq_some_iff, Prod.mk.injEq] at hs
  obtain ⟨n, -, rfl, -⟩ := hs
  exact h.same rfl rfl rfl rfl rfl rfl rfl rfl

theorem Device.setCore_later {a : Device} : ∀ x0 x1 x2, Device.Later a x0 → Device.Later a (@Device.setCore x0 x1 x2) := by
  intro x0 x1 x2 h0
  unfold Device.setCore
  repeat' first
    | with_reducible assumption
    | fail_if_no_progress with_reducible refine Device.Later.upd ?_ rfl rfl rfl

theorem Device.modCore_later {a : Device} : ∀ x0 x1 x2, Device.Later a x0 → Device.Later a (@Device.modCore x0 x1 x2) := by
  intro x0 x1 x2 h0
  unfold Device.modCore
  repeat' first
    | with_reducible assumption
    | with_reducible apply Device.setCore_later

theorem Device.setStall_later {a : Device} : ∀ x0 x1 x2, Device.Later a x0 → Device.Later a (@Device.setStall x0 x1 x2) := by
  intro x0 x1 x2 h0
  unfold Device.setStall
  repeat' first
    | with_reducible assumption
    | fail_if_no_progress with_reducible refine Device.Later.upd ?_ rfl rfl rfl

theorem Device.modStall_later {a : Device} : ∀ x0 x1 x2, Device.Later a x0 → Device.Later a (@Device.modStall x0 x1 x2) := by
  intro x0 x1 x2 h0
  unfold Device.modStall
  repeat' first
    | with_reducible assumption
    | with_reducible apply Device.setStall_later

theorem Device.setOutQueue_later {a : Device} : ∀ x0 x1 x2, Device.Later a x0 → Device.Later a (@Device.setOutQueue x0 x1 x2) := by
  intro x0 x1 x2 h0
  unfold Device.setOutQueue
  repeat' first
    | with_reducible assumption
    | fail_if_no_progress with_reducible refine Device.Later.upd ?_ rfl rfl rfl

theorem Device.modOutQueue_later {a : Device} : ∀ x0 x1 x2, Device.Later a x0 → Device.Later a (@Device.modOutQueue x0 x1 x2) := by
  intro x0 x1 x2 h0
  unfold Device.modOutQueue
  repeat' first
    | with_reducible assumption
    | with_reducible apply Device.setOutQueue_later

theorem Device.setRing_later {a : Device} : ∀ x0 x1 x2, Device.Later a x0 → Device.Later a (@Device.setRing x0 x1 x2) := by
  intro x0 x1 x2 h0
  unfold Device.setRing
  repeat' first
    | with_reducible assumption
    | fail_if_no_progress with_reducible refine Device.Later.upd ?_ rfl rfl rfl

theorem Device.setVec_later {a : Device} : ∀ x0 x1 x2, Device.Later a x0 → Device.Later a (@Device.setVec x0 x1 x2) := by
  intro x0 x1 x2 h0
  unfold Device.setVec
  repeat' first
    | with_reducible assumption
    | fail_if_no_progress with_reducible refine Device.Later.upd ?_ rfl rfl rfl

theorem Device.setObj_later {a : Device} : ∀ x0 x1 x2, Device.Later a x0 → Device.Later a (@Device.setObj x0 x1 x2) := by
  intro x0 x1 x2 h0
  unfold Device.setObj
  repeat' first
    | with_reducible assumption
    | fail_if_no_progress with_reducible refine Device.Later.upd ?_ rfl rfl rfl

theorem Device.setFence_later {a : Device} : ∀ x0 x1 x2, Device.Later a x0 → Device.Later a (@Device.setFence x0 x1 x2) := by
  intro x0 x1 x2 h0
  unfold Device.setFence
  repeat' first
    | with_reducible assumption
    | fail_if_no_progress with_reducible refine Device.Later.upd ?_ rfl rfl rfl

theorem Device.setSeq_later {a : Device} : ∀ x0 x1 x2, Device.Later a x0 → Device.Later a (@Device.setSeq x0 x1 x2) := by
  intro x0 x1 x2 h0
  unfold Device.setSeq
  repeat' first
    | with_reducible assumption
    | fail_if_no_progress with_reducible refine Device.Later.upd ?_ rfl rfl rfl

theorem Device.setPdk_later {a : Device} : ∀ x0 x1 x2, Device.Later a x0 → Device.Later a (@Device.setPdk x0 x1 x2) := by
  intro x0 x1 x2 h0
  unfold Device.setPdk
  repeat' first
    | with_reducible assumption
    | fail_if_no_progress with_reducible refine Device.Later.upd ?_ rfl rfl rfl

theorem Device.modPdk_later {a : Device} : ∀ x0 x1 x2, Device.Later a x0 → Device.Later a (@Device.modPdk x0 x1 x2) := by
  intro x0 x1 x2 h0
  unfold Device.modPdk
  repeat' first
    | with_reducible assumption
    | with_reducible apply Device.setPdk_later

theorem Device.setPdkSec_later {a : Device} : ∀ x0 x1 x2, Device.Later a x0 → Device.Later a (@Device.setPdkSec x0 x1 x2) := by
  intro x0 x1 x2 h0
  unfold Device.setPdkSec
  repeat' first
    | with_reducible assumption
    | fail_if_no_progress with_reducible refine Device.Later.upd ?_ rfl rfl rfl

theorem Device.modPdkSec_later {a : Device} : ∀ x0 x1 x2, Device.Later a x0 → Device.Later a (@Device.modPdkSec x0 x1 x2) := by
  intro x0 x1 x2 h0
  unfold Device.modPdkSec
  repeat' first
    | with_reducible assumption
    | with_reducible apply Device.setPdkSec_later

theorem Device.setWindow_later {a : Device} : ∀ x0 x1 x2, Device.Later a x0 → Device.Later a (@Device.setWindow x0 x1 x2) := by
  intro x0 x1 x2 h0
  unfold Device.setWindow
  repeat' first
    | with_reducible assumption
    | fail_if_no_progress with_reducible refine Device.Later.upd ?_ rfl rfl rfl

theorem Device.setPort_later {a : Device} : ∀ x0 x1 x2, Device.Later a x0 → Device.Later a (@Device.setPort x0 x1 x2) := by
  intro x0 x1 x2 h0
  unfold Device.setPort
  repeat' first
    | with_reducible assumption
    | fail_if_no_progress with_reducible refine Device.Later.upd ?_ rfl rfl rfl

theorem Device.modPort_later {a : Device} : ∀ x0 x1 x2, Device.Later a x0 → Device.Later a (@Device.modPort x0 x1 x2) := by
  intro x0 x1 x2 h0
  unfold Device.modPort
  repeat' first
    | with_reducible assumption
    | with_reducible apply Device.setPort_later

theorem Device.setBinding_later {a : Device} : ∀ x0 x1 x2, Device.Later a x0 → Device.Later a (@Device.setBinding x0 x1 x2) := by
  intro x0 x1 x2 h0
  unfold Device.setBinding
  repeat' first
    | with_reducible assumption
    | fail_if_no_progress with_reducible refine Device.Later.upd ?_ rfl rfl rfl

theorem Device.modBinding_later {a : Device} : ∀ x0 x1 x2, Device.Later a x0 → Device.Later a (@Device.modBinding x0 x1 x2) := by
  intro x0 x1 x2 h0
  unfold Device.modBinding
  repeat' first
    | with_reducible assumption
    | with_reducible apply Device.setBinding_later

theorem Device.setChannel_later {a : Device} : ∀ x0 x1 x2 x3, Device.Later a x0 → Device.Later a (@Device.setChannel x0 x1 x2 x3) := by
  intro x0 x1 x2 x3 h0
  unfold Device.setChannel
  repeat' first
    | with_reducible assumption
    | with_reducible apply Device.modCore_later

theorem Device.modChannel_later {a : Device} : ∀ x0 x1 x2 x3, Device.Later a x0 → Device.Later a (@Device.modChannel x0 x1 x2 x3) := by
  intro x0 x1 x2 x3 h0
  unfold Device.modChannel
  repeat' first
    | with_reducible assumption
    | with_reducible apply Device.setChannel_later

theorem Device.setChute_later {a : Device} : ∀ x0 x1 x2 x3, Device.Later a x0 → Device.Later a (@Device.setChute x0 x1 x2 x3) := by
  intro x0 x1 x2 x3 h0
  unfold Device.setChute
  repeat' first
    | with_reducible assumption
    | with_reducible apply Device.modCore_later

theorem Device.setJob_later {a : Device} : ∀ x0 x1 x2, Device.Later a x0 → Device.Later a (@Device.setJob x0 x1 x2) := by
  intro x0 x1 x2 h0
  unfold Device.setJob
  repeat' first
    | with_reducible assumption
    | fail_if_no_progress with_reducible refine Device.Later.upd ?_ rfl rfl rfl

theorem Device.modJob_later {a : Device} : ∀ x0 x1 x2, Device.Later a x0 → Device.Later a (@Device.modJob x0 x1 x2) := by
  intro x0 x1 x2 h0
  unfold Device.modJob
  repeat' first
    | with_reducible assumption
    | with_reducible apply Device.setJob_later
    | split

theorem Device.tookFree_later {a : Device} : ∀ x0, Device.Later a x0 → Device.Later a (@Device.tookFree x0) := by
  intro x0 h0
  unfold Device.tookFree
  repeat' first
    | with_reducible assumption
    | fail_if_no_progress with_reducible refine Device.Later.upd ?_ rfl rfl rfl

theorem Device.logFlash_later {a : Device} : ∀ x0 x1 x2, Device.Later a x0 → Device.Later a (@Device.logFlash x0 x1 x2) := by
  intro x0 x1 x2 h0
  unfold Device.logFlash
  repeat' first
    | with_reducible assumption
    | fail_if_no_progress with_reducible refine Device.Later.upd ?_ rfl rfl rfl
    | with_reducible apply Device.Later.ite

theorem Device.raiseVector_later {a : Device} : ∀ x0 x1 x2, Device.Later a x0 → Device.Later a (@Device.raiseVector x0 x1 x2) := by
  intro x0 x1 x2 h0
  unfold Device.raiseVector
  repeat' first
    | with_reducible assumption
    | with_reducible apply Device.setVec_later
    | with_reducible apply Device.emit_later
    | with_reducible apply Device.Later.ite

theorem Device.postRing_later {a : Device} : ∀ x0 x1 x2, Device.Later a x0 → Device.Later a (@Device.postRing x0 x1 x2) := by
  intro x0 x1 x2 h0
  unfold Device.postRing
  repeat' first
    | with_reducible assumption
    | with_reducible apply Device.emit_later
    | with_reducible apply Device.setRing_later
    | with_reducible apply Device.raiseVector_later
    | with_reducible apply Device.Later.ite

theorem Device.postDev_later {a : Device} : ∀ x0 x1, Device.Later a x0 → Device.Later a (@Device.postDev x0 x1) := by
  intro x0 x1 h0
  unfold Device.postDev
  repeat' first
    | with_reducible assumption
    | with_reducible apply Device.postRing_later

theorem Device.postQueue_later {a : Device} : ∀ x0 x1 x2, Device.Later a x0 → Device.Later a (@Device.postQueue x0 x1 x2) := by
  intro x0 x1 x2 h0
  unfold Device.postQueue
  repeat' first
    | with_reducible assumption
    | with_reducible apply Device.postRing_later
    | with_reducible apply Device.Later.ite

theorem Device.armSlot_later {a : Device} : ∀ x0 x1 x2 x3 x4 x5 x6 x7 x8, Device.Later a x0 → Device.Later a (@Device.armSlot x0 x1 x2 x3 x4 x5 x6 x7 x8) := by
  intro x0 x1 x2 x3 x4 x5 x6 x7 x8 h0
  unfold Device.armSlot
  repeat' first
    | with_reducible assumption
    | with_reducible apply Device.setAlarm_later

theorem Device.freeAlarm_later {a : Device} : ∀ x0 x1, Device.Later a x0 → Device.Later a (@Device.freeAlarm x0 x1) := by
  intro x0 x1 h0
  unfold Device.freeAlarm
  repeat' first
    | with_reducible assumption
    | with_reducible apply Device.setAlarm_later

theorem Device.disarmAll_later {a : Device} : ∀ x0 x1, Device.Later a x0 → Device.Later a (@Device.disarmAll x0 x1) := by
  intro x0 x1 h0
  unfold Device.disarmAll
  repeat' first
    | with_reducible assumption
    | with_reducible apply Device.freeAlarm_later
    | with_reducible apply Device.Later.foldl
    | intro _

theorem Device.fired_later {a : Device} : ∀ x0 x1, Device.Later a x0 → Device.Later a (@Device.fired x0 x1) := by
  intro x0 x1 h0
  unfold Device.fired
  repeat' first
    | with_reducible assumption
    | with_reducible apply Device.setAlarm_later
    | with_reducible apply Device.Later.ite

theorem Device.fenceChanged_later {a : Device} : ∀ x0 x1, Device.Later a x0 → Device.Later a (@Device.fenceChanged x0 x1) := by
  intro x0 x1 h0
  unfold Device.fenceChanged
  repeat' first
    | with_reducible assumption
    | with_reducible apply Device.emit_later
    | with_reducible apply Device.postQueue_later
    | with_reducible apply Device.Later.ite

theorem Device.signalFence_later {a : Device} : ∀ x0 x1 x2, Device.Later a x0 → Device.Later a (@Device.signalFence x0 x1 x2).1 := by
  intro x0 x1 x2 h0
  unfold Device.signalFence
  repeat' first
    | with_reducible assumption
    | with_reducible apply Device.fenceChanged_later
    | with_reducible apply Device.setFence_later
    | split
    | (extract_lets -underBinder +onlyGivenNames x; clear_value x)

theorem Device.attachError_later {a : Device} : ∀ x0 x1 x2, Device.Later a x0 → Device.Later a (@Device.attachError x0 x1 x2) := by
  intro x0 x1 x2 h0
  unfold Device.attachError
  repeat' first
    | with_reducible assumption
    | with_reducible apply Device.fenceChanged_later
    | with_reducible apply Device.setFence_later
    | with_reducible apply Device.Later.ite

theorem Device.attachTo_later {a : Device} : ∀ x0 x1 x2 x3, Device.Later a x0 → Device.Later a (@Device.attachTo x0 x1 x2 x3) := by
  intro x0 x1 x2 x3 h0
  unfold Device.attachTo
  repeat' first
    | with_reducible assumption
    | with_reducible apply Device.attachError_later
    | split

theorem Device.reapFence_later {a : Device} : ∀ x0 x1, Device.Later a x0 → Device.Later a (@Device.reapFence x0 x1) := by
  intro x0 x1 h0
  unfold Device.reapFence
  repeat' first
    | with_reducible assumption
    | with_reducible apply Device.setFence_later
    | with_reducible apply Device.Later.ite

theorem Device.refFence_later {a : Device} : ∀ x0 x1 x2, Device.Later a x0 → Device.Later a (@Device.refFence x0 x1 x2) := by
  intro x0 x1 x2 h0
  unfold Device.refFence
  repeat' first
    | with_reducible assumption
    | with_reducible apply Device.setFence_later
    | split

theorem Device.unrefFence_later {a : Device} : ∀ x0 x1, Device.Later a x0 → Device.Later a (@Device.unrefFence x0 x1) := by
  intro x0 x1 h0
  unfold Device.unrefFence
  repeat' first
    | with_reducible assumption
    | with_reducible apply Device.reapFence_later
    | with_reducible apply Device.setFence_later
    | with_reducible apply Device.Later.ite

theorem Device.holdWait_later {a : Device} : ∀ x0 x1 x2, Device.Later a x0 → Device.Later a (@Device.holdWait x0 x1 x2) := by
  intro x0 x1 x2 h0
  unfold Device.holdWait
  repeat' first
    | with_reducible assumption
    | with_reducible apply Device.modCore_later
    | with_reducible apply Device.setFence_later
    | with_reducible apply Device.Later.ite

theorem Device.dropWait_later {a : Device} : ∀ x0 x1, Device.Later a x0 → Device.Later a (@Device.dropWait x0 x1) := by
  intro x0 x1 h0
  unfold Device.dropWait
  repeat' first
    | with_reducible assumption
    | with_reducible apply Device.modCore_later
    | with_reducible apply Device.reapFence_later
    | with_reducible apply Device.setFence_later
    | split

theorem Device.clearRegion_later {a : Device} : ∀ x0 x1 x2, Device.Later a x0 → Device.Later a (@Device.clearRegion x0 x1 x2) := by
  intro x0 x1 x2 h0
  unfold Device.clearRegion
  repeat' first
    | with_reducible assumption
    | with_reducible apply Device.modSlice_later
    | fail_if_no_progress with_reducible refine Device.Later.upd ?_ rfl rfl rfl
    | intro _

theorem Device.reapObj_later {a : Device} : ∀ x0 x1, Device.Later a x0 → Device.Later a (@Device.reapObj x0 x1) := by
  intro x0 x1 h0
  unfold Device.reapObj
  repeat' first
    | with_reducible assumption
    | with_reducible apply Device.setObj_later
    | with_reducible apply Device.clearRegion_later
    | fail_if_no_progress with_reducible refine Device.Later.upd ?_ rfl rfl rfl
    | with_reducible apply Device.Later.ite
    | split

theorem Device.refObj_later {a : Device} : ∀ x0 x1, Device.Later a x0 → Device.Later a (@Device.refObj x0 x1) := by
  intro x0 x1 h0
  unfold Device.refObj
  repeat' first
    | with_reducible assumption
    | with_reducible apply Device.setObj_later

theorem Device.unrefObj_later {a : Device} : ∀ x0 x1, Device.Later a x0 → Device.Later a (@Device.unrefObj x0 x1) := by
  intro x0 x1 h0
  unfold Device.unrefObj
  repeat' first
    | with_reducible assumption
    | with_reducible apply Device.reapObj_later
    | with_reducible apply Device.setObj_later

theorem Device.traceRec_later {a : Device} : ∀ x0 x1 x2 x3 x4 x5, Device.Later a x0 → Device.Later a (@Device.traceRec x0 x1 x2 x3 x4 x5) := by
  intro x0 x1 x2 x3 x4 x5 h0
  unfold Device.traceRec
  repeat' first
    | with_reducible assumption
    | with_reducible apply Device.modPdkSec_later
    | with_reducible apply Device.emit_later
    | with_reducible apply Device.Later.ite
    | split

theorem Device.progress_later {a : Device} : ∀ x0 x1, Device.Later a x0 → Device.Later a (@Device.progress x0 x1) := by
  intro x0 x1 h0
  unfold Device.progress
  repeat' first
    | with_reducible assumption
    | with_reducible apply Device.modPdk_later

/-! ### YardOps -/

theorem Slice.ask_wf {s : Slice} {cls : Nat} {own : Bool} {lines : List Nat} {chans : List (Nat × Nat)}
    (h : s.data.wf Blk.reset = true) : (s.ask cls own lines chans).data.wf Blk.reset = true := h

theorem Device.askPorts_later {a : Device} : ∀ x0 x1 x2 x3 x4 x5, Device.Later a x0 → Device.Later a (@Device.askPorts x0 x1 x2 x3 x4 x5) := by
  intro x0 x1 x2 x3 x4 x5 h0
  unfold Device.askPorts
  repeat' first
    | with_reducible assumption
    | with_reducible apply Device.modSlice_later
    | with_reducible exact Slice.ask_wf (by with_reducible assumption)
    | intro _

theorem Device.noteFaults_later {a : Device} : ∀ x0 x1 x2 x3 x4, Device.Later a x0 → Device.Later a (@Device.noteFaults x0 x1 x2 x3 x4) := by
  intro x0 x1 x2 x3 x4 h0
  unfold Device.noteFaults
  repeat' first
    | with_reducible assumption
    | with_reducible apply Device.modSlice_later
    | intro _

theorem Device.yardUe_later {a : Device} : ∀ x0 x1 x2 x3 x4, Device.Later a x0 → Device.Later a (@Device.yardUe x0 x1 x2 x3 x4) := by
  intro x0 x1 x2 x3 x4 h0
  unfold Device.yardUe
  repeat' first
    | with_reducible assumption
    | with_reducible apply Device.noteFaults_later
    | with_reducible apply Device.setSlice_later
    | with_reducible apply Device.postDev_later
    | intro _
    | with_reducible apply Device.Later.ite

theorem Device.yardMend_later {a : Device} : ∀ x0 x1 x2, Device.Later a x0 → Device.Later a (@Device.yardMend x0 x1 x2) := by
  intro x0 x1 x2 h0
  unfold Device.yardMend
  repeat' first
    | with_reducible assumption
    | with_reducible apply Device.noteFaults_later
    | with_reducible apply Device.setSlice_later
    | intro _
    | split

theorem Device.askDrain_later {a : Device} : ∀ x0 x1 x2, Device.Later a x0 → Device.Later a (@Device.askDrain x0 x1 x2) := by
  intro x0 x1 x2 h0
  unfold Device.askDrain
  repeat' first
    | with_reducible assumption
    | with_reducible apply Device.askPorts_later

theorem Device.drainEntry_later {a : Device} : ∀ x0 x1 x2, Device.Later a x0 → Device.Later a (@Device.drainEntry x0 x1 x2) := by
  intro x0 x1 x2 h0
  unfold Device.drainEntry
  repeat' first
    | with_reducible assumption
    | with_reducible apply Device.askDrain_later
    | with_reducible apply Device.setSlice_later
    | with_reducible apply Device.yardMend_later
    | with_reducible apply Device.yardUe_later
    | with_reducible exact Slice.putBlock_wf (by with_reducible assumption)
    | intro _
    | with_reducible apply Device.Later.ite
    | split

theorem Device.drainBlock_later {a : Device} : ∀ x0 x1 x2, Device.Later a x0 → Device.Later a (@Device.drainBlock x0 x1 x2) := by
  intro x0 x1 x2 h0
  unfold Device.drainBlock
  repeat' first
    | with_reducible assumption
    | with_reducible apply Device.drainEntry_later
    | with_reducible apply Device.modSlice_later
    | intro _
    | split

theorem Device.drainAll_later {a : Device} : ∀ x0 x1, Device.Later a x0 → Device.Later a (@Device.drainAll x0 x1) := by
  intro x0 x1 h0
  unfold Device.drainAll
  repeat' first
    | with_reducible assumption
    | with_reducible apply Device.drainEntry_later
    | with_reducible apply Device.modSlice_later
    | with_reducible apply Device.Later.foldl
    | intro _

theorem Device.writeBlock_later {a : Device} : ∀ x0 x1 x2, Device.Later a x0 → Device.Later a (@Device.writeBlock x0 x1 x2) := by
  intro x0 x1 x2 h0
  unfold Device.writeBlock
  repeat' first
    | with_reducible assumption
    | with_reducible apply Device.modSlice_later
    | with_reducible apply Device.drainBlock_later
    | with_reducible exact Slice.putBlock_wf (by with_reducible assumption)
    | intro _
    | with_reducible apply Device.Later.ite
    | split

theorem Device.writeYard_later {a : Device} : ∀ x0 x1 x2 x3, Device.Later a x0 → Device.Later a (@Device.writeYard x0 x1 x2 x3) := by
  intro x0 x1 x2 x3 h0
  unfold Device.writeYard
  repeat' first
    | with_reducible assumption
    | with_reducible apply Device.writeBlock_later
    | with_reducible apply Device.Later.foldl
    | intro _

theorem Device.landBytes_later {a : Device} : ∀ x0 x1 x2 x3 x4, Device.Later a x0 → Device.Later a (@Device.landBytes x0 x1 x2 x3 x4) := by
  intro x0 x1 x2 x3 x4 h0
  unfold Device.landBytes
  repeat' first
    | with_reducible assumption
    | with_reducible apply Device.drainBlock_later
    | with_reducible apply Device.writeYard_later
    | with_reducible apply Device.askPorts_later
    | with_reducible apply Device.modSlice_later
    | with_reducible apply Device.Later.foldl
    | intro _

theorem Device.drainChannel_later {a : Device} : ∀ x0 x1 x2, Device.Later a x0 → Device.Later a (@Device.drainChannel x0 x1 x2) := by
  intro x0 x1 x2 h0
  unfold Device.drainChannel
  repeat' first
    | with_reducible assumption
    | with_reducible apply Device.drainBlock_later
    | with_reducible apply Device.Later.foldl
    | with_reducible apply Device.Later.tfoldl
    | intro _

theorem Device.readBlock_later {a : Device} : ∀ x0 x1 x2 x3, Device.Later a x0 → Device.Later a (@Device.readBlock x0 x1 x2 x3).1 := by
  intro x0 x1 x2 x3 h0
  unfold Device.readBlock
  repeat' first
    | with_reducible assumption
    | with_reducible apply Device.drainBlock_later
    | with_reducible apply Device.yardMend_later
    | with_reducible apply Device.yardUe_later
    | (intro (hh : Device.Later _ x); clear_value x)
    | split
    | (extract_lets -underBinder +onlyGivenNames x; with_reducible refine Device.Later.via x ?_ ?_; unfold x)
    | (extract_lets -underBinder +onlyGivenNames x; clear_value x)

theorem Device.readBlocks_later {a : Device} : ∀ x0 x1 x2 x3, Device.Later a x0 → Device.Later a (@Device.readBlocks x0 x1 x2 x3).1 := by
  intro x0 x1 x2 x3 h0
  induction x3 generalizing x0 x1 x2 with
  | nil =>
    unfold Device.readBlocks
    repeat' first
      | with_reducible assumption
      | with_reducible apply Device.readBlock_later
      | with_reducible apply ih
      | with_reducible refine Device.Later.of_eq (by with_reducible assumption) ?_
      | split
  | cons b r ih =>
    unfold Device.readBlocks
    repeat' first
      | with_reducible assumption
      | with_reducible apply Device.readBlock_later
      | with_reducible apply ih
      | with_reducible refine Device.Later.of_eq (by with_reducible assumption) ?_
      | split

theorem Device.readBytes_later {a : Device} : ∀ x0 x1 x2 x3 x4, Device.Later a x0 → Device.Later a (@Device.readBytes x0 x1 x2 x3 x4).1 := by
  intro x0 x1 x2 x3 x4 h0
  unfold Device.readBytes
  repeat' first
    | with_reducible assumption
    | with_reducible apply Device.readBlocks_later
    | with_reducible refine Device.Later.of_eq (by with_reducible assumption) ?_
    | split

theorem Device.readYard_later {a : Device} : ∀ x0 x1 x2 x3 x4, Device.Later a x0 → Device.Later a (@Device.readYard x0 x1 x2 x3 x4).1 := by
  intro x0 x1 x2 x3 x4 h0
  unfold Device.readYard
  repeat' first
    | with_reducible assumption
    | with_reducible apply Device.readBytes_later
    | with_reducible apply Device.askPorts_later

theorem Device.freeRegions_later {a : Device} : ∀ x0 x1 x2, Device.Later a x0 → Device.Later a (@Device.freeRegions x0 x1 x2) := by
  intro x0 x1 x2 h0
  unfold Device.freeRegions
  repeat' first
    | with_reducible assumption
    | with_reducible apply Device.modSlice_later
    | intro _

theorem Device.winOpen_later {a : Device} : ∀ x0 x1 x2 x3 x4 x5 x6 x7 x8 x9 x10 x11 x12, Device.Later a x0 → Device.Later a (@Device.winOpen x0 x1 x2 x3 x4 x5 x6 x7 x8 x9 x10 x11 x12).1 := by
  intro x0 x1 x2 x3 x4 x5 x6 x7 x8 x9 x10 x11 x12 h0
  unfold Device.winOpen
  repeat' first
    | with_reducible assumption
    | with_reducible apply Device.setWindow_later

theorem Device.winFlight_later {a : Device} : ∀ x0 x1 x2, Device.Later a x0 → Device.Later a (@Device.winFlight x0 x1 x2) := by
  intro x0 x1 x2 h0
  unfold Device.winFlight
  repeat' first
    | with_reducible assumption
    | with_reducible apply Device.setWindow_later

theorem Device.winClose_later {a : Device} : ∀ x0 x1, Device.Later a x0 → Device.Later a (@Device.winClose x0 x1) := by
  intro x0 x1 h0
  unfold Device.winClose
  repeat' first
    | with_reducible assumption
    | with_reducible apply Device.setWindow_later
    | with_reducible apply Device.Later.ite

theorem Device.winFree_later {a : Device} : ∀ x0 x1, Device.Later a x0 → Device.Later a (@Device.winFree x0 x1) := by
  intro x0 x1 h0
  unfold Device.winFree
  repeat' first
    | with_reducible assumption
    | with_reducible apply Device.setWindow_later
    | with_reducible apply Device.unrefObj_later
    | with_reducible apply Device.Later.ite
    | split

theorem Device.closeWindows_later {a : Device} : ∀ x0 x1, Device.Later a x0 → Device.Later a (@Device.closeWindows x0 x1) := by
  intro x0 x1 h0
  unfold Device.closeWindows
  repeat' first
    | with_reducible assumption
    | with_reducible apply Device.winClose_later
    | with_reducible apply Device.Later.tfoldl
    | intro _
    | with_reducible apply Device.Later.ite

/-! ### EngineOps -/

theorem Device.stopRings_later {a : Device} {c ch : Nat} : ∀ (l : List Ring4) (s : Device × Nat), Device.Later a s.1 →
    Device.Later a (l.foldl (stopRing c ch) s).1 := by
  intro l
  induction l with
  | nil => exact fun _ h => h
  | cons r l ih => exact fun s h => ih _ (h.same rfl rfl rfl rfl rfl rfl rfl rfl)

theorem Device.modQueue_later {a : Device} : ∀ x0 x1 x2, Device.Later a x0 → Device.Later a (@Device.modQueue x0 x1 x2) := by
  intro x0 x1 x2 h0
  unfold Device.modQueue
  repeat' first
    | with_reducible assumption
    | with_reducible apply Device.modStall_later
    | with_reducible apply Device.modOutQueue_later
    | split

theorem Device.modCmd_later {a : Device} : ∀ x0 x1 x2 x3, Device.Later a x0 → Device.Later a (@Device.modCmd x0 x1 x2 x3) := by
  intro x0 x1 x2 x3 h0
  unfold Device.modCmd
  repeat' first
    | with_reducible assumption
    | with_reducible apply Device.modQueue_later

theorem Device.queueProgress_later {a : Device} : ∀ x0 x1, Device.Later a x0 → Device.Later a (@Device.queueProgress x0 x1) := by
  intro x0 x1 h0
  unfold Device.queueProgress
  repeat' first
    | with_reducible assumption
    | with_reducible apply Device.modQueue_later

theorem Device.finishCmd_later {a : Device} : ∀ x0 x1 x2 x3 x4, Device.Later a x0 → Device.Later a (@Device.finishCmd x0 x1 x2 x3 x4) := by
  intro x0 x1 x2 x3 x4 h0
  unfold Device.finishCmd
  repeat' first
    | with_reducible assumption
    | with_reducible apply Device.modCmd_later

theorem Device.commandRecord_later {a : Device} : ∀ x0 x1 x2 x3 x4 x5 x6, Device.Later a x0 → Device.Later a (@Device.commandRecord x0 x1 x2 x3 x4 x5 x6) := by
  intro x0 x1 x2 x3 x4 x5 x6 h0
  unfold Device.commandRecord
  repeat' first
    | with_reducible assumption
    | with_reducible apply Device.postQueue_later

theorem Device.setPiece_later {a : Device} : ∀ x0 x1 x2, Device.Later a x0 → Device.Later a (@Device.setPiece x0 x1 x2) := by
  intro x0 x1 x2 h0
  unfold Device.setPiece
  repeat' first
    | with_reducible assumption
    | fail_if_no_progress with_reducible refine Device.Later.upd ?_ rfl rfl rfl

theorem Device.leaveSession_later {a : Device} : ∀ x0 x1, Device.Later a x0 → Device.Later a (@Device.leaveSession x0 x1) := by
  intro x0 x1 h0
  unfold Device.leaveSession
  repeat' first
    | with_reducible assumption
    | with_reducible apply Device.modBinding_later
    | with_reducible apply Device.Later.foldl
    | intro _
    | with_reducible apply Device.Later.ite

theorem Device.dropPiece_later {a : Device} : ∀ x0 x1, Device.Later a x0 → Device.Later a (@Device.dropPiece x0 x1) := by
  intro x0 x1 h0
  unfold Device.dropPiece
  repeat' first
    | with_reducible assumption
    | with_reducible apply Device.leaveSession_later
    | with_reducible apply Device.winFlight_later
    | fail_if_no_progress with_reducible refine Device.Later.upd ?_ rfl rfl rfl
    | split

theorem Device.stopPieces_later {a : Device} : ∀ x0 x1, Device.Later a x0 → Device.Later a (@Device.stopPieces x0 x1) := by
  intro x0 x1 h0
  unfold Device.stopPieces
  repeat' first
    | with_reducible assumption
    | with_reducible apply Device.dropPiece_later
    | with_reducible apply Device.setPiece_later
    | with_reducible apply Device.Later.tfoldl
    | intro _
    | with_reducible apply Device.Later.ite
    | split

theorem Device.unbind_later {a : Device} : ∀ x0 x1 x2, Device.Later a x0 → Device.Later a (@Device.unbind x0 x1 x2) := by
  intro x0 x1 x2 h0
  unfold Device.unbind
  repeat' first
    | with_reducible assumption
    | with_reducible apply Device.modCore_later
    | with_reducible apply Device.Later.foldl
    | intro _

theorem Device.forgetSenders_later {a : Device} : ∀ x0 x1, Device.Later a x0 → Device.Later a (@Device.forgetSenders x0 x1) := by
  intro x0 x1 h0
  unfold Device.forgetSenders
  repeat' first
    | with_reducible assumption
    | with_reducible apply Device.modCore_later
    | with_reducible apply Device.Later.foldl
    | intro _
    | with_reducible apply Device.Later.ite

theorem Device.stopStream_later {a : Device} : ∀ x0 x1 x2, Device.Later a x0 → Device.Later a (@Device.stopStream x0 x1 x2) := by
  intro x0 x1 x2 h0
  unfold Device.stopStream
  repeat' first
    | with_reducible apply Device.modChannel_later
    | with_reducible apply Device.unbind_later
    | with_reducible exact Device.stopRings_later _ _ (by with_reducible assumption)

theorem Device.stopChannel_later {a : Device} : ∀ x0 x1 x2, Device.Later a x0 → Device.Later a (@Device.stopChannel x0 x1 x2) := by
  intro x0 x1 x2 h0
  unfold Device.stopChannel
  repeat' first
    | with_reducible assumption
    | with_reducible apply Device.forgetSenders_later
    | with_reducible apply Device.stopPieces_later
    | with_reducible apply Device.stopStream_later
    | with_reducible apply Device.setChannel_later
    | fail_if_no_progress with_reducible refine Device.Later.upd ?_ rfl rfl rfl
    | with_reducible apply Device.Later.ite

theorem Device.haltChannel_later {a : Device} : ∀ x0 x1 x2 x3 x4 x5, Device.Later a x0 → Device.Later a (@Device.haltChannel x0 x1 x2 x3 x4 x5) := by
  intro x0 x1 x2 x3 x4 x5 h0
  unfold Device.haltChannel
  repeat' first
    | with_reducible assumption
    | with_reducible apply Device.stopChannel_later
    | with_reducible apply Device.setChannel_later
    | with_reducible apply Device.traceRec_later
    | with_reducible apply Device.postQueue_later
    | with_reducible apply Device.modJob_later
    | (intro (hh : Device.Later _ x); clear_value x)
    | with_reducible apply Device.Later.ite
    | split
    | (extract_lets -underBinder +onlyGivenNames x; with_reducible refine Device.Later.via x ?_ ?_; unfold x)
    | (extract_lets -underBinder +onlyGivenNames x; clear_value x)

theorem Device.failCommand_later {a : Device} : ∀ x0 x1 x2 x3, Device.Later a x0 → Device.Later a (@Device.failCommand x0 x1 x2 x3) := by
  intro x0 x1 x2 x3 h0
  unfold Device.failCommand
  repeat' first
    | with_reducible assumption
    | with_reducible apply Device.stopPieces_later
    | with_reducible apply Device.finishCmd_later

theorem Device.failPiece_later {a : Device} : ∀ x0 x1 x2 x3, Device.Later a x0 → Device.Later a (@Device.failPiece x0 x1 x2 x3) := by
  intro x0 x1 x2 x3 h0
  unfold Device.failPiece
  repeat' first
    | with_reducible assumption
    | with_reducible apply Device.dropPiece_later
    | with_reducible apply Device.haltChannel_later
    | with_reducible apply Device.failCommand_later
    | with_reducible apply Device.Later.ite
    | split

/-! ### LinkOps -/

theorem Device.sendAt_later {a : Device} : ∀ x0 x1 x2 x3, Device.Later a x0 → Device.Later a (@Device.sendAt x0 x1 x2 x3) := by
  intro x0 x1 x2 x3 h0
  unfold Device.sendAt
  repeat' first
    | with_reducible assumption
    | with_reducible apply Device.emit_later
    | with_reducible apply Device.modPort_later

theorem Device.putPort_later {a : Device} : ∀ x0 x1 x2 x3, Device.Later a x0 → Device.Later a (@Device.putPort x0 x1 x2 x3) := by
  intro x0 x1 x2 x3 h0
  unfold Device.putPort
  repeat' first
    | with_reducible assumption
    | with_reducible apply Device.modPort_later
    | with_reducible apply Device.emit_later
    | with_reducible apply Device.sendAt_later
    | with_reducible apply Device.Later.ite

theorem Device.flushPort_later {a : Device} : ∀ x0 x1, Device.Later a x0 → Device.Later a (@Device.flushPort x0 x1) := by
  intro x0 x1 h0
  unfold Device.flushPort
  repeat' first
    | with_reducible assumption
    | with_reducible apply Device.sendAt_later
    | with_reducible apply Device.modPort_later
    | with_reducible apply Device.Later.foldl
    | intro _
    | with_reducible apply Device.Later.ite

theorem Device.sendFrame_later {a : Device} : ∀ x0 x1 x2, Device.Later a x0 → Device.Later a (@Device.sendFrame x0 x1 x2) := by
  intro x0 x1 x2 h0
  unfold Device.sendFrame
  repeat' first
    | with_reducible assumption
    | with_reducible apply Device.putPort_later
    | with_reducible apply Device.Later.ite
    | split

theorem Device.flushOwed_later {a : Device} : ∀ x0 x1 x2, Device.Later a x0 → Device.Later a (@Device.flushOwed x0 x1 x2) := by
  intro x0 x1 x2 h0
  induction x2 generalizing x0 x1 with
  | zero =>
    unfold Device.flushOwed
    repeat' first
      | with_reducible assumption
      | with_reducible apply Device.setBinding_later
      | with_reducible apply Device.sendFrame_later
      | with_reducible apply ih
      | with_reducible apply Device.Later.ite
      | split
      | (extract_lets -underBinder +onlyGivenNames x; clear_value x)
  | succ n ih =>
    unfold Device.flushOwed
    repeat' first
      | with_reducible assumption
      | with_reducible apply Device.setBinding_later
      | with_reducible apply Device.sendFrame_later
      | with_reducible apply ih
      | with_reducible apply Device.Later.ite
      | split
      | (extract_lets -underBinder +onlyGivenNames x; clear_value x)

theorem Device.sendSeq_later {a : Device} : ∀ x0 x1 x2, Device.Later a x0 → Device.Later a (@Device.sendSeq x0 x1 x2) := by
  intro x0 x1 x2 h0
  unfold Device.sendSeq
  repeat' first
    | with_reducible assumption
    | with_reducible apply Device.flushOwed_later
    | with_reducible apply Device.setBinding_later

theorem Device.sendPiece_later {a : Device} : ∀ x0 x1 x2 x3 x4 x5 x6 x7, Device.Later a x0 → Device.Later a (@Device.sendPiece x0 x1 x2 x3 x4 x5 x6 x7) := by
  intro x0 x1 x2 x3 x4 x5 x6 x7 h0
  unfold Device.sendPiece
  repeat' first
    | with_reducible assumption
    | with_reducible apply Device.flushOwed_later
    | with_reducible apply Device.setBinding_later

theorem Device.endOutstanding_later {a : Device} : ∀ x0 x1 x2, Device.Later a x0 → Device.Later a (@Device.endOutstanding x0 x1 x2) := by
  intro x0 x1 x2 h0
  unfold Device.endOutstanding
  repeat' first
    | with_reducible assumption
    | with_reducible apply Device.failPiece_later
    | with_reducible apply Device.Later.foldl
    | intro _
    | split

theorem Device.clearSession_later {a : Device} : ∀ x0 x1 x2, Device.Later a x0 → Device.Later a (@Device.clearSession x0 x1 x2) := by
  intro x0 x1 x2 h0
  unfold Device.clearSession
  repeat' first
    | with_reducible assumption
    | with_reducible apply Device.endOutstanding_later
    | with_reducible apply Device.modBinding_later

theorem Device.sessionDown_later {a : Device} : ∀ x0 x1 x2, Device.Later a x0 → Device.Later a (@Device.sessionDown x0 x1 x2) := by
  intro x0 x1 x2 h0
  unfold Device.sessionDown
  repeat' first
    | with_reducible assumption
    | with_reducible apply Device.modBinding_later
    | with_reducible apply Device.clearSession_later

theorem Device.sessionOpen_later {a : Device} : ∀ x0 x1, Device.Later a x0 → Device.Later a (@Device.sessionOpen x0 x1) := by
  intro x0 x1 h0
  unfold Device.sessionOpen
  repeat' first
    | with_reducible assumption
    | with_reducible apply Device.setBinding_later
    | with_reducible apply Device.Later.ite

theorem Device.sessionUp_later {a : Device} : ∀ x0 x1 x2 x3, Device.Later a x0 → Device.Later a (@Device.sessionUp x0 x1 x2 x3) := by
  intro x0 x1 x2 x3 h0
  unfold Device.sessionUp
  repeat' first
    | with_reducible assumption
    | with_reducible apply Device.flushOwed_later
    | with_reducible apply Device.modBinding_later

/-! ### PowerOps -/

theorem Device.announce_later {a : Device} : ∀ x0 x1 x2, Device.Later a x0 → Device.Later a (@Device.announce x0 x1 x2) := by
  intro x0 x1 x2 h0
  unfold Device.announce
  repeat' first
    | with_reducible assumption
    | fail_if_no_progress with_reducible refine Device.Later.upd ?_ rfl rfl rfl
    | with_reducible apply Device.Later.ite

theorem Device.learn_later {a : Device} : ∀ x0 x1, Device.Later a x0 → Device.Later a (@Device.learn x0 x1) := by
  intro x0 x1 h0
  unfold Device.learn
  repeat' first
    | with_reducible assumption
    | fail_if_no_progress with_reducible refine Device.Later.upd ?_ rfl rfl rfl
    | with_reducible apply Device.Later.ite
    | split

theorem Device.lowerTo_later {a : Device} : ∀ x0 x1 x2, Device.Later a x0 → Device.Later a (@Device.lowerTo x0 x1 x2) := by
  intro x0 x1 x2 h0
  unfold Device.lowerTo
  repeat' first
    | with_reducible assumption
    | fail_if_no_progress with_reducible refine Device.Later.upd ?_ rfl rfl rfl

theorem Device.askRaise_later {a : Device} : ∀ x0 x1, Device.Later a x0 → Device.Later a (@Device.askRaise x0 x1) := by
  intro x0 x1 h0
  unfold Device.askRaise
  repeat' first
    | with_reducible assumption
    | fail_if_no_progress with_reducible refine Device.Later.upd ?_ rfl rfl rfl
    | with_reducible apply Device.Later.ite

theorem Device.decideStep_later {a : Device} : ∀ x0, Device.Later a x0 → Device.Later a (@Device.decideStep x0) := by
  intro x0 h0
  unfold Device.decideStep
  repeat' first
    | with_reducible assumption
    | with_reducible apply Device.lowerTo_later
    | with_reducible apply Device.askRaise_later
    | fail_if_no_progress with_reducible refine Device.Later.upd ?_ rfl rfl rfl
    | with_reducible apply Device.Later.ite
    | split

theorem Device.takeCommon_later {a : Device} : ∀ x0 x1 x2 x3, Device.Later a x0 → Device.Later a (@Device.takeCommon x0 x1 x2 x3) := by
  intro x0 x1 x2 x3 h0
  unfold Device.takeCommon
  repeat' first
    | with_reducible assumption
    | with_reducible apply Device.lowerTo_later
    | fail_if_no_progress with_reducible refine Device.Later.upd ?_ rfl rfl rfl
    | with_reducible apply Device.Later.ite

theorem Device.lowerCommon_later {a : Device} : ∀ x0, Device.Later a x0 → Device.Later a (@Device.lowerCommon x0) := by
  intro x0 h0
  unfold Device.lowerCommon
  repeat' first
    | with_reducible assumption
    | with_reducible apply Device.lowerTo_later
    | fail_if_no_progress with_reducible refine Device.Later.upd ?_ rfl rfl rfl
    | with_reducible apply Device.Later.ite
    | split

theorem Device.platform_later {a : Device} : ∀ x0 x1 x2, Device.Later a x0 → Device.Later a (@Device.platform x0 x1 x2) := by
  intro x0 x1 x2 h0
  unfold Device.platform
  repeat' first
    | with_reducible assumption
    | with_reducible apply Device.postDev_later

theorem Device.stopGrazing_later {a : Device} : ∀ x0, Device.Later a x0 → Device.Later a (@Device.stopGrazing x0) := by
  intro x0 h0
  unfold Device.stopGrazing
  repeat' first
    | with_reducible assumption
    | with_reducible apply Device.modCore_later
    | with_reducible apply Device.Later.foldl
    | intro _
    | with_reducible apply Device.Later.ite

theorem Device.forgetAnnounced_later {a : Device} : ∀ x0 x1, Device.Later a x0 → Device.Later a (@Device.forgetAnnounced x0 x1) := by
  intro x0 x1 h0
  unfold Device.forgetAnnounced
  repeat' first
    | with_reducible assumption
    | with_reducible apply Device.modCore_later
    | with_reducible apply Device.freeAlarm_later
    | fail_if_no_progress with_reducible refine Device.Later.upd ?_ rfl rfl rfl
    | split

theorem Device.endPhase_later {a : Device} : ∀ x0 x1, Device.Later a x0 → Device.Later a (@Device.endPhase x0 x1) := by
  intro x0 x1 h0
  unfold Device.endPhase
  repeat' first
    | with_reducible assumption
    | with_reducible apply Device.learn_later
    | with_reducible apply Device.modCore_later
    | with_reducible apply Device.forgetAnnounced_later

/-! ### MusterOps -/

theorem Device.reserveSlot_later {a : Device} : ∀ x0 x1 x2, Device.Later a x0 → ∀ e, @Device.reserveSlot x0 x1 x2 = some e → Device.Later a e := by
  intro x0 x1 x2 h e hs
  unfold Device.reserveSlot at hs
  split at hs
  · cases hs; exact h
  · simp only [Option.map_eq_some_iff] at hs
    obtain ⟨n, -, rfl⟩ := hs
    exact h.same rfl rfl rfl rfl rfl rfl rfl rfl

theorem Device.freeMusterSlot_later {a : Device} : ∀ x0 x1, Device.Later a x0 → Device.Later a (@Device.freeMusterSlot x0 x1) := by
  intro x0 x1 h0
  unfold Device.freeMusterSlot
  repeat' first
    | with_reducible assumption
    | with_reducible apply Device.freeAlarm_later
    | with_reducible apply Device.Later.ite
    | split

theorem Device.rearmMuster_later {a : Device} : ∀ x0 x1, Device.Later a x0 → Device.Later a (@Device.rearmMuster x0 x1) := by
  intro x0 x1 h0
  unfold Device.rearmMuster
  repeat' first
    | with_reducible assumption
    | with_reducible apply Device.armSlot_later
    | with_reducible apply Device.setAlarm_later
    | with_reducible apply Device.Later.ite
    | split

theorem Device.setRound_later {a : Device} : ∀ x0 x1, Device.Later a x0 → Device.Later a (@Device.setRound x0 x1) := by
  intro x0 x1 h0
  unfold Device.setRound
  repeat' first
    | with_reducible assumption
    | fail_if_no_progress with_reducible refine Device.Later.upd ?_ rfl rfl rfl

theorem Device.releaseCores_later {a : Device} : ∀ x0 x1, Device.Later a x0 → Device.Later a (@Device.releaseCores x0 x1) := by
  intro x0 x1 h0
  unfold Device.releaseCores
  repeat' first
    | with_reducible assumption
    | with_reducible apply Device.modCore_later
    | with_reducible apply Device.Later.foldl
    | intro _
    | with_reducible apply Device.Later.ite

theorem Device.releaseRound_later {a : Device} : ∀ x0 x1 x2, Device.Later a x0 → Device.Later a (@Device.releaseRound x0 x1 x2) := by
  intro x0 x1 x2 h0
  unfold Device.releaseRound
  repeat' first
    | with_reducible assumption
    | with_reducible apply Device.releaseCores_later
    | with_reducible apply Device.setRound_later
    | with_reducible apply Device.lowerCommon_later
    | with_reducible apply Device.rearmMuster_later
    | with_reducible apply Device.progress_later
    | with_reducible apply Device.Later.ite

theorem Device.completeRound_later {a : Device} : ∀ x0 x1 x2 x3, Device.Later a x0 → Device.Later a (@Device.completeRound x0 x1 x2 x3) := by
  intro x0 x1 x2 x3 h0
  unfold Device.completeRound
  repeat' first
    | with_reducible assumption
    | with_reducible apply Device.releaseRound_later
    | with_reducible apply Device.rearmMuster_later
    | with_reducible apply Device.setRound_later
    | with_reducible apply Device.Later.ite

theorem Device.tryComplete_later {a : Device} : ∀ x0 x1 x2, Device.Later a x0 → Device.Later a (@Device.tryComplete x0 x1 x2) := by
  intro x0 x1 x2 h0
  unfold Device.tryComplete
  repeat' first
    | with_reducible assumption
    | with_reducible apply Device.completeRound_later
    | with_reducible apply Device.sendSeq_later
    | with_reducible apply Device.takeCommon_later
    | with_reducible apply Device.releaseRound_later
    | with_reducible apply Device.rearmMuster_later
    | with_reducible apply Device.setRound_later
    | with_reducible apply Device.Later.foldl
    | intro _
    | with_reducible apply Device.Later.ite
    | split

theorem Device.reportArrival_later {a : Device} : ∀ x0 x1 x2 x3, Device.Later a x0 → Device.Later a (@Device.reportArrival x0 x1 x2 x3) := by
  intro x0 x1 x2 x3 h0
  unfold Device.reportArrival
  repeat' first
    | with_reducible assumption
    | with_reducible apply Device.sendSeq_later
    | fail_if_no_progress with_reducible refine Device.Later.upd ?_ rfl rfl rfl
    | with_reducible apply Device.Later.ite
    | split

theorem Device.arriveRound_later {a : Device} : ∀ x0 x1 x2 x3 x4 x5 x6, Device.Later a x0 → Device.Later a (@Device.arriveRound x0 x1 x2 x3 x4 x5 x6) := by
  intro x0 x1 x2 x3 x4 x5 x6 h0
  unfold Device.arriveRound
  repeat' first
    | with_reducible assumption
    | with_reducible apply Device.rearmMuster_later
    | with_reducible apply Device.setRound_later
    | with_reducible apply Device.tryComplete_later
    | with_reducible apply Device.reportArrival_later

theorem Device.pauseRounds_later {a : Device} : ∀ x0 x1 x2, Device.Later a x0 → Device.Later a (@Device.pauseRounds x0 x1 x2) := by
  intro x0 x1 x2 h0
  unfold Device.pauseRounds
  repeat' first
    | with_reducible assumption
    | with_reducible apply Device.rearmMuster_later
    | with_reducible apply Device.Later.foldl
    | fail_if_no_progress with_reducible refine Device.Later.upd ?_ rfl rfl rfl

theorem Device.resumeRounds_later {a : Device} : ∀ x0, Device.Later a x0 → Device.Later a (@Device.resumeRounds x0) := by
  intro x0 h0
  unfold Device.resumeRounds
  repeat' first
    | with_reducible assumption
    | with_reducible apply Device.rearmMuster_later
    | with_reducible apply Device.Later.foldl
    | fail_if_no_progress with_reducible refine Device.Later.upd ?_ rfl rfl rfl

theorem Device.dropRounds_later {a : Device} : ∀ x0 x1 x2, Device.Later a x0 → Device.Later a (@Device.dropRounds x0 x1 x2) := by
  intro x0 x1 x2 h0
  unfold Device.dropRounds
  repeat' first
    | with_reducible assumption
    | with_reducible apply Device.rearmMuster_later
    | with_reducible apply Device.tryComplete_later
    | with_reducible apply Device.Later.foldl
    | fail_if_no_progress with_reducible refine Device.Later.upd ?_ rfl rfl rfl
    | intro _
    | split

/-! ### JobOps -/

theorem Device.setShare_later {a : Device} : ∀ x0 x1 x2 x3, Device.Later a x0 → Device.Later a (@Device.setShare x0 x1 x2 x3) := by
  intro x0 x1 x2 x3 h0
  unfold Device.setShare
  repeat' first
    | with_reducible assumption
    | with_reducible apply Device.modPdk_later

theorem Device.activate_later {a : Device} : ∀ x0 x1 x2, Device.Later a x0 → Device.Later a (@Device.activate x0 x1 x2) := by
  intro x0 x1 x2 h0
  unfold Device.activate
  repeat' first
    | with_reducible assumption
    | with_reducible apply Device.setShare_later
    | with_reducible apply Device.Later.ite
    | split

theorem Device.chargeGroup_later {a : Device} : ∀ x0 x1 x2 x3, Device.Later a x0 → Device.Later a (@Device.chargeGroup x0 x1 x2 x3) := by
  intro x0 x1 x2 x3 h0
  unfold Device.chargeGroup
  repeat' first
    | with_reducible assumption
    | with_reducible apply Device.setShare_later

theorem Device.chargeStep_later {a : Device} : ∀ x0 x1, Device.Later a x0 → Device.Later a (@Device.chargeStep x0 x1) := by
  intro x0 x1 h0
  unfold Device.chargeStep
  repeat' first
    | with_reducible assumption
    | with_reducible apply Device.chargeGroup_later
    | with_reducible apply Device.Later.foldl
    | intro _
    | split
    | (extract_lets -underBinder +onlyGivenNames x; clear_value x)

theorem Device.setSem_later {a : Device} : ∀ x0 x1 x2 x3, Device.Later a x0 → Device.Later a (@Device.setSem x0 x1 x2 x3) := by
  intro x0 x1 x2 x3 h0
  unfold Device.setSem
  repeat' first
    | with_reducible assumption
    | with_reducible apply Device.modPdk_later

theorem Device.releaseTicket_later {a : Device} : ∀ x0 x1 x2 x3, Device.Later a x0 → Device.Later a (@Device.releaseTicket x0 x1 x2 x3) := by
  intro x0 x1 x2 x3 h0
  induction x3 generalizing x0 x1 x2 with
  | zero =>
    unfold Device.releaseTicket
    repeat' first
      | with_reducible assumption
      | with_reducible apply Device.signalFence_later
      | with_reducible apply Device.setSem_later
      | with_reducible apply ih
      | (intro (hh : Device.Later _ x); clear_value x)
      | split
      | (extract_lets -underBinder +onlyGivenNames x; with_reducible refine Device.Later.via x ?_ ?_; unfold x)
      | (extract_lets -underBinder +onlyGivenNames x; clear_value x)
  | succ n ih =>
    unfold Device.releaseTicket
    repeat' first
      | with_reducible assumption
      | with_reducible apply Device.signalFence_later
      | with_reducible apply Device.setSem_later
      | with_reducible apply ih
      | (intro (hh : Device.Later _ x); clear_value x)
      | split
      | (extract_lets -underBinder +onlyGivenNames x; with_reducible refine Device.Later.via x ?_ ?_; unfold x)
      | (extract_lets -underBinder +onlyGivenNames x; clear_value x)

theorem Device.endLoan_later {a : Device} : ∀ x0 x1 x2, Device.Later a x0 → Device.Later a (@Device.endLoan x0 x1 x2) := by
  intro x0 x1 x2 h0
  unfold Device.endLoan
  repeat' first
    | with_reducible assumption
    | with_reducible apply Device.modJob_later

theorem Device.dropTickets_later {a : Device} : ∀ x0 x1 x2, Device.Later a x0 → Device.Later a (@Device.dropTickets x0 x1 x2) := by
  intro x0 x1 x2 h0
  unfold Device.dropTickets
  repeat' first
    | with_reducible assumption
    | with_reducible apply Device.setSem_later
    | with_reducible apply Device.modJob_later
    | with_reducible apply Device.releaseTicket_later
    | with_reducible apply Device.Later.foldl
    | intro _

theorem Device.seqIdle_later {a : Device} : ∀ x0 x1, Device.Later a x0 → Device.Later a (@Device.seqIdle x0 x1) := by
  intro x0 x1 h0
  unfold Device.seqIdle
  repeat' first
    | with_reducible assumption
    | with_reducible apply Device.unrefObj_later
    | with_reducible apply Device.unrefFence_later
    | with_reducible apply Device.setSeq_later
    | with_reducible apply Device.Later.foldl
    | with_reducible apply Device.Later.ite

theorem Device.leaveDone_later {a : Device} : ∀ x0 x1, Device.Later a x0 → Device.Later a (@Device.leaveDone x0 x1) := by
  intro x0 x1 h0
  unfold Device.leaveDone
  repeat' first
    | with_reducible assumption
    | with_reducible apply Device.setSeq_later
    | with_reducible apply Device.finishCmd_later
    | split

theorem Device.idleAll_later {a : Device} : ∀ x0 x1 x2, Device.Later a x0 → Device.Later a (@Device.idleAll x0 x1 x2) := by
  intro x0 x1 x2 h0
  unfold Device.idleAll
  repeat' first
    | with_reducible assumption
    | with_reducible apply Device.attachTo_later
    | with_reducible apply Device.seqIdle_later
    | with_reducible apply Device.leaveDone_later
    | with_reducible apply Device.Later.tfoldl
    | intro _
    | with_reducible apply Device.Later.ite

theorem Device.leaveCore_later {a : Device} : ∀ x0 x1, Device.Later a x0 → Device.Later a (@Device.leaveCore x0 x1) := by
  intro x0 x1 h0
  unfold Device.leaveCore
  repeat' first
    | with_reducible assumption
    | with_reducible apply Device.dropWait_later
    | with_reducible apply Device.endPhase_later
    | with_reducible apply Device.stopChannel_later
    | with_reducible apply Device.modChannel_later
    | with_reducible apply Device.modCore_later
    | with_reducible apply Device.forgetSenders_later
    | with_reducible apply Device.Later.foldl
    | intro _

theorem Device.freeJobRegions_later {a : Device} : ∀ x0 x1, Device.Later a x0 → Device.Later a (@Device.freeJobRegions x0 x1) := by
  intro x0 x1 h0
  unfold Device.freeJobRegions
  repeat' first
    | with_reducible assumption
    | with_reducible apply Device.freeRegions_later
    | with_reducible apply Device.Later.foldl
    | intro _

theorem Device.calmCore_later {a : Device} : ∀ x0 x1, Device.Later a x0 → Device.Later a (@Device.calmCore x0 x1) := by
  intro x0 x1 h0
  unfold Device.calmCore
  repeat' first
    | with_reducible assumption
    | with_reducible apply Device.modCore_later

theorem Device.withdrawFor_later {a : Device} : ∀ x0 x1, Device.Later a x0 → Device.Later a (@Device.withdrawFor x0 x1) := by
  intro x0 x1 h0
  unfold Device.withdrawFor
  repeat' first
    | with_reducible assumption
    | with_reducible apply Device.calmCore_later
    | with_reducible apply Device.setJob_later
    | with_reducible apply Device.Later.foldl
    | with_reducible apply Device.Later.tfoldl
    | intro _
    | with_reducible apply Device.Later.ite

theorem Device.lapseCommon_later {a : Device} : ∀ x0 x1 x2, Device.Later a x0 → Device.Later a (@Device.lapseCommon x0 x1 x2) := by
  intro x0 x1 x2 h0
  unfold Device.lapseCommon
  repeat' first
    | with_reducible assumption
    | fail_if_no_progress with_reducible refine Device.Later.upd ?_ rfl rfl rfl
    | with_reducible apply Device.Later.ite

theorem Device.endJob_later {a : Device} : ∀ x0 x1 x2, Device.Later a x0 → Device.Later a (@Device.endJob x0 x1 x2) := by
  intro x0 x1 x2 h0
  unfold Device.endJob
  repeat' first
    | with_reducible assumption
    | with_reducible apply Device.leaveCore_later
    | with_reducible apply Device.modChannel_later
    | with_reducible apply Device.closeWindows_later
    | with_reducible apply Device.dropTickets_later
    | with_reducible apply Device.freeJobRegions_later
    | with_reducible apply Device.dropRounds_later
    | with_reducible apply Device.lapseCommon_later
    | with_reducible apply Device.withdrawFor_later
    | with_reducible apply Device.resumeRounds_later
    | with_reducible apply Device.freeMusterSlot_later
    | with_reducible apply Device.modPdk_later
    | with_reducible apply Device.idleAll_later
    | with_reducible apply Device.chargeStep_later
    | with_reducible apply Device.finishCmd_later
    | with_reducible apply Device.Later.foldl
    | fail_if_no_progress with_reducible refine Device.Later.upd ?_ rfl rfl rfl
    | intro _
    | with_reducible apply Device.Later.ite
    | split

theorem Device.requestPreempt_later {a : Device} : ∀ x0 x1 x2, Device.Later a x0 → Device.Later a (@Device.requestPreempt x0 x1 x2) := by
  intro x0 x1 x2 h0
  unfold Device.requestPreempt
  repeat' first
    | with_reducible assumption
    | with_reducible apply Device.modCore_later
    | with_reducible apply Device.setJob_later
    | with_reducible apply Device.Later.foldl
    | intro _
    | with_reducible apply Device.Later.ite
    | split

theorem Device.consider_later {a : Device} : ∀ x0 x1, Device.Later a x0 → Device.Later a (@Device.consider x0 x1) := by
  intro x0 x1 h0
  unfold Device.consider
  repeat' first
    | with_reducible assumption
    | with_reducible apply Device.requestPreempt_later
    | with_reducible apply Device.Later.foldl
    | intro _
    | with_reducible apply Device.Later.ite
    | split

/-! ### CoreOps -/

theorem Device.spend_later {a : Device} : ∀ x0 x1 x2, Device.Later a x0 → Device.Later a (@Device.spend x0 x1 x2) := by
  intro x0 x1 x2 h0
  unfold Device.spend
  repeat' first
    | with_reducible assumption
    | with_reducible apply Device.modCore_later

theorem Device.trapCore_later {a : Device} : ∀ x0 x1 x2 x3 x4 x5, Device.Later a x0 → Device.Later a (@Device.trapCore x0 x1 x2 x3 x4 x5) := by
  intro x0 x1 x2 x3 x4 x5 h0
  unfold Device.trapCore
  repeat' first
    | with_reducible assumption
    | with_reducible apply Device.modCore_later
    | with_reducible apply Device.traceRec_later
    | with_reducible apply Device.postQueue_later
    | with_reducible apply Device.endJob_later
    | with_reducible apply Device.Later.ite
    | split

theorem Device.kpWait_later {a : Device} : ∀ x0 x1 x2, Device.Later a x0 → Device.Later a (@Device.kpWait x0 x1 x2) := by
  intro x0 x1 x2 h0
  unfold Device.kpWait
  repeat' first
    | with_reducible assumption
    | with_reducible apply Device.modCore_later
    | with_reducible apply Device.Later.ite

theorem Device.kpDone_later {a : Device} : ∀ x0 x1 x2, Device.Later a x0 → Device.Later a (@Device.kpDone x0 x1 x2) := by
  intro x0 x1 x2 h0
  unfold Device.kpDone
  repeat' first
    | with_reducible assumption
    | with_reducible apply Device.modCore_later
    | with_reducible apply Device.queueProgress_later
    | with_reducible apply Device.progress_later
    | (intro (hh : Device.Later _ x); clear_value x)
    | with_reducible apply Device.Later.ite
    | split
    | (extract_lets -underBinder +onlyGivenNames x; with_reducible refine Device.Later.via x ?_ ?_; unfold x)

theorem Device.traceIssue_later {a : Device} : ∀ x0 x1 x2 x3, Device.Later a x0 → Device.Later a x3 → Device.Later a (@Device.traceIssue x0 x1 x2 x3) := by
  intro x0 x1 x2 x3 h0 h1
  unfold Device.traceIssue
  repeat' first
    | with_reducible assumption
    | with_reducible apply Device.traceRec_later
    | split

theorem Device.modSeq_later {a : Device} : ∀ x0 x1 x2, Device.Later a x0 → Device.Later a (@Device.modSeq x0 x1 x2) := by
  intro x0 x1 x2 h0
  unfold Device.modSeq
  repeat' first
    | with_reducible assumption
    | with_reducible apply Device.modCore_later

theorem Device.regOp_later {a : Device} : ∀ x0 x1 x2 x3, Device.Later a x3 → Issue.Later a (@Device.regOp x0 x1 x2 x3) := by
  intro x0 x1 x2 x3 h0
  unfold Device.regOp
  repeat' first
    | with_reducible assumption
    | with_reducible apply Device.modSeq_later
    | with_reducible apply Issue.Later.ok

theorem Device.issue_later {a : Device} : ∀ x0 x1 x2 x3 x4, (∀ y0 y1, Device.Later a y1 → Issue.Later a (x3 y0 y1)) → Device.Later a x4 → Device.Later a (@Device.issue x0 x1 x2 x3 x4) := by
  intro c sl op body d hb h
  unfold Device.issue
  dsimp only
  split
  · exact h
  · next x _ _ =>
    refine Device.Later.ite h (Device.Later.ite (Device.modCore_later _ _ _ h) (Device.Later.ite (Device.trapCore_later _ _ _ _ _ _ h)
      (Device.Later.ite h (Device.Later.ite (Device.modCore_later _ _ _ h) ?_))))
    have hx := hb x d h
    split
    · next e => rw [e] at hx; cases hx with | wait k => exact Device.kpWait_later _ _ _ (Device.modCore_later _ _ _ k)
    · exact Device.trapCore_later _ _ _ _ _ _ h
    · next e => rw [e] at hx; cases hx with | bad k => exact Device.trapCore_later _ _ _ _ _ _ k
    · next e =>
      rw [e] at hx
      cases hx with
      | ok k =>
        exact Device.traceIssue_later _ _ _ _ h (Device.kpDone_later _ _ _ (Device.modCore_later _ _ _
          (Device.Later.ite (Device.spend_later _ _ _ k) k)))
    · next e => rw [e] at hx; cases hx with | fly k => exact Device.modCore_later _ _ _ k

/-! ### ChuteOps -/

theorem Device.popChute_later {a : Device} : ∀ x0 x1 x2, Device.Later a x0 → ∀ e b, @Device.popChute x0 x1 x2 = some (e, b) → Device.Later a e := by
  intro x0 x1 x2 h e b hs
  unfold Device.popChute at hs
  dsimp only at hs
  split at hs
  · cases hs
  · cases hs; exact Device.setChute_later _ _ _ _ h

theorem Device.refuse_later {a : Device} : ∀ x0 x1 x2 x3, Device.Later a x0 → Device.Later a (@Device.refuse x0 x1 x2 x3) := by
  intro x0 x1 x2 x3 h0
  unfold Device.refuse
  repeat' first
    | with_reducible assumption
    | with_reducible apply Device.setChute_later

theorem Device.enter_later {a : Device} : ∀ x0 x1 x2 x3, Device.Later a x0 → Device.Later a (@Device.enter x0 x1 x2 x3) := by
  intro x0 x1 x2 x3 h0
  unfold Device.enter
  repeat' first
    | with_reducible assumption
    | with_reducible apply Device.setChute_later

theorem Device.holdHandle_later {a : Device} : ∀ x0 x1 x2, Device.Later a x0 → Device.Later a (@Device.holdHandle x0 x1 x2) := by
  intro x0 x1 x2 h0
  unfold Device.holdHandle
  repeat' first
    | with_reducible assumption
    | with_reducible apply Device.modCore_later

theorem Device.giveHandle_later {a : Device} : ∀ x0 x1 x2, Device.Later a x0 → Device.Later a (@Device.giveHandle x0 x1 x2) := by
  intro x0 x1 x2 h0
  unfold Device.giveHandle
  repeat' first
    | with_reducible assumption
    | with_reducible apply Device.modCore_later

theorem Device.auditAll_later {a : Device} : ∀ x0 x1 x2, Device.Later a x0 → Device.Later a (@Device.auditAll x0 x1 x2) := by
  intro x0 x1 x2 h0
  unfold Device.auditAll
  repeat' first
    | with_reducible assumption
    | with_reducible apply Device.setSlice_later
    | intro _
    | with_reducible apply Device.Later.ite

theorem Device.audit_later {a : Device} : ∀ x0 x1 x2 x3, Device.Later a x0 → Device.Later a (@Device.audit x0 x1 x2 x3) := by
  intro x0 x1 x2 x3 h0
  unfold Device.audit
  repeat' first
    | with_reducible assumption
    | with_reducible apply Device.auditAll_later

theorem Device.send_later {a : Device} : ∀ x0 x1 x2 x3 x4 x5 x6, Device.Later a x0 → Device.Later a (@Device.send x0 x1 x2 x3 x4 x5 x6) := by
  intro x0 x1 x2 x3 x4 x5 x6 h0
  unfold Device.send
  repeat' first
    | with_reducible assumption
    | fail_if_no_progress with_reducible refine Device.Later.upd ?_ rfl rfl rfl

theorem Device.push_later {a : Device} : ∀ x0 x1 x2 x3 x4 x5 x6, Device.Later a x0 → Device.Later a (@Device.push x0 x1 x2 x3 x4 x5 x6).1 := by
  intro x0 x1 x2 x3 x4 x5 x6 h0
  unfold Device.push
  repeat' first
    | with_reducible assumption
    | with_reducible apply Device.refuse_later
    | with_reducible apply Device.enter_later
    | with_reducible apply Device.send_later
    | split

theorem Device.pushFrom_later {a : Device} : ∀ x0 x1 x2 x3 x4 x5 x6, Device.Later a x0 → Issue.Later a (@Device.pushFrom x0 x1 x2 x3 x4 x5 x6) := by
  intro x0 x1 x2 x3 x4 x5 x6 h0
  unfold Device.pushFrom
  repeat' first
    | with_reducible assumption
    | with_reducible apply Device.push_later
    | with_reducible apply Issue.Later.ok
    | with_reducible apply Issue.Later.wait
    | with_reducible refine Device.Later.of_eq (by with_reducible assumption) ?_
    | split

theorem Device.pushArrives_later {a : Device} : ∀ x0 x1 x2 x3, Device.Later a x0 → Device.Later a (@Device.pushArrives x0 x1 x2 x3) := by
  intro x0 x1 x2 x3 h0
  unfold Device.pushArrives
  repeat' first
    | with_reducible assumption
    | with_reducible apply Device.trapCore_later
    | with_reducible apply Device.haltChannel_later
    | with_reducible apply Device.refuse_later
    | with_reducible apply Device.enter_later
    | fail_if_no_progress with_reducible refine Device.Later.upd ?_ rfl rfl rfl
    | with_reducible apply Device.Later.ite
    | split

theorem Device.resend_later {a : Device} : ∀ x0 x1, Device.Later a x0 → Device.Later a (@Device.resend x0 x1) := by
  intro x0 x1 h0
  unfold Device.resend
  repeat' first
    | with_reducible assumption
    | fail_if_no_progress with_reducible refine Device.Later.upd ?_ rfl rfl rfl

theorem Device.freeSignal_later {a : Device} : ∀ x0 x1 x2, Device.Later a x0 → Device.Later a (@Device.freeSignal x0 x1 x2) := by
  intro x0 x1 x2 h0
  unfold Device.freeSignal
  repeat' first
    | with_reducible assumption
    | with_reducible apply Device.resend_later
    | with_reducible apply Device.setChute_later
    | with_reducible apply Device.Later.ite
    | split
    | (extract_lets -underBinder +onlyGivenNames x; clear_value x)

theorem chpushBody_later {a : Device} : ∀ x0 x1 x2, Device.Later a x2 → Issue.Later a (@chpushBody x0 x1 x2) := by
  intro x0 x1 x2 h0
  unfold chpushBody
  repeat' first
    | with_reducible assumption
    | with_reducible apply Device.drainAll_later
    | with_reducible apply Device.pushFrom_later
    | with_reducible apply Device.giveHandle_later
    | with_reducible apply Issue.Later.ok
    | with_reducible apply Issue.Later.wait
    | with_reducible apply Issue.Later.trap
    | with_reducible refine Issue.Later.of_ok (by with_reducible assumption) ?_
    | with_reducible apply Issue.Later.ite
    | with_reducible apply Device.Later.ite
    | split

theorem chpopBody_later {a : Device} : ∀ x0 x1 x2, Device.Later a x2 → Issue.Later a (@chpopBody x0 x1 x2) := by
  intro x0 x1 x2 h0
  unfold chpopBody
  repeat' first
    | with_reducible assumption
    | with_reducible refine Device.popChute_later _ _ _ ?_ _ _ (by with_reducible assumption)
    | with_reducible apply Device.modSeq_later
    | with_reducible apply Device.holdHandle_later
    | with_reducible apply Issue.Later.ok
    | with_reducible apply Issue.Later.wait
    | with_reducible apply Issue.Later.trap
    | with_reducible apply Issue.Later.ite
    | split

theorem msendBody_later {a : Device} : ∀ x0 x1 x2, Device.Later a x2 → Issue.Later a (@msendBody x0 x1 x2) := by
  intro x0 x1 x2 h0
  unfold msendBody
  repeat' first
    | with_reducible assumption
    | with_reducible apply Device.pushFrom_later
    | with_reducible apply Issue.Later.trap
    | with_reducible apply Issue.Later.ite

theorem mrecvBody_later {a : Device} : ∀ x0 x1 x2, Device.Later a x2 → Issue.Later a (@mrecvBody x0 x1 x2) := by
  intro x0 x1 x2 h0
  unfold mrecvBody
  repeat' first
    | with_reducible assumption
    | with_reducible refine Device.popChute_later _ _ _ ?_ _ _ (by with_reducible assumption)
    | with_reducible apply Device.modSeq_later
    | with_reducible apply Issue.Later.ok
    | with_reducible apply Issue.Later.wait
    | with_reducible apply Issue.Later.trap
    | with_reducible apply Issue.Later.ite
    | split

/-! ### PenOps -/

theorem Device.modPens_later {a : Device} : ∀ x0 x1 x2, Device.Later a x0 → Device.Later a (@Device.modPens x0 x1 x2) := by
  intro x0 x1 x2 h0
  unfold Device.modPens
  repeat' first
    | with_reducible assumption
    | with_reducible apply Device.modCore_later

/-! ### TroughOps -/

theorem Device.modTrough_later {a : Device} : ∀ x0 x1 x2, Device.Later a x0 → Device.Later a (@Device.modTrough x0 x1 x2) := by
  intro x0 x1 x2 h0
  unfold Device.modTrough
  repeat' first
    | with_reducible assumption
    | with_reducible apply Device.modCore_later

theorem Device.codeRead_later {a : Device} : ∀ x0 x1 x2 x3, Device.Later a x0 → Device.Later a (@Device.codeRead x0 x1 x2 x3).1 := by
  intro x0 x1 x2 x3 h0
  unfold Device.codeRead
  repeat' first
    | with_reducible assumption
    | with_reducible apply Device.readBytes_later
    | split

theorem Device.streamRead_later {a : Device} : ∀ x0 x1 x2 x3, Device.Later a x0 → Device.Later a (@Device.streamRead x0 x1 x2 x3).1 := by
  intro x0 x1 x2 x3 h0
  unfold Device.streamRead
  repeat' first
    | with_reducible assumption
    | with_reducible apply Device.readYard_later
    | split

theorem Device.readRow_later {a : Device} : ∀ x0 x1 x2 x3, Device.Later a x0 → Device.Later a (@Device.readRow x0 x1 x2 x3).1 := by
  intro x0 x1 x2 x3 h0
  unfold Device.readRow
  repeat' first
    | with_reducible assumption
    | with_reducible apply Device.codeRead_later
    | with_reducible apply Device.streamRead_later
    | with_reducible refine Device.Later.of_eq (by with_reducible assumption) ?_
    | split
    | (extract_lets -underBinder +onlyGivenNames x; clear_value x)

theorem Device.readRows_later {a : Device} : ∀ x0 x1 x2 x3, Device.Later a x0 → Device.Later a (@Device.readRows x0 x1 x2 x3).1 := by
  intro x0 x1 x2 x3 h0
  induction x3 generalizing x0 x1 x2 with
  | nil =>
    unfold Device.readRows
    repeat' first
      | with_reducible assumption
      | with_reducible apply Device.readRow_later
      | with_reducible apply ih
      | with_reducible refine Device.Later.of_eq (by with_reducible assumption) ?_
      | split
  | cons b r ih =>
    unfold Device.readRows
    repeat' first
      | with_reducible assumption
      | with_reducible apply Device.readRow_later
      | with_reducible apply ih
      | with_reducible refine Device.Later.of_eq (by with_reducible assumption) ?_
      | split

theorem Device.writeOuts_later {a : Device} : ∀ x0 x1 x2 x3 x4, Device.Later a x0 → Device.Later a (@Device.writeOuts x0 x1 x2 x3 x4) := by
  intro x0 x1 x2 x3 x4 h0
  unfold Device.writeOuts
  repeat' first
    | with_reducible assumption
    | with_reducible apply Device.writeYard_later
    | with_reducible apply Device.askPorts_later

theorem Device.flagTrough_later {a : Device} : ∀ x0 x1 x2, Device.Later a x0 → Device.Later a (@Device.flagTrough x0 x1 x2) := by
  intro x0 x1 x2 h0
  unfold Device.flagTrough
  repeat' first
    | with_reducible assumption
    | with_reducible apply Device.modTrough_later

theorem Device.raiseTrough_later {a : Device} : ∀ x0 x1 x2 x3, Device.Later a x0 → Device.Later a (@Device.raiseTrough x0 x1 x2 x3) := by
  intro x0 x1 x2 x3 h0
  unfold Device.raiseTrough
  repeat' first
    | with_reducible assumption
    | with_reducible apply Device.flagTrough_later
    | with_reducible apply Device.trapCore_later
    | split
    | (extract_lets -underBinder +onlyGivenNames x; clear_value x)

theorem Device.abandonPass_later {a : Device} : ∀ x0 x1 x2 x3 x4 x5, Device.Later a x0 → Device.Later a (@Device.abandonPass x0 x1 x2 x3 x4 x5) := by
  intro x0 x1 x2 x3 x4 x5 h0
  unfold Device.abandonPass
  repeat' first
    | with_reducible assumption
    | with_reducible apply Device.writeOuts_later
    | with_reducible apply Device.modTrough_later
    | with_reducible apply Device.modSeq_later
    | with_reducible apply Device.flagTrough_later
    | with_reducible apply Device.raiseTrough_later
    | with_reducible apply Device.trapCore_later
    | with_reducible apply Device.Later.foldl
    | intro _

theorem Device.runPass_later {a : Device} : ∀ x0 x1 x2, Device.Later a x0 → Device.Later a (@Device.runPass x0 x1 x2) := by
  intro x0 x1 x2 h0
  unfold Device.runPass
  repeat' first
    | with_reducible assumption
    | with_reducible apply Device.tookFree_later
    | with_reducible apply Device.modTrough_later
    | with_reducible apply Device.abandonPass_later
    | with_reducible apply Device.readRows_later
    | with_reducible apply Device.streamRead_later
    | with_reducible apply Device.writeOuts_later
    | with_reducible apply Device.modSeq_later
    | with_reducible apply Device.raiseTrough_later
    | with_reducible refine Device.Later.of_eq (by with_reducible assumption) ?_
    | (intro (hh : Device.Later _ x); clear_value x)
    | split
    | (extract_lets -underBinder +onlyGivenNames x; with_reducible refine Device.Later.via x ?_ ?_; unfold x)
    | (extract_lets -underBinder +onlyGivenNames x; clear_value x)

theorem Device.tWaits_later {a : Device} : ∀ x0 x1 x2, Device.Later a x0 → Device.Later a (@Device.tWaits x0 x1 x2) := by
  intro x0 x1 x2 h0
  unfold Device.tWaits
  repeat' first
    | with_reducible assumption
    | with_reducible apply Device.modCore_later

theorem Device.troughCycle_later {a : Device} : ∀ x0 x1, Device.Later a x0 → Device.Later a (@Device.troughCycle x0 x1) := by
  intro x0 x1 h0
  unfold Device.troughCycle
  repeat' first
    | with_reducible assumption
    | with_reducible apply Device.tWaits_later
    | with_reducible apply Device.modTrough_later
    | with_reducible apply Device.spend_later
    | with_reducible apply Device.askPorts_later
    | with_reducible apply Device.Later.ite
    | split
    | (extract_lets -underBinder +onlyGivenNames x; clear_value x)

/-! ### PenUnit -/

theorem Device.penHold_later {a : Device} : ∀ x0 x1 x2 x3, Device.Later a x0 → ∀ e b, @Device.penHold x0 x1 x2 x3 = some (e, b) → Device.Later a e := by
  intro x0 x1 x2 x3 h e b hs
  unfold Device.penHold at hs
  dsimp only at hs
  repeat' split at hs
  all_goals cases hs
  all_goals first | exact h | exact Device.modPens_later _ _ _ h

theorem pissueBody_later {a : Device} : ∀ x0 x1 x2, Device.Later a x2 → Issue.Later a (@pissueBody x0 x1 x2) := by
  intro x0 x1 x2 h0
  unfold pissueBody
  repeat' first
    | with_reducible assumption
    | with_reducible refine Device.penHold_later _ _ _ _ ?_ _ _ (by with_reducible assumption)
    | with_reducible apply Device.modPens_later
    | with_reducible apply Device.spend_later
    | with_reducible apply Device.tookFree_later
    | with_reducible apply Issue.Later.ok
    | with_reducible apply Issue.Later.wait
    | with_reducible apply Issue.Later.fly
    | with_reducible apply Device.illegal_later
    | with_reducible apply Issue.Later.ite
    | split
    | (extract_lets -underBinder +onlyGivenNames x; clear_value x)

theorem penSlotWrite_later {a : Device} : ∀ x0 x1, Device.Later a x1 → Device.Later a (@penSlotWrite x0 x1) := by
  intro x0 x1 h0
  unfold penSlotWrite
  repeat' first
    | with_reducible assumption
    | with_reducible apply Device.modCore_later
    | with_reducible apply Device.modPens_later
    | with_reducible apply Device.trapCore_later
    | (intro (hh : Device.Later _ x); clear_value x)
    | with_reducible apply Device.Later.ite
    | split
    | (extract_lets -underBinder +onlyGivenNames x; with_reducible refine Device.Later.via x ?_ ?_; unfold x)
    | (extract_lets -underBinder +onlyGivenNames x; clear_value x)

theorem pswapBody_later {a : Device} : ∀ x0 x1 x2, Device.Later a x2 → Issue.Later a (@pswapBody x0 x1 x2) := by
  intro x0 x1 x2 h0
  unfold pswapBody
  repeat' first
    | with_reducible assumption
    | with_reducible apply Device.modPens_later
    | with_reducible apply Issue.Later.ok
    | with_reducible apply Issue.Later.wait
    | with_reducible apply Device.illegal_later
    | with_reducible apply Issue.Later.ite

theorem pfoldBody_later {a : Device} : ∀ x0 x1 x2, Device.Later a x2 → Issue.Later a (@pfoldBody x0 x1 x2) := by
  intro x0 x1 x2 h0
  unfold pfoldBody
  repeat' first
    | with_reducible assumption
    | with_reducible apply Device.modPens_later
    | with_reducible apply Issue.Later.ok
    | with_reducible apply Issue.Later.wait
    | with_reducible apply Device.illegal_later
    | with_reducible apply Issue.Later.ite

theorem Device.convLanes_later {a : Device} : ∀ x0 x1 x2 x3, Device.Later a x0 → Device.Later a (@Device.convLanes x0 x1 x2 x3).1 := by
  intro x0 x1 x2 x3 h0
  induction x3 generalizing x0 x1 x2 with
  | nil =>
    unfold Device.convLanes
    repeat' first
      | with_reducible assumption
      | with_reducible apply Device.readBytes_later
      | with_reducible apply ih
      | with_reducible refine Device.Later.of_eq (by with_reducible assumption) ?_
      | split
  | cons b r ih =>
    unfold Device.convLanes
    repeat' first
      | with_reducible assumption
      | with_reducible apply Device.readBytes_later
      | with_reducible apply ih
      | with_reducible refine Device.Later.of_eq (by with_reducible assumption) ?_
      | split

theorem pconvBody_later {a : Device} : ∀ x0 x1 x2, Device.Later a x2 → Issue.Later a (@pconvBody x0 x1 x2) := by
  intro x0 x1 x2 h0
  unfold pconvBody
  repeat' first
    | with_reducible assumption
    | with_reducible apply Device.readYard_later
    | with_reducible apply Device.modPens_later
    | with_reducible apply Issue.Later.bad
    | with_reducible apply Issue.Later.fly
    | with_reducible apply Device.illegal_later
    | with_reducible refine Device.Later.of_eq (by with_reducible assumption) ?_
    | with_reducible apply Issue.Later.ite
    | split

theorem Device.walkFails_later {a : Device} : ∀ x0 x1 x2 x3, Device.Later a x0 → Device.Later a (@Device.walkFails x0 x1 x2 x3) := by
  intro x0 x1 x2 x3 h0
  unfold Device.walkFails
  repeat' first
    | with_reducible assumption
    | with_reducible apply Device.trapCore_later
    | with_reducible apply Device.modPens_later

theorem Device.pWaits_later {a : Device} : ∀ x0 x1 x2, Device.Later a x0 → Device.Later a (@Device.pWaits x0 x1 x2) := by
  intro x0 x1 x2 h0
  unfold Device.pWaits
  repeat' first
    | with_reducible assumption
    | with_reducible apply Device.modCore_later

theorem Device.walkIssue_later {a : Device} : ∀ x0 x1 x2 x3 x4 x5, Device.Later a x0 → Device.Later a (@Device.walkIssue x0 x1 x2 x3 x4 x5) := by
  intro x0 x1 x2 x3 x4 x5 h0
  unfold Device.walkIssue
  repeat' first
    | with_reducible assumption
    | with_reducible apply Device.convLanes_later
    | with_reducible apply Device.askPorts_later
    | with_reducible apply Device.walkFails_later
    | with_reducible apply Device.pWaits_later
    | with_reducible apply Device.spend_later
    | with_reducible apply Device.tookFree_later
    | with_reducible apply Device.modPens_later
    | with_reducible refine Device.Later.of_eq (by with_reducible assumption) ?_
    | split
    | (extract_lets -underBinder +onlyGivenNames x; clear_value x)

theorem Device.walkCycle_later {a : Device} : ∀ x0 x1, Device.Later a x0 → Device.Later a (@Device.walkCycle x0 x1) := by
  intro x0 x1 h0
  unfold Device.walkCycle
  repeat' first
    | with_reducible assumption
    | with_reducible apply Device.pWaits_later
    | with_reducible apply Device.modPens_later
    | with_reducible refine Device.penHold_later _ _ _ _ ?_ _ _ (by with_reducible assumption)
    | with_reducible apply Device.walkIssue_later
    | with_reducible apply Device.Later.ite
    | split

theorem pdrnBody_later {a : Device} : ∀ x0 x1 x2, Device.Later a x2 → Issue.Later a (@pdrnBody x0 x1 x2) := by
  intro x0 x1 x2 h0
  unfold pdrnBody
  repeat' first
    | with_reducible assumption
    | with_reducible apply Device.modSeq_later
    | with_reducible apply Device.modPens_later
    | with_reducible apply Device.tookFree_later
    | with_reducible apply Issue.Later.ok
    | with_reducible apply Issue.Later.wait
    | with_reducible apply Issue.Later.bad
    | with_reducible apply Device.illegal_later
    | with_reducible apply Issue.Later.ite

theorem Device.readTile_later {a : Device} : ∀ x0 x1 x2 x3, Device.Later a x0 → Device.Later a (@Device.readTile x0 x1 x2 x3).1 := by
  intro x0 x1 x2 x3 h0
  induction x3 generalizing x0 x1 x2 with
  | nil =>
    unfold Device.readTile
    repeat' first
      | with_reducible assumption
      | with_reducible apply Device.readYard_later
      | with_reducible apply ih
      | with_reducible refine Device.Later.of_eq (by with_reducible assumption) ?_
      | split
  | cons b r ih =>
    unfold Device.readTile
    repeat' first
      | with_reducible assumption
      | with_reducible apply Device.readYard_later
      | with_reducible apply ih
      | with_reducible refine Device.Later.of_eq (by with_reducible assumption) ?_
      | split

theorem pldwBody_later {a : Device} : ∀ x0 x1 x2, Device.Later a x2 → Issue.Later a (@pldwBody x0 x1 x2) := by
  intro x0 x1 x2 h0
  unfold pldwBody
  repeat' first
    | with_reducible assumption
    | with_reducible apply Device.readTile_later
    | with_reducible apply Device.modPens_later
    | with_reducible apply Issue.Later.ok
    | with_reducible apply Issue.Later.wait
    | with_reducible apply Issue.Later.trap
    | with_reducible apply Issue.Later.bad
    | with_reducible apply Issue.Later.fly
    | with_reducible apply Device.illegal_later
    | with_reducible refine Device.Later.of_eq (by with_reducible assumption) ?_
    | with_reducible apply Issue.Later.ite
    | split

theorem pldwComplete_later {a : Device} : ∀ x0 x1, Device.Later a x1 → Device.Later a (@pldwComplete x0 x1) := by
  intro x0 x1 h0
  unfold pldwComplete
  repeat' first
    | with_reducible assumption
    | with_reducible apply Device.modCore_later
    | split

theorem pskarmBody_later {a : Device} : ∀ x0 x1 x2, Device.Later a x2 → Issue.Later a (@pskarmBody x0 x1 x2) := by
  intro x0 x1 x2 h0
  unfold pskarmBody
  repeat' first
    | with_reducible assumption
    | with_reducible apply Device.modPens_later
    | with_reducible apply Issue.Later.ok
    | with_reducible apply Issue.Later.wait
    | with_reducible apply Device.illegal_later
    | with_reducible apply Issue.Later.ite

theorem Device.setSkid_later {a : Device} : ∀ x0 x1 x2, Device.Later a x0 → Device.Later a (@Device.setSkid x0 x1 x2) := by
  intro x0 x1 x2 h0
  unfold Device.setSkid
  repeat' first
    | with_reducible assumption
    | fail_if_no_progress with_reducible refine Device.Later.upd ?_ rfl rfl rfl

theorem Device.skidForward_later {a : Device} : ∀ x0 x1 x2, Device.Later a x0 → Device.Later a (@Device.skidForward x0 x1 x2) := by
  intro x0 x1 x2 h0
  unfold Device.skidForward
  repeat' first
    | with_reducible assumption
    | with_reducible apply Device.setSkid_later
    | with_reducible apply Device.Later.ite

theorem Device.takeMarker_later {a : Device} : ∀ x0 x1 x2 x3 x4 x5, Device.Later a x0 → Device.Later a (@Device.takeMarker x0 x1 x2 x3 x4 x5) := by
  intro x0 x1 x2 x3 x4 x5 h0
  unfold Device.takeMarker
  repeat' first
    | with_reducible assumption
    | with_reducible apply Device.modPens_later
    | with_reducible apply Device.tookFree_later
    | with_reducible apply Device.haltChannel_later
    | with_reducible apply Device.trapCore_later
    | with_reducible apply Device.skidForward_later
    | with_reducible apply Device.Later.ite

theorem Device.takeBeat_later {a : Device} : ∀ x0 x1 x2, Device.Later a x0 → Device.Later a (@Device.takeBeat x0 x1 x2) := by
  intro x0 x1 x2 h0
  unfold Device.takeBeat
  repeat' first
    | with_reducible assumption
    | with_reducible apply Device.modPens_later
    | with_reducible apply Device.skidForward_later
    | with_reducible apply Device.Later.ite
    | split

theorem Device.skidMarker_later {a : Device} : ∀ x0 x1, Device.Later a x1 → Device.Later a (@Device.skidMarker x0 x1) := by
  intro x0 x1 h0
  unfold Device.skidMarker
  repeat' first
    | with_reducible assumption
    | with_reducible apply Device.takeMarker_later
    | with_reducible apply Device.modPens_later
    | with_reducible apply Device.setSkid_later
    | with_reducible apply Device.Later.ite
    | split

theorem Device.skidBeat_later {a : Device} : ∀ x0 x1, Device.Later a x1 → Device.Later a (@Device.skidBeat x0 x1) := by
  intro x0 x1 h0
  unfold Device.skidBeat
  repeat' first
    | with_reducible assumption
    | with_reducible apply Device.takeBeat_later
    | with_reducible apply Device.modPens_later
    | with_reducible apply Device.setSkid_later
    | with_reducible apply Device.Later.ite
    | split

/-! ### XltOps -/

theorem Device.writePriv_later {a : Device} : ∀ x0 x1 x2 x3, Device.Later a x0 → SumLater a (@Device.writePriv x0 x1 x2 x3) := by
  intro x0 x1 x2 x3 h
  unfold Device.writePriv
  dsimp only
  split
  · exact .inr
  · exact .inl (Device.Later.foldl (fun x q hx => Device.modChan_later _ _ hx fun k hk => Table.wf_set _ _ hk) h)

theorem Device.privFail_later {a : Device} : ∀ x0 x1 x2 x3 x4, Device.Later a x0 → Device.Later a (@Device.privFail x0 x1 x2 x3 x4) := by
  intro x0 x1 x2 x3 x4 h0
  unfold Device.privFail
  repeat' first
    | with_reducible assumption
    | with_reducible apply Device.modChan_later
    | with_reducible apply Device.postDev_later
    | intro _

theorem Device.askFrame_later {a : Device} : ∀ x0 x1 x2 x3, Device.Later a x0 → Device.Later a (@Device.askFrame x0 x1 x2 x3) := by
  intro x0 x1 x2 x3 h0
  unfold Device.askFrame
  repeat' first
    | with_reducible assumption
    | with_reducible apply Device.setPiece_later
    | fail_if_no_progress with_reducible refine Device.Later.upd ?_ rfl rfl rfl

theorem Device.frameSlot_later {a : Device} : ∀ x0 x1, Device.Later a x0 → Device.Later a (@Device.frameSlot x0 x1) := by
  intro x0 x1 h0
  unfold Device.frameSlot
  repeat' first
    | with_reducible assumption
    | with_reducible apply Device.setPiece_later
    | with_reducible apply Device.Later.foldl
    | intro _
    | split

theorem Device.framed_later {a : Device} : ∀ x0 x1, Device.Later a x0 → Device.Later a (@Device.framed x0 x1) := by
  intro x0 x1 h0
  unfold Device.framed
  repeat' first
    | with_reducible assumption
    | with_reducible apply Device.frameSlot_later
    | with_reducible apply Device.Later.foldl
    | with_reducible apply Device.Later.ite

theorem Device.modXlt_later {a : Device} : ∀ x0 x1, Device.Later a x0 → Device.Later a (@Device.modXlt x0 x1) := by
  intro x0 x1 h0
  unfold Device.modXlt
  repeat' first
    | with_reducible assumption
    | fail_if_no_progress with_reducible refine Device.Later.upd ?_ rfl rfl rfl

theorem Device.lookup_later {a : Device} : ∀ x0 x1 x2 x3, Device.Later a x0 → Device.Later a (@Device.lookup x0 x1 x2 x3).1 := by
  intro x0 x1 x2 x3 h0
  unfold Device.lookup
  repeat' first
    | with_reducible assumption
    | with_reducible apply Device.modXlt_later
    | split

theorem Device.fillPage_later {a : Device} : ∀ x0 x1 x2 x3 x4 x5 x6 x7 x8, Device.Later a x0 → Device.Later a (@Device.fillPage x0 x1 x2 x3 x4 x5 x6 x7 x8) := by
  intro x0 x1 x2 x3 x4 x5 x6 x7 x8 h0
  unfold Device.fillPage
  repeat' first
    | with_reducible assumption
    | with_reducible apply Device.modXlt_later

theorem Device.holdRange_later {a : Device} : ∀ x0 x1 x2 x3 x4 x5, Device.Later a x0 → Device.Later a (@Device.holdRange x0 x1 x2 x3 x4 x5) := by
  intro x0 x1 x2 x3 x4 x5 h0
  unfold Device.holdRange
  repeat' first
    | with_reducible assumption
    | with_reducible apply Device.modXlt_later

theorem Device.dropHolds_later {a : Device} : ∀ x0 x1 x2, Device.Later a x0 → Device.Later a (@Device.dropHolds x0 x1 x2) := by
  intro x0 x1 x2 h0
  unfold Device.dropHolds
  repeat' first
    | with_reducible assumption
    | with_reducible apply Device.modXlt_later

theorem Device.xltFault_later {a : Device} : ∀ x0 x1 x2 x3 x4, Device.Later a x0 → Device.Later a (@Device.xltFault x0 x1 x2 x3 x4) := by
  intro x0 x1 x2 x3 x4 h0
  unfold Device.xltFault
  repeat' first
    | with_reducible assumption
    | with_reducible apply Device.modXlt_later

theorem Device.setWalker_later {a : Device} : ∀ x0 x1 x2, Device.Later a x0 → Device.Later a (@Device.setWalker x0 x1 x2) := by
  intro x0 x1 x2 h0
  unfold Device.setWalker
  repeat' first
    | with_reducible assumption
    | with_reducible apply Device.modXlt_later

theorem Device.takeMiss_later {a : Device} : ∀ x0 x1 x2 x3 x4, Device.Later a x0 → Device.Later a (@Device.takeMiss x0 x1 x2 x3 x4) := by
  intro x0 x1 x2 x3 x4 h0
  unfold Device.takeMiss
  repeat' first
    | with_reducible assumption
    | with_reducible apply Device.setWalker_later
    | with_reducible apply Device.modXlt_later
    | with_reducible apply Device.emit_later
    | split

theorem Device.notify_later {a : Device} : ∀ x0 x1, Device.Later a x0 → Device.Later a (@Device.notify x0 x1) := by
  intro x0 x1 h0
  unfold Device.notify
  repeat' first
    | with_reducible assumption
    | with_reducible apply Device.modXlt_later

/-! ### PieceOps -/

theorem Device.chainBytes_later {a : Device} : ∀ x0 x1 x2 x3, Device.Later a x0 → Device.Later a (@Device.chainBytes x0 x1 x2 x3) := by
  intro x0 x1 x2 x3 h0
  unfold Device.chainBytes
  repeat' first
    | with_reducible assumption
    | with_reducible apply Device.modChannel_later
    | with_reducible apply Device.setSkid_later

theorem Device.finishPiece_later {a : Device} : ∀ x0 x1 x2, Device.Later a x0 → Device.Later a (@Device.finishPiece x0 x1 x2) := by
  intro x0 x1 x2 h0
  unfold Device.finishPiece
  repeat' first
    | with_reducible assumption
    | with_reducible apply Device.dropPiece_later
    | with_reducible apply Device.modChannel_later
    | with_reducible apply Device.modStall_later
    | split

theorem Device.sendOn_later {a : Device} : ∀ x0 x1, Device.Later a x0 → Device.Later a (@Device.sendOn x0 x1) := by
  intro x0 x1 h0
  unfold Device.sendOn
  repeat' first
    | with_reducible assumption
    | with_reducible apply Device.failPiece_later
    | with_reducible apply Device.setPiece_later
    | with_reducible apply Device.askFrame_later
    | with_reducible apply Device.emit_later
    | with_reducible apply Device.sendPiece_later
    | with_reducible apply Device.finishPiece_later
    | with_reducible apply Device.chainBytes_later
    | with_reducible apply Device.Later.foldl
    | fail_if_no_progress with_reducible refine Device.Later.upd ?_ rfl rfl rfl
    | with_reducible apply Device.Later.ite
    | split

theorem Device.pump_later {a : Device} : ∀ x0 x1, Device.Later a x0 → Device.Later a (@Device.pump x0 x1) := by
  intro x0 x1 h0
  unfold Device.pump
  repeat' first
    | with_reducible assumption
    | with_reducible apply Device.sendOn_later
    | with_reducible apply Device.Later.foldl

theorem Device.pumpAll_later {a : Device} : ∀ x0, Device.Later a x0 → Device.Later a (@Device.pumpAll x0) := by
  intro x0 h0
  unfold Device.pumpAll
  repeat' first
    | with_reducible assumption
    | with_reducible apply Device.sendOn_later
    | with_reducible apply Device.Later.foldl

theorem Device.gotData_later {a : Device} : ∀ x0 x1 x2 x3, Device.Later a x0 → Device.Later a (@Device.gotData x0 x1 x2 x3) := by
  intro x0 x1 x2 x3 h0
  unfold Device.gotData
  repeat' first
    | with_reducible assumption
    | with_reducible apply Device.dropPiece_later
    | with_reducible apply Device.pump_later
    | with_reducible apply Device.setPiece_later
    | with_reducible apply Device.Later.ite

theorem Device.fetches_later {a : Device} : ∀ x0 x1, Device.Later a x0 → Device.Later a (@Device.fetches x0 x1) := by
  intro x0 x1 h0
  unfold Device.fetches
  repeat' first
    | with_reducible assumption
    | with_reducible apply Device.modChannel_later
    | split

theorem Device.beginRead_later {a : Device} : ∀ x0 x1 x2, Device.Later a x0 → Device.Later a (@Device.beginRead x0 x1 x2) := by
  intro x0 x1 x2 h0
  unfold Device.beginRead
  repeat' first
    | with_reducible assumption
    | with_reducible apply Device.failPiece_later
    | with_reducible apply Device.audit_later
    | with_reducible apply Device.readYard_later
    | with_reducible apply Device.fetches_later
    | with_reducible apply Device.gotData_later
    | with_reducible apply Device.askFrame_later
    | with_reducible apply Device.emit_later
    | with_reducible apply Device.setPiece_later
    | with_reducible apply Device.sendPiece_later
    | with_reducible refine Device.Later.of_eq (by with_reducible assumption) ?_
    | (intro (hh : Device.Later _ x); clear_value x)
    | with_reducible apply Device.Later.ite
    | split
    | (extract_lets -underBinder +onlyGivenNames x; with_reducible refine Device.Later.via x ?_ ?_; unfold x)

theorem Device.resolve_later {a : Device} : ∀ x0 x1 x2, Device.Later a x0 → Device.Later a (@Device.resolve x0 x1 x2) := by
  intro x0 x1 x2 h0
  induction x2 generalizing x0 x1 with
  | zero =>
    unfold Device.resolve
    repeat' first
      | with_reducible assumption
      | with_reducible apply Device.pump_later
      | with_reducible apply Device.setPiece_later
      | with_reducible apply Device.beginRead_later
      | with_reducible apply Device.lookup_later
      | with_reducible apply Device.failPiece_later
      | with_reducible apply Device.xltFault_later
      | with_reducible apply Device.takeMiss_later
      | with_reducible apply ih
      | with_reducible refine Device.Later.of_eq (by with_reducible assumption) ?_
      | with_reducible apply Device.Later.ite
      | split
  | succ n ih =>
    unfold Device.resolve
    repeat' first
      | with_reducible assumption
      | with_reducible apply Device.pump_later
      | with_reducible apply Device.setPiece_later
      | with_reducible apply Device.beginRead_later
      | with_reducible apply Device.lookup_later
      | with_reducible apply Device.failPiece_later
      | with_reducible apply Device.xltFault_later
      | with_reducible apply Device.takeMiss_later
      | with_reducible apply ih
      | with_reducible refine Device.Later.of_eq (by with_reducible assumption) ?_
      | with_reducible apply Device.Later.ite
      | split

theorem Device.startPiece_later {a : Device} : ∀ x0 x1, Device.Later a x0 → Device.Later a (@Device.startPiece x0 x1) := by
  intro x0 x1 h0
  unfold Device.startPiece
  repeat' first
    | with_reducible assumption
    | with_reducible apply Device.resolve_later
    | with_reducible apply Device.setPiece_later
    | fail_if_no_progress with_reducible refine Device.Later.upd ?_ rfl rfl rfl

theorem Device.advanceCopy_later {a : Device} : ∀ x0 x1 x2, Device.Later a x0 → Device.Later a (@Device.advanceCopy x0 x1 x2) := by
  intro x0 x1 x2 h0
  unfold Device.advanceCopy
  repeat' first
    | with_reducible assumption
    | with_reducible apply Device.finishCmd_later
    | with_reducible apply Device.modCmd_later
    | with_reducible apply Device.startPiece_later
    | with_reducible apply Device.Later.ite
    | split

theorem Device.complete_later {a : Device} : ∀ x0 x1, Device.Later a x0 → Device.Later a (@Device.complete x0 x1) := by
  intro x0 x1 h0
  unfold Device.complete
  repeat' first
    | with_reducible assumption
    | with_reducible apply Device.pumpAll_later
    | with_reducible apply Device.finishPiece_later
    | with_reducible apply Device.advanceCopy_later
    | split

theorem Device.windowCheck_later {a : Device} : ∀ x0 x1, Device.Later a x1 → Device.Later a (@Device.windowCheck x0 x1) := by
  intro x0 x1 h0
  unfold Device.windowCheck
  repeat' first
    | with_reducible assumption
    | with_reducible apply Device.dropPiece_later
    | with_reducible apply Device.failPiece_later
    | with_reducible apply Device.readYard_later
    | with_reducible apply Device.gotData_later
    | with_reducible apply Device.pump_later
    | with_reducible apply Device.setPiece_later
    | with_reducible apply Device.winFlight_later
    | with_reducible refine Device.Later.of_eq (by with_reducible assumption) ?_
    | with_reducible apply Device.Later.ite
    | split
    | (extract_lets -underBinder +onlyGivenNames x; clear_value x)

theorem Device.landPiece_later {a : Device} : ∀ x0 x1, Device.Later a x1 → Device.Later a (@Device.landPiece x0 x1) := by
  intro x0 x1 h0
  unfold Device.landPiece
  repeat' first
    | with_reducible assumption
    | with_reducible apply Device.audit_later
    | with_reducible apply Device.complete_later
    | with_reducible apply Device.landBytes_later
    | with_reducible apply Device.Later.ite
    | split

theorem Device.closeDone_later {a : Device} : ∀ x0 x1 x2, Device.Later a x2 → Device.Later a (@Device.closeDone x0 x1 x2) := by
  intro x0 x1 x2 h0
  unfold Device.closeDone
  repeat' first
    | with_reducible assumption
    | with_reducible apply Device.winFree_later
    | with_reducible apply Device.drainAll_later
    | with_reducible apply Device.setChannel_later
    | with_reducible apply Device.finishCmd_later
    | with_reducible apply Device.Later.foldl
    | intro _
    | with_reducible apply Device.Later.ite
    | split

end Sys2Proof.Machine
end

