-- ==== Sys2Proof/Laws/LaterEngines.lean ====
section
/-! SUPPORT. The relation `Device.Later`, one lemma per operation: engines, host, Drover, Tally, Yard, resets. -/

set_option linter.unusedTactic false
set_option linter.unreachableTactic false

namespace Sys2Proof.Machine

/-! ### HaulUnit -/

theorem haulBody_later {a : Device} : ∀ x0 x1 x2, Device.Later a x2 → Issue.Later a (@haulBody x0 x1 x2) := by
  intro x0 x1 x2 h0
  unfold haulBody
  repeat' first
    | with_reducible assumption
    | with_reducible apply Device.readYard_later
    | with_reducible apply Device.modChannel_later
    | with_reducible apply Issue.Later.ok
    | with_reducible apply Issue.Later.wait
    | with_reducible apply Issue.Later.bad
    | with_reducible apply Device.illegal_later
    | with_reducible refine Device.Later.of_eq (by with_reducible assumption) ?_
    | with_reducible apply Issue.Later.ite
    | split
    | (extract_lets -underBinder +onlyGivenNames x; clear_value x)

theorem Device.haulStep_later {a : Device} : ∀ x0 x1 x2 x3 x4, (∀ y0 y1 y2, Device.Later a y2 → Device.Later a (x3 y0 y1 y2)) → Device.Later a x4 → Device.Later a (@Device.haulStep x0 x1 x2 x3 x4) := by
  intro x0 x1 x2 x3 x4 h0 h1
  unfold Device.haulStep
  repeat' first
    | with_reducible assumption
    | with_reducible apply h0
    | with_reducible apply Device.Later.ite

theorem Device.haulNext_later {a : Device} : ∀ x0 x1 x2 x3, Device.Later a x0 → Device.Later a (@Device.haulNext x0 x1 x2 x3) := by
  intro x0 x1 x2 x3 h0
  unfold Device.haulNext
  repeat' first
    | with_reducible assumption
    | with_reducible apply Device.setChannel_later

theorem Device.haulWait_later {a : Device} : ∀ x0 x1 x2 x3, Device.Later a x0 → Device.Later a (@Device.haulWait x0 x1 x2 x3) := by
  intro x0 x1 x2 x3 h0
  unfold Device.haulWait
  repeat' first
    | with_reducible assumption
    | with_reducible apply Device.modChannel_later

theorem Device.haulBaseOp_later {a : Device} : ∀ x0 x1 x2 x3 x4, Device.Later a x4 → Device.Later a (@Device.haulBaseOp x0 x1 x2 x3 x4) := by
  intro x0 x1 x2 x3 x4 h0
  unfold Device.haulBaseOp
  repeat' first
    | with_reducible assumption
    | with_reducible apply Device.haulNext_later

theorem Device.haulStrideOp_later {a : Device} : ∀ x0 x1 x2 x3 x4, Device.Later a x4 → Device.Later a (@Device.haulStrideOp x0 x1 x2 x3 x4) := by
  intro x0 x1 x2 x3 x4 h0
  unfold Device.haulStrideOp
  repeat' first
    | with_reducible assumption
    | with_reducible apply Device.haulNext_later

theorem Device.haulLoopOp_later {a : Device} : ∀ x0 x1 x2 x3 x4, Device.Later a x4 → Device.Later a (@Device.haulLoopOp x0 x1 x2 x3 x4) := by
  intro x0 x1 x2 x3 x4 h0
  unfold Device.haulLoopOp
  repeat' first
    | with_reducible assumption
    | with_reducible apply Device.haulNext_later
    | with_reducible apply Device.Later.ite

theorem Device.haulMoveOp_later {a : Device} : ∀ x0 x1 x2 x3 x4, Device.Later a x4 → Device.Later a (@Device.haulMoveOp x0 x1 x2 x3 x4) := by
  intro x0 x1 x2 x3 x4 h0
  unfold Device.haulMoveOp
  repeat' first
    | with_reducible assumption
    | with_reducible apply Device.haulNext_later
    | with_reducible apply Device.Later.ite
    | split

theorem Device.issuePiece_later {a : Device} : ∀ x0 x1 x2, Device.Later a x2 → Device.Later a (@Device.issuePiece x0 x1 x2) := by
  intro x0 x1 x2 h0
  unfold Device.issuePiece
  repeat' first
    | with_reducible assumption
    | with_reducible apply Device.haulWait_later
    | with_reducible apply Device.haltChannel_later
    | with_reducible apply Device.modBinding_later
    | with_reducible apply Device.setChannel_later
    | with_reducible apply Device.startPiece_later
    | with_reducible apply Device.Later.ite
    | split
    | (extract_lets -underBinder +onlyGivenNames x; clear_value x)

theorem Device.chuteHalt_later {a : Device} : ∀ x0 x1 x2, Device.Later a x0 → Device.Later a (@Device.chuteHalt x0 x1 x2) := by
  intro x0 x1 x2 h0
  unfold Device.chuteHalt
  repeat' first
    | with_reducible assumption
    | with_reducible apply Device.haltChannel_later

theorem Device.haulTringOp_later {a : Device} : ∀ x0 x1 x2 x3 x4, Device.Later a x4 → Device.Later a (@Device.haulTringOp x0 x1 x2 x3 x4) := by
  intro x0 x1 x2 x3 x4 h0
  unfold Device.haulTringOp
  repeat' first
    | with_reducible assumption
    | with_reducible apply Device.chuteHalt_later
    | with_reducible apply Device.setChute_later
    | with_reducible apply Device.haulNext_later
    | with_reducible apply Device.Later.ite
    | split
    | (extract_lets -underBinder +onlyGivenNames x; clear_value x)

theorem Device.haulTnextOp_later {a : Device} : ∀ x0 x1 x2 x3 x4, Device.Later a x4 → Device.Later a (@Device.haulTnextOp x0 x1 x2 x3 x4) := by
  intro x0 x1 x2 x3 x4 h0
  unfold Device.haulTnextOp
  repeat' first
    | with_reducible assumption
    | with_reducible apply Device.chuteHalt_later
    | with_reducible apply Device.haulWait_later
    | with_reducible apply Device.haulNext_later
    | with_reducible apply Device.Later.ite
    | split

theorem Device.landed_later {a : Device} : ∀ x0 x1 x2, Device.Later a x0 → Device.Later a (@Device.landed x0 x1 x2).1 := by
  intro x0 x1 x2 h0
  unfold Device.landed
  repeat' first
    | with_reducible assumption
    | with_reducible apply Device.drainChannel_later
    | split

theorem Device.haulTputOp_later {a : Device} : ∀ x0 x1 x2 x3 x4, Device.Later a x4 → Device.Later a (@Device.haulTputOp x0 x1 x2 x3 x4) := by
  intro x0 x1 x2 x3 x4 h0
  unfold Device.haulTputOp
  repeat' first
    | with_reducible assumption
    | with_reducible apply Device.chuteHalt_later
    | with_reducible apply Device.landed_later
    | with_reducible apply Device.push_later
    | with_reducible apply Device.haulWait_later
    | with_reducible apply Device.haulNext_later
    | with_reducible refine Device.Later.of_eq (by with_reducible assumption) ?_
    | with_reducible apply Device.Later.ite
    | split

theorem Device.creditReturn_later {a : Device} : ∀ x0 x1 x2, Device.Later a x2 → Device.Later a (@Device.creditReturn x0 x1 x2) := by
  intro x0 x1 x2 h0
  unfold Device.creditReturn
  repeat' first
    | with_reducible assumption
    | with_reducible refine Device.popChute_later _ _ _ ?_ _ _ (by with_reducible assumption)
    | with_reducible apply Device.modChannel_later
    | with_reducible apply Device.chuteHalt_later
    | with_reducible apply Device.Later.ite
    | split
    | (extract_lets -underBinder +onlyGivenNames x; clear_value x)

theorem Device.haulHpopOp_later {a : Device} : ∀ x0 x1 x2 x3 x4, Device.Later a x4 → Device.Later a (@Device.haulHpopOp x0 x1 x2 x3 x4) := by
  intro x0 x1 x2 x3 x4 h0
  unfold Device.haulHpopOp
  repeat' first
    | with_reducible assumption
    | with_reducible apply Device.chuteHalt_later
    | with_reducible refine Device.popChute_later _ _ _ ?_ _ _ (by with_reducible assumption)
    | with_reducible apply Device.haulWait_later
    | with_reducible apply Device.haulNext_later
    | with_reducible apply Device.holdHandle_later
    | with_reducible apply Device.Later.ite
    | split

theorem Device.haulHpushOp_later {a : Device} : ∀ x0 x1 x2 x3 x4, Device.Later a x4 → Device.Later a (@Device.haulHpushOp x0 x1 x2 x3 x4) := by
  intro x0 x1 x2 x3 x4 h0
  unfold Device.haulHpushOp
  repeat' first
    | with_reducible assumption
    | with_reducible apply Device.chuteHalt_later
    | with_reducible apply Device.landed_later
    | with_reducible apply Device.push_later
    | with_reducible apply Device.haulWait_later
    | with_reducible apply Device.haulNext_later
    | with_reducible apply Device.giveHandle_later
    | with_reducible refine Device.Later.of_eq (by with_reducible assumption) ?_
    | with_reducible apply Device.Later.ite
    | split

theorem Device.haulHbaseOp_later {a : Device} : ∀ x0 x1 x2 x3 x4, Device.Later a x4 → Device.Later a (@Device.haulHbaseOp x0 x1 x2 x3 x4) := by
  intro x0 x1 x2 x3 x4 h0
  unfold Device.haulHbaseOp
  repeat' first
    | with_reducible assumption
    | with_reducible apply Device.haulNext_later

theorem Device.haulWopenOp_later {a : Device} : ∀ x0 x1 x2 x3 x4, Device.Later a x4 → Device.Later a (@Device.haulWopenOp x0 x1 x2 x3 x4) := by
  intro x0 x1 x2 x3 x4 h0
  unfold Device.haulWopenOp
  repeat' first
    | with_reducible assumption
    | with_reducible apply Device.haltChannel_later
    | with_reducible apply Device.winOpen_later
    | with_reducible apply Device.haulNext_later
    | split
    | (extract_lets -underBinder +onlyGivenNames x; clear_value x)

theorem Device.haulWcloseOp_later {a : Device} : ∀ x0 x1 x2 x3 x4, Device.Later a x4 → Device.Later a (@Device.haulWcloseOp x0 x1 x2 x3 x4) := by
  intro x0 x1 x2 x3 x4 h0
  unfold Device.haulWcloseOp
  repeat' first
    | with_reducible assumption
    | with_reducible apply Device.haltChannel_later
    | with_reducible apply Device.setChannel_later
    | with_reducible apply Device.winClose_later
    | with_reducible apply Device.Later.ite

theorem Device.haulSkidmarkOp_later {a : Device} : ∀ x0 x1 x2 x3 x4, Device.Later a x4 → Device.Later a (@Device.haulSkidmarkOp x0 x1 x2 x3 x4) := by
  intro x0 x1 x2 x3 x4 h0
  unfold Device.haulSkidmarkOp
  repeat' first
    | with_reducible assumption
    | with_reducible apply Device.haulNext_later
    | with_reducible apply Device.setSkid_later
    | with_reducible apply Device.Later.ite

theorem Device.haulTwaitOp_later {a : Device} : ∀ x0 x1 x2 x3 x4, Device.Later a x4 → Device.Later a (@Device.haulTwaitOp x0 x1 x2 x3 x4) := by
  intro x0 x1 x2 x3 x4 h0
  unfold Device.haulTwaitOp
  repeat' first
    | with_reducible assumption
    | with_reducible apply Device.haulNext_later
    | with_reducible apply Device.haulWait_later
    | with_reducible apply Device.Later.ite

theorem Device.haulTwaitReached_later {a : Device} : ∀ x0 x1 x2 x3 x4, Device.Later a x4 → Device.Later a (@Device.haulTwaitReached x0 x1 x2 x3 x4) := by
  intro x0 x1 x2 x3 x4 h0
  unfold Device.haulTwaitReached
  repeat' first
    | with_reducible assumption
    | with_reducible apply Device.haulNext_later
    | with_reducible apply Device.Later.ite

theorem Device.haulEndOp_later {a : Device} : ∀ x0 x1 x2 x3 x4, Device.Later a x4 → Device.Later a (@Device.haulEndOp x0 x1 x2 x3 x4) := by
  intro x0 x1 x2 x3 x4 h0
  unfold Device.haulEndOp
  repeat' first
    | with_reducible assumption
    | with_reducible apply Device.traceRec_later
    | with_reducible apply Device.setChannel_later
    | with_reducible apply Device.unbind_later

theorem Device.channelIdle_later {a : Device} : ∀ x0 x1 x2, Device.Later a x2 → Device.Later a (@Device.channelIdle x0 x1 x2) := by
  intro x0 x1 x2 h0
  unfold Device.channelIdle
  repeat' first
    | with_reducible assumption
    | with_reducible apply Device.setChannel_later
    | with_reducible apply Device.Later.ite

/-! ### StepOps -/

theorem Device.settleSeqs_later {a : Device} : ∀ x0 x1, Device.Later a x0 → Device.Later a (@Device.settleSeqs x0 x1) := by
  intro x0 x1 h0
  unfold Device.settleSeqs
  repeat' first
    | with_reducible assumption
    | with_reducible apply Device.setSeq_later
    | with_reducible apply Device.seqIdle_later
    | with_reducible apply Device.leaveDone_later
    | with_reducible apply Device.Later.tfoldl
    | intro _
    | with_reducible apply Device.Later.ite

theorem Device.closeBatch_later {a : Device} : ∀ x0 x1 x2, Device.Later a x0 → Device.Later a (@Device.closeBatch x0 x1 x2) := by
  intro x0 x1 x2 h0
  unfold Device.closeBatch
  repeat' first
    | with_reducible assumption
    | with_reducible apply Device.settleSeqs_later
    | with_reducible apply Device.setSeq_later
    | with_reducible apply Device.modPdk_later
    | with_reducible apply Device.Later.foldl
    | intro _
    | with_reducible apply Device.Later.ite

theorem Device.endStep_later {a : Device} : ∀ x0 x1, Device.Later a x0 → Device.Later a (@Device.endStep x0 x1) := by
  intro x0 x1 h0
  unfold Device.endStep
  repeat' first
    | with_reducible assumption
    | with_reducible apply Device.modPdk_later
    | with_reducible apply Device.chargeStep_later
    | with_reducible apply Device.signalFence_later
    | with_reducible apply Device.postQueue_later
    | with_reducible apply Device.Later.foldl
    | intro _
    | with_reducible apply Device.Later.ite
    | split
    | (extract_lets -underBinder +onlyGivenNames x; clear_value x)

theorem Device.stepArrive_later {a : Device} : ∀ x0 x1, Device.Later a x0 → Device.Later a (@Device.stepArrive x0 x1) := by
  intro x0 x1 h0
  unfold Device.stepArrive
  repeat' first
    | with_reducible assumption
    | with_reducible apply Device.endStep_later
    | with_reducible apply Device.closeBatch_later
    | with_reducible apply Device.modPdk_later
    | with_reducible apply Device.Later.ite
    | split

theorem Device.releaseStep_later {a : Device} : ∀ x0 x1, Device.Later a x0 → Device.Later a (@Device.releaseStep x0 x1) := by
  intro x0 x1 h0
  unfold Device.releaseStep
  repeat' first
    | with_reducible assumption
    | with_reducible apply Device.writeYard_later
    | with_reducible apply Device.modPdk_later
    | with_reducible apply Device.progress_later
    | with_reducible apply Device.releaseCores_later
    | with_reducible apply Device.Later.foldl
    | intro _
    | with_reducible apply Device.Later.ite
    | split

/-! ### XltUnit -/

theorem Device.privError_later {a : Device} : ∀ x0 x1 x2 x3 x4 x5, Device.Later a x0 → Device.Later a (@Device.privError x0 x1 x2 x3 x4 x5) := by
  intro x0 x1 x2 x3 x4 x5 h0
  unfold Device.privError
  repeat' first
    | with_reducible assumption
    | with_reducible apply Device.failPiece_later
    | with_reducible apply Device.privFail_later

theorem Device.privCorrected_later {a : Device} : ∀ x0 x1 x2, Device.Later a x0 → Device.Later a (@Device.privCorrected x0 x1 x2) := by
  intro x0 x1 x2 h0
  unfold Device.privCorrected
  repeat' first
    | with_reducible assumption
    | with_reducible apply Device.modChan_later
    | intro _

theorem Device.privChecked_later {a : Device} : ∀ x0 x1 x2 x3 x4 x5 x6, Device.Later a x0 → (∀ y0, Device.Later a y0 → Device.Later a (x6 y0)) → Device.Later a (@Device.privChecked x0 x1 x2 x3 x4 x5 x6) := by
  intro x0 x1 x2 x3 x4 x5 x6 h0 h1
  unfold Device.privChecked
  repeat' first
    | with_reducible assumption
    | with_reducible apply Device.privCorrected_later
    | with_reducible apply Device.tookFree_later
    | with_reducible apply Device.privError_later
    | with_reducible apply h1
    | split

theorem Device.privRead_later {a : Device} : ∀ x0 x1 x2, Device.Later a x2 → Device.Later a (@Device.privRead x0 x1 x2) := by
  intro x0 x1 x2 h0
  unfold Device.privRead
  repeat' first
    | with_reducible assumption
    | with_reducible apply Device.privChecked_later
    | with_reducible apply Device.gotData_later
    | with_reducible apply Device.privError_later
    | intro _
    | with_reducible apply Device.Later.ite
    | split

theorem Device.privWritten_later {a : Device} : ∀ x0 x1, Device.Later a x1 → Device.Later a (@Device.privWritten x0 x1) := by
  intro x0 x1 h0
  unfold Device.privWritten
  repeat' first
    | with_reducible assumption
    | with_reducible apply Device.writePriv_later
    | with_reducible apply Device.privError_later
    | with_reducible apply Device.complete_later
    | with_reducible refine SumLater.of_inl (by with_reducible assumption) ?_
    | with_reducible apply Device.Later.ite
    | split

theorem Device.segZeroed_later {a : Device} : ∀ x0 x1 x2, Device.Later a x2 → Device.Later a (@Device.segZeroed x0 x1 x2) := by
  intro x0 x1 x2 h0
  unfold Device.segZeroed
  repeat' first
    | with_reducible assumption
    | with_reducible apply Device.modChan_later
    | with_reducible apply Device.setObj_later
    | with_reducible apply Device.finishCmd_later
    | with_reducible exact Table.wf_set _ _ (by with_reducible assumption)
    | with_reducible apply Device.Later.foldl
    | intro _
    | split

theorem Device.hostData_later {a : Device} : ∀ x0 x1 x2, Device.Later a x2 → Device.Later a (@Device.hostData x0 x1 x2) := by
  intro x0 x1 x2 h0
  unfold Device.hostData
  repeat' first
    | with_reducible assumption
    | with_reducible apply Device.gotData_later
    | with_reducible apply Device.Later.ite
    | split

theorem Device.hostGo_later {a : Device} : ∀ x0 x1, Device.Later a x1 → Device.Later a (@Device.hostGo x0 x1) := by
  intro x0 x1 h0
  unfold Device.hostGo
  repeat' first
    | with_reducible assumption
    | with_reducible apply Device.complete_later
    | with_reducible apply Device.Later.ite
    | split

theorem Device.feedMiss_later {a : Device} : ∀ x0 x1, Device.Later a x0 → Device.Later a (@Device.feedMiss x0 x1) := by
  intro x0 x1 h0
  unfold Device.feedMiss
  repeat' first
    | with_reducible assumption
    | with_reducible apply Device.takeMiss_later
    | split

theorem Device.feedWalkers_later {a : Device} : ∀ x0, Device.Later a x0 → Device.Later a (@Device.feedWalkers x0) := by
  intro x0 h0
  unfold Device.feedWalkers
  repeat' first
    | with_reducible assumption
    | with_reducible apply Device.feedMiss_later
    | with_reducible apply Device.modXlt_later
    | with_reducible apply Device.Later.foldl

theorem Device.denyPiece_later {a : Device} : ∀ x0 x1 x2, Device.Later a x0 → Device.Later a (@Device.denyPiece x0 x1 x2) := by
  intro x0 x1 x2 h0
  unfold Device.denyPiece
  repeat' first
    | with_reducible assumption
    | with_reducible apply Device.failPiece_later
    | with_reducible apply Device.xltFault_later
    | split

theorem Device.failWalker_later {a : Device} : ∀ x0 x1 x2 x3, Device.Later a x0 → Device.Later a (@Device.failWalker x0 x1 x2 x3) := by
  intro x0 x1 x2 x3 h0
  unfold Device.failWalker
  repeat' first
    | with_reducible assumption
    | with_reducible apply Device.modXlt_later
    | with_reducible apply Device.denyPiece_later
    | with_reducible apply Device.feedWalkers_later
    | with_reducible apply Device.Later.foldl
    | intro _

theorem Device.holdFor_later {a : Device} : ∀ x0 x1 x2, Device.Later a x0 → Device.Later a (@Device.holdFor x0 x1 x2) := by
  intro x0 x1 x2 h0
  unfold Device.holdFor
  repeat' first
    | with_reducible assumption
    | with_reducible apply Device.holdRange_later
    | with_reducible apply Device.Later.foldl
    | intro _
    | split

theorem Device.fillAll_later {a : Device} : ∀ x0 x1 x2, Device.Later a x0 → Device.Later a (@Device.fillAll x0 x1 x2) := by
  intro x0 x1 x2 h0
  unfold Device.fillAll
  repeat' first
    | with_reducible assumption
    | with_reducible apply Device.fillPage_later
    | with_reducible apply Device.Later.foldl
    | intro _
    | with_reducible apply Device.Later.ite

theorem Device.atsDone_later {a : Device} : ∀ x0 x1 x2, Device.Later a x2 → Device.Later a (@Device.atsDone x0 x1 x2) := by
  intro x0 x1 x2 h0
  unfold Device.atsDone
  repeat' first
    | with_reducible assumption
    | with_reducible apply Device.emit_later
    | with_reducible apply Device.setWalker_later
    | with_reducible apply Device.failWalker_later
    | with_reducible apply Device.fillAll_later
    | with_reducible apply Device.holdFor_later
    | with_reducible apply Device.modXlt_later
    | with_reducible apply Device.feedWalkers_later
    | with_reducible apply Device.resolve_later
    | with_reducible apply Device.setPiece_later
    | with_reducible apply Device.denyPiece_later
    | with_reducible apply Device.Later.foldl
    | intro _
    | with_reducible apply Device.Later.ite
    | split

theorem Device.atsLate_later {a : Device} : ∀ x0 x1, Device.Later a x1 → Device.Later a (@Device.atsLate x0 x1) := by
  intro x0 x1 h0
  unfold Device.atsLate
  repeat' first
    | with_reducible assumption
    | with_reducible apply Device.failWalker_later
    | with_reducible apply Device.Later.ite
    | split

theorem Device.prgDone_later {a : Device} : ∀ x0 x1 x2, Device.Later a x2 → Device.Later a (@Device.prgDone x0 x1 x2) := by
  intro x0 x1 x2 h0
  unfold Device.prgDone
  repeat' first
    | with_reducible assumption
    | with_reducible apply Device.emit_later
    | with_reducible apply Device.setWalker_later
    | with_reducible apply Device.failWalker_later
    | with_reducible apply Device.modXlt_later
    | with_reducible apply Device.Later.ite
    | split

theorem Device.prgLate_later {a : Device} : ∀ x0 x1, Device.Later a x1 → Device.Later a (@Device.prgLate x0 x1) := by
  intro x0 x1 h0
  unfold Device.prgLate
  repeat' first
    | with_reducible assumption
    | with_reducible apply Device.failWalker_later
    | with_reducible apply Device.Later.ite
    | split

theorem Device.retranslate_later {a : Device} : ∀ x0 x1, Device.Later a x0 → Device.Later a (@Device.retranslate x0 x1) := by
  intro x0 x1 h0
  unfold Device.retranslate
  repeat' first
    | with_reducible assumption
    | with_reducible apply Device.setPiece_later
    | with_reducible apply Device.resolve_later
    | with_reducible apply Device.Later.tfoldl
    | intro _
    | with_reducible apply Device.Later.ite
    | split

theorem Device.invalidate_later {a : Device} : ∀ x0 x1 x2 x3, Device.Later a x3 → Device.Later a (@Device.invalidate x0 x1 x2 x3) := by
  intro x0 x1 x2 x3 h0
  unfold Device.invalidate
  repeat' first
    | with_reducible assumption
    | with_reducible apply Device.modXlt_later
    | with_reducible apply Device.retranslate_later
    | with_reducible apply Device.notify_later
    | with_reducible apply Device.Later.ite

theorem Device.flushXlt_later {a : Device} : ∀ x0 x1, Device.Later a x1 → Device.Later a (@Device.flushXlt x0 x1) := by
  intro x0 x1 h0
  unfold Device.flushXlt
  repeat' first
    | with_reducible assumption
    | with_reducible apply Device.retranslate_later
    | with_reducible apply Device.notify_later
    | with_reducible apply Device.modXlt_later

theorem Device.ackBy_later {a : Device} : ∀ x0 x1, Device.Later a x0 → Device.Later a (@Device.ackBy x0 x1) := by
  intro x0 x1 h0
  unfold Device.ackBy
  repeat' first
    | with_reducible assumption
    | with_reducible apply Device.modXlt_later
    | with_reducible apply Device.emit_later
    | with_reducible apply Device.Later.ite

theorem Device.invalAck_later {a : Device} : ∀ x0 x1, Device.Later a x1 → Device.Later a (@Device.invalAck x0 x1) := by
  intro x0 x1 h0
  unfold Device.invalAck
  repeat' first
    | with_reducible assumption
    | with_reducible apply Device.ackBy_later
    | with_reducible apply Device.Later.ite
    | split

theorem Device.invalLate_later {a : Device} : ∀ x0 x1, Device.Later a x1 → Device.Later a (@Device.invalLate x0 x1) := by
  intro x0 x1 h0
  unfold Device.invalLate
  repeat' first
    | with_reducible assumption
    | with_reducible apply Device.failPiece_later
    | with_reducible apply Device.xltFault_later
    | with_reducible apply Device.haltChannel_later
    | with_reducible apply Device.ackBy_later
    | with_reducible apply Device.modXlt_later
    | with_reducible apply Device.Later.foldl
    | intro _
    | with_reducible apply Device.Later.ite
    | split

/-! ### CommandOps -/

theorem Device.setHref_later {a : Device} : ∀ x0 x1 x2 x3, Device.Later a x0 → Device.Later a (@Device.setHref x0 x1 x2 x3) := by
  intro x0 x1 x2 x3 h0
  unfold Device.setHref
  repeat' first
    | with_reducible assumption
    | with_reducible apply Device.reapObj_later
    | with_reducible apply Device.setObj_later
    | with_reducible apply Device.reapFence_later
    | with_reducible apply Device.setFence_later
    | with_reducible apply Device.setSeq_later
    | with_reducible apply Device.Later.ite
    | split

theorem Device.createObj_later {a : Device} : ∀ x0 x1 x2, Device.Later a x0 → Device.Later a (@Device.createObj x0 x1 x2).1 := by
  intro x0 x1 x2 h0
  unfold Device.createObj
  repeat' first
    | with_reducible assumption
    | with_reducible apply Device.setFence_later
    | with_reducible apply Device.setObj_later
    | with_reducible apply Device.setSlice_later
    | with_reducible exact Slice.create_wf (by with_reducible assumption) (by with_reducible assumption)
    | fail_if_no_progress with_reducible refine Device.Later.upd ?_ rfl rfl rfl
    | intro _
    | split
    | (extract_lets -underBinder +onlyGivenNames x; clear_value x)

theorem Device.openByCapsule_later {a : Device} : ∀ x0 x1 x2, Device.Later a x0 → Device.Later a (@Device.openByCapsule x0 x1 x2).1 := by
  intro x0 x1 x2 h0
  unfold Device.openByCapsule
  repeat' first
    | with_reducible assumption
    | with_reducible apply Device.winOpen_later
    | with_reducible apply Device.refObj_later
    | split
    | (extract_lets -underBinder +onlyGivenNames x; clear_value x)

theorem Device.joinSeq_later {a : Device} : ∀ x0 x1 x2, Device.Later a x0 → Device.Later a (@Device.joinSeq x0 x1 x2).1 := by
  intro x0 x1 x2 h0
  unfold Device.joinSeq
  repeat' first
    | with_reducible assumption
    | with_reducible apply Device.activate_later
    | with_reducible apply Device.refFence_later
    | with_reducible apply Device.refObj_later
    | with_reducible apply Device.setSeq_later
    | with_reducible apply Device.closeBatch_later
    | with_reducible apply Device.Later.foldl
    | (intro (hh : Device.Later _ x); clear_value x)
    | split
    | (extract_lets -underBinder +onlyGivenNames x; with_reducible refine Device.Later.via x ?_ ?_; unfold x)
    | (extract_lets -underBinder +onlyGivenNames x; clear_value x)

theorem Device.cancelOne_later {a : Device} : ∀ x0 x1 x2, Device.Later a x0 → Device.Later a (@Device.cancelOne x0 x1 x2) := by
  intro x0 x1 x2 h0
  unfold Device.cancelOne
  repeat' first
    | with_reducible assumption
    | with_reducible apply Device.endJob_later
    | with_reducible apply Device.setSeq_later
    | with_reducible apply Device.finishCmd_later
    | with_reducible apply Device.stopPieces_later
    | split

theorem Device.cancelAll_later {a : Device} : ∀ x0 x1 x2, Device.Later a x0 → Device.Later a (@Device.cancelAll x0 x1 x2) := by
  intro x0 x1 x2 h0
  unfold Device.cancelAll
  repeat' first
    | with_reducible assumption
    | with_reducible apply Device.cancelOne_later
    | with_reducible apply Device.Later.foldl
    | intro _

theorem Device.modStallQ_later {a : Device} : ∀ x0 x1 x2, Device.Later a x0 → Device.Later a (@Device.modStallQ x0 x1 x2) := by
  intro x0 x1 x2 h0
  unfold Device.modStallQ
  repeat' first
    | with_reducible assumption
    | with_reducible apply Device.modStall_later

theorem Device.actTaken_later {a : Device} : ∀ x0 x1 x2 x3, Device.Later a x0 → Device.Later a (@Device.actTaken x0 x1 x2 x3).1 := by
  intro x0 x1 x2 x3 h0
  unfold Device.actTaken
  repeat' first
    | with_reducible assumption
    | with_reducible apply Device.createObj_later
    | with_reducible apply Device.setHref_later
    | with_reducible apply Device.openByCapsule_later
    | with_reducible apply Device.winClose_later
    | with_reducible apply Device.joinSeq_later
    | with_reducible apply Device.setSeq_later
    | with_reducible refine Device.arm_later _ _ _ _ _ _ _ _ ?_ _ _ (by with_reducible assumption)
    | with_reducible refine Device.reserveSlot_later _ _ _ ?_ _ (by with_reducible assumption)
    | with_reducible apply Device.modStallQ_later
    | split
    | (extract_lets -underBinder +onlyGivenNames x; clear_value x)

theorem Device.postCredit_later {a : Device} : ∀ x0 x1, Device.Later a x0 → Device.Later a (@Device.postCredit x0 x1) := by
  intro x0 x1 h0
  unfold Device.postCredit
  repeat' first
    | with_reducible assumption
    | with_reducible apply Device.postQueue_later
    | with_reducible apply Device.modStallQ_later

theorem Device.countTaken_later {a : Device} : ∀ x0 x1, Device.Later a x0 → Device.Later a (@Device.countTaken x0 x1) := by
  intro x0 x1 h0
  unfold Device.countTaken
  repeat' first
    | with_reducible assumption
    | with_reducible apply Device.modStallQ_later
    | with_reducible apply Device.postCredit_later
    | with_reducible apply Device.Later.ite

theorem Device.translateAhead_later {a : Device} : ∀ x0 x1 x2, Device.Later a x0 → Device.Later a (@Device.translateAhead x0 x1 x2) := by
  intro x0 x1 x2 h0
  unfold Device.translateAhead
  repeat' first
    | with_reducible assumption
    | with_reducible apply Device.holdRange_later
    | with_reducible apply Device.takeMiss_later
    | with_reducible apply Device.Later.foldl
    | intro _
    | with_reducible apply Device.Later.ite

theorem Device.takeCapsule_later {a : Device} : ∀ x0 x1 x2 x3, Device.Later a x0 → Device.Later a (@Device.takeCapsule x0 x1 x2 x3) := by
  intro x0 x1 x2 x3 h0
  unfold Device.takeCapsule
  repeat' first
    | with_reducible assumption
    | with_reducible apply Device.modStall_later
    | with_reducible apply Device.countTaken_later
    | with_reducible apply Device.progress_later
    | with_reducible apply Device.commandRecord_later
    | with_reducible apply Device.refObj_later
    | with_reducible apply Device.refFence_later
    | with_reducible apply Device.actTaken_later
    | with_reducible apply Device.modStallQ_later
    | with_reducible apply Device.translateAhead_later
    | with_reducible apply Device.cancelAll_later
    | with_reducible apply Device.Later.foldl
    | (intro (hh : Device.Later _ x); clear_value x)
    | with_reducible apply Device.Later.ite
    | split
    | (extract_lets -underBinder +onlyGivenNames x; with_reducible refine Device.Later.via x ?_ ?_; unfold x)
    | (extract_lets -underBinder +onlyGivenNames x; clear_value x)

theorem Device.takeIf_later {a : Device} : ∀ x0 x1 x2 x3, Device.Later a x0 → Device.Later a (@Device.takeIf x0 x1 x2 x3) := by
  intro x0 x1 x2 x3 h0
  unfold Device.takeIf
  repeat' first
    | with_reducible assumption
    | with_reducible apply Device.takeCapsule_later
    | with_reducible apply Device.Later.ite
    | split

theorem Device.markOverlap_later {a : Device} : ∀ x0, Device.Later a x0 → Device.Later a (@Device.markOverlap x0) := by
  intro x0 h0
  unfold Device.markOverlap
  repeat' first
    | with_reducible assumption
    | fail_if_no_progress with_reducible refine Device.Later.upd ?_ rfl rfl rfl

theorem Device.startCmd_later {a : Device} : ∀ x0 x1 x2, Device.Later a x0 → Device.Later a (@Device.startCmd x0 x1 x2) := by
  intro x0 x1 x2 h0
  unfold Device.startCmd
  repeat' first
    | with_reducible assumption
    | with_reducible apply Device.markOverlap_later
    | with_reducible apply Device.modCmd_later
    | with_reducible apply Device.queueProgress_later
    | with_reducible apply Device.progress_later
    | with_reducible apply Device.Later.ite

theorem Device.startNext_later {a : Device} : ∀ x0 x1 x2 x3, Device.Later a x0 → (∀ y0 y1, Device.Later a y0 → Device.Later a (x3 y0 y1)) → Device.Later a (@Device.startNext x0 x1 x2 x3) := by
  intro x0 x1 x2 x3 h0 h1
  unfold Device.startNext
  repeat' first
    | with_reducible assumption
    | with_reducible apply Device.startCmd_later
    | with_reducible apply h1
    | with_reducible apply Device.Later.ite
    | split

theorem Device.settleFence_later {a : Device} : ∀ x0 x1 x2, Device.Later a x0 → Device.Later a (@Device.settleFence x0 x1 x2).1 := by
  intro x0 x1 x2 h0
  unfold Device.settleFence
  repeat' first
    | with_reducible assumption
    | with_reducible apply Device.commandRecord_later
    | with_reducible apply Device.attachTo_later
    | with_reducible apply Device.signalFence_later
    | with_reducible refine Device.Later.of_eq (by with_reducible assumption) ?_
    | split
    | (extract_lets -underBinder +onlyGivenNames x; clear_value x)

theorem Device.completeCmd_later {a : Device} : ∀ x0 x1 x2, Device.Later a x0 → Device.Later a (@Device.completeCmd x0 x1 x2) := by
  intro x0 x1 x2 h0
  unfold Device.completeCmd
  repeat' first
    | with_reducible assumption
    | with_reducible apply Device.queueProgress_later
    | with_reducible apply Device.progress_later
    | with_reducible apply Device.modPdk_later
    | with_reducible apply Device.settleFence_later
    | with_reducible apply Device.unrefObj_later
    | with_reducible apply Device.unrefFence_later
    | with_reducible apply Device.dropHolds_later
    | with_reducible apply Device.postQueue_later
    | with_reducible apply Device.tookFree_later
    | with_reducible apply Device.freeMusterSlot_later
    | with_reducible apply Device.modStallQ_later
    | with_reducible apply Device.Later.foldl
    | with_reducible apply Device.Later.ite
    | split

/-! ### DroverUnit -/

theorem Device.readObj_later {a : Device} : ∀ x0 x1 x2 x3, Device.Later a x0 → Device.Later a (@Device.readObj x0 x1 x2 x3).1 := by
  intro x0 x1 x2 x3 h0
  unfold Device.readObj
  repeat' first
    | with_reducible assumption
    | with_reducible apply Device.readBytes_later
    | with_reducible apply Device.privFail_later
    | with_reducible refine Device.Later.of_eq (by with_reducible assumption) ?_
    | split

theorem Device.readImage_later {a : Device} : ∀ x0 x1 x2, Device.Later a x0 → Device.Later a (@Device.readImage x0 x1 x2).1 := by
  intro x0 x1 x2 h0
  unfold Device.readImage
  repeat' first
    | with_reducible assumption
    | with_reducible apply Device.readObj_later
    | with_reducible refine Device.Later.of_eq (by with_reducible assumption) ?_
    | split
    | (extract_lets -underBinder +onlyGivenNames x; clear_value x)

theorem Device.makeRegions_later {a : Device} : ∀ x0 x1 x2 x3 x4, Device.Later a x0 → Device.Later a (@Device.makeRegions x0 x1 x2 x3 x4).1 := by
  intro x0 x1 x2 x3 x4 h0
  induction x4 generalizing x0 x1 x2 x3 with
  | nil =>
    unfold Device.makeRegions
    repeat' first
      | with_reducible assumption
      | with_reducible apply Device.writeYard_later
      | with_reducible apply Device.setSlice_later
      | with_reducible exact Slice.create_wf (by with_reducible assumption) (by with_reducible assumption)
      | with_reducible apply ih
      | intro _
      | split
  | cons b r ih =>
    unfold Device.makeRegions
    repeat' first
      | with_reducible assumption
      | with_reducible apply Device.writeYard_later
      | with_reducible apply Device.setSlice_later
      | with_reducible exact Slice.create_wf (by with_reducible assumption) (by with_reducible assumption)
      | with_reducible apply ih
      | intro _
      | split

theorem Device.makeFrames_later {a : Device} : ∀ x0 x1 x2 x3, Device.Later a x0 → Device.Later a (@Device.makeFrames x0 x1 x2 x3).1 := by
  intro x0 x1 x2 x3 h0
  induction x3 generalizing x0 x1 x2 with
  | nil =>
    unfold Device.makeFrames
    repeat' first
      | with_reducible assumption
      | with_reducible apply Device.setSlice_later
      | with_reducible exact Slice.create_wf (by with_reducible assumption) (by with_reducible assumption)
      | with_reducible apply ih
      | intro _
      | split
  | cons b r ih =>
    unfold Device.makeFrames
    repeat' first
      | with_reducible assumption
      | with_reducible apply Device.setSlice_later
      | with_reducible exact Slice.create_wf (by with_reducible assumption) (by with_reducible assumption)
      | with_reducible apply ih
      | intro _
      | split

theorem Device.loadJob_later {a : Device} : ∀ x0 x1 x2 x3 x4, Device.Later a x0 → Device.Later a (@Device.loadJob x0 x1 x2 x3 x4) := by
  intro x0 x1 x2 x3 x4 h0
  unfold Device.loadJob
  repeat' first
    | with_reducible assumption
    | with_reducible apply Device.makeRegions_later
    | with_reducible apply Device.endJob_later
    | with_reducible refine Device.reserveSlot_later _ _ _ ?_ _ (by with_reducible assumption)
    | with_reducible apply Device.makeFrames_later
    | with_reducible apply Device.setJob_later
    | with_reducible refine Device.Later.of_ite (by with_reducible assumption) ?_ ?_
    | fail_if_no_progress with_reducible refine Device.Later.upd ?_ rfl rfl rfl
    | with_reducible refine Device.Later.of_eq (by with_reducible assumption) ?_
    | intro _
    | with_reducible apply Device.Later.ite
    | split
    | (extract_lets -underBinder +onlyGivenNames x; clear_value x)

theorem Device.startJob_later {a : Device} : ∀ x0 x1 x2, Device.Later a x2 → Device.Later a (@Device.startJob x0 x1 x2) := by
  intro x0 x1 x2 h0
  unfold Device.startJob
  repeat' first
    | with_reducible assumption
    | with_reducible apply Device.modCore_later
    | with_reducible apply Device.setJob_later
    | with_reducible apply Device.withdrawFor_later
    | with_reducible apply Device.startCmd_later
    | with_reducible apply Device.readImage_later
    | with_reducible apply Device.endJob_later
    | with_reducible apply Device.loadJob_later
    | with_reducible apply Device.Later.foldl
    | with_reducible refine Device.Later.of_eq (by with_reducible assumption) ?_
    | (intro (hh : Device.Later _ x); clear_value x)
    | intro _
    | with_reducible apply Device.Later.ite
    | split
    | (extract_lets -underBinder +onlyGivenNames x; with_reducible refine Device.Later.via x ?_ ?_; unfold x)
    | (extract_lets -underBinder +onlyGivenNames x; clear_value x)

theorem Device.releaseCore_later {a : Device} : ∀ x0 x1 x2 x3 x4, Device.Later a x0 → Device.Later a (@Device.releaseCore x0 x1 x2 x3 x4) := by
  intro x0 x1 x2 x3 x4 h0
  unfold Device.releaseCore
  repeat' first
    | with_reducible assumption
    | with_reducible apply Device.modCore_later
    | with_reducible apply Device.resend_later

theorem Device.releaseJob_later {a : Device} : ∀ x0 x1, Device.Later a x1 → Device.Later a (@Device.releaseJob x0 x1) := by
  intro x0 x1 h0
  unfold Device.releaseJob
  repeat' first
    | with_reducible assumption
    | with_reducible apply Device.releaseCore_later
    | with_reducible apply Device.progress_later
    | with_reducible apply Device.setJob_later
    | with_reducible apply Device.consider_later
    | with_reducible apply Device.requestPreempt_later
    | with_reducible apply Device.Later.foldl
    | intro _
    | with_reducible apply Device.Later.ite
    | split

theorem Device.restoreCore_later {a : Device} : ∀ x0 x1 x2 x3, Device.Later a x0 → Device.Later a (@Device.restoreCore x0 x1 x2 x3) := by
  intro x0 x1 x2 x3 h0
  unfold Device.restoreCore
  repeat' first
    | with_reducible assumption
    | with_reducible apply Device.modCore_later
    | with_reducible apply Device.resend_later
    | with_reducible apply Device.traceRec_later
    | fail_if_no_progress with_reducible refine Device.Later.upd ?_ rfl rfl rfl
    | split

theorem Device.resumeJob_later {a : Device} : ∀ x0 x1, Device.Later a x1 → Device.Later a (@Device.resumeJob x0 x1) := by
  intro x0 x1 h0
  unfold Device.resumeJob
  repeat' first
    | with_reducible assumption
    | with_reducible apply Device.activate_later
    | with_reducible apply Device.restoreCore_later
    | with_reducible apply Device.setJob_later
    | with_reducible apply Device.consider_later
    | with_reducible apply Device.resumeRounds_later
    | with_reducible apply Device.withdrawFor_later
    | with_reducible apply Device.Later.foldl
    | intro _
    | with_reducible apply Device.Later.ite
    | split

theorem Device.quantumEnds_later {a : Device} : ∀ x0 x1, Device.Later a x1 → Device.Later a (@Device.quantumEnds x0 x1) := by
  intro x0 x1 h0
  unfold Device.quantumEnds
  repeat' first
    | with_reducible assumption
    | with_reducible apply Device.consider_later
    | with_reducible apply Device.Later.ite
    | split

theorem Device.normalise_later {a : Device} : ∀ x0 x1, Device.Later a x1 → Device.Later a (@Device.normalise x0 x1) := by
  intro x0 x1 h0
  unfold Device.normalise
  repeat' first
    | with_reducible assumption
    | with_reducible apply Device.modPdk_later
    | split

theorem Device.setupSem_later {a : Device} : ∀ x0 x1 x2 x3, Device.Later a x3 → Device.Later a (@Device.setupSem x0 x1 x2 x3) := by
  intro x0 x1 x2 x3 h0
  unfold Device.setupSem
  repeat' first
    | with_reducible assumption
    | with_reducible apply Device.setSem_later
    | with_reducible apply Device.signalFence_later
    | with_reducible apply Device.Later.ite
    | split

theorem Device.dropSem_later {a : Device} : ∀ x0 x1 x2, Device.Later a x2 → Device.Later a (@Device.dropSem x0 x1 x2) := by
  intro x0 x1 x2 h0
  unfold Device.dropSem
  repeat' first
    | with_reducible assumption
    | with_reducible apply Device.setSem_later
    | with_reducible apply Device.attachError_later
    | with_reducible apply Device.Later.ite
    | split

theorem Device.armStep_later {a : Device} : ∀ x0 x1, Device.Later a x0 → Device.Later a (@Device.armStep x0 x1) := by
  intro x0 x1 h0
  unfold Device.armStep
  repeat' first
    | with_reducible assumption
    | with_reducible apply Device.armSlot_later
    | with_reducible apply Device.setAlarm_later
    | with_reducible apply Device.Later.ite
    | split

theorem Device.stepsOff_later {a : Device} : ∀ x0 x1, Device.Later a x0 → Device.Later a (@Device.stepsOff x0 x1) := by
  intro x0 x1 h0
  unfold Device.stepsOff
  repeat' first
    | with_reducible assumption
    | with_reducible apply Device.idleAll_later
    | with_reducible apply Device.chargeStep_later
    | with_reducible apply Device.freeAlarm_later
    | with_reducible apply Device.modPdk_later
    | split

theorem Device.writeStepCtl_later {a : Device} : ∀ x0 x1 x2, Device.Later a x2 → Device.Later a (@Device.writeStepCtl x0 x1 x2) := by
  intro x0 x1 x2 h0
  unfold Device.writeStepCtl
  repeat' first
    | with_reducible assumption
    | with_reducible apply Device.setPdk_later
    | with_reducible apply Device.stepsOff_later
    | with_reducible refine Device.reserveSlot_later _ _ _ ?_ _ (by with_reducible assumption)
    | with_reducible apply Device.armStep_later
    | with_reducible apply Device.modPdk_later
    | with_reducible apply Device.Later.ite
    | split

theorem Device.stepAlarm_later {a : Device} : ∀ x0 x1, Device.Later a x1 → Device.Later a (@Device.stepAlarm x0 x1) := by
  intro x0 x1 h0
  unfold Device.stepAlarm
  repeat' first
    | with_reducible assumption
    | with_reducible apply Device.armStep_later
    | with_reducible apply Device.fired_later
    | with_reducible apply Device.closeBatch_later
    | with_reducible apply Device.modPdk_later
    | with_reducible apply Device.Later.ite

theorem Device.clearForStep_later {a : Device} : ∀ x0 x1, Device.Later a x0 → Device.Later a (@Device.clearForStep x0 x1) := by
  intro x0 x1 h0
  unfold Device.clearForStep
  repeat' first
    | with_reducible assumption
    | with_reducible apply Device.requestPreempt_later
    | with_reducible apply Device.Later.foldl
    | intro _
    | with_reducible apply Device.Later.ite
    | split

/-! ### HostUnit -/

theorem Device.bindStall_later {a : Device} : ∀ x0 x1 x2 x3, Device.Later a x3 → Device.Later a (@Device.bindStall x0 x1 x2 x3) := by
  intro x0 x1 x2 x3 h0
  unfold Device.bindStall
  repeat' first
    | with_reducible assumption
    | with_reducible apply Device.setStall_later
    | fail_if_no_progress with_reducible refine Device.Later.upd ?_ rfl rfl rfl
    | with_reducible apply Device.Later.ite
    | split

theorem Device.boundStall_later {a : Device} : ∀ x0 x1 x2, Device.Later a x2 → Device.Later a (@Device.boundStall x0 x1 x2) := by
  intro x0 x1 x2 h0
  unfold Device.boundStall
  repeat' first
    | with_reducible assumption
    | with_reducible apply Device.setStall_later
    | with_reducible apply Device.setOutQueue_later
    | with_reducible apply Device.emit_later
    | with_reducible apply Device.advanceCopy_later
    | with_reducible apply Device.Later.foldl
    | intro _
    | with_reducible apply Device.Later.ite

theorem Device.withdrawReady_later {a : Device} : ∀ x0 x1, Device.Later a x0 → Device.Later a (@Device.withdrawReady x0 x1) := by
  intro x0 x1 h0
  unfold Device.withdrawReady
  repeat' first
    | with_reducible assumption
    | with_reducible apply Device.modCmd_later
    | with_reducible apply Device.Later.tfoldl
    | fail_if_no_progress with_reducible refine Device.Later.upd ?_ rfl rfl rfl
    | intro _
    | with_reducible apply Device.Later.ite

theorem Device.yieldAll_later {a : Device} : ∀ x0 x1, Device.Later a x0 → Device.Later a (@Device.yieldAll x0 x1) := by
  intro x0 x1 h0
  unfold Device.yieldAll
  repeat' first
    | with_reducible assumption
    | with_reducible apply Device.requestPreempt_later
    | with_reducible apply Device.Later.tfoldl
    | intro _
    | with_reducible apply Device.Later.ite

theorem Device.unbindStall_later {a : Device} : ∀ x0 x1, Device.Later a x1 → Device.Later a (@Device.unbindStall x0 x1) := by
  intro x0 x1 h0
  unfold Device.unbindStall
  repeat' first
    | with_reducible assumption
    | with_reducible apply Device.yieldAll_later
    | with_reducible apply Device.withdrawReady_later
    | with_reducible apply Device.setStall_later
    | with_reducible apply Device.Later.ite

theorem Device.unboundStall_later {a : Device} : ∀ x0 x1, Device.Later a x1 → Device.Later a (@Device.unboundStall x0 x1) := by
  intro x0 x1 h0
  unfold Device.unboundStall
  repeat' first
    | with_reducible assumption
    | with_reducible apply Device.setOutQueue_later
    | with_reducible apply Device.emit_later
    | with_reducible apply Device.setStall_later
    | with_reducible apply Device.postDev_later
    | with_reducible apply Device.Later.ite

theorem Device.fenceWrite_later {a : Device} : ∀ x0 x1, Device.Later a x0 → Device.Later a (@Device.fenceWrite x0 x1) := by
  intro x0 x1 h0
  unfold Device.fenceWrite
  repeat' first
    | with_reducible assumption
    | with_reducible apply Device.postDev_later
    | with_reducible apply Device.modStall_later
    | with_reducible apply Device.Later.ite

theorem Device.dropWrite_later {a : Device} : ∀ x0 x1 x2, Device.Later a x0 → Device.Later a (@Device.dropWrite x0 x1 x2) := by
  intro x0 x1 x2 h0
  unfold Device.dropWrite
  repeat' first
    | with_reducible assumption
    | with_reducible apply Device.fenceWrite_later
    | with_reducible apply Device.setStall_later
    | with_reducible apply Device.commandRecord_later
    | with_reducible apply Device.modStall_later
    | with_reducible apply Device.Later.ite

theorem Device.capsuleWrite_later {a : Device} : ∀ x0 x1 x2 x3, Device.Later a x3 → Device.Later a (@Device.capsuleWrite x0 x1 x2 x3) := by
  intro x0 x1 x2 x3 h0
  unfold Device.capsuleWrite
  repeat' first
    | with_reducible assumption
    | with_reducible apply Device.fenceWrite_later
    | with_reducible apply Device.dropWrite_later
    | with_reducible apply Device.commandRecord_later
    | with_reducible apply Device.setStall_later
    | with_reducible apply Device.modStallQ_later
    | with_reducible apply Device.Later.ite

theorem Device.setRunnable_later {a : Device} : ∀ x0 x1, Device.Later a x1 → Device.Later a (@Device.setRunnable x0 x1) := by
  intro x0 x1 h0
  unfold Device.setRunnable
  repeat' first
    | with_reducible assumption
    | with_reducible apply Device.emit_later
    | with_reducible apply Device.setOutQueue_later
    | with_reducible apply Device.postDev_later
    | with_reducible apply Device.Later.ite

theorem Device.parkQueue_later {a : Device} : ∀ x0 x1, Device.Later a x1 → Device.Later a (@Device.parkQueue x0 x1) := by
  intro x0 x1 h0
  unfold Device.parkQueue
  repeat' first
    | with_reducible assumption
    | with_reducible apply Device.modOutQueue_later
    | with_reducible apply Device.setStall_later
    | with_reducible apply Device.yieldAll_later
    | with_reducible apply Device.emit_later
    | with_reducible apply Device.postDev_later
    | with_reducible apply Device.setRunnable_later
    | with_reducible apply Device.Later.tfoldl
    | intro _
    | with_reducible apply Device.Later.ite
    | split

theorem Device.unparkStall_later {a : Device} : ∀ x0 x1, Device.Later a x1 → Device.Later a (@Device.unparkStall x0 x1) := by
  intro x0 x1 h0
  unfold Device.unparkStall
  repeat' first
    | with_reducible assumption
    | with_reducible apply Device.modOutQueue_later
    | with_reducible apply Device.setStall_later
    | with_reducible apply Device.consider_later
    | with_reducible apply Device.emit_later
    | with_reducible apply Device.Later.ite

theorem Device.writeEvrCtl_later {a : Device} : ∀ x0 x1 x2, Device.Later a x2 → Device.Later a (@Device.writeEvrCtl x0 x1 x2) := by
  intro x0 x1 x2 h0
  unfold Device.writeEvrCtl
  repeat' first
    | with_reducible assumption
    | with_reducible apply Device.setRing_later
    | with_reducible apply Device.Later.ite

theorem Device.failRing_later {a : Device} : ∀ x0 x1, Device.Later a x1 → Device.Later a (@Device.failRing x0 x1) := by
  intro x0 x1 h0
  unfold Device.failRing
  repeat' first
    | with_reducible assumption
    | with_reducible apply Device.setRing_later
    | with_reducible apply Device.postDev_later
    | fail_if_no_progress with_reducible refine Device.Later.upd ?_ rfl rfl rfl
    | with_reducible apply Device.Later.ite

theorem Device.moderationEnd_later {a : Device} : ∀ x0 x1, Device.Later a x1 → Device.Later a (@Device.moderationEnd x0 x1) := by
  intro x0 x1 h0
  unfold Device.moderationEnd
  repeat' first
    | with_reducible assumption
    | with_reducible apply Device.setVec_later
    | with_reducible apply Device.emit_later
    | with_reducible apply Device.Later.ite

theorem Device.unmask_later {a : Device} : ∀ x0 x1, Device.Later a x1 → Device.Later a (@Device.unmask x0 x1) := by
  intro x0 x1 h0
  unfold Device.unmask
  repeat' first
    | with_reducible assumption
    | with_reducible apply Device.setVec_later
    | with_reducible apply Device.emit_later
    | with_reducible apply Device.Later.ite

theorem Device.mirrorFail_later {a : Device} : ∀ x0 x1 x2, Device.Later a x2 → Device.Later a (@Device.mirrorFail x0 x1 x2) := by
  intro x0 x1 x2 h0
  unfold Device.mirrorFail
  repeat' first
    | with_reducible assumption
    | with_reducible apply Device.setFence_later
    | with_reducible apply Device.postQueue_later
    | with_reducible apply Device.Later.ite

/-! ### Counters -/

theorem Device.sampled_later {a : Device} : ∀ x0 x1, Device.Later a x0 → Device.Later a (@Device.sampled x0 x1) := by
  intro x0 x1 h0
  unfold Device.sampled
  repeat' first
    | with_reducible assumption
    | fail_if_no_progress with_reducible refine Device.Later.upd ?_ rfl rfl rfl
    | with_reducible apply Device.Later.ite

/-! ### TallyUnit -/

theorem Device.anchor_later {a : Device} : ∀ x0, Device.Later a x0 → Device.Later a (@Device.anchor x0) := by
  intro x0 h0
  unfold Device.anchor
  repeat' first
    | with_reducible assumption
    | with_reducible apply Device.logFlash_later
    | with_reducible apply Device.platform_later
    | with_reducible apply Device.modTally_later
    | with_reducible rfl
    | exact fun _ => le_rfl
    | exact fun m => m

theorem Device.setCalendar_later {a : Device} : ∀ x0 x1, Device.Later a x0 → Device.Later a (@Device.setCalendar x0 x1) := by
  intro x0 x1 h0
  unfold Device.setCalendar
  repeat' first
    | with_reducible assumption
    | with_reducible apply Device.modTally_later
    | with_reducible rfl
    | exact fun _ => le_rfl
    | exact fun m => m

theorem Device.calendarLost_later {a : Device} : ∀ x0, Device.Later a x0 → Device.Later a (@Device.calendarLost x0) := by
  intro x0 h0
  unfold Device.calendarLost
  repeat' first
    | with_reducible assumption
    | with_reducible apply Device.modTally_later
    | with_reducible rfl
    | exact fun _ => le_rfl
    | exact fun m => m

theorem Device.enterHoldover_later {a : Device} : ∀ x0, Device.Later a x0 → Device.Later a (@Device.enterHoldover x0) := by
  intro x0 h0
  unfold Device.enterHoldover
  repeat' first
    | with_reducible assumption
    | with_reducible apply Device.platform_later
    | with_reducible apply Device.modTally_later
    | with_reducible rfl
    | exact fun _ => le_rfl
    | exact fun m => m
    | with_reducible apply Device.Later.ite

theorem Device.badFrame_later {a : Device} : ∀ x0 x1, Device.Later a x0 → Device.Later a (@Device.badFrame x0 x1) := by
  intro x0 x1 h0
  unfold Device.badFrame
  repeat' first
    | with_reducible assumption
    | with_reducible apply Device.enterHoldover_later
    | with_reducible apply Device.modTally_later
    | with_reducible rfl
    | exact fun _ => le_rfl
    | exact fun m => m
    | with_reducible apply Device.Later.ite

theorem Device.clkLoss_later {a : Device} : ∀ x0, Device.Later a x0 → Device.Later a (@Device.clkLoss x0) := by
  intro x0 h0
  unfold Device.clkLoss
  repeat' first
    | with_reducible assumption
    | with_reducible apply Device.enterHoldover_later
    | with_reducible apply Device.Later.ite

theorem Device.ptpMsg_later {a : Device} : ∀ x0 x1 x2, (∀ y0, Device.Later a y0 → Device.Later a (x1 y0)) → Device.Later a x2 → Device.Later a (@Device.ptpMsg x0 x1 x2) := by
  intro x0 x1 x2 h0 h1
  unfold Device.ptpMsg
  repeat' first
    | with_reducible assumption
    | with_reducible apply Device.modPort_later
    | with_reducible apply h0
    | with_reducible apply Device.Later.ite

theorem Device.syncAccepted_later {a : Device} : ∀ x0 x1 x2, Device.Later a x0 → Device.Later a (@Device.syncAccepted x0 x1 x2) := by
  intro x0 x1 x2 h0
  unfold Device.syncAccepted
  repeat' first
    | with_reducible assumption
    | with_reducible apply Device.emit_later
    | with_reducible apply Device.modTally_later
    | with_reducible rfl
    | exact fun _ => le_rfl
    | exact fun m => m

theorem Device.ptpSync_later {a : Device} : ∀ x0 x1, Device.Later a x1 → Device.Later a (@Device.ptpSync x0 x1) := by
  intro x0 x1 h0
  unfold Device.ptpSync
  repeat' first
    | with_reducible assumption
    | with_reducible apply Device.ptpMsg_later
    | with_reducible apply Device.syncAccepted_later
    | with_reducible apply Device.modTally_later
    | with_reducible rfl
    | exact fun _ => le_rfl
    | exact fun m => m
    | intro _
    | with_reducible apply Device.Later.ite

theorem Device.ptpFollowUp_later {a : Device} : ∀ x0 x1, Device.Later a x1 → Device.Later a (@Device.ptpFollowUp x0 x1) := by
  intro x0 x1 h0
  unfold Device.ptpFollowUp
  repeat' first
    | with_reducible assumption
    | with_reducible apply Device.ptpMsg_later
    | with_reducible apply Device.syncAccepted_later
    | intro _
    | with_reducible apply Device.Later.ite
    | split

theorem Device.ptpAnnounce_later {a : Device} : ∀ x0 x1, Device.Later a x1 → Device.Later a (@Device.ptpAnnounce x0 x1) := by
  intro x0 x1 h0
  unfold Device.ptpAnnounce
  repeat' first
    | with_reducible assumption
    | with_reducible apply Device.ptpMsg_later
    | with_reducible apply Device.setCalendar_later
    | with_reducible apply Device.modTally_later
    | with_reducible rfl
    | exact fun _ => le_rfl
    | exact fun m => m
    | (intro (hh : Device.Later _ x); clear_value x)
    | intro _
    | with_reducible apply Device.Later.ite
    | split
    | (extract_lets -underBinder +onlyGivenNames x; with_reducible refine Device.Later.via x ?_ ?_; unfold x)

theorem Device.announceLost_later {a : Device} : ∀ x0, Device.Later a x0 → Device.Later a (@Device.announceLost x0) := by
  intro x0 h0
  unfold Device.announceLost
  repeat' first
    | with_reducible assumption
    | with_reducible apply Device.enterHoldover_later
    | with_reducible apply Device.modTally_later
    | with_reducible rfl
    | exact fun _ => le_rfl
    | exact fun m => m
    | with_reducible apply Device.Later.ite

theorem Device.syncLost_later {a : Device} : ∀ x0, Device.Later a x0 → Device.Later a (@Device.syncLost x0) := by
  intro x0 h0
  unfold Device.syncLost
  repeat' first
    | with_reducible assumption
    | with_reducible apply Device.enterHoldover_later
    | with_reducible apply Device.modTally_later
    | with_reducible rfl
    | exact fun _ => le_rfl
    | exact fun m => m
    | with_reducible apply Device.Later.ite

theorem Device.delayReq_later {a : Device} : ∀ x0 x1, Device.Later a x1 → Device.Later a (@Device.delayReq x0 x1) := by
  intro x0 x1 h0
  unfold Device.delayReq
  repeat' first
    | with_reducible assumption
    | with_reducible apply Device.modPort_later
    | with_reducible apply Device.emit_later
    | with_reducible apply Device.Later.ite

theorem Device.timeTransmit_later {a : Device} : ∀ x0, Device.Later a x0 → Device.Later a (@Device.timeTransmit x0) := by
  intro x0 h0
  unfold Device.timeTransmit
  repeat' first
    | with_reducible assumption
    | with_reducible apply Device.emit_later
    | with_reducible apply Device.Later.ite

theorem Device.diverged_later {a : Device} : ∀ x0, Device.Later a x0 → Device.Later a (@Device.diverged x0) := by
  intro x0 h0
  unfold Device.diverged
  repeat' first
    | with_reducible assumption
    | with_reducible apply Device.platform_later
    | with_reducible apply Device.Later.ite

theorem Device.setTcHz_later {a : Device} : ∀ x0 x1, Device.Later a x0 → Device.Later a (@Device.setTcHz x0 x1) := by
  intro x0 x1 h0
  unfold Device.setTcHz
  repeat' first
    | with_reducible assumption
    | with_reducible apply Device.modTally_later
    | with_reducible rfl
    | exact fun _ => le_rfl
    | exact fun m => m

theorem Device.startTally_later {a : Device} (d : Device) (n : Nat) (hr : d.tally.running = false) (h : Device.Later a d) :
    Device.Later a (d.startTally n) := by
  unfold Device.startTally
  refine Device.anchor_later _ (Device.modTally_later _ h rfl (fun m => ?_) fun _ => rfl)
  simp only [Device.tallyOk, hr, Bool.false_or, beq_iff_eq] at m
  simp [m]
theorem Device.removeOffset_later {a : Device} (d : Device) (off : Int) (hr : d.tally.running = true) (h : Device.Later a d) :
    Device.Later a (d.removeOffset off) := by
  unfold Device.removeOffset
  dsimp only
  split
  · refine Device.platform_later _ _ _ (Device.sampled_later _ _ (Device.modTally_later _ h rfl (fun _ => Nat.le_add_right _ _) fun _ => ?_))
    simp [Tally.marked, hr]
  · split
    · exact Device.modTally_later _ (Device.tookFree_later _ h) rfl (fun _ => le_rfl) fun m => m
    · exact Device.modTally_later _ (Device.tookFree_later _ h) rfl (fun _ => le_rfl) fun m => m
theorem Device.goodFrame_later {a : Device} (d : Device) (n m : Nat) (h : Device.Later a d) : Device.Later a (d.goodFrame n m) := by
  unfold Device.goodFrame
  extract_lets rate ref diff e f
  refine Device.modTally_later _ ?_ rfl (fun _ => le_rfl) fun m => m
  have he : Device.Later a e := Device.modTally_later _ h rfl (fun _ => le_rfl) fun m => m
  by_cases hr : e.tally.running = true
  · simp only [f, hr, if_true]
    exact Device.removeOffset_later _ _ hr he
  · simp only [f, hr, if_false]
    exact Device.startTally_later _ _ (by simpa using hr) he
theorem Device.tcFrame_later {a : Device} (f : BitVec 80) (n : Nat) (d : Device) (h : Device.Later a d) : Device.Later a (Device.tcFrame f n d) := by
  unfold Device.tcFrame
  split
  · exact h
  · split
    · exact Device.goodFrame_later _ _ _ h
    · exact Device.badFrame_later _ _ h
theorem Device.tallyTimeout_later {a : Device} (d : Device) (h : Device.Later a d) : Device.Later a d.tallyTimeout := by
  unfold Device.tallyTimeout
  split
  · next hc =>
    simp only [Bool.and_eq_true, Bool.not_eq_true'] at hc
    exact Device.startTally_later _ _ hc.2 h
  · exact h
theorem Device.ptpDelayResp_later {a : Device} (m : PtpMsg) (d : Device) (h : Device.Later a d) : Device.Later a (Device.ptpDelayResp m d) := by
  unfold Device.ptpDelayResp
  refine Device.ptpMsg_later _ _ _ (fun y hy => ?_) h
  split
  · exact hy
  · split
    · exact hy
    · next hc =>
      have hr : y.tally.running = true := by
        simp only [not_or] at hc
        simpa using hc.2
      extract_lets back forth off e bound f
      have hf : Device.Later a f := Device.tookFree_later _ (Device.removeOffset_later _ _ (by exact hr) (Device.modTally_later _ hy rfl (fun _ => le_rfl) fun m => m))
      split
      · exact Device.modTally_later _ hf rfl (fun _ => le_rfl) fun m => m
      · exact Device.modTally_later _ hf rfl (fun _ => le_rfl) fun m => m
theorem Device.setSource_later {a : Device} (d : Device) (n : Nat) (h : Device.Later a d) : Device.Later a (d.setSource n) := by
  unfold Device.setSource
  split
  · exact h
  · extract_lets e
    have he : Device.Later a e := Device.modTally_later _ h rfl (fun _ => le_rfl) fun m => m
    split
    · next hc =>
      rw [Bool.and_eq_true, Bool.and_eq_true] at hc
      exact Device.startTally_later _ _ (by simpa using hc.1.2) he
    · exact he

/-! ### MemSlot -/

theorem Device.mslotLoad_later {a : Device} : ∀ x0 x1 x2 x3 x4 x5, Device.Later a x0 → Issue.Later a (@Device.mslotLoad x0 x1 x2 x3 x4 x5) := by
  intro x0 x1 x2 x3 x4 x5 h0
  unfold Device.mslotLoad
  repeat' first
    | with_reducible assumption
    | with_reducible apply Device.readYard_later
    | with_reducible apply Device.audit_later
    | with_reducible apply Device.modSeq_later
    | with_reducible apply Issue.Later.ok
    | with_reducible apply Issue.Later.wait
    | with_reducible apply Issue.Later.bad
    | with_reducible apply Device.illegal_later
    | with_reducible refine Device.Later.of_eq (by with_reducible assumption) ?_
    | with_reducible apply Issue.Later.ite
    | split

theorem Device.mslotStore_later {a : Device} : ∀ x0 x1 x2 x3 x4 x5, Device.Later a x0 → Issue.Later a (@Device.mslotStore x0 x1 x2 x3 x4 x5) := by
  intro x0 x1 x2 x3 x4 x5 h0
  unfold Device.mslotStore
  repeat' first
    | with_reducible assumption
    | with_reducible apply Device.askPorts_later
    | with_reducible apply Device.modSeq_later
    | with_reducible apply Device.writeYard_later
    | with_reducible apply Device.audit_later
    | with_reducible apply Issue.Later.ok
    | with_reducible apply Issue.Later.wait
    | with_reducible apply Device.illegal_later
    | with_reducible apply Issue.Later.ite
    | with_reducible apply Device.Later.ite

theorem sldBody_later {a : Device} : ∀ x0 x1 x2, Device.Later a x2 → Issue.Later a (@sldBody x0 x1 x2) := by
  intro x0 x1 x2 h0
  unfold sldBody
  repeat' first
    | with_reducible assumption
    | with_reducible apply Device.mslotLoad_later

theorem sstBody_later {a : Device} : ∀ x0 x1 x2, Device.Later a x2 → Issue.Later a (@sstBody x0 x1 x2) := by
  intro x0 x1 x2 h0
  unfold sstBody
  repeat' first
    | with_reducible assumption
    | with_reducible apply Device.mslotStore_later

theorem vldBody_later {a : Device} : ∀ x0 x1 x2, Device.Later a x2 → Issue.Later a (@vldBody x0 x1 x2) := by
  intro x0 x1 x2 h0
  unfold vldBody
  repeat' first
    | with_reducible assumption
    | with_reducible apply Device.mslotLoad_later

theorem vstBody_later {a : Device} : ∀ x0 x1 x2, Device.Later a x2 → Issue.Later a (@vstBody x0 x1 x2) := by
  intro x0 x1 x2 h0
  unfold vstBody
  repeat' first
    | with_reducible assumption
    | with_reducible apply Device.mslotStore_later

theorem Device.gatherWords_later {a : Device} : ∀ x0 x1 x2, Device.Later a x0 → Device.Later a (@Device.gatherWords x0 x1 x2).1 := by
  intro x0 x1 x2 h0
  induction x2 generalizing x0 x1 with
  | nil =>
    unfold Device.gatherWords
    repeat' first
      | with_reducible assumption
      | with_reducible apply Device.readBytes_later
      | with_reducible apply ih
      | with_reducible refine Device.Later.of_eq (by with_reducible assumption) ?_
      | split
  | cons b r ih =>
    unfold Device.gatherWords
    repeat' first
      | with_reducible assumption
      | with_reducible apply Device.readBytes_later
      | with_reducible apply ih
      | with_reducible refine Device.Later.of_eq (by with_reducible assumption) ?_
      | split

theorem vldsBody_later {a : Device} : ∀ x0 x1 x2, Device.Later a x2 → Issue.Later a (@vldsBody x0 x1 x2) := by
  intro x0 x1 x2 h0
  unfold vldsBody
  repeat' first
    | with_reducible assumption
    | with_reducible apply Device.gatherWords_later
    | with_reducible apply Device.auditAll_later
    | with_reducible apply Device.askPorts_later
    | with_reducible apply Device.modSeq_later
    | with_reducible apply Issue.Later.ok
    | with_reducible apply Issue.Later.wait
    | with_reducible apply Issue.Later.bad
    | with_reducible apply Device.illegal_later
    | with_reducible refine Device.Later.of_eq (by with_reducible assumption) ?_
    | with_reducible apply Issue.Later.ite
    | split

theorem vstsBody_later {a : Device} : ∀ x0 x1 x2, Device.Later a x2 → Issue.Later a (@vstsBody x0 x1 x2) := by
  intro x0 x1 x2 h0
  unfold vstsBody
  repeat' first
    | with_reducible assumption
    | with_reducible apply Device.auditAll_later
    | with_reducible apply Device.askPorts_later
    | with_reducible apply Device.modSeq_later
    | with_reducible apply Device.writeYard_later
    | with_reducible apply Issue.Later.ok
    | with_reducible apply Issue.Later.wait
    | with_reducible apply Device.illegal_later
    | with_reducible apply Device.Later.foldl
    | intro _
    | with_reducible apply Issue.Later.ite

theorem Device.loadBundles_later {a : Device} : ∀ x0 x1 x2 x3, Device.Later a x0 → Device.Later a (@Device.loadBundles x0 x1 x2 x3).1 := by
  intro x0 x1 x2 x3 h0
  induction x3 generalizing x0 x1 x2 with
  | nil =>
    unfold Device.loadBundles
    repeat' first
      | with_reducible assumption
      | with_reducible apply Device.readBlock_later
      | with_reducible apply Device.modSeq_later
      | with_reducible apply ih
      | with_reducible refine Device.Later.of_eq (by with_reducible assumption) ?_
      | split
  | cons b r ih =>
    unfold Device.loadBundles
    repeat' first
      | with_reducible assumption
      | with_reducible apply Device.readBlock_later
      | with_reducible apply Device.modSeq_later
      | with_reducible apply ih
      | with_reducible refine Device.Later.of_eq (by with_reducible assumption) ?_
      | split

theorem imldBody_later {a : Device} : ∀ x0 x1 x2, Device.Later a x2 → Issue.Later a (@imldBody x0 x1 x2) := by
  intro x0 x1 x2 h0
  unfold imldBody
  repeat' first
    | with_reducible assumption
    | with_reducible apply Device.loadBundles_later
    | with_reducible apply Device.askPorts_later
    | with_reducible apply Issue.Later.ok
    | with_reducible apply Issue.Later.bad
    | with_reducible apply Device.illegal_later
    | with_reducible refine Device.Later.of_eq (by with_reducible assumption) ?_
    | with_reducible apply Issue.Later.ite
    | split

/-! ### TroughUnit -/

theorem cbldBody_later {a : Device} (c : Nat) (x : QInstr) (d : Device) (h : Device.Later a d) : Issue.Later a (cbldBody c x d) := by
  unfold cbldBody
  extract_lets w k off b first count efmt ctx old l start e
  have he : Device.Later a ((e.askPorts c 3 true (linesOf off (8 * count))).readBlocks c 3 (Device.blocksOf off (8 * count))).1 :=
    Device.readBlocks_later _ _ _ _ (Device.askPorts_later _ _ _ _ _ _ (Device.modTrough_later _ _ _ h))
  split
  · exact .trap
  · split
    · exact .wait h
    · split
      · next q => rw [q] at he; exact .fly (Device.modTrough_later _ _ _ he)
      · next q => rw [q] at he; exact .bad (Device.modTrough_later _ _ _ he)

theorem tpassBody_later {a : Device} : ∀ x0 x1 x2, Device.Later a x2 → Issue.Later a (@tpassBody x0 x1 x2) := by
  intro x0 x1 x2 h0
  unfold tpassBody
  repeat' first
    | with_reducible assumption
    | with_reducible apply Device.readYard_later
    | with_reducible apply Device.modTrough_later
    | with_reducible apply Issue.Later.wait
    | with_reducible apply Issue.Later.bad
    | with_reducible apply Issue.Later.fly
    | with_reducible apply Device.illegal_later
    | with_reducible refine Device.Later.of_eq (by with_reducible assumption) ?_
    | with_reducible apply Issue.Later.ite
    | split

theorem tpassComplete_later {a : Device} : ∀ x0 x1, Device.Later a x1 → Device.Later a (@tpassComplete x0 x1) := by
  intro x0 x1 h0
  unfold tpassComplete
  repeat' first
    | with_reducible assumption
    | with_reducible apply Device.runPass_later
    | with_reducible apply Device.Later.ite
    | split

theorem tactBody_later {a : Device} : ∀ x0 x1 x2, Device.Later a x2 → Issue.Later a (@tactBody x0 x1 x2) := by
  intro x0 x1 x2 h0
  unfold tactBody
  repeat' first
    | with_reducible assumption
    | with_reducible apply Device.modTrough_later
    | with_reducible apply Issue.Later.ok
    | with_reducible apply Issue.Later.wait
    | with_reducible apply Issue.Later.ite

theorem cbldComplete_later {a : Device} : ∀ x0 x1, Device.Later a x1 → Device.Later a (@cbldComplete x0 x1) := by
  intro x0 x1 h0
  unfold cbldComplete
  repeat' first
    | with_reducible assumption
    | with_reducible apply Device.modCore_later
    | split

/-! ### YardUnit -/

theorem Device.meetUe_later {a : Device} : ∀ x0 x1 x2 x3, Device.Later a x0 → Device.Later a (@Device.meetUe x0 x1 x2 x3) := by
  intro x0 x1 x2 x3 h0
  unfold Device.meetUe
  repeat' first
    | with_reducible assumption
    | with_reducible apply Device.yardUe_later

theorem Device.failBlock_later {a : Device} : ∀ x0 x1 x2, Device.Later a x0 → Device.Later a (@Device.failBlock x0 x1 x2) := by
  intro x0 x1 x2 h0
  unfold Device.failBlock
  repeat' first
    | with_reducible assumption
    | with_reducible apply Device.drainBlock_later
    | with_reducible apply Device.setSlice_later
    | with_reducible apply Device.tookFree_later
    | exact Slice.putBlock_wf (by assumption)
    | (intro (hh : Device.Later _ x); clear_value x)
    | intro _
    | split
    | (extract_lets -underBinder +onlyGivenNames x; with_reducible refine Device.Later.via x ?_ ?_; unfold x)
    | (extract_lets -underBinder +onlyGivenNames x; have : Slice := x; clear this)
    | (extract_lets -underBinder +onlyGivenNames x; clear_value x)

theorem Device.ueIssue_later {a : Device} : ∀ x0 x1 x2 x3 x4 x5 x6, Device.Later a x0 → (∀ y0 y1, Device.Later a y1 → Issue.Later a (x6 y0 y1)) → Device.Later a (@Device.ueIssue x0 x1 x2 x3 x4 x5 x6) := by
  intro x0 x1 x2 x3 x4 x5 x6 h0 h1
  unfold Device.ueIssue
  repeat' first
    | with_reducible assumption
    | with_reducible apply Device.issue_later
    | with_reducible apply Device.failBlock_later
    | with_reducible apply Device.Later.ite

theorem Device.ueLoad_later {a : Device} : ∀ x0 x1 x2 x3, Device.Later a x0 → Device.Later a (@Device.ueLoad x0 x1 x2 x3) := by
  intro x0 x1 x2 x3 h0
  unfold Device.ueLoad
  repeat' first
    | with_reducible assumption
    | with_reducible apply Device.ueIssue_later
    | with_reducible apply sldBody_later
    | with_reducible apply vldBody_later
    | with_reducible apply vldsBody_later
    | with_reducible apply Device.Later.ite

theorem Device.uePconv_later {a : Device} : ∀ x0 x1 x2 x3, Device.Later a x0 → Device.Later a (@Device.uePconv x0 x1 x2 x3) := by
  intro x0 x1 x2 x3 h0
  unfold Device.uePconv
  repeat' first
    | with_reducible assumption
    | with_reducible apply Device.ueIssue_later
    | with_reducible apply pconvBody_later
    | with_reducible apply Device.walkFails_later
    | with_reducible apply Device.readBlock_later
    | with_reducible apply Device.failBlock_later
    | with_reducible apply Device.Later.ite
    | split

theorem Device.pldwFails_later {a : Device} : ∀ x0 x1 x2 x3, Device.Later a x0 → Device.Later a (@Device.pldwFails x0 x1 x2 x3) := by
  intro x0 x1 x2 x3 h0
  unfold Device.pldwFails
  repeat' first
    | with_reducible assumption
    | with_reducible apply Device.meetUe_later
    | with_reducible apply Device.failBlock_later
    | with_reducible apply Device.modPens_later
    | with_reducible apply Device.trapCore_later
    | with_reducible apply Device.modSeq_later
    | split

theorem Device.cbldFails_later {a : Device} : ∀ x0 x1 x2 x3 x4, Device.Later a x0 → Device.Later a (@Device.cbldFails x0 x1 x2 x3 x4) := by
  intro x0 x1 x2 x3 x4 h0
  unfold Device.cbldFails
  repeat' first
    | with_reducible assumption
    | with_reducible apply Device.meetUe_later
    | with_reducible apply Device.failBlock_later
    | with_reducible apply Device.modTrough_later
    | with_reducible apply Device.trapCore_later
    | with_reducible apply Device.modSeq_later
    | split

theorem Device.passFails_later {a : Device} : ∀ x0 x1 x2 x3 x4, Device.Later a x0 → Device.Later a (@Device.passFails x0 x1 x2 x3 x4) := by
  intro x0 x1 x2 x3 x4 h0
  unfold Device.passFails
  repeat' first
    | with_reducible assumption
    | with_reducible apply Device.tookFree_later
    | with_reducible apply Device.meetUe_later
    | with_reducible apply Device.failBlock_later
    | with_reducible apply Device.abandonPass_later
    | with_reducible apply Device.readRows_later
    | with_reducible apply Device.modTrough_later
    | with_reducible refine Device.Later.of_eq (by with_reducible assumption) ?_
    | (intro (hh : Device.Later _ x); clear_value x)
    | split
    | (extract_lets -underBinder +onlyGivenNames x; with_reducible refine Device.Later.via x ?_ ?_; unfold x)
    | (extract_lets -underBinder +onlyGivenNames x; clear_value x)

theorem Device.lookupFails_later {a : Device} : ∀ x0 x1, Device.Later a x0 → Device.Later a (@Device.lookupFails x0 x1) := by
  intro x0 x1 h0
  unfold Device.lookupFails
  repeat' first
    | with_reducible assumption
    | with_reducible apply Device.modTrough_later
    | with_reducible apply Device.Later.ite
    | split

theorem Device.drainFails_later {a : Device} : ∀ x0 x1 x2, Device.Later a x0 → Device.Later a (@Device.drainFails x0 x1 x2) := by
  intro x0 x1 x2 h0
  unfold Device.drainFails
  repeat' first
    | with_reducible assumption
    | with_reducible apply Device.meetUe_later
    | with_reducible apply Device.modSlice_later
    | with_reducible apply Device.drainBlock_later
    | with_reducible exact Slice.putBlock_wf (by with_reducible assumption)
    | intro _
    | with_reducible apply Device.Later.ite
    | split

theorem Device.ueRead_later {a : Device} : ∀ x0 x1 x2 x3, Device.Later a x3 → Device.Later a (@Device.ueRead x0 x1 x2 x3) := by
  intro x0 x1 x2 x3 h0
  unfold Device.ueRead
  repeat' first
    | with_reducible assumption
    | with_reducible apply Device.ueLoad_later
    | with_reducible apply Device.pldwFails_later
    | with_reducible apply Device.passFails_later
    | with_reducible apply Device.modTrough_later
    | with_reducible apply Device.lookupFails_later
    | with_reducible apply Device.modSeq_later
    | with_reducible apply Device.uePconv_later
    | with_reducible apply Device.cbldFails_later
    | with_reducible apply Device.ueIssue_later
    | with_reducible apply imldBody_later
    | with_reducible apply haulBody_later
    | with_reducible apply tpassBody_later
    | with_reducible apply Device.failPiece_later
    | with_reducible apply Device.meetUe_later
    | with_reducible apply Device.failBlock_later
    | with_reducible apply Device.drainFails_later
    | with_reducible apply Device.Later.ite
    | split

theorem Device.mendBack_later {a : Device} : ∀ x0 x1, Device.Later a x1 → Device.Later a (@Device.mendBack x0 x1) := by
  intro x0 x1 h0
  unfold Device.mendBack
  repeat' first
    | with_reducible assumption
    | with_reducible apply Device.modSlice_later
    | with_reducible exact Slice.ask_wf (by with_reducible assumption)
    | exact Slice.putBlock_wf (by assumption)
    | intro _
    | split
    | (extract_lets -underBinder +onlyGivenNames x; have : Slice := x; clear this)

theorem Device.drainOldest_later {a : Device} : ∀ x0 x1, Device.Later a x1 → Device.Later a (@Device.drainOldest x0 x1) := by
  intro x0 x1 h0
  unfold Device.drainOldest
  repeat' first
    | with_reducible assumption
    | with_reducible apply Device.drainBlock_later
    | split

theorem Device.patrol_later {a : Device} : ∀ x0 x1, Device.Later a x1 → Device.Later a (@Device.patrol x0 x1) := by
  intro x0 x1 h0
  unfold Device.patrol
  repeat' first
    | with_reducible assumption
    | with_reducible apply Device.readBlock_later
    | with_reducible apply Device.askPorts_later
    | with_reducible apply Device.modSlice_later
    | intro _
    | with_reducible apply Device.Later.ite
    | split

theorem Device.installRemap_later {a : Device} : ∀ x0 x1 x2 x3 x4 x5, Device.Later a x0 → Device.Later a (@Device.installRemap x0 x1 x2 x3 x4 x5) := by
  intro x0 x1 x2 x3 x4 x5 h0
  unfold Device.installRemap
  repeat' first
    | with_reducible assumption
    | with_reducible apply Device.postDev_later
    | with_reducible apply Device.setSlice_later
    | with_reducible exact Slice.ask_wf (by with_reducible assumption)
    | intro _
    | with_reducible apply Device.Later.ite

theorem Device.softEntry_later {a : Device} : ∀ x0 x1 x2 x3 x4, Device.Later a x4 → Device.Later a (@Device.softEntry x0 x1 x2 x3 x4) := by
  intro x0 x1 x2 x3 x4 h0
  unfold Device.softEntry
  repeat' first
    | with_reducible assumption
    | with_reducible apply Device.installRemap_later
    | with_reducible apply Device.logFlash_later
    | fail_if_no_progress with_reducible refine Device.Later.upd ?_ rfl rfl rfl
    | with_reducible apply Device.Later.ite

theorem Device.softRemap_later {a : Device} : ∀ x0 x1 x2 x3 x4, Device.Later a x4 → Device.Later a (@Device.softRemap x0 x1 x2 x3 x4) := by
  intro x0 x1 x2 x3 x4 h0
  unfold Device.softRemap
  repeat' first
    | with_reducible assumption
    | with_reducible apply Device.softEntry_later
    | with_reducible apply Device.modSlice_later
    | intro _
    | with_reducible apply Device.Later.ite

theorem Device.clearDone_later {a : Device} : ∀ x0 x1, Device.Later a x1 → Device.Later a (@Device.clearDone x0 x1) := by
  intro x0 x1 h0
  unfold Device.clearDone
  repeat' first
    | with_reducible assumption
    | with_reducible apply Device.modSlice_later
    | with_reducible exact Slice.wipe_wf (by with_reducible assumption)
    | intro _
    | split

/-! ### ResetOps -/

theorem chansWf_mapAll {t : Table Chan} (f : Chan → Chan) (hf : ∀ k, (f k).lines = k.lines) (h : chansWf t = true) :
    chansWf (Table.mapAll t Chan.reset f) = true := by
  simp only [chansWf, Bool.and_eq_true, List.all_eq_true] at *
  refine ⟨Table.wf_mapAll _ h.1, ?_⟩
  intro kv hkv
  obtain ⟨x, hx, rfl⟩ := List.mem_map.mp (List.mem_filter.mp hkv).1
  simpa [hf] using h.2 x hx
theorem Device.resetDomains_later {a : Device} : ∀ x0, Device.Later a x0 → Device.Later a (@Device.resetDomains x0) := by
  intro d h
  refine h.trans ⟨⟨rfl, rfl, List.prefix_rfl, fun m => ?_, fun m => m⟩, rfl, fun _ => le_rfl⟩
  simp only [Device.memWf, Bool.and_eq_true] at m
  simp only [Device.memWf, Device.resetDomains, Bool.and_eq_true]
  exact ⟨rfl, chansWf_mapAll _ (fun _ => rfl) m.2⟩
theorem clearedSlice_wf (s : Slice) : Table.wf (Device.clearedSlice s).data Blk.reset = true := rfl

theorem Device.fenceCommon_later {a : Device} : ∀ x0 x1, Device.Later a x0 → Device.Later a (@Device.fenceCommon x0 x1) := by
  intro x0 x1 h0
  unfold Device.fenceCommon
  repeat' first
    | with_reducible assumption
    | with_reducible apply Device.modStall_later
    | with_reducible apply Device.modCore_later
    | with_reducible apply Device.closeWindows_later
    | with_reducible apply Device.disarmAll_later
    | with_reducible apply Device.modPdk_later
    | with_reducible apply Device.Later.foldl
    | intro _

theorem Device.dropSessions_later {a : Device} : ∀ x0 x1, Device.Later a x0 → Device.Later a (@Device.dropSessions x0 x1) := by
  intro x0 x1 h0
  unfold Device.dropSessions
  repeat' first
    | with_reducible assumption
    | with_reducible apply Device.modBinding_later
    | with_reducible apply Device.Later.foldl
    | intro _

theorem Device.openSessions_later {a : Device} : ∀ x0 x1, Device.Later a x0 → Device.Later a (@Device.openSessions x0 x1) := by
  intro x0 x1 h0
  unfold Device.openSessions
  repeat' first
    | with_reducible assumption
    | with_reducible apply Device.sessionOpen_later
    | with_reducible apply Device.Later.foldl

theorem Device.fenceUp_later {a : Device} : ∀ x0 x1, Device.Later a x0 → Device.Later a (@Device.fenceUp x0 x1) := by
  intro x0 x1 h0
  unfold Device.fenceUp
  repeat' first
    | with_reducible assumption
    | with_reducible apply Device.modPdk_later
    | with_reducible apply Device.dropSessions_later
    | with_reducible apply Device.fenceCommon_later

theorem Device.requestReset_later {a : Device} : ∀ x0 x1 x2, Device.Later a x0 → Device.Later a (@Device.requestReset x0 x1 x2) := by
  intro x0 x1 x2 h0
  unfold Device.requestReset
  repeat' first
    | with_reducible assumption
    | with_reducible apply Device.modPdk_later
    | with_reducible apply Device.fenceUp_later
    | with_reducible apply Device.Later.ite

theorem Device.keepCrash_later {a : Device} : ∀ x0 x1, Device.Later a x0 → Device.Later a (@Device.keepCrash x0 x1) := by
  intro x0 x1 h0
  unfold Device.keepCrash
  repeat' first
    | with_reducible assumption
    | fail_if_no_progress with_reducible refine Device.Later.upd ?_ rfl rfl rfl
    | with_reducible apply Device.Later.ite

theorem Device.hostCrash_later {a : Device} : ∀ x0 x1, Device.Later a x0 → Device.Later a (@Device.hostCrash x0 x1) := by
  intro x0 x1 h0
  unfold Device.hostCrash
  repeat' first
    | with_reducible assumption
    | with_reducible apply Device.emit_later
    | fail_if_no_progress with_reducible refine Device.Later.upd ?_ rfl rfl rfl
    | with_reducible apply Device.Later.ite

theorem Device.capturePdk_later {a : Device} : ∀ x0 x1, Device.Later a x0 → Device.Later a (@Device.capturePdk x0 x1) := by
  intro x0 x1 h0
  unfold Device.capturePdk
  repeat' first
    | with_reducible assumption
    | with_reducible apply Device.modPdk_later
    | with_reducible apply Device.hostCrash_later
    | with_reducible apply Device.keepCrash_later

theorem Device.dropCommand_later {a : Device} : ∀ x0 x1 x2 x3 x4, Device.Later a x0 → Device.Later a (@Device.dropCommand x0 x1 x2 x3 x4) := by
  intro x0 x1 x2 x3 x4 h0
  unfold Device.dropCommand
  repeat' first
    | with_reducible assumption
    | with_reducible apply Device.attachTo_later
    | with_reducible apply Device.unrefObj_later
    | with_reducible apply Device.unrefFence_later
    | with_reducible apply Device.dropHolds_later
    | with_reducible apply Device.Later.foldl
    | with_reducible apply Device.Later.ite

theorem Device.dropCommands_later {a : Device} : ∀ x0 x1 x2, Device.Later a x0 → Device.Later a (@Device.dropCommands x0 x1 x2) := by
  intro x0 x1 x2 h0
  unfold Device.dropCommands
  repeat' first
    | with_reducible assumption
    | with_reducible apply Device.dropCommand_later
    | with_reducible apply Device.modStallQ_later
    | with_reducible apply Device.Later.foldl
    | intro _

theorem Device.endJobs_later {a : Device} : ∀ x0 x1 x2, Device.Later a x0 → Device.Later a (@Device.endJobs x0 x1 x2) := by
  intro x0 x1 x2 h0
  unfold Device.endJobs
  repeat' first
    | with_reducible assumption
    | with_reducible apply Device.endJob_later
    | with_reducible apply Device.Later.tfoldl
    | intro _
    | with_reducible apply Device.Later.ite

theorem Device.completeBursts_later {a : Device} : ∀ x0 x1, Device.Later a x0 → Device.Later a (@Device.completeBursts x0 x1) := by
  intro x0 x1 h0
  unfold Device.completeBursts
  repeat' first
    | with_reducible assumption
    | with_reducible apply Device.writePriv_later
    | with_reducible apply Device.privFail_later
    | with_reducible refine SumLater.of_inl (by with_reducible assumption) ?_
    | with_reducible apply Device.Later.tfoldl
    | intro _
    | with_reducible apply Device.Later.ite
    | split

theorem Device.dropTraffic_later {a : Device} : ∀ x0 x1, Device.Later a x0 → Device.Later a (@Device.dropTraffic x0 x1) := by
  intro x0 x1 h0
  unfold Device.dropTraffic
  repeat' first
    | with_reducible assumption
    | with_reducible apply Device.completeBursts_later
    | with_reducible apply Device.dropPiece_later
    | with_reducible apply Device.setSkid_later
    | with_reducible apply Device.Later.foldl
    | with_reducible apply Device.Later.tfoldl
    | fail_if_no_progress with_reducible refine Device.Later.upd ?_ rfl rfl rfl
    | intro _
    | with_reducible apply Device.Later.ite

theorem Device.outStall_later {a : Device} : ∀ x0 x1, Device.Later a x0 → Device.Later a (@Device.outStall x0 x1) := by
  intro x0 x1 h0
  unfold Device.outStall
  repeat' first
    | with_reducible assumption
    | with_reducible apply Device.setOutQueue_later
    | with_reducible apply Device.emit_later
    | with_reducible apply Device.Later.ite

theorem Device.freeWindows_later {a : Device} : ∀ x0 x1, Device.Later a x0 → Device.Later a (@Device.freeWindows x0 x1) := by
  intro x0 x1 h0
  unfold Device.freeWindows
  repeat' first
    | with_reducible assumption
    | with_reducible apply Device.winFree_later
    | with_reducible apply Device.Later.tfoldl
    | intro _
    | with_reducible apply Device.Later.ite

theorem Device.freeStalls_later {a : Device} : ∀ x0 x1, Device.Later a x0 → Device.Later a (@Device.freeStalls x0 x1) := by
  intro x0 x1 h0
  unfold Device.freeStalls
  repeat' first
    | with_reducible assumption
    | with_reducible apply Device.modStall_later
    | with_reducible apply Device.Later.foldl
    | intro _

theorem Device.discardPdk_later {a : Device} : ∀ x0 x1 x2 x3, Device.Later a x0 → Device.Later a (@Device.discardPdk x0 x1 x2 x3) := by
  intro x0 x1 x2 x3 h0
  unfold Device.discardPdk
  repeat' first
    | with_reducible assumption
    | with_reducible apply Device.dropCommands_later
    | with_reducible apply Device.dropTraffic_later
    | with_reducible apply Device.idleAll_later
    | with_reducible apply Device.endJobs_later
    | with_reducible apply Device.freeWindows_later
    | with_reducible apply Device.outStall_later
    | with_reducible apply Device.postDev_later
    | with_reducible apply Device.Later.foldl
    | intro _

theorem Device.selfRefresh_later {a : Device} : ∀ x0 x1, Device.Later a x0 → Device.Later a (@Device.selfRefresh x0 x1) := by
  intro x0 x1 h0
  unfold Device.selfRefresh
  repeat' first
    | with_reducible assumption
    | with_reducible apply Device.modChan_later
    | intro _
    | split

theorem Device.beginTraining_later {a : Device} : ∀ x0 x1, Device.Later a x0 → Device.Later a (@Device.beginTraining x0 x1) := by
  intro x0 x1 h0
  unfold Device.beginTraining
  repeat' first
    | with_reducible assumption
    | with_reducible apply Device.modChan_later
    | intro _
    | split

theorem Device.clearCores_later {a : Device} : ∀ x0 x1, Device.Later a x0 → Device.Later a (@Device.clearCores x0 x1) := by
  intro x0 x1 h0
  unfold Device.clearCores
  repeat' first
    | with_reducible assumption
    | with_reducible apply Device.setSlice_later
    | with_reducible apply Device.setCore_later
    | exact clearedSlice_wf _
    | with_reducible apply Device.Later.foldl
    | fail_if_no_progress with_reducible refine Device.Later.upd ?_ rfl rfl rfl
    | intro _

theorem Device.killObj_later {a : Device} : ∀ x0 x1, Device.Later a x0 → Device.Later a (@Device.killObj x0 x1) := by
  intro x0 x1 h0
  unfold Device.killObj
  repeat' first
    | with_reducible assumption
    | with_reducible apply Device.setObj_later
    | fail_if_no_progress with_reducible refine Device.Later.upd ?_ rfl rfl rfl

theorem Device.killObjs_later {a : Device} : ∀ x0 x1 x2, Device.Later a x0 → Device.Later a (@Device.killObjs x0 x1 x2) := by
  intro x0 x1 x2 h0
  unfold Device.killObjs
  repeat' first
    | with_reducible assumption
    | with_reducible apply Device.killObj_later
    | with_reducible apply Device.Later.tfoldl
    | intro _
    | with_reducible apply Device.Later.ite

theorem Device.dropAtc_later {a : Device} : ∀ x0 x1, Device.Later a x0 → Device.Later a (@Device.dropAtc x0 x1) := by
  intro x0 x1 h0
  unfold Device.dropAtc
  repeat' first
    | with_reducible assumption
    | with_reducible apply Device.notify_later
    | fail_if_no_progress with_reducible refine Device.Later.upd ?_ rfl rfl rfl

theorem Device.clearPdk_later {a : Device} : ∀ x0 x1, Device.Later a x0 → Device.Later a (@Device.clearPdk x0 x1) := by
  intro x0 x1 h0
  unfold Device.clearPdk
  repeat' first
    | with_reducible assumption
    | with_reducible apply Device.dropAtc_later
    | with_reducible apply Device.selfRefresh_later
    | with_reducible apply Device.killObjs_later
    | with_reducible apply Device.modPdk_later
    | with_reducible apply Device.clearCores_later
    | with_reducible apply Device.Later.foldl

theorem Device.draw_later {a : Device} : ∀ x0, Device.Later a x0 → Device.Later a (@Device.draw x0).1 := by
  intro x0 h0
  unfold Device.draw
  repeat' first
    | with_reducible assumption
    | fail_if_no_progress with_reducible refine Device.Later.upd ?_ rfl rfl rfl

theorem Device.newMemKey_later {a : Device} : ∀ x0 x1, Device.Later a x0 → Device.Later a (@Device.newMemKey x0 x1) := by
  intro x0 x1 h0
  unfold Device.newMemKey
  repeat' first
    | with_reducible assumption
    | with_reducible apply Device.modPdkSec_later
    | with_reducible apply Device.draw_later
    | with_reducible apply Device.Later.ite

theorem Device.newIntake_later {a : Device} : ∀ x0 x1, Device.Later a x0 → Device.Later a (@Device.newIntake x0 x1) := by
  intro x0 x1 h0
  unfold Device.newIntake
  repeat' first
    | with_reducible assumption
    | with_reducible apply Device.modPdkSec_later
    | with_reducible apply Device.draw_later
    | with_reducible apply Device.Later.ite

theorem Device.memoryLost_later {a : Device} : ∀ x0 x1, Device.Later a x0 → Device.Later a (@Device.memoryLost x0 x1) := by
  intro x0 x1 h0
  unfold Device.memoryLost
  repeat' first
    | with_reducible assumption
    | with_reducible apply Device.postDev_later
    | with_reducible apply Device.modPdk_later

theorem Device.loseMemory_later {a : Device} : ∀ x0 x1, Device.Later a x0 → Device.Later a (@Device.loseMemory x0 x1) := by
  intro x0 x1 h0
  unfold Device.loseMemory
  repeat' first
    | with_reducible assumption
    | with_reducible apply Device.modPdkSec_later
    | with_reducible apply Device.killObjs_later
    | with_reducible apply Device.newMemKey_later
    | with_reducible apply Device.memoryLost_later
    | fail_if_no_progress with_reducible refine Device.Later.upd ?_ rfl rfl rfl
    | with_reducible apply Device.Later.ite

theorem Device.outOfService_later {a : Device} : ∀ x0 x1, Device.Later a x0 → Device.Later a (@Device.outOfService x0 x1) := by
  intro x0 x1 h0
  unfold Device.outOfService
  repeat' first
    | with_reducible assumption
    | with_reducible apply Device.modPdk_later
    | with_reducible apply Device.freeStalls_later
    | with_reducible apply Device.postDev_later

theorem Device.dropOutCommands_later {a : Device} : ∀ x0 x1 x2, Device.Later a x0 → Device.Later a (@Device.dropOutCommands x0 x1 x2) := by
  intro x0 x1 x2 h0
  unfold Device.dropOutCommands
  repeat' first
    | with_reducible assumption
    | with_reducible apply Device.dropCommand_later
    | with_reducible apply Device.modOutQueue_later
    | with_reducible apply Device.Later.foldl
    | with_reducible apply Device.Later.tfoldl
    | intro _
    | with_reducible apply Device.Later.ite

theorem Device.beginRemoval_later {a : Device} : ∀ x0 x1, Device.Later a x0 → Device.Later a (@Device.beginRemoval x0 x1) := by
  intro x0 x1 h0
  unfold Device.beginRemoval
  repeat' first
    | with_reducible assumption
    | with_reducible apply Device.modPdkSec_later
    | with_reducible apply Device.fenceCommon_later
    | with_reducible apply Device.dropOutCommands_later
    | with_reducible apply Device.dropCommands_later
    | with_reducible apply Device.idleAll_later
    | with_reducible apply Device.endJobs_later
    | with_reducible apply Device.Later.foldl
    | intro _

theorem Device.requestRemoval_later {a : Device} : ∀ x0 x1, Device.Later a x0 → Device.Later a (@Device.requestRemoval x0 x1) := by
  intro x0 x1 h0
  unfold Device.requestRemoval
  repeat' first
    | with_reducible assumption
    | with_reducible apply Device.modPdkSec_later
    | with_reducible apply Device.beginRemoval_later
    | with_reducible apply Device.modPdk_later
    | with_reducible apply Device.Later.ite

theorem Device.runTests_later {a : Device} : ∀ x0 x1, Device.Later a x0 → Device.Later a (@Device.runTests x0 x1) := by
  intro x0 x1 h0
  unfold Device.runTests
  repeat' first
    | with_reducible assumption
    | with_reducible apply Device.installRemap_later
    | with_reducible apply Device.softEntry_later
    | with_reducible apply Device.Later.foldl
    | fail_if_no_progress with_reducible refine Device.Later.upd ?_ rfl rfl rfl
    | intro _

theorem Device.fenceAll_later {a : Device} : ∀ x0, Device.Later a x0 → Device.Later a (@Device.fenceAll x0) := by
  intro x0 h0
  unfold Device.fenceAll
  repeat' first
    | with_reducible assumption
    | with_reducible apply Device.modPdkSec_later
    | with_reducible apply Device.fenceUp_later
    | with_reducible apply Device.modPdk_later
    | with_reducible apply Device.Later.foldl
    | (intro (hh : Device.Later _ x); clear_value x)
    | intro _
    | split
    | (extract_lets -underBinder +onlyGivenNames x; with_reducible refine Device.Later.via x ?_ ?_; unfold x)

theorem Device.requestDevReset_later {a : Device} : ∀ x0 x1, Device.Later a x0 → Device.Later a (@Device.requestDevReset x0 x1) := by
  intro x0 x1 h0
  unfold Device.requestDevReset
  repeat' first
    | with_reducible assumption
    | with_reducible apply Device.fenceAll_later
    | fail_if_no_progress with_reducible refine Device.Later.upd ?_ rfl rfl rfl
    | with_reducible apply Device.Later.ite

theorem Device.captureDev_later {a : Device} : ∀ x0 x1 x2, Device.Later a x0 → Device.Later a (@Device.captureDev x0 x1 x2) := by
  intro x0 x1 x2 h0
  unfold Device.captureDev
  repeat' first
    | with_reducible assumption
    | with_reducible apply Device.keepCrash_later
    | fail_if_no_progress with_reducible refine Device.Later.upd ?_ rfl rfl rfl

theorem Device.restartPdk_later {a : Device} : ∀ x0 x1, Device.Later a x0 → Device.Later a (@Device.restartPdk x0 x1) := by
  intro x0 x1 h0
  unfold Device.restartPdk
  repeat' first
    | with_reducible assumption
    | with_reducible apply Device.newMemKey_later
    | with_reducible apply Device.modPdkSec_later
    | with_reducible apply Device.newIntake_later
    | with_reducible apply Device.modPdk_later
    | with_reducible apply Device.Later.ite

theorem Device.resetDevice_later {a : Device} : ∀ x0 x1 x2, Device.Later a x2 → Device.Later a (@Device.resetDevice x0 x1 x2) := by
  intro x0 x1 x2 h0
  unfold Device.resetDevice
  repeat' first
    | with_reducible assumption
    | with_reducible apply Device.fenceAll_later
    | with_reducible apply Device.captureDev_later
    | with_reducible apply Device.completeBursts_later
    | with_reducible apply Device.discardPdk_later
    | with_reducible apply Device.enterHoldover_later
    | with_reducible apply Device.selfRefresh_later
    | with_reducible apply Device.disarmAll_later
    | with_reducible apply Device.resetDomains_later
    | with_reducible apply Device.runTests_later
    | with_reducible apply Device.restartPdk_later
    | with_reducible apply Device.beginTraining_later
    | with_reducible apply Device.Later.foldl
    | fail_if_no_progress with_reducible refine Device.Later.upd ?_ rfl rfl rfl
    | with_reducible apply Device.modTally_later
    | with_reducible rfl
    | exact fun _ => le_rfl
    | exact fun m => m
    | intro _
    | with_reducible apply Device.Later.ite

theorem Device.enterService_later {a : Device} : ∀ x0 x1, Device.Later a x0 → Device.Later a (@Device.enterService x0 x1) := by
  intro x0 x1 h0
  unfold Device.enterService
  repeat' first
    | with_reducible assumption
    | with_reducible apply Device.openSessions_later
    | with_reducible apply Device.modPdk_later
    | with_reducible apply Device.Later.ite

theorem Device.restoreSeg_later {a : Device} : ∀ x0 x1, Device.Later a x0 → Device.Later a (@Device.restoreSeg x0 x1) := by
  intro x0 x1 h0
  unfold Device.restoreSeg
  repeat' first
    | with_reducible assumption
    | with_reducible apply Device.setObj_later
    | fail_if_no_progress with_reducible refine Device.Later.upd ?_ rfl rfl rfl
    | split

theorem Device.restorePdk_later {a : Device} : ∀ x0 x1, Device.Later a x0 → Device.Later a (@Device.restorePdk x0 x1) := by
  intro x0 x1 h0
  unfold Device.restorePdk
  repeat' first
    | with_reducible assumption
    | with_reducible apply Device.restoreSeg_later
    | with_reducible apply Device.memoryLost_later
    | with_reducible apply Device.Later.foldl
    | with_reducible apply Device.Later.ite

theorem Device.setReady_later {a : Device} : ∀ x0, Device.Later a x0 → Device.Later a (@Device.setReady x0) := by
  intro x0 h0
  unfold Device.setReady
  repeat' first
    | with_reducible assumption
    | with_reducible apply Device.postDev_later
    | fail_if_no_progress with_reducible refine Device.Later.upd ?_ rfl rfl rfl

theorem Device.readyAfterReset_later {a : Device} : ∀ x0 x1, Device.Later a x1 → Device.Later a (@Device.readyAfterReset x0 x1) := by
  intro x0 x1 h0
  unfold Device.readyAfterReset
  repeat' first
    | with_reducible assumption
    | with_reducible apply Device.setReady_later
    | with_reducible apply Device.enterService_later
    | with_reducible apply Device.hostCrash_later
    | with_reducible apply Device.restorePdk_later
    | with_reducible apply Device.Later.foldl
    | fail_if_no_progress with_reducible refine Device.Later.upd ?_ rfl rfl rfl
    | with_reducible apply Device.Later.ite

end Sys2Proof.Machine
end

