-- ==== Sys2Proof/Laws/LaterCores.lean ====
section
/-! SUPPORT. The relation `Device.Later`, one lemma per operation: start, commands, control flow, registers of a core, flash. -/

set_option linter.unusedTactic false
set_option linter.unreachableTactic false

namespace Sys2Proof.Machine

/-! ### BootUnit -/

theorem Device.armFirmware_later {a : Device} : ∀ x0, Device.Later a x0 → Device.Later a (@Device.armFirmware x0) := by
  intro x0 h0
  unfold Device.armFirmware
  repeat' first
    | with_reducible assumption
    | with_reducible refine Device.arm_later _ _ _ _ _ _ _ _ ?_ _ _ (by with_reducible assumption)
    | with_reducible apply Device.Later.foldl
    | fail_if_no_progress with_reducible refine Device.Later.upd ?_ rfl rfl rfl
    | intro _
    | with_reducible apply Device.Later.ite
    | split

theorem Device.startEntropy_later {a : Device} : ∀ x0 x1, Device.Later a x1 → Device.Later a (@Device.startEntropy x0 x1) := by
  intro x0 x1 h0
  unfold Device.startEntropy
  repeat' first
    | with_reducible assumption
    | with_reducible apply Device.platform_later
    | fail_if_no_progress with_reducible refine Device.Later.upd ?_ rfl rfl rfl
    | with_reducible apply Device.Later.ite

theorem Device.startPdk_later {a : Device} : ∀ x0 x1, Device.Later a x0 → Device.Later a (@Device.startPdk x0 x1) := by
  intro x0 x1 h0
  unfold Device.startPdk
  repeat' first
    | with_reducible assumption
    | with_reducible apply Device.newIntake_later
    | with_reducible apply Device.newMemKey_later
    | with_reducible apply Device.modPdk_later

theorem Device.trainAll_later {a : Device} : ∀ x0, Device.Later a x0 → Device.Later a (@Device.trainAll x0) := by
  intro x0 h0
  unfold Device.trainAll
  repeat' first
    | with_reducible assumption
    | with_reducible apply Device.beginTraining_later
    | with_reducible apply Device.startPdk_later
    | with_reducible apply Device.Later.foldl
    | intro _
    | with_reducible apply Device.Later.ite

theorem Device.atStage8_later {a : Device} : ∀ x0, Device.Later a x0 → Device.Later a (@Device.atStage8 x0) := by
  intro x0 h0
  unfold Device.atStage8
  repeat' first
    | with_reducible assumption
    | fail_if_no_progress with_reducible refine Device.Later.upd ?_ rfl rfl rfl

theorem Device.startReady_later {a : Device} : ∀ x0 x1, Device.Later a x1 → Device.Later a (@Device.startReady x0 x1) := by
  intro x0 x1 h0
  unfold Device.startReady
  repeat' first
    | with_reducible assumption
    | with_reducible apply Device.setReady_later
    | with_reducible apply Device.enterService_later
    | with_reducible apply Device.platform_later
    | with_reducible apply Device.Later.foldl
    | fail_if_no_progress with_reducible refine Device.Later.upd ?_ rfl rfl rfl
    | with_reducible apply Device.modTally_later
    | with_reducible rfl
    | exact fun _ => le_rfl
    | exact fun m => m
    | with_reducible apply Device.Later.ite

/-! ### CommandUnit -/

theorem Device.instant_later {a : Device} : ∀ x0 x1 x2 x3 x4, Device.Later a x4 → Device.Later a (@Device.instant x0 x1 x2 x3 x4) := by
  intro x0 x1 x2 x3 x4 h0
  unfold Device.instant
  repeat' first
    | with_reducible assumption
    | with_reducible apply Device.startNext_later
    | with_reducible apply Device.takeIf_later
    | with_reducible apply Device.finishCmd_later
    | intro _
    | with_reducible apply Device.Later.ite

theorem Device.readyJob_later {a : Device} : ∀ x0 x1, Device.Later a x1 → Device.Later a (@Device.readyJob x0 x1) := by
  intro x0 x1 h0
  unfold Device.readyJob
  repeat' first
    | with_reducible assumption
    | with_reducible apply Device.activate_later
    | with_reducible apply Device.modCmd_later
    | with_reducible apply Device.consider_later
    | with_reducible apply Device.setJob_later
    | fail_if_no_progress with_reducible refine Device.Later.upd ?_ rfl rfl rfl
    | with_reducible apply Device.Later.ite
    | split

theorem Device.signalNow_later {a : Device} : ∀ x0 x1 x2, Device.Later a x1 → Device.Later a (@Device.signalNow x0 x1 x2) := by
  intro x0 x1 x2 h0
  unfold Device.signalNow
  repeat' first
    | with_reducible assumption
    | with_reducible apply Device.finishCmd_later
    | with_reducible apply Device.signalFence_later
    | with_reducible apply Device.commandRecord_later
    | with_reducible apply Device.Later.ite
    | split
    | (extract_lets -underBinder +onlyGivenNames x; clear_value x)

theorem Device.releaseWait_later {a : Device} : ∀ x0 x1, Device.Later a x1 → Device.Later a (@Device.releaseWait x0 x1) := by
  intro x0 x1 h0
  unfold Device.releaseWait
  repeat' first
    | with_reducible assumption
    | with_reducible apply Device.finishCmd_later
    | split

theorem Device.landChunk_later {a : Device} : ∀ x0 x1 x2 x3, Device.Later a x0 → SumLater a (@Device.landChunk x0 x1 x2 x3) := by
  intro x0 x1 x2 x3 h0
  unfold Device.landChunk
  repeat' first
    | with_reducible assumption
    | with_reducible apply Device.landBytes_later
    | with_reducible apply Device.writePriv_later
    | with_reducible apply SumLater.inl
    | with_reducible apply SumLater.inr
    | with_reducible refine SumLater.of_inl (by with_reducible assumption) ?_
    | split
    | (extract_lets -underBinder +onlyGivenNames x; clear_value x)

theorem Device.completeNext_later {a : Device} : ∀ x0 x1, Device.Later a x1 → Device.Later a (@Device.completeNext x0 x1) := by
  intro x0 x1 h0
  unfold Device.completeNext
  repeat' first
    | with_reducible assumption
    | with_reducible apply Device.completeCmd_later
    | with_reducible apply Device.Later.ite
    | split

theorem Device.landRefused_later {a e : Device} {code : Code} (d : Device) (s : Nat) (m : Cmd) (bs : List Byte)
    (q : d.landChunk s m bs = .inr (e, code)) (h : Device.Later a d) : Device.Later a e := by
  unfold Device.landChunk at q
  dsimp only at q
  split at q
  · cases q
  · split at q
    · cases q; exact h
    · split at q
      · cases q
      · cases q; exact Device.privFail_later _ _ _ _ _ h
  · cases q
theorem Device.takeChunk_later {a : Device} (s : Nat) (c : IntakeChunk) (d : Device) (h : Device.Later a d) :
    Device.Later a (Device.takeChunk s c d) := by
  unfold Device.takeChunk
  refine Device.Later.ite h ?_
  split
  · exact h
  · refine Device.Later.ite h (Device.Later.ite (Device.failCommand_later _ _ _ _ h) ?_)
    split
    · next q => exact Device.failCommand_later _ _ _ _ (Device.landRefused_later _ _ _ _ q h)
    · next e q =>
      have k : Device.Later a e := SumLater.of_inl q (Device.landChunk_later _ _ _ _ h)
      exact Device.Later.ite (Device.finishCmd_later _ _ _ _ _ (Device.modCmd_later _ _ _ _ (k.same rfl rfl rfl rfl rfl rfl rfl rfl)))
        (Device.modCmd_later _ _ _ _ (k.same rfl rfl rfl rfl rfl rfl rfl rfl))

/-! ### Control -/

theorem Device.dispatch_later {a : Device} : ∀ x0 x1, Device.Later a x1 → Device.Later a (@Device.dispatch x0 x1) := by
  intro x0 x1 h0
  unfold Device.dispatch
  repeat' first
    | with_reducible assumption
    | with_reducible apply Device.trapCore_later
    | with_reducible apply Device.modCore_later
    | with_reducible apply Device.Later.ite
    | split
    | (extract_lets -underBinder +onlyGivenNames x; clear_value x)

theorem nopStep_later {a : Device} : ∀ x0 x1 x2, Device.Later a x2 → Device.Later a (@nopStep x0 x1 x2) := by
  intro x0 x1 x2 h0
  unfold nopStep
  repeat' first
    | with_reducible assumption
    | with_reducible apply Device.trapCore_later
    | with_reducible apply Device.Later.ite
    | split

theorem brBody_later {a : Device} : ∀ x0 x1 x2, Device.Later a x2 → Issue.Later a (@brBody x0 x1 x2) := by
  intro x0 x1 x2 h0
  unfold brBody
  repeat' first
    | with_reducible assumption
    | with_reducible apply Device.modSeq_later
    | with_reducible apply Issue.Later.ok
    | with_reducible apply Issue.Later.ite

theorem loopBody_later {a : Device} : ∀ x0 x1 x2, Device.Later a x2 → Issue.Later a (@loopBody x0 x1 x2) := by
  intro x0 x1 x2 h0
  unfold loopBody
  repeat' first
    | with_reducible assumption
    | with_reducible apply Device.modSeq_later
    | with_reducible apply Issue.Later.ok
    | with_reducible apply Issue.Later.trap
    | with_reducible apply Issue.Later.ite

theorem ysyncBody_later {a : Device} : ∀ x0 x1 x2, Device.Later a x2 → Issue.Later a (@ysyncBody x0 x1 x2) := by
  intro x0 x1 x2 h0
  unfold ysyncBody
  repeat' first
    | with_reducible assumption
    | with_reducible apply Device.drainAll_later
    | with_reducible apply Device.modSeq_later
    | with_reducible apply Issue.Later.ok
    | with_reducible apply Issue.Later.wait
    | with_reducible apply Issue.Later.ite
    | with_reducible apply Device.Later.ite

theorem settleYield_later {a : Device} : ∀ x0 x1, Device.Later a x0 → Device.Later a (@settleYield x0 x1) := by
  intro x0 x1 h0
  unfold settleYield
  repeat' first
    | with_reducible assumption
    | with_reducible apply Device.setJob_later
    | with_reducible apply Device.modCore_later
    | with_reducible apply Device.Later.foldl
    | intro _
    | with_reducible apply Device.Later.ite
    | split

theorem Device.jobProgress_later {a : Device} : ∀ x0 x1, Device.Later a x0 → Device.Later a (@Device.jobProgress x0 x1) := by
  intro x0 x1 h0
  unfold Device.jobProgress
  repeat' first
    | with_reducible assumption
    | with_reducible apply Device.progress_later
    | split

theorem Device.yieldCore_later {a : Device} : ∀ x0 x1, Device.Later a x1 → Device.Later a (@Device.yieldCore x0 x1) := by
  intro x0 x1 h0
  unfold Device.yieldCore
  repeat' first
    | with_reducible assumption
    | with_reducible apply Device.traceRec_later
    | with_reducible apply Device.drainAll_later
    | with_reducible apply Device.pauseRounds_later
    | with_reducible apply Device.dropWait_later
    | with_reducible apply Device.endPhase_later
    | with_reducible apply Device.modCore_later
    | with_reducible apply settleYield_later
    | with_reducible apply Device.setJob_later
    | with_reducible apply Device.consider_later
    | fail_if_no_progress with_reducible refine Device.Later.upd ?_ rfl rfl rfl
    | with_reducible apply Device.Later.ite
    | split

theorem Device.lend_later {a : Device} : ∀ x0 x1 x2 x3, Device.Later a x0 → Device.Later a (@Device.lend x0 x1 x2 x3) := by
  intro x0 x1 x2 x3 h0
  unfold Device.lend
  repeat' first
    | with_reducible assumption
    | with_reducible apply Device.calmCore_later
    | with_reducible apply Device.setJob_later
    | with_reducible apply Device.requestPreempt_later
    | with_reducible apply Device.Later.foldl
    | intro _
    | with_reducible apply Device.Later.ite
    | split
    | (extract_lets -underBinder +onlyGivenNames x; clear_value x)

theorem waitAt_later {a : Device} : ∀ x0 x1 x2 x3, Device.Later a x3 → Device.Later a (@waitAt x0 x1 x2 x3) := by
  intro x0 x1 x2 x3 h0
  unfold waitAt
  repeat' first
    | with_reducible assumption
    | with_reducible apply Device.modCore_later

theorem musterBody_later {a : Device} : ∀ x0 x1 x2, Device.Later a x2 → Issue.Later a (@musterBody x0 x1 x2) := by
  intro x0 x1 x2 h0
  unfold musterBody
  repeat' first
    | with_reducible assumption
    | with_reducible apply waitAt_later
    | with_reducible apply Device.setJob_later
    | with_reducible apply Device.stepArrive_later
    | with_reducible apply Device.arriveRound_later
    | with_reducible apply Issue.Later.wait
    | with_reducible apply Issue.Later.trap
    | with_reducible apply Issue.Later.ite
    | split

theorem musterStep_later {a : Device} : ∀ x0 x1, Device.Later a x1 → Device.Later a (@musterStep x0 x1) := by
  intro x0 x1 h0
  unfold musterStep
  repeat' first
    | with_reducible assumption
    | with_reducible apply Device.issue_later
    | with_reducible apply musterBody_later
    | with_reducible apply Device.traceRec_later
    | with_reducible apply Device.modCore_later
    | with_reducible apply Device.Later.ite

theorem leadRelease_later {a : Device} : ∀ x0 x1 x2, Device.Later a x2 → Device.Later a (@leadRelease x0 x1 x2) := by
  intro x0 x1 x2 h0
  unfold leadRelease
  repeat' first
    | with_reducible assumption
    | with_reducible apply Device.releaseRound_later
    | with_reducible apply Device.Later.foldl
    | intro _
    | with_reducible apply Device.Later.ite
    | split

theorem musterTimeout_later {a : Device} : ∀ x0 x1, Device.Later a x0 → Device.Later a (@musterTimeout x0 x1) := by
  intro x0 x1 h0
  unfold musterTimeout
  repeat' first
    | with_reducible assumption
    | with_reducible apply Device.endJob_later
    | with_reducible apply Device.postQueue_later
    | split

theorem musterDeadline_later {a : Device} : ∀ x0 x1, Device.Later a x1 → Device.Later a (@musterDeadline x0 x1) := by
  intro x0 x1 h0
  unfold musterDeadline
  repeat' first
    | with_reducible assumption
    | with_reducible apply Device.fired_later
    | with_reducible apply Device.rearmMuster_later
    | with_reducible apply musterTimeout_later
    | with_reducible apply Device.Later.foldl
    | with_reducible apply Device.Later.ite

theorem fsignalBody_later {a : Device} : ∀ x0 x1 x2, Device.Later a x2 → Issue.Later a (@fsignalBody x0 x1 x2) := by
  intro x0 x1 x2 h0
  unfold fsignalBody
  repeat' first
    | with_reducible assumption
    | with_reducible apply Device.modSeq_later
    | with_reducible apply Device.signalFence_later
    | with_reducible apply Issue.Later.ok
    | split
    | (extract_lets -underBinder +onlyGivenNames x; clear_value x)

theorem beginPhase_later {a : Device} : ∀ x0 x1 x2, Device.Later a x0 → Device.Later a (@beginPhase x0 x1 x2) := by
  intro x0 x1 x2 h0
  unfold beginPhase
  repeat' first
    | with_reducible assumption
    | with_reducible apply Device.learn_later
    | with_reducible apply Device.modCore_later
    | with_reducible apply Device.lowerTo_later
    | with_reducible apply Device.decideStep_later
    | fail_if_no_progress with_reducible refine Device.Later.upd ?_ rfl rfl rfl
    | with_reducible apply Device.Later.ite
    | split

theorem announcedPhases_later {a : Device} : ∀ x0, Device.Later a x0 → Device.Later a (@announcedPhases x0) := by
  intro x0 h0
  unfold announcedPhases
  repeat' first
    | with_reducible assumption
    | with_reducible apply Device.modCore_later
    | with_reducible apply Device.Later.foldl
    | intro _
    | split

theorem prepare_later {a : Device} : ∀ x0 x1, Device.Later a x0 → Device.Later a (@prepare x0 x1) := by
  intro x0 x1 h0
  unfold prepare
  repeat' first
    | with_reducible assumption
    | fail_if_no_progress with_reducible refine Device.Later.upd ?_ rfl rfl rfl

theorem phaseBody_later {a : Device} : ∀ x0 x1 x2, Device.Later a x2 → Issue.Later a (@phaseBody x0 x1 x2) := by
  intro x0 x1 x2 h0
  unfold phaseBody
  repeat' first
    | with_reducible assumption
    | with_reducible apply Device.announce_later
    | with_reducible apply Device.forgetAnnounced_later
    | with_reducible apply beginPhase_later
    | with_reducible refine Device.arm_later _ _ _ _ _ _ _ _ ?_ _ _ (by with_reducible assumption)
    | with_reducible apply prepare_later
    | with_reducible apply Device.modCore_later
    | with_reducible apply Issue.Later.ok
    | with_reducible apply Issue.Later.ite
    | split

theorem haltBody_later {a : Device} (c : Nat) (x : QInstr) (d : Device) (h : Device.Later a d) : Issue.Later a (haltBody c x d) := by
  unfold haltBody
  extract_lets q e
  have he : Device.Later a e := Device.modSeq_later _ _ _ (Device.drainAll_later _ _ h)
  refine Issue.Later.ite (.wait h) ?_
  split
  · exact .ok he
  · extract_lets f
    have hf : Device.Later a f := Device.setJob_later _ _ _ (Device.progress_later _ _ he)
    exact .ok (Device.Later.ite (Device.endJob_later _ _ _ hf) (settleYield_later _ _ hf))
theorem kerfBody_later {a : Device} (c : Nat) (x : QInstr) (d : Device) (h : Device.Later a d) : Issue.Later a (kerfBody c x d) := by
  unfold kerfBody
  extract_lets q
  exact Issue.Later.ite (.ok (Device.jobProgress_later _ _ (Device.modSeq_later _ _ _ h)))
    (Issue.Later.ite (.ok (Device.modSeq_later _ _ _ h)) (.ok (Device.jobProgress_later _ _ (Device.modSeq_later _ _ _ h))))
theorem fwaitBody_later {a : Device} (c : Nat) (x : QInstr) (d : Device) (h : Device.Later a d) : Issue.Later a (fwaitBody c x d) := by
  unfold fwaitBody
  extract_lets q w
  cases d.findFence (d.ctxOf c) w with
  | none => exact .ok (Device.modSeq_later _ _ _ h)
  | some i =>
    dsimp only
    cases d.waitDone i (q.sop (fBb x.word)) with
    | some code => exact .ok (Device.dropWait_later _ _ (Device.modSeq_later _ _ _ h))
    | none =>
      dsimp only
      have k : Device.Later a (d.holdWait c i) := Device.holdWait_later _ _ _ h
      generalize d.holdWait c i = e at k ⊢
      cases e.jobOf c with
      | none => exact .wait k
      | some p =>
        dsimp only
        cases semOn e p.2.paddock w with
        | none => exact .wait k
        | some n => exact .wait (Device.lend_later _ _ _ _ k)

/-! ### CoreRegs -/

theorem Device.takeTicket_later {a : Device} : ∀ x0 x1 x2 x3, Device.Later a x3 → Issue.Later a (@Device.takeTicket x0 x1 x2 x3) := by
  intro x0 x1 x2 x3 h0
  unfold Device.takeTicket
  repeat' first
    | with_reducible assumption
    | with_reducible apply Device.setSem_later
    | with_reducible apply Device.setJob_later
    | with_reducible apply Device.modSeq_later
    | with_reducible apply Issue.Later.ok
    | with_reducible apply Device.illegal_later
    | with_reducible apply Issue.Later.ite
    | split

theorem Device.releaseOne_later {a : Device} : ∀ x0 x1 x2 x3, Device.Later a x3 → Issue.Later a (@Device.releaseOne x0 x1 x2 x3) := by
  intro x0 x1 x2 x3 h0
  unfold Device.releaseOne
  repeat' first
    | with_reducible assumption
    | with_reducible apply Device.setJob_later
    | with_reducible apply Device.endLoan_later
    | with_reducible apply Device.releaseTicket_later
    | with_reducible apply Device.consider_later
    | with_reducible apply Issue.Later.ok
    | with_reducible apply Device.illegal_later
    | with_reducible apply Device.Later.ite
    | split

theorem Device.setChuteMode_later {a : Device} : ∀ x0 x1 x2 x3, Device.Later a x3 → Issue.Later a (@Device.setChuteMode x0 x1 x2 x3) := by
  intro x0 x1 x2 x3 h0
  unfold Device.setChuteMode
  repeat' first
    | with_reducible assumption
    | with_reducible apply Device.setChute_later
    | with_reducible apply Issue.Later.ok
    | with_reducible apply Issue.Later.trap
    | with_reducible apply Issue.Later.ite

theorem Device.setChain_later {a : Device} : ∀ x0 x1 x2 x3, Device.Later a x3 → Issue.Later a (@Device.setChain x0 x1 x2 x3) := by
  intro x0 x1 x2 x3 h0
  unfold Device.setChain
  repeat' first
    | with_reducible assumption
    | with_reducible apply Device.modCore_later
    | with_reducible apply Issue.Later.ok
    | with_reducible apply Device.illegal_later
    | with_reducible apply Issue.Later.ite

theorem Device.setStepArea_later {a : Device} : ∀ x0 x1 x2 x3, Device.Later a x3 → Issue.Later a (@Device.setStepArea x0 x1 x2 x3) := by
  intro x0 x1 x2 x3 h0
  unfold Device.setStepArea
  repeat' first
    | with_reducible assumption
    | with_reducible apply Device.modCore_later
    | with_reducible apply Issue.Later.ok
    | with_reducible apply Device.illegal_later
    | with_reducible apply Issue.Later.ite

theorem Device.ackHalt_later {a : Device} : ∀ x0 x1 x2, Device.Later a x2 → Device.Later a (@Device.ackHalt x0 x1 x2) := by
  intro x0 x1 x2 h0
  unfold Device.ackHalt
  repeat' first
    | with_reducible assumption
    | with_reducible apply Device.setChannel_later
    | with_reducible apply Device.setJob_later
    | (intro (hh : Device.Later _ x); clear_value x)
    | with_reducible apply Device.Later.ite
    | split
    | (extract_lets -underBinder +onlyGivenNames x; with_reducible refine Device.Later.via x ?_ ?_; unfold x)

theorem Device.coreWrite_later {a : Device} : ∀ x0 x1 x2 x3 x4, Device.Later a x4 → Issue.Later a (@Device.coreWrite x0 x1 x2 x3 x4) := by
  intro x0 x1 x2 x3 x4 h0
  unfold Device.coreWrite
  repeat' first
    | with_reducible assumption
    | with_reducible apply Device.modPens_later
    | with_reducible apply Device.modTrough_later
    | with_reducible apply Device.ackHalt_later
    | with_reducible apply Device.stopChannel_later
    | with_reducible apply Device.setChuteMode_later
    | with_reducible apply Device.setChain_later
    | with_reducible apply Device.releaseOne_later
    | with_reducible apply Device.setStepArea_later
    | with_reducible apply Issue.Later.ok
    | with_reducible apply Issue.Later.ite

theorem Device.mfcBody_later {a : Device} : ∀ x0 x1 x2, Device.Later a x2 → Issue.Later a (@Device.mfcBody x0 x1 x2) := by
  intro x0 x1 x2 h0
  unfold Device.mfcBody
  repeat' first
    | with_reducible assumption
    | with_reducible apply Device.takeTicket_later
    | with_reducible apply Device.modSeq_later
    | with_reducible apply Issue.Later.ok
    | with_reducible apply Issue.Later.ite

theorem Device.mtcBody_later {a : Device} : ∀ x0 x1 x2, Device.Later a x2 → Issue.Later a (@Device.mtcBody x0 x1 x2) := by
  intro x0 x1 x2 h0
  unfold Device.mtcBody
  repeat' first
    | with_reducible assumption
    | with_reducible apply Device.coreWrite_later

theorem Device.issueCsr_later {a : Device} : ∀ x0 x1 x2 x3 x4, (∀ y0 y1 y2, Device.Later a y2 → Issue.Later a (x3 y0 y1 y2)) → Device.Later a x4 → Device.Later a (@Device.issueCsr x0 x1 x2 x3 x4) := by
  intro x0 x1 x2 x3 x4 h0 h1
  unfold Device.issueCsr
  repeat' first
    | with_reducible assumption
    | with_reducible apply Device.issue_later
    | with_reducible apply h0
    | with_reducible apply Device.Later.ite
    | split

/-! ### FlashUnit -/

theorem Device.modFlash_later {a : Device} : ∀ x0 x1, Device.Later a x0 → Device.Later a (@Device.modFlash x0 x1) := by
  intro x0 x1 h0
  unfold Device.modFlash
  repeat' first
    | with_reducible assumption
    | fail_if_no_progress with_reducible refine Device.Later.upd ?_ rfl rfl rfl

theorem Device.takeSpare_later {a : Device} : ∀ x0 x1, Device.Later a x0 → Device.Later a (@Device.takeSpare x0 x1) := by
  intro x0 x1 h0
  unfold Device.takeSpare
  repeat' first
    | with_reducible assumption
    | with_reducible apply Device.modFlash_later

theorem Device.retire_later {a : Device} : ∀ x0 x1, Device.Later a x0 → Device.Later a (@Device.retire x0 x1) := by
  intro x0 x1 h0
  unfold Device.retire
  repeat' first
    | with_reducible assumption
    | with_reducible apply Device.modFlash_later
    | with_reducible apply Device.takeSpare_later
    | with_reducible apply Device.Later.ite

theorem Device.verifyFailed_later {a : Device} : ∀ x0 x1, Device.Later a x0 → Device.Later a (@Device.verifyFailed x0 x1) := by
  intro x0 x1 h0
  unfold Device.verifyFailed
  repeat' first
    | with_reducible assumption
    | with_reducible apply Device.modFlash_later
    | with_reducible apply Device.logFlash_later

theorem Device.sendProgram_later {a : Device} : ∀ x0 x1 x2 x3, Device.Later a x0 → Device.Later a (@Device.sendProgram x0 x1 x2 x3) := by
  intro x0 x1 x2 x3 h0
  unfold Device.sendProgram
  repeat' first
    | with_reducible assumption
    | with_reducible apply Device.modFlash_later
    | with_reducible apply Device.emit_later
    | with_reducible apply Device.Later.ite

theorem Device.sendErase_later {a : Device} : ∀ x0 x1 x2, Device.Later a x0 → Device.Later a (@Device.sendErase x0 x1 x2) := by
  intro x0 x1 x2 h0
  unfold Device.sendErase
  repeat' first
    | with_reducible assumption
    | with_reducible apply Device.retire_later
    | with_reducible apply Device.emit_later
    | with_reducible apply Device.modFlash_later
    | with_reducible apply Device.Later.ite

theorem Device.nextPrograms_later {a : Device} : ∀ x0 x1, Device.Later a x0 → Device.Later a (@Device.nextPrograms x0 x1) := by
  intro x0 x1 h0
  induction x1 generalizing x0 with
  | zero =>
    unfold Device.nextPrograms
    repeat' first
      | with_reducible assumption
      | with_reducible apply Device.sendProgram_later
      | with_reducible apply Device.modFlash_later
      | with_reducible apply ih
      | with_reducible apply Device.Later.ite
      | split
  | succ n ih =>
    unfold Device.nextPrograms
    repeat' first
      | with_reducible assumption
      | with_reducible apply Device.sendProgram_later
      | with_reducible apply Device.modFlash_later
      | with_reducible apply ih
      | with_reducible apply Device.Later.ite
      | split

theorem Device.flashNext_later {a : Device} : ∀ x0, Device.Later a x0 → Device.Later a (@Device.flashNext x0) := by
  intro x0 h0
  unfold Device.flashNext
  repeat' first
    | with_reducible assumption
    | with_reducible apply Device.nextPrograms_later
    | with_reducible apply Device.sendErase_later
    | with_reducible apply Device.modFlash_later
    | (intro (hh : Device.Later _ x); clear_value x)
    | with_reducible apply Device.Later.ite
    | split
    | (extract_lets -underBinder +onlyGivenNames x; with_reducible refine Device.Later.via x ?_ ?_; unfold x)

theorem Device.flashProgram_later {a : Device} : ∀ x0 x1 x2, Device.Later a x2 → Device.Later a (@Device.flashProgram x0 x1 x2) := by
  intro x0 x1 x2 h0
  unfold Device.flashProgram
  repeat' first
    | with_reducible assumption
    | with_reducible apply Device.modFlash_later
    | with_reducible apply Device.sendProgram_later
    | with_reducible apply Device.Later.ite

theorem Device.programEnds_later {a : Device} : ∀ x0 x1, Device.Later a x1 → Device.Later a (@Device.programEnds x0 x1) := by
  intro x0 x1 h0
  unfold Device.programEnds
  repeat' first
    | with_reducible assumption
    | with_reducible apply Device.modFlash_later
    | with_reducible apply Device.retire_later
    | with_reducible apply Device.verifyFailed_later
    | with_reducible apply Device.sendProgram_later
    | with_reducible apply Device.flashNext_later
    | with_reducible apply Device.Later.ite
    | split

theorem Device.flashErase_later {a : Device} : ∀ x0 x1, Device.Later a x1 → Device.Later a (@Device.flashErase x0 x1) := by
  intro x0 x1 h0
  unfold Device.flashErase
  repeat' first
    | with_reducible assumption
    | with_reducible apply Device.modFlash_later
    | with_reducible apply Device.sendErase_later
    | with_reducible apply Device.Later.ite

theorem Device.eraseEnds_later {a : Device} : ∀ x0 x1, Device.Later a x1 → Device.Later a (@Device.eraseEnds x0 x1) := by
  intro x0 x1 h0
  unfold Device.eraseEnds
  repeat' first
    | with_reducible assumption
    | with_reducible apply Device.modFlash_later
    | with_reducible apply Device.flashNext_later
    | with_reducible apply Device.retire_later
    | with_reducible apply Device.verifyFailed_later
    | with_reducible apply Device.sendErase_later
    | with_reducible apply Device.Later.ite
    | split

theorem Device.forcedTimer_later {a : Device} : ∀ x0, Device.Later a x0 → Device.Later a (@Device.forcedTimer x0) := by
  intro x0 h0
  unfold Device.forcedTimer
  repeat' first
    | with_reducible assumption
    | with_reducible apply Device.modFlash_later
    | with_reducible apply Device.Later.ite
    | split

theorem Device.wear_later {a : Device} : ∀ x0 x1 x2, Device.Later a x0 → Device.Later a (@Device.wear x0 x1 x2) := by
  intro x0 x1 x2 h0
  unfold Device.wear
  repeat' first
    | with_reducible assumption
    | with_reducible apply Device.modFlash_later
    | with_reducible apply Device.logFlash_later
    | with_reducible apply Device.Later.ite

theorem Device.readLine_later {a : Device} : ∀ x0 x1 x2 x3, Device.Later a x3 → Device.Later a (@Device.readLine x0 x1 x2 x3) := by
  intro x0 x1 x2 x3 h0
  unfold Device.readLine
  repeat' first
    | with_reducible assumption
    | with_reducible apply Device.modFlash_later
    | with_reducible apply Device.wear_later
    | with_reducible apply Device.logFlash_later
    | with_reducible apply Device.Later.ite

theorem Device.relocate_later {a : Device} : ∀ x0 x1 x2, Device.Later a x2 → Device.Later a (@Device.relocate x0 x1 x2) := by
  intro x0 x1 x2 h0
  unfold Device.relocate
  repeat' first
    | with_reducible assumption
    | with_reducible apply Device.modFlash_later
    | with_reducible apply Device.takeSpare_later
    | with_reducible apply Device.Later.ite

theorem Device.logEntry_later {a : Device} : ∀ x0 x1 x2, Device.Later a x2 → Device.Later a (@Device.logEntry x0 x1 x2) := by
  intro x0 x1 x2 h0
  unfold Device.logEntry
  repeat' first
    | with_reducible assumption
    | with_reducible apply Device.logFlash_later
    | with_reducible apply Device.Later.ite

end Sys2Proof.Machine
end

