-- ==== Sys2Proof/Laws/LaterDict.lean ====
section
/-! SUPPORT. The relation `Device.Later`, one lemma per operation: power, security, the dictionary. -/

set_option linter.unusedTactic false
set_option linter.unreachableTactic false

namespace Sys2Proof.Machine

/-! ### DictOps -/

theorem Device.dzChecked_later {a : Device} (ses : Option Nat) (r : DzRequest) (d : Device) (go : Nat → DzObj → List Byte → Bool → Device)
    (hg : ∀ k o b q, Device.Later a (go k o b q)) (hd : Device.Later a d) : Device.Later a (d.dzChecked ses r go) := by
  unfold Device.dzChecked
  dsimp only
  split
  · exact hd
  · split
    · exact Device.emit_later _ hd
    · split
      · exact Device.emit_later _ hd
      · split
        · exact Device.emit_later _ hd
        · split
          · refine Device.emit_later _ ?_
            exact hd.same rfl rfl rfl rfl rfl rfl rfl rfl
          · exact hg _ _ _ _
theorem Device.inFlash_later {a : Device} (r : DzRequest) (x : Device.Written) (h : SumLater a x) : SumLater a (Device.inFlash r x) := by
  unfold Device.inFlash
  split
  · exact .inr
  · split
    · exact h
    · exact .inr
    · exact .inr
    · exact .inr

theorem Device.modDict_later {a : Device} : ∀ x0 x1, Device.Later a x0 → Device.Later a (@Device.modDict x0 x1) := by
  intro x0 x1 h0
  unfold Device.modDict
  repeat' first
    | with_reducible assumption
    | fail_if_no_progress with_reducible refine Device.Later.upd ?_ rfl rfl rfl

theorem Device.modSess_later {a : Device} : ∀ x0 x1 x2, Device.Later a x0 → Device.Later a (@Device.modSess x0 x1 x2) := by
  intro x0 x1 x2 h0
  unfold Device.modSess
  repeat' first
    | with_reducible assumption
    | with_reducible apply Device.modDict_later

theorem Device.respond_later {a : Device} : ∀ x0 x1 x2 x3 x4 x5 x6 x7 x8, Device.Later a x0 → Device.Later a (@Device.respond x0 x1 x2 x3 x4 x5 x6 x7 x8) := by
  intro x0 x1 x2 x3 x4 x5 x6 x7 x8 h0
  unfold Device.respond
  repeat' first
    | with_reducible assumption
    | with_reducible apply Device.emit_later

theorem Device.dzRead_later {a : Device} : ∀ x0 x1 x2, Device.Later a x2 → Device.Later a (@Device.dzRead x0 x1 x2) := by
  intro x0 x1 x2 h0
  unfold Device.dzRead
  repeat' first
    | with_reducible assumption
    | with_reducible apply Device.respond_later
    | with_reducible apply Device.Later.ite
    | split

theorem Device.dzNext_later {a : Device} : ∀ x0 x1 x2, Device.Later a x2 → Device.Later a (@Device.dzNext x0 x1 x2) := by
  intro x0 x1 x2 h0
  unfold Device.dzNext
  repeat' first
    | with_reducible assumption
    | with_reducible apply Device.respond_later
    | with_reducible apply Device.Later.ite
    | split
    | (extract_lets -underBinder +onlyGivenNames x; clear_value x)

theorem Device.unstage_later {a : Device} : ∀ x0 x1 x2 x3, Device.Later a x0 → Device.Later a (@Device.unstage x0 x1 x2 x3) := by
  intro x0 x1 x2 x3 h0
  unfold Device.unstage
  repeat' first
    | with_reducible assumption
    | with_reducible apply Device.modDict_later

theorem Device.stage_later {a : Device} : ∀ x0 x1 x2 x3 x4, Device.Later a x0 → Device.Later a (@Device.stage x0 x1 x2 x3 x4) := by
  intro x0 x1 x2 x3 x4 h0
  unfold Device.stage
  repeat' first
    | with_reducible assumption
    | with_reducible apply Device.modDict_later
    | with_reducible apply Device.unstage_later

theorem Device.dzWrite_later {a : Device} : ∀ x0 x1 x2 x3 x4, (∀ y0 y1 y2 y3 y4, Device.Later a y4 → SumLater a (x1 y0 y1 y2 y3 y4)) → Device.Later a x4 → Device.Later a (@Device.dzWrite x0 x1 x2 x3 x4) := by
  intro x0 x1 x2 x3 x4 h0 h1
  unfold Device.dzWrite
  repeat' first
    | with_reducible assumption
    | with_reducible apply Device.dzChecked_later
    | with_reducible apply Device.respond_later
    | with_reducible apply Device.stage_later
    | with_reducible apply Device.unstage_later
    | with_reducible apply h0
    | with_reducible refine SumLater.of_inl (by with_reducible assumption) ?_
    | (intro (hh : Device.Later _ x); clear_value x)
    | intro _
    | with_reducible apply Device.Later.ite
    | split
    | (extract_lets -underBinder +onlyGivenNames x; with_reducible refine Device.Later.via x ?_ ?_; unfold x)

/-! ### PowerUnit -/

theorem Device.modPower_later {a : Device} : ∀ x0 x1, Device.Later a x0 → Device.Later a (@Device.modPower x0 x1) := by
  intro x0 x1 h0
  unfold Device.modPower
  repeat' first
    | with_reducible assumption
    | fail_if_no_progress with_reducible refine Device.Later.upd ?_ rfl rfl rfl

theorem Device.clearWork_later {a : Device} : ∀ x0, Device.Later a x0 → Device.Later a (@Device.clearWork x0) := by
  intro x0 h0
  unfold Device.clearWork
  repeat' first
    | with_reducible assumption
    | with_reducible apply Device.modCore_later
    | with_reducible apply Device.Later.foldl
    | intro _

theorem Device.intervalEnds_later {a : Device} : ∀ x0 x1, Device.Later a x1 → Device.Later a (@Device.intervalEnds x0 x1) := by
  intro x0 x1 h0
  unfold Device.intervalEnds
  repeat' first
    | with_reducible assumption
    | with_reducible apply Device.modPower_later
    | with_reducible apply Device.clearWork_later
    | with_reducible apply Device.Later.ite

theorem Device.vackRises_later {a : Device} : ∀ x0, Device.Later a x0 → Device.Later a (@Device.vackRises x0) := by
  intro x0 h0
  unfold Device.vackRises
  repeat' first
    | with_reducible assumption
    | with_reducible apply Device.modPower_later
    | with_reducible apply Device.Later.ite
    | split
    | (extract_lets -underBinder +onlyGivenNames x; clear_value x)

theorem Device.vregLate_later {a : Device} : ∀ x0, Device.Later a x0 → Device.Later a (@Device.vregLate x0) := by
  intro x0 h0
  unfold Device.vregLate
  repeat' first
    | with_reducible assumption
    | with_reducible apply Device.platform_later
    | with_reducible apply Device.modPower_later
    | with_reducible apply Device.Later.ite
    | split
    | (extract_lets -underBinder +onlyGivenNames x; clear_value x)

theorem Device.commonRaise_later {a : Device} : ∀ x0, Device.Later a x0 → Device.Later a (@Device.commonRaise x0) := by
  intro x0 h0
  unfold Device.commonRaise
  repeat' first
    | with_reducible assumption
    | with_reducible apply Device.modPower_later
    | with_reducible apply Device.platform_later
    | with_reducible apply Device.Later.ite
    | split
    | (extract_lets -underBinder +onlyGivenNames x; clear_value x)

theorem Device.grazeEnds_later {a : Device} : ∀ x0 x1, Device.Later a x1 → Device.Later a (@Device.grazeEnds x0 x1) := by
  intro x0 x1 h0
  unfold Device.grazeEnds
  repeat' first
    | with_reducible assumption
    | with_reducible apply Device.modCore_later
    | with_reducible apply Device.Later.ite
    | split

theorem Device.clampPens_later {a : Device} : ∀ x0, Device.Later a x0 → Device.Later a (@Device.clampPens x0) := by
  intro x0 h0
  unfold Device.clampPens
  repeat' first
    | with_reducible assumption
    | with_reducible apply Device.modCore_later
    | with_reducible apply Device.Later.foldl
    | intro _

theorem Device.supplyWarns_later {a : Device} : ∀ x0 x1, Device.Later a x1 → Device.Later a (@Device.supplyWarns x0 x1) := by
  intro x0 x1 h0
  unfold Device.supplyWarns
  repeat' first
    | with_reducible assumption
    | with_reducible apply Device.modPower_later
    | with_reducible apply Device.clampPens_later
    | with_reducible apply Device.stopGrazing_later
    | with_reducible apply Device.Later.ite
    | split

theorem Device.supplyHolds_later {a : Device} : ∀ x0, Device.Later a x0 → Device.Later a (@Device.supplyHolds x0) := by
  intro x0 h0
  unfold Device.supplyHolds
  repeat' first
    | with_reducible assumption
    | with_reducible apply Device.modPower_later
    | with_reducible apply Device.Later.ite

theorem Device.supplyNormal_later {a : Device} : ∀ x0, Device.Later a x0 → Device.Later a (@Device.supplyNormal x0) := by
  intro x0 h0
  unfold Device.supplyNormal
  repeat' first
    | with_reducible assumption
    | with_reducible apply Device.modPower_later
    | with_reducible apply Device.postDev_later
    | with_reducible apply Device.Later.ite

theorem Device.supplyResets_later {a : Device} : ∀ x0 x1, Device.Later a x1 → Device.Later a (@Device.supplyResets x0 x1) := by
  intro x0 x1 h0
  unfold Device.supplyResets
  repeat' first
    | with_reducible assumption
    | with_reducible apply Device.requestDevReset_later
    | with_reducible apply Device.logFlash_later
    | with_reducible apply Device.Later.ite

theorem Device.senseHeat_later {a : Device} : ∀ x0 x1, Device.Later a x1 → Device.Later a (@Device.senseHeat x0 x1) := by
  intro x0 x1 h0
  unfold Device.senseHeat
  repeat' first
    | with_reducible assumption
    | with_reducible apply Device.modPower_later
    | with_reducible apply Device.stopGrazing_later
    | with_reducible apply Device.lowerTo_later
    | with_reducible apply Device.platform_later
    | with_reducible apply Device.requestDevReset_later
    | with_reducible apply Device.logFlash_later
    | with_reducible apply Device.Later.ite
    | split

theorem Device.maxStepTick_later {a : Device} : ∀ x0, Device.Later a x0 → Device.Later a (@Device.maxStepTick x0) := by
  intro x0 h0
  unfold Device.maxStepTick
  repeat' first
    | with_reducible assumption
    | with_reducible apply Device.modPower_later
    | with_reducible apply Device.lowerTo_later
    | with_reducible apply Device.Later.ite

theorem Device.tripEnds_later {a : Device} : ∀ x0, Device.Later a x0 → Device.Later a (@Device.tripEnds x0) := by
  intro x0 h0
  unfold Device.tripEnds
  repeat' first
    | with_reducible assumption
    | with_reducible apply Device.modPower_later
    | with_reducible apply Device.Later.ite
    | split
    | (extract_lets -underBinder +onlyGivenNames x; clear_value x)

theorem Device.phaseAlarm_later {a : Device} : ∀ x0 x1, Device.Later a x1 → Device.Later a (@Device.phaseAlarm x0 x1) := by
  intro x0 x1 h0
  unfold Device.phaseAlarm
  repeat' first
    | with_reducible assumption
    | with_reducible apply Device.fired_later
    | with_reducible apply beginPhase_later
    | with_reducible apply Device.announce_later
    | with_reducible apply Device.learn_later
    | with_reducible apply Device.decideStep_later
    | with_reducible apply Device.modPower_later
    | with_reducible apply Device.Later.foldl
    | (intro (hh : Device.Later _ x); clear_value x)
    | with_reducible apply Device.Later.ite
    | split
    | (extract_lets -underBinder +onlyGivenNames x; with_reducible refine Device.Later.via x ?_ ?_; unfold x)
    | (extract_lets -underBinder +onlyGivenNames x; clear_value x)

theorem Device.hostEvent_later {a : Device} : ∀ x0 x1, Device.Later a x1 → Device.Later a (@Device.hostEvent x0 x1) := by
  intro x0 x1 h0
  unfold Device.hostEvent
  repeat' first
    | with_reducible assumption
    | with_reducible apply Device.fired_later
    | with_reducible apply Device.postQueue_later
    | with_reducible apply Device.Later.ite

/-! ### ResetUnit -/

theorem Device.hang_later {a : Device} : ∀ x0 x1, Device.Later a x0 → Device.Later a (@Device.hang x0 x1) := by
  intro x0 x1 h0
  unfold Device.hang
  repeat' first
    | with_reducible assumption
    | with_reducible apply Device.endJob_later
    | with_reducible apply Device.modPdk_later
    | with_reducible apply Device.Later.foldl
    | intro _

theorem Device.checkPdk_later {a : Device} : ∀ x0 x1 x2, Device.Later a x1 → Device.Later a (@Device.checkPdk x0 x1 x2) := by
  intro x0 x1 x2 h0
  unfold Device.checkPdk
  repeat' first
    | with_reducible assumption
    | with_reducible apply Device.setPdk_later
    | with_reducible apply Device.requestReset_later
    | with_reducible apply Device.hang_later
    | with_reducible apply Device.Later.ite

theorem Device.heartbeat_later {a : Device} : ∀ x0 x1, Device.Later a x1 → Device.Later a (@Device.heartbeat x0 x1) := by
  intro x0 x1 h0
  unfold Device.heartbeat
  repeat' first
    | with_reducible assumption
    | with_reducible apply Device.fired_later
    | with_reducible apply Device.checkPdk_later
    | with_reducible apply Device.Later.foldl
    | fail_if_no_progress with_reducible refine Device.Later.upd ?_ rfl rfl rfl
    | with_reducible apply Device.Later.ite

theorem Device.hangUnreported_later {a : Device} : ∀ x0 x1, Device.Later a x1 → Device.Later a (@Device.hangUnreported x0 x1) := by
  intro x0 x1 h0
  unfold Device.hangUnreported
  repeat' first
    | with_reducible assumption
    | with_reducible apply Device.requestReset_later
    | with_reducible apply Device.Later.ite

theorem Device.droverFault_later {a : Device} : ∀ x0 x1, Device.Later a x1 → Device.Later a (@Device.droverFault x0 x1) := by
  intro x0 x1 h0
  unfold Device.droverFault
  repeat' first
    | with_reducible assumption
    | with_reducible apply Device.requestReset_later

theorem Device.watchdog_later {a : Device} : ∀ x0 x1, Device.Later a x1 → Device.Later a (@Device.watchdog x0 x1) := by
  intro x0 x1 h0
  unfold Device.watchdog
  repeat' first
    | with_reducible assumption
    | with_reducible apply Device.requestDevReset_later
    | fail_if_no_progress with_reducible refine Device.Later.upd ?_ rfl rfl rfl
    | with_reducible apply Device.Later.ite

theorem Device.restartDone_later {a : Device} : ∀ x0, Device.Later a x0 → Device.Later a (@Device.restartDone x0) := by
  intro x0 h0
  unfold Device.restartDone
  repeat' first
    | with_reducible assumption
    | with_reducible apply Device.postDev_later
    | with_reducible apply Device.hostCrash_later
    | with_reducible apply Device.keepCrash_later
    | fail_if_no_progress with_reducible refine Device.Later.upd ?_ rfl rfl rfl
    | with_reducible apply Device.Later.ite

theorem Device.askReset_later {a : Device} : ∀ x0 x1, Device.Later a x1 → Device.Later a (@Device.askReset x0 x1) := by
  intro x0 x1 h0
  unfold Device.askReset
  repeat' first
    | with_reducible assumption
    | with_reducible apply Device.requestReset_later

theorem Device.resetPdk_later {a : Device} : ∀ x0 x1, Device.Later a x1 → Device.Later a (@Device.resetPdk x0 x1) := by
  intro x0 x1 h0
  unfold Device.resetPdk
  repeat' first
    | with_reducible assumption
    | with_reducible apply Device.capturePdk_later
    | with_reducible apply Device.beginRemoval_later
    | with_reducible apply Device.modPdk_later
    | with_reducible apply Device.clearPdk_later
    | with_reducible apply Device.discardPdk_later
    | with_reducible apply Device.outOfService_later
    | with_reducible apply Device.beginTraining_later
    | with_reducible apply Device.Later.foldl
    | with_reducible apply Device.Later.ite

theorem Device.pdkReady_later {a : Device} : ∀ x0 x1, Device.Later a x1 → Device.Later a (@Device.pdkReady x0 x1) := by
  intro x0 x1 h0
  unfold Device.pdkReady
  repeat' first
    | with_reducible assumption
    | with_reducible apply Device.modPdk_later
    | with_reducible apply Device.freeStalls_later
    | with_reducible apply Device.openSessions_later
    | with_reducible apply Device.postDev_later
    | with_reducible apply Device.loseMemory_later
    | with_reducible apply Device.Later.ite

theorem Device.trainingDone_later {a : Device} : ∀ x0 x1 x2, Device.Later a x2 → Device.Later a (@Device.trainingDone x0 x1 x2) := by
  intro x0 x1 x2 h0
  unfold Device.trainingDone
  repeat' first
    | with_reducible assumption
    | with_reducible apply Device.setChan_later
    | with_reducible apply Device.postDev_later
    | with_reducible apply Device.outOfService_later
    | with_reducible apply Device.loseMemory_later
    | with_reducible apply Device.Later.foldl
    | intro _
    | with_reducible apply Device.Later.ite
    | split

theorem Device.linkTrained_later {a : Device} : ∀ x0 x1 x2, Device.Later a x2 → Device.Later a (@Device.linkTrained x0 x1 x2) := by
  intro x0 x1 x2 h0
  unfold Device.linkTrained
  repeat' first
    | with_reducible assumption
    | fail_if_no_progress with_reducible refine Device.Later.upd ?_ rfl rfl rfl
    | with_reducible apply Device.Later.ite

/-! ### SecurityUnit -/

theorem scrubbedSlice_wf (s : Slice) : Table.wf (Device.scrubbedSlice s).data Blk.reset = true := rfl

theorem Device.modSecurity_later {a : Device} : ∀ x0 x1, Device.Later a x0 → Device.Later a (@Device.modSecurity x0 x1) := by
  intro x0 x1 h0
  unfold Device.modSecurity
  repeat' first
    | with_reducible assumption
    | fail_if_no_progress with_reducible refine Device.Later.upd ?_ rfl rfl rfl

theorem Device.seed_later {a : Device} : ∀ x0, Device.Later a x0 → Device.Later a (@Device.seed x0) := by
  intro x0 h0
  unfold Device.seed
  repeat' first
    | with_reducible assumption
    | with_reducible apply Device.modSecurity_later

theorem Device.lateKeys_later {a : Device} : ∀ x0 x1, Device.Later a x0 → Device.Later a (@Device.lateKeys x0 x1) := by
  intro x0 x1 h0
  unfold Device.lateKeys
  repeat' first
    | with_reducible assumption
    | with_reducible apply Device.newIntake_later
    | with_reducible apply Device.newMemKey_later
    | with_reducible apply Device.beginTraining_later
    | with_reducible apply Device.modChan_later
    | with_reducible apply Device.Later.foldl
    | intro _
    | with_reducible apply Device.Later.ite

theorem Device.entropySample_later {a : Device} : ∀ x0 x1, Device.Later a x1 → Device.Later a (@Device.entropySample x0 x1) := by
  intro x0 x1 h0
  unfold Device.entropySample
  repeat' first
    | with_reducible assumption
    | with_reducible apply Device.modSecurity_later
    | with_reducible apply Device.platform_later
    | with_reducible apply Device.seed_later
    | with_reducible apply Device.lateKeys_later
    | with_reducible apply Device.Later.foldl
    | with_reducible apply Device.Later.ite

theorem Device.reseed_later {a : Device} : ∀ x0, Device.Later a x0 → Device.Later a (@Device.reseed x0) := by
  intro x0 h0
  unfold Device.reseed
  repeat' first
    | with_reducible assumption
    | with_reducible apply Device.seed_later
    | with_reducible apply Device.Later.ite

theorem Device.removalRetire_later {a : Device} : ∀ x0 x1 x2, Device.Later a x2 → Device.Later a (@Device.removalRetire x0 x1 x2) := by
  intro x0 x1 x2 h0
  unfold Device.removalRetire
  repeat' first
    | with_reducible assumption
    | with_reducible apply Device.dropTraffic_later
    | with_reducible apply Device.outOfService_later
    | with_reducible apply Device.modPdkSec_later
    | with_reducible apply Device.newIntake_later
    | with_reducible apply Device.newMemKey_later
    | with_reducible apply Device.Later.ite

theorem Device.removalScrub_later {a : Device} : ∀ x0 x1, Device.Later a x1 → Device.Later a (@Device.removalScrub x0 x1) := by
  intro x0 x1 h0
  unfold Device.removalScrub
  repeat' first
    | with_reducible assumption
    | with_reducible apply Device.setSlice_later
    | with_reducible apply Device.setCore_later
    | with_reducible apply Device.freeWindows_later
    | with_reducible apply Device.dropAtc_later
    | with_reducible apply Device.modPdk_later
    | with_reducible apply Device.modOutQueue_later
    | with_reducible apply Device.modPdkSec_later
    | exact scrubbedSlice_wf _
    | with_reducible apply Device.Later.foldl
    | with_reducible apply Device.Later.tfoldl
    | fail_if_no_progress with_reducible refine Device.Later.upd ?_ rfl rfl rfl
    | intro _
    | with_reducible apply Device.Later.ite

theorem Device.killSync_later {a : Device} : ∀ x0 x1, Device.Later a x0 → Device.Later a (@Device.killSync x0 x1) := by
  intro x0 x1 h0
  unfold Device.killSync
  repeat' first
    | with_reducible assumption
    | with_reducible apply Device.setFence_later
    | with_reducible apply Device.setSeq_later
    | with_reducible apply Device.Later.tfoldl
    | intro _
    | with_reducible apply Device.Later.ite

theorem Device.forgetQueues_later {a : Device} : ∀ x0 x1, Device.Later a x0 → Device.Later a (@Device.forgetQueues x0 x1) := by
  intro x0 x1 h0
  unfold Device.forgetQueues
  repeat' first
    | with_reducible assumption
    | with_reducible apply Device.setOutQueue_later
    | with_reducible apply Device.emit_later
    | with_reducible apply Device.Later.tfoldl
    | intro _
    | with_reducible apply Device.Later.ite

theorem Device.settleChans_later {a : Device} : ∀ x0, Device.Later a x0 → Device.Later a (@Device.settleChans x0) := by
  intro x0 h0
  unfold Device.settleChans
  repeat' first
    | with_reducible assumption
    | with_reducible apply Device.modChan_later
    | with_reducible apply Device.beginTraining_later
    | with_reducible apply Device.Later.foldl
    | intro _
    | with_reducible apply Device.Later.ite
    | split

theorem Device.auditRule_later {a : Device} : ∀ x0 x1, Device.Later a x0 → Device.Later a (@Device.auditRule x0 x1) := by
  intro x0 x1 h0
  unfold Device.auditRule
  repeat' first
    | with_reducible assumption
    | with_reducible apply Device.modSlice_later
    | with_reducible apply Device.Later.foldl
    | intro _
    | with_reducible apply Device.Later.ite

theorem Device.removalEnd_later {a : Device} : ∀ x0 x1, Device.Later a x1 → Device.Later a (@Device.removalEnd x0 x1) := by
  intro x0 x1 h0
  unfold Device.removalEnd
  repeat' first
    | with_reducible assumption
    | with_reducible apply Device.freeStalls_later
    | with_reducible apply Device.forgetQueues_later
    | with_reducible apply Device.killSync_later
    | with_reducible apply Device.killObjs_later
    | with_reducible apply Device.modPdkSec_later
    | with_reducible apply Device.modPdk_later
    | with_reducible apply Device.auditRule_later
    | with_reducible apply Device.settleChans_later
    | with_reducible apply Device.dropSessions_later
    | with_reducible apply Device.openSessions_later
    | with_reducible apply Device.postDev_later
    | with_reducible apply Device.Later.ite

theorem Device.traceFails_later {a : Device} : ∀ x0 x1, Device.Later a x1 → Device.Later a (@Device.traceFails x0 x1) := by
  intro x0 x1 h0
  unfold Device.traceFails
  repeat' first
    | with_reducible assumption
    | with_reducible apply Device.modPdkSec_later
    | with_reducible apply Device.Later.ite

/-! ### DictUnit -/

theorem Device.takeEntry_later {a : Device} : ∀ x0 x1 x2, Device.Later a x0 → Device.Later a (@Device.takeEntry x0 x1 x2) := by
  intro x0 x1 x2 h0
  unfold Device.takeEntry
  repeat' first
    | with_reducible assumption
    | with_reducible apply Device.modPdk_later
    | with_reducible apply Device.modPdkSec_later
    | with_reducible apply Device.requestRemoval_later
    | with_reducible apply Device.auditRule_later
    | with_reducible apply Device.Later.ite

theorem Device.applyLayout_later {a : Device} : ∀ x0 x1 x2, Device.Later a x2 → SumLater a (@Device.applyLayout x0 x1 x2) := by
  intro x0 x1 x2 h0
  unfold Device.applyLayout
  repeat' first
    | with_reducible assumption
    | with_reducible apply Device.takeEntry_later
    | with_reducible apply Device.inFlash_later
    | with_reducible apply SumLater.inl
    | with_reducible apply SumLater.inr
    | with_reducible apply Device.Later.foldl
    | intro _
    | with_reducible apply SumLater.ite

theorem Device.applyChanOn_later {a : Device} : ∀ x0 x1 x2 x3, Device.Later a x3 → SumLater a (@Device.applyChanOn x0 x1 x2 x3) := by
  intro x0 x1 x2 x3 h0
  unfold Device.applyChanOn
  repeat' first
    | with_reducible assumption
    | with_reducible apply Device.modChan_later
    | with_reducible apply Device.modDict_later
    | with_reducible apply Device.beginTraining_later
    | with_reducible apply Device.inFlash_later
    | with_reducible apply SumLater.inl
    | with_reducible apply SumLater.inr
    | intro _
    | with_reducible apply SumLater.ite
    | with_reducible apply Device.Later.ite
    | split

theorem Device.applyCap_later {a : Device} : ∀ x0 x1 x2, Device.Later a x2 → SumLater a (@Device.applyCap x0 x1 x2) := by
  intro x0 x1 x2 h0
  unfold Device.applyCap
  repeat' first
    | with_reducible assumption
    | with_reducible apply Device.modPower_later
    | with_reducible apply Device.inFlash_later
    | with_reducible apply SumLater.inl
    | with_reducible apply SumLater.inr
    | with_reducible apply SumLater.ite

theorem Device.applyPwrCtl_later {a : Device} : ∀ x0 x1 x2, Device.Later a x2 → SumLater a (@Device.applyPwrCtl x0 x1 x2) := by
  intro x0 x1 x2 h0
  unfold Device.applyPwrCtl
  repeat' first
    | with_reducible assumption
    | with_reducible apply Device.modPower_later
    | with_reducible apply Device.stopGrazing_later
    | with_reducible apply Device.inFlash_later
    | with_reducible apply SumLater.inl
    | with_reducible apply SumLater.inr
    | with_reducible apply SumLater.ite
    | with_reducible apply Device.Later.ite

theorem Device.applyYardCtl_later {a : Device} : ∀ x0 x1 x2, Device.Later a x2 → SumLater a (@Device.applyYardCtl x0 x1 x2) := by
  intro x0 x1 x2 h0
  unfold Device.applyYardCtl
  repeat' first
    | with_reducible assumption
    | with_reducible apply Device.modSlice_later
    | with_reducible apply SumLater.inl
    | with_reducible apply SumLater.inr
    | intro _
    | with_reducible apply SumLater.ite

theorem Device.applyNbr_later {a : Device} : ∀ x0 x1 x2 x3, Device.Later a x3 → SumLater a (@Device.applyNbr x0 x1 x2 x3) := by
  intro x0 x1 x2 x3 h0
  unfold Device.applyNbr
  repeat' first
    | with_reducible assumption
    | with_reducible apply Device.inFlash_later
    | with_reducible apply SumLater.inl
    | with_reducible apply SumLater.inr
    | fail_if_no_progress with_reducible refine Device.Later.upd ?_ rfl rfl rfl
    | with_reducible apply SumLater.ite

theorem Device.applyRoute_later {a : Device} : ∀ x0 x1 x2 x3, Device.Later a x3 → SumLater a (@Device.applyRoute x0 x1 x2 x3) := by
  intro x0 x1 x2 x3 h0
  unfold Device.applyRoute
  repeat' first
    | with_reducible assumption
    | with_reducible apply Device.sessionOpen_later
    | with_reducible apply Device.inFlash_later
    | with_reducible apply SumLater.inl
    | with_reducible apply SumLater.inr
    | with_reducible apply Device.Later.foldl
    | fail_if_no_progress with_reducible refine Device.Later.upd ?_ rfl rfl rfl
    | intro _
    | with_reducible apply SumLater.ite
    | with_reducible apply Device.Later.ite

theorem Device.clearBinding_later {a : Device} : ∀ x0 x1 x2, Device.Later a x0 → Device.Later a (@Device.clearBinding x0 x1 x2) := by
  intro x0 x1 x2 h0
  unfold Device.clearBinding
  repeat' first
    | with_reducible assumption
    | with_reducible apply Device.modBinding_later
    | with_reducible apply Device.sessionDown_later

theorem Device.applyTrust_later {a : Device} : ∀ x0 x1 x2 x3, Device.Later a x3 → SumLater a (@Device.applyTrust x0 x1 x2 x3) := by
  intro x0 x1 x2 x3 h0
  unfold Device.applyTrust
  repeat' first
    | with_reducible assumption
    | with_reducible apply Device.clearBinding_later
    | with_reducible apply Device.inFlash_later
    | with_reducible apply SumLater.inl
    | with_reducible apply SumLater.inr
    | with_reducible apply Device.Later.foldl
    | fail_if_no_progress with_reducible refine Device.Later.upd ?_ rfl rfl rfl
    | intro _
    | with_reducible apply SumLater.ite
    | with_reducible apply Device.Later.ite

theorem Device.applyBind_later {a : Device} : ∀ x0 x1 x2 x3, Device.Later a x3 → SumLater a (@Device.applyBind x0 x1 x2 x3) := by
  intro x0 x1 x2 x3 h0
  unfold Device.applyBind
  repeat' first
    | with_reducible assumption
    | with_reducible apply Device.clearBinding_later
    | with_reducible apply Device.sessionOpen_later
    | with_reducible apply Device.setBinding_later
    | with_reducible apply Device.inFlash_later
    | with_reducible apply SumLater.inl
    | with_reducible apply SumLater.inr
    | with_reducible apply SumLater.ite

theorem Device.applyRoot_later {a : Device} : ∀ x0 x1 x2 x3 x4, Device.Later a x4 → SumLater a (@Device.applyRoot x0 x1 x2 x3 x4) := by
  intro x0 x1 x2 x3 x4 h0
  unfold Device.applyRoot
  repeat' first
    | with_reducible assumption
    | with_reducible apply Device.modDict_later
    | with_reducible apply Device.inFlash_later
    | with_reducible apply SumLater.inl
    | with_reducible apply SumLater.inr
    | with_reducible apply SumLater.ite

theorem Device.applyBundle_later {a : Device} : ∀ x0 x1 x2 x3 x4, Device.Later a x4 → SumLater a (@Device.applyBundle x0 x1 x2 x3 x4) := by
  intro x0 x1 x2 x3 x4 h0
  unfold Device.applyBundle
  repeat' first
    | with_reducible assumption
    | with_reducible apply Device.modPdkSec_later
    | with_reducible apply Device.modSecurity_later
    | with_reducible apply SumLater.inl
    | with_reducible apply SumLater.inr
    | with_reducible apply SumLater.ite

theorem Device.applyRemove_later {a : Device} : ∀ x0 x1 x2, Device.Later a x2 → SumLater a (@Device.applyRemove x0 x1 x2) := by
  intro x0 x1 x2 h0
  unfold Device.applyRemove
  repeat' first
    | with_reducible assumption
    | with_reducible apply Device.requestRemoval_later
    | with_reducible apply SumLater.inl
    | with_reducible apply SumLater.inr
    | with_reducible apply SumLater.ite

theorem Device.applyPdkReset_later {a : Device} : ∀ x0 x1 x2, Device.Later a x2 → SumLater a (@Device.applyPdkReset x0 x1 x2) := by
  intro x0 x1 x2 h0
  unfold Device.applyPdkReset
  repeat' first
    | with_reducible assumption
    | with_reducible apply Device.requestReset_later
    | with_reducible apply SumLater.inl
    | with_reducible apply SumLater.inr
    | with_reducible apply SumLater.ite

theorem Device.applyDevReset_later {a : Device} : ∀ x0 x1, Device.Later a x1 → SumLater a (@Device.applyDevReset x0 x1) := by
  intro x0 x1 h0
  unfold Device.applyDevReset
  repeat' first
    | with_reducible assumption
    | with_reducible apply Device.requestDevReset_later
    | with_reducible apply SumLater.inl
    | with_reducible apply SumLater.inr
    | with_reducible apply SumLater.ite

theorem Device.snapFired_later {a : Device} : ∀ x0 x1, Device.Later a x0 → Device.Later a (@Device.snapFired x0 x1) := by
  intro x0 x1 h0
  unfold Device.snapFired
  repeat' first
    | with_reducible assumption
    | with_reducible apply Device.modDict_later
    | with_reducible apply Device.fired_later
    | with_reducible apply Device.Later.ite

theorem Device.snapshot_later {a : Device} : ∀ x0 x1, Device.Later a x1 → Device.Later a (@Device.snapshot x0 x1) := by
  intro x0 x1 h0
  unfold Device.snapshot
  repeat' first
    | with_reducible assumption
    | with_reducible apply Device.snapFired_later
    | with_reducible apply Device.Later.ite

theorem Device.applySnap_later {a : Device} : ∀ x0 x1 x2 x3, Device.Later a x3 → SumLater a (@Device.applySnap x0 x1 x2 x3) := by
  intro x0 x1 x2 x3 h0
  unfold Device.applySnap
  repeat' first
    | with_reducible assumption
    | with_reducible apply Device.modDict_later
    | with_reducible apply Device.freeAlarm_later
    | with_reducible apply Device.snapFired_later
    | with_reducible apply Device.armSlot_later
    | with_reducible apply Device.inFlash_later
    | with_reducible apply SumLater.inl
    | with_reducible apply SumLater.inr
    | with_reducible apply SumLater.ite
    | split

theorem Device.eraseNow_later {a : Device} : ∀ x0 x1, Device.Later a x0 → Device.Later a (@Device.eraseNow x0 x1) := by
  intro x0 x1 h0
  unfold Device.eraseNow
  repeat' first
    | with_reducible assumption
    | with_reducible apply Device.emit_later
    | with_reducible apply Device.modFlash_later

theorem Device.programNow_later {a : Device} : ∀ x0 x1 x2, Device.Later a x0 → Device.Later a (@Device.programNow x0 x1 x2) := by
  intro x0 x1 x2 h0
  unfold Device.programNow
  repeat' first
    | with_reducible assumption
    | with_reducible apply Device.emit_later
    | with_reducible apply Device.modFlash_later

theorem Device.stageChunk_later {a : Device} : ∀ x0 x1, Device.Later a x1 → SumLater a (@Device.stageChunk x0 x1) := by
  intro x0 x1 h0
  unfold Device.stageChunk
  repeat' first
    | with_reducible assumption
    | with_reducible apply Device.eraseNow_later
    | with_reducible apply Device.modFlash_later
    | with_reducible apply Device.programNow_later
    | with_reducible apply Device.inFlash_later
    | with_reducible apply SumLater.inl
    | with_reducible apply SumLater.inr
    | with_reducible apply Device.Later.foldl
    | intro _
    | with_reducible apply SumLater.ite

theorem Device.writeStage_later {a : Device} : ∀ x0 x1 x2, Device.Later a x2 → Device.Later a (@Device.writeStage x0 x1 x2) := by
  intro x0 x1 x2 h0
  unfold Device.writeStage
  repeat' first
    | with_reducible assumption
    | with_reducible apply Device.dzChecked_later
    | with_reducible apply Device.unstage_later
    | with_reducible apply Device.respond_later
    | with_reducible apply Device.stageChunk_later
    | with_reducible apply Device.stage_later
    | with_reducible apply Device.modFlash_later
    | with_reducible refine SumLater.of_inl (by with_reducible assumption) ?_
    | intro _
    | with_reducible apply Device.Later.ite
    | split

theorem Device.applyCommit_later {a : Device} : ∀ x0 x1 x2 x3, Device.Later a x3 → SumLater a (@Device.applyCommit x0 x1 x2 x3) := by
  intro x0 x1 x2 x3 h0
  unfold Device.applyCommit
  repeat' first
    | with_reducible assumption
    | with_reducible apply Device.eraseNow_later
    | with_reducible apply Device.modFlash_later
    | with_reducible apply Device.inFlash_later
    | with_reducible apply SumLater.inl
    | with_reducible apply SumLater.inr
    | with_reducible apply SumLater.ite

theorem Device.applySrc_later {a : Device} : ∀ x0 x1 x2, Device.Later a x2 → SumLater a (@Device.applySrc x0 x1 x2) := by
  intro x0 x1 x2 h0
  unfold Device.applySrc
  repeat' first
    | with_reducible assumption
    | with_reducible apply Device.setSource_later
    | with_reducible apply Device.inFlash_later
    | with_reducible apply SumLater.inl
    | with_reducible apply SumLater.inr
    | with_reducible apply SumLater.ite

theorem Device.applyTcHz_later {a : Device} : ∀ x0 x1 x2, Device.Later a x2 → SumLater a (@Device.applyTcHz x0 x1 x2) := by
  intro x0 x1 x2 h0
  unfold Device.applyTcHz
  repeat' first
    | with_reducible assumption
    | with_reducible apply Device.setTcHz_later
    | with_reducible apply Device.inFlash_later
    | with_reducible apply SumLater.inl
    | with_reducible apply SumLater.inr
    | with_reducible apply SumLater.ite

theorem Device.applyCal_later {a : Device} : ∀ x0 x1, Device.Later a x1 → SumLater a (@Device.applyCal x0 x1) := by
  intro x0 x1 h0
  unfold Device.applyCal
  repeat' first
    | with_reducible assumption
    | with_reducible apply Device.setCalendar_later
    | with_reducible apply SumLater.inl

theorem Device.applyOther_later {a : Device} : ∀ x0 x1 x2 x3 x4, Device.Later a x4 → SumLater a (@Device.applyOther x0 x1 x2 x3 x4) := by
  intro x0 x1 x2 x3 x4 h0
  unfold Device.applyOther
  repeat' first
    | with_reducible assumption
    | with_reducible apply Device.applyYardCtl_later
    | with_reducible apply Device.modDict_later
    | with_reducible apply Device.applyPwrCtl_later
    | with_reducible apply Device.modPower_later
    | with_reducible apply Device.modPort_later
    | with_reducible apply Device.applyNbr_later
    | with_reducible apply Device.inFlash_later
    | with_reducible apply SumLater.inl
    | with_reducible apply SumLater.inr
    | fail_if_no_progress with_reducible refine Device.Later.upd ?_ rfl rfl rfl
    | with_reducible apply Device.modTally_later
    | with_reducible rfl
    | exact fun _ => le_rfl
    | exact fun m => m
    | with_reducible apply SumLater.ite
    | split

end Sys2Proof.Machine
end

