-- ==== Sys2Proof/Laws/LaterPath.lean ====
section
/-! SUPPORT. The relation `Device.Later`, one lemma per operation: links, registers of the host, management path, time. -/

set_option linter.unusedTactic false
set_option linter.unreachableTactic false

namespace Sys2Proof.Machine

/-! ### LinkUnit -/

theorem Device.ackedFrame_later {a : Device} : ∀ x0 x1 x2, Device.Later a x0 → Device.Later a (@Device.ackedFrame x0 x1 x2) := by
  intro x0 x1 x2 h0
  unfold Device.ackedFrame
  repeat' first
    | with_reducible assumption
    | with_reducible apply Device.setBinding_later

theorem Device.writeAcked_later {a : Device} : ∀ x0 x1 x2, Device.Later a x0 → Device.Later a (@Device.writeAcked x0 x1 x2) := by
  intro x0 x1 x2 h0
  unfold Device.writeAcked
  repeat' first
    | with_reducible assumption
    | with_reducible apply Device.complete_later
    | with_reducible apply Device.Later.ite
    | split

theorem Device.takeAck_later {a : Device} : ∀ x0 x1 x2, Device.Later a x0 → Device.Later a (@Device.takeAck x0 x1 x2) := by
  intro x0 x1 x2 h0
  unfold Device.takeAck
  repeat' first
    | with_reducible assumption
    | with_reducible apply Device.setBinding_later
    | with_reducible apply Device.ackedFrame_later
    | with_reducible apply Device.writeAcked_later
    | with_reducible apply Device.flushOwed_later
    | with_reducible apply Device.Later.foldl
    | intro _

theorem Device.resendFrame_later {a : Device} : ∀ x0 x1 x2, Device.Later a x0 → Device.Later a (@Device.resendFrame x0 x1 x2) := by
  intro x0 x1 x2 h0
  unfold Device.resendFrame
  repeat' first
    | with_reducible assumption
    | with_reducible apply Device.modBinding_later
    | with_reducible apply Device.modPort_later
    | with_reducible apply Device.sendFrame_later
    | split

theorem Device.sendAck_later {a : Device} : ∀ x0 x1, Device.Later a x0 → Device.Later a (@Device.sendAck x0 x1) := by
  intro x0 x1 h0
  unfold Device.sendAck
  repeat' first
    | with_reducible assumption
    | with_reducible apply Device.sendFrame_later
    | with_reducible apply Device.setBinding_later

theorem Device.applyWrite_later {a : Device} : ∀ x0 x1 x2 x3, Device.Later a x0 → Device.Later a (@Device.applyWrite x0 x1 x2 x3) := by
  intro x0 x1 x2 x3 h0
  unfold Device.applyWrite
  repeat' first
    | with_reducible assumption
    | with_reducible apply Device.sendSeq_later
    | with_reducible apply Device.landBytes_later
    | split

theorem Device.applyRead_later {a : Device} : ∀ x0 x1 x2 x3, Device.Later a x0 → Device.Later a (@Device.applyRead x0 x1 x2 x3) := by
  intro x0 x1 x2 x3 h0
  unfold Device.applyRead
  repeat' first
    | with_reducible assumption
    | with_reducible apply Device.sendSeq_later
    | with_reducible apply Device.readYard_later
    | with_reducible refine Device.Later.of_eq (by with_reducible assumption) ?_
    | split

theorem Device.applyRsp_later {a : Device} : ∀ x0 x1 x2, Device.Later a x0 → Device.Later a (@Device.applyRsp x0 x1 x2) := by
  intro x0 x1 x2 h0
  unfold Device.applyRsp
  repeat' first
    | with_reducible assumption
    | with_reducible apply Device.modBinding_later
    | with_reducible apply Device.failPiece_later
    | with_reducible apply Device.gotData_later
    | with_reducible apply Device.setPiece_later
    | (intro (hh : Device.Later _ x); clear_value x)
    | with_reducible apply Device.Later.ite
    | split
    | (extract_lets -underBinder +onlyGivenNames x; with_reducible refine Device.Later.via x ?_ ?_; unfold x)

theorem Device.applyNak_later {a : Device} : ∀ x0 x1 x2, Device.Later a x0 → Device.Later a (@Device.applyNak x0 x1 x2) := by
  intro x0 x1 x2 h0
  unfold Device.applyNak
  repeat' first
    | with_reducible assumption
    | with_reducible apply Device.failPiece_later
    | with_reducible apply Device.haltChannel_later
    | split
    | (extract_lets -underBinder +onlyGivenNames x; clear_value x)

theorem Device.applyArrive_later {a : Device} : ∀ x0 x1 x2, Device.Later a x0 → Device.Later a (@Device.applyArrive x0 x1 x2) := by
  intro x0 x1 x2 h0
  unfold Device.applyArrive
  repeat' first
    | with_reducible assumption
    | with_reducible apply Device.tryComplete_later
    | with_reducible apply Device.setRound_later
    | with_reducible apply Device.Later.ite
    | split
    | (extract_lets -underBinder +onlyGivenNames x; clear_value x)

theorem Device.applyRelease_later {a : Device} : ∀ x0 x1 x2, Device.Later a x0 → Device.Later a (@Device.applyRelease x0 x1 x2) := by
  intro x0 x1 x2 h0
  unfold Device.applyRelease
  repeat' first
    | with_reducible assumption
    | with_reducible apply Device.takeCommon_later
    | with_reducible apply Device.releaseRound_later
    | with_reducible apply Device.rearmMuster_later
    | with_reducible apply Device.setRound_later
    | with_reducible apply Device.Later.ite
    | split
    | (extract_lets -underBinder +onlyGivenNames x; clear_value x)

theorem Device.applyFrame_later {a : Device} : ∀ x0 x1 x2, Device.Later a x0 → Device.Later a (@Device.applyFrame x0 x1 x2) := by
  intro x0 x1 x2 h0
  unfold Device.applyFrame
  repeat' first
    | with_reducible assumption
    | with_reducible apply Device.applyWrite_later
    | with_reducible apply Device.applyRead_later
    | with_reducible apply Device.applyRsp_later
    | with_reducible apply Device.applyNak_later
    | with_reducible apply Device.applyArrive_later
    | with_reducible apply Device.applyRelease_later
    | with_reducible apply Device.Later.ite
    | split

theorem Device.applyNext_later {a : Device} : ∀ x0 x1 x2, Device.Later a x0 → Device.Later a (@Device.applyNext x0 x1 x2) := by
  intro x0 x1 x2 h0
  unfold Device.applyNext
  repeat' first
    | with_reducible assumption
    | with_reducible apply Device.modBinding_later
    | with_reducible apply Device.applyFrame_later

theorem Device.applyHeld_later {a : Device} : ∀ x0 x1 x2, Device.Later a x0 → Device.Later a (@Device.applyHeld x0 x1 x2) := by
  intro x0 x1 x2 h0
  induction x2 generalizing x0 x1 with
  | zero =>
    unfold Device.applyHeld
    repeat' first
      | with_reducible assumption
      | with_reducible apply Device.applyNext_later
      | with_reducible apply Device.modBinding_later
      | with_reducible apply ih
      | split
  | succ n ih =>
    unfold Device.applyHeld
    repeat' first
      | with_reducible assumption
      | with_reducible apply Device.applyNext_later
      | with_reducible apply Device.modBinding_later
      | with_reducible apply ih
      | split

theorem Device.takeSequenced_later {a : Device} : ∀ x0 x1 x2, Device.Later a x0 → Device.Later a (@Device.takeSequenced x0 x1 x2) := by
  intro x0 x1 x2 h0
  unfold Device.takeSequenced
  repeat' first
    | with_reducible assumption
    | with_reducible apply Device.takeAck_later
    | with_reducible apply Device.applyHeld_later
    | with_reducible apply Device.applyNext_later
    | with_reducible apply Device.setBinding_later
    | with_reducible apply Device.sendAck_later
    | with_reducible apply Device.Later.ite

theorem Device.dropFrame_later {a : Device} : ∀ x0 x1, Device.Later a x0 → Device.Later a (@Device.dropFrame x0 x1) := by
  intro x0 x1 h0
  unfold Device.dropFrame
  repeat' first
    | with_reducible assumption
    | with_reducible apply Device.modPort_later

theorem Device.arrive_later {a : Device} : ∀ x0 x1 x2 x3 x4, (∀ y0 y1, Device.Later a y0 → Device.Later a (x3 y0 y1)) → Device.Later a x4 → Device.Later a (@Device.arrive x0 x1 x2 x3 x4) := by
  intro x0 x1 x2 x3 x4 h0 h1
  unfold Device.arrive
  repeat' first
    | with_reducible assumption
    | with_reducible apply Device.modPort_later
    | with_reducible apply Device.dropFrame_later
    | with_reducible apply Device.setBinding_later
    | with_reducible apply h0
    | with_reducible apply Device.Later.ite
    | split

theorem Device.takeHello_later {a : Device} : ∀ x0 x1 x2, Device.Later a x1 → Device.Later a (@Device.takeHello x0 x1 x2) := by
  intro x0 x1 x2 h0
  unfold Device.takeHello
  repeat' first
    | with_reducible assumption
    | with_reducible apply Device.sessionUp_later
    | with_reducible apply Device.setBinding_later
    | with_reducible apply Device.clearSession_later
    | with_reducible apply Device.sendFrame_later
    | with_reducible apply Device.Later.ite
    | split
    | (extract_lets -underBinder +onlyGivenNames x; clear_value x)

theorem Device.takeAckFrame_later {a : Device} : ∀ x0 x1 x2, Device.Later a x1 → Device.Later a (@Device.takeAckFrame x0 x1 x2) := by
  intro x0 x1 x2 h0
  unfold Device.takeAckFrame
  repeat' first
    | with_reducible assumption
    | with_reducible apply Device.takeAck_later
    | with_reducible apply Device.resendFrame_later
    | with_reducible apply Device.Later.foldl
    | intro _
    | with_reducible apply Device.Later.ite

theorem Device.forward_later {a : Device} : ∀ x0 x1 x2, Device.Later a x2 → Device.Later a (@Device.forward x0 x1 x2) := by
  intro x0 x1 x2 h0
  unfold Device.forward
  repeat' first
    | with_reducible assumption
    | with_reducible apply Device.modPort_later
    | with_reducible apply Device.dropFrame_later
    | with_reducible apply Device.putPort_later
    | with_reducible apply Device.Later.ite
    | split

theorem Device.hello_later {a : Device} : ∀ x0 x1, Device.Later a x1 → Device.Later a (@Device.hello x0 x1) := by
  intro x0 x1 h0
  unfold Device.hello
  repeat' first
    | with_reducible assumption
    | with_reducible apply Device.sendFrame_later
    | with_reducible apply Device.Later.ite

theorem Device.ackNow_later {a : Device} : ∀ x0 x1, Device.Later a x1 → Device.Later a (@Device.ackNow x0 x1) := by
  intro x0 x1 h0
  unfold Device.ackNow
  repeat' first
    | with_reducible assumption
    | with_reducible apply Device.sendAck_later
    | with_reducible apply Device.Later.ite

theorem Device.retransmit_later {a : Device} : ∀ x0 x1 x2, Device.Later a x2 → Device.Later a (@Device.retransmit x0 x1 x2) := by
  intro x0 x1 x2 h0
  unfold Device.retransmit
  repeat' first
    | with_reducible assumption
    | with_reducible apply Device.resendFrame_later
    | with_reducible apply Device.Later.ite
    | split
    | (extract_lets -underBinder +onlyGivenNames x; clear_value x)

theorem Device.timeoutSession_later {a : Device} : ∀ x0 x1, Device.Later a x1 → Device.Later a (@Device.timeoutSession x0 x1) := by
  intro x0 x1 h0
  unfold Device.timeoutSession
  repeat' first
    | with_reducible assumption
    | with_reducible apply Device.sessionDown_later
    | with_reducible apply Device.postDev_later
    | with_reducible apply Device.sessionOpen_later
    | with_reducible apply Device.Later.ite

theorem Device.linkChange_later {a : Device} : ∀ x0 x1 x2, Device.Later a x2 → Device.Later a (@Device.linkChange x0 x1 x2) := by
  intro x0 x1 x2 h0
  unfold Device.linkChange
  repeat' first
    | with_reducible assumption
    | with_reducible apply Device.modPort_later
    | with_reducible apply Device.sessionOpen_later
    | with_reducible apply Device.flushPort_later
    | with_reducible apply Device.Later.foldl
    | with_reducible apply Device.Later.ite

theorem Device.answerAt_later {a : Device} : ∀ x0 x1 x2 x3, Device.Later a x3 → Device.Later a (@Device.answerAt x0 x1 x2 x3) := by
  intro x0 x1 x2 x3 h0
  unfold Device.answerAt
  repeat' first
    | with_reducible assumption
    | with_reducible apply Device.modPort_later
    | with_reducible apply Device.emit_later
    | with_reducible apply Device.Later.ite

/-! ### Mmio -/

theorem Device.wideReg_later {a : Device} (d : Device) (off : Nat) (h : Device.Later a d) (old : Nat) (put : Nat → Device)
    (hp : d.wideReg off = some (old, put)) (v : Nat) : Device.Later a (put v) := by
  unfold Device.wideReg at hp
  dsimp only at hp
  repeat' split at hp
  all_goals cases hp
  all_goals first
    | exact h
    | exact Device.setRing_later _ _ _ h
    | exact Device.setVec_later _ _ _ h
    | exact Device.setStall_later _ _ _ h
    | (refine Device.Later.ite ?_ ?_ <;> first | exact h | exact Device.setStall_later _ _ _ h)
    | exact h.same rfl rfl rfl rfl rfl rfl rfl rfl

theorem Device.writeCrashCtl_later {a : Device} : ∀ x0 x1, Device.Later a x0 → Device.Later a (@Device.writeCrashCtl x0 x1) := by
  intro x0 x1 h0
  unfold Device.writeCrashCtl
  repeat' first
    | with_reducible assumption
    | fail_if_no_progress with_reducible refine Device.Later.upd ?_ rfl rfl rfl

theorem Device.writeVec_later {a : Device} : ∀ x0 x1 x2 x3, Device.Later a x0 → Device.Later a (@Device.writeVec x0 x1 x2 x3) := by
  intro x0 x1 x2 x3 h0
  unfold Device.writeVec
  repeat' first
    | with_reducible assumption
    | with_reducible apply Device.setVec_later
    | with_reducible apply Device.unmask_later
    | with_reducible apply Device.Later.ite

theorem Device.writeShare_later {a : Device} : ∀ x0 x1 x2 x3, Device.Later a x0 → Device.Later a (@Device.writeShare x0 x1 x2 x3) := by
  intro x0 x1 x2 x3 h0
  unfold Device.writeShare
  repeat' first
    | with_reducible assumption
    | with_reducible apply Device.modPdk_later

theorem Device.writeDrover_later {a : Device} : ∀ x0 x1 x2 x3, Device.Later a x0 → Device.Later a (@Device.writeDrover x0 x1 x2 x3) := by
  intro x0 x1 x2 x3 h0
  unfold Device.writeDrover
  repeat' first
    | with_reducible assumption
    | with_reducible apply Device.modPdk_later
    | with_reducible apply Device.writeShare_later
    | with_reducible apply Device.Later.ite

theorem Device.narrowReg_later {a : Device} : ∀ x0 x1 x2, Device.Later a x0 → Device.Later a (@Device.narrowReg x0 x1 x2) := by
  intro x0 x1 x2 h0
  unfold Device.narrowReg
  repeat' first
    | with_reducible assumption
    | with_reducible apply Device.writeCrashCtl_later
    | with_reducible apply Device.setRing_later
    | with_reducible apply Device.writeVec_later
    | with_reducible apply Device.writeDrover_later
    | fail_if_no_progress with_reducible refine Device.Later.upd ?_ rfl rfl rfl
    | with_reducible apply Device.Later.ite

theorem Device.writeReg_later {a : Device} : ∀ x0 x1 x2 x3, Device.Later a x3 → Device.Later a (@Device.writeReg x0 x1 x2 x3) := by
  intro x0 x1 x2 x3 h0
  unfold Device.writeReg
  repeat' first
    | with_reducible assumption
    | with_reducible apply Device.capsuleWrite_later
    | with_reducible apply Device.narrowReg_later
    | with_reducible exact Device.wideReg_later _ _ (by with_reducible assumption) _ _ (by with_reducible assumption) _
    | with_reducible apply Device.Later.ite
    | split

/-! ### PathUnit -/

theorem Device.spdmError_later {a : Device} : ∀ x0 x1 x2, Device.Later a x0 → Device.Later a (@Device.spdmError x0 x1 x2) := by
  intro x0 x1 x2 h0
  unfold Device.spdmError
  repeat' first
    | with_reducible assumption
    | with_reducible apply Device.emit_later

theorem Device.spdmAnswer_later {a : Device} : ∀ x0 x1 x2, Device.Later a x0 → Device.Later a (@Device.spdmAnswer x0 x1 x2) := by
  intro x0 x1 x2 h0
  unfold Device.spdmAnswer
  repeat' first
    | with_reducible assumption
    | with_reducible apply Device.emit_later

theorem Device.spdm_later {a : Device} : ∀ x0 x1 x2 x3 x4 x5, (∀ y0, Device.Later a y0 → Device.Later a (x4 y0)) → Device.Later a x5 → Device.Later a (@Device.spdm x0 x1 x2 x3 x4 x5) := by
  intro x0 x1 x2 x3 x4 x5 h0 h1
  unfold Device.spdm
  repeat' first
    | with_reducible assumption
    | with_reducible apply Device.spdmError_later
    | with_reducible apply h0
    | with_reducible apply Device.Later.ite

theorem Device.inSession_later {a : Device} : ∀ x0 x1 x2 x3 x4, (∀ y0 y1, Device.Later a y1 → Device.Later a (x3 y0 y1)) → Device.Later a x4 → Device.Later a (@Device.inSession x0 x1 x2 x3 x4) := by
  intro x0 x1 x2 x3 x4 h0 h1
  unfold Device.inSession
  repeat' first
    | with_reducible assumption
    | with_reducible apply Device.spdm_later
    | with_reducible apply Device.spdmError_later
    | with_reducible apply h0
    | intro _
    | with_reducible apply Device.Later.ite
    | split

theorem Device.spdmStep_later {a : Device} : ∀ x0 x1 x2 x3 x4 x5, Device.Later a x5 → Device.Later a (@Device.spdmStep x0 x1 x2 x3 x4 x5) := by
  intro x0 x1 x2 x3 x4 x5 h0
  unfold Device.spdmStep
  repeat' first
    | with_reducible assumption
    | with_reducible apply Device.spdm_later
    | with_reducible apply Device.spdmError_later
    | with_reducible apply Device.spdmAnswer_later
    | with_reducible apply Device.modDict_later
    | intro _
    | with_reducible apply Device.Later.ite

theorem Device.onSlot_later {a : Device} : ∀ x0 x1 x2 x3 x4, (∀ y0, Device.Later a y0 → Device.Later a (x3 y0)) → Device.Later a x4 → Device.Later a (@Device.onSlot x0 x1 x2 x3 x4) := by
  intro x0 x1 x2 x3 x4 h0 h1
  unfold Device.onSlot
  repeat' first
    | with_reducible assumption
    | with_reducible apply Device.spdm_later
    | with_reducible apply Device.spdmError_later
    | with_reducible apply h0
    | intro _
    | with_reducible apply Device.Later.ite

theorem Device.getCertificate_later {a : Device} : ∀ x0 x1 x2, Device.Later a x2 → Device.Later a (@Device.getCertificate x0 x1 x2) := by
  intro x0 x1 x2 h0
  unfold Device.getCertificate
  repeat' first
    | with_reducible assumption
    | with_reducible apply Device.onSlot_later
    | with_reducible apply Device.spdmAnswer_later
    | with_reducible apply Device.modDict_later
    | intro _

theorem Device.getMeasurements_later {a : Device} : ∀ x0 x1 x2, Device.Later a x2 → Device.Later a (@Device.getMeasurements x0 x1 x2) := by
  intro x0 x1 x2 h0
  unfold Device.getMeasurements
  repeat' first
    | with_reducible assumption
    | with_reducible apply Device.onSlot_later
    | with_reducible apply Device.modSecurity_later
    | with_reducible apply Device.modSess_later
    | with_reducible apply Device.spdmAnswer_later
    | with_reducible apply Device.modDict_later
    | intro _
    | with_reducible apply Device.Later.ite
    | split

theorem Device.keyExchange_later {a : Device} : ∀ x0 x1 x2, Device.Later a x2 → Device.Later a (@Device.keyExchange x0 x1 x2) := by
  intro x0 x1 x2 h0
  unfold Device.keyExchange
  repeat' first
    | with_reducible assumption
    | with_reducible apply Device.onSlot_later
    | with_reducible apply Device.spdmError_later
    | with_reducible apply Device.spdmAnswer_later
    | with_reducible apply Device.modSess_later
    | intro _
    | with_reducible apply Device.Later.ite
    | split

theorem Device.endSession_later {a : Device} : ∀ x0 x1, Device.Later a x0 → Device.Later a (@Device.endSession x0 x1) := by
  intro x0 x1 h0
  unfold Device.endSession
  repeat' first
    | with_reducible assumption
    | with_reducible apply Device.modDict_later
    | with_reducible apply Device.modSess_later

theorem Device.finish_later {a : Device} : ∀ x0 x1 x2, Device.Later a x2 → Device.Later a (@Device.finish x0 x1 x2) := by
  intro x0 x1 x2 h0
  unfold Device.finish
  repeat' first
    | with_reducible assumption
    | with_reducible apply Device.spdm_later
    | with_reducible apply Device.spdmError_later
    | with_reducible apply Device.spdmAnswer_later
    | with_reducible apply Device.modSess_later
    | with_reducible apply Device.endSession_later
    | intro _
    | with_reducible apply Device.Later.ite
    | split

theorem Device.heartbeatMsg_later {a : Device} : ∀ x0 x1 x2, Device.Later a x2 → Device.Later a (@Device.heartbeatMsg x0 x1 x2) := by
  intro x0 x1 x2 h0
  unfold Device.heartbeatMsg
  repeat' first
    | with_reducible assumption
    | with_reducible apply Device.inSession_later
    | with_reducible apply Device.spdmAnswer_later
    | with_reducible apply Device.modSess_later
    | intro _

theorem Device.keyUpdate_later {a : Device} : ∀ x0 x1 x2, Device.Later a x2 → Device.Later a (@Device.keyUpdate x0 x1 x2) := by
  intro x0 x1 x2 h0
  unfold Device.keyUpdate
  repeat' first
    | with_reducible assumption
    | with_reducible apply Device.inSession_later
    | with_reducible apply Device.spdmAnswer_later
    | with_reducible apply Device.modSess_later
    | with_reducible apply Device.spdmError_later
    | intro _
    | with_reducible apply Device.Later.ite

theorem Device.endSessionMsg_later {a : Device} : ∀ x0 x1 x2, Device.Later a x2 → Device.Later a (@Device.endSessionMsg x0 x1 x2) := by
  intro x0 x1 x2 h0
  unfold Device.endSessionMsg
  repeat' first
    | with_reducible assumption
    | with_reducible apply Device.inSession_later
    | with_reducible apply Device.spdmAnswer_later
    | with_reducible apply Device.endSession_later
    | intro _

theorem Device.chunkGet_later {a : Device} : ∀ x0 x1 x2, Device.Later a x2 → Device.Later a (@Device.chunkGet x0 x1 x2) := by
  intro x0 x1 x2 h0
  unfold Device.chunkGet
  repeat' first
    | with_reducible assumption
    | with_reducible apply Device.spdm_later
    | with_reducible apply Device.spdmAnswer_later
    | intro _

theorem Device.beatMissed_later {a : Device} : ∀ x0 x1, Device.Later a x1 → Device.Later a (@Device.beatMissed x0 x1) := by
  intro x0 x1 h0
  unfold Device.beatMissed
  repeat' first
    | with_reducible assumption
    | with_reducible apply Device.endSession_later
    | with_reducible apply Device.Later.ite

theorem Device.mctp_later {a : Device} : ∀ x0 x1 x2 x3, Device.Later a x3 → Device.Later a (@Device.mctp x0 x1 x2 x3) := by
  intro x0 x1 x2 x3 h0
  unfold Device.mctp
  repeat' first
    | with_reducible assumption
    | with_reducible apply Device.emit_later
    | with_reducible apply Device.Later.ite

theorem Device.setEid_later {a : Device} : ∀ x0 x1, Device.Later a x1 → Device.Later a (@Device.setEid x0 x1) := by
  intro x0 x1 h0
  unfold Device.setEid
  repeat' first
    | with_reducible assumption
    | with_reducible apply Device.mctp_later
    | with_reducible apply Device.modDict_later
    | with_reducible apply Device.Later.ite

theorem Device.assignAddr_later {a : Device} : ∀ x0 x1, Device.Later a x1 → Device.Later a (@Device.assignAddr x0 x1) := by
  intro x0 x1 h0
  unfold Device.assignAddr
  repeat' first
    | with_reducible assumption
    | with_reducible apply Device.modDict_later
    | with_reducible apply Device.Later.ite

/-! ### Tick -/

theorem Slice.grantPort_data (now : Nat) (s : Slice) (p : Nat) : (s.grantPort now p).data = s.data := by
  unfold Slice.grantPort
  dsimp only
  split
  · rfl
  · split <;> rfl
theorem Slice.portCycle_data (now : Nat) (s : Slice) : (s.portCycle now).data = s.data := by
  unfold Slice.portCycle
  split
  · rfl
  · have h : ∀ (l : List Nat) (s : Slice), (l.foldl (Slice.grantPort now) s).data = s.data := by
      intro l
      induction l with
      | nil => exact fun _ => rfl
      | cons p l ih => exact fun s => (ih _).trans (Slice.grantPort_data now s p)
    exact h _ s
theorem Slice.portCycle_wf {now : Nat} {s : Slice} (h : s.data.wf Blk.reset = true) :
    (s.portCycle now).data.wf Blk.reset = true := by rw [Slice.portCycle_data]; exact h

theorem Device.portsCycle_later {a : Device} : ∀ x0 x1, Device.Later a x0 → Device.Later a (@Device.portsCycle x0 x1) := by
  intro x0 x1 h0
  unfold Device.portsCycle
  repeat' first
    | with_reducible assumption
    | with_reducible apply Device.spend_later
    | with_reducible apply Device.setSlice_later
    | with_reducible exact Slice.portCycle_wf (by with_reducible assumption)
    | intro _
    | with_reducible apply Device.Later.ite

theorem Device.gridCycle_later {a : Device} : ∀ x0, Device.Later a x0 → Device.Later a (@Device.gridCycle x0) := by
  intro x0 h0
  unfold Device.gridCycle
  repeat' first
    | with_reducible assumption
    | with_reducible apply Device.troughCycle_later
    | with_reducible apply Device.walkCycle_later
    | with_reducible apply Device.portsCycle_later
    | with_reducible apply Device.setCore_later
    | with_reducible apply Device.Later.foldl
    | with_reducible apply Device.Later.tfoldl
    | fail_if_no_progress with_reducible refine Device.Later.upd ?_ rfl rfl rfl
    | intro _

theorem Device.gridStep_later {a : Device} : ∀ x0, Device.Later a x0 → Device.Later a (@Device.gridStep x0) := by
  intro x0 h0
  unfold Device.gridStep
  repeat' first
    | with_reducible assumption
    | with_reducible apply Device.gridCycle_later
    | fail_if_no_progress with_reducible refine Device.Later.upd ?_ rfl rfl rfl
    | with_reducible apply Device.Later.ite

theorem Device.chargeJob_later {a : Device} : ∀ x0 x1 x2, Device.Later a x1 → Device.Later a (@Device.chargeJob x0 x1 x2) := by
  intro x0 x1 x2 h0
  unfold Device.chargeJob
  repeat' first
    | with_reducible assumption
    | with_reducible apply Device.modPdk_later
    | with_reducible apply Device.chargeGroup_later
    | with_reducible apply Device.Later.ite

theorem Device.charged_later {a : Device} : ∀ x0 x1, Device.Later a x0 → Device.Later a (@Device.charged x0 x1) := by
  intro x0 x1 h0
  unfold Device.charged
  repeat' first
    | with_reducible assumption
    | with_reducible apply Device.chargeJob_later
    | with_reducible apply Device.Later.tfoldl
    | intro _
    | with_reducible apply Device.Later.ite

theorem Device.livened_later {a : Device} : ∀ x0 x1, Device.Later a x0 → Device.Later a (@Device.livened x0 x1) := by
  intro x0 x1 h0
  unfold Device.livened
  repeat' first
    | with_reducible assumption
    | with_reducible apply Device.modPdk_later
    | with_reducible apply Device.Later.foldl
    | intro _
    | with_reducible apply Device.Later.ite

theorem trimmed_fields (t : Tally) (b a : Nat) : (trimmed t b a).epoch = t.epoch ∧ (trimmed t b a).now = t.now ∧
    (trimmed t b a).running = t.running := ⟨rfl, rfl, rfl⟩
theorem tallyStep_fields (t : Tally) : (tallyStep t).epoch = t.epoch ∧ t.now ≤ (tallyStep t).now ∧
    (t.running = true → (tallyStep t).running = true) ∧ (t.running = false → (tallyStep t).now = t.now) := by
  unfold tallyStep
  dsimp only
  split
  · next hr =>
    split
    · exact ⟨rfl, Nat.le_add_right _ _, fun _ => hr, fun h => by simp [hr] at h⟩
    · split
      · exact ⟨rfl, le_rfl, fun _ => hr, fun h => by simp [hr] at h⟩
      · exact ⟨rfl, Nat.le_add_right _ _, fun _ => hr, fun h => by simp [hr] at h⟩
  · exact ⟨rfl, le_rfl, id, fun _ => rfl⟩
theorem calStep_fields (t : Tally) : (calStep t).epoch = t.epoch ∧ (calStep t).now = t.now ∧ (calStep t).running = t.running := by
  unfold calStep
  dsimp only
  split
  · split <;> exact ⟨rfl, rfl, rfl⟩
  · exact ⟨rfl, rfl, rfl⟩
theorem tickTally_later {a : Device} (d : Device) (h : Device.Later a d) :
    Device.Later a { d with tally := (tallyStep (calStep d.tally)).marked } := by
  obtain ⟨h1, h2, h3⟩ := calStep_fields d.tally
  obtain ⟨k1, k2, k3, k4⟩ := tallyStep_fields (calStep d.tally)
  generalize tallyStep (calStep d.tally) = t at k1 k2 k3 k4 ⊢
  refine Device.modTally_later (fun _ => t.marked) h (k1.trans h1) (fun _ => le_of_eq_of_le h2.symm k2) fun m => ?_
  change (t.running || t.now == 0) = true
  cases hr : d.tally.running with
  | true => simp [k3 (h3.trans hr)]
  | false =>
    simp only [Device.tallyOk, hr, Bool.false_or, beq_iff_eq] at m
    simp [k4 (h3.trans hr), h2, m]
theorem tick_later {a : Device} (d : Device) (h : Device.Later a d) : Device.Later a (tick d) := by
  have k := tickTally_later d h
  unfold tick
  generalize ({ d with tally := (tallyStep (calStep d.tally)).marked } : Device) = e at k ⊢
  exact Device.sampled_later _ _ (Device.livened_later _ _ (Device.charged_later _ _ (Device.framed_later _ _ (Device.gridStep_later _
    (Device.Later.ite (Device.anchor_later _ k) k)))))

end Sys2Proof.Machine
end

