-- ==== Sys2Proof/Laws/Post.lean ====
section
/-! SUPPORT. A posted record changes its ring, its vector and the log of what left the block, and nothing else; a trace record the
trace unit of its Paddock and that log; a flash log entry the flash. -/

namespace Sys2Proof.Machine
namespace Device

variable (d : Device)

@[simp] theorem raiseVector_fuse (v m : Nat) : (d.raiseVector v m).fuse = d.fuse := by
  unfold raiseVector; dsimp only; split; rfl; split <;> rfl
@[simp] theorem raiseVector_cal (v m : Nat) : (d.raiseVector v m).cal = d.cal := by
  unfold raiseVector; dsimp only; split; rfl; split <;> rfl
@[simp] theorem raiseVector_tally (v m : Nat) : (d.raiseVector v m).tally = d.tally := by
  unfold raiseVector; dsimp only; split; rfl; split <;> rfl
@[simp] theorem raiseVector_glb (v m : Nat) : (d.raiseVector v m).glb = d.glb := by
  unfold raiseVector; dsimp only; split; rfl; split <;> rfl
@[simp] theorem raiseVector_stalls (v m : Nat) : (d.raiseVector v m).stalls = d.stalls := by
  unfold raiseVector; dsimp only; split; rfl; split <;> rfl
@[simp] theorem raiseVector_queues (v m : Nat) : (d.raiseVector v m).queues = d.queues := by
  unfold raiseVector; dsimp only; split; rfl; split <;> rfl
@[simp] theorem raiseVector_objs (v m : Nat) : (d.raiseVector v m).objs = d.objs := by
  unfold raiseVector; dsimp only; split; rfl; split <;> rfl
@[simp] theorem raiseVector_fences (v m : Nat) : (d.raiseVector v m).fences = d.fences := by
  unfold raiseVector; dsimp only; split; rfl; split <;> rfl
@[simp] theorem raiseVector_seqs (v m : Nat) : (d.raiseVector v m).seqs = d.seqs := by
  unfold raiseVector; dsimp only; split; rfl; split <;> rfl
@[simp] theorem raiseVector_pdks (v m : Nat) : (d.raiseVector v m).pdks = d.pdks := by
  unfold raiseVector; dsimp only; split; rfl; split <;> rfl
@[simp] theorem raiseVector_jobs (v m : Nat) : (d.raiseVector v m).jobs = d.jobs := by
  unfold raiseVector; dsimp only; split; rfl; split <;> rfl
@[simp] theorem raiseVector_nextJob (v m : Nat) : (d.raiseVector v m).nextJob = d.nextJob := by
  unfold raiseVector; dsimp only; split; rfl; split <;> rfl
@[simp] theorem raiseVector_rounds (v m : Nat) : (d.raiseVector v m).rounds = d.rounds := by
  unfold raiseVector; dsimp only; split; rfl; split <;> rfl
@[simp] theorem raiseVector_cores (v m : Nat) : (d.raiseVector v m).cores = d.cores := by
  unfold raiseVector; dsimp only; split; rfl; split <;> rfl
@[simp] theorem raiseVector_slices (v m : Nat) : (d.raiseVector v m).slices = d.slices := by
  unfold raiseVector; dsimp only; split; rfl; split <;> rfl
@[simp] theorem raiseVector_saved (v m : Nat) : (d.raiseVector v m).saved = d.saved := by
  unfold raiseVector; dsimp only; split; rfl; split <;> rfl
@[simp] theorem raiseVector_windows (v m : Nat) : (d.raiseVector v m).windows = d.windows := by
  unfold raiseVector; dsimp only; split; rfl; split <;> rfl
@[simp] theorem raiseVector_pieces (v m : Nat) : (d.raiseVector v m).pieces = d.pieces := by
  unfold raiseVector; dsimp only; split; rfl; split <;> rfl
@[simp] theorem raiseVector_nextPiece (v m : Nat) : (d.raiseVector v m).nextPiece = d.nextPiece := by
  unfold raiseVector; dsimp only; split; rfl; split <;> rfl
@[simp] theorem raiseVector_sends (v m : Nat) : (d.raiseVector v m).sends = d.sends := by
  unfold raiseVector; dsimp only; split; rfl; split <;> rfl
@[simp] theorem raiseVector_pushes (v m : Nat) : (d.raiseVector v m).pushes = d.pushes := by
  unfold raiseVector; dsimp only; split; rfl; split <;> rfl
@[simp] theorem raiseVector_skid (v m : Nat) : (d.raiseVector v m).skid = d.skid := by
  unfold raiseVector; dsimp only; split; rfl; split <;> rfl
@[simp] theorem raiseVector_chans (v m : Nat) : (d.raiseVector v m).chans = d.chans := by
  unfold raiseVector; dsimp only; split; rfl; split <;> rfl
@[simp] theorem raiseVector_segs (v m : Nat) : (d.raiseVector v m).segs = d.segs := by
  unfold raiseVector; dsimp only; split; rfl; split <;> rfl
@[simp] theorem raiseVector_xlt (v m : Nat) : (d.raiseVector v m).xlt = d.xlt := by
  unfold raiseVector; dsimp only; split; rfl; split <;> rfl
@[simp] theorem raiseVector_links (v m : Nat) : (d.raiseVector v m).links = d.links := by
  unfold raiseVector; dsimp only; split; rfl; split <;> rfl
@[simp] theorem raiseVector_power (v m : Nat) : (d.raiseVector v m).power = d.power := by
  unfold raiseVector; dsimp only; split; rfl; split <;> rfl
@[simp] theorem raiseVector_sec (v m : Nat) : (d.raiseVector v m).sec = d.sec := by
  unfold raiseVector; dsimp only; split; rfl; split <;> rfl
@[simp] theorem raiseVector_resets (v m : Nat) : (d.raiseVector v m).resets = d.resets := by
  unfold raiseVector; dsimp only; split; rfl; split <;> rfl
@[simp] theorem raiseVector_dict (v m : Nat) : (d.raiseVector v m).dict = d.dict := by
  unfold raiseVector; dsimp only; split; rfl; split <;> rfl
@[simp] theorem raiseVector_flash (v m : Nat) : (d.raiseVector v m).flash = d.flash := by
  unfold raiseVector; dsimp only; split; rfl; split <;> rfl
@[simp] theorem raiseVector_boot (v m : Nat) : (d.raiseVector v m).boot = d.boot := by
  unfold raiseVector; dsimp only; split; rfl; split <;> rfl
@[simp] theorem raiseVector_coarse (v m : Nat) : (d.raiseVector v m).coarse = d.coarse := by
  unfold raiseVector; dsimp only; split; rfl; split <;> rfl
@[simp] theorem raiseVector_free (v m : Nat) : (d.raiseVector v m).free = d.free := by
  unfold raiseVector; dsimp only; split; rfl; split <;> rfl
@[simp] theorem postRing_fuse (n : Nat) (ev : EventRec) : (d.postRing n ev).fuse = d.fuse := by
  unfold postRing; dsimp only; split
  · rw [raiseVector_fuse]; rfl
  · rfl
@[simp] theorem postRing_cal (n : Nat) (ev : EventRec) : (d.postRing n ev).cal = d.cal := by
  unfold postRing; dsimp only; split
  · rw [raiseVector_cal]; rfl
  · rfl
@[simp] theorem postRing_tally (n : Nat) (ev : EventRec) : (d.postRing n ev).tally = d.tally := by
  unfold postRing; dsimp only; split
  · rw [raiseVector_tally]; rfl
  · rfl
@[simp] theorem postRing_glb (n : Nat) (ev : EventRec) : (d.postRing n ev).glb = d.glb := by
  unfold postRing; dsimp only; split
  · rw [raiseVector_glb]; rfl
  · rfl
@[simp] theorem postRing_stalls (n : Nat) (ev : EventRec) : (d.postRing n ev).stalls = d.stalls := by
  unfold postRing; dsimp only; split
  · rw [raiseVector_stalls]; rfl
  · rfl
@[simp] theorem postRing_queues (n : Nat) (ev : EventRec) : (d.postRing n ev).queues = d.queues := by
  unfold postRing; dsimp only; split
  · rw [raiseVector_queues]; rfl
  · rfl
@[simp] theorem postRing_objs (n : Nat) (ev : EventRec) : (d.postRing n ev).objs = d.objs := by
  unfold postRing; dsimp only; split
  · rw [raiseVector_objs]; rfl
  · rfl
@[simp] theorem postRing_fences (n : Nat) (ev : EventRec) : (d.postRing n ev).fences = d.fences := by
  unfold postRing; dsimp only; split
  · rw [raiseVector_fences]; rfl
  · rfl
@[simp] theorem postRing_seqs (n : Nat) (ev : EventRec) : (d.postRing n ev).seqs = d.seqs := by
  unfold postRing; dsimp only; split
  · rw [raiseVector_seqs]; rfl
  · rfl
@[simp] theorem postRing_pdks (n : Nat) (ev : EventRec) : (d.postRing n ev).pdks = d.pdks := by
  unfold postRing; dsimp only; split
  · rw [raiseVector_pdks]; rfl
  · rfl
@[simp] theorem postRing_jobs (n : Nat) (ev : EventRec) : (d.postRing n ev).jobs = d.jobs := by
  unfold postRing; dsimp only; split
  · rw [raiseVector_jobs]; rfl
  · rfl
@[simp] theorem postRing_nextJob (n : Nat) (ev : EventRec) : (d.postRing n ev).nextJob = d.nextJob := by
  unfold postRing; dsimp only; split
  · rw [raiseVector_nextJob]; rfl
  · rfl
@[simp] theorem postRing_rounds (n : Nat) (ev : EventRec) : (d.postRing n ev).rounds = d.rounds := by
  unfold postRing; dsimp only; split
  · rw [raiseVector_rounds]; rfl
  · rfl
@[simp] theorem postRing_cores (n : Nat) (ev : EventRec) : (d.postRing n ev).cores = d.cores := by
  unfold postRing; dsimp only; split
  · rw [raiseVector_cores]; rfl
  · rfl
@[simp] theorem postRing_slices (n : Nat) (ev : EventRec) : (d.postRing n ev).slices = d.slices := by
  unfold postRing; dsimp only; split
  · rw [raiseVector_slices]; rfl
  · rfl
@[simp] theorem postRing_saved (n : Nat) (ev : EventRec) : (d.postRing n ev).saved = d.saved := by
  unfold postRing; dsimp only; split
  · rw [raiseVector_saved]; rfl
  · rfl
@[simp] theorem postRing_windows (n : Nat) (ev : EventRec) : (d.postRing n ev).windows = d.windows := by
  unfold postRing; dsimp only; split
  · rw [raiseVector_windows]; rfl
  · rfl
@[simp] theorem postRing_pieces (n : Nat) (ev : EventRec) : (d.postRing n ev).pieces = d.pieces := by
  unfold postRing; dsimp only; split
  · rw [raiseVector_pieces]; rfl
  · rfl
@[simp] theorem postRing_nextPiece (n : Nat) (ev : EventRec) : (d.postRing n ev).nextPiece = d.nextPiece := by
  unfold postRing; dsimp only; split
  · rw [raiseVector_nextPiece]; rfl
  · rfl
@[simp] theorem postRing_sends (n : Nat) (ev : EventRec) : (d.postRing n ev).sends = d.sends := by
  unfold postRing; dsimp only; split
  · rw [raiseVector_sends]; rfl
  · rfl
@[simp] theorem postRing_pushes (n : Nat) (ev : EventRec) : (d.postRing n ev).pushes = d.pushes := by
  unfold postRing; dsimp only; split
  · rw [raiseVector_pushes]; rfl
  · rfl
@[simp] theorem postRing_skid (n : Nat) (ev : EventRec) : (d.postRing n ev).skid = d.skid := by
  unfold postRing; dsimp only; split
  · rw [raiseVector_skid]; rfl
  · rfl
@[simp] theorem postRing_chans (n : Nat) (ev : EventRec) : (d.postRing n ev).chans = d.chans := by
  unfold postRing; dsimp only; split
  · rw [raiseVector_chans]; rfl
  · rfl
@[simp] theorem postRing_segs (n : Nat) (ev : EventRec) : (d.postRing n ev).segs = d.segs := by
  unfold postRing; dsimp only; split
  · rw [raiseVector_segs]; rfl
  · rfl
@[simp] theorem postRing_xlt (n : Nat) (ev : EventRec) : (d.postRing n ev).xlt = d.xlt := by
  unfold postRing; dsimp only; split
  · rw [raiseVector_xlt]; rfl
  · rfl
@[simp] theorem postRing_links (n : Nat) (ev : EventRec) : (d.postRing n ev).links = d.links := by
  unfold postRing; dsimp only; split
  · rw [raiseVector_links]; rfl
  · rfl
@[simp] theorem postRing_power (n : Nat) (ev : EventRec) : (d.postRing n ev).power = d.power := by
  unfold postRing; dsimp only; split
  · rw [raiseVector_power]; rfl
  · rfl
@[simp] theorem postRing_sec (n : Nat) (ev : EventRec) : (d.postRing n ev).sec = d.sec := by
  unfold postRing; dsimp only; split
  · rw [raiseVector_sec]; rfl
  · rfl
@[simp] theorem postRing_resets (n : Nat) (ev : EventRec) : (d.postRing n ev).resets = d.resets := by
  unfold postRing; dsimp only; split
  · rw [raiseVector_resets]; rfl
  · rfl
@[simp] theorem postRing_dict (n : Nat) (ev : EventRec) : (d.postRing n ev).dict = d.dict := by
  unfold postRing; dsimp only; split
  · rw [raiseVector_dict]; rfl
  · rfl
@[simp] theorem postRing_flash (n : Nat) (ev : EventRec) : (d.postRing n ev).flash = d.flash := by
  unfold postRing; dsimp only; split
  · rw [raiseVector_flash]; rfl
  · rfl
@[simp] theorem postRing_boot (n : Nat) (ev : EventRec) : (d.postRing n ev).boot = d.boot := by
  unfold postRing; dsimp only; split
  · rw [raiseVector_boot]; rfl
  · rfl
@[simp] theorem postRing_coarse (n : Nat) (ev : EventRec) : (d.postRing n ev).coarse = d.coarse := by
  unfold postRing; dsimp only; split
  · rw [raiseVector_coarse]; rfl
  · rfl
@[simp] theorem postRing_free (n : Nat) (ev : EventRec) : (d.postRing n ev).free = d.free := by
  unfold postRing; dsimp only; split
  · rw [raiseVector_free]; rfl
  · rfl
@[simp] theorem postQueue_fuse (n : Nat) (ev : EventRec) : (d.postQueue n ev).fuse = d.fuse := by
  unfold postQueue; dsimp only; split <;> simp
@[simp] theorem postQueue_cal (n : Nat) (ev : EventRec) : (d.postQueue n ev).cal = d.cal := by
  unfold postQueue; dsimp only; split <;> simp
@[simp] theorem postQueue_tally (n : Nat) (ev : EventRec) : (d.postQueue n ev).tally = d.tally := by
  unfold postQueue; dsimp only; split <;> simp
@[simp] theorem postQueue_glb (n : Nat) (ev : EventRec) : (d.postQueue n ev).glb = d.glb := by
  unfold postQueue; dsimp only; split <;> simp
@[simp] theorem postQueue_stalls (n : Nat) (ev : EventRec) : (d.postQueue n ev).stalls = d.stalls := by
  unfold postQueue; dsimp only; split <;> simp
@[simp] theorem postQueue_queues (n : Nat) (ev : EventRec) : (d.postQueue n ev).queues = d.queues := by
  unfold postQueue; dsimp only; split <;> simp
@[simp] theorem postQueue_objs (n : Nat) (ev : EventRec) : (d.postQueue n ev).objs = d.objs := by
  unfold postQueue; dsimp only; split <;> simp
@[simp] theorem postQueue_fences (n : Nat) (ev : EventRec) : (d.postQueue n ev).fences = d.fences := by
  unfold postQueue; dsimp only; split <;> simp
@[simp] theorem postQueue_seqs (n : Nat) (ev : EventRec) : (d.postQueue n ev).seqs = d.seqs := by
  unfold postQueue; dsimp only; split <;> simp
@[simp] theorem postQueue_pdks (n : Nat) (ev : EventRec) : (d.postQueue n ev).pdks = d.pdks := by
  unfold postQueue; dsimp only; split <;> simp
@[simp] theorem postQueue_jobs (n : Nat) (ev : EventRec) : (d.postQueue n ev).jobs = d.jobs := by
  unfold postQueue; dsimp only; split <;> simp
@[simp] theorem postQueue_nextJob (n : Nat) (ev : EventRec) : (d.postQueue n ev).nextJob = d.nextJob := by
  unfold postQueue; dsimp only; split <;> simp
@[simp] theorem postQueue_rounds (n : Nat) (ev : EventRec) : (d.postQueue n ev).rounds = d.rounds := by
  unfold postQueue; dsimp only; split <;> simp
@[simp] theorem postQueue_cores (n : Nat) (ev : EventRec) : (d.postQueue n ev).cores = d.cores := by
  unfold postQueue; dsimp only; split <;> simp
@[simp] theorem postQueue_slices (n : Nat) (ev : EventRec) : (d.postQueue n ev).slices = d.slices := by
  unfold postQueue; dsimp only; split <;> simp
@[simp] theorem postQueue_saved (n : Nat) (ev : EventRec) : (d.postQueue n ev).saved = d.saved := by
  unfold postQueue; dsimp only; split <;> simp
@[simp] theorem postQueue_windows (n : Nat) (ev : EventRec) : (d.postQueue n ev).windows = d.windows := by
  unfold postQueue; dsimp only; split <;> simp
@[simp] theorem postQueue_pieces (n : Nat) (ev : EventRec) : (d.postQueue n ev).pieces = d.pieces := by
  unfold postQueue; dsimp only; split <;> simp
@[simp] theorem postQueue_nextPiece (n : Nat) (ev : EventRec) : (d.postQueue n ev).nextPiece = d.nextPiece := by
  unfold postQueue; dsimp only; split <;> simp
@[simp] theorem postQueue_sends (n : Nat) (ev : EventRec) : (d.postQueue n ev).sends = d.sends := by
  unfold postQueue; dsimp only; split <;> simp
@[simp] theorem postQueue_pushes (n : Nat) (ev : EventRec) : (d.postQueue n ev).pushes = d.pushes := by
  unfold postQueue; dsimp only; split <;> simp
@[simp] theorem postQueue_skid (n : Nat) (ev : EventRec) : (d.postQueue n ev).skid = d.skid := by
  unfold postQueue; dsimp only; split <;> simp
@[simp] theorem postQueue_chans (n : Nat) (ev : EventRec) : (d.postQueue n ev).chans = d.chans := by
  unfold postQueue; dsimp only; split <;> simp
@[simp] theorem postQueue_segs (n : Nat) (ev : EventRec) : (d.postQueue n ev).segs = d.segs := by
  unfold postQueue; dsimp only; split <;> simp
@[simp] theorem postQueue_xlt (n : Nat) (ev : EventRec) : (d.postQueue n ev).xlt = d.xlt := by
  unfold postQueue; dsimp only; split <;> simp
@[simp] theorem postQueue_links (n : Nat) (ev : EventRec) : (d.postQueue n ev).links = d.links := by
  unfold postQueue; dsimp only; split <;> simp
@[simp] theorem postQueue_power (n : Nat) (ev : EventRec) : (d.postQueue n ev).power = d.power := by
  unfold postQueue; dsimp only; split <;> simp
@[simp] theorem postQueue_sec (n : Nat) (ev : EventRec) : (d.postQueue n ev).sec = d.sec := by
  unfold postQueue; dsimp only; split <;> simp
@[simp] theorem postQueue_resets (n : Nat) (ev : EventRec) : (d.postQueue n ev).resets = d.resets := by
  unfold postQueue; dsimp only; split <;> simp
@[simp] theorem postQueue_dict (n : Nat) (ev : EventRec) : (d.postQueue n ev).dict = d.dict := by
  unfold postQueue; dsimp only; split <;> simp
@[simp] theorem postQueue_flash (n : Nat) (ev : EventRec) : (d.postQueue n ev).flash = d.flash := by
  unfold postQueue; dsimp only; split <;> simp
@[simp] theorem postQueue_boot (n : Nat) (ev : EventRec) : (d.postQueue n ev).boot = d.boot := by
  unfold postQueue; dsimp only; split <;> simp
@[simp] theorem postQueue_coarse (n : Nat) (ev : EventRec) : (d.postQueue n ev).coarse = d.coarse := by
  unfold postQueue; dsimp only; split <;> simp
@[simp] theorem postQueue_free (n : Nat) (ev : EventRec) : (d.postQueue n ev).free = d.free := by
  unfold postQueue; dsimp only; split <;> simp
@[simp] theorem postDev_fuse (ev : EventRec) : (d.postDev ev).fuse = d.fuse := postRing_fuse _ _ _
@[simp] theorem postDev_cal (ev : EventRec) : (d.postDev ev).cal = d.cal := postRing_cal _ _ _
@[simp] theorem postDev_tally (ev : EventRec) : (d.postDev ev).tally = d.tally := postRing_tally _ _ _
@[simp] theorem postDev_glb (ev : EventRec) : (d.postDev ev).glb = d.glb := postRing_glb _ _ _
@[simp] theorem postDev_stalls (ev : EventRec) : (d.postDev ev).stalls = d.stalls := postRing_stalls _ _ _
@[simp] theorem postDev_queues (ev : EventRec) : (d.postDev ev).queues = d.queues := postRing_queues _ _ _
@[simp] theorem postDev_objs (ev : EventRec) : (d.postDev ev).objs = d.objs := postRing_objs _ _ _
@[simp] theorem postDev_fences (ev : EventRec) : (d.postDev ev).fences = d.fences := postRing_fences _ _ _
@[simp] theorem postDev_seqs (ev : EventRec) : (d.postDev ev).seqs = d.seqs := postRing_seqs _ _ _
@[simp] theorem postDev_pdks (ev : EventRec) : (d.postDev ev).pdks = d.pdks := postRing_pdks _ _ _
@[simp] theorem postDev_jobs (ev : EventRec) : (d.postDev ev).jobs = d.jobs := postRing_jobs _ _ _
@[simp] theorem postDev_nextJob (ev : EventRec) : (d.postDev ev).nextJob = d.nextJob := postRing_nextJob _ _ _
@[simp] theorem postDev_rounds (ev : EventRec) : (d.postDev ev).rounds = d.rounds := postRing_rounds _ _ _
@[simp] theorem postDev_cores (ev : EventRec) : (d.postDev ev).cores = d.cores := postRing_cores _ _ _
@[simp] theorem postDev_slices (ev : EventRec) : (d.postDev ev).slices = d.slices := postRing_slices _ _ _
@[simp] theorem postDev_saved (ev : EventRec) : (d.postDev ev).saved = d.saved := postRing_saved _ _ _
@[simp] theorem postDev_windows (ev : EventRec) : (d.postDev ev).windows = d.windows := postRing_windows _ _ _
@[simp] theorem postDev_pieces (ev : EventRec) : (d.postDev ev).pieces = d.pieces := postRing_pieces _ _ _
@[simp] theorem postDev_nextPiece (ev : EventRec) : (d.postDev ev).nextPiece = d.nextPiece := postRing_nextPiece _ _ _
@[simp] theorem postDev_sends (ev : EventRec) : (d.postDev ev).sends = d.sends := postRing_sends _ _ _
@[simp] theorem postDev_pushes (ev : EventRec) : (d.postDev ev).pushes = d.pushes := postRing_pushes _ _ _
@[simp] theorem postDev_skid (ev : EventRec) : (d.postDev ev).skid = d.skid := postRing_skid _ _ _
@[simp] theorem postDev_chans (ev : EventRec) : (d.postDev ev).chans = d.chans := postRing_chans _ _ _
@[simp] theorem postDev_segs (ev : EventRec) : (d.postDev ev).segs = d.segs := postRing_segs _ _ _
@[simp] theorem postDev_xlt (ev : EventRec) : (d.postDev ev).xlt = d.xlt := postRing_xlt _ _ _
@[simp] theorem postDev_links (ev : EventRec) : (d.postDev ev).links = d.links := postRing_links _ _ _
@[simp] theorem postDev_power (ev : EventRec) : (d.postDev ev).power = d.power := postRing_power _ _ _
@[simp] theorem postDev_sec (ev : EventRec) : (d.postDev ev).sec = d.sec := postRing_sec _ _ _
@[simp] theorem postDev_resets (ev : EventRec) : (d.postDev ev).resets = d.resets := postRing_resets _ _ _
@[simp] theorem postDev_dict (ev : EventRec) : (d.postDev ev).dict = d.dict := postRing_dict _ _ _
@[simp] theorem postDev_flash (ev : EventRec) : (d.postDev ev).flash = d.flash := postRing_flash _ _ _
@[simp] theorem postDev_boot (ev : EventRec) : (d.postDev ev).boot = d.boot := postRing_boot _ _ _
@[simp] theorem postDev_coarse (ev : EventRec) : (d.postDev ev).coarse = d.coarse := postRing_coarse _ _ _
@[simp] theorem postDev_free (ev : EventRec) : (d.postDev ev).free = d.free := postRing_free _ _ _
@[simp] theorem traceRec_fuse (c k s b x : Nat) : (d.traceRec c k s b x).fuse = d.fuse := by
  unfold traceRec; dsimp only; repeat' (first | rfl | split)
@[simp] theorem traceRec_cal (c k s b x : Nat) : (d.traceRec c k s b x).cal = d.cal := by
  unfold traceRec; dsimp only; repeat' (first | rfl | split)
@[simp] theorem traceRec_tally (c k s b x : Nat) : (d.traceRec c k s b x).tally = d.tally := by
  unfold traceRec; dsimp only; repeat' (first | rfl | split)
@[simp] theorem traceRec_glb (c k s b x : Nat) : (d.traceRec c k s b x).glb = d.glb := by
  unfold traceRec; dsimp only; repeat' (first | rfl | split)
@[simp] theorem traceRec_stalls (c k s b x : Nat) : (d.traceRec c k s b x).stalls = d.stalls := by
  unfold traceRec; dsimp only; repeat' (first | rfl | split)
@[simp] theorem traceRec_queues (c k s b x : Nat) : (d.traceRec c k s b x).queues = d.queues := by
  unfold traceRec; dsimp only; repeat' (first | rfl | split)
@[simp] theorem traceRec_objs (c k s b x : Nat) : (d.traceRec c k s b x).objs = d.objs := by
  unfold traceRec; dsimp only; repeat' (first | rfl | split)
@[simp] theorem traceRec_fences (c k s b x : Nat) : (d.traceRec c k s b x).fences = d.fences := by
  unfold traceRec; dsimp only; repeat' (first | rfl | split)
@[simp] theorem traceRec_seqs (c k s b x : Nat) : (d.traceRec c k s b x).seqs = d.seqs := by
  unfold traceRec; dsimp only; repeat' (first | rfl | split)
@[simp] theorem traceRec_pdks (c k s b x : Nat) : (d.traceRec c k s b x).pdks = d.pdks := by
  unfold traceRec; dsimp only; repeat' (first | rfl | split)
@[simp] theorem traceRec_jobs (c k s b x : Nat) : (d.traceRec c k s b x).jobs = d.jobs := by
  unfold traceRec; dsimp only; repeat' (first | rfl | split)
@[simp] theorem traceRec_nextJob (c k s b x : Nat) : (d.traceRec c k s b x).nextJob = d.nextJob := by
  unfold traceRec; dsimp only; repeat' (first | rfl | split)
@[simp] theorem traceRec_rounds (c k s b x : Nat) : (d.traceRec c k s b x).rounds = d.rounds := by
  unfold traceRec; dsimp only; repeat' (first | rfl | split)
@[simp] theorem traceRec_cores (c k s b x : Nat) : (d.traceRec c k s b x).cores = d.cores := by
  unfold traceRec; dsimp only; repeat' (first | rfl | split)
@[simp] theorem traceRec_slices (c k s b x : Nat) : (d.traceRec c k s b x).slices = d.slices := by
  unfold traceRec; dsimp only; repeat' (first | rfl | split)
@[simp] theorem traceRec_saved (c k s b x : Nat) : (d.traceRec c k s b x).saved = d.saved := by
  unfold traceRec; dsimp only; repeat' (first | rfl | split)
@[simp] theorem traceRec_windows (c k s b x : Nat) : (d.traceRec c k s b x).windows = d.windows := by
  unfold traceRec; dsimp only; repeat' (first | rfl | split)
@[simp] theorem traceRec_pieces (c k s b x : Nat) : (d.traceRec c k s b x).pieces = d.pieces := by
  unfold traceRec; dsimp only; repeat' (first | rfl | split)
@[simp] theorem traceRec_nextPiece (c k s b x : Nat) : (d.traceRec c k s b x).nextPiece = d.nextPiece := by
  unfold traceRec; dsimp only; repeat' (first | rfl | split)
@[simp] theorem traceRec_sends (c k s b x : Nat) : (d.traceRec c k s b x).sends = d.sends := by
  unfold traceRec; dsimp only; repeat' (first | rfl | split)
@[simp] theorem traceRec_pushes (c k s b x : Nat) : (d.traceRec c k s b x).pushes = d.pushes := by
  unfold traceRec; dsimp only; repeat' (first | rfl | split)
@[simp] theorem traceRec_skid (c k s b x : Nat) : (d.traceRec c k s b x).skid = d.skid := by
  unfold traceRec; dsimp only; repeat' (first | rfl | split)
@[simp] theorem traceRec_chans (c k s b x : Nat) : (d.traceRec c k s b x).chans = d.chans := by
  unfold traceRec; dsimp only; repeat' (first | rfl | split)
@[simp] theorem traceRec_segs (c k s b x : Nat) : (d.traceRec c k s b x).segs = d.segs := by
  unfold traceRec; dsimp only; repeat' (first | rfl | split)
@[simp] theorem traceRec_xlt (c k s b x : Nat) : (d.traceRec c k s b x).xlt = d.xlt := by
  unfold traceRec; dsimp only; repeat' (first | rfl | split)
@[simp] theorem traceRec_links (c k s b x : Nat) : (d.traceRec c k s b x).links = d.links := by
  unfold traceRec; dsimp only; repeat' (first | rfl | split)
@[simp] theorem traceRec_power (c k s b x : Nat) : (d.traceRec c k s b x).power = d.power := by
  unfold traceRec; dsimp only; repeat' (first | rfl | split)
@[simp] theorem traceRec_resets (c k s b x : Nat) : (d.traceRec c k s b x).resets = d.resets := by
  unfold traceRec; dsimp only; repeat' (first | rfl | split)
@[simp] theorem traceRec_dict (c k s b x : Nat) : (d.traceRec c k s b x).dict = d.dict := by
  unfold traceRec; dsimp only; repeat' (first | rfl | split)
@[simp] theorem traceRec_flash (c k s b x : Nat) : (d.traceRec c k s b x).flash = d.flash := by
  unfold traceRec; dsimp only; repeat' (first | rfl | split)
@[simp] theorem traceRec_boot (c k s b x : Nat) : (d.traceRec c k s b x).boot = d.boot := by
  unfold traceRec; dsimp only; repeat' (first | rfl | split)
@[simp] theorem traceRec_coarse (c k s b x : Nat) : (d.traceRec c k s b x).coarse = d.coarse := by
  unfold traceRec; dsimp only; repeat' (first | rfl | split)
@[simp] theorem traceRec_free (c k s b x : Nat) : (d.traceRec c k s b x).free = d.free := by
  unfold traceRec; dsimp only; repeat' (first | rfl | split)
@[simp] theorem traceRec_rings (c k s b x : Nat) : (d.traceRec c k s b x).rings = d.rings := by
  unfold traceRec; dsimp only; repeat' (first | rfl | split)
@[simp] theorem traceRec_vecs (c k s b x : Nat) : (d.traceRec c k s b x).vecs = d.vecs := by
  unfold traceRec; dsimp only; repeat' (first | rfl | split)
@[simp] theorem logFlash_fuse (c : Code) (x : W64) : (d.logFlash c x).fuse = d.fuse := by
  unfold logFlash; dsimp only; split <;> rfl
@[simp] theorem logFlash_cal (c : Code) (x : W64) : (d.logFlash c x).cal = d.cal := by
  unfold logFlash; dsimp only; split <;> rfl
@[simp] theorem logFlash_tally (c : Code) (x : W64) : (d.logFlash c x).tally = d.tally := by
  unfold logFlash; dsimp only; split <;> rfl
@[simp] theorem logFlash_glb (c : Code) (x : W64) : (d.logFlash c x).glb = d.glb := by
  unfold logFlash; dsimp only; split <;> rfl
@[simp] theorem logFlash_stalls (c : Code) (x : W64) : (d.logFlash c x).stalls = d.stalls := by
  unfold logFlash; dsimp only; split <;> rfl
@[simp] theorem logFlash_queues (c : Code) (x : W64) : (d.logFlash c x).queues = d.queues := by
  unfold logFlash; dsimp only; split <;> rfl
@[simp] theorem logFlash_objs (c : Code) (x : W64) : (d.logFlash c x).objs = d.objs := by
  unfold logFlash; dsimp only; split <;> rfl
@[simp] theorem logFlash_fences (c : Code) (x : W64) : (d.logFlash c x).fences = d.fences := by
  unfold logFlash; dsimp only; split <;> rfl
@[simp] theorem logFlash_seqs (c : Code) (x : W64) : (d.logFlash c x).seqs = d.seqs := by
  unfold logFlash; dsimp only; split <;> rfl
@[simp] theorem logFlash_pdks (c : Code) (x : W64) : (d.logFlash c x).pdks = d.pdks := by
  unfold logFlash; dsimp only; split <;> rfl
@[simp] theorem logFlash_jobs (c : Code) (x : W64) : (d.logFlash c x).jobs = d.jobs := by
  unfold logFlash; dsimp only; split <;> rfl
@[simp] theorem logFlash_nextJob (c : Code) (x : W64) : (d.logFlash c x).nextJob = d.nextJob := by
  unfold logFlash; dsimp only; split <;> rfl
@[simp] theorem logFlash_rounds (c : Code) (x : W64) : (d.logFlash c x).rounds = d.rounds := by
  unfold logFlash; dsimp only; split <;> rfl
@[simp] theorem logFlash_cores (c : Code) (x : W64) : (d.logFlash c x).cores = d.cores := by
  unfold logFlash; dsimp only; split <;> rfl
@[simp] theorem logFlash_slices (c : Code) (x : W64) : (d.logFlash c x).slices = d.slices := by
  unfold logFlash; dsimp only; split <;> rfl
@[simp] theorem logFlash_saved (c : Code) (x : W64) : (d.logFlash c x).saved = d.saved := by
  unfold logFlash; dsimp only; split <;> rfl
@[simp] theorem logFlash_windows (c : Code) (x : W64) : (d.logFlash c x).windows = d.windows := by
  unfold logFlash; dsimp only; split <;> rfl
@[simp] theorem logFlash_pieces (c : Code) (x : W64) : (d.logFlash c x).pieces = d.pieces := by
  unfold logFlash; dsimp only; split <;> rfl
@[simp] theorem logFlash_nextPiece (c : Code) (x : W64) : (d.logFlash c x).nextPiece = d.nextPiece := by
  unfold logFlash; dsimp only; split <;> rfl
@[simp] theorem logFlash_sends (c : Code) (x : W64) : (d.logFlash c x).sends = d.sends := by
  unfold logFlash; dsimp only; split <;> rfl
@[simp] theorem logFlash_pushes (c : Code) (x : W64) : (d.logFlash c x).pushes = d.pushes := by
  unfold logFlash; dsimp only; split <;> rfl
@[simp] theorem logFlash_skid (c : Code) (x : W64) : (d.logFlash c x).skid = d.skid := by
  unfold logFlash; dsimp only; split <;> rfl
@[simp] theorem logFlash_chans (c : Code) (x : W64) : (d.logFlash c x).chans = d.chans := by
  unfold logFlash; dsimp only; split <;> rfl
@[simp] theorem logFlash_segs (c : Code) (x : W64) : (d.logFlash c x).segs = d.segs := by
  unfold logFlash; dsimp only; split <;> rfl
@[simp] theorem logFlash_xlt (c : Code) (x : W64) : (d.logFlash c x).xlt = d.xlt := by
  unfold logFlash; dsimp only; split <;> rfl
@[simp] theorem logFlash_links (c : Code) (x : W64) : (d.logFlash c x).links = d.links := by
  unfold logFlash; dsimp only; split <;> rfl
@[simp] theorem logFlash_power (c : Code) (x : W64) : (d.logFlash c x).power = d.power := by
  unfold logFlash; dsimp only; split <;> rfl
@[simp] theorem logFlash_sec (c : Code) (x : W64) : (d.logFlash c x).sec = d.sec := by
  unfold logFlash; dsimp only; split <;> rfl
@[simp] theorem logFlash_resets (c : Code) (x : W64) : (d.logFlash c x).resets = d.resets := by
  unfold logFlash; dsimp only; split <;> rfl
@[simp] theorem logFlash_dict (c : Code) (x : W64) : (d.logFlash c x).dict = d.dict := by
  unfold logFlash; dsimp only; split <;> rfl
@[simp] theorem logFlash_boot (c : Code) (x : W64) : (d.logFlash c x).boot = d.boot := by
  unfold logFlash; dsimp only; split <;> rfl
@[simp] theorem logFlash_coarse (c : Code) (x : W64) : (d.logFlash c x).coarse = d.coarse := by
  unfold logFlash; dsimp only; split <;> rfl
@[simp] theorem logFlash_free (c : Code) (x : W64) : (d.logFlash c x).free = d.free := by
  unfold logFlash; dsimp only; split <;> rfl
@[simp] theorem logFlash_rings (c : Code) (x : W64) : (d.logFlash c x).rings = d.rings := by
  unfold logFlash; dsimp only; split <;> rfl
@[simp] theorem logFlash_vecs (c : Code) (x : W64) : (d.logFlash c x).vecs = d.vecs := by
  unfold logFlash; dsimp only; split <;> rfl
@[simp] theorem logFlash_out (c : Code) (x : W64) : (d.logFlash c x).out = d.out := by
  unfold logFlash; dsimp only; split <;> rfl
@[simp] theorem raiseVector_core (v m : Nat) (i : Nat) : (d.raiseVector v m).core i = d.core i := by simp [core]
@[simp] theorem postRing_core (n : Nat) (ev : EventRec) (i : Nat) : (d.postRing n ev).core i = d.core i := by simp [core]
@[simp] theorem postQueue_core (n : Nat) (ev : EventRec) (i : Nat) : (d.postQueue n ev).core i = d.core i := by simp [core]
@[simp] theorem postDev_core (ev : EventRec) (i : Nat) : (d.postDev ev).core i = d.core i := by simp [core]
@[simp] theorem traceRec_core (c k s b x : Nat) (i : Nat) : (d.traceRec c k s b x).core i = d.core i := by simp [core]
@[simp] theorem logFlash_core (c : Code) (x : W64) (i : Nat) : (d.logFlash c x).core i = d.core i := by simp [core]
@[simp] theorem raiseVector_slice (v m : Nat) (i : Nat) : (d.raiseVector v m).slice i = d.slice i := by simp [slice]
@[simp] theorem postRing_slice (n : Nat) (ev : EventRec) (i : Nat) : (d.postRing n ev).slice i = d.slice i := by simp [slice]
@[simp] theorem postQueue_slice (n : Nat) (ev : EventRec) (i : Nat) : (d.postQueue n ev).slice i = d.slice i := by simp [slice]
@[simp] theorem postDev_slice (ev : EventRec) (i : Nat) : (d.postDev ev).slice i = d.slice i := by simp [slice]
@[simp] theorem traceRec_slice (c k s b x : Nat) (i : Nat) : (d.traceRec c k s b x).slice i = d.slice i := by simp [slice]
@[simp] theorem logFlash_slice (c : Code) (x : W64) (i : Nat) : (d.logFlash c x).slice i = d.slice i := by simp [slice]
@[simp] theorem raiseVector_stall (v m : Nat) (i : Nat) : (d.raiseVector v m).stall i = d.stall i := by simp [stall]
@[simp] theorem postRing_stall (n : Nat) (ev : EventRec) (i : Nat) : (d.postRing n ev).stall i = d.stall i := by simp [stall]
@[simp] theorem postQueue_stall (n : Nat) (ev : EventRec) (i : Nat) : (d.postQueue n ev).stall i = d.stall i := by simp [stall]
@[simp] theorem postDev_stall (ev : EventRec) (i : Nat) : (d.postDev ev).stall i = d.stall i := by simp [stall]
@[simp] theorem traceRec_stall (c k s b x : Nat) (i : Nat) : (d.traceRec c k s b x).stall i = d.stall i := by simp [stall]
@[simp] theorem logFlash_stall (c : Code) (x : W64) (i : Nat) : (d.logFlash c x).stall i = d.stall i := by simp [stall]
@[simp] theorem raiseVector_outQueue (v m : Nat) (i : Nat) : (d.raiseVector v m).outQueue i = d.outQueue i := by simp [outQueue]
@[simp] theorem postRing_outQueue (n : Nat) (ev : EventRec) (i : Nat) : (d.postRing n ev).outQueue i = d.outQueue i := by simp [outQueue]
@[simp] theorem postQueue_outQueue (n : Nat) (ev : EventRec) (i : Nat) : (d.postQueue n ev).outQueue i = d.outQueue i := by simp [outQueue]
@[simp] theorem postDev_outQueue (ev : EventRec) (i : Nat) : (d.postDev ev).outQueue i = d.outQueue i := by simp [outQueue]
@[simp] theorem traceRec_outQueue (c k s b x : Nat) (i : Nat) : (d.traceRec c k s b x).outQueue i = d.outQueue i := by simp [outQueue]
@[simp] theorem logFlash_outQueue (c : Code) (x : W64) (i : Nat) : (d.logFlash c x).outQueue i = d.outQueue i := by simp [outQueue]
@[simp] theorem raiseVector_obj (v m : Nat) (i : Nat) : (d.raiseVector v m).obj i = d.obj i := by simp [obj]
@[simp] theorem postRing_obj (n : Nat) (ev : EventRec) (i : Nat) : (d.postRing n ev).obj i = d.obj i := by simp [obj]
@[simp] theorem postQueue_obj (n : Nat) (ev : EventRec) (i : Nat) : (d.postQueue n ev).obj i = d.obj i := by simp [obj]
@[simp] theorem postDev_obj (ev : EventRec) (i : Nat) : (d.postDev ev).obj i = d.obj i := by simp [obj]
@[simp] theorem traceRec_obj (c k s b x : Nat) (i : Nat) : (d.traceRec c k s b x).obj i = d.obj i := by simp [obj]
@[simp] theorem logFlash_obj (c : Code) (x : W64) (i : Nat) : (d.logFlash c x).obj i = d.obj i := by simp [obj]
@[simp] theorem raiseVector_fence (v m : Nat) (i : Nat) : (d.raiseVector v m).fence i = d.fence i := by simp [fence]
@[simp] theorem postRing_fence (n : Nat) (ev : EventRec) (i : Nat) : (d.postRing n ev).fence i = d.fence i := by simp [fence]
@[simp] theorem postQueue_fence (n : Nat) (ev : EventRec) (i : Nat) : (d.postQueue n ev).fence i = d.fence i := by simp [fence]
@[simp] theorem postDev_fence (ev : EventRec) (i : Nat) : (d.postDev ev).fence i = d.fence i := by simp [fence]
@[simp] theorem traceRec_fence (c k s b x : Nat) (i : Nat) : (d.traceRec c k s b x).fence i = d.fence i := by simp [fence]
@[simp] theorem logFlash_fence (c : Code) (x : W64) (i : Nat) : (d.logFlash c x).fence i = d.fence i := by simp [fence]
@[simp] theorem raiseVector_seq (v m : Nat) (i : Nat) : (d.raiseVector v m).seq i = d.seq i := by simp [seq]
@[simp] theorem postRing_seq (n : Nat) (ev : EventRec) (i : Nat) : (d.postRing n ev).seq i = d.seq i := by simp [seq]
@[simp] theorem postQueue_seq (n : Nat) (ev : EventRec) (i : Nat) : (d.postQueue n ev).seq i = d.seq i := by simp [seq]
@[simp] theorem postDev_seq (ev : EventRec) (i : Nat) : (d.postDev ev).seq i = d.seq i := by simp [seq]
@[simp] theorem traceRec_seq (c k s b x : Nat) (i : Nat) : (d.traceRec c k s b x).seq i = d.seq i := by simp [seq]
@[simp] theorem logFlash_seq (c : Code) (x : W64) (i : Nat) : (d.logFlash c x).seq i = d.seq i := by simp [seq]
@[simp] theorem raiseVector_pdk (v m : Nat) (i : Nat) : (d.raiseVector v m).pdk i = d.pdk i := by simp [pdk]
@[simp] theorem postRing_pdk (n : Nat) (ev : EventRec) (i : Nat) : (d.postRing n ev).pdk i = d.pdk i := by simp [pdk]
@[simp] theorem postQueue_pdk (n : Nat) (ev : EventRec) (i : Nat) : (d.postQueue n ev).pdk i = d.pdk i := by simp [pdk]
@[simp] theorem postDev_pdk (ev : EventRec) (i : Nat) : (d.postDev ev).pdk i = d.pdk i := by simp [pdk]
@[simp] theorem traceRec_pdk (c k s b x : Nat) (i : Nat) : (d.traceRec c k s b x).pdk i = d.pdk i := by simp [pdk]
@[simp] theorem logFlash_pdk (c : Code) (x : W64) (i : Nat) : (d.logFlash c x).pdk i = d.pdk i := by simp [pdk]
@[simp] theorem raiseVector_pdkSec (v m : Nat) (i : Nat) : (d.raiseVector v m).pdkSec i = d.pdkSec i := by simp [pdkSec]
@[simp] theorem postRing_pdkSec (n : Nat) (ev : EventRec) (i : Nat) : (d.postRing n ev).pdkSec i = d.pdkSec i := by simp [pdkSec]
@[simp] theorem postQueue_pdkSec (n : Nat) (ev : EventRec) (i : Nat) : (d.postQueue n ev).pdkSec i = d.pdkSec i := by simp [pdkSec]
@[simp] theorem postDev_pdkSec (ev : EventRec) (i : Nat) : (d.postDev ev).pdkSec i = d.pdkSec i := by simp [pdkSec]
@[simp] theorem logFlash_pdkSec (c : Code) (x : W64) (i : Nat) : (d.logFlash c x).pdkSec i = d.pdkSec i := by simp [pdkSec]
@[simp] theorem raiseVector_window (v m : Nat) (i : Nat) : (d.raiseVector v m).window i = d.window i := by simp [window]
@[simp] theorem postRing_window (n : Nat) (ev : EventRec) (i : Nat) : (d.postRing n ev).window i = d.window i := by simp [window]
@[simp] theorem postQueue_window (n : Nat) (ev : EventRec) (i : Nat) : (d.postQueue n ev).window i = d.window i := by simp [window]
@[simp] theorem postDev_window (ev : EventRec) (i : Nat) : (d.postDev ev).window i = d.window i := by simp [window]
@[simp] theorem traceRec_window (c k s b x : Nat) (i : Nat) : (d.traceRec c k s b x).window i = d.window i := by simp [window]
@[simp] theorem logFlash_window (c : Code) (x : W64) (i : Nat) : (d.logFlash c x).window i = d.window i := by simp [window]
@[simp] theorem raiseVector_chan (v m : Nat) (i : Nat) : (d.raiseVector v m).chan i = d.chan i := by simp [chan]
@[simp] theorem postRing_chan (n : Nat) (ev : EventRec) (i : Nat) : (d.postRing n ev).chan i = d.chan i := by simp [chan]
@[simp] theorem postQueue_chan (n : Nat) (ev : EventRec) (i : Nat) : (d.postQueue n ev).chan i = d.chan i := by simp [chan]
@[simp] theorem postDev_chan (ev : EventRec) (i : Nat) : (d.postDev ev).chan i = d.chan i := by simp [chan]
@[simp] theorem traceRec_chan (c k s b x : Nat) (i : Nat) : (d.traceRec c k s b x).chan i = d.chan i := by simp [chan]
@[simp] theorem logFlash_chan (c : Code) (x : W64) (i : Nat) : (d.logFlash c x).chan i = d.chan i := by simp [chan]
@[simp] theorem raiseVector_port (v m : Nat) (i : Nat) : (d.raiseVector v m).port i = d.port i := by simp [port]
@[simp] theorem postRing_port (n : Nat) (ev : EventRec) (i : Nat) : (d.postRing n ev).port i = d.port i := by simp [port]
@[simp] theorem postQueue_port (n : Nat) (ev : EventRec) (i : Nat) : (d.postQueue n ev).port i = d.port i := by simp [port]
@[simp] theorem postDev_port (ev : EventRec) (i : Nat) : (d.postDev ev).port i = d.port i := by simp [port]
@[simp] theorem traceRec_port (c k s b x : Nat) (i : Nat) : (d.traceRec c k s b x).port i = d.port i := by simp [port]
@[simp] theorem logFlash_port (c : Code) (x : W64) (i : Nat) : (d.logFlash c x).port i = d.port i := by simp [port]
@[simp] theorem raiseVector_binding (v m : Nat) (i : Nat) : (d.raiseVector v m).binding i = d.binding i := by simp [binding]
@[simp] theorem postRing_binding (n : Nat) (ev : EventRec) (i : Nat) : (d.postRing n ev).binding i = d.binding i := by simp [binding]
@[simp] theorem postQueue_binding (n : Nat) (ev : EventRec) (i : Nat) : (d.postQueue n ev).binding i = d.binding i := by simp [binding]
@[simp] theorem postDev_binding (ev : EventRec) (i : Nat) : (d.postDev ev).binding i = d.binding i := by simp [binding]
@[simp] theorem traceRec_binding (c k s b x : Nat) (i : Nat) : (d.traceRec c k s b x).binding i = d.binding i := by simp [binding]
@[simp] theorem logFlash_binding (c : Code) (x : W64) (i : Nat) : (d.logFlash c x).binding i = d.binding i := by simp [binding]
@[simp] theorem raiseVector_alarm (v m : Nat) (i : Nat) : (d.raiseVector v m).alarm i = d.alarm i := by simp [alarm]
@[simp] theorem postRing_alarm (n : Nat) (ev : EventRec) (i : Nat) : (d.postRing n ev).alarm i = d.alarm i := by simp [alarm]
@[simp] theorem postQueue_alarm (n : Nat) (ev : EventRec) (i : Nat) : (d.postQueue n ev).alarm i = d.alarm i := by simp [alarm]
@[simp] theorem postDev_alarm (ev : EventRec) (i : Nat) : (d.postDev ev).alarm i = d.alarm i := by simp [alarm]
@[simp] theorem traceRec_alarm (c k s b x : Nat) (i : Nat) : (d.traceRec c k s b x).alarm i = d.alarm i := by simp [alarm]
@[simp] theorem logFlash_alarm (c : Code) (x : W64) (i : Nat) : (d.logFlash c x).alarm i = d.alarm i := by simp [alarm]
@[simp] theorem raiseVector_job (v m : Nat) (i : Nat) : (d.raiseVector v m).job i = d.job i := by simp [job]
@[simp] theorem postRing_job (n : Nat) (ev : EventRec) (i : Nat) : (d.postRing n ev).job i = d.job i := by simp [job]
@[simp] theorem postQueue_job (n : Nat) (ev : EventRec) (i : Nat) : (d.postQueue n ev).job i = d.job i := by simp [job]
@[simp] theorem postDev_job (ev : EventRec) (i : Nat) : (d.postDev ev).job i = d.job i := by simp [job]
@[simp] theorem traceRec_job (c k s b x : Nat) (i : Nat) : (d.traceRec c k s b x).job i = d.job i := by simp [job]
@[simp] theorem logFlash_job (c : Code) (x : W64) (i : Nat) : (d.logFlash c x).job i = d.job i := by simp [job]

end Device
end Sys2Proof.Machine
end

