-- ==== Sys2Proof/Laws/Start.lean ====
section
/-! SUPPORT. The power-on reset and the cold start keep what every command keeps. -/

namespace Sys2Proof.Machine

theorem Device.assertReset_kept (d : Device) : Device.Kept d d.assertReset :=
  ⟨rfl, rfl, List.prefix_rfl, fun _ => rfl, fun _ => rfl⟩

theorem Device.startEpoch_kept (d : Device) : Device.Kept d d.startEpoch := by
  unfold Device.startEpoch
  extract_lets e
  have he : Device.Kept d e := ⟨rfl, rfl, List.prefix_rfl, id, id⟩
  split
  · exact he
  · refine he.trans (Device.Kept.trans ?_ (Device.anchor_later _ (Device.Later.refl _)).toKept)
    exact ⟨rfl, rfl, List.prefix_rfl, id, fun _ => rfl⟩

theorem Device.coldStart_kept (b : BootReport) (d : Device) : Device.Kept d (Device.coldStart b d) := by
  unfold Device.coldStart
  split
  · exact Device.Kept.refl d
  · extract_lets b0 e b1 f b2 g b3
    have he : Device.Kept d e := ⟨rfl, rfl, List.prefix_rfl, id, id⟩
    have hf : Device.Kept d f := he.trans (Device.startEpoch_kept e)
    split
    · exact he.trans ⟨rfl, rfl, List.prefix_rfl, id, id⟩
    · split
      · have hg : Device.Later f g := (Device.Later.refl f).same rfl rfl rfl rfl rfl rfl rfl rfl
        exact hf.trans (Device.logFlash_later _ _ _ (Device.logFlash_later _ _ _ hg)).toKept
      · extract_lets g' h
        have hg : Device.Later f g' := (Device.Later.refl f).same rfl rfl rfl rfl rfl rfl rfl rfl
        have hh : Device.Later f h := Device.Later.ite (Device.logFlash_later _ _ _ hg) hg
        exact hf.trans (Device.atStage8_later _ (Device.trainAll_later _ (Device.runTests_later _ _
          (Device.startEntropy_later _ _ (Device.armFirmware_later _ hh))))).toKept

/-! ### The wrappers of commands -/

theorem done_later {s t : State} {f : Device → Device} (hf : ∀ d, Device.Later d (f d)) (h : done s f = .next t) :
    Device.Later s.dev t.dev := by
  rw [done_dev h]; exact hf _
theorem onUnit_later {n i : Nat} {s t : State} {f : Device → Device} (hf : ∀ d, Device.Later d (f d))
    (h : onUnit n i s f = .next t) : Device.Later s.dev t.dev := by
  rw [onUnit_dev h]; exact hf _
theorem onChannel_later {c ch : Nat} {s t : State} {f : Device → Device} (hf : ∀ d, Device.Later d (f d))
    (h : onChannel c ch s f = .next t) : Device.Later s.dev t.dev := by
  rw [onChannel_dev h]; exact hf _
theorem onSess_later {k : Option Nat} {s t : State} {f : Device → Device} (hf : ∀ d, Device.Later d (f d))
    (h : onSess k s f = .next t) : Device.Later s.dev t.dev := by
  rw [onSess_dev h]; exact hf _

end Sys2Proof.Machine
end

