-- ==== Sys2Proof/Machine/Crypt.lean ====
section
/-! DEFINITION. What the lines of a private channel hold on the memory bus: ciphertext under AES-256-XTS, the MAC of each line
and the seal (spec 09: R279 to R281, R286). The block cipher and its keys are opaque; the layout of the seal's fields is a
choice of the model. -/

namespace Sys2Proof.Machine

/-- Doubling in GF(2^128), bit k of the number standing for x^k as IEEE 1619-2018 orders the bits. -/
def gfDouble (x : BitVec 128) : BitVec 128 := (x <<< 1) ^^^ (if x.getLsbD 127 then 0x87 else 0)
/-- The product in GF(2^128) modulo x^128 + x^7 + x^2 + x + 1 (R280). -/
def gfmul (a b : BitVec 128) : BitVec 128 :=
  ((List.range 128).foldl (fun (s : BitVec 128 × BitVec 128) i => (if b.getLsbD i then s.1 ^^^ s.2 else s.1, gfDouble s.2)) (0, a)).1
/-- The tweak of line `l` of channel `c` (R279). -/
def lineTweak (c l : Nat) : BitVec 128 := BitVec.ofNat 128 (l % 2 ^ 32 + c % 16 * 2 ^ 32)
/-- Bytes 16 i to 16 i + 15 of a line. -/
def lineBlock (x : BitVec 512) (i : Nat) : BitVec 128 := BitVec.ofNat 128 (x.toNat / 2 ^ (128 * i))
/-- Four blocks as one line. -/
def ofBlocks (f : Nat → BitVec 128) : BitVec 512 :=
  BitVec.ofNat 512 ((List.range 4).foldl (fun n i => n + (f i).toNat * 2 ^ (128 * i)) 0)
/-- The mask of block `i` of a data unit: the enciphered tweak, doubled for each block before it. -/
def xtsMask (key : Nat) (tweak : BitVec 128) : Nat → BitVec 128
  | 0 => Config.aes key 1 tweak
  | i + 1 => gfDouble (xtsMask key tweak i)
/-- AES-256-XTS of a 64-byte data unit under the key pair of generation `key` (R279). -/
def xtsLine (key : Nat) (tweak : BitVec 128) (x : BitVec 512) : BitVec 512 :=
  ofBlocks fun i => Config.aes key 0 (lineBlock x i ^^^ xtsMask key tweak i) ^^^ xtsMask key tweak i
/-- The MAC of a line's ciphertext and tweak under the MAC key of generation `key` (R280). -/
def lineMac (key : Nat) (tweak : BitVec 128) (ct : BitVec 512) : BitVec 64 :=
  let hk := Config.aes key 2 0
  let h := (List.range 4).foldl (fun h i => gfmul (h ^^^ lineBlock ct i) hk) 0
  (Config.aes key 2 (gfmul (h ^^^ tweak) hk ^^^ 1)).setWidth 64

namespace Device

/-- Lines of a channel, and the first line of its MAC region (R281). -/
def chanLines (d : Device) : Nat := 2 ^ (25 + d.cal.cap)
def macBase (d : Device) : Nat := d.chanLines / 8 * 7
/-- Ciphertext of data line `l` of channel `c`; a line that nothing has written holds what the cells hold. -/
def cipherLine (d : Device) (c l : Nat) : BitVec 512 :=
  let v := Table.get (d.chan c).lines Line.reset l
  if v.key = 0 then Config.coldLine c l else xtsLine v.key (lineTweak c l) v.data
/-- MAC that the channel holds for data line `l`. -/
def macOf (d : Device) (c l : Nat) : BitVec 64 :=
  let v := Table.get (d.chan c).lines Line.reset l
  if v.key = 0 then BitVec.ofNat 64 ((Config.coldLine c (d.macBase + l / 8)).toNat / 2 ^ (64 * (l % 8)))
  else lineMac v.key (lineTweak c l) (d.cipherLine c l)
/-- The seal as a line: Tally in bytes 0 to 7, epoch in 8 to 11, seal count in 12 to 15, Paddock in 16. -/
def sealLine (s : Seal) : BitVec 512 :=
  BitVec.ofNat 512 (s.tally % 2 ^ 64 + s.epoch % 2 ^ 32 * 2 ^ 64 + s.count % 2 ^ 32 * 2 ^ 96 + s.paddock * 2 ^ 128)
/-- What line `l` of channel `c` holds: data lines as ciphertext, the MAC region, and in its last two lines the seal and the
seal's MAC (R281, R286). -/
def rawLine (d : Device) (c l : Nat) : BitVec 512 :=
  if l < d.macBase then d.cipherLine c l
  else if l < d.chanLines - 2 then
    BitVec.ofNat 512 ((List.range 8).foldl (fun n i => n + (d.macOf c (8 * (l - d.macBase) + i)).toNat * 2 ^ (64 * i)) 0)
  else match (d.chan c).written with
    | none => Config.coldLine c l
    | some s =>
      let t := lineTweak c (d.chanLines - 2)
      let ct := xtsLine s.key t (sealLine s)
      if l = d.chanLines - 2 then ct else (lineMac s.key t ct).setWidth 512

end Device

end Sys2Proof.Machine
end

