-- ==== Sys2Proof/Machine/ReadMap.lean ====
section
/-! DEFINITION. What the host reads in BAR0 (spec 18: R530, Table 18.9), block by block, with the zeros and the coarsening that
confidential Paddocks call for (R52, R229, R304, R381, R407, R431, R454, R455). A register stands at its own offset as its width in
bytes and its value; an offset that no table assigns holds none and reads zero, and so do WO and reserved fields (R8, R308). -/

namespace Sys2Proof.Machine

/-- A register: its width in bytes and its value. -/
abbrev Reg := Option (Nat × W64)
/-- A register of 32 bits with the fields given, and one of 64 bits. -/
def reg4 (l : List (Nat × Nat)) : Reg := some (4, fieldsOf l)
def reg8 (l : List (Nat × Nat)) : Reg := some (8, fieldsOf l)
/-- A register that holds a number. -/
def num4 (n : Nat) : Reg := reg4 [(0, n % 2 ^ 32)]
def num8 (n : Nat) : Reg := reg8 [(0, n % 2 ^ 64)]
/-- The 64-bit word of a byte string at byte `i`. -/
def word8 (l : List Byte) (i : Nat) : Reg := num8 (ofBytes ((l.drop i).take 8))
/-- A register of 64 bits that is zero where `hide`. -/
def hidden (hide : Bool) (r : Reg) : Reg := if hide then r.map fun x => (x.1, 0) else r

def StallState.code : StallState → Nat
  | .free => 0 | .binding => 1 | .bound => 2 | .parked => 3 | .unbinding => 4 | .fenced => 5
def WinState.code : WinState → Nat
  | .free => 0 | .open_ => 1 | .closing => 2

namespace Device

/-! ### GLB_, its rings and MSI-X (Tables 10.12 to 10.14, 15.8, 10.2) -/

def glbStatus (d : Device) : Reg :=
  let oos := bitsOf (fun p => (d.pdk p).rst == .outOfService) 6
  reg4 [(0, b2n d.glb.ready), (1, d.glb.link.toNat), (3, d.glb.devState), (6, oos)]
def glbCaps (d : Device) : Reg := reg8 [(0, bitsOf d.corePresent 12), (12, 48), (18, 64)]
def stlBind (x : Stall) : Reg := reg8 [(0, x.queue % 2 ^ 14), (14, x.state.code), (20, x.status.toNat)]
def evrReg (x : Ring) : Nat → Reg
  | 0x00 => num8 x.base
  | 0x08 => reg4 [(0, b2n x.en), (1, x.size), (5, x.context), (25, b2n x.failed)]
  | 0x0C => num4 x.mod
  | 0x10 => num8 x.wb
  | 0x18 => num8 x.cons
  | _ => none
def glbReg (d : Device) (off : Nat) : Reg :=
  let g := d.glb
  match off with
  | 0x00 => some (4, d.glbId)
  | 0x08 => d.glbStatus
  | 0x10 => d.glbCaps
  | 0x18 => num4 g.drvCtx.toNat
  | 0x20 => num8 g.qtabBase.toNat
  | 0x28 => num4 g.qtabCnt.toNat
  | 0x30 => reg4 [(0, b2n g.ringFail), (1, b2n g.qtabFail), (2, g.failRing)]
  | 0x40 => num8 g.crashBase.toNat
  | 0x48 => reg4 [(0, b2n g.crashEn), (1, g.crashSlots), (4, g.crashNext)]
  | _ =>
    if 0x100 ≤ off ∧ off < 0x280 ∧ off % 8 = 0 then stlBind (d.stall ((off - 0x100) / 8))
    else if 0x1000 ≤ off ∧ off < 0x1800 then evrReg (d.ring ((off - 0x1000) / 0x20)) (off % 0x20)
    else none
/-- The pending-bit array and the table of MSI-X (PCIe Base 6.0). -/
def msixReg (d : Device) (off : Nat) : Reg :=
  if off < 0x1840 then num8 (bitsOf (fun k => (d.vec (8 * (off - 0x1800) + k)).pending) 64)
  else if off < 0x2000 then none
  else
    let x := d.vec ((off - 0x2000) / 16)
    match off % 16 with
    | 0 => num8 x.addr.toNat
    | 8 => num4 x.data.toNat
    | 12 => num4 (b2n x.masked)
    | _ => none

/-! ### TLY_ (Tables 2.5 to 2.8) -/

/-- TLY_ALM_CTL (Table 2.7). -/
def almCtl (a : Alarm) : W64 :=
  fieldsOf [(0, b2n a.armed), (1, b2n a.periodic), (2, b2n a.late), (4, a.kind), (8, a.owner), (12, a.target), (24, a.miss)]
/-- Slot `n` belongs to a confidential Paddock (R36, R52). -/
def slotHidden (d : Device) (n : Nat) : Bool := decide (16 ≤ n) && d.confidential ((n - 16) / 40)
def almReg (d : Device) (n o : Nat) : Reg :=
  let a := d.alarm n
  match o with
  | 0 => hidden (d.slotHidden n) (num8 a.cmp)
  | 8 => some (4, if d.slotHidden n then almCtl a &&& 0x701 else almCtl a)
  | 12 => hidden (d.slotHidden n) (num4 a.per)
  | _ => none
def tlyReg (d : Device) (off : Nat) : Reg :=
  let t := d.tally
  match off with
  | 0x00 => num8 t.now
  | 0x08 => num4 t.hiLatch.toNat
  | 0x10 => some (4, d.tlyStatus)
  | 0x18 => num8 t.rate.toNat
  | 0x20 => num4 t.errBnd.toNat
  | 0x24 => num4 t.epoch
  | 0x28 => num8 t.anchTally
  | 0x30 => num8 t.anchCal.toNat
  | 0x38 => some (8, d.calWord)
  | 0x40 => num4 t.stepCnt.toNat
  | 0x44 => num4 t.frameErr.toNat
  | _ => if 0x100 ≤ off ∧ off < 0x1100 then d.almReg ((off - 0x100) / 16) (off % 16) else none

/-! ### XLT_ and the segment tables (Tables 9.8 to 9.11) -/

def xltStat (x : Xlt) : Reg :=
  reg8 [(0, x.walkers.length), (5, (x.walkers.filter fun kv => kv.2.phase == .page).length),
    (15, (x.invals.filter fun v => !v.flush).length), (21, b2n (x.invals.any (·.flush))), (32, x.atc.length)]
/-- XLT_MCH_ registers of channel `n`. -/
def mchReg (d : Device) (n o : Nat) : Reg :=
  match o with
  | 0x00 => some (4, d.mchStat n)
  | 0x08 => some (8, d.counter (1200 + 4 * n))
  | 0x10 => some (4, d.counter (1201 + 4 * n))
  | 0x14 => some (4, d.counter (1202 + 4 * n))
  | 0x18 => word8 (d.mchBytes n) 24
  | _ => none
def xltReg (d : Device) (off : Nat) : Reg :=
  let x := d.xlt
  match off with
  | 0x00 => reg4 [(0, b2n x.priStop), (1, b2n x.qxlt)]
  | 0x08 => xltStat x
  | 0x18 => num4 (x.atc.filter fun e => !e.holders.isEmpty).length
  | 0x20 => some (8, d.counter 1400)
  | 0x28 => some (8, d.counter 1401)
  | 0x30 => some (8, d.counter 1402)
  | 0x38 => some (8, d.counter 1403)
  | 0x40 => some (4, d.counter 1404)
  | 0x44 => some (4, d.counter 1405)
  | 0x48 => hidden (d.confidential x.faultPdk) (num8 x.faultDva)
  | 0x50 => reg8 [(0, x.faultCtx), (20, x.faultCode.toNat), (36, x.faultPdk)]
  | _ => if 0x100 ≤ off ∧ off < 0x300 then d.mchReg ((off - 0x100) / 0x20) (off % 0x20) else none
/-- Segment entry `s` of Paddock `p`; of a confidential Paddock only VALID and OWNER (R304). -/
def segReg (d : Device) (p s o : Nat) : Reg :=
  match Table.find d.segs (256 * p + s) with
  | none => none
  | some e =>
    let hide := d.confidential p
    match o with
    | 0 => if hide then reg8 [(0, 1), (8, e.owner)]
      else reg8 [(0, 1), (1, b2n e.rd), (2, b2n e.wr), (4, e.seg), (8, e.owner), (32, e.base)]
    | 8 => hidden hide (num8 e.len)
    | _ => none

/-! ### LNK_ (Tables 12.8 to 12.11) -/

def lnkPort (d : Device) (n o : Nat) : Reg :=
  let p := d.port n
  match o with
  | 0x00 => reg4 [(0, b2n p.up), (1, b2n p.fecLock), (2, b2n p.anDone), (3, b2n p.paused),
      (8, (p.queue.filter (·.1)).length)]
  | 0x08 => num8 (if n = 0 then d.fuse.mac0 else d.fuse.mac1).toNat
  | 0x10 => num4 p.ip4.toNat
  | 0x14 => num4 p.vid.toNat
  | 0x18 => num8 p.ip6.toNat
  | 0x20 => num8 (p.ip6.toNat / 2 ^ 64)
  | _ => if 0x40 ≤ o ∧ o ≤ 0x80 ∧ o % 8 = 0 then some (8, d.counter (1300 + 16 * n + (o - 0x40) / 8)) else none
/-- The words of LNK_BIND(b); words 1 and 2 of a confidential Paddock's binding read zero (R407). -/
def bindReg (d : Device) (b : Nat) : Nat → Reg
  | 0x00 => some (8, d.bindWord b)
  | 0x08 => hidden (d.confidential (d.binding b).pdk) (reg8 [(0, (d.binding b).txPsn.toNat), (24, (d.binding b).rxExp.toNat)])
  | 0x10 => hidden (d.confidential (d.binding b).pdk) (reg8 [(0, (d.binding b).crLim.toNat), (24, min 1023 (pool (d.binding b)))])
  | _ => none
def lnkReg (d : Device) (off : Nat) : Reg :=
  if off = 0 then num4 d.links.addr.toNat
  else if off = 8 then num4 d.links.ctl.toNat
  else if off = 0x10 then num4 d.links.dport.toNat
  else if 0x1000 ≤ off ∧ off < 0x3000 then d.lnkPort ((off - 0x1000) / 0x1000) (off % 0x1000)
  else if 0x3000 ≤ off ∧ off < 0x3800 then d.bindReg ((off - 0x3000) / 32) (off % 32)
  else if 0x3800 ≤ off ∧ off < 0x3900 ∧ off % 8 = 0 then num8 (Table.get d.links.trust 0 ((off - 0x3800) / 8)).toNat
  else if 0x4000 ≤ off ∧ off < 0x4800 ∧ off % 8 = 0 then word8 (d.nbrBytes ((off - 0x4000) / 32)) (off % 32)
  else if 0x8000 ≤ off ∧ off < 0x18000 ∧ off % 8 = 0 then
    num8 (ofBytes ((List.range 8).map fun k => Table.get d.links.routes 0 (off - 0x8000 + k)))
  else none

/-! ### PWR_ (Tables 13.5, 13.6) -/

/-- PWR_PHASE(k); an entry of a confidential Paddock shows only VALID and PADDOCK (R431). -/
def phaseReg (d : Device) (k : Nat) : Reg :=
  let e := Table.get d.power.phases Phase.reset k
  if d.confidential e.pdk then reg8 [(12, e.pdk), (15, b2n e.valid)]
  else reg8 [(0, e.tag), (12, e.pdk), (15, b2n e.valid), (16, e.need), (32, e.samples)]
/-- PWR_BUDGET(c), zero while any Paddock is confidential (R431). -/
def budgetReg (d : Device) (c : Nat) : Reg :=
  let spent := match Table.find d.power.balances c with
    | some b => decide (b ≤ 0)
    | none => false
  hidden d.anyConfidential (reg4 [(0, min 65535 (Table.get d.power.budgets 0 c)), (16, b2n spent)])
def pwrReg (d : Device) (off : Nat) : Reg :=
  let w := d.power
  match off with
  | 0x00 => some (4, d.pwrStep)
  | 0x08 => reg4 [(0, w.capSet), (8, d.effCap / 1000), (16, d.fuse.cap % 4)]
  | 0x10 => num4 w.ctl.toNat
  | 0x18 => some (4, d.pwrPower)
  | 0x20 => num8 d.pwrEnergy
  | 0x28 => hidden d.anyConfidential (num4 (w.est % 2 ^ 24))
  | 0x30 => some (4, d.pwrSupply)
  | 0x34 => reg4 [(0, d.cal.warnPct % 256), (8, d.cal.resetPct % 256)]
  | 0x38 => reg4 [(0, w.vreq), (8, b2n w.vack)]
  | 0x40 => reg4 [(0, low8 w.hot), (8, w.hotSensor), (13, w.therm)]
  | 0x44 => reg4 [(0, w.thermWarn), (8, low8 d.cal.trip), (16, low8 d.cal.crit)]
  | 0x48 => reg8 [(0, w.bellwether.toNat), (16, w.offer), (20, w.lastCommon), (32, w.lagCnt.toNat)]
  | _ =>
    if 0x80 ≤ off ∧ off < 0x100 ∧ off % 4 = 0 then some (4, d.pwrTsens ((off - 0x80) / 4))
    else if 0x100 ≤ off ∧ off < 0x130 ∧ off % 4 = 0 then d.budgetReg ((off - 0x100) / 4)
    else if 0x400 ≤ off ∧ off < 0xC00 ∧ off % 8 = 0 then d.phaseReg ((off - 0x400) / 8)
    else none

/-! ### Stall pages (Tables 10.15, 10.16) -/

/-- The STL_ registers of a Stall: zero while it is FREE (R349), all ones while it is fenced (R344). -/
def stlReg (d : Device) (s o : Nat) : Reg :=
  let x := d.stall s
  if x.state = .fenced then some (8, BitVec.allOnes 64)
  else if x.state = .free then none
  else match o with
    | 0x800 => reg4 [(0, x.state.code), (3, min 31 x.q.landed.length), (8, (x.q.accepted.filter fun m => m.phase != .finished).length)]
    | 0x808 => num4 x.q.next.toNat
    | 0x80C => num4 (x.q.next + 32).toNat
    | 0x810 => num4 x.lastErr.toNat
    | 0x818 => num4 x.drop.toNat
    | _ => none

/-! ### Paddock pages (Tables 14.10, 15.8, 11.6, 11.7) -/

/-- PDK_DRV_STAT. -/
def drvStat (d : Device) (p : Nat) : Reg :=
  let js := d.jobs.filter fun kv => kv.2.paddock == p
  let on := fun (s : JobState) => (js.filter fun kv => kv.2.state == s).length
  let st := fun (s : StallState) => ((List.range 48).filter fun k => (d.stall k).q.paddock == p && (d.stall k).state == s).length
  reg8 [(0, on .loading + on .running + on .draining + on .resuming), (8, min 1023 (on .yielded)), (18, st .parked), (24, st .bound),
    (32, bitsOf (fun c => (d.coresOf p).contains c && (d.core c).job.isSome) 12)]
/-- PDK_STEP_STAT. -/
def stepStat (d : Device) (p : Nat) : Reg :=
  let k := d.pdk p
  let n := (d.seqs.filter fun kv => kv.2.paddock == p && kv.2.state != .free && kv.2.state != .idle).length
  reg8 [(0, n), (17, k.lastN), (26, k.lastFg), (35, b2n (d.stepArrived p)), (48, min 65535 (d.counter (1410 + p)).toNat)]
/-- PDK_SEM(n). -/
def semReg (s : Sem) : Reg := reg8 [(0, s.context), (20, s.count), (24, b2n s.valid), (25, b2n s.bad), (32, s.fence.toNat)]
def drvPage (d : Device) (p o : Nat) : Reg :=
  let k := d.pdk p
  match o with
  | 0x1000 => reg4 [(0, b2n k.preemptEn), (16, k.quantum)]
  | 0x1008 => d.drvStat p
  | 0x1200 => reg8 [(0, b2n k.stepEn), (1, b2n k.periodic), (2, k.stepQueue), (16, k.batchMax), (25, k.lead), (32, k.seqQuota)]
  | 0x1208 => num4 k.stepPeriod
  | 0x1210 => num8 k.stepNum
  | 0x1218 => d.stepStat p
  | _ =>
    if 0x1040 ≤ o ∧ o < 0x1140 ∧ o % 4 = 0 then
      let g := Table.get k.shares Share.reset ((o - 0x1040) / 4)
      reg4 [(0, g.weight), (8, b2n g.fg)]
    else if 0x1300 ≤ o ∧ o < 0x1380 ∧ o % 8 = 0 then semReg (d.sem p ((o - 0x1300) / 8))
    else none
def secPage (d : Device) (p : Nat) : Nat → Reg
  | 0x00 => some (8, d.layoutWord p)
  | 0x08 => some (8, d.secStat p)
  | 0x18 => num8 (d.pdkSec p).rmvTally
  | 0x20 => some (8, d.bundleWord p 0)
  | 0x28 => some (8, d.bundleWord p 1)
  | 0x30 => some (8, d.bundleWord p 2)
  | 0x38 => some (8, d.bundleWord p 3)
  | _ => none
/-- A Paddock page: zero for an absent Paddock; all ones while it is fenced, but for the security registers in a removal (R344,
Table 14.8). -/
def pdkPage (d : Device) (p o : Nat) : Reg :=
  if !d.pdkPresent p then none
  else if d.fencedPdk p && !((d.pdkSec p).phase != .none && decide (o < 0x100)) then some (8, BitVec.allOnes 64)
  else if o < 0x100 then d.secPage p o
  else d.drvPage p o

/-! ### The mirror of the Shepherd domain (Tables 18.10, 14.12, 15.8, 17.5) -/

/-- SHP_FLS_STAT: a program runs before an erase that it suspends. -/
def flsStat (f : Flash) : Reg :=
  let op := match f.prog, f.erase with
    | .program .., _ => 2
    | _, .erase .. => if f.susp then 1 else 3
    | _, _ => 0
  reg4 [(0, op), (2, b2n f.susp), (3, b2n f.forced), (4, f.suspCnt), (11, b2n f.worn), (12, f.active)]
def shpReg (d : Device) (off : Nat) : Reg :=
  let f := d.flash
  let r := d.resets
  match off with
  | 0x0000 => reg4 [(0, d.boot.stage), (4, b2n d.boot.fail), (5, b2n d.boot.fallback), (16, d.boot.code.toNat)]
  | 0x0008 => num4 d.boot.cold.toNat
  | 0x000C => num4 d.boot.warm.toNat
  | 0x1000 => some (4, d.secFuse)
  | 0x1008 => some (4, d.entropyWord)
  | 0x1010 => num8 d.sec.attestCnt.toNat
  | 0x2000 => num4 r.hb.toNat
  | 0x2008 => reg4 [(0, b2n r.wdArmed), (8, min 255 r.wdExp)]
  | 0x2010 => some (8, d.devRstWord)
  | 0x2018 => num4 r.crashSeq
  | 0x3000 => flsStat f
  | 0x3008 => reg8 [(0, ofBytes ((d.wearBytes).take 4)), (32, min 65535 f.retired.length), (48, f.spares)]
  | 0x3010 => num8 f.ce.toNat
  | 0x3018 => reg4 [(0, f.neCnt), (16, f.verifyCnt)]
  | _ =>
    if 0x2100 ≤ off ∧ off < 0x2160 then
      let p := (off - 0x2100) / 16
      if off % 16 = 0 then some (8, d.pdkRstWord p)
      else if off % 16 = 8 ∧ d.pdkPresent p = true then num4 (d.pdk p).prog.toNat
      else none
    else none

/-! ### The diagnostic window (Tables 14.14, 14.15, 4.7, 7.9 to 7.12; R111, R228, R454) -/

def trcReg (d : Device) (p o : Nat) : Reg :=
  let t := (d.pdkSec p).trace
  match o with
  | 0x00 => reg8 [(0, b2n t.en), (1, b2n t.wrap), (2, b2n t.dataEn), (3, t.kinds.toNat), (10, t.context), (30, t.size)]
  | 0x08 => num8 t.base
  | 0x10 => num8 t.ptr
  | 0x18 => num8 t.lost.toNat
  | 0x20 => reg4 [(0, b2n t.full), (1, b2n (d.confidential p))]
  | _ => none
/-- The number under which the counter of the PEN_ block at an offset stands. -/
def penCounter (off : Nat) : Option (Nat × Nat) :=
  match off with
  | 0x050 => some (8, 13)
  | 0x218 => some (8, 24)
  | 0x330 => some (8, 25)
  | 0x338 => some (8, 26)
  | 0x344 => some (4, 28)
  | 0x348 => some (8, 27)
  | 0x410 => some (8, 14)
  | 0x418 => some (8, 15)
  | 0x420 => some (8, 16)
  | 0x450 => some (8, 17)
  | 0x458 => some (8, 18)
  | 0x460 => some (8, 19)
  | 0x660 => some (8, 12)
  | _ => none
/-- The PEN_ block as the operator sees it: of a confidential Paddock's core the identity, the repair, STATE, the trap code and the
coarsened counters (R454, R455). -/
def penWindow (d : Device) (c off : Nat) : Reg :=
  if !d.corePresent c then none
  else if !d.coreConfidential c then d.coreReg c off
  else match penCounter off with
    | some (w, k) => some (w, d.counter (100 * c + k))
    | none =>
      if off = 0x000 ∨ off = 0x308 ∨ (0x100 ≤ off ∧ off < 0x180) then d.coreReg c off
      else if off = 0x300 then reg8 [(0, (d.core c).sq.stat.code)]
      else if 0x600 ≤ off ∧ off < 0x660 ∧ off % 8 = 0 then some (8, d.stallSeen c ((off - 0x600) / 8 + 1))
      else none
/-- YRD_RGN(r). -/
def rgnReg (g : Region) : Reg :=
  if g.valid then reg8 [(0, 1), (1, b2n g.guarded), (2, b2n g.resident), (3, b2n g.chute), (4, g.base), (14, g.size), (32, g.owner)]
  else num8 0
/-- The YRD_ block; of a confidential Paddock's core addresses and regions read zero and the counters coarsened (R229). -/
def yrdWindow (d : Device) (c off : Nat) : Reg :=
  let y := d.slice c
  let hide := d.coreConfidential c
  let n := fun k => some (8, d.counter (100 * c + k))
  if !d.corePresent c then none
  else match off with
    | 0x00 => reg4 [(0, c), (4, 1)]
    | 0x08 => hidden hide (reg4 [(0, b2n y.patrol), (1, b2n y.audit)])
    | 0x10 => hidden hide (reg4 [(0, y.merge.length), (5, b2n (y.regions.any fun kv => kv.2.clearing)), (6, y.patrolLine)])
    | 0x18 => n 22
    | 0x20 => n 23
    | 0x28 => hidden hide (num4 y.ceAddr.toNat)
    | 0x2C => hidden hide (num4 y.ueAddr.toNat)
    | 0x30 => n 20
    | 0x38 => n 21
    | 0x40 => n 29
    | 0x48 => n 30
    | 0x50 => hidden hide (num4 y.auditAddr.toNat)
    | _ =>
      if 0x100 ≤ off ∧ off < 0x200 ∧ off % 8 = 0 then hidden hide (rgnReg (Table.get y.regions Region.reset ((off - 0x100) / 8)))
      else if 0x200 ≤ off ∧ off < 0x280 ∧ off % 4 = 0 then hidden hide (num4 (ofBytes (((d.rmpUseBytes c).drop (off - 0x200)).take 4)))
      else none
/-- Slot `s` of the window table of Paddock `p`; of a confidential Paddock only STATE and CORE (R229). -/
def winReg (d : Device) (p s o : Nat) : Reg :=
  let w := d.window (256 * p + s)
  let hide := d.confidential p
  if !d.pdkPresent p then none
  else match o with
    | 0 => if hide then reg8 [(0, w.state.code), (8, w.core)]
      else reg8 [(0, w.state.code), (2, b2n w.rd), (3, b2n w.wr), (4, b2n w.mesh), (5, b2n w.drove), (8, w.core), (12, w.gen.toNat),
        (32, w.base)]
    | 8 => hidden hide (reg8 [(0, w.len), (32, w.owner)])
    | _ => none

/-! ### BAR0 (Table 18.9) -/

/-- The register that stands at an offset of BAR0. -/
def barReg (d : Device) (off : Nat) : Reg :=
  if off < 0x1800 then d.glbReg off
  else if off < 0x4000 then d.msixReg off
  else if off < 0x6000 then d.tlyReg (off - 0x4000)
  else if off < 0x8000 then d.xltReg (off - 0x6000)
  else if off < 0xE000 then
    if d.pdkPresent ((off - 0x8000) / 0x1000) then d.segReg ((off - 0x8000) / 0x1000) (off % 0x1000 / 16) (off % 16) else none
  else if off < 0x10000 then none
  else if off < 0x30000 then d.lnkReg (off - 0x10000)
  else if off < 0x31000 then d.pwrReg (off - 0x30000)
  else if off < 0x100000 then none
  else if off < 0x130000 then d.stlReg ((off - 0x100000) / 0x1000) (off % 0x1000)
  else if off < 0x200000 then none
  else if off < 0x260000 then d.pdkPage ((off - 0x200000) / 0x10000) (off % 0x10000)
  else if off < 0x400000 then none
  else if off < 0x404000 then d.shpReg (off - 0x400000)
  else if off < 0x810000 then none
  else if off < 0x810600 then d.trcReg ((off - 0x810000) / 0x100) (off % 0x100)
  else if off < 0x880000 then none
  else if off < 0x88C000 then d.penWindow ((off - 0x880000) / 0x1000) (off % 0x1000)
  else if off < 0x8A0000 then none
  else if off < 0x8AC000 then d.yrdWindow ((off - 0x8A0000) / 0x1000) (off % 0x1000)
  else if off < 0x8B0000 then none
  else if off < 0x8B6000 then d.winReg ((off - 0x8B0000) / 0x1000) (off % 0x1000 / 16) (off % 16)
  else none
/-- The 32 bits at an offset that is a multiple of 4: a register there, or the upper half of the 64-bit register before it. -/
def barHalf (d : Device) (off : Nat) : BitVec 32 :=
  match d.barReg off with
  | some (_, v) => v.setWidth 32
  | none =>
    match if off % 8 = 4 then d.barReg (off - 4) else none with
    | some (8, v) => (v >>> 32).setWidth 32
    | _ => 0
/-- What a read of `width` bytes at an offset of BAR0 returns, while the host link is up: all ones for any other size (R308). -/
def hostRead (d : Device) (off width : Nat) : Option W64 :=
  if !d.mmioUp then none
  else if !(width == 4 || width == 8) || off % width != 0 then some (BitVec.allOnes 64)
  else if width = 4 then some ((d.barHalf off).setWidth 64)
  else some (d.barHalf (off + 4) ++ d.barHalf off)

end Device

/-! ### What the block writes into host memory (R6, R311, R337, R338, R340) -/

/-- The 32 bytes of an event record (Table 10.10). -/
def EventRec.bytes (r : EventRec) : List Byte :=
  toBytes 8 r.tally ++ wordBytes 2 r.code ++ toBytes 1 r.cls ++ toBytes 1 r.paddock ++ toBytes 4 r.context ++ wordBytes 4 r.handle ++
  wordBytes 12 r.detail
def frameCode : FrameType → Nat
  | .hello => 0 | .write => 1 | .readReq => 2 | .readRsp => 3 | .ack => 4 | .nak => 5 | .musterArrive => 6 | .musterRelease => 7
/-- The 32-byte header of a Drove frame (Table 12.2). -/
def frameHeader (f : DroveFrame) : List Byte :=
  wordBytes 8 (fieldsOf [(0, frameCode f.type), (4, f.ver.toNat), (8, f.hops.toNat), (16, f.dst.toNat), (32, f.src.toNat), (48, f.dpdk.toNat),
    (51, f.spdk.toNat), (56, f.inc.toNat)]) ++
  wordBytes 8 (fieldsOf [(0, f.psn.toNat), (24, f.ackPsn.toNat)]) ++
  wordBytes 8 (fieldsOf [(0, f.crLim.toNat), (24, f.len.toNat), (48, f.code.toNat)]) ++ wordBytes 8 f.arg
/-- An output that is a write to host memory, or a Drove frame's UDP payload, as its bytes in rising order: low byte first (R6). -/
def Out.bytes : Out → List Byte
  | .ringRecord _ _ r => r.bytes
  | .ringWriteBack _ _ p lost => toBytes 8 p ++ toBytes 8 lost
  | .mirror _ v c => wordBytes 8 v ++ wordBytes 8 (c.setWidth 64)
  | .queueEntry _ q r => toBytes 8 (q + 4 * b2n r)
  | .traceRecord _ x => wordBytes 32 x
  | .itoMWr _ b => b
  | .woWrInv _ b => b
  | .frame _ f => frameHeader f ++ f.payload
  | _ => []

end Sys2Proof.Machine
end

