-- ==== Sys2Proof/Tests/Slice0.lean ====
section
/-! SUPPORT. Tests: ill-formed commands are refused, every statement's hypotheses are met by concrete states, and a few single steps
agree with values worked out from the spec. -/

open Sys2Proof Sys2Proof.Machine

namespace Sys2Proof.Tests

set_option maxRecDepth 100000

/-! ### A small device -/

def fuse : Config.Fuses :=
  { cores := 0, cap := 0, debugLock := false, ksFused := true, ksSession := true, identOk := true, minSvn := 0, serial := 0, vendor := 0,
    mac0 := 0, mac1 := 0, repair := [], remap := [] }
def cal : Config.Cal :=
  { cap := 60, warnPct := 94, resetPct := 88, trip := 110, crit := 125, fixedMw := 100, leakMw := [], weights := [], i3cStatic := 0, tcHz := 0,
    ceThresh := 4, endurance := 100000 }
def lay0 : Layout :=
  { corePairs := 0x3F, chanPairs := 0xFF, confidential := false, session := false, debugOpen := false, present := true }
def sec0 : PdkSec := { PdkSec.reset with layout := lay0, memKey := 1, intakeKey := 2 }
def job1 : Job :=
  { state := .running, paddock := 0, context := 5, queue := 7, seq := 3, want := 1, cores := [0], halted := [], yielded := [], image := 0,
    entry := 0, args := [], fence := 0, value := 0, share := 0, loan := none, loanDepth := 0, loanFor := (0, 0), bundles := [],
    musters := [], loaded := false, trapCode := 0, haltCode := 0, haltAt := none, forJob := none, since := 0, released := 0,
    step := false, tickets := [] }
/-- Core 0's slice: one region of the job's context holds all of it. -/
def sl0 : Slice :=
  { Slice.reset with regions := [(0, { Region.reset with valid := true, resident := true, size := 1024, owner := 5 })] }
/-- A device in service: Paddock 0 holds everything, and job 1 runs on core 0. -/
def dev : Device :=
  { Device.reset with
    fuse := fuse, cal := cal, tally := { Tally.reset with now := 1000000, running := true, state := .locked }
    glb := { Glb.reset with ready := true, devState := 1 }, power := { Power.reset with capSet := 60 }
    sec := { Security.reset with pdks := [(0, sec0)] }, resets := Resets.reset, flash := Flash.reset
    boot := { Boot.reset with released := true, stage := 8, linkDone := true }, jobs := [(1, job1)]
    slices := [(0, sl0)] }
def st (d : Device) : State := { dev := d, pending := [] }
def head (sl : Slot) (w : W64) : QInstr := { num := 1, bundle := 0, slot := sl, word := w }
def seqOf (x : QInstr) : Sequencer :=
  let q := { Sequencer.reset with stat := .run }
  match x.slot with
  | .p => { q with qp := [x] }
  | .t => { q with qt := [x] }
  | .m => { q with qm := [x] }
  | .c => { q with qc := [x] }
/-- Core 0 with instruction `w` at the head of queue `sl`. -/
def core0 (sl : Slot) (w : W64) : Core := { Core.reset with job := some 1, sq := seqOf (head sl w) }
def onCore (k : Core) : Device := { dev with cores := [(0, k)] }
/-- The device with instruction `w` about to issue. -/
def go (sl : Slot) (w : W64) : State := st (onCore (core0 sl w))

/-- The same with a changed core 0. -/
def goW (sl : Slot) (w : W64) (f : Core → Core) : State := st (onCore (f (core0 sl w)))
/-- The same with a changed device. -/
def goD (sl : Slot) (w : W64) (f : Device → Device) : State := st (f (onCore (core0 sl w)))
/-- Core 0 changed, with no instruction waiting. -/
def idle0 (f : Core → Core) : Device := onCore (f { Core.reset with job := some 1, sq := { Sequencer.reset with stat := .run } })

def list4 : TopK := { k := 4, ty := 0, smallest := false, entries := [] }
def tk4 (k : Core) : Core := { k with topk := some list4 }

/-- A Chute for handles, and a push to it from `src`. -/
def hch (l : List W64) : Chute := { Chute.reset with handle := true, entries := l }
def push0 (h : Bool) (src : Sender) : Push :=
  { src := src, core := 0, chute := 0, value := 9, handle := h, held := false, bundle := 0, job := none, due := 0 }
def pushD (n : Nat) (h : Bool) (src : Sender) : Device :=
  { idle0 (fun k => { k with chutes := [(0, { Chute.reset with handle := h, entries := List.replicate n 5 })] }) with
    pushes := [push0 h src] }
/-- Fence 0 belongs to the job's context; it holds 1 and, for `fenC`, an error. -/
def fen (d : Device) : Device := { d with fences := [(0, { Fence.reset with used := true, context := 5, value := 1 })] }
def fenC (d : Device) : Device := { d with fences := [(0, { Fence.reset with used := true, context := 5, value := 1, code := 3 })] }
/-- S16 of core 0 holds `v`. -/
def s1 (v : W64) (d : Device) : Device := d.modCore 0 fun k => { k with sq := { k.sq with s := [(16, v)] } }

def idle0st : State := st (idle0 id)
/-- Alarm slot `n` holds `a`. -/
def withAlarm (n : Nat) (a : Alarm) (d : Device) : Device := { d with tally := { d.tally with alarms := [(n, a)] } }
/-- Job 1 on cores 0 and 1 with Muster 5, at which nobody has arrived. -/
def def5 : MusterDef := { id := 5, scope := 0, timeout := 0, lead := 0, paddocks := 1, peers := [] }
def jobM : Job := { job1 with cores := [0, 1], musters := [def5] }
def rnd : Round :=
  { paddock := 0, id := 5, job := 1, scope := 0, round := 1, arrived := [], peers := [], early := [], offers := [], earlyOffers := []
    named := false, deadline := none, paused := none, releaseAt := none }
def mus2 (d : Device) : Device := { d with jobs := [(1, jobM)], rounds := [rnd] }

/-- Channel 1 of core 0 has halted, the first of its job. -/
def jobH : Job := { job1 with haltAt := some (0, 1), haltCode := 9 }
def halt1 (d : Device) : Device :=
  { d.setChannel 0 1 { Channel.reset with state := .halted, halt := true } with jobs := [(1, jobH)] }

/-- Semaphore 15 of Paddock 0, whose fence is fence 0. -/
def sem1 : Sem := { context := 5, count := 1, valid := true, bad := false, fence := 0x20000000, ticket := 1, abandoned := [] }
def semD (d : Device) : Device := { fen d with pdks := [(0, { Pdk.reset with sems := [(15, sem1)] })] }
def fly1 : Flight :=
  { num := 1, bundle := 0, due := 0, pens := [0], op := 0, fl := false, init := true, slot := 15, fold := false, rows := []
    irows := [(0, 0, 5), (0, 15, 6)], flags := [] }
def ld1 : Load := { num := 1, bundle := 0, pens := [0], cells := [(0, 0, 5), (0, 255, 6)], scales := [], books := [] }
def bl1 : BookLoad :=
  { num := 1, bundle := 0, book := 7, first := 0, entries := [5], efmt := 0, bscale := 0, context := 5 }
def fr1 : Front := { gen := 7, fmt := 0, beats := 2, got := 0, taken := true, dead := false, src := (3, 0), pens := [0] }
/-- The grid has run for 9 cycles; and Pen 0's ramp lets it issue. -/
def late (d : Device) : Device := { d with power := { d.power with cycles := 9 } }
def ramped (d : Device) : Device :=
  d.modCore 0 fun k => { k with pn := { k.pn with pens := [(0, { Pen.reset with level := 8 })] } }
/-- Core 1 runs the job too; core 3 does. -/
def also1 (k : Core) (d : Device) : Device := { d with cores := d.cores ++ [(1, { k with job := some 1 })] }
def also3 (k : Core) (d : Device) : Device := { d with cores := d.cores ++ [(3, { k with job := some 1 })] }
/-- Pen 0's shadow is LOADING. -/
def loading0 (d : Device) : Device :=
  d.modCore 0 fun k => { k with pn := { k.pn with pens := [(0, { Pen.reset with shadow := .loading })] } }
/-- Pen 0 armed for generation 7. -/
def armedPens : Pens :=
  { Pens.reset with pens := [(0, { Pen.reset with shadow := .armed })], skidArmed := true, skidGen := 7 }
/-- A walk of one element, and its descriptor in the Yard. -/
def convN : Nat := 0x0001000100000040 + 2 ^ 64 * 0x0000111101010001 + 2 ^ 128 + 2 ^ 192
def withBlk (n : Nat) (d : Device) : Device :=
  { d with slices := [(0, { sl0 with data := [(0, Blk.of false (BitVec.ofNat 256 n))] })] }
def convSt : State := st (withBlk convN (onCore { core0 .p 0x4 with pn := { Pens.reset with fs20 := true } }))
def walk1 : Walk := { num := 1, bundle := 0, first := 0, conv := convOf convN, todo := [(0, 0)], extra := 0 }
def walkSt : Device := (ramped (withBlk convN (idle0 id))).modPens 0 fun p => { p with walk := some walk1 }
/-- A pass of one row of 64 weights, and its descriptor. -/
def passN : Nat := 0x004000010C000040 + 2 ^ 64 * 0x80
/-- Block 0 of core 0's slice fails its check; a merge entry of one byte. -/
def bad0 (d : Device) : Device := { d with slices := [(0, { sl0 with data := [(0, { data := 0, chk := 1 })] })] }
def mrg0 : Merge := { block := 0, data := 0, mask := 1, last := 0, chans := [] }
def passSt : State := st (withBlk passN (onCore (core0 .t 0x2)))
def pass1 : Pass := { num := 1, bundle := 0, sd := 0, d := descOf passN, ran := 9 }
def slG : Slice :=
  { Slice.reset with
    regions := [(0, { Region.reset with valid := true, guarded := true, resident := true, size := 1024, owner := 5 })] }
/-- Channel 1 of core 0 at the Haul instruction `w`. -/
def goH (w : W64) (f : Channel → Channel) : State :=
  st ((idle0 id).setChannel 0 1 (f { Channel.reset with state := .running, prog := [w] }))
/-- The same, and core 3 of the Paddock has a Chute 1 for handles. -/
def goH3 (w : W64) : Device :=
  also3 { Core.reset with chutes := [(1, hch [])] } (goH w id).dev
/-- A tile ring in core 0's slice, FULL on Chute 1 and FREE on Chute 2. -/
def ring4 : Ring4 :=
  { id := 0, space := 0, handle := 0, off := 0, soff := 0, core := 0, size := 1024, fullChute := 1, freeChute := 2, next := 0
    open_ := false, unreturned := [] }
def win1 : Window := { Window.reset with state := .open_, rd := true, wr := true, mesh := true, len := 4096, owner := 5 }
/-- A planned piece, a piece of 4 bytes, one that writes private memory, and a segment of the context with one line written. -/
def plan1 : Planned :=
  { srcSpace := 0, dstSpace := 2, src := 0, dst := 4096, srcXa := 0, dstXa := 0, srcSlot := false, dstSlot := false, len := 4
    joinable := false, tile := none, pc := 0 }
def pc1 : Piece :=
  { owner := .channel 0 1, ctx := 5, pdk := 0, job := some 1, src := .slice 0 0, dst := .slice 0 64, len := 4, phase := .read, data := []
    land := none, win := none, srcHpa := none, dstHpa := none, tile := none, discard := false, pc := 0, sent := 0, place := 0, asked := 0
    bursts := [], redo := false }
def pcW : Piece := { pc1 with src := .window 0x50000000 4092 }
def pcP : Piece := { pc1 with phase := .write, dst := .dva (2 ^ 56 + 60), data := [1, 2, 3, 4] }
def seg1 : Segment := { rd := true, wr := true, seg := 0, owner := 5, base := 0, len := 1 }
def privD : Device :=
  { dev with segs := [(0, seg1)], chans := [(0, { Chan.reset with state := .active, lines := [(0, { key := 1, data := 7 })] })] }
/-- A walk of page 4096 of the context. -/
def wk1 : Walker :=
  { context := 5, group := 0, pdk := 0, phase := .translation, pieces := [], retried := false, stale := false, page := 4096, queued := [] }
def walkD (v : Walker) : Device := { dev with xlt := { Xlt.reset with walkers := [(15, v)] } }
/-- Stall 47 in state `x` with queue 7 of context 5, whose next capsule is SEQ 3. -/
def stl (x : StallState) (q : Queue) : Device := { dev with stalls := [(47, { Stall.reset with queue := 7, state := x, q := q })] }
def q5 : Queue := { Queue.reset with context := 5, next := 3 }
def cmd1 (op : Nat) (ph : CmdPhase) (w : List W64) : Cmd :=
  { seq := 2, opcode := op, cpl := true, ser := false, w := w, phase := ph, code := 0, handle := 0, refs := [], job := none, issued := 0
    done := 0, energy := 0, overlap := false, musters := [] }
/-- A running COPY that a bundle of the context covers. -/
def intakeD (w : List W64) : Device :=
  { privD with
    stalls := [(47, { Stall.reset with queue := 7, state := .bound, q := { q5 with accepted := [cmd1 3 .running w] } })]
    sec := { dev.sec with pdks := [(0, { sec0 with bundles := [(0, { Bundle.reset with installed := true, context := 5, dva := 2 ^ 56, length := 4096 })] })] } }
def obj5 (n : Nat) : Obj := { Obj.reset with used := true, context := 5, href := n }
def seq5 : Seq := { Seq.reset with state := .active, context := 5, href := 1 }
def out9 : OutQueue := { OutQueue.reset with known := true, runnable := true, q := q5 }
def out10 : OutQueue := { OutQueue.reset with known := true, q := q5, watch := some none }
/-- A READY job with an image of one empty bundle in host memory, a loaded one, a yielded one, and the step job. -/
def jobR : Job := { job1 with state := .ready, cores := [], image := 0x10000000 }
def img1 : List Byte := toBytes 96 (0x4D495850 + 2 ^ 32 + 2 ^ 64 + 2 ^ 128 * 64 + 2 ^ 320 * 96)
def startD : Device := { stl .bound q5 with jobs := [(1, jobR)], objs := [(0, { Obj.reset with used := true, context := 5, len := 96 })] }
def jobL : Job := { job1 with state := .loading, loaded := true }
def jobY : Job := { job1 with state := .yielded, cores := [0], yielded := [0] }
def jobS : Job := { job1 with step := true }
def bat1 : Batch := { step := 1, instant := 900000, closedAt := 900000, entries := [], fg := 0, time := 0 }
def stepD (b : Option Batch) : Device :=
  { dev with
    pdks := [(0, { Pdk.reset with stepEn := true, periodic := true, stepQueue := 7, closed := b })], jobs := [(1, jobS)]
    cores := [(0, { Core.reset with job := some 1, musWaiting := true, musId := 0xFFF })] }
/-- Binding 63 of Paddock 0 to `peer`, its session up, at a device with address 8. -/
def bnd (peer : Nat) : Binding := { Binding.reset with valid := true, peer := BitVec.ofNat 16 peer, state := .up, pinc := 4 }
def lnk (b : Binding) (now : Nat := 1000000) : Device :=
  { dev with links := { Links.reset with addr := 8, bindings := [(63, b)] }, tally := { dev.tally with now := now } }
def frm (t : FrameType) (src : Nat) : DroveFrame :=
  { type := t, ver := 1, wellFormed := true, hops := 3, dst := 8, src := BitVec.ofNat 16 src, dpdk := 0, spdk := 0, inc := 4, psn := 0
    ackPsn := 0, crLim := 0, len := 0, code := 0, arg := 0, payload := [] }
def una : Unacked := { psn := 6, f := frm .write 9, first := 900000, last := 900000, rto := 100000, piece := some 7 }
/-- Job 1 with a Muster at fabric scope. -/
def jobF (peer : Nat) : Job := { job1 with cores := [0, 1], musters := [{ def5 with scope := 2, peers := [peer] }] }
/-- Address 20 is routed to port 0, whose egress holds `q`. -/
def rte (q : List (Bool × DroveFrame)) : Device :=
  { dev with links := { Links.reset with addr := 8, routes := [(20, 1)], ports := [(0, { Port.reset with queue := q })] } }
/-- Paddock 0 with security state `p`. -/
def pdD (p : PdkSec) : Device := { dev with sec := { dev.sec with pdks := [(0, p)] } }
/-- Session 3 is an operator's, with `b` staged for STAGE where `stagD` says so. -/
def ses1 : Sess := { Sess.reset with isOpen := true, finished := true, operator := true }
def sD : Device := { dev with dict := { Dict.reset with sessions := [(3, ses1)] } }
def stagD (b : List Byte) : Device :=
  { dev with dict := { Dict.reset with sessions := [(3, ses1)], staging := [{ sess := 3, index := 0x7002, sub := 0, bytes := b }] } }
def dzo (i : Nat) : DzObj := (dzObjects.find? (·.index == i)).getD { index := 0, count := 0, type := 0, access := .ro, size := 0 }
def dzr (i : BitVec 16) (sub : BitVec 8) (b : List Byte) : DzRequest :=
  { tag := 1, index := i, sub := sub, more := false, offset := 0, len := b.length, data := b, flash := .ok }
theorem stagD_last : (stagD (List.replicate (2 ^ 23) 0)).lastChunk 3 { dzr 0x7002 0 [9] with offset := 2 ^ 23 } (dzo 0x7002)
    (List.replicate (2 ^ 23) 0 ++ [9]) = true := by
  have h : ∀ b : List Byte, (stagD b).lastChunk 3 { dzr 0x7002 0 [9] with offset := b.length } (dzo 0x7002) (b ++ [9]) = true := by
    intro b
    have hs : (stagD b).stagedBy 3 (0x7002 : BitVec 16).toNat (0 : BitVec 8).toNat = b := rfl
    simp only [Device.lastChunk, dzr, hs, beq_self_eq_true, Bool.and_true]
    rfl
  have := h (List.replicate (2 ^ 23) 0)
  rwa [List.length_replicate] at this
/-- A bundle of 4096 bytes at DVA 0 of context 5, the host object that holds it, and what its key unwraps to. -/
def bun1 : List Byte := toBytes 133 (5 + 2 ^ 96 * 4096) ++ 1 :: List.replicate 42 0
def bunD : Device :=
  { dev with
    dict := { Dict.reset with sessions := [(3, { ses1 with measured := some 900000 })] }
    tally := { dev.tally with anchors := [(0, 0)] }
    objs := [(0, { Obj.reset with used := true, context := 5, href := 1, len := 4096 })] }
def unw1 : BundleUnwrap := { keyOk := true, tagOk := true, header := toBytes 512 (0x4B534546 + 2 ^ 32) }
def blankMap : Table (BitVec 1024) := (List.range 1024).map fun b => (b, BitVec.allOnes 1024)
def spm : SpdmMsg := { supported := true, slot := 0, nonce := 5, chainOk := true, offset := 0, length := 64, proofOk := true }
/-- A good frame of R28 with count 5, a PTP message of the selected time transmitter, and a clean report of a start. -/
def tcF : BitVec 80 := 656408941118880684705150
def ptp : PtpMsg := { (default : PtpMsg) with supported := true, source := 7, seqId := 3 }
def brep : BootReport := { sfdpOk := true, calOk := true, imageA := true, imageB := true, entropyOk := true, tests := default }
theorem pairEq {α β : Type} {p : α × β} {b : β} (h : p.2 = b) : p = (p.1, b) := by rw [← h]
theorem tripEq {α β γ : Type} {p : α × β × γ} {b : γ} (h : p.2.2 = b) : p = (p.1, p.2.1, b) := by rw [← h]

/-- A gather whose lanes all read one word of zero. -/
theorem gather_zero (d : Device) (h : d.readBytes 0 4 0 4 = (d, .inl (List.replicate 4 0))) :
    ∀ n, d.gatherWords 0 (List.replicate n 0) = (d, .inl (List.replicate n 0)) := by
  intro n
  induction n with
  | zero => rfl
  | succ n ih => simp only [List.replicate_succ (n := n), Device.gatherWords, h, ih]; rfl
theorem gather_go (ls : List Nat) (rs : List (Nat × Nat)) (os : List Nat) (n : Nat) (hl : ls = [0]) (h : os = List.replicate n 0) :
    (((go .m 5).dev.askPorts 0 4 true ls).auditAll 0 rs).gatherWords 0 os =
      ((go .m 5).dev.askPorts 0 4 true [0], .inl (List.replicate n 0)) := by
  rw [h, hl, show ((go .m 5).dev.askPorts 0 4 true [0]).auditAll 0 rs = (go .m 5).dev.askPorts 0 4 true [0] from rfl]
  exact gather_zero _ (Prod.ext rfl (by decide)) n

/-- Every opcode of a list issues on the small device. -/
def allIssue (sl : Slot) (l : List Nat) : Bool := l.all fun op => (go sl (BitVec.ofNat 64 op)).dev.mayIssue 0 sl op (head sl (BitVec.ofNat 64 op))

theorem wit_PredicateTimeAndRandomResults :
  (∃ (s : State) (c : Nat) (x : QInstr), s.dev.mayIssue c .c 0x1F x = true) ∧
  (∃ (s : State) (c : Nat) (x : QInstr), s.dev.mayIssue c .c 0x1B x = true) ∧
  (∃ (s : State) (c : Nat) (x : QInstr), s.dev.mayIssue c .c 0x1C x = true) :=
  ⟨⟨go .c 0x1F, 0, head .c 0x1F, by decide⟩,
   ⟨go .c 0x1B, 0, head .c 0x1B, by decide⟩,
   ⟨go .c 0x1C, 0, head .c 0x1C, by decide⟩⟩

theorem wit_ScalarFrame :
  (∃ i ∈ ([(.add, 0x01), (.sub, 0x02), (.and, 0x03), (.or, 0x04), (.xor, 0x05), (.shl, 0x06), (.shr, 0x07), (.sra, 0x08),
    (.mul, 0x09), (.min, 0x0A), (.max, 0x0B), (.minu, 0x0C), (.maxu, 0x0D), (.slt, 0x0E), (.sltu, 0x0F), (.tly, 0x1B), (.rand,
    0x1C)] : List ((Nat → Instr) × Nat)), ∃ (s t : State) (c : Nat) (x : QInstr), s.dev.mayIssue c .c i.2 x = true ∧ exec (i.1
    c) s = .next t ∧ ∃ r, (r ≠ fD x.word ∨ r = 0)) ∧
  (∃ i ∈ ([(.add, 0x01), (.sub, 0x02), (.and, 0x03), (.or, 0x04), (.xor, 0x05), (.shl, 0x06), (.shr, 0x07), (.sra, 0x08),
    (.mul, 0x09), (.min, 0x0A), (.max, 0x0B), (.minu, 0x0C), (.maxu, 0x0D), (.slt, 0x0E), (.sltu, 0x0F), (.tly, 0x1B), (.rand,
    0x1C)] : List ((Nat → Instr) × Nat)), ∃ (s t : State) (c : Nat) (x : QInstr), s.dev.mayIssue c .c i.2 x = true ∧ exec (i.1
    c) s = .next t ∧ ∃ k, k ≠ c) ∧
  ((∃ i ∈ ([(.add, 0x01), (.tly, 0x1B), (.rand, 0x1C)] : List ((Nat → Instr) × Nat)), ∃ (s t : State) (c : Nat) (x : QInstr),
    s.dev.mayIssue c .c i.2 x = true ∧ exec (i.1 c) s = .next t ∧ ∃ k b : Nat, True)) :=
  ⟨⟨(.add, 0x01), List.Mem.head _, go .c 0x01, _, 0, head .c 0x01, by decide, rfl, 1, by decide⟩,
   ⟨(.add, 0x01), List.Mem.head _, go .c 0x01, _, 0, head .c 0x01, by decide, rfl, 1, by decide⟩,
   ⟨(.add, 0x01), List.Mem.head _, go .c 0x01, _, 0, head .c 0x01, by decide, rfl, 0, 0, trivial⟩⟩

theorem wit_VectorReduceResults :
  (∃ (s : State) (c : Nat) (x : QInstr), s.dev.mayIssue c .t 0x1E x = true) ∧
  (∃ (s : State) (c : Nat) (x : QInstr), s.dev.mayIssue c .t 0x24 x = true) ∧
  (∃ (s : State) (c : Nat) (x : QInstr), s.dev.mayIssue c .t 0x22 x = true) ∧
  (∃ (s : State) (c : Nat) (x : QInstr), s.dev.mayIssue c .t 0x2B x = true) :=
  ⟨⟨go .t 0x1E, 0, head .t 0x1E, by decide⟩,
   ⟨go .t 0x10000000024, 0, head .t 0x10000000024, by decide⟩,
   ⟨go .t 0x22, 0, head .t 0x22, by decide⟩,
   ⟨go .t 0x2b, 0, head .t 0x2b, by decide⟩⟩

theorem wit_VectorSortResults :
  (∃ (s : State) (c : Nat) (x : QInstr), s.dev.mayIssue c .t 0x27 x = true) ∧
  (∃ (s : State) (c : Nat) (x : QInstr), s.dev.mayIssue c .t 0x28 x = true) ∧
  (∃ (s : State) (c : Nat) (x : QInstr) (t : TopK), s.dev.mayIssue c .t 0x29 x = true ∧ (s.dev.core c).topk = some t ∧ t.ty =
    vTY x.word) ∧
  (∃ (s : State) (c : Nat) (x : QInstr) (t : TopK), s.dev.mayIssue c .t 0x2A x = true ∧ (s.dev.core c).topk = some t ∧ t.ty =
    vTY x.word ∧ fD x.word ≠ vC x.word) :=
  ⟨⟨go .t 0x427, 0, head .t 0x427, by decide⟩,
   ⟨go .t 0x28, 0, head .t 0x28, by decide⟩,
   ⟨goW .t 0x10000000029 tk4, 0, head .t 0x10000000029, list4, by decide⟩,
   ⟨goW .t 0x42A tk4, 0, head .t 0x42A, list4, by decide⟩⟩

theorem wit_YardAccessResults_loads :
  (∃ (s : State) (c : Nat) (x : QInstr) (e : Device) (ws : List W32), s.dev.mayIssue c .m 0x05 x = true ∧
    let offs := (List.range 256).map fun l =>
      mOffset (s.dev.regs c) x.word + BitVec.ofNat 64 l * (s.dev.regs c).sop (bits x.word 54 50)
    (offs.all fun o => decide (o.toNat % 4 = 0) && s.dev.ownRange c o.toNat 4) = true ∧ s.dev.portsBusy c = false ∧
    ((s.dev.askPorts c 4 true (wordLines offs)).auditAll c (offs.map fun o => (o.toNat, 4))).gatherWords c
      (offs.map (·.toNat)) = (e, .inl ws)) :=
  ⟨go .m 0x05, 0, head .m 0x05, _, _, by decide, by decide, by decide, gather_go _ _ _ 256 (by decide) (by decide)⟩

theorem wit_YardAccessResults_stores :
  (∃ (s : State) (c : Nat) (x : QInstr), s.dev.mayIssue c .m 0x06 x = true ∧
    let off := fun (l : Nat) => mOffset (s.dev.regs c) x.word + BitVec.ofNat 64 l * (s.dev.regs c).sop (bits x.word 54 50)
    ((List.range 256).all fun l => decide ((off l).toNat % 4 = 0) && s.dev.ownRange c (off l).toNat 4) = true ∧
    s.dev.portsBusy c = false) :=
  ⟨go .m 0x06, 0, head .m 0x06, by decide⟩

theorem wit_YardAccessTraps :
  (∃ (s : State) (c : Nat) (x : QInstr), s.dev.mayIssue c .m 0x02 x = true ∧ (((mOffset (s.dev.regs c) x.word).toNat % 4 ≠ 0 ∨
    s.dev.ownRange c (mOffset (s.dev.regs c) x.word).toNat (if bit x.word 48 then 4 else 8) = false))) :=
  ⟨go .m 0x0001000000800002, 0, head .m 0x0001000000800002, by decide⟩

theorem wit_NarrowWriteChangesItsBytes :
  (∃ (d : Device) (c : Nat) (m : Merge), ((∀ x ∈ (d.slice c).merge, x.block < 2 ^ 21)) ∧ m.block < 2 ^ 21 ∧ m.mask ≠
    BitVec.allOnes 32 ∧ ∃ a < 2 ^ 26, True) ∧
  (∃ (d : Device) (c : Nat) (m : Merge), ((∀ x ∈ (d.slice c).merge, x.block < 2 ^ 21)) ∧ m.block < 2 ^ 21 ∧ m.mask ≠
    BitVec.allOnes 32 ∧ ∃ k, k ≠ c) :=
  ⟨⟨dev, 0, { block := 0, data := 0, mask := 1, last := 0, chans := [] }, by decide, by decide, by decide, 5, by decide, trivial⟩,
   ⟨dev, 0, { block := 0, data := 0, mask := 1, last := 0, chans := [] }, by decide, by decide, by decide, 1, by decide⟩⟩

theorem wit_MergeBlocksDistinct :
  ((∃ (d : Device) (c off : Nat) (bs : List Byte), off + bs.length ≤ 2 ^ 26 ∧ ((d.slice c).merge.map (·.block)).Nodup ∧ (∀ x ∈
    (d.slice c).merge, x.block < 2 ^ 21) ∧ (d.slice c).merge.length ≤ 16)) :=
  ⟨dev, 0, 2 ^ 26 - 1, [7], by decide, by decide, by decide, by decide⟩

theorem wit_FullWriteReadsBack :
  (∃ (d : Device) (c b cls : Nat) (x : Block256), (((d.slice c).merge.all fun m => m.block != b) = true)) :=
  ⟨dev, 0, 5, 1, 9, by decide⟩

theorem wit_ChuteResults :
  (∃ (s : State) (c : Nat) (x : QInstr), s.dev.mayIssue c .c 0x14 x = true ∧ s.dev.samePaddock c (bits x.word 35 32) = true ∧
    s.dev.suits (.program c) (bits x.word 35 32) (bits x.word 39 36) false = true ∧ s.dev.heldBefore (.program c) (bits x.word
    35 32) (bits x.word 39 36) = false ∧ (bits x.word 35 32) = c ∧ s.dev.fullFor c (bits x.word 39 36) (.program c) = false) ∧
  (∃ (s : State) (c : Nat) (x : QInstr), s.dev.mayIssue c .c 0x14 x = true ∧ s.dev.samePaddock c (bits x.word 35 32) = true ∧
    s.dev.suits (.program c) (bits x.word 35 32) (bits x.word 39 36) false = true ∧ s.dev.heldBefore (.program c) (bits x.word
    35 32) (bits x.word 39 36) = false ∧ (bits x.word 35 32) ≠ c ∧ s.dev.receives (bits x.word 35 32) = true ∧ s.dev.fullFor
    (bits x.word 35 32) (bits x.word 39 36) (.program c) = false) ∧
  (∃ (s : State) (c : Nat) (x : QInstr), s.dev.mayIssue c .c 0x14 x = true ∧ s.dev.samePaddock c (bits x.word 35 32) = true ∧
    s.dev.suits (.program c) (bits x.word 35 32) (bits x.word 39 36) false = true ∧ s.dev.heldBefore (.program c) (bits x.word
    35 32) (bits x.word 39 36) = false ∧ ((bits x.word 35 32) = c ∨ s.dev.receives (bits x.word 35 32) = true) ∧ s.dev.fullFor
    (bits x.word 35 32) (bits x.word 39 36) (.program c) = true) ∧
  (∃ (s : State) (src dst : Nat) (p : Push), src < 12 ∧ dst < 12 ∧ s.dev.arriving (.program src) dst false = some p ∧
    s.dev.heldBefore (.program src) dst p.chute = false ∧ s.dev.receives dst = true ∧ s.dev.suits (.program src) dst p.chute
    false = true ∧ (s.dev.chute dst p.chute).entries.length < 64) ∧
  (∃ (s : State) (c : Nat) (x : QInstr) (v : W64) (r : List W64), s.dev.mayIssue c .c 0x15 x = true ∧ (s.dev.chute c (bits
    x.word 39 36)).handle = false ∧ (s.dev.chute c (bits x.word 39 36)).entries = v :: r) ∧
  (∃ (s : State) (src dst : Nat) (p : Push) (j : Nat), src < 12 ∧ dst < 12 ∧ s.dev.arriving (.program src) dst false = some p
    ∧ p.job = some j ∧ (s.dev.job j).isSome = true ∧ s.dev.heldBefore (.program src) dst p.chute = false ∧ s.dev.receives dst
    = true ∧ s.dev.suits (.program src) dst p.chute false = true ∧ 64 ≤ (s.dev.chute dst p.chute).entries.length) ∧
  (∃ (s : State) (c : Nat) (x : QInstr), s.dev.mayIssue c .m 0x0C x = true ∧ s.dev.samePaddock c (if bit x.word 24 then bits
    x.word 23 20 else c) = true ∧ s.dev.suits (.program c) (if bit x.word 24 then bits x.word 23 20 else c) (bits x.word 19
    16) true = true ∧ s.dev.goodHandle c ((s.dev.regs c).sop (fD x.word)) = true ∧ s.dev.outputsOwed c x.num = false ∧
    (s.dev.drainAll c).writesOwed c x.num = false ∧ (s.dev.drainAll c).heldBefore (.program c) (if bit x.word 24 then bits
    x.word 23 20 else c) (bits x.word 19 16) = false ∧ (if bit x.word 24 then bits x.word 23 20 else c) = c ∧ (s.dev.drainAll
    c).fullFor c (bits x.word 19 16) (.program c) = false) ∧
  (∃ (s : State) (c : Nat) (x : QInstr), s.dev.mayIssue c .m 0x0C x = true ∧ s.dev.samePaddock c (if bit x.word 24 then bits
    x.word 23 20 else c) = true ∧ s.dev.suits (.program c) (if bit x.word 24 then bits x.word 23 20 else c) (bits x.word 19
    16) true = true ∧ s.dev.goodHandle c ((s.dev.regs c).sop (fD x.word)) = true ∧ s.dev.outputsOwed c x.num = false ∧
    (s.dev.drainAll c).writesOwed c x.num = false ∧ (s.dev.drainAll c).heldBefore (.program c) (if bit x.word 24 then bits
    x.word 23 20 else c) (bits x.word 19 16) = false ∧ (if bit x.word 24 then bits x.word 23 20 else c) ≠ c ∧ (s.dev.drainAll
    c).receives (if bit x.word 24 then bits x.word 23 20 else c) = true ∧ (s.dev.drainAll c).fullFor (if bit x.word 24 then
    bits x.word 23 20 else c) (bits x.word 19 16) (.program c) = false) ∧
  (∃ (s : State) (src : Sender) (dst : Nat) (p : Push), src.wf = true ∧ dst < 12 ∧ s.dev.arriving src dst true = some p ∧
    s.dev.heldBefore src dst p.chute = false ∧ s.dev.receives dst = true ∧ s.dev.suits src dst p.chute true = true ∧
    (s.dev.chute dst p.chute).entries.length < 64) ∧
  (∃ (s : State) (c : Nat) (x : QInstr) (v : W64) (r : List W64), s.dev.mayIssue c .m 0x0D x = true ∧ (s.dev.chute c (bits
    x.word 19 16)).handle = true ∧ (s.dev.chute c (bits x.word 19 16)).bound ≠ .free ∧ (s.dev.chute c (bits x.word 19
    16)).entries = v :: r) ∧
  (∃ (s : State) (c n : Nat) (src : Sender) (r : List Sender), c < 12 ∧ n < 16 ∧ (s.dev.chute c n).waiting = src :: r ∧
    (s.dev.chute c n).entries.length < 64) :=
  ⟨⟨go .c 0x14, 0, head .c 0x14, by decide⟩,
   ⟨goD .c 0x100000014 (also1 Core.reset), 0, head .c 0x100000014, by decide⟩,
   ⟨goW .c 0x14 (fun k => { k with chutes := [(0, { Chute.reset with entries := List.replicate 64 5 })] }), 0, head .c 0x14, by decide⟩,
   ⟨st (pushD 0 false (.program 3)), 3, 0, push0 false (.program 3), by decide⟩,
   ⟨goW .c 0x15 (fun k => { k with chutes := [(0, { Chute.reset with entries := [5] })] }), 0, head .c 0x15, 5, [], by decide⟩,
   ⟨st { pushD 64 false (.program 3) with pushes := [{ push0 false (.program 3) with job := some 1 }] }, 3, 0, { push0 false (.program 3) with job := some 1 }, 1, by decide⟩,
   ⟨goW .m 0x0C (fun k => { k with chutes := [(0, hch [])] }), 0, head .m 0x0C, by decide⟩,
   ⟨goD .m 0x110000C (also1 { Core.reset with chutes := [(0, hch [])] }), 0, head .m 0x110000C, by decide⟩,
   ⟨st (pushD 0 true (.channel 3 1)), .channel 3 1, 0, push0 true (.channel 3 1), by decide⟩,
   ⟨goW .m 0x0D (fun k => { k with chutes := [(0, hch [5])] }), 0, head .m 0x0D, 5, [], by decide⟩,
   ⟨st (idle0 fun k => { k with chutes := [(2, { Chute.reset with waiting := [.program 3] })] }), 0, 2, .program 3, [], by decide⟩⟩

theorem wit_DispatchResults :
  (∃ (s : State) (c : Nat), c < 12 ∧ (s.dev.regs c).stat = .run ∧ (s.dev.regs c).hold = none ∧ s.dev.frozen c = false ∧
    (s.dev.regs c).pc < 8192 ∧ (s.dev.regs c).imemBad.contains (s.dev.regs c).pc = false ∧ ((((bundleWords (Table.get
    (s.dev.regs c).imem 0 (s.dev.regs c).pc)).filter fun x => x.2 ≠ 0).any fun x => kpMarked x.1 x.2 && decide (1 <
    ((bundleWords (Table.get (s.dev.regs c).imem 0 (s.dev.regs c).pc)).filter fun x => x.2 ≠ 0).length)) = false) ∧
    (dispatchFault ((bundleWords (Table.get (s.dev.regs c).imem 0 (s.dev.regs c).pc)).filter fun x => x.2 ≠ 0) [] = none) ∧
    ((((bundleWords (Table.get (s.dev.regs c).imem 0 (s.dev.regs c).pc)).filter fun x => x.2 ≠ 0).all fun x => decide
    (((s.dev.regs c).queue x.1).length < 8)) = true) ∧ (((s.dev.regs c).claims.map fun k => k.res.length).sum + (((bundleWords
    (Table.get (s.dev.regs c).imem 0 (s.dev.regs c).pc)).filter fun x => x.2 ≠ 0).map fun x => (claimsOf x.1 x.2).length).sum
    ≤ 96)) ∧
  (∃ (s : State) (c : Nat) (sl : Slot), c < 12 ∧ (s.dev.regs c).queue sl = []) :=
  ⟨⟨idle0st, 0, by decide⟩,
   ⟨st dev, 11, .m, by decide⟩⟩

theorem wit_BranchAndLoopResults :
  (∃ (s : State) (c : Nat) (x : QInstr), s.dev.mayIssue c .c 0x10 x = true ∧ condHolds (cCOND x.word) ((s.dev.regs c).sop (fA
    x.word)) ((s.dev.regs c).sop (fBb x.word)) = true) ∧
  (∃ (s : State) (c : Nat) (x : QInstr), s.dev.mayIssue c .c 0x10 x = true ∧ condHolds (cCOND x.word) ((s.dev.regs c).sop (fA
    x.word)) ((s.dev.regs c).sop (fBb x.word)) = false) ∧
  (∃ (s : State) (c : Nat) (x : QInstr), s.dev.mayIssue c .c 0x11 x = true ∧ x.bundle < (bits x.word 60 48) ∧ (if cI x.word
    then bits x.word 47 32 else bits ((s.dev.regs c).sop (fA x.word)) 31 0) = 0) ∧
  (∃ (s : State) (c : Nat) (x : QInstr), s.dev.mayIssue c .c 0x11 x = true ∧ x.bundle < (bits x.word 60 48) ∧ (if cI x.word
    then bits x.word 47 32 else bits ((s.dev.regs c).sop (fA x.word)) 31 0) ≠ 0 ∧ (s.dev.regs c).loops.length < 4) :=
  ⟨⟨go .c 0x10, 0, head .c 0x10, by decide⟩,
   ⟨go .c 0x20000010, 0, head .c 0x20000010, by decide⟩,
   ⟨go .c 0x0001000000000011, 0, head .c 0x0001000000000011, by decide⟩,
   ⟨go .c 0x0001000110000011, 0, head .c 0x0001000110000011, by decide⟩⟩

theorem wit_DispatchGoesOn :
  ((∃ (q : Sequencer) (sl : Slot) (x : QInstr) (r : List QInstr), q.queue sl = x :: r ∧ (q.retire sl).claims ≠ [])) ∧
  (∃ (q : Sequencer) (sl : Slot) (x : QInstr) (r : List QInstr), q.queue sl = x :: r ∧ q.hold = some (.issue x.num)) ∧
  (∃ (q : Sequencer) (sl : Slot) (x : QInstr) (r : List QInstr), q.queue sl = x :: r ∧ q.hold ≠ some (.issue x.num)) ∧
  (∃ (q : Sequencer) (l : Loop) (r : List Loop), 1 < l.count) ∧
  (∃ (q : Sequencer) (l : Loop) (r : List Loop), l.count ≤ 1 ∧ ((∀ m ∈ r, m.end_ ≠ l.end_))) :=
  ⟨⟨{ seqOf (head .c 1) with claims := [{ num := 2, res := [.s 1] }] }, .c, head .c 1, [], by decide, by decide⟩,
   ⟨{ seqOf (head .c 1) with hold := some (.issue 1) }, .c, head .c 1, [], by decide⟩,
   ⟨seqOf (head .c 1), .c, head .c 1, [], by decide⟩,
   ⟨Sequencer.reset, { count := 2, start := 0, end_ := 5 }, [], by decide⟩,
   ⟨Sequencer.reset, { count := 1, start := 0, end_ := 5 }, [{ count := 9, start := 0, end_ := 6 }], by decide⟩⟩

theorem wit_EndingResults :
  (∃ (s : State) (c : Nat) (x : QInstr), s.dev.mayIssue c .c 0x1A x = true ∧ s.dev.outputsOwed c x.num = false ∧
    (s.dev.drainAll c).writesOwed c x.num = false) ∧
  (∃ (s : State) (c : Nat) (x : QInstr) (j : Nat) (v : Job), s.dev.mayIssue c .c 0x1E x = true ∧ (((s.dev.regs c).waiting.any
    fun y => y.num != x.num) = false) ∧ s.dev.quiet c = true ∧ s.dev.jobOf c = some (j, v) ∧ ((v.cores.all fun k => k == c ||
    v.halted.contains k) = false) ∧ v.state ≠ .draining) ∧
  (∃ (s : State) (c : Nat) (x : QInstr) (j : Nat) (v : Job), s.dev.mayIssue c .c 0x1E x = true ∧ (((s.dev.regs c).waiting.any
    fun y => y.num != x.num) = false) ∧ s.dev.quiet c = true ∧ s.dev.jobOf c = some (j, v) ∧ ((v.cores.all fun k => k == c ||
    v.halted.contains k) = true)) ∧
  (∃ (s : State) (c : Nat) (x : QInstr) (j : Nat) (v : Job), s.dev.mayIssue c .c 0x19 x = true ∧ s.dev.jobOf c = some (j, v) ∧
    (s.dev.regs c).preempt = false) ∧
  (∃ (s : State) (c : Nat) (x : QInstr) (j : Nat) (v : Job), s.dev.mayIssue c .c 0x19 x = true ∧ s.dev.jobOf c = some (j, v) ∧
    (s.dev.regs c).preempt = true ∧ s.dev.kerfBarred c = false) ∧
  (∃ (s : State) (c : Nat) (x : QInstr) (j : Nat) (v : Job), s.dev.mayIssue c .c 0x19 x = true ∧ s.dev.jobOf c = some (j, v) ∧
    (s.dev.regs c).preempt = true ∧ s.dev.kerfBarred c = true) ∧
  (∃ (s : State) (c j : Nat) (v : Job), c < 12 ∧ s.dev.drained c = true ∧ s.dev.frozen c = false ∧ s.dev.jobOf c = some (j,
    v)) ∧
  (∃ (s : State) (c : Nat) (x : QInstr) (j : Nat) (v : Job), s.dev.mayIssue c .c 0x1D x = true ∧ s.dev.jobOf c = some (j, v)) :=
  ⟨⟨go .c 0x1A, 0, head .c 0x1A, by decide⟩,
   ⟨goD .c 0x1E (fun d => { d with jobs := [(1, { job1 with cores := [0, 1] })] }), 0, head .c 0x1E, 1, { job1 with cores := [0, 1] }, by decide⟩,
   ⟨go .c 0x1E, 0, head .c 0x1E, 1, job1, by decide⟩,
   ⟨go .c 0x19, 0, head .c 0x19, 1, job1, by decide⟩,
   ⟨goW .c 0x19 (fun k => { k with sq := { k.sq with preempt := true } }), 0, head .c 0x19, 1, job1, by decide⟩,
   ⟨goW .c 0x19 (fun k => { k with sq := { k.sq with preempt := true }, channels := [(0, { Channel.reset with state := .running })] }), 0, head .c 0x19, 1, job1, by decide⟩,
   ⟨st (idle0 fun k => { k with sq := { k.sq with stat := .draining, draining := some none } }), 0, 1, job1, by decide⟩,
   ⟨go .c 0x1D, 0, head .c 0x1D, 1, job1, by decide⟩⟩

theorem wit_MusterResults :
  (∃ (s : State) (c : Nat) (x : QInstr) (j : Nat) (v : Job) (m : MusterDef) (r : Round), s.dev.mayIssue c .c 0x16 x = true ∧
    (s.dev.core c).musWaiting = false ∧ s.dev.jobOf c = some (j, v) ∧ (bits x.word 43 32) ≠ 0xFFF ∧ Device.musterDef v (bits
    x.word 43 32) = some m ∧ s.dev.roundOf j (bits x.word 43 32) = some r ∧ m.scope = 0 ∧ (v.cores.all (r.arrived ++
    [c]).contains) = false ∧ r.arrived.contains c = false) ∧
  (∃ (s : State) (p id : Nat) (r : Round) (v : Job) (at_ : Nat), p < 6 ∧ id < 4096 ∧ ((s.dev.rounds.filter fun r => r.paddock
    == p && r.id == id) = [r]) ∧ r.releaseAt = some at_ ∧ at_ ≤ s.dev.now ∧ s.dev.job r.job = some v) ∧
  (∃ (s : State) (slot : Nat) (r : Round), slot < 256 ∧ s.dev.fires slot 2 = true ∧ ((s.dev.rounds.filter fun r => r.paddock
    == (s.dev.alarm slot).owner && (match r.deadline with | some t => decide (t ≤ s.dev.now) | none => false)) = [r])) :=
  ⟨⟨goD .c 0x500000016 mus2, 0, head .c 0x500000016, 1, jobM, { def5 with peers := [] }, rnd, by decide⟩,
   ⟨st { dev with rounds := [{ rnd with releaseAt := some 900000 }], jobs := [(1, jobM)] }, 0, 5, { rnd with releaseAt := some 900000 }, jobM, 900000, by decide⟩,
   ⟨st (withAlarm 0 { Alarm.reset with armed := true, kind := 2 } { dev with rounds := [{ rnd with deadline := some 900000 }] }), 0, { rnd with deadline := some 900000 }, by decide⟩⟩

theorem wit_SignalRule :
  (∃ (d : Device) (i : Nat) (v : W64), (d.fence i).code = 0 ∧ (d.fence i).value < v) ∧
  (∃ (d : Device) (i : Nat) (v : W64), (d.fence i).code = 0 ∧ v ≤ (d.fence i).value) ∧
  (∃ (d : Device) (i : Nat) (v : W64), (d.fence i).code ≠ 0) :=
  ⟨⟨dev, 0, 7, by decide⟩,
   ⟨dev, 0, 0, by decide⟩,
   ⟨{ dev with fences := [(0, { Fence.reset with code := 5 })] }, 0, 7, by decide⟩⟩

theorem wit_FenceInstructionResults :
  (∃ (s : State) (c : Nat) (x : QInstr), s.dev.mayIssue c .c 0x17 x = true ∧ s.dev.findFence (s.dev.ctxOf c) (((s.dev.regs
    c).sop (fA x.word)).setWidth 32 : W32) = none) ∧
  (∃ (s : State) (c : Nat) (x : QInstr), s.dev.mayIssue c .c 0x17 x = true ∧ ∃ i, s.dev.findFence (s.dev.ctxOf c)
    (((s.dev.regs c).sop (fA x.word)).setWidth 32 : W32) = some i) ∧
  (∃ (s : State) (c : Nat) (x : QInstr), s.dev.mayIssue c .c 0x18 x = true ∧ s.dev.findFence (s.dev.ctxOf c) (((s.dev.regs
    c).sop (fA x.word)).setWidth 32 : W32) = none) ∧
  (∃ (s : State) (c : Nat) (x : QInstr), s.dev.mayIssue c .c 0x18 x = true ∧ ∃ i, s.dev.findFence (s.dev.ctxOf c)
    (((s.dev.regs c).sop (fA x.word)).setWidth 32 : W32) = some i ∧ ((s.dev.regs c).sop (fBb x.word)) ≤ (s.dev.fence i).value) ∧
  (∃ (s : State) (c : Nat) (x : QInstr), s.dev.mayIssue c .c 0x18 x = true ∧ ∃ i, s.dev.findFence (s.dev.ctxOf c)
    (((s.dev.regs c).sop (fA x.word)).setWidth 32 : W32) = some i ∧ (s.dev.fence i).value < ((s.dev.regs c).sop (fBb x.word))
    ∧ (s.dev.fence i).code ≠ 0) :=
  ⟨⟨go .c 0x17, 0, head .c 0x17, by decide⟩,
   ⟨goD .c 0x100017 (fun d => fen (s1 0x20000000 d)), 0, head .c 0x100017, by decide, 0, by decide⟩,
   ⟨go .c 0x18, 0, head .c 0x18, by decide⟩,
   ⟨goD .c 0x100018 (fun d => fen (s1 0x20000000 d)), 0, head .c 0x100018, by decide, 0, by decide⟩,
   ⟨goD .c 0x4100018 (fun d => fenC (s1 0x20000000 d)), 0, head .c 0x4100018, by decide, 0, by decide⟩⟩

theorem wit_PhaseResults :
  (∃ (s : State) (c : Nat) (x : QInstr), s.dev.mayIssue c .c 0x20 x = true ∧ (s.dev.core c).announced = none ∧ (bits x.word 59
    44) = 0) ∧
  (∃ (s : State) (c : Nat) (x : QInstr), s.dev.mayIssue c .c 0x20 x = true ∧ (s.dev.core c).announced = none ∧ ∃ n, (bits
    x.word 59 44) ≠ 0 ∧ s.dev.freeSlot ((s.dev.pdkOfCore c).getD 0) = some n) ∧
  (∃ (s : State) (slot : Nat), slot < 256 ∧ s.dev.fires slot 3 = true ∧ ∃ c tag, s.dev.announcer slot = some (c, tag)) ∧
  (∃ (s : State) (slot : Nat), slot < 256 ∧ s.dev.fires slot 3 = true ∧ s.dev.announcer slot = none) :=
  ⟨⟨go .c 0x20, 0, head .c 0x20, by decide⟩,
   ⟨go .c 0x0000100000000020, 0, head .c 0x0000100000000020, by decide, by decide, 16, by decide⟩,
   ⟨st (withAlarm 5 { Alarm.reset with armed := true, kind := 3 } (idle0 fun k => { k with announced := some (7, 5) })), 5, by decide, by decide, 0, 7, by decide⟩,
   ⟨st (withAlarm 5 { Alarm.reset with armed := true, kind := 3 } dev), 5, by decide⟩⟩

theorem wit_CoreRegisterResults :
  (∃ (s : State) (c : Nat) (x : QInstr), s.dev.mayIssue c .c 0x12 x = true ∧ (((bits x.word 43 32) < 0x700 ∨ 0x780 ≤ (bits
    x.word 43 32) ∨ (bits x.word 43 32) % 8 ≠ 0))) ∧
  (∃ (s : State) (c : Nat) (x : QInstr), s.dev.mayIssue c .c 0x13 x = true ∧ (bits x.word 43 32) = 0x008) ∧
  (∃ (s : State) (c : Nat) (x : QInstr), s.dev.mayIssue c .c 0x13 x = true ∧ (bits x.word 43 32) = 0x040) ∧
  (∃ (s : State) (c : Nat) (x : QInstr), s.dev.mayIssue c .c 0x13 x = true ∧ (bits x.word 43 32) = 0x048) ∧
  (∃ (s : State) (c : Nat) (x : QInstr), s.dev.mayIssue c .c 0x13 x = true ∧ (bits x.word 43 32) = 0x200) ∧
  (∃ (s : State) (c : Nat) (x : QInstr), s.dev.mayIssue c .c 0x13 x = true ∧ (bits x.word 43 32) = 0x208) ∧
  (∃ (s : State) (c : Nat) (x : QInstr), s.dev.mayIssue c .c 0x13 x = true ∧ (((bits x.word 43 32) = 0x000 ∨ (bits x.word 43
    32) = 0x010 ∨ (bits x.word 43 32) = 0x018 ∨ (bits x.word 43 32) = 0x210 ∨ (bits x.word 43 32) = 0x300 ∨ (bits x.word 43
    32) = 0x508))) ∧
  (∃ (s : State) (c : Nat) (x : QInstr), s.dev.mayIssue c .c 0x13 x = true ∧ ∃ n < 16, (bits x.word 43 32) = 0x480 + 8 * n ∧
    (s.dev.chute c n).handle ≠ bit ((s.dev.regs c).sop (fA x.word)) 0 ∧ (s.dev.chute c n).entries = [] ∧ (s.dev.chute c
    n).bound = .none) ∧
  (∃ (s : State) (c : Nat) (x : QInstr), s.dev.mayIssue c .c 0x13 x = true ∧ (bits x.word 43 32) = 0x500 ∧ ((bit ((s.dev.regs
    c).sop (fA x.word)) 4 = true ∨ ∃ j k, s.dev.jobOf c = some (j, k) ∧ k.cores.contains (bits ((s.dev.regs c).sop (fA
    x.word)) 3 0) = true))) ∧
  (∃ (s : State) (c : Nat) (x : QInstr), s.dev.mayIssue c .c 0x13 x = true ∧ (bits x.word 43 32) = 0x800 ∧ ((bit ((s.dev.regs
    c).sop (fA x.word)) 31 = false ∨ (bits ((s.dev.regs c).sop (fA x.word)) 25 0 % 64 = 0 ∧ s.dev.ownRange c (bits
    ((s.dev.regs c).sop (fA x.word)) 25 0) 8256 = true)))) ∧
  (∃ (s : State) (c : Nat) (x : QInstr), s.dev.mayIssue c .c 0x13 x = true ∧ ∃ ch < 2, (bits x.word 43 32) = 0x400 + 0x40 * ch
    ∧ bit ((s.dev.regs c).sop (fA x.word)) 2 = true ∧ (s.dev.channel c ch).state = .halted ∧ ∃ j k, (s.dev.setChannel c ch {
    s.dev.channel c ch with state := .idle, halt := false }).jobOf c = some (j, k) ∧ k.haltAt = some (c, ch)) ∧
  (∃ (s : State) (c : Nat) (x : QInstr), s.dev.mayIssue c .c 0x13 x = true ∧ ∃ ch < 2, (bits x.word 43 32) = 0x408 + 0x40 * ch
    ∧ bit ((s.dev.regs c).sop (fA x.word)) 0 = true) :=
  ⟨⟨go .c 0x6FC00000012, 0, head .c 0x6FC00000012, by decide, by decide⟩,
   ⟨go .c 0x800000013, 0, head .c 0x800000013, by decide⟩,
   ⟨go .c 0x4000000013, 0, head .c 0x4000000013, by decide⟩,
   ⟨go .c 0x4800000013, 0, head .c 0x4800000013, by decide⟩,
   ⟨go .c 0x20000000013, 0, head .c 0x20000000013, by decide⟩,
   ⟨go .c 0x20800000013, 0, head .c 0x20800000013, by decide⟩,
   ⟨go .c 0x50800000013, 0, head .c 0x50800000013, by decide⟩,
   ⟨goD .c 0x4f800100013 (fun d => s1 1 (id d)), 0, head .c 0x4f800100013, by decide, 15, by decide, by decide, by decide⟩,
   ⟨goD .c 0x50000100013 (fun d => s1 16 (id d)), 0, head .c 0x50000100013, by decide, by decide, .inl (by decide)⟩,
   ⟨goD .c 0x80000100013 (fun d => s1 2147483712 (id d)), 0, head .c 0x80000100013, by decide, by decide, .inr (by decide)⟩,
   ⟨goD .c 0x44000100013 (fun d => s1 4 (halt1 d)), 0, head .c 0x44000100013, by decide, 1, by decide, by decide, by decide, by decide, 1, jobH, by decide⟩,
   ⟨goD .c 0x44800100013 (fun d => s1 1 (id d)), 0, head .c 0x44800100013, by decide, 1, by decide, by decide⟩⟩

theorem wit_SemaphoreTicketResults :
  (∃ (s : State) (c n j : Nat) (x : QInstr) (v : Job), n < 16 ∧ s.dev.jobOf c = some (j, v) ∧ s.dev.mayIssue c .c 0x12 x =
    true ∧ bits x.word 43 32 = 0x700 + 8 * n ∧ (s.dev.sem v.paddock n).valid = true ∧ (s.dev.sem v.paddock n).context =
    v.context ∧ v.tickets.length < 16) ∧
  (∃ (s : State) (c n j : Nat) (x : QInstr) (v : Job), n < 16 ∧ s.dev.jobOf c = some (j, v) ∧ ∃ i t ts, s.dev.mayIssue c .c
    0x13 x = true ∧ bits x.word 43 32 = 0x780 + 8 * n ∧ ((v.tickets.filter fun t => t.1 == n && decide (t.2 ≤ s.dev.granted
    v.paddock n)).map (·.2) = t :: ts) ∧ v.loan = none ∧ (s.dev.sem v.paddock n).abandoned = [] ∧ s.dev.semFence v.paddock n =
    some i) :=
  ⟨⟨goD .c 0x77800000012 semD, 0, 15, 1, head .c 0x77800000012, job1, by decide⟩,
   ⟨goD .c 0x7F800000013 (fun d => { semD d with jobs := [(1, { job1 with tickets := [(15, 1)] })] }), 0, 15, 1, head .c 0x7F800000013, { job1 with tickets := [(15, 1)] }, by decide, by decide, 0, 1, [], by decide⟩⟩

theorem wit_RegisterWriteResults :
  (∃ (s : State) (v : W64), s.dev.mmioUp = true ∧ ∃ n < 64, ∃ off, off = 0x1000 + 0x20 * n ∧ (s.dev.ring n).en = false) ∧
  (∃ (s : State) (v : W64), s.dev.mmioUp = true ∧ ∃ n < 64, ∃ off, off = 0x1018 + 0x20 * n) ∧
  (∃ (s : State) (v : W64), s.dev.mmioUp = true ∧ ∃ p < 6, s.dev.pdkPresent p = true ∧ (s.dev.pdk p).rst = .running ∧ 10 ≤
    bits v 31 16 ∧ bits v 31 16 ≤ 10000) ∧
  (∃ (s : State) (v : W64), s.dev.mmioUp = true ∧ ∃ p < 6, s.dev.pdkPresent p = true ∧ (s.dev.pdk p).rst = .running ∧ ∃ g <
    64, bits v 7 0 ≠ 0) :=
  ⟨⟨st dev, 5, by decide, 63, by decide, _, rfl, by decide⟩,
   ⟨st dev, 5, by decide, 63, by decide, _, rfl⟩,
   ⟨st dev, 0x27100000, by decide, 0, by decide, by decide⟩,
   ⟨st dev, 1, by decide, 0, by decide, by decide, by decide, 63, by decide, by decide⟩⟩

theorem wit_PenIssueResults :
  (∃ (s : State) (c : Nat) (x : QInstr), s.dev.mayIssue c .p 0x01 x = true ∧ pairOk (issueArgs (s.dev.core c).sq x.word).op
    (issueArgs (s.dev.core c).sq x.word).cond (issueArgs (s.dev.core c).sq x.word).fw (issueArgs (s.dev.core c).sq x.word).fx
    = true ∧ (((issueArgs (s.dev.core c).sq x.word).fold = true ∨ (issueArgs (s.dev.core c).sq x.word).slot < 16)) ∧ (if fmtMx
    (issueArgs (s.dev.core c).sq x.word).fx then bits x.word 51 47 % 2 = 0 else bits x.word 51 47 = 0) ∧ (maskUnits
    (s.dev.core c).sq x.word) ≠ [] ∧ badUnits (s.dev.core c).pn.folds (issueArgs (s.dev.core c).sq x.word).fold (maskUnits
    (s.dev.core c).sq x.word) = false ∧ (bit x.word 46 = true → anyShadow (s.dev.core c).pn (issueArgs (s.dev.core c).sq
    x.word).fold (maskUnits (s.dev.core c).sq x.word) [.loading, .armed] = false) ∧ (((issueArgs (s.dev.core c).sq
    x.word).init = true ∨ (s.dev.core c).pn.slotBusy (issueArgs (s.dev.core c).sq x.word).fold ((maskUnits (s.dev.core c).sq
    x.word).flatMap (pensOf (issueArgs (s.dev.core c).sq x.word).fold)) (issueArgs (s.dev.core c).sq x.word).slot = false)) ∧
    s.dev.copyHeld c = false ∧ s.dev.withheld c = false ∧ (s.dev.core c).pn.accept s.dev.power.cycles (flightOf (s.dev.core
    c).pn (issueArgs (s.dev.core c).sq x.word) x.num x.bundle s.dev.free s.dev.power.cycles (maskUnits (s.dev.core c).sq
    x.word)).due (flightOf (s.dev.core c).pn (issueArgs (s.dev.core c).sq x.word) x.num x.bundle s.dev.free s.dev.power.cycles
    (maskUnits (s.dev.core c).sq x.word)).pens = true ∧ (((flightOf (s.dev.core c).pn (issueArgs (s.dev.core c).sq x.word)
    x.num x.bundle s.dev.free s.dev.power.cycles (maskUnits (s.dev.core c).sq x.word)).pens.all fun n => ((s.dev.core
    c).pn.pen n).rampOk s.dev.power.cycles) = true)) ∧
  (∃ (s : State) (c : Nat) (x : QInstr), s.dev.mayIssue c .p 0x01 x = true ∧ pairOk (issueArgs (s.dev.core c).sq x.word).op
    (issueArgs (s.dev.core c).sq x.word).cond (issueArgs (s.dev.core c).sq x.word).fw (issueArgs (s.dev.core c).sq x.word).fx
    = true ∧ (((issueArgs (s.dev.core c).sq x.word).fold = true ∨ (issueArgs (s.dev.core c).sq x.word).slot < 16)) ∧ (if fmtMx
    (issueArgs (s.dev.core c).sq x.word).fx then bits x.word 51 47 % 2 = 0 else bits x.word 51 47 = 0) ∧ (maskUnits
    (s.dev.core c).sq x.word) ≠ [] ∧ badUnits (s.dev.core c).pn.folds (issueArgs (s.dev.core c).sq x.word).fold (maskUnits
    (s.dev.core c).sq x.word) = false ∧ (bit x.word 46 = true → anyShadow (s.dev.core c).pn (issueArgs (s.dev.core c).sq
    x.word).fold (maskUnits (s.dev.core c).sq x.word) [.loading, .armed] = false) ∧ (((issueArgs (s.dev.core c).sq
    x.word).init = true ∨ (s.dev.core c).pn.slotBusy (issueArgs (s.dev.core c).sq x.word).fold ((maskUnits (s.dev.core c).sq
    x.word).flatMap (pensOf (issueArgs (s.dev.core c).sq x.word).fold)) (issueArgs (s.dev.core c).sq x.word).slot = false)) ∧
    s.dev.copyHeld c = false ∧ s.dev.withheld c = false ∧ (s.dev.core c).pn.accept s.dev.power.cycles (flightOf (s.dev.core
    c).pn (issueArgs (s.dev.core c).sq x.word) x.num x.bundle s.dev.free s.dev.power.cycles (maskUnits (s.dev.core c).sq
    x.word)).due (flightOf (s.dev.core c).pn (issueArgs (s.dev.core c).sq x.word) x.num x.bundle s.dev.free s.dev.power.cycles
    (maskUnits (s.dev.core c).sq x.word)).pens = true ∧ (((flightOf (s.dev.core c).pn (issueArgs (s.dev.core c).sq x.word)
    x.num x.bundle s.dev.free s.dev.power.cycles (maskUnits (s.dev.core c).sq x.word)).pens.all fun n => ((s.dev.core
    c).pn.pen n).rampOk s.dev.power.cycles) = false)) ∧
  (∃ (s : State) (c : Nat) (f : Flight), c < 12 ∧ ((∀ x ∈ (s.dev.core c).pn.flights, f.due ≤ x.due)) ∧ (((s.dev.core
    c).pn.flights.filter fun x => x.due == f.due) = [f]) ∧ f.due < s.dev.power.cycles ∧ (condBits ((s.dev.core
    c).pn.landFlight f).2).1 &&& (s.dev.core c).pn.ctl = 0 ∧ (((f.rows.map fun x => cellAt f.fold x.1 x.2.1 f.slot) ++
    (f.irows.map fun x => cellAt f.fold x.1 x.2.1 f.slot)).Nodup)) ∧
  (∃ (s : State) (c j due : Nat) (v : Job) (b : Nat × FFlags × W32), c < 12 ∧ s.dev.jobOf c = some (j, v) ∧ (s.dev.regs
    c).stat ≠ .trapped ∧ ((∀ x ∈ (s.dev.core c).pn.flights, due ≤ x.due)) ∧ (((s.dev.core c).pn.flights.any fun x => x.due ==
    due) = true) ∧ due < s.dev.power.cycles ∧ (((s.dev.core c).pn.landAll ((s.dev.core c).pn.flights.filter fun x => x.due ==
    due)).2.2.find? (fun b => b.2.1 &&& (s.dev.core c).pn.ctl ≠ 0) = some b)) :=
  ⟨⟨goD .p 0x8000008001 (ramped ∘ s1 1), 0, head .p 0x8000008001, by decide⟩,
   ⟨goD .p 0x8000008001 (s1 1), 0, head .p 0x8000008001, by decide⟩,
   ⟨st (late (idle0 fun k => { k with pn := { k.pn with flights := [fly1] } })), 0, fly1, by decide⟩,
   ⟨st (late (idle0 fun k => { k with pn := { k.pn with ctl := 1, flights := [{ fly1 with flags := [(0, 1)] }] } })), 0, 1, 0, job1, (0, 1, 1), by decide⟩⟩

theorem wit_OperatorIdentities :
  (∃ (op : Nat) (p : Pens) (a : IssueArgs) (u i j : Nat), a.op = op ∧ fmtMx a.fx = false ∧ a.valid u j = false) ∧
  (∃ (op : Nat) (p : Pens) (a : IssueArgs) (u i j : Nat), a.op = op ∧ fmtMx a.fx = true ∧ a.valid u j = false) ∧
  (∃ (op : Nat) (acc : W32) (t : Int), -(2 ^ 31) ≤ t ∧ t < 2 ^ 31 ∧ op = 3) ∧
  (∃ (op : Nat) (acc : W32) (t : Int), -(2 ^ 31) ≤ t ∧ t < 2 ^ 31 ∧ op = 4) ∧
  (∃ (op : Nat) (acc : W32) (t : Int), -(2 ^ 31) ≤ t ∧ t < 2 ^ 31 ∧ op ≠ 3 ∧ op ≠ 4) :=
  ⟨⟨0, Pens.reset, { issueArgs Sequencer.reset 0 with valid := fun _ _ => false }, 31, 15, 15, by decide⟩,
   ⟨4, Pens.reset, { issueArgs Sequencer.reset 0 with op := 4, fx := 13, valid := fun _ _ => false }, 31, 15, 15, by decide⟩,
   ⟨3, 5, -1, by decide⟩,
   ⟨4, 5, 2 ^ 31 - 1, by decide⟩,
   ⟨0, 5, -(2 ^ 31), by decide⟩⟩

theorem wit_SwitchRule :
  (∃ (p : Pens) (fold : Bool) (u : Nat), p.shadowOf fold u = .full ∧ ∃ n, n ∈ pensOf fold u) ∧
  (∃ (p : Pens) (fold : Bool) (u : Nat), p.shadowOf fold u = .full ∧ ∃ n, n ∉ pensOf fold u) ∧
  (∃ (p : Pens) (fold : Bool) (u : Nat), p.shadowOf fold u ≠ .full) ∧
  (∃ (s : State) (c : Nat) (x : QInstr), s.dev.mayIssue c .p 0x02 x = true ∧ badUnits (s.dev.core c).pn.folds (fUK x.word)
    (maskUnits (s.dev.core c).sq x.word) = false ∧ anyShadow (s.dev.core c).pn (fUK x.word) (maskUnits (s.dev.core c).sq
    x.word) [.loading, .armed] = false) ∧
  (∃ (s : State) (c : Nat) (x : QInstr), s.dev.mayIssue c .p 0x02 x = true ∧ badUnits (s.dev.core c).pn.folds (fUK x.word)
    (maskUnits (s.dev.core c).sq x.word) = false ∧ anyShadow (s.dev.core c).pn (fUK x.word) (maskUnits (s.dev.core c).sq
    x.word) [.loading, .armed] = true) ∧
  (∃ (s : State) (c : Nat) (x : QInstr), s.dev.mayIssue c .p 0x01 x = true ∧ pairOk (issueArgs (s.dev.core c).sq x.word).op
    (issueArgs (s.dev.core c).sq x.word).cond (issueArgs (s.dev.core c).sq x.word).fw (issueArgs (s.dev.core c).sq x.word).fx
    = true ∧ (((issueArgs (s.dev.core c).sq x.word).fold = true ∨ (issueArgs (s.dev.core c).sq x.word).slot < 16)) ∧ (if fmtMx
    (issueArgs (s.dev.core c).sq x.word).fx then bits x.word 51 47 % 2 = 0 else bits x.word 51 47 = 0) ∧ (maskUnits
    (s.dev.core c).sq x.word) ≠ [] ∧ badUnits (s.dev.core c).pn.folds (issueArgs (s.dev.core c).sq x.word).fold (maskUnits
    (s.dev.core c).sq x.word) = false ∧ bit x.word 46 = true ∧ anyShadow (s.dev.core c).pn (issueArgs (s.dev.core c).sq
    x.word).fold (maskUnits (s.dev.core c).sq x.word) [.loading, .armed] = true) ∧
  (∃ (s : State) (c : Nat) (x : QInstr), s.dev.mayIssue c .p 0x01 x = true ∧ pairOk (issueArgs (s.dev.core c).sq x.word).op
    (issueArgs (s.dev.core c).sq x.word).cond (issueArgs (s.dev.core c).sq x.word).fw (issueArgs (s.dev.core c).sq x.word).fx
    = true ∧ (((issueArgs (s.dev.core c).sq x.word).fold = true ∨ (issueArgs (s.dev.core c).sq x.word).slot < 16)) ∧ (if fmtMx
    (issueArgs (s.dev.core c).sq x.word).fx then bits x.word 51 47 % 2 = 0 else bits x.word 51 47 = 0) ∧ (maskUnits
    (s.dev.core c).sq x.word) ≠ [] ∧ badUnits (s.dev.core c).pn.folds (issueArgs (s.dev.core c).sq x.word).fold (maskUnits
    (s.dev.core c).sq x.word) = false ∧ bit x.word 46 = true ∧ anyShadow (s.dev.core c).pn (issueArgs (s.dev.core c).sq
    x.word).fold (maskUnits (s.dev.core c).sq x.word) [.loading, .armed] = false ∧ (((issueArgs (s.dev.core c).sq x.word).init
    = true ∨ (s.dev.core c).pn.slotBusy (issueArgs (s.dev.core c).sq x.word).fold ((maskUnits (s.dev.core c).sq
    x.word).flatMap (pensOf (issueArgs (s.dev.core c).sq x.word).fold)) (issueArgs (s.dev.core c).sq x.word).slot = false)) ∧
    s.dev.penHold c (flightOf (s.dev.core c).pn (issueArgs (s.dev.core c).sq x.word) x.num x.bundle s.dev.free
    s.dev.power.cycles (maskUnits (s.dev.core c).sq x.word)).pens (flightOf (s.dev.core c).pn (issueArgs (s.dev.core c).sq
    x.word) x.num x.bundle s.dev.free s.dev.power.cycles (maskUnits (s.dev.core c).sq x.word)).due = none) :=
  ⟨⟨{ Pens.reset with pens := [(31, { Pen.reset with shadow := .full })] }, false, 31, by decide, 31, by decide⟩,
   ⟨{ Pens.reset with pens := [(31, { Pen.reset with shadow := .full })] }, false, 31, by decide, 30, by decide⟩,
   ⟨Pens.reset, true, 7, by decide⟩,
   ⟨goD .p 0x8002 (s1 1), 0, head .p 0x8002, by decide⟩,
   ⟨goD .p 0x8002 (loading0 ∘ s1 1), 0, head .p 0x8002, by decide⟩,
   ⟨goD .p 0x408000008001 (loading0 ∘ s1 1), 0, head .p 0x408000008001, by decide⟩,
   ⟨goD .p 0x408000008001 (ramped ∘ s1 1), 0, head .p 0x408000008001, by decide⟩⟩

theorem wit_PenInstructionResults :
  (∃ (s : State) (c : Nat) (x : QInstr), s.dev.mayIssue c .p 0x02 x = true ∧ badUnits (s.dev.core c).pn.folds (fUK x.word)
    (maskUnits (s.dev.core c).sq x.word) = false ∧ anyShadow (s.dev.core c).pn (fUK x.word) (maskUnits (s.dev.core c).sq
    x.word) [.loading, .armed] = false) ∧
  (∃ (s : State) (c : Nat) (x : QInstr), s.dev.mayIssue c .p 0x03 x = true ∧ ((((unitsOf true ((s.dev.core c).sq.sop (fSU
    x.word))).flatMap (pensOf true)).any fun n => (s.dev.core c).pn.busy n || ((s.dev.core c).pn.pen n).shadow == .loading) =
    false) ∧ ((bit x.word 16 = true → (((unitsOf true ((s.dev.core c).sq.sop (fSU x.word))).flatMap (pensOf true)).any fun n
    => ((s.dev.core c).pn.pen n).shadow == .armed) = false))) ∧
  (∃ (s : State) (c : Nat) (x : QInstr), s.dev.mayIssue c .t 0x01 x = true ∧ (((fUK x.word) = true ∨ (bits x.word 26 22) <
    16)) ∧ (maskUnits (s.dev.core c).sq x.word) ≠ [] ∧ badUnits (s.dev.core c).pn.folds (fUK x.word) (maskUnits (s.dev.core
    c).sq x.word) = false ∧ (s.dev.core c).pn.slotOwed x.num (fUK x.word) ((maskUnits (s.dev.core c).sq x.word).flatMap
    (pensOf (fUK x.word))) (bits x.word 26 22) = false ∧ bit x.word 27 = false ∧ ((maskUnits (s.dev.core c).sq x.word).map (·
    % (if (fUK x.word) then 8 else 16))).eraseDups.length = (maskUnits (s.dev.core c).sq x.word).length) ∧
  (∃ (s : State) (c : Nat) (x : QInstr), s.dev.mayIssue c .t 0x01 x = true ∧ (((fUK x.word) = true ∨ (bits x.word 26 22) <
    16)) ∧ (maskUnits (s.dev.core c).sq x.word) ≠ [] ∧ badUnits (s.dev.core c).pn.folds (fUK x.word) (maskUnits (s.dev.core
    c).sq x.word) = false ∧ (s.dev.core c).pn.slotOwed x.num (fUK x.word) ((maskUnits (s.dev.core c).sq x.word).flatMap
    (pensOf (fUK x.word))) (bits x.word 26 22) = false ∧ bit x.word 27 = true ∧ (s.dev.core c).pn.ctl = 0) ∧
  (∃ (s : State) (c : Nat) (x : QInstr) (e : Device) (bs : List Byte), s.dev.mayIssue c .p 0x04 x = true ∧ (s.dev.core
    c).pn.fs20 = true ∧ (((s.dev.core c).sq.aReg (bits x.word 15 11)).toNat) % 32 = 0 ∧ s.dev.ownRange c (((s.dev.core
    c).sq.aReg (bits x.word 15 11)).toNat) 32 = true ∧ s.dev.readYard c 3 (((s.dev.core c).sq.aReg (bits x.word 15 11)).toNat)
    32 = (e, .inl bs) ∧ (convOf (ofBytes bs)).reserved = false ∧ (((convOf (ofBytes bs)).elem = 0 ∨ (convOf (ofBytes bs)).elem
    = 7)) ∧ (convOf (ofBytes bs)).base % 4 = 0 ∧ [(convOf (ofBytes bs)).kh, (convOf (ofBytes bs)).kw, (convOf (ofBytes
    bs)).sy, (convOf (ofBytes bs)).sx, (convOf (ofBytes bs)).dy, (convOf (ofBytes bs)).dx].any (· == 0) = false ∧ 1 ≤ (convOf
    (ofBytes bs)).count ∧ (convOf (ofBytes bs)).count ≤ 16 ∧ (bits x.word 20 16) + (convOf (ofBytes bs)).chunks ≤ 32 ∧
    (((convOf (ofBytes bs)).reads.all fun o => s.dev.ownRange c o (convOf (ofBytes bs)).esize) = true) ∧ badUnits (s.dev.core
    c).pn.folds false ((List.range (convOf (ofBytes bs)).chunks).map ((bits x.word 20 16) + ·)) = false) ∧
  (∃ (d g : Device) (c n q : Nat) (w : Walk) (rest : List (Nat × Nat)) (ls : List (Bool × W32)), (d.core c).pn.walk = some w ∧
    w.todo = (n, q) :: rest ∧ w.extra = 0 ∧ (w.conv.acc = true → (d.core c).pn.slotBusy false [w.first + q] ((w.conv.slot0 +
    n) % 16) = false) ∧ d.penHold c [w.first + q] (d.power.cycles + latency 0 w.conv.elem false - 1) = none ∧ (d.askPorts c 3
    true (w.conv.lines n q)).convLanes c w.conv.esize (w.conv.lanes n q) = (g, .inl ls)) :=
  ⟨⟨goD .p 0x8002 (s1 1), 0, head .p 0x8002, by decide⟩,
   ⟨goD .p 0x18003 (s1 1), 0, head .p 0x18003, by decide⟩,
   ⟨goD .t 0x8001 (s1 1), 0, head .t 0x8001, by decide⟩,
   ⟨goD .t 0x8008001 (s1 1), 0, head .t 0x8008001, by decide⟩,
   ⟨convSt, 0, head .p 0x4, _, toBytes 32 convN, by decide, by decide, by decide, by decide, pairEq (by decide), by decide⟩,
   ⟨walkSt, _, 0, 0, 0, walk1, [], (true, 0) :: List.replicate 15 (false, 0), by decide, by decide, by decide, by decide, by decide, pairEq (by decide)⟩⟩

theorem wit_PenLoadResults :
  (∃ (s : State) (c : Nat) (x : QInstr) (e : Device) (rows : List ((Nat × Nat) × List Byte)), s.dev.mayIssue c .m 0x08 x =
    true ∧ pldwFieldsOk x.word = true ∧ (maskUnits (s.dev.core c).sq x.word) ≠ [] ∧ badUnits (s.dev.core c).pn.folds (fUK
    x.word) (maskUnits (s.dev.core c).sq x.word) = false ∧ anyShadow (s.dev.core c).pn (fUK x.word) (maskUnits (s.dev.core
    c).sq x.word) [.armed] = false ∧ (((pldwRows (s.dev.core c).sq x.word (maskUnits (s.dev.core c).sq x.word)).all fun r =>
    s.dev.ownRange c r.2.toNat (pldwRow x.word)) = true) ∧ (s.dev.core c).tr.bookLoading (if bit x.word 30 then booksOf (bits
    x.word 32 31) (bits x.word 35 33) (bits x.word 38 36) else []) = false ∧ anyShadow (s.dev.core c).pn (fUK x.word)
    (maskUnits (s.dev.core c).sq x.word) [.loading] = false ∧ (s.dev.core c).tr.badBook (s.dev.ctxOf c) (if bit x.word 30 then
    booksOf (bits x.word 32 31) (bits x.word 35 33) (bits x.word 38 36) else []) = none ∧ ((bit x.word 30 = true → (bits
    x.word 32 31) = 1 → ((s.dev.core c).tr.book (bits x.word 35 33)).efmt = ((s.dev.core c).tr.book (bits x.word 38 36)).efmt
    ∧ ((s.dev.core c).tr.book (bits x.word 35 33)).bscale = ((s.dev.core c).tr.book (bits x.word 38 36)).bscale)) ∧
    s.dev.readTile c (pldwRow x.word) (pldwRows (s.dev.core c).sq x.word (maskUnits (s.dev.core c).sq x.word)) = (e, .inl
    rows)) ∧
  (∃ (s : State) (c : Nat) (l : Load) (r : List Load), c < 12 ∧ (s.dev.core c).pn.loads = l :: r ∧ ((l.cells.map fun x =>
    (x.1, x.2.1)).Nodup)) :=
  ⟨⟨goD .m 0x8008 (s1 1), 0, head .m 0x8008, _, (List.range 16).map (fun r => ((0, r), List.replicate 16 0)), by decide, by decide, by decide, by decide, by decide, by decide, by decide, by decide, by decide, by decide, pairEq (by decide)⟩,
   ⟨st (idle0 fun k => { k with pn := { k.pn with loads := [ld1] } }), 0, ld1, [], by decide⟩⟩

theorem wit_MovingFrontResults :
  (∃ (s : State) (c : Nat) (x : QInstr), s.dev.mayIssue c .m 0x09 x = true ∧ badUnits (s.dev.core c).pn.folds (fUK x.word)
    (maskUnits (s.dev.core c).sq x.word) = false ∧ (maskUnits (s.dev.core c).sq x.word) ≠ [] ∧ anyShadow (s.dev.core c).pn
    (fUK x.word) (maskUnits (s.dev.core c).sq x.word) [.armed] = false ∧ anyShadow (s.dev.core c).pn (fUK x.word) (maskUnits
    (s.dev.core c).sq x.word) [.loading, .full] = false) ∧
  (∃ (s : State) (c gen fmt : Nat) (src : Nat × Nat) (r : List SkidMsg), c < 12 ∧ ((s.dev.core c).pn).router = [] ∧
    (s.dev.skidTo c = .marker gen fmt (frontBeats fmt ((List.range 32).filter fun n => (((s.dev.core c).pn).pen n).shadow ==
    .armed).length) src :: r) ∧ s.dev.discards c = false ∧ ((s.dev.core c).pn).skidArmed = true ∧ ((s.dev.core c).pn).held =
    false ∧ gen = ((s.dev.core c).pn).skidGen.toNat) ∧
  (∃ (s : State) (c : Nat) (f : Front) (data : List Byte) (r : List SkidMsg), c < 12 ∧ ((s.dev.core c).pn).router = [] ∧
    s.dev.skidTo c = .beat data :: r ∧ ((s.dev.core c).pn).front = some f ∧ f.dead = false) :=
  ⟨⟨goD .m 0x8009 (s1 1), 0, head .m 0x8009, by decide⟩,
   ⟨st { idle0 (fun k => { k with pn := armedPens }) with skid := [(0, [.marker 7 0 16 (3, 0)])] }, 0, 7, 0, (3, 0), [], by decide⟩,
   ⟨st { idle0 (fun k => { k with pn := { k.pn with front := some fr1 } }) with skid := [(0, [.beat [1]])] }, 0, fr1, [1], [], by decide⟩⟩

theorem wit_TroughResults :
  (∃ (s : State) (c : Nat) (x : QInstr) (e : Device) (bs : List Byte), s.dev.mayIssue c .t 0x02 x = true ∧ (s.dev.core
    c).tr.passes.length < 4 ∧ (((s.dev.core c).sq.aReg (bits x.word 15 11)).toNat) % 32 = 0 ∧ s.dev.ownRange c (((s.dev.core
    c).sq.aReg (bits x.word 15 11)).toNat) 32 = true ∧ s.dev.readYard c 2 (((s.dev.core c).sq.aReg (bits x.word 15 11)).toNat)
    32 = (e, .inl bs) ∧ descReservedZero (ofBytes bs) = true ∧ (descOf (ofBytes bs)).fieldsOk = true ∧ s.dev.passRangesOk c
    (descOf (ofBytes bs)) = true ∧ (((descOf (ofBytes bs)).op = 2 ∨ ((s.dev.core c).tr.bank (descOf (ofBytes bs)).abank).int8
    = decide ((descOf (ofBytes bs)).afmt = 1))) ∧ (s.dev.core c).tr.bookLoading (booksOf (descOf (ofBytes bs)).fmt (descOf
    (ofBytes bs)).book1 (descOf (ofBytes bs)).book2) = false ∧ (s.dev.core c).tr.badBook (s.dev.ctxOf c) (booksOf (descOf
    (ofBytes bs)).fmt (descOf (ofBytes bs)).book1 (descOf (ofBytes bs)).book2) = none ∧ (s.dev.core c).tr.pairOk (descOf
    (ofBytes bs)) = true) ∧
  (∃ (s : State) (c : Nat) (y : Pass) (r : List Pass) (t : Trough) (e g : Device) (xs : List RowIn) (out : List Byte), c < 12
    ∧ (s.dev.core c).tr.passes = y :: r ∧ streamCycles y.d ≤ y.ran ∧ (s.dev.core c).tr.loadSet y.d = .inl t ∧ ({ s.dev with
    free := s.dev.free + 1 }.modTrough c fun _ => t).readRows c y.d (List.range y.d.rows) = (e, xs, none) ∧ e.streamRead c
    y.d.outBase (4 * if y.d.acc && y.d.op = 1 then y.d.k else 0) = (g, .inl out) ∧ y.d.op = 0 ∧ ∀ z ∈ (List.range
    y.d.rows).map fun r => rowOut t y.d (fun k => Config.freeOrder 3 (65536 * s.dev.free + k)) r (xs.getD r default), z.2 &&&
    ((s.dev.core c).tr.ctl).setWidth 5 = 0) ∧
  (∃ (s : State) (c : Nat) (x : QInstr), s.dev.mayIssue c .t 0x03 x = true ∧ (((s.dev.core c).tr.passes.any fun p => p.d.op !=
    2 && p.d.abank == (bits x.word 22 22)) = false)) ∧
  (∃ (d : Device) (c : Nat) (y : Pass), c < 12 ∧ ((d.core c).tr.passes.find? (fun p => decide (p.ran < streamCycles p.d)) =
    some y) ∧ (d.core c).tr.reload = 0 ∧ d.copyHeld c = true) ∧
  (∃ (d : Device) (c : Nat) (y : Pass), c < 12 ∧ ((d.core c).tr.passes.find? (fun p => decide (p.ran < streamCycles p.d)) =
    some y) ∧ (d.core c).tr.reload = 0 ∧ d.copyHeld c = false ∧ d.withheld c = true) ∧
  (∃ (d : Device) (c : Nat) (y : Pass), c < 12 ∧ ((d.core c).tr.passes.find? (fun p => decide (p.ran < streamCycles p.d)) =
    some y) ∧ (d.core c).tr.reload = 0 ∧ d.copyHeld c = false ∧ d.withheld c = false ∧ (((d.slice c).requests.any fun r =>
    r.own && r.cls == 2) = false)) :=
  ⟨⟨passSt, 0, head .t 0x2, _, toBytes 32 passN, by decide, by decide, by decide, by decide, pairEq (by decide), by decide⟩,
   ⟨st (idle0 fun k => { k with tr := { k.tr with passes := [pass1] } }), 0, pass1, [], _, _, _, _, [], by decide, by decide, by decide, rfl, tripEq (by decide), pairEq (by decide), by decide, fun z _ => BitVec.and_zero⟩,
   ⟨go .t 0x400003, 0, head .t 0x400003, by decide⟩,
   ⟨idle0 fun k => { k with pn := { k.pn with front := some fr1 }, tr := { k.tr with passes := [{ pass1 with ran := 0 }] } }, 0, { pass1 with ran := 0 }, by decide⟩,
   ⟨{ idle0 (fun k => { k with tr := { k.tr with passes := [{ pass1 with ran := 0 }] } }) with power := { dev.power with therm := 2 } }, 0, { pass1 with ran := 0 }, by decide⟩,
   ⟨idle0 fun k => { k with tr := { k.tr with passes := [{ pass1 with ran := 0 }] } }, 0, { pass1 with ran := 0 }, by decide⟩⟩

theorem wit_LoadAndLaunchResults :
  (∃ (s : State) (c : Nat) (x : QInstr) (e : Device) (bs : List Byte), s.dev.mayIssue c .m 0x0A x = true ∧
    let k := s.dev.core c
    let off := (k.sq.aReg (fAB x.word)).toNat
    let b := bits x.word 23 21
    let n := 8 * bits x.word 42 33
    let old := k.tr.book b
    let mine := decide (old.owner = s.dev.ctxOf c)
    off % 64 = 0 ∧ 8 * bits x.word 32 24 + n ≤ 4096 ∧ (bits x.word 46 43 = 0 ∨ bits x.word 46 43 = 4 ∨ bits x.word 46 43 = 5)
    ∧ s.dev.ownRange c off (8 * n) = true ∧ (k.tr.passes.any fun p => (booksOf p.d.fmt p.d.book1 p.d.book2).contains b) =
    false ∧ (k.pn.loads.any fun l => l.books.contains b) = false ∧ old.loading = false ∧
    let start : Book := { old with valid := false, loading := true, entries := if mine then old.entries else [], bad := if
    mine then old.bad else [] }
    ((s.dev.modCore c fun k => { k with tr := k.tr.setBook b start }).askPorts c 3 true (linesOf off (8 * n))).readBlocks c 3
    (Device.blocksOf off (8 * n)) = (e, bs, none)) ∧
  (∃ (s : State) (c : Nat) (l : BookLoad) (r : List BookLoad), c < 12 ∧ (s.dev.core c).tr.loads = l :: r ∧ l.book < 8) ∧
  (∃ (s : State) (c : Nat) (x : QInstr), s.dev.mayIssue c .m 0x0E x = true ∧ (((s.dev.regs c).aReg (fAB x.word)).toNat) % 32 =
    0 ∧ s.dev.ownRange c (((s.dev.regs c).aReg (fAB x.word)).toNat) (32 * (bits x.word 47 34)) = true ∧ (bits x.word 33 21) +
    (bits x.word 47 34) ≤ 8192 ∧ (((List.range (bits x.word 47 34)).all fun i => (s.dev.slice c).guardedAt ((((s.dev.regs
    c).aReg (fAB x.word)).toNat) + 32 * i) && s.dev.plainRead c ((((s.dev.regs c).aReg (fAB x.word)).toNat) / 32 + i)) =
    true)) ∧
  (∃ (s : State) (c : Nat) (x : QInstr) (e : Device) (bs : List Byte), s.dev.mayIssue c .m 0x0B x = true ∧ (s.dev.channel c
    (if bit x.word 10 then 1 else 0)).state = .idle ∧ (bits x.word 26 21) ≤ 56 ∧ (((s.dev.regs c).aReg (fAB x.word)).toNat) %
    128 = 0 ∧ s.dev.ownRange c (((s.dev.regs c).aReg (fAB x.word)).toNat) 128 = true ∧ s.dev.readYard c 4 (((s.dev.regs
    c).aReg (fAB x.word)).toNat) 128 = (e, .inl bs) ∧ (haulLegal ((List.range 16).map fun i => BitVec.ofNat 64 (ofBytes
    ((bs.drop (8 * i)).take 8))) = true)) :=
  ⟨⟨go .m 0x20000000A, 0, head .m 0x20000000A, _, _, by decide, by decide, by decide, by decide, by decide, by decide, by decide, by decide, tripEq (by decide)⟩,
   ⟨st (idle0 fun k => { k with tr := { k.tr with loads := [bl1] } }), 0, bl1, [], by decide⟩,
   ⟨goD .m 0x40000000E (fun d => { d with slices := [(0, slG)] }), 0, head .m 0x40000000E, by decide⟩,
   ⟨go .m 0x0B, 0, head .m 0x0B, _, List.replicate 128 0, by decide, by decide, by decide, by decide, by decide, pairEq (by decide), by decide⟩⟩

theorem wit_HaulInstructionResults :
  (∃ (s : State) (c ch : Nat), s.dev.mayExecute c ch 0xA = true) ∧
  (∃ (s : State) (c ch : Nat), s.dev.mayExecute c ch 0xE = true ∧ (((s.dev.channel c ch).arg (bits (s.dev.channel c ch).word
    10 8)).toNat) ≤ s.dev.now ∧ (s.dev.channel c ch).wait = .tally) ∧
  (∃ (s : State) (c ch : Nat), s.dev.mayExecute c ch 0xE = true ∧ s.dev.now < (((s.dev.channel c ch).arg (bits (s.dev.channel
    c ch).word 10 8)).toNat)) ∧
  (∃ (s : State) (c ch : Nat), s.dev.mayExecute c ch 0x0 = true) ∧
  (∃ (s : State) (c ch : Nat), c < 12 ∧ ch < 2 ∧ (s.dev.channel c ch).state = .running ∧ (s.dev.channel c ch).ending = true ∧
    ((s.dev.pieces.any fun x => x.2.owner == .channel c ch) = false) ∧ s.dev.writesPending c ch = false) ∧
  (∃ (s : State) (c ch : Nat), s.dev.mayExecute c ch 0xD = true ∧ ((s.dev.pieces.any fun x => x.2.owner == .channel c ch) =
    false)) :=
  ⟨⟨goH 0xA id, 0, 1, by decide⟩,
   ⟨goH 0xE (fun k => { k with wait := .tally, g := [900000] }), 0, 1, by decide⟩,
   ⟨goH 0xE (fun k => { k with g := [1100000] }), 0, 1, by decide⟩,
   ⟨goH 0x0 id, 0, 1, by decide⟩,
   ⟨goH 0x0 (fun k => { k with ending := true }), 0, 1, by decide⟩,
   ⟨goH 0xD id, 0, 1, by decide⟩⟩

theorem wit_PiecesCoverTheMove :
  ((∃ (src dst : W64) (n : Nat), n ≤ 1048576 ∧ Device.pieceCuts src dst 1024 n 0 = [(0, 4), (4, 2044), (2048, 52)])) :=
  ⟨0x80000FFC, 0x800, 2100, by decide⟩

theorem wit_TileStreamResults :
  (∃ (s : State) (c ch : Nat), s.dev.mayExecute c ch 0x5 = true ∧ s.dev.bindable (bits ((s.dev.channel c ch).word) 11 8) (bits
    ((s.dev.channel c ch).word) 7 4) = true ∧ s.dev.bindable c (bits ((s.dev.channel c ch).word) 15 12) = true ∧ (bits
    ((s.dev.channel c ch).word) 11 8 = c → bits ((s.dev.channel c ch).word) 7 4 ≠ bits ((s.dev.channel c ch).word) 15 12) ∧
    (s.dev.channel c ch).dst.space = 0 ∧ bits ((s.dev.channel c ch).word) 11 8 = c) ∧
  (∃ (s : State) (c ch : Nat), s.dev.mayExecute c ch 0x5 = true ∧ s.dev.bindable (bits ((s.dev.channel c ch).word) 11 8) (bits
    ((s.dev.channel c ch).word) 7 4) = true ∧ s.dev.bindable c (bits ((s.dev.channel c ch).word) 15 12) = true ∧ (bits
    ((s.dev.channel c ch).word) 11 8 = c → bits ((s.dev.channel c ch).word) 7 4 ≠ bits ((s.dev.channel c ch).word) 15 12) ∧
    (s.dev.channel c ch).dst.space = 1 ∧ bits ((s.dev.channel c ch).word) 11 8 = (s.dev.window (256 * ((s.dev.pdkOfCore
    c).getD 0) + Device.winSlot (if (s.dev.channel c ch).dst.slot then ((s.dev.channel c ch).arg (s.dev.channel c
    ch).dst.xa).setWidth 32 else BitVec.ofNat 32 (bits ((s.dev.channel c ch).addr (s.dev.channel c ch).dst) 63 32) :
    W32))).core) ∧
  (∃ (s : State) (c ch : Nat) (r : Ring4), s.dev.mayExecute c ch 0x6 = true ∧ (s.dev.channel c ch).ring = some r ∧ r.open_ =
    false ∧ r.unreturned.length < 4) ∧
  (∃ (s : State) (c ch : Nat) (r : Ring4), s.dev.mayExecute c ch 0x7 = true ∧ (s.dev.channel c ch).ring = some r ∧ r.open_ =
    true ∧ ((s.dev.pieces.any fun x => x.2.owner == .channel c ch) = false) ∧ s.dev.writesPending c ch = false ∧
    s.dev.heldBefore (.channel c ch) r.core r.fullChute = false ∧ (r.soff + r.size * ((r.next - 1) % 4)) % 256 = 0 ∧ (r.soff +
    r.size * ((r.next - 1) % 4)) + r.size ≤ 2 ^ 26 ∧ r.core = c ∧ s.dev.fullFor c r.fullChute (.channel c ch) = false) ∧
  (∃ (s : State) (c ch : Nat) (r : Ring4), s.dev.mayExecute c ch 0x7 = true ∧ (s.dev.channel c ch).ring = some r ∧ r.open_ =
    true ∧ ((s.dev.pieces.any fun x => x.2.owner == .channel c ch) = false) ∧ s.dev.writesPending c ch = false ∧
    s.dev.heldBefore (.channel c ch) r.core r.fullChute = false ∧ (r.soff + r.size * ((r.next - 1) % 4)) % 256 = 0 ∧ (r.soff +
    r.size * ((r.next - 1) % 4)) + r.size ≤ 2 ^ 26 ∧ r.core ≠ c ∧ s.dev.receives r.core = true ∧ s.dev.fullFor r.core
    r.fullChute (.channel c ch) = false) ∧
  (∃ (s : State) (c ch : Nat) (r : Ring4), s.dev.mayExecute c ch 0x7 = true ∧ (s.dev.channel c ch).ring = some r ∧ r.open_ =
    true ∧ ((s.dev.pieces.any fun x => x.2.owner == .channel c ch) = false) ∧ s.dev.writesPending c ch = false ∧
    s.dev.heldBefore (.channel c ch) r.core r.fullChute = false ∧ (r.soff + r.size * ((r.next - 1) % 4)) % 256 = 0 ∧ (r.soff +
    r.size * ((r.next - 1) % 4)) + r.size ≤ 2 ^ 26 ∧ r.core = c ∧ 64 ≤ (s.dev.chute r.core r.fullChute).entries.length) ∧
  (∃ (s : State) (c ch n so : Nat) (r : Ring4) (v : W64) (l : List W64) (u : List (Nat × Nat)), c < 12 ∧ ch < 2 ∧
    (s.dev.channel c ch).ring = some r ∧ (s.dev.channel c ch).state = .running ∧ (s.dev.chute c r.freeChute).entries = v :: l
    ∧ r.unreturned = (n, so) :: u ∧ bits v 25 0 = so ∧ bits v 63 44 = n % 2 ^ 20) :=
  ⟨⟨st ((goH 0x2015 id).dev.modCore 0 fun k => { k with chutes := [(1, hch []), (2, hch [])] }), 0, 1, by decide⟩,
   ⟨st { (goH 0x2015 (fun k => { k with dst := { Gen.reset with space := 1, slot := true }, g := [0x50000000] })).dev.modCore 0 (fun k => { k with chutes := [(1, hch []), (2, hch [])] }) with windows := [(0, win1)] }, 0, 1, by decide⟩,
   ⟨goH 0x6 (fun k => { k with ring := some { ring4 with unreturned := [(0, 0), (1, 1024), (2, 2048)], next := 3 } }), 0, 1, { ring4 with unreturned := [(0, 0), (1, 1024), (2, 2048)], next := 3 }, by decide⟩,
   ⟨goH 0x7 (fun k => { k with ring := some { ring4 with open_ := true, next := 1 } }), 0, 1, { ring4 with open_ := true, next := 1 }, by decide⟩,
   ⟨st (also3 Core.reset (goH 0x7 (fun k => { k with ring := some { ring4 with open_ := true, next := 4, core := 3 } })).dev), 0, 1, { ring4 with open_ := true, next := 4, core := 3 }, by decide⟩,
   ⟨st ((goH 0x7 (fun k => { k with ring := some { ring4 with open_ := true, next := 1 } })).dev.modCore 0 fun k => { k with chutes := [(1, hch (List.replicate 64 5))] }), 0, 1, { ring4 with open_ := true, next := 1 }, by decide⟩,
   ⟨st ((goH 0x0 (fun k => { k with ring := some { ring4 with unreturned := [(7, 0)] } })).dev.modCore 0 fun k => { k with chutes := [(2, hch [0x700000000000])] }), 0, 1, 7, 0, { ring4 with unreturned := [(7, 0)] }, 0x700000000000, [], [], by decide⟩⟩

theorem wit_HaulHandleResults :
  (∃ (s : State) (c ch : Nat) (v : W64) (l : List W64), s.dev.mayExecute c ch 0x8 = true ∧ (s.dev.chute c (bits (s.dev.channel
    c ch).word 11 8)).handle = true ∧ ((s.dev.chute c (bits (s.dev.channel c ch).word 11 8)).bound = .free → (s.dev.chute c
    (bits (s.dev.channel c ch).word 11 8)).bch = ch) ∧ (s.dev.chute c (bits (s.dev.channel c ch).word 11 8)).entries = v :: l) ∧
  (∃ (s : State) (c ch : Nat), s.dev.mayExecute c ch 0x9 = true ∧ s.dev.samePaddock c (bits (s.dev.channel c ch).word 15 12) =
    true ∧ s.dev.suits (.channel c ch) (bits (s.dev.channel c ch).word 15 12) (bits (s.dev.channel c ch).word 11 8) true =
    true ∧ s.dev.goodHandle c (Table.get (s.dev.channel c ch).h 0 (bits (s.dev.channel c ch).word 5 4)) = true ∧
    ((s.dev.pieces.any fun x => x.2.owner == .channel c ch) = false) ∧ s.dev.writesPending c ch = false ∧ s.dev.heldBefore
    (.channel c ch) (bits (s.dev.channel c ch).word 15 12) (bits (s.dev.channel c ch).word 11 8) = false ∧ (bits
    (s.dev.channel c ch).word 15 12) = c ∧ s.dev.fullFor c (bits (s.dev.channel c ch).word 11 8) (.channel c ch) = false) ∧
  (∃ (s : State) (c ch : Nat), s.dev.mayExecute c ch 0x9 = true ∧ s.dev.samePaddock c (bits (s.dev.channel c ch).word 15 12) =
    true ∧ s.dev.suits (.channel c ch) (bits (s.dev.channel c ch).word 15 12) (bits (s.dev.channel c ch).word 11 8) true =
    true ∧ s.dev.goodHandle c (Table.get (s.dev.channel c ch).h 0 (bits (s.dev.channel c ch).word 5 4)) = true ∧
    ((s.dev.pieces.any fun x => x.2.owner == .channel c ch) = false) ∧ s.dev.writesPending c ch = false ∧ s.dev.heldBefore
    (.channel c ch) (bits (s.dev.channel c ch).word 15 12) (bits (s.dev.channel c ch).word 11 8) = false ∧ (bits
    (s.dev.channel c ch).word 15 12) ≠ c ∧ s.dev.receives (bits (s.dev.channel c ch).word 15 12) = true ∧ s.dev.fullFor (bits
    (s.dev.channel c ch).word 15 12) (bits (s.dev.channel c ch).word 11 8) (.channel c ch) = false) ∧
  (∃ (s : State) (c ch slot : Nat), s.dev.mayExecute c ch 0xB = true ∧ s.dev.winOpenCheck ((s.dev.pdkOfCore c).getD 0) c
    (((s.dev.channel c ch).arg (bits ((s.dev.channel c ch).word) 10 8)).toNat) (((s.dev.channel c ch).arg (bits
    ((s.dev.channel c ch).word) 14 12)).toNat) (s.dev.core c).job (s.dev.ctxOf c) = .inr slot) ∧
  (∃ (s : State) (c ch : Nat), s.dev.mayExecute c ch 0xC = true ∧ Device.winNames (s.dev.window (256 * (s.dev.pdkOfCore
    c).getD 0 + Device.winSlot ((Table.get (s.dev.channel c ch).h 0 (bits (s.dev.channel c ch).word 5 4)).setWidth 32 : W32)))
    ((Table.get (s.dev.channel c ch).h 0 (bits (s.dev.channel c ch).word 5 4)).setWidth 32 : W32) = true ∧ (s.dev.window (256
    * (s.dev.pdkOfCore c).getD 0 + Device.winSlot ((Table.get (s.dev.channel c ch).h 0 (bits (s.dev.channel c ch).word 5
    4)).setWidth 32 : W32))).state = .open_) :=
  ⟨⟨st ((goH 0x108 id).dev.modCore 0 fun k => { k with chutes := [(1, hch [5])] }), 0, 1, 5, [], by decide⟩,
   ⟨st ((goH 0x109 id).dev.modCore 0 fun k => { k with chutes := [(1, hch [])] }), 0, 1, by decide⟩,
   ⟨st (goH3 0x3109), 0, 1, by decide⟩,
   ⟨goH 0x100B (fun k => { k with g := [2 ^ 26 - 4, 4] }), 0, 1, 0, by decide⟩,
   ⟨st { (goH 0xC (fun k => { k with h := [(0, 0x50000000)] })).dev with windows := [(0, win1)] }, 0, 1, by decide⟩⟩

theorem wit_PieceResults :
  (∃ (s : State) (c ch : Nat) (p : Planned) (r : List Planned) (b : Option Nat), c < 12 ∧ ch < 2 ∧ (s.dev.channel c
    ch).planned = p :: r ∧ (s.dev.channel c ch).state = .running ∧ s.dev.frozen c = false ∧ ((r ≠ [] ∨ (s.dev.channel c
    ch).ending = true ∨ Device.joins (s.dev.channel c ch) (s.dev.channel c ch).word p = false)) ∧ s.dev.remoteGate
    ((s.dev.pdkOfCore c).getD 0) (Device.locOf c (s.dev.channel c ch) p.srcSpace p.src p.srcXa p.srcSlot) (Device.locOf c
    (s.dev.channel c ch) p.dstSpace p.dst p.dstXa p.dstSlot) = .go b) ∧
  (∃ (s : State) (pid o : Nat) (h : W32) (p : Piece), s.dev.piece pid = some p ∧ (s.dev.window (256 * p.pdk + Device.winSlot
    h)).state = .open_ ∧ Device.winNames (s.dev.window (256 * p.pdk + Device.winSlot h)) h = true ∧ (s.dev.window (256 * p.pdk
    + Device.winSlot h)).mesh = true ∧ o % 4 = 0 ∧ p.len % 4 = 0 ∧ o + p.len ≤ (s.dev.window (256 * p.pdk + Device.winSlot
    h)).len ∧ ∃ e bs, p.phase = .read ∧ p.src = .window h o ∧ p.discard = false ∧ (s.dev.window (256 * p.pdk + Device.winSlot
    h)).rd = true ∧ s.dev.readYard (s.dev.window (256 * p.pdk + Device.winSlot h)).core 5 ((s.dev.window (256 * p.pdk +
    Device.winSlot h)).base + o) p.len = (e, .inl bs)) ∧
  (∃ (s : State) (pid o : Nat) (h : W32) (p : Piece), s.dev.piece pid = some p ∧ (s.dev.window (256 * p.pdk + Device.winSlot
    h)).state = .open_ ∧ Device.winNames (s.dev.window (256 * p.pdk + Device.winSlot h)) h = true ∧ (s.dev.window (256 * p.pdk
    + Device.winSlot h)).mesh = true ∧ o % 4 = 0 ∧ p.len % 4 = 0 ∧ o + p.len ≤ (s.dev.window (256 * p.pdk + Device.winSlot
    h)).len ∧ p.phase = .check ∧ s.dev.mayGo pid p = true ∧ s.dev.firstSent p = true ∧ p.dst = .window h o ∧ (s.dev.window
    (256 * p.pdk + Device.winSlot h)).wr = true ∧ s.dev.landRoom (s.dev.window (256 * p.pdk + Device.winSlot h)).core p.len =
    true) ∧
  (∃ (s : State) (pid c off : Nat) (p : Piece), s.dev.piece pid = some p ∧ p.phase = .land ∧ p.land = some (c, off) ∧
    s.dev.first pid p = true) ∧
  (∃ (s : State) (p n : Nat), p < 6 ∧ n < 256 ∧ (s.dev.window (256 * p + n)).state = .closing ∧ (s.dev.window (256 * p +
    n)).inFlight = 0) ∧
  (∃ (s : State) (pid a : Nat) (p : Piece), s.dev.piece pid = some p ∧ p.phase = .read ∧ p.src = .dva a ∧ isPriv a = true ∧
    p.bursts = [] ∧ ∃ bs, s.dev.readPriv p.pdk p.place p.len = .inl bs) ∧
  (∃ (s : State) (pid a : Nat) (p : Piece), s.dev.piece pid = some p ∧ p.phase = .read ∧ p.src = .dva a ∧ isPriv a = true ∧
    p.bursts = [] ∧ 0 < p.len) ∧
  (∃ (d : Device) (n c i : Nat) (p : Piece), d.frameTakes n c = some (i, p) ∧ ∃ x ∈ d.pieces, ((fun (x : Piece) => Table.get
    x.bursts 0 c ≠ 0) x.2) ∧ Device.frameClass x.2 = Device.frameClass p) ∧
  (∃ (d : Device) (n c i : Nat) (p : Piece), d.frameTakes n c = some (i, p) ∧ Device.frameClass p ≠ Device.slotClass n ∧ ∃ x ∈
    d.pieces, ((fun (x : Piece) => Table.get x.bursts 0 c ≠ 0) x.2)) ∧
  (∃ (s : State) (pid a : Nat) (p : Piece) (d : Device), s.dev.piece pid = some p ∧ p.phase = .write ∧ p.dst = .dva a ∧ isPriv
    a = true ∧ p.bursts = [] ∧ s.dev.first pid p = true ∧ s.dev.writePriv p.pdk p.place p.data = .inl d) ∧
  (∃ (s : State) (pid a : Nat) (p : Piece) (data : List Byte), s.dev.piece pid = some p ∧ p.phase = .read ∧ p.src = .dva a ∧
    isPriv a = false ∧ data.length = p.len) ∧
  (∃ (s : State) (pid a : Nat) (p : Piece), s.dev.piece pid = some p ∧ p.phase = .write ∧ p.dst = .dva a ∧ isPriv a = false) :=
  ⟨⟨goH 0x0 (fun k => { k with ending := true, planned := [plan1] }), 0, 1, plan1, [], none, by decide, by decide, by decide, by decide, by decide, by decide, rfl⟩,
   ⟨st { dev with windows := [(0, win1)], pieces := [(7, pcW)] }, 7, 4092, 0x50000000, pcW, by decide, by decide, by decide, by decide, by decide, by decide, by decide, _, List.replicate 4 0, by decide, by decide, by decide, by decide, pairEq (by decide)⟩,
   ⟨st { dev with windows := [(0, win1)], pieces := [(7, { pc1 with phase := .check, sent := 1, dst := .window 0x50000000 4092 })] }, 7, 4092, 0x50000000, { pc1 with phase := .check, sent := 1, dst := .window 0x50000000 4092 }, by decide⟩,
   ⟨st { dev with pieces := [(7, { pc1 with phase := .land, land := some (11, 60) })] }, 7, 11, 60, { pc1 with phase := .land, land := some (11, 60) }, by decide⟩,
   ⟨st { dev with windows := [(1535, { win1 with state := .closing })] }, 5, 255, by decide⟩,
   ⟨st { privD with pieces := [(7, { pc1 with src := .dva (2 ^ 56 + 60), place := 60 })] }, 7, 2 ^ 56 + 60, { pc1 with src := .dva (2 ^ 56 + 60), place := 60 }, by decide, by decide, by decide, by decide, by decide, [0, 0, 0, 0], by decide⟩,
   ⟨st { privD with pieces := [(7, { pc1 with src := .dva (2 ^ 56 + 60), place := 60 })] }, 7, 2 ^ 56 + 60, { pc1 with src := .dva (2 ^ 56 + 60), place := 60 }, by decide⟩,
   ⟨{ dev with pieces := [(7, { pc1 with src := .dva (2 ^ 56), bursts := [(0, 1)] })] }, 0, 0, 7, { pc1 with src := .dva (2 ^ 56), bursts := [(0, 1)] }, by decide, (7, { pc1 with src := .dva (2 ^ 56), bursts := [(0, 1)] }), by decide, by decide, by decide⟩,
   ⟨{ dev with pieces := [(7, { pc1 with src := .dva (2 ^ 56), bursts := [(0, 1)] })] }, 2, 0, 7, { pc1 with src := .dva (2 ^ 56), bursts := [(0, 1)] }, by decide, by decide, (7, { pc1 with src := .dva (2 ^ 56), bursts := [(0, 1)] }), by decide, by decide⟩,
   ⟨st { privD with pieces := [(7, { pcP with place := 60 })] }, 7, 2 ^ 56 + 60, { pcP with place := 60 }, _, by decide, by decide, by decide, by decide, by decide, by decide, rfl⟩,
   ⟨st { dev with pieces := [(7, { pc1 with src := .dva 4096 })] }, 7, 4096, { pc1 with src := .dva 4096 }, [1, 2, 3, 4], by decide⟩,
   ⟨st { dev with pieces := [(7, { pc1 with phase := .write, dst := .dva 4096 })] }, 7, 4096, { pc1 with phase := .write, dst := .dva 4096 }, by decide⟩⟩

theorem wit_YardAndMemoryEvents :
  (∃ (d : Device) (c b k : Nat), b < 2 ^ 21 ∧ (d.slice c).merge.all (fun m => m.block != b) = true ∧ k ≠ b ∧ k < 2 ^ 21) ∧
  (∃ (s : State) (c b op : Nat) (x : QInstr) (sl : Slot) (req : Requester) (body : QInstr → Device → Issue) (e : Device) (code
    : Code) (info : W64), b < 2 ^ 21 ∧ s.dev.corePresent c = true ∧ s.dev.mayIssue c sl op x = true ∧ (s.dev.jobOf c).isSome =
    true ∧ (((req = .load x.bundle ∧ sl = .m ∧ op = 1 ∧ body = sldBody c) ∨ (req = .load x.bundle ∧ sl = .m ∧ op = 3 ∧ body =
    vldBody c) ∨ (req = .load x.bundle ∧ sl = .m ∧ op = 5 ∧ body = vldsBody c) ∨ (req = .pconv x.bundle ∧ sl = .p ∧ op = 4 ∧
    body = pconvBody c) ∨ (req = .imld x.bundle ∧ sl = .m ∧ op = 0x0E ∧ body = imldBody c) ∨ (req = .haul x.bundle ∧ sl = .m ∧
    op = 0x0B ∧ body = haulBody c) ∨ (req = .tpass x.bundle ∧ sl = .t ∧ op = 2 ∧ body = tpassBody c))) ∧ body x
    (s.dev.failBlock c b) = .bad e code info) ∧
  (∃ (s : State) (c b : Nat), c < 12 ∧ b < 2 ^ 21 ∧ s.dev.corePresent c = true ∧ ∃ (i : Nat) (l : Load), (s.dev.core
    c).pn.loads[i]? = some l) ∧
  (∃ (s : State) (c b : Nat), c < 12 ∧ b < 2 ^ 21 ∧ s.dev.corePresent c = true ∧ ∃ (i n : Nat) (l : BookLoad), (s.dev.core
    c).tr.loads[i]? = some l) ∧
  (∃ (s : State) (c b : Nat), c < 12 ∧ b < 2 ^ 21 ∧ s.dev.corePresent c = true ∧ ∃ (row : Nat) (y : Pass) (r : List Pass),
    (s.dev.core c).tr.passes = y :: r ∧ y.d.op ≠ 1) ∧
  (∃ (s : State) (c b : Nat), c < 12 ∧ b < 2 ^ 21 ∧ s.dev.corePresent c = true ∧ ∃ (row col : Nat) (y : Pass) (r : List Pass),
    (s.dev.core c).tr.passes = y :: r ∧ y.d.op ≠ 1) ∧
  (∃ (s : State) (c b : Nat), c < 12 ∧ b < 2 ^ 21 ∧ s.dev.corePresent c = true ∧ ∃ (k n : Nat), True) ∧
  (∃ (s : State) (c b : Nat), c < 12 ∧ b < 2 ^ 21 ∧ s.dev.corePresent c = true ∧ ∃ (y : Pass) (r : List Pass), (s.dev.core
    c).tr.passes = y :: r ∧ y.d.fmt ≤ 2 ∧ 0 < y.ran) ∧
  (∃ (s : State) (c b : Nat), c < 12 ∧ b < 2 ^ 21 ∧ s.dev.corePresent c = true ∧ ∃ (n : Nat), True) ∧
  (∃ (s : State) (c b : Nat), c < 12 ∧ b < 2 ^ 21 ∧ s.dev.corePresent c = true ∧ ∃ m, (((s.dev.slice c).merge.find? fun m =>
    m.block == b) = some m) ∧ (s.dev.slice c).guardedAt (32 * b) = true ∧ m.mask ≠ BitVec.allOnes 32) ∧
  (∃ (s : State) (c b : Nat), c < 12 ∧ b < 2 ^ 21 ∧ s.dev.corePresent c = true ∧ ∃ n p, s.dev.piece n = some p) ∧
  (∃ (s : State) (c b : Nat), c < 12 ∧ b < 2 ^ 21 ∧ s.dev.corePresent c = true ∧ ((s.dev.slice c).merge.all (fun m => m.block
    != b) = true)) ∧
  (∃ (s : State) (c b : Nat) (r : List Nat) (k : Blk), c < 12 ∧ (s.dev.slice c).mends = b :: r ∧ (s.dev.slice c).guardedAt (32
    * b) = true ∧ checkGuarded ((s.dev.slice c).block b) = .mended k) ∧
  (∃ (s : State) (c : Nat) (m : Merge), c < 12 ∧ ((s.dev.slice c).merge.find? (fun m => decide (m.last + 32 ≤
    s.dev.power.cycles)) = some m)) ∧
  (∃ (s : State) (c line : Nat), c < 12 ∧ s.dev.corePresent c = true ∧ (s.dev.slice c).patrol = true ∧ Device.patrolNext
    (s.dev.slice c) (s.dev.slice c).patrolLine = some line) ∧
  (∃ (s : State) (c bank row word : Nat), c < 12 ∧ bank < 256 ∧ row < 4096 ∧ word < 18 ∧ s.dev.corePresent c = true ∧
    s.dev.wordDue c bank row word = true ∧ (((s.dev.slice c).remap.any fun e => e.bank == bank && e.row == row && e.word ==
    word) = false) ∧ (((s.dev.slice c).remap.filter fun e => e.bank == bank).length < 8)) ∧
  (∃ (s : State) (c n : Nat) (r : Region), c < 12 ∧ (((s.dev.slice c).regions.find? fun kv => kv.2.valid && kv.2.clearing) =
    some (n, r))) ∧
  (∃ (s : State) (p n i : Nat) (e : Segment) (o : Obj), p < 6 ∧ n < 256 ∧ Table.find s.dev.segs (256 * p + n) = some e ∧
    ((s.dev.objs.find? fun kv => kv.2.used && kv.2.zeroing && kv.2.space == .priv && kv.2.paddock == p && kv.2.context ==
    e.owner && kv.2.seg == e.seg) = some (i, o))) ∧
  (∃ (s : State) (n p : Nat), n < 16 ∧ (s.dev.chan n).state = .training ∧ s.dev.pdkOfChan n = some p ∧ (s.dev.pdk p).rst ≠
    .outOfService ∧ (s.dev.pdkSec p).memKey ≠ 0) :=
  ⟨⟨dev, 0, 5, 6, by decide⟩,
   ⟨goD .m 1 bad0, 0, 0, 1, head .m 1, .m, .load 0, sldBody 0, _, 0x0301, 0, by decide, by decide, by decide, by decide, .inl ⟨by decide, rfl, rfl, rfl⟩, rfl⟩,
   ⟨st (idle0 fun k => { k with pn := { k.pn with loads := [ld1] } }), 0, 5, by decide, by decide, by decide, 0, ld1, by decide⟩,
   ⟨st (idle0 fun k => { k with tr := { k.tr with loads := [bl1] } }), 0, 5, by decide, by decide, by decide, 0, 0, bl1, by decide⟩,
   ⟨st (idle0 fun k => { k with tr := { k.tr with passes := [pass1] } }), 0, 5, by decide, by decide, by decide, 0, pass1, [], by decide⟩,
   ⟨st (idle0 fun k => { k with tr := { k.tr with passes := [pass1] } }), 0, 5, by decide, by decide, by decide, 0, 0, pass1, [], by decide⟩,
   ⟨st dev, 0, 5, by decide, by decide, by decide, 0, 0, trivial⟩,
   ⟨st (idle0 fun k => { k with tr := { k.tr with passes := [{ pass1 with d := { pass1.d with fmt := 0 } }] } }), 0, 5, by decide, by decide, by decide, { pass1 with d := { pass1.d with fmt := 0 } }, [], by decide⟩,
   ⟨st dev, 0, 5, by decide, by decide, by decide, 0, trivial⟩,
   ⟨st { dev with slices := [(0, { slG with merge := [mrg0] })] }, 0, 0, by decide, by decide, by decide, mrg0, by decide⟩,
   ⟨st { dev with pieces := [(7, pc1)] }, 0, 5, by decide, by decide, by decide, 7, pc1, by decide⟩,
   ⟨st dev, 0, 5, by decide⟩,
   ⟨st { dev with slices := [(0, { slG with mends := [5], data := [(5, { data := 2, chk := 0 })] })] }, 0, 5, [], { data := 0, chk := 0 }, by decide⟩,
   ⟨st { dev with slices := [(11, { sl0 with merge := [mrg0] })], power := { dev.power with cycles := 40 } }, 11, mrg0, by decide⟩,
   ⟨st dev, 0, 0, by decide⟩,
   ⟨st { dev with slices := [(0, { sl0 with faults := List.replicate 3 (255, 4095, 17, true, 900000) })] }, 0, 255, 4095, 17, by decide⟩,
   ⟨st { dev with slices := [(0, { sl0 with regions := [(31, { Region.reset with valid := true, clearing := true })] })] }, 0, 31, { Region.reset with valid := true, clearing := true }, by decide⟩,
   ⟨st { privD with objs := [(3, { Obj.reset with used := true, zeroing := true, space := .priv, context := 5 })] }, 0, 0, 3, seg1, { Obj.reset with used := true, zeroing := true, space := .priv, context := 5 }, by decide⟩,
   ⟨st { dev with chans := [(15, { Chan.reset with state := .training })] }, 15, 0, by decide⟩⟩

theorem wit_TranslationResults :
  (∃ (s : State) (w : Nat) (v : Walker) (r : AtsResult), w < 16 ∧ s.dev.walker w = some v ∧ v.phase = .translation ∧ v.stale =
    true) ∧
  (∃ (s : State) (w : Nat) (v : Walker) (r : AtsResult), w < 16 ∧ s.dev.walker w = some v ∧ v.phase = .translation ∧ v.stale =
    false ∧ r.denied = true) ∧
  (∃ (s : State) (w : Nat) (v : Walker) (r : AtsResult), w < 16 ∧ s.dev.walker w = some v ∧ v.phase = .translation ∧ ∃ g,
    v.stale = false ∧ r.denied = false ∧ r.size = 4096 ∧ r.pages = [g] ∧ (g.r || g.w) = true ∧ g.u = false ∧ v.pieces = [] ∧
    v.queued = [] ∧ s.dev.xlt.misses = []) ∧
  (∃ (s : State) (w : Nat) (v : Walker), w < 16 ∧ s.dev.walker w = some v ∧ v.phase = .page) ∧
  (∃ (s : State) (ctx a n : Nat), ((s.dev.xlt.invals.filter fun v => !v.flush).length < 32) ∧ ((∀ x ∈ s.dev.pieces, x.2.srcHpa
    = none ∧ x.2.dstHpa = none))) ∧
  (∃ (s : State) (i a h : Nat) (p : Piece), s.dev.pieces = [(i, p)] ∧ p.phase = .read ∧ p.dst = .dva a ∧ p.dstHpa = some h ∧ a
    < 2 ^ 57 ∧ isPriv a = false ∧ s.dev.xlt.invals = [] ∧ s.dev.xlt.walkers = []) ∧
  (∃ (s : State) (v : W64), ((∀ x ∈ s.dev.pieces, x.2.srcHpa = none ∧ x.2.dstHpa = none))) ∧
  (∃ (s : State) (agent : Nat) (v : Inval) (r : List Inval), agent < 34 ∧ s.dev.xlt.invals = v :: r ∧ v.agents.contains agent
    = true ∧ s.dev.owedTo v agent = []) ∧
  (∃ (s : State) (agent : Nat) (v : Inval) (r : List Inval), agent < 34 ∧ s.dev.xlt.invals = v :: r ∧ v.agents.contains agent
    = true ∧ ((s.dev.pieces.filter fun x => x.2.hostOut && s.dev.agentOf x.2 == agent) = [])) ∧
  (∃ (s : State) (agent : Nat) (v : Inval) (r : List Inval), agent < 34 ∧ s.dev.xlt.invals = v :: r ∧ v.agents.contains agent
    = true ∧ ∃ i p, ((s.dev.pieces.filter fun x => x.2.hostOut && s.dev.agentOf x.2 == agent) = [(i, p)]) ∧ s.dev.piece i =
    some p) ∧
  (∃ (s : State) (m0 m1 : Bool), s.dev.boot.stage = 8) ∧
  (∃ (s : State), s.dev.resets.devAsked = none ∧ s.dev.glb.devState ≠ 0) :=
  ⟨⟨st (walkD { wk1 with stale := true }), 15, { wk1 with stale := true }, default, by decide⟩,
   ⟨st (walkD wk1), 15, wk1, { denied := true, size := 4096, pages := [] }, by decide⟩,
   ⟨st (walkD wk1), 15, wk1, { denied := false, size := 4096, pages := [{ (default : AtsPage) with r := true }] }, by decide, by decide, by decide, { (default : AtsPage) with r := true }, by decide⟩,
   ⟨st (walkD { wk1 with phase := .page }), 15, { wk1 with phase := .page }, by decide⟩,
   ⟨st dev, 5, 0, 4096, by decide⟩,
   ⟨st { dev with pieces := [(7, { pc1 with dst := .dva 4096, dstHpa := some 8192 })] }, 7, 4096, 8192, { pc1 with dst := .dva 4096, dstHpa := some 8192 }, by decide⟩,
   ⟨st dev, 0, by decide⟩,
   ⟨st { dev with xlt := { Xlt.reset with invals := [{ flush := false, agents := [33], pieces := [] }] } }, 33, { flush := false, agents := [33], pieces := [] }, [], by decide⟩,
   ⟨st { dev with xlt := { dev.xlt with invals := [{ flush := false, agents := [33], pieces := [] }] } }, 33, { flush := false, agents := [33], pieces := [] }, [], by decide⟩,
   ⟨st { dev with pieces := [(7, { pc1 with src := .dva 4096 })], xlt := { dev.xlt with invals := [{ flush := false, agents := [1], pieces := [7] }] } }, 1, { flush := false, agents := [1], pieces := [7] }, [], by decide, by decide, by decide, 7, { pc1 with src := .dva 4096 }, by decide⟩,
   ⟨st dev, true, false, by decide⟩,
   ⟨st dev, by decide⟩⟩

theorem wit_StallResults :
  (∃ (s : State) (st queue : Nat) (e : QueueEntry), st < 48 ∧ queue < 16384 ∧ (s.dev.stall st).state = .free ∧
    s.dev.resets.devOos = false ∧ queue < s.dev.glb.qtabCnt.toNat ∧ e.valid = true ∧ e.reservedZero = true ∧ e.context ≠ 0 ∧
    s.dev.pdkPresent e.paddock = true ∧ (s.dev.ring e.ring).en = true ∧ e.save % 4096 = 0 ∧ ((∀ k < 48, (s.dev.stall k).state
    ≠ .free → (s.dev.stall k).queue ≠ queue)) ∧ ((∀ p ∈ s.dev.boundTo e.context, p = e.paddock)) ∧ (s.dev.pdk e.paddock).rst ≠
    .outOfService ∧ (((s.dev.layout e.paddock).session = true → (s.dev.pdkSec e.paddock).memKey ≠ 0 ∨ s.dev.sec.entFail =
    false))) ∧
  (∃ (s : State) (st : Nat) (ok : Bool), st < 48 ∧ (s.dev.stall st).state = .binding ∧ (s.dev.pdk (s.dev.stall
    st).q.paddock).rst = .running ∧ (s.dev.pdkSec (s.dev.stall st).q.paddock).phase = .none ∧ ((s.dev.outQueue (s.dev.stall
    st).queue).known = true → ok = true) ∧ (s.dev.outQueue (s.dev.stall st).queue).q.accepted = []) ∧
  (∃ (s : State) (st : Nat), st < 48 ∧ (((s.dev.stall st).state = .bound ∨ (s.dev.stall st).state = .parked))) ∧
  (∃ (s : State) (st : Nat), st < 48 ∧ (s.dev.stall st).state = .unbinding ∧ ((s.dev.jobs.any fun kv => kv.2.queue ==
    (s.dev.stall st).queue && kv.2.state != .yielded) = false) ∧ ((∀ y ∈ s.dev.pieces, ∀ seq, y.2.owner ≠ .command st seq))) ∧
  (∃ (s : State) (st off : Nat) (data : List Byte), st < 48 ∧ off < 2048 ∧ off % 64 = 0 ∧ data.length = 64 ∧ (((s.dev.stall
    st).state = .bound ∨ (s.dev.stall st).state = .parked)) ∧ (capSeq (capsuleWords data) - (s.dev.stall st).q.next).toNat <
    32 ∧ Table.find (s.dev.stall st).q.landed ((capSeq (capsuleWords data)).toNat % 32) = none) ∧
  (∃ (s : State) (st off : Nat) (data : List Byte), st < 48 ∧ off < 2048 ∧ off % 64 = 0 ∧ data.length = 64 ∧ (((s.dev.stall
    st).state = .bound ∨ (s.dev.stall st).state = .parked)) ∧ 32 ≤ (capSeq (capsuleWords data) - (s.dev.stall
    st).q.next).toNat) ∧
  (∃ (s : State) (st : Nat) (w : List W64), st < 48 ∧ s.dev.headCapsule st = some w ∧ s.dev.takes st = true ∧
    Device.listsPeers w = 0) ∧
  (∃ (s : State) (st : Nat), st < 48 ∧ (s.dev.stall st).q.taken ≠ 0 ∧ (s.dev.stall st).state ≠ .free) ∧
  (∃ (s : State) (st : Nat) (m : Cmd), st < 48 ∧ (s.dev.stall st).state = .bound ∧ (((s.dev.stall st).q.accepted.find? fun m
    => s.dev.cmdEnded st m) = some m)) :=
  ⟨⟨st { dev with rings := [(0, { Ring.reset with en := true })], glb := { dev.glb with qtabCnt := 16384 } }, 47, 16383, { context := 5, paddock := 0, ring := 0, share := 0, valid := true, save := 4096, reservedZero := true }, by decide⟩,
   ⟨st (stl .binding q5), 47, false, by decide⟩,
   ⟨st (stl .parked q5), 47, by decide⟩,
   ⟨st { stl .unbinding q5 with jobs := [] }, 47, by decide⟩,
   ⟨st (stl .bound q5), 47, 1984, [0, 0, 0, 0, 34] ++ List.replicate 59 0, by decide⟩,
   ⟨st (stl .bound q5), 47, 0, [0, 0, 0, 0, 35] ++ List.replicate 59 0, by decide⟩,
   ⟨st (stl .bound { q5 with landed := [(3, [0x300000001, 0, 0, 0, 0, 0, 0, 0])] }), 47, [0x300000001, 0, 0, 0, 0, 0, 0, 0], by decide⟩,
   ⟨st (stl .parked { q5 with taken := 1 }), 47, by decide⟩,
   ⟨st (stl .bound { q5 with accepted := [cmd1 1 .finished []] }), 47, cmd1 1 .finished [], by decide⟩⟩

theorem wit_CapsuleCommandResults :
  (∃ i ∈ ([(.capsuleNop, 1), (.objRef, 7), (.objUnref, 8), (.windowOpen, 0x0A), (.seqJoin, 0x0C), (.hintPhase, 0x0E), (fun st
    => .musterSet st [], 0x0F), (.objCreate, 6), (.windowClose, 0x0B), (.seqLeave, 0x0D)] : List ((Nat → Instr) × Nat)), ∃ (s
    : State) (st : Nat) (m : Cmd), st < 48 ∧ s.dev.headCapsule st = none ∧ (s.dev.stall st).state = .bound ∧ (s.dev.stall
    st).q.nextStart = some m ∧ m.opcode = i.2 ∧ (m.opcode = 6 → Device.zeroWaits (s.dev.startCmd (s.dev.stall st).queue m.seq)
    m = false) ∧ (m.opcode = 0x0B → Device.closeWaits st (s.dev.startCmd (s.dev.stall st).queue m.seq) m = false) ∧ (m.opcode
    = 0x0D → Device.leaveWaits st (s.dev.startCmd (s.dev.stall st).queue m.seq) m = false)) ∧
  (∃ (s : State) (st : Nat) (m : Cmd), st < 48 ∧ (s.dev.stall st).state = .bound ∧ (s.dev.stall st).q.nextStart = some m ∧
    m.opcode = 3) ∧
  (∃ (s : State) (st : Nat) (m : Cmd), st < 48 ∧ (s.dev.stall st).state = .bound ∧ (s.dev.stall st).q.nextStart = some m ∧
    m.opcode = 9) ∧
  (∃ (s : State) (st : Nat) (m : Cmd), st < 48 ∧ (s.dev.stall st).state = .bound ∧ (s.dev.stall st).q.nextStart = some m ∧
    m.opcode = 5) ∧
  (∃ (s : State) (st i : Nat) (m : Cmd) (code : Code), st < 48 ∧ (s.dev.stall st).q.nextStart = none ∧ (((s.dev.stall
    st).q.accepted.find? fun m => m.opcode == 5 && m.phase == .running) = some m) ∧ s.dev.findFence (s.dev.stall st).q.context
    ((Device.cmdWord m 1).setWidth 32) = some i ∧ s.dev.waitDone i (Device.cmdWord m 2) = some code) ∧
  (∃ (s : State) (st : Nat) (m : Cmd), st < 48 ∧ (s.dev.stall st).state = .bound ∧ (s.dev.stall st).q.nextStart = some m ∧
    m.opcode = 4 ∧ ∃ i, (s.dev.startCmd (s.dev.stall st).queue m.seq).findFence ((s.dev.startCmd (s.dev.stall st).queue
    m.seq).stall st).q.context ((Device.cmdWord m 1).setWidth 32 : W32) = some i) ∧
  (∃ (s : State) (st : Nat) (m : Cmd), st < 48 ∧ (s.dev.stall st).state = .bound ∧ (s.dev.stall st).q.nextStart = some m ∧
    m.opcode = 4 ∧ (s.dev.startCmd (s.dev.stall st).queue m.seq).findFence ((s.dev.startCmd (s.dev.stall st).queue
    m.seq).stall st).q.context ((Device.cmdWord m 1).setWidth 32 : W32) = none) ∧
  (∃ (s : State) (st : Nat) (m : Cmd), st < 48 ∧ (s.dev.stall st).state = .bound ∧ (s.dev.stall st).q.nextStart = some m ∧
    m.opcode = 2 ∧ m.job = none ∧ (s.dev.pdk (s.dev.stall st).q.paddock).preemptEn = false) ∧
  (∃ (s : State) (st : Nat) (m : Cmd) (c : IntakeChunk), st < 48 ∧ (s.dev.stall st).state = .bound ∧ (((s.dev.stall
    st).q.accepted.find? fun m => m.phase == .running && (s.dev.intakeOf st m).isSome) = some m) ∧ c.data.length = min 14336
    (Device.copyLen m - m.done) ∧ (c.tagOk && c.checkOk) = false) ∧
  (∃ (s : State) (st : Nat) (m : Cmd) (c : IntakeChunk), st < 48 ∧ (s.dev.stall st).state = .bound ∧ (((s.dev.stall
    st).q.accepted.find? fun m => m.phase == .running && (s.dev.intakeOf st m).isSome) = some m) ∧ c.data.length = min 14336
    (Device.copyLen m - m.done) ∧ ∃ d, (c.tagOk && c.checkOk) = true ∧ s.dev.landChunk st m c.data = .inl d) ∧
  (∃ (s : State) (st : Nat) (w : List W64), st < 48 ∧ s.dev.headCapsule st = some w ∧ s.dev.takes st = true ∧ capOp w = 0x10) ∧
  (∃ (s : State) (st : Nat) (w : List W64) (peers : List (BitVec 16)), st < 48 ∧ s.dev.headCapsule st = some w ∧ s.dev.takes
    st = true ∧ capOp w = 0x0F ∧ Device.listsPeers w = peers.length ∧ ((s.dev.takeCapsule st w (peers.map BitVec.toNat)).stall
    st).q.nextStart = none) :=
  ⟨⟨(.capsuleNop, 1), List.Mem.head _, st (stl .bound { q5 with accepted := [cmd1 1 .waiting []] }), 47, cmd1 1 .waiting [], by decide⟩,
   ⟨st (stl .bound { q5 with accepted := [cmd1 3 .waiting []] }), 47, cmd1 3 .waiting [], by decide⟩,
   ⟨st (stl .bound { q5 with accepted := [cmd1 9 .waiting []] }), 47, cmd1 9 .waiting [], by decide⟩,
   ⟨st (stl .bound { q5 with accepted := [cmd1 5 .waiting []] }), 47, cmd1 5 .waiting [], by decide⟩,
   ⟨st (fen (st (stl .bound { q5 with accepted := [cmd1 5 .running [0x20000000, 1]] })).dev), 47, 0, cmd1 5 .running [0x20000000, 1], 0, by decide⟩,
   ⟨st (fen (stl .bound { q5 with accepted := [cmd1 4 .waiting [0x20000000, 2]] })), 47, cmd1 4 .waiting [0x20000000, 2], by decide, by decide, by decide, by decide, 0, by decide⟩,
   ⟨st (stl .bound { q5 with accepted := [cmd1 4 .waiting [0x20000000, 2]] }), 47, cmd1 4 .waiting [0x20000000, 2], by decide⟩,
   ⟨st { (st (stl .bound { q5 with accepted := [cmd1 2 .waiting []] })).dev with pdks := [(0, { Pdk.reset with preemptEn := false })] }, 47, cmd1 2 .waiting [], by decide⟩,
   ⟨st (intakeD [2 ^ 56, 0, 4]), 47, cmd1 3 .running [2 ^ 56, 0, 4], { data := [1, 2, 3, 4], tagOk := true, checkOk := false }, by decide⟩,
   ⟨st (intakeD [2 ^ 56, 2 ^ 56 + 60, 4]), 47, cmd1 3 .running [2 ^ 56, 2 ^ 56 + 60, 4], { data := [1, 2, 3, 4], tagOk := true, checkOk := true }, by decide, by decide, by decide, by decide, _, by decide, rfl⟩,
   ⟨st (stl .bound { q5 with landed := [(3, [0x300000010, 0, 0, 0, 0, 0, 0, 0])] }), 47, [0x300000010, 0, 0, 0, 0, 0, 0, 0], by decide⟩,
   ⟨st (stl .bound { q5 with accepted := [cmd1 5 .running []], landed := [(3, [0x30000000f, 0, 0, 0, 0, 0, 0, 0])] }), 47, [0x30000000f, 0, 0, 0, 0, 0, 0, 0], [], by decide⟩⟩

theorem wit_CapsuleTaking :
  (∃ (d : Device) (st : Nat) (w : List W64) (peers : List Nat), d.headCapsule st = some w ∧ (d.stall st).state = .bound ∧ ∃ n,
    (d.tookCapsule st).refusal st w peers = some n) ∧
  (∃ (d : Device) (st : Nat) (w : List W64) (peers : List Nat), d.headCapsule st = some w ∧ (d.stall st).state = .bound ∧
    (d.tookCapsule st).refusal st w peers = none ∧ capOp w ≠ 0x10) ∧
  (∃ (d : Device) (st : Nat) (w : List W64), ∃ i, capOp w = 6 ∧ ocKind w = 2 ∧ (lowest (fun i => !(d.fence i).used) 65536 =
    some i)) ∧
  (∃ (d : Device) (st : Nat) (w : List W64), ∃ i, capOp w = 6 ∧ ocKind w = 1 ∧ ocSpace w = 0 ∧ (lowest (fun i => !(d.obj
    i).used) 65536 = some i)) ∧
  (∃ (d : Device) (st : Nat) (w : List W64), ∃ i, capOp w = 7 ∧ d.findObj ((d.stall st).q).context (capHandle w 1) = some i) ∧
  (∃ (d : Device) (st : Nat) (w : List W64), ∃ i, capOp w = 8 ∧ d.findObj ((d.stall st).q).context (capHandle w 1) = some i ∧
    1 < (d.obj i).href) ∧
  (∃ (d : Device) (st : Nat) (w : List W64), ∃ i, capOp w = 8 ∧ d.findObj ((d.stall st).q).context (capHandle w 1) = some i ∧
    (d.obj i).href = 1 ∧ (d.obj i).dref = 0) ∧
  (∃ (d : Device) (st : Nat) (w : List W64), ∃ i, capOp w = 0x0D ∧ d.liveSeq ((d.stall st).q).context (capHandle w 1) = some
    i) ∧
  (∃ (d : Device) (st : Nat) (w : List W64), ∃ n, capOp w = 0x0E ∧ d.freeSlot ((d.stall st).q).paddock = some n) ∧
  (∃ (d : Device) (st : Nat) (w : List W64), ∃ m : Cmd, m.opcode = 3) :=
  ⟨⟨stl .bound { q5 with landed := [(3, [0x300000011, 0, 0, 0, 0, 0, 0, 0])] }, 47, [0x300000011, 0, 0, 0, 0, 0, 0, 0], [], by decide, by decide, nack 0x0101 0, by decide⟩,
   ⟨stl .bound { q5 with landed := [(3, [0x300000001, 0, 0, 0, 0, 0, 0, 0])] }, 47, [0x300000001, 0, 0, 0, 0, 0, 0, 0], [], by decide⟩,
   ⟨dev, 47, [0x300000006, 2, 0, 0, 0, 0, 0, 0], 0, by decide, by decide, rfl⟩,
   ⟨{ dev with objs := [(0, { Obj.reset with used := true })] }, 47, [0x300000006, 1, 0, 0, 0, 0, 0, 0], 1, by decide, by decide, by decide, rfl⟩,
   ⟨{ stl .bound q5 with objs := [(0, obj5 1)] }, 47, [0x300000007, 0x10000000, 0, 0, 0, 0, 0, 0], 0, by decide⟩,
   ⟨{ stl .bound q5 with objs := [(0, obj5 2)] }, 47, [0x300000008, 0x10000000, 0, 0, 0, 0, 0, 0], 0, by decide⟩,
   ⟨{ stl .bound q5 with objs := [(0, obj5 1)] }, 47, [0x300000008, 0x10000000, 0, 0, 0, 0, 0, 0], 0, by decide⟩,
   ⟨{ stl .bound q5 with seqs := [(0, seq5)] }, 47, [0x30000000d, 0x60000000, 0, 0, 0, 0, 0, 0], 0, by decide⟩,
   ⟨stl .bound q5, 47, [0x30000000e, 0, 0, 0, 0, 0, 0, 0], 16, by decide⟩,
   ⟨dev, 47, [], cmd1 3 .waiting [], by decide⟩⟩

theorem wit_RingAndQueueResults :
  (∃ (s : State) (n : Nat) (v : W32), n < 64 ∧ (s.dev.ring n).en = false ∧ bit v 0 = true ∧ 6 ≤ bits v 4 1 ∧ bits v 4 1 ≤ 16 ∧
    bits v 24 5 ≠ 0) ∧
  (∃ (s : State) (n : Nat) (v : W32), n < 64 ∧ (s.dev.ring n).en = true ∧ bit v 0 = false) ∧
  (∃ (s : State) (n : Nat), n < 64 ∧ (s.dev.ring n).en = true ∧ (s.dev.ring n).failed = false) ∧
  (∃ (s : State) (n : Nat), n < 512 ∧ (s.dev.vec n).moderating = true ∧ (s.dev.vec n).owed = false) ∧
  (∃ (s : State) (n : Nat), n < 512 ∧ (s.dev.vec n).moderating = true ∧ (s.dev.vec n).owed = true ∧ (s.dev.vec n).masked =
    false) ∧
  (∃ (s : State) (i : Nat) (denied : Bool), i < 65536 ∧ (s.dev.fence i).used = true ∧ (s.dev.fence i).mirror ≠ 0 ∧
    (s.dev.fence i).mirrorStopped = false) ∧
  (∃ (s : State) (p n i : Nat) (v : W64), p < 6 ∧ n < 16 ∧ s.dev.pdkPresent p = true ∧ s.dev.fencedPdk p = false ∧ (s.dev.sem
    p n).valid = false ∧ bit v 24 = true ∧ bits v 23 20 ≠ 0 ∧ s.dev.liveFence (bits v 19 0) (BitVec.ofNat 32 (bits v 63 32)) =
    some i ∧ (s.dev.fence i).code = 0) ∧
  (∃ (s : State) (p n : Nat), p < 6 ∧ n < 16 ∧ s.dev.fencedPdk p = false ∧ (s.dev.sem p n).valid = true) ∧
  (∃ (s : State) (p : Nat), p < 6 ∧ s.dev.mustPark p = true ∧ s.dev.boundOf p ≠ []) ∧
  (∃ (s : State) (st : Nat), st < 48 ∧ (s.dev.stall st).state = .parked ∧ s.dev.blocked (s.dev.stall st).q = false) ∧
  (∃ (s : State) (n : Nat), n < 16384 ∧ (s.dev.outQueue n).known = true ∧ (s.dev.outQueue n).qstate = 0 ∧ (s.dev.outQueue
    n).runnable = false ∧ s.dev.watchMet (s.dev.outQueue n) = true) :=
  ⟨⟨st dev, 63, 0xFFFFFF, by decide⟩,
   ⟨st { dev with rings := [(63, { Ring.reset with en := true })] }, 63, 0, by decide⟩,
   ⟨st { dev with rings := [(63, { Ring.reset with en := true })] }, 63, by decide⟩,
   ⟨st { dev with vecs := [(511, { Vec.reset with moderating := true })] }, 511, by decide⟩,
   ⟨st { dev with vecs := [(511, { Vec.reset with moderating := true, owed := true, masked := false })] }, 511, by decide⟩,
   ⟨st { dev with fences := [(65535, { Fence.reset with used := true, mirror := 64 })] }, 65535, true, by decide⟩,
   ⟨st { dev with fences := [(0, { Fence.reset with used := true, context := 5, href := 1 })] }, 0, 15, 0, 0x20000000_01F00005, by decide⟩,
   ⟨st { dev with pdks := [(5, { Pdk.reset with sems := [(15, sem1)] })] }, 5, 15, by decide⟩,
   ⟨st { dev with jobs := [], stalls := (List.range 48).map (fun k => (k, { Stall.reset with state := .bound, q := q5 })), queues := [(9, out9)] }, 0, by decide⟩,
   ⟨st { stl .parked { q5 with accepted := [cmd1 1 .waiting []] } with jobs := [] }, 47, by decide⟩,
   ⟨st { dev with queues := [(16383, out10)] }, 16383, by decide⟩⟩

theorem wit_DroverResults :
  ((∃ (s : State) (p j : Nat) (v : Job) (cs : List Nat) (img : ImageRead) (e : Device) (i : Image) (b : List Byte), p < 6 ∧ s.dev.fencedPdk p = false ∧ s.dev.nextCandidate p = some (j, v) ∧ v.state = .ready ∧ s.dev.coresFor v = some cs ∧
    let w : Job := { v with state := .loading, cores := cs }
    (((cs.foldl (fun d c => d.setCore c { d.core c with job := some j }) (s.dev.setJob j w)).startCmd w.queue w.seq).withdrawFor j).readImage w img = (e, .inl (i, b)))) ∧
  (∃ (s : State) (j : Nat) (v : Job), s.dev.job j = some v ∧ v.state = .loading ∧ v.loaded = true ∧ s.dev.fencedPdk v.paddock
    = false ∧ s.dev.queueRuns v.queue = true ∧ (s.dev.pdk v.paddock).preemptEn = false ∧ v.cores.Nodup) ∧
  (∃ (s : State) (j : Nat) (v : Job), s.dev.job j = some v ∧ v.state = .yielded ∧ v.loan = none ∧ (s.dev.nextCandidate
    v.paddock).map (·.1) = some j ∧ s.dev.queueRuns v.queue = true ∧ v.yielded ≠ [] ∧ (v.yielded.all s.dev.freeCore) = true ∧
    s.dev.fencedPdk v.paddock = false ∧ (s.dev.pdk v.paddock).preemptEn = false) ∧
  (∃ (s : State) (j : Nat) (v : Job), s.dev.job j = some v ∧ v.state = .running ∧ s.dev.fencedPdk v.paddock = false ∧
    (s.dev.pdk v.paddock).quantum * 1000 ≤ s.dev.now - v.released) ∧
  (∃ (s : State) (p m : Nat), p < 6 ∧ s.dev.leastAcct p none = some m) ∧
  (∃ (s : State) (p : Nat) (v : W64), p < 6 ∧ s.dev.pdkPresent p = true ∧ s.dev.fencedPdk p = false ∧ (s.dev.pdk p).stepEn =
    false ∧ bit v 0 = false ∧ 1 ≤ bits v 24 16 ∧ bits v 24 16 ≤ 256 ∧ 1 ≤ bits v 31 25 ∧ bits v 31 25 ≤ 100 ∧ bits v 48 32 ≤
    65536) ∧
  (∃ (s : State) (p : Nat) (v : W64), p < 6 ∧ s.dev.pdkPresent p = true ∧ s.dev.fencedPdk p = false ∧ (s.dev.pdk p).stepEn =
    true ∧ bit v 0 = false) ∧
  (∃ (s : State) (n : Nat), n < 256 ∧ s.dev.fires n 1 = true ∧ (s.dev.pdk ((s.dev.alarm n).owner)).stepEn = true ∧ (s.dev.pdk
    ((s.dev.alarm n).owner)).periodic = true ∧ (s.dev.pdk ((s.dev.alarm n).owner)).closed = none ∧ ((s.dev.fired n).armStep
    ((s.dev.alarm n).owner)).stepArrived ((s.dev.alarm n).owner) = true) ∧
  (∃ (s : State) (n : Nat), n < 256 ∧ s.dev.fires n 1 = true ∧ (s.dev.pdk ((s.dev.alarm n).owner)).stepEn = true ∧ (s.dev.pdk
    ((s.dev.alarm n).owner)).periodic = true ∧ (s.dev.pdk ((s.dev.alarm n).owner)).closed = none ∧ ((s.dev.fired n).armStep
    ((s.dev.alarm n).owner)).stepArrived ((s.dev.alarm n).owner) = false) ∧
  (∃ (s : State) (p j : Nat) (v : Job) (b : Batch), p < 6 ∧ s.dev.fencedPdk p = false ∧ (s.dev.pdk p).closed = some b ∧
    s.dev.stepJob p = some (j, v) ∧ s.dev.stepReady p b = true) :=
  ⟨⟨st startD, 0, 1, jobR, [0], .bytes img1, _, _, _, by decide, by decide, by decide, by decide, by decide, pairEq rfl⟩,
   ⟨st { stl .bound q5 with jobs := [(1, jobL)], pdks := [(0, { Pdk.reset with preemptEn := false })] }, 1, jobL, by decide⟩,
   ⟨st { stl .bound q5 with jobs := [(1, jobY)], pdks := [(0, { Pdk.reset with preemptEn := false })] }, 1, jobY, by decide⟩,
   ⟨st dev, 1, job1, by decide⟩,
   ⟨st { dev with pdks := [(5, { Pdk.reset with shares := [(63, { Share.reset with acct := 9 })] })], jobs := [(1, { job1 with paddock := 5, share := 63, state := .ready })] }, 5, 9, by decide⟩,
   ⟨st dev, 0, 10000 * 2 ^ 32 + 100 * 2 ^ 25 + 256 * 2 ^ 16, by decide⟩,
   ⟨st { dev with pdks := [(0, { Pdk.reset with stepEn := true })] }, 0, 0, by decide⟩,
   ⟨st (withAlarm 255 { Alarm.reset with armed := true, kind := 1 } (stepD none)), 255, by decide⟩,
   ⟨st { withAlarm 255 { Alarm.reset with armed := true, kind := 1 } (stepD none) with cores := [] }, 255, by decide⟩,
   ⟨st (stepD (some bat1)), 0, 1, jobS, bat1, by decide⟩⟩

theorem wit_LinkResults :
  (∃ (s : State) (n b : Nat) (f : DroveFrame), s.dev.frameFor n b .hello f = true ∧ ((s.dev.reached n b).binding b).state =
    .opening ∧ f.arg.setWidth 8 = ((s.dev.reached n b).pdk ((s.dev.reached n b).binding b).pdk).inc) ∧
  (∃ (s : State) (n b : Nat) (f : DroveFrame), s.dev.frameFor n b .hello f = true ∧ ((s.dev.reached n b).binding b).state =
    .opening ∧ f.arg.setWidth 8 ≠ ((s.dev.reached n b).pdk ((s.dev.reached n b).binding b).pdk).inc) ∧
  (∃ (s : State) (n b : Nat) (f : DroveFrame), s.dev.frameFor n b .hello f = true ∧ ((s.dev.reached n b).binding b).state =
    .up ∧ f.inc = ((s.dev.reached n b).binding b).pinc) ∧
  (∃ (s : State) (n b off : Nat) (f : DroveFrame) (code : Code), s.dev.upFrame n b .write f = true ∧ f.psn = (s.dev.binding
    b).rxExp ∧ (s.dev.reached n b).remoteCheck (((s.dev.reached n b).binding b).pdk) f true = .inr off) ∧
  (∃ (s : State) (n b off : Nat) (f : DroveFrame) (code : Code), s.dev.upFrame n b .write f = true ∧ f.psn = (s.dev.binding
    b).rxExp ∧ (s.dev.reached n b).remoteCheck (((s.dev.reached n b).binding b).pdk) f true = .inl code) ∧
  (∃ (s : State) (n b off : Nat) (f : DroveFrame) (code : Code) (e : Device) (bs : List Byte), s.dev.upFrame n b .readReq f =
    true ∧ f.psn = (s.dev.binding b).rxExp ∧ (s.dev.reached n b).remoteCheck (((s.dev.reached n b).binding b).pdk) f false =
    .inr off ∧ (s.dev.reached n b).readYard ((s.dev.reached n b).window (256 * (((s.dev.reached n b).binding b).pdk) +
    Device.winSlot (Device.argHandle f))).core 5 off f.len.toNat = (e, .inl bs)) ∧
  (∃ (s : State) (n b off : Nat) (f : DroveFrame) (code : Code) (e : Device) (bs : List Byte), s.dev.upFrame n b .readReq f =
    true ∧ f.psn = (s.dev.binding b).rxExp ∧ (s.dev.reached n b).remoteCheck (((s.dev.reached n b).binding b).pdk) f false =
    .inl code) ∧
  (∃ (s : State) (n b i : Nat) (f : DroveFrame) (p : Piece), s.dev.upFrame n b .readRsp f = true ∧ f.psn = (s.dev.binding
    b).rxExp ∧ s.dev.removing (s.dev.binding b).pdk = false ∧ (((s.dev.binding b).reads.find? fun r => r.1 == f.arg.setWidth
    24) = some (f.arg.setWidth 24, i)) ∧ s.dev.piece i = some p ∧ f.code ≠ 0) ∧
  (∃ (s : State) (n b i : Nat) (f : DroveFrame) (p : Piece), s.dev.upFrame n b .readRsp f = true ∧ f.psn = (s.dev.binding
    b).rxExp ∧ s.dev.removing (s.dev.binding b).pdk = false ∧ (((s.dev.binding b).reads.find? fun r => r.1 == f.arg.setWidth
    24) = some (f.arg.setWidth 24, i)) ∧ s.dev.piece i = some p ∧ f.code = 0 ∧ (p.data ++ f.payload).length < p.len) ∧
  (∃ (s : State) (n b i : Nat) (f : DroveFrame) (p : Piece), s.dev.upFrame n b .readRsp f = true ∧ f.psn = (s.dev.binding
    b).rxExp ∧ s.dev.removing (s.dev.binding b).pdk = false ∧ (((s.dev.binding b).reads.find? fun r => r.1 == f.arg.setWidth
    24) = some (f.arg.setWidth 24, i)) ∧ s.dev.piece i = some p ∧ f.code = 0 ∧ p.len ≤ (p.data ++ f.payload).length) ∧
  (∃ (s : State) (n b i : Nat) (f : DroveFrame) (u : Unacked), s.dev.upFrame n b .nak f = true ∧ f.psn = (s.dev.binding
    b).rxExp ∧ s.dev.removing (s.dev.binding b).pdk = false ∧ (((s.dev.binding b).unacked.find? fun u => u.psn ==
    f.arg.setWidth 24) = some u) ∧ u.piece = some i) ∧
  (∃ (s : State) (n b j : Nat) (f : DroveFrame) (v : Job) (m : MusterDef) (r : Round), f.psn = (s.dev.binding b).rxExp ∧
    s.dev.removing (s.dev.binding b).pdk = false ∧ (s.dev.reached n b).fabricRound (s.dev.binding b).pdk (bits f.arg 11 0)
    f.src.toNat = some (j, v, m, r) ∧ bits f.arg 63 32 = r.round.toNat ∧ s.dev.upFrame n b .musterArrive f = true ∧
    (s.dev.reached n b).fabricLeader m = (s.dev.reached n b).links.addr.toNat ∧ r.peers.contains f.src.toNat = false) ∧
  (∃ (s : State) (n b j : Nat) (f : DroveFrame) (v : Job) (m : MusterDef) (r : Round), f.psn = (s.dev.binding b).rxExp ∧
    s.dev.removing (s.dev.binding b).pdk = false ∧ (s.dev.reached n b).fabricRound (s.dev.binding b).pdk (bits f.arg 11 0)
    f.src.toNat = some (j, v, m, r) ∧ bits f.arg 63 32 = r.round.toNat ∧ s.dev.upFrame n b .musterRelease f = true ∧
    (s.dev.reached n b).fabricLeader m = f.src.toNat ∧ (ofBytes (f.payload.take 8)) ≤ (if (s.dev.reached n b).lockstepped
    ((s.dev.reached n b).binding b).pdk then (s.dev.reached n b).takeCommon (bits f.arg 20 16) f.src.toNat (ofBytes
    (f.payload.take 8)) else (s.dev.reached n b)).now) ∧
  (∃ (s : State) (n b j : Nat) (f : DroveFrame) (v : Job) (m : MusterDef) (r : Round), f.psn = (s.dev.binding b).rxExp ∧
    s.dev.removing (s.dev.binding b).pdk = false ∧ (s.dev.reached n b).fabricRound (s.dev.binding b).pdk (bits f.arg 11 0)
    f.src.toNat = some (j, v, m, r) ∧ bits f.arg 63 32 = r.round.toNat ∧ s.dev.upFrame n b .musterRelease f = true ∧
    (s.dev.reached n b).fabricLeader m = f.src.toNat ∧ (if (s.dev.reached n b).lockstepped ((s.dev.reached n b).binding b).pdk
    then (s.dev.reached n b).takeCommon (bits f.arg 20 16) f.src.toNat (ofBytes (f.payload.take 8)) else (s.dev.reached n
    b)).now < (ofBytes (f.payload.take 8))) ∧
  (∃ (s : State) (n b : Nat) (f : DroveFrame), f.psn ≠ (s.dev.binding b).rxExp ∧ ∃ z ∈ [(FrameType.write, Instr.droveWrite n
    f), (.readReq, .droveReadReq n f), (.readRsp, .droveReadRsp n f), (.nak, .droveNak n f), (.musterArrive,
    .droveMusterArrive n f), (.musterRelease, .droveMusterRelease n f)], s.dev.upFrame n b z.1 f = true ∧ 2 ^ 23 ≤ (f.psn -
    ((s.dev.reached n b).binding b).rxExp).toNat) ∧
  (∃ (s : State) (n b : Nat) (f : DroveFrame), f.psn ≠ (s.dev.binding b).rxExp ∧ ∃ z ∈ [(FrameType.write, Instr.droveWrite n
    f), (.readReq, .droveReadReq n f), (.readRsp, .droveReadRsp n f), (.nak, .droveNak n f), (.musterArrive,
    .droveMusterArrive n f), (.musterRelease, .droveMusterRelease n f)], s.dev.upFrame n b z.1 f = true ∧ (f.psn -
    ((s.dev.reached n b).binding b).rxExp).toNat < 2 ^ 23 ∧ ((((s.dev.reached n b).binding b).heldFrames.all fun g => g.psn !=
    f.psn) = true)) ∧
  (∃ (s : State) (n b : Nat) (f : DroveFrame), s.dev.upFrame n b .ack f = true ∧ ofBytes (f.payload.take 8) = 0) ∧
  (∃ (s : State) (n b : Nat) (f : DroveFrame), s.dev.upFrame n b .ack f = true ∧ ofBytes (f.payload.take 8) = 1) ∧
  (∃ (s : State) (n : Nat) (f : DroveFrame), n < 2 ∧ s.dev.links.addr ≠ 0 ∧ f.dst ≠ s.dev.links.addr ∧ Device.headerOk f =
    true ∧ ∃ e, s.dev.routePort f.dst.toNat = some e ∧ e ≠ n ∧ f.hops ≠ 0 ∧ Device.fwdFill (s.dev.port e) < 128) ∧
  (∃ (s : State) (n : Nat) (f : DroveFrame), n < 2 ∧ s.dev.links.addr ≠ 0 ∧ f.dst ≠ s.dev.links.addr ∧ Device.headerOk f =
    true ∧ ∃ e, s.dev.routePort f.dst.toNat = some e ∧ e ≠ n ∧ f.hops ≠ 0 ∧ 128 ≤ Device.fwdFill (s.dev.port e)) ∧
  (∃ (s : State) (n : Nat) (f : DroveFrame), n < 2 ∧ s.dev.links.addr ≠ 0 ∧ f.dst ≠ s.dev.links.addr ∧ Device.headerOk f =
    true ∧ (s.dev.routePort f.dst.toNat = none ∨ s.dev.routePort f.dst.toNat = some n ∨ f.hops = 0)) ∧
  (∃ (s : State) (n : Nat), n < 2) ∧
  (∃ (s : State) (n : Nat) (ip : BitVec 32) (ip6 : BitVec 128), n < 2 ∧ ip ≠ 0 ∧ ip6 ≠ 0) ∧
  (∃ (s : State) (b : Nat), b < 64 ∧ (s.dev.binding b).valid = true ∧ (s.dev.binding b).state = .opening) ∧
  (∃ (s : State) (b : Nat), b < 64 ∧ (s.dev.binding b).state = .up ∧ (s.dev.binding b).ackOwed = true) ∧
  (∃ (s : State) (b : Nat) (psn : BitVec 24) (u : Unacked), b < 64 ∧ (s.dev.binding b).state = .up ∧ (((s.dev.binding
    b).unacked.find? fun u => u.psn == psn) = some u) ∧ u.last + u.rto ≤ s.dev.now) ∧
  (∃ (s : State) (b : Nat), b < 64 ∧ (s.dev.binding b).state = .up ∧ (((s.dev.binding b).unacked.any fun u => decide (u.first
    + bits s.dev.links.ctl 31 16 * 1000000 ≤ s.dev.now)) = true)) :=
  ⟨⟨st (lnk { bnd 9 with state := .opening }), 1, 63, frm .hello 9, by decide⟩,
   ⟨st (lnk { bnd 9 with state := .opening }), 1, 63, { frm .hello 9 with arg := 1 }, by decide⟩,
   ⟨st (lnk (bnd 9)), 1, 63, frm .hello 9, by decide⟩,
   ⟨st { lnk (bnd 9) with windows := [(0, { win1 with drove := true })] }, 1, 63, 4, { frm .write 9 with len := 4, payload := [1, 2, 3, 4], arg := 0x0000000450000000 }, 0, by decide⟩,
   ⟨st (lnk (bnd 9)), 1, 63, 0, { frm .write 9 with len := 4, payload := [1, 2, 3, 4], arg := 0x0000000450000000 }, 0x0401, by decide⟩,
   ⟨st { lnk (bnd 9) with windows := [(0, { win1 with drove := true })] }, 1, 63, 4, { frm .readReq 9 with len := 4, arg := 0x0000000450000000 }, 0, _, [0, 0, 0, 0], by decide, by decide, by decide, pairEq (by decide)⟩,
   ⟨st (lnk (bnd 9)), 1, 63, 0, { frm .readReq 9 with len := 4, arg := 0x0000000450000000 }, 0x0401, dev, [], by decide⟩,
   ⟨st { lnk { bnd 9 with reads := [(6, 7)] } with pieces := [(7, pc1)] }, 1, 63, 7, { frm .readRsp 9 with arg := 6, code := 0x0401 }, pc1, by decide⟩,
   ⟨st { lnk { bnd 9 with reads := [(6, 7)] } with pieces := [(7, pc1)] }, 1, 63, 7, { frm .readRsp 9 with arg := 6 }, pc1, by decide⟩,
   ⟨st { lnk { bnd 9 with reads := [(6, 7)] } with pieces := [(7, pc1)] }, 1, 63, 7, { frm .readRsp 9 with arg := 6, len := 4, payload := [1, 2, 3, 4] }, pc1, by decide⟩,
   ⟨st (lnk { bnd 9 with unacked := [una] }), 1, 63, 7, { frm .nak 9 with arg := 6 }, una, by decide⟩,
   ⟨st ({ lnk (bnd 9) with jobs := [(1, jobF 9)], rounds := [{ rnd with scope := 2 }] }), 1, 63, 1, { frm .musterArrive 9 with arg := 0x0000000100000005 }, jobF 9, { def5 with scope := 2, peers := [9] }, { rnd with scope := 2 }, by decide⟩,
   ⟨st ({ lnk (bnd 7) with jobs := [(1, jobF 7)], rounds := [{ rnd with scope := 2 }] }), 1, 63, 1, { frm .musterRelease 7 with arg := 0x0000000100000005 }, jobF 7, { def5 with scope := 2, peers := [7] }, { rnd with scope := 2 }, by decide⟩,
   ⟨st ({ lnk (bnd 7) with jobs := [(1, jobF 7)], rounds := [{ rnd with scope := 2 }] }), 1, 63, 1, { frm .musterRelease 7 with arg := 0x0000000100000005, len := 8, payload := [0, 0, 0, 1, 0, 0, 0, 0] }, jobF 7, { def5 with scope := 2, peers := [7] }, { rnd with scope := 2 }, by decide⟩,
   ⟨st (lnk (bnd 9)), 1, 63, { frm .write 9 with psn := 0x800000 }, by decide, _, List.Mem.head _, by decide⟩,
   ⟨st (lnk (bnd 9)), 1, 63, { frm .write 9 with psn := 0x7FFFFF }, by decide, _, List.Mem.head _, by decide⟩,
   ⟨st (lnk (bnd 9)), 1, 63, frm .ack 9, by decide⟩,
   ⟨st (lnk (bnd 9)), 1, 63, { frm .ack 9 with len := 8, payload := [1, 0, 0, 0, 0, 0, 0, 0] }, by decide⟩,
   ⟨st (rte []), 1, { frm .write 9 with dst := 20 }, by decide, by decide, by decide, by decide, 0, by decide⟩,
   ⟨st (rte (List.replicate 128 (true, frm .write 9))), 1, { frm .write 9 with dst := 20 }, by decide, by decide, by decide, by decide, 0, by decide⟩,
   ⟨st (rte []), 1, { frm .write 9 with dst := 20, hops := 0 }, by decide⟩,
   ⟨st dev, 1, by decide⟩,
   ⟨st dev, 1, 1, 1, by decide⟩,
   ⟨st (lnk { bnd 9 with state := .opening }), 63, by decide⟩,
   ⟨st (lnk { bnd 9 with ackOwed := true }), 63, by decide⟩,
   ⟨st (lnk { bnd 9 with unacked := [una] }), 63, 6, una, by decide⟩,
   ⟨st (lnk { bnd 9 with unacked := [{ una with first := 0 }] } 20000000), 63, by decide⟩⟩

theorem wit_PowerResults :
  (∃ (s : State) (a : Activity), s.dev.boot.released = true ∧ 5 ≤ s.dev.boot.stage) ∧
  (∃ (s : State), s.dev.power.therm ≠ 2 ∧ s.dev.power.supply = .normal ∧ pcMode s.dev.power.ctl = 1 ∧ s.dev.fixedStep <
    s.dev.power.cur) ∧
  (∃ (s : State), s.dev.power.therm ≠ 2 ∧ s.dev.power.supply = .normal ∧ pcMode s.dev.power.ctl ≠ 1 ∧ (pcLockstep
    s.dev.power.ctl && s.dev.power.commonOn) = false ∧ (s.dev.bestStep s.dev.ceiling 0) < s.dev.power.cur) ∧
  (∃ (s : State), s.dev.power.therm ≠ 2 ∧ s.dev.power.supply = .normal ∧ pcMode s.dev.power.ctl ≠ 1 ∧ (pcLockstep
    s.dev.power.ctl && s.dev.power.commonOn) = false ∧ s.dev.power.cur ≤ (s.dev.bestStep s.dev.ceiling 0) ∧ s.dev.power.cur <
    (s.dev.bestStep s.dev.ceiling 5) ∧ s.dev.power.agreed = none) ∧
  (∃ (s : State), s.dev.power.therm ≠ 2 ∧ s.dev.power.supply = .normal ∧ pcMode s.dev.power.ctl ≠ 1 ∧ (pcLockstep
    s.dev.power.ctl && s.dev.power.commonOn) = false ∧ ∃ k, s.dev.power.cur ≤ (s.dev.bestStep s.dev.ceiling 0) ∧
    s.dev.power.cur < (s.dev.bestStep s.dev.ceiling 5) ∧ s.dev.power.cur < k ∧ s.dev.power.agreed = some k ∧
    s.dev.power.pending = none ∧ s.dev.power.suppress = false) ∧
  (∃ (s : State) (r : Raise), s.dev.power.pending = some r ∧ s.dev.power.lockRaise = none ∧ s.dev.power.lag = false ∧
    s.dev.power.supply = .normal ∧ s.dev.power.therm ≠ 2) ∧
  (∃ (s : State) (r : Raise), s.dev.power.pending = some r ∧ s.dev.power.lag = true) ∧
  (∃ (s : State) (r : Raise), s.dev.power.pending = some r ∧ s.dev.power.vack = false ∧ r.asked + 50000 ≤ s.dev.now) ∧
  (∃ (s : State) (k t0 : Nat), s.dev.power.lockRaise = some (k, t0) ∧ t0 ≤ s.dev.now ∧ ∃ r, s.dev.power.pending = some r ∧
    r.target = k ∧ s.dev.power.vack = true ∧ s.dev.power.supply = .normal ∧ s.dev.power.therm ≠ 2) ∧
  (∃ (s : State) (k t0 : Nat), s.dev.power.lockRaise = some (k, t0) ∧ t0 ≤ s.dev.now ∧ (s.dev.power.pending = none ∨
    s.dev.power.vack = false)) ∧
  (∃ (s : State) (c t0 : Nat), c < 12 ∧ (s.dev.core c).grazing = some t0 ∧ t0 + pcGrazeMax s.dev.power.ctl * 1000 ≤ s.dev.now) ∧
  (∃ (s : State) (mv : Nat), mv * 100 < s.dev.cal.warnPct * s.dev.supplyMv ∧ s.dev.power.supply = .normal) ∧
  (∃ (s : State), s.dev.power.supply = .warning) ∧
  (∃ (s : State), s.dev.power.supply = .hold ∧ s.dev.power.holdAt + 20000 ≤ s.dev.now) ∧
  (∃ (s : State) (mv : Nat), mv * 100 < s.dev.cal.resetPct * s.dev.supplyMv) ∧
  (∃ (s : State) (l : List SensorReading) (v : Int) (i : Nat), (Device.hottest ((List.range 32).map fun i => l.getD i {
    valid := false, temp := 0 }) = some (v, i))) ∧
  (∃ (s : State), (s.dev.power.thermWarn : Int) ≤ s.dev.power.hot ∧ s.dev.power.thermAt + 100000 ≤ s.dev.now ∧ s.dev.power.cur
    ≤ s.dev.power.maxStep - 1) ∧
  (∃ (s : State), (s.dev.power.thermWarn : Int) ≤ s.dev.power.hot ∧ s.dev.power.thermAt + 100000 ≤ s.dev.now ∧
    s.dev.power.maxStep - 1 < s.dev.power.cur) ∧
  (∃ (s : State), s.dev.power.hot < (s.dev.power.thermWarn : Int) - 5 ∧ s.dev.power.maxStep < pcMaxStep s.dev.power.ctl ∧
    s.dev.power.thermAt + 1000000 ≤ s.dev.now) ∧
  (∃ (s : State) (t0 : Nat), s.dev.power.therm = 2 ∧ s.dev.power.coolAt = some t0 ∧ t0 + 1000000 ≤ s.dev.now) :=
  ⟨⟨st dev, { meshBeats := 0, bursts := 0, flits := 0, frames := 0 }, by decide⟩,
   ⟨st { dev with power := { dev.power with ctl := 0xD, cur := 5, maxStep := 9 } }, by decide⟩,
   ⟨st { dev with power := { dev.power with cur := 15, maxStep := 9 } }, by decide⟩,
   ⟨st { dev with power := { dev.power with maxStep := 9 } }, by decide⟩,
   ⟨st { dev with power := { dev.power with maxStep := 9, agreed := some 9 } }, by decide, by decide, by decide, by decide, 9, by decide⟩,
   ⟨st { dev with power := { dev.power with pending := some { target := 9, asked := 900000 } } }, { target := 9, asked := 900000 }, by decide⟩,
   ⟨st { dev with power := { dev.power with lag := true, pending := some { target := 9, asked := 900000 } } }, { target := 9, asked := 900000 }, by decide⟩,
   ⟨st { dev with power := { dev.power with pending := some { target := 9, asked := 900000 } } }, { target := 9, asked := 900000 }, by decide⟩,
   ⟨st { dev with power := { dev.power with lockRaise := some (9, 900000), vack := true, pending := some { target := 9, asked := 900000 } } }, 9, 900000, by decide, by decide, { target := 9, asked := 900000 }, by decide⟩,
   ⟨st { dev with power := { dev.power with lockRaise := some (9, 900000) } }, 9, 900000, by decide⟩,
   ⟨st { dev with cores := [(11, { Core.reset with grazing := some 900000 })] }, 11, 900000, by decide⟩,
   ⟨st dev, 563, by decide⟩,
   ⟨st { dev with power := { dev.power with supply := .warning } }, by decide⟩,
   ⟨st { dev with power := { dev.power with supply := .hold, holdAt := 980000 } }, by decide⟩,
   ⟨st dev, 527, by decide⟩,
   ⟨st dev, [{ valid := true, temp := 40 }], 40, 0, by decide⟩,
   ⟨st { dev with power := { dev.power with hot := 95, maxStep := 5 } }, by decide⟩,
   ⟨st { dev with power := { dev.power with hot := 95, maxStep := 5, cur := 5 } }, by decide⟩,
   ⟨st { dev with power := { dev.power with hot := 89, maxStep := 5 } }, by decide⟩,
   ⟨st { dev with power := { dev.power with therm := 2, coolAt := some 0 } }, 0, by decide⟩⟩

theorem wit_RemovalResults :
  (∃ (s : State), s.dev.boot.released = true ∧ s.dev.sec.entFail = false) ∧
  (∃ (s : State), s.dev.boot.released = true ∧ s.dev.sec.entFail = true ∧ s.dev.sec.goodRun + 1 < 1024) ∧
  (∃ (s : State), s.dev.boot.released = true ∧ s.dev.sec.entFail = true ∧ s.dev.sec.goodRun + 1 = 1024) ∧
  (∃ (s : State), s.dev.sec.entFail = false ∧ (2 ^ 20 ≤ s.dev.sec.drbgReqs ∨ s.dev.sec.seedAt + 1000000000 ≤ s.dev.now)) ∧
  (∃ (s : State) (p : Nat), p < 6 ∧ s.dev.pdkPresent p = true ∧ (s.dev.pdkSec p).phase = .none ∧ s.dev.removalBarred p = false
    ∧ s.dev.glb.devState = 1 ∧ (s.dev.pdk p).rst ≠ .fenced) ∧
  (∃ (s : State) (p : Nat), p < 6 ∧ s.dev.pdkPresent p = true ∧ (s.dev.pdkSec p).phase = .none ∧ s.dev.removalBarred p = false
    ∧ s.dev.glb.devState = 1 ∧ (s.dev.pdk p).rst = .fenced) ∧
  (∃ (s : State) (p : Nat), p < 6 ∧ s.dev.pdkPresent p = true ∧ (s.dev.pdkSec p).phase = .none ∧ s.dev.removalBarred p = false
    ∧ s.dev.glb.devState = 2) ∧
  (∃ (s : State) (p : Nat), p < 6 ∧ (s.dev.pdkSec p).phase ≠ .none) ∧
  (∃ (s : State) (p : Nat) (flash : FlashStatus), p < 6 ∧ ((s.dev.pdkSec p).phase = .fenced ∨ (s.dev.pdkSec p).phase =
    .pending) ∧ s.dev.glb.devState = 1 ∧ s.dev.removalBarred p = false ∧ ((s.dev.pdkSec p).layout.session = true ∨ flash =
    .ok)) ∧
  (∃ (s : State) (p : Nat) (flash : FlashStatus), p < 6 ∧ ((s.dev.pdkSec p).phase = .fenced ∨ (s.dev.pdkSec p).phase =
    .pending) ∧ s.dev.glb.devState = 1 ∧ s.dev.removalBarred p = false ∧ (s.dev.pdkSec p).layout.session = false ∧ flash ≠
    .ok) ∧
  (∃ (s : State) (p : Nat), p < 6 ∧ (s.dev.pdkSec p).phase = .retiring) ∧
  (∃ (s : State) (p : Nat), p < 6 ∧ (s.dev.pdkSec p).phase = .scrubbing) ∧
  (∃ (s : State) (p : Nat), p < 6 ∧ (s.dev.pdkSec p).trace.en = true) :=
  ⟨⟨st dev, by decide⟩,
   ⟨st { dev with sec := { dev.sec with entFail := true, goodRun := 1022 } }, by decide⟩,
   ⟨st { dev with sec := { dev.sec with entFail := true, goodRun := 1023 } }, by decide⟩,
   ⟨st { dev with sec := { dev.sec with drbgReqs := 2 ^ 20 } }, by decide⟩,
   ⟨st dev, 0, by decide⟩,
   ⟨st { dev with pdks := [(0, { Pdk.reset with rst := .fenced })] }, 0, by decide⟩,
   ⟨st { dev with glb := { dev.glb with devState := 2 } }, 0, by decide⟩,
   ⟨st (pdD { sec0 with phase := .pending }), 0, by decide⟩,
   ⟨st (pdD { sec0 with phase := .fenced }), 0, .ok, by decide⟩,
   ⟨st (pdD { sec0 with phase := .pending }), 0, .worn, by decide⟩,
   ⟨st (pdD { sec0 with phase := .retiring }), 0, by decide⟩,
   ⟨st (pdD { sec0 with phase := .scrubbing }), 0, by decide⟩,
   ⟨st (pdD { sec0 with trace := { sec0.trace with en := true } }), 0, by decide⟩⟩

theorem wit_ResetResults :
  (∃ (s : State) (p : Nat), p < 6 ∧ ∃ z ∈ [(Instr.hangReportTimeout p, (0x070D : Code)), (.droverFault p, 0x0711),
    (.paddockResetRequest p, 0x0701)], (z.1 = .hangReportTimeout p → (s.dev.pdk p).hangJobs ≠ []) ∧ s.dev.pdkPresent p = true
    ∧ (s.dev.pdk p).rst = .running ∧ (s.dev.pdkSec p).phase = .none ∧ s.dev.glb.devState = 1) ∧
  (∃ (s : State) (p : Nat), p < 6 ∧ ∃ z ∈ [(Instr.hangReportTimeout p, (0x070D : Code)), (.droverFault p, 0x0711),
    (.paddockResetRequest p, 0x0701)], (z.1 = .hangReportTimeout p → (s.dev.pdk p).hangJobs ≠ []) ∧ ((s.dev.pdk p).rst ≠
    .running ∨ (s.dev.pdkSec p).phase ≠ .none)) ∧
  (∃ (s : State) (p : Nat), p < 6 ∧ (s.dev.pdk p).hangJobs = []) ∧
  (∃ (s : State) (p : Nat), p < 6 ∧ (s.dev.pdk p).rst = .fenced ∧ s.dev.resets.devAsked = none ∧ s.dev.glb.devState = 1 ∧
    (s.dev.pdkSec p).rmvWaits = false ∧ (s.dev.pdk p).history.length < 4) ∧
  (∃ (s : State) (p : Nat), p < 6 ∧ (s.dev.pdk p).rst = .retraining ∧ s.dev.glb.devState = 1 ∧ (s.dev.pdkSec p).memKey ≠ 0 ∧
    ((∀ n ∈ s.dev.chansOf p, (s.dev.chan n).state = .active))) ∧
  (∃ (s : State) (cause : ResetCause) (r : TestReport), s.dev.boot.released = true ∧ 5 ≤ s.dev.boot.stage ∧ s.dev.boot.stage ≠
    9) ∧
  (∃ (s : State) (ms : W32), s.dev.glb.devState = 2 ∧ s.dev.resets.devAsked = none ∧ s.dev.trained = true ∧
    s.dev.resets.devOos = true) ∧
  (∃ (s : State) (ms : W32), s.dev.glb.devState = 2 ∧ s.dev.resets.devAsked = none ∧ s.dev.trained = true ∧
    s.dev.resets.devOos = false) ∧
  (∃ (s : State) (n : Nat), n < 256 ∧ s.dev.fires n 4 = true ∧ s.dev.resets.restarting = false) ∧
  (∃ (s : State) (n p : Nat), n < 256 ∧ s.dev.fires n 4 = true ∧ s.dev.resets.restarting = false ∧ s.dev.glb.devState = 1 ∧
    s.dev.pdksPresent = [p] ∧ s.dev.fencedPdk p = false ∧ (s.dev.pdk p).alive ≠ (s.dev.pdk p).aliveSeen ∧ s.dev.resets.hangMs
    ≠ 0 ∧ s.dev.resets.hangMs ≤ (if s.dev.pdkBusy p && (s.dev.pdk p).prog == (s.dev.pdk p).progSeen then (s.dev.pdk p).idle +
    ((s.dev.fired n).alarm n).miss + 1 else 0)) ∧
  (∃ (s : State) (regs : List W32), s.dev.resets.wdArmed = true ∧ s.dev.resets.wdFeed + 8000000 ≤ s.dev.now) ∧
  (∃ (s : State), s.dev.resets.restarting = true) ∧
  (∃ (s : State) (n : Nat), n < 256 ∧ s.dev.fires n 5 = true) ∧
  (∃ (s : State) (n : Nat), n < 256 ∧ s.dev.fires n 6 = true) :=
  ⟨⟨st { dev with pdks := [(0, { Pdk.reset with hangJobs := [1] })] }, 0, by decide, _, List.Mem.head _, by decide⟩,
   ⟨st { dev with pdks := [(0, { Pdk.reset with hangJobs := [1], rst := .retraining })] }, 0, by decide, _, List.Mem.head _, by decide⟩,
   ⟨st dev, 5, by decide⟩,
   ⟨st { dev with pdks := [(0, { Pdk.reset with rst := .fenced, history := [1, 2, 3] })] }, 0, by decide⟩,
   ⟨st { { dev with pdks := [(0, { Pdk.reset with rst := .retraining })] } with chans := (List.range 16).map fun n => (n, { Chan.reset with state := .active }) }, 0, by decide⟩,
   ⟨st dev, default, default, by decide⟩,
   ⟨st { dev with glb := { dev.glb with devState := 2 }, resets := { dev.resets with devOos := true } }, 100, by decide⟩,
   ⟨st { dev with glb := { dev.glb with devState := 2 } }, 100, by decide⟩,
   ⟨st (withAlarm 255 { Alarm.reset with armed := true, kind := 4 } dev), 255, by decide⟩,
   ⟨st (withAlarm 0 { Alarm.reset with armed := true, kind := 4 } { dev with pdks := [(0, { Pdk.reset with idle := 99, alive := 1 })] }), 0, 0, by decide⟩,
   ⟨st { dev with resets := { dev.resets with wdArmed := true }, tally := { dev.tally with now := 8000000 } }, [], by decide⟩,
   ⟨st { dev with resets := { dev.resets with restarting := true } }, by decide⟩,
   ⟨st (withAlarm 255 { Alarm.reset with armed := true, kind := 5 } dev), 255, by decide⟩,
   ⟨st (withAlarm 255 { Alarm.reset with armed := true, kind := 6 } dev), 255, by decide⟩⟩

theorem wit_DictionaryRequests :
  (∃ (s : State) (ses : Option Nat) (r : DzRequest) (o : DzObj), ((∀ k, ses = some k → k < 4)) ∧ s.dev.reaches ses = true ∧
    (s.dev.isOperator ses = true ∨ Device.openIndex r.index.toNat = true) ∧ s.dev.dzFind r.index.toNat r.sub.toNat = some o ∧
    r.more = false ∧ r.len ≤ 1024 ∧ s.dev.stagedElsewhere ses r.index.toNat r.sub.toNat = false) ∧
  (∃ (s : State) (ses : Option Nat) (r : DzRequest) (o : DzObj), ((∀ k, ses = some k → k < 4)) ∧ s.dev.reaches ses = true ∧
    (s.dev.isOperator ses = true ∨ Device.openIndex r.index.toNat = true) ∧ s.dev.dzFind r.index.toNat r.sub.toNat = none) ∧
  (∃ (s : State) (ses : Option Nat) (r : DzRequest) (o : DzObj), ((∀ k, ses = some k → k < 4)) ∧ s.dev.reaches ses = true ∧
    (s.dev.isOperator ses = true ∨ Device.openIndex r.index.toNat = true) ∧ s.dev.stagedElsewhere ses r.index.toNat
    r.sub.toNat = true) ∧
  (∃ (s : State) (ses : Option Nat) (r : DzRequest) (o : DzObj), ((∀ k, ses = some k → k < 4)) ∧ s.dev.reaches ses = true ∧
    (s.dev.isOperator ses = true ∨ Device.openIndex r.index.toNat = true) ∧ s.dev.stagedElsewhere ses r.index.toNat
    r.sub.toNat = false ∧ s.dev.dzFind r.index.toNat (r.sub.toNat + 1) = some o) ∧
  (∃ (s : State) (ses : Option Nat) (r : DzRequest) (o : DzObj), ((∀ k, ses = some k → k < 4)) ∧ s.dev.reaches ses = true ∧
    (s.dev.isOperator ses = true ∨ Device.openIndex r.index.toNat = true) ∧ s.dev.stagedElsewhere ses r.index.toNat
    r.sub.toNat = false ∧ s.dev.dzFind r.index.toNat (r.sub.toNat + 1) = none ∧ ((dzObjects.find? fun x => decide
    (r.index.toNat < x.index) && decide (0 < s.dev.dzCount x) && s.dev.served x.index) = some o)) ∧
  (∃ (s : State) (ses : Option Nat) (r : DzRequest) (o : DzObj), ((∀ k, ses = some k → k < 4)) ∧ s.dev.reaches ses = true ∧
    (s.dev.isOperator ses = true ∨ Device.openIndex r.index.toNat = true) ∧ s.dev.stagedElsewhere ses r.index.toNat
    r.sub.toNat = false ∧ s.dev.dzFind r.index.toNat (r.sub.toNat + 1) = none ∧ ((dzObjects.all fun x => !(decide
    (r.index.toNat < x.index) && decide (0 < s.dev.dzCount x) && s.dev.served x.index)) = true)) ∧
  (∃ (s : State) (ses : Option Nat) (r : DzRequest) (o : DzObj), ((∀ k, ses = some k → k < 4)) ∧ s.dev.reaches ses = true ∧
    s.dev.isOperator ses = false ∧ Device.openIndex r.index.toNat = false) ∧
  (∃ (s : State) (k : Nat) (r : DzRequest), k < 4 ∧ s.dev.pathUp = true ∧ r.index = 0x5000 ∧ s.dev.reaches (some k) = true ∧
    (s.dev.sess k).operator = false ∧ s.dev.served 0x5000 = true ∧ r.sub = 0) ∧
  (∃ (s : State) (k : Nat) (r : DzRequest), k < 4 ∧ s.dev.pathUp = true ∧ r.index = 0x5000 ∧ s.dev.reaches (some k) = true ∧
    r.sub ≠ 0) ∧
  (∃ (s : State) (k : Nat) (r : DzRequest), k < 4 ∧ s.dev.reaches (some k) = true ∧ (s.dev.sess k).operator = true ∧ r.index =
    0x4001 ∧ r.sub = 0 ∧ s.dev.served 0x4001 = true ∧ r.more = true ∧ r.len = r.data.length ∧ r.len ≤ 1024 ∧ ∃ parses : Bool,
    r.offset = (s.dev.stagedBy k 0x4001 0).length ∧ s.dev.stagedElsewhere (some k) 0x4001 0 = false) ∧
  (∃ (s : State) (k : Nat) (r : DzRequest), k < 4 ∧ s.dev.reaches (some k) = true ∧ (s.dev.sess k).operator = true ∧ r.index =
    0x4001 ∧ r.sub = 0 ∧ s.dev.served 0x4001 = true ∧ r.more = true ∧ r.len = r.data.length ∧ r.len ≤ 1024 ∧ ∃ parses : Bool,
    r.offset ≠ (s.dev.stagedBy k 0x4001 0).length) :=
  ⟨⟨st sD, some 3, dzr 0x3000 0 [], dzo 0x3000, fun k h => by cases h; decide, by decide⟩,
   ⟨st sD, some 3, dzr 0x9000 0 [], dzo 0x3000, fun k h => by cases h; decide, by decide⟩,
   ⟨st { sD with dict := { sD.dict with staging := [{ sess := 2, index := 0x4001, sub := 0, bytes := [] }] } }, some 3, dzr 0x4001 0 [], dzo 0x4001, fun k h => by cases h; decide, by decide⟩,
   ⟨st sD, some 3, dzr 0x2001 4 [], dzo 0x2001, fun k h => by cases h; decide, by decide⟩,
   ⟨st sD, some 3, dzr 0x2001 5 [], dzo 0x2002, fun k h => by cases h; decide, by decide⟩,
   ⟨st sD, some 3, dzr 0x8009 0 [], dzo 0x8009, fun k h => by cases h; decide, by decide⟩,
   ⟨st sD, none, dzr 0x1100 0 [], dzo 0x3000, (fun k h => nomatch h), by decide⟩,
   ⟨st { sD with dict := { sD.dict with sessions := [(3, { ses1 with operator := false })] } }, 3, dzr 0x5000 0 [], by decide⟩,
   ⟨st sD, 3, dzr 0x5000 1 [], by decide⟩,
   ⟨st sD, 3, { dzr 0x4001 0 [] with more := true }, by decide, by decide, by decide, by decide, by decide, by decide, by decide, by decide, by decide, true, by decide⟩,
   ⟨st sD, 3, { dzr 0x4001 0 [] with more := true, offset := 1 }, by decide, by decide, by decide, by decide, by decide, by decide, by decide, by decide, by decide, true, by decide⟩⟩

theorem wit_DictionaryWrites :
  (∃ (s : State) (k : Nat) (r : DzRequest) (o : DzObj) (b : List Byte), s.dev.lastChunk k r o b = true ∧ r.index = 0x3002 ∧
    r.flash = .ok ∧ 70 ≤ (ofBytes b) ∧ (ofBytes b) ≤ 105) ∧
  (∃ (s : State) (k : Nat) (r : DzRequest) (o : DzObj) (b : List Byte), s.dev.lastChunk k r o b = true ∧ r.index = 0x3002 ∧
    ((ofBytes b) < 70 ∨ 105 < (ofBytes b))) ∧
  (∃ (s : State) (k : Nat) (r : DzRequest) (o : DzObj) (b : List Byte), s.dev.lastChunk k r o b = true ∧ r.index = 0x5000 ∧
    r.flash = .ok ∧ ((ofBytes b) = 0 ∨ (10 ≤ (ofBytes b) ∧ (ofBytes b) ≤ 60000))) ∧
  (∃ (s : State) (k : Nat) (r : DzRequest) (o : DzObj) (b : List Byte), s.dev.lastChunk k r o b = true ∧ r.index = 0x2000 ∧
    r.flash = .ok ∧ s.dev.glb.devState = 1 ∧ s.dev.layoutBusy = false ∧ s.dev.sec.entFail = false ∧ ((∀ p < 6, bits ((fun p =>
    BitVec.ofNat 64 (ofBytes ((b.drop (8 * p)).take 8))) p) 7 6 = 0 ∧ bits ((fun p => BitVec.ofNat 64 (ofBytes ((b.drop (8 *
    p)).take 8))) p) 31 20 = 0)) ∧ (Device.disjoint ((List.range 6).map fun p => Device.layoutOf ((fun p => BitVec.ofNat 64
    (ofBytes ((b.drop (8 * p)).take 8))) p)) = true) ∧ ((∀ p < 6, s.dev.entryOk p (Device.layoutOf ((fun p => BitVec.ofNat 64
    (ofBytes ((b.drop (8 * p)).take 8))) p)) = true))) ∧
  (∃ (s : State) (k : Nat) (r : DzRequest) (o : DzObj) (b : List Byte), s.dev.lastChunk k r o b = true ∧ r.index = 0x2000 ∧
    b.all (· == 0) = true ∧ s.dev.layoutBusy = true) ∧
  (∃ (s : State) (k : Nat) (r : DzRequest) (o : DzObj) (b : List Byte), s.dev.lastChunk k r o b = true ∧ r.index = 0x2002 ∧
    (ofBytes b) = 0 ∧ (s.dev.pdkOfChan r.sub.toNat).isSome = true) ∧
  (∃ (s : State) (k : Nat) (r : DzRequest) (o : DzObj) (b : List Byte), s.dev.lastChunk k r o b = true ∧ r.index = 0x2002 ∧
    (ofBytes b) = 0 ∧ s.dev.pdkOfChan r.sub.toNat = none ∧ r.flash = .ok ∧ (s.dev.chan r.sub.toNat).state ≠ .failed) ∧
  (∃ (s : State) (k : Nat) (r : DzRequest) (o : DzObj) (b : List Byte), s.dev.lastChunk k r o b = true ∧ r.index = 0x3000 ∧
    r.flash = .ok ∧ 5 ≤ (ofBytes b) ∧ (ofBytes b) ≤ fusedWatts s.dev.fuse) ∧
  (∃ (s : State) (k : Nat) (r : DzRequest) (o : DzObj) (b : List Byte), s.dev.lastChunk k r o b = true ∧ r.index = 0x3000 ∧
    ((ofBytes b) < 5 ∨ fusedWatts s.dev.fuse < (ofBytes b))) ∧
  (∃ (s : State) (k : Nat) (r : DzRequest) (o : DzObj) (b : List Byte), s.dev.lastChunk k r o b = true ∧ r.index = 0x3000 ∧ 5
    ≤ (ofBytes b) ∧ (ofBytes b) ≤ fusedWatts s.dev.fuse ∧ r.flash = .verify) ∧
  (∃ (s : State) (k : Nat) (r : DzRequest) (o : DzObj) (b : List Byte), s.dev.lastChunk k r o b = true ∧ r.index = 0x3000 ∧ 5
    ≤ (ofBytes b) ∧ (ofBytes b) ≤ fusedWatts s.dev.fuse ∧ r.flash = .worn) ∧
  (∃ (s : State) (k : Nat) (r : DzRequest) (o : DzObj) (b : List Byte), s.dev.lastChunk k r o b = true ∧ ∃ parses : Bool,
    r.index = 0x4001 ∧ r.flash = .ok ∧ b.length ≤ 2048 ∧ (b = [] ∨ parses = true)) ∧
  (∃ (s : State) (k : Nat) (r : DzRequest) (o : DzObj) (b : List Byte), s.dev.lastChunk k r o b = true ∧ r.index = 0x4010 ∧
    r.flash = .ok ∧ (ofBytes b) < 2 ^ 17) ∧
  (∃ (s : State) (k : Nat) (r : DzRequest) (o : DzObj) (b : List Byte), s.dev.lastChunk k r o b = true ∧ ∃ u : BundleUnwrap,
    r.index = 0x4020 ∧ ofBytes ((b.drop 173).take 3) = 0 ∧ ofBytes (b.take 4) < 2 ^ 20 ∧ s.dev.pdkPresent (r.sub.toNat / 4) =
    true ∧ ((fun a m => ofBytes ((b.drop a).take m)) 133 40 = 0)) ∧
  (∃ (s : State) (k : Nat) (r : DzRequest) (o : DzObj) (b : List Byte), s.dev.lastChunk k r o b = true ∧ ∃ u : BundleUnwrap,
    r.index = 0x4020 ∧ ofBytes ((b.drop 173).take 3) = 0 ∧ ofBytes (b.take 4) < 2 ^ 20 ∧ s.dev.pdkPresent (r.sub.toNat / 4) =
    true ∧ ((fun a m => ofBytes ((b.drop a).take m)) 133 40 ≠ 0) ∧ ((∀ t0 a z, (s.dev.sess k).measured = some t0 →
    s.dev.wallTime t0 = some a → s.dev.wallTime s.dev.now = some z → a + 60000000000 < z))) ∧
  (∃ (s : State) (k : Nat) (r : DzRequest) (o : DzObj) (b : List Byte), s.dev.lastChunk k r o b = true ∧ ∃ u : BundleUnwrap,
    r.index = 0x4020 ∧ ofBytes ((b.drop 173).take 3) = 0 ∧ ofBytes (b.take 4) < 2 ^ 20 ∧ s.dev.pdkPresent (r.sub.toNat / 4) =
    true ∧ ∃ t0 a z i, ((fun a m => ofBytes ((b.drop a).take m)) 133 40 ≠ 0) ∧ (s.dev.sess k).measured = some t0 ∧
    s.dev.wallTime t0 = some a ∧ s.dev.wallTime s.dev.now = some z ∧ z ≤ a + 60000000000 ∧ ((s.dev.unstage k r.index.toNat
    r.sub.toNat).objOfDva ((fun a m => ofBytes ((b.drop a).take m)) 0 4) ((fun a m => ofBytes ((b.drop a).take m)) 4 8) ((fun
    a m => ofBytes ((b.drop a).take m)) 12 8) = some i) ∧ ((s.dev.unstage k r.index.toNat r.sub.toNat).obj i).space = .host ∧
    (Table.get ((s.dev.unstage k r.index.toNat r.sub.toNat).pdkSec (r.sub.toNat / 4)).bundles Bundle.reset (r.sub.toNat %
    4)).installed = false ∧ u.keyOk = true ∧ ((s.dev.unstage k r.index.toNat r.sub.toNat).pdkSec (r.sub.toNat / 4)).intakeKey
    ≠ 0 ∧ Device.faesk u = true) ∧
  (∃ (s : State) (k : Nat) (r : DzRequest) (o : DzObj) (b : List Byte), s.dev.lastChunk k r o b = true ∧ r.index = 0x4030 ∧
    (ofBytes b) ≠ 0 ∧ s.dev.pdkPresent r.sub.toNat = true ∧ s.dev.removalBarred r.sub.toNat = false) ∧
  (∃ (s : State) (k : Nat) (r : DzRequest) (o : DzObj) (b : List Byte), s.dev.lastChunk k r o b = true ∧ r.index = 0x4030 ∧
    (ofBytes b) ≠ 0 ∧ s.dev.pdkPresent r.sub.toNat = true ∧ s.dev.removalBarred r.sub.toNat = true) ∧
  (∃ (s : State) (k : Nat) (r : DzRequest) (o : DzObj) (b : List Byte), s.dev.lastChunk k r o b = true ∧ r.index = 0x5001 ∧
    (ofBytes b) ≠ 0 ∧ s.dev.pdkPresent r.sub.toNat = true ∧ s.dev.glb.devState ≠ 0) ∧
  (∃ (s : State) (k : Nat) (r : DzRequest) (o : DzObj) (b : List Byte), s.dev.lastChunk k r o b = true ∧ r.index = 0x5002 ∧
    (ofBytes b) = 0x0B60 ∧ s.dev.glb.devState ≠ 0) ∧
  (∃ (s : State) (k : Nat) (r : DzRequest) (o : DzObj) (b : List Byte), s.dev.lastChunk k r o b = true ∧ r.index = 0x5002 ∧
    (ofBytes b) ≠ 0x0B60) ∧
  ((∃ (s : State) (k : Nat) (r : DzRequest) (o : DzObj) (b : List Byte), s.dev.lastChunk k r o b = true ∧ r.index = 0x5030 ∧
    r.flash = .ok ∧ (b.drop 7).all (· == 0) = true ∧ bits (BitVec.ofNat 8 (ofBytes ((b.drop 6).take 1))) 7 4 = 0 ∧
    let period := ofBytes (b.take 4)
    let cores := BitVec.ofNat 16 (ofBytes ((b.drop 4).take 2))
    let q := Table.get (s.dev.unstage k r.index.toNat r.sub.toNat).dict.snaps Snap.reset r.sub.toNat
    let x := { q with
    period := period, cores := cores, groups := BitVec.ofNat 8 (ofBytes ((b.drop 6).take 1)) }
    (∀ c < 16, bit cores c = true → s.dev.corePresent c = true) ∧ 0 < period ∧ period ≤ 4294967 ∧ ∃ j, x.slot = some j ∨
    (x.slot = none ∧ s.dev.freeSlot 7 = some j))) ∧
  ((∃ (s : State) (k : Nat) (r : DzRequest) (o : DzObj) (b : List Byte), s.dev.lastChunk k r o b = true ∧ r.index = 0x6040 ∧
    r.flash = .ok ∧
    let n := r.sub.toNat
    let w : W64 := BitVec.ofNat 64 (ofBytes b)
    let y : Binding := { Binding.reset with
    valid := bit w 0, pdk := bits w 3 1, peerPdk := bits w 6 4, peer := BitVec.ofNat 16 (bits w 23 8), credits := bits w 33 24
    }
    bit w 7 = false ∧ bits w 63 52 = 0 ∧ bit w 0 = true ∧ (s.dev.binding n).valid = false ∧ y.credits ≠ 0 ∧ y.credits +
    s.dev.otherCredits n ≤ 512 ∧ s.dev.pdkPresent y.pdk = true ∧ y.peer ≠ 0 ∧ y.peer ≠ 0xFFFF ∧ y.peer ≠ s.dev.links.addr ∧ (∀
    j < 64, j ≠ n → (s.dev.binding j).valid = true → (s.dev.binding j).pdk = y.pdk → (s.dev.binding j).peer ≠ y.peer) ∧
    (s.dev.confidential y.pdk = false ∨ s.dev.trusted y.peer.toNat = true))) ∧
  ((∃ (s : State) (k : Nat) (r : DzRequest) (o : DzObj) (b : List Byte), s.dev.lastChunk k r o b = true ∧ r.index = 0x6040 ∧
    r.flash = .ok ∧
    let n := r.sub.toNat
    let w : W64 := BitVec.ofNat 64 (ofBytes b)
    let y : Binding := { Binding.reset with
    valid := bit w 0, pdk := bits w 3 1, peerPdk := bits w 6 4, peer := BitVec.ofNat 16 (bits w 23 8), credits := bits w 33 24
    }
    bit w 7 = false ∧ bits w 63 52 = 0 ∧ bit w 0 = true ∧ (s.dev.binding n).valid = false ∧ y.credits ≠ 0 ∧ y.credits +
    s.dev.otherCredits n ≤ 512 ∧ s.dev.pdkPresent y.pdk = true ∧ y.peer ≠ 0 ∧ y.peer ≠ 0xFFFF ∧ y.peer ≠ s.dev.links.addr ∧ (∀
    j < 64, j ≠ n → (s.dev.binding j).valid = true → (s.dev.binding j).pdk = y.pdk → (s.dev.binding j).peer ≠ y.peer) ∧
    s.dev.confidential y.pdk = true ∧ s.dev.trusted y.peer.toNat = false)) ∧
  ((∃ (s : State) (k : Nat) (r : DzRequest) (o : DzObj) (b : List Byte), s.dev.lastChunk k r o b = true ∧ r.index = 0x6040 ∧
    r.flash = .ok ∧
    let n := r.sub.toNat
    let w : W64 := BitVec.ofNat 64 (ofBytes b)
    let y : Binding := { Binding.reset with
    valid := bit w 0, pdk := bits w 3 1, peerPdk := bits w 6 4, peer := BitVec.ofNat 16 (bits w 23 8), credits := bits w 33 24
    }
    bit w 7 = false ∧ bits w 63 52 = 0 ∧ bit w 0 = false ∧ (s.dev.binding n).valid = true ∧ (s.dev.binding n).pdk = y.pdk ∧
    (s.dev.binding n).peerPdk = y.peerPdk ∧ (s.dev.binding n).peer = y.peer ∧ (s.dev.binding n).credits = y.credits)) ∧
  ((∃ (s : State) (k : Nat) (r : DzRequest) (o : DzObj) (b : List Byte), s.dev.lastChunk k r o b = true ∧ r.index = 0x6040 ∧
    r.flash = .ok ∧
    let n := r.sub.toNat
    let w : W64 := BitVec.ofNat 64 (ofBytes b)
    let y : Binding := { Binding.reset with
    valid := bit w 0, pdk := bits w 3 1, peerPdk := bits w 6 4, peer := BitVec.ofNat 16 (bits w 23 8), credits := bits w 33 24
    }
    bit w 7 = false ∧ bits w 63 52 = 0 ∧ bit w 0 = false ∧ (s.dev.binding n).valid = true ∧ (s.dev.binding n).peer ≠ y.peer)) ∧
  (∃ (s : State) (k : Nat) (r : DzRequest) (o : DzObj) (b : List Byte), s.dev.lastChunk k r o b = true ∧ ∃ a, 0x6100 ≤
    r.index.toNat ∧ r.index.toNat < 0x6200 ∧ a = 256 * (r.index.toNat - 0x6100) + r.sub.toNat ∧ r.flash = .ok ∧ bits
    (BitVec.ofNat 8 (ofBytes b)) 1 0 = 0) ∧
  (∃ (s : State) (k : Nat) (r : DzRequest) (o : DzObj) (b : List Byte), s.dev.lastChunk k r o b = true ∧ ∃ a, 0x6100 ≤
    r.index.toNat ∧ r.index.toNat < 0x6200 ∧ a = 256 * (r.index.toNat - 0x6100) + r.sub.toNat ∧ r.flash = .ok ∧ 1 ≤ bits
    (BitVec.ofNat 8 (ofBytes b)) 1 0 ∧ bits (BitVec.ofNat 8 (ofBytes b)) 1 0 ≤ 2 ∧ (Table.get s.dev.links.nbrs Neighbour.reset
    (bits (BitVec.ofNat 8 (ofBytes b)) 7 2)).valid = true) ∧
  (∃ (s : State) (k : Nat) (r : DzRequest) (o : DzObj) (b : List Byte), s.dev.lastChunk k r o b = true ∧ r.index = 0x7002 ∧ 2
    ^ 23 < b.length) ∧
  (∃ (s : State) (k : Nat) (r : DzRequest) (o : DzObj) (b : List Byte), s.dev.lastChunk k r o b = true ∧ r.index = 0x7002 ∧
    b.length ≤ 2 ^ 23 ∧ r.offset % 64 = 0 ∧ r.offset / 64 % 1024 ≠ 0 ∧ r.data.length = 64 ∧ Device.unitErased s.dev.flash
    (Device.imageUnit (1 - s.dev.flash.active) + r.offset / 64) = true ∧ r.flash = .ok) ∧
  (∃ (s : State) (k : Nat) (r : DzRequest) (o : DzObj) (b : List Byte), s.dev.lastChunk k r o b = true ∧ r.index = 0x7002 ∧
    b.length ≤ 2 ^ 23 ∧ r.offset % 64 = 0 ∧ r.offset / 64 % 1024 ≠ 0 ∧ r.data.length = 64 ∧ Device.unitErased s.dev.flash
    (Device.imageUnit (1 - s.dev.flash.active) + r.offset / 64) = false) ∧
  (∃ (s : State) (k : Nat) (r : DzRequest) (o : DzObj) (b : List Byte), s.dev.lastChunk k r o b = true ∧ ∃ ok : Bool, r.index
    = 0x7003 ∧ 1 < (ofBytes b)) ∧
  (∃ (s : State) (k : Nat) (r : DzRequest) (o : DzObj) (b : List Byte), s.dev.lastChunk k r o b = true ∧ ∃ ok : Bool, r.index
    = 0x7003 ∧ (ofBytes b) ≤ 1 ∧ (ofBytes b) = s.dev.flash.active) ∧
  (∃ (s : State) (k : Nat) (r : DzRequest) (o : DzObj) (b : List Byte), s.dev.lastChunk k r o b = true ∧ r.index = 0x7003 ∧
    (ofBytes b) ≤ 1 ∧ (ofBytes b) ≠ s.dev.flash.active ∧ r.flash = .ok) ∧
  (∃ (s : State) (k : Nat) (r : DzRequest) (o : DzObj) (b : List Byte), s.dev.lastChunk k r o b = true ∧ r.index = 0x8000 ∧
    r.flash = .ok ∧ (ofBytes b) ≤ 2 ∧ ((ofBytes b) ≠ 0 ∨ s.dev.tally.hz ≠ 0)) ∧
  (∃ (s : State) (k : Nat) (r : DzRequest) (o : DzObj) (b : List Byte), s.dev.lastChunk k r o b = true ∧ r.index = 0x8000 ∧
    (ofBytes b) = 0 ∧ s.dev.tally.hz = 0) ∧
  (∃ (s : State) (k : Nat) (r : DzRequest) (o : DzObj) (b : List Byte), s.dev.lastChunk k r o b = true ∧ r.index = 0x8001 ∧
    r.flash = .ok ∧ 1000000 ≤ (ofBytes b) ∧ (ofBytes b) ≤ 200000000) ∧
  (∃ (s : State) (k : Nat) (r : DzRequest) (o : DzObj) (b : List Byte), s.dev.lastChunk k r o b = true ∧ r.index = 0x8004) :=
  ⟨⟨st sD, 3, dzr 0x3002 0 [105], dzo 0x3002, [105], by decide⟩,
   ⟨st sD, 3, dzr 0x3002 0 [106], dzo 0x3002, [106], by decide⟩,
   ⟨st sD, 3, dzr 0x5000 0 (toBytes 4 0xea60), dzo 0x5000, (toBytes 4 0xea60), by decide⟩,
   ⟨st sD, 3, dzr 0x2000 0 (List.replicate 48 0), dzo 0x2000, (List.replicate 48 0), by decide⟩,
   ⟨st ({ sD with sec := { dev.sec with pdks := [(0, { sec0 with phase := .pending })] } }), 3, dzr 0x2000 0 (List.replicate 48 0), dzo 0x2000, (List.replicate 48 0), by decide⟩,
   ⟨st sD, 3, dzr 0x2002 15 [0], dzo 0x2002, [0], by decide⟩,
   ⟨st ({ sD with sec := { dev.sec with pdks := [] } }), 3, dzr 0x2002 15 [0], dzo 0x2002, [0], by decide⟩,
   ⟨st sD, 3, dzr 0x3000 0 [5], dzo 0x3000, [5], by decide⟩,
   ⟨st sD, 3, dzr 0x3000 0 [4], dzo 0x3000, [4], by decide⟩,
   ⟨st sD, 3, { dzr 0x3000 0 [5] with flash := .verify }, dzo 0x3000, [5], by decide⟩,
   ⟨st sD, 3, { dzr 0x3000 0 [5] with flash := .worn }, dzo 0x3000, [5], by decide⟩,
   ⟨st sD, 3, dzr 0x4001 3 [7], dzo 0x4001, [7], by decide, true, by decide⟩,
   ⟨st sD, 3, dzr 0x4010 31 (toBytes 4 0x1ffff), dzo 0x4010, (toBytes 4 0x1ffff), by decide⟩,
   ⟨st sD, 3, dzr 0x4020 3 (List.replicate 176 0), dzo 0x4020, (List.replicate 176 0), by decide, default, by decide⟩,
   ⟨st sD, 3, dzr 0x4020 3 bun1, dzo 0x4020, bun1, by decide, default, by decide, by decide, by decide, by decide, by decide, fun t0 _ _ h => nomatch h⟩,
   ⟨st bunD, 3, dzr 0x4020 3 bun1, dzo 0x4020, bun1, by decide, unw1, by decide, by decide, by decide, by decide, 900000, 900000, 1000000, 0, by decide⟩,
   ⟨st sD, 3, dzr 0x4030 0 [1], dzo 0x4030, [1], by decide⟩,
   ⟨st ({ sD with sec := { dev.sec with entFail := true, pdks := [(0, { sec0 with layout := { lay0 with session := true } })] } }), 3, dzr 0x4030 0 [1], dzo 0x4030, [1], by decide⟩,
   ⟨st sD, 3, dzr 0x5001 0 [1], dzo 0x5001, [1], by decide⟩,
   ⟨st sD, 3, dzr 0x5002 0 (toBytes 4 0xb60), dzo 0x5002, (toBytes 4 0xb60), by decide⟩,
   ⟨st sD, 3, dzr 0x5002 0 (toBytes 4 0xb61), dzo 0x5002, (toBytes 4 0xb61), by decide⟩,
   ⟨st sD, 3, dzr 0x5030 7 (toBytes 8 (4294967 + 2 ^ 32)), dzo 0x5030, (toBytes 8 (4294967 + 2 ^ 32)), by decide, by decide, by decide, by decide, by decide, by decide, by decide, by decide, 0, by decide⟩,
   ⟨st sD, 3, dzr 0x6040 63 (toBytes 8 0x200fffe01), dzo 0x6040, (toBytes 8 0x200fffe01), by decide⟩,
   ⟨st ({ sD with sec := { dev.sec with pdks := [(0, { sec0 with layout := { lay0 with confidential := true } })] } }), 3, dzr 0x6040 63 (toBytes 8 0x200fffe01), dzo 0x6040, (toBytes 8 0x200fffe01), by decide⟩,
   ⟨st ({ sD with links := (lnk (bnd 9)).links }), 3, dzr 0x6040 63 (toBytes 8 0x900), dzo 0x6040, (toBytes 8 0x900), by decide⟩,
   ⟨st ({ sD with links := (lnk (bnd 9)).links }), 3, dzr 0x6040 63 (toBytes 8 0x800), dzo 0x6040, (toBytes 8 0x800), by decide⟩,
   ⟨st sD, 3, dzr 0x61ff 255 [0], dzo 0x61ff, [0], by decide, 65535, by decide⟩,
   ⟨st ({ sD with links := { Links.reset with nbrs := [(63, { Neighbour.reset with valid := true })] } }), 3, dzr 0x6100 0 [0xFE], dzo 0x6100, [0xFE], by decide, 0, by decide⟩,
   ⟨st (stagD (List.replicate (2 ^ 23) 0)), 3, { dzr 0x7002 0 [9] with offset := 2 ^ 23 }, dzo 0x7002, List.replicate (2 ^ 23) 0 ++ [9], stagD_last, by decide, by rw [List.length_append, List.length_replicate]; decide⟩,
   ⟨st ({ stagD (List.replicate 64 0) with flash := { Flash.reset with erased := blankMap } }), 3, { dzr 0x7002 0 (List.replicate 64 0) with offset := 64 }, dzo 0x7002, (List.replicate 128 0), by decide⟩,
   ⟨st (stagD (List.replicate 64 0)), 3, { dzr 0x7002 0 (List.replicate 64 0) with offset := 64 }, dzo 0x7002, (List.replicate 128 0), by decide⟩,
   ⟨st sD, 3, dzr 0x7003 0 [2], dzo 0x7003, [2], by decide, true, by decide⟩,
   ⟨st sD, 3, dzr 0x7003 0 [0], dzo 0x7003, [0], by decide, true, by decide⟩,
   ⟨st sD, 3, dzr 0x7003 0 [1], dzo 0x7003, [1], by decide⟩,
   ⟨st sD, 3, dzr 0x8000 0 [2], dzo 0x8000, [2], by decide⟩,
   ⟨st sD, 3, dzr 0x8000 0 [0], dzo 0x8000, [0], by decide⟩,
   ⟨st sD, 3, dzr 0x8001 0 (toBytes 4 0xbebc200), dzo 0x8001, (toBytes 4 0xbebc200), by decide⟩,
   ⟨st sD, 3, dzr 0x8004 0 (toBytes 8 0x5), dzo 0x8004, (toBytes 8 0x5), by decide⟩⟩

theorem wit_ManagementPathResults :
  (∃ (s : State) (m : SpdmMsg), s.dev.pathUp = true ∧ m.supported = true ∧ 1 ≤ s.dev.dict.spdmStage) ∧
  (∃ (s : State) (m : SpdmMsg), s.dev.pathUp = true ∧ m.supported = true ∧ 2 ≤ s.dev.dict.spdmStage) ∧
  (∃ (s : State) (m : SpdmMsg), s.dev.pathUp = true ∧ m.supported = true ∧ s.dev.dict.spdmStage < 3 ∧ ∃ z ∈ [(3,
    Instr.spdmGetDigests none m), (4, .spdmGetCertificate none m), (5, .spdmChallenge none m), (6, .spdmGetMeasurements none
    m), (7, .spdmKeyExchange none m), (12, .spdmChunkGet none m)], True) ∧
  (∃ (s : State) (ses : Option Nat) (m : SpdmMsg), s.dev.pathUp = true ∧ m.supported = true ∧ ((ses = none ∧ 3 ≤
    s.dev.dict.spdmStage) ∨ (∃ k < 4, ses = some k ∧ (s.dev.sess k).isOpen = true ∧ (s.dev.sess k).finished = true)) ∧ m.slot
    ≠ 0 ∧ ∃ z ∈ [(4, Instr.spdmGetCertificate ses m), (5, .spdmChallenge ses m), (6, .spdmGetMeasurements ses m)], True) ∧
  (∃ (s : State) (ses : Option Nat) (m : SpdmMsg), s.dev.pathUp = true ∧ m.supported = true ∧ ((ses = none ∧ 3 ≤
    s.dev.dict.spdmStage) ∨ (∃ k < 4, ses = some k ∧ (s.dev.sess k).isOpen = true ∧ (s.dev.sess k).finished = true)) ∧ m.slot
    = 0) ∧
  (∃ (s : State) (m : SpdmMsg), s.dev.pathUp = true ∧ m.supported = true ∧ 3 ≤ s.dev.dict.spdmStage ∧ m.slot = 0 ∧ ∃ k,
    (lowest (fun k => !(s.dev.sess k).isOpen) 4 = some k)) ∧
  (∃ (s : State) (m : SpdmMsg), s.dev.pathUp = true ∧ m.supported = true ∧ 3 ≤ s.dev.dict.spdmStage ∧ m.slot = 0 ∧ ((∀ k < 4,
    (s.dev.sess k).isOpen = true))) ∧
  (∃ (s : State) (k : Nat) (m : SpdmMsg), k < 4 ∧ s.dev.pathUp = true ∧ m.supported = true ∧ (s.dev.sess k).isOpen = true ∧
    (s.dev.sess k).finished = false ∧ m.proofOk = true) ∧
  (∃ (s : State) (k : Nat) (m : SpdmMsg), k < 4 ∧ s.dev.pathUp = true ∧ m.supported = true ∧ (s.dev.sess k).isOpen = true ∧
    (s.dev.sess k).finished = false ∧ m.proofOk = false) ∧
  (∃ (s : State) (k : Nat) (m : SpdmMsg), k < 4 ∧ s.dev.pathUp = true ∧ m.supported = true ∧ (s.dev.sess k).isOpen = true ∧
    (s.dev.sess k).finished = true ∧ m.proofOk = true) ∧
  (∃ (s : State) (k : Nat), k < 4 ∧ (s.dev.sess k).isOpen = true ∧ (s.dev.sess k).beat + 60000000000 ≤ s.dev.now) ∧
  (∃ (s : State) (k : Nat), k < 4 ∧ (s.dev.sess k).isOpen = true ∧ s.dev.now < (s.dev.sess k).beat + 60000000000) ∧
  (∃ (s : State) (m : SpdmMsg), s.dev.pathUp = true ∧ m.supported = false ∧ ∃ z ∈ [(0, Instr.spdmGetVersion none m), (1,
    .spdmGetCapabilities none m), (2, .spdmNegotiateAlgorithms none m), (3, .spdmGetDigests none m), (4, .spdmGetCertificate
    none m), (5, .spdmChallenge none m), (6, .spdmGetMeasurements none m), (7, .spdmKeyExchange none m), (12, .spdmChunkGet
    none m)], True) ∧
  (∃ (s : State) (eid cmd : BitVec 8), s.dev.pathUp = true ∧ eid ≠ 0 ∧ eid ≠ 0xFF) ∧
  (∃ (s : State) (a : BitVec 7), s.dev.pathUp = true ∧ s.dev.dict.i3cAddr = none) ∧
  (∃ (s : State) (a : BitVec 7), s.dev.pathUp = true ∧ s.dev.dict.i3cAddr ≠ none) :=
  ⟨⟨st { dev with dict := { Dict.reset with spdmStage := 1 } }, spm, by decide⟩,
   ⟨st { dev with dict := { Dict.reset with spdmStage := 2 } }, spm, by decide⟩,
   ⟨st { dev with dict := { Dict.reset with spdmStage := 2 } }, spm, by decide, by decide, by decide, _, List.Mem.head _, trivial⟩,
   ⟨st { dev with dict := { Dict.reset with spdmStage := 3 } }, none, { spm with slot := 1 }, by decide, by decide, .inl (by decide), by decide, _, List.Mem.head _, trivial⟩,
   ⟨st sD, some 3, spm, by decide, by decide, .inr ⟨3, by decide⟩, by decide⟩,
   ⟨st { dev with dict := { Dict.reset with spdmStage := 3 } }, spm, by decide, by decide, by decide, by decide, 0, by decide⟩,
   ⟨st { dev with dict := { Dict.reset with spdmStage := 3, sessions := (List.range 4).map fun k => (k, ses1) } }, spm, by decide⟩,
   ⟨st { dev with dict := { Dict.reset with sessions := [(3, { Sess.reset with isOpen := true })] } }, 3, spm, by decide⟩,
   ⟨st { dev with dict := { Dict.reset with sessions := [(3, { Sess.reset with isOpen := true })] } }, 3, { spm with proofOk := false }, by decide⟩,
   ⟨st sD, 3, spm, by decide⟩,
   ⟨st { sD with tally := { dev.tally with now := 60000000000 } }, 3, by decide⟩,
   ⟨st { sD with tally := { dev.tally with now := 59999999999 } }, 3, by decide⟩,
   ⟨st dev, { spm with supported := false }, by decide, by decide, _, List.Mem.head _, trivial⟩,
   ⟨st dev, 8, 2, by decide⟩,
   ⟨st dev, 0x50, by decide⟩,
   ⟨st { dev with dict := { Dict.reset with i3cAddr := some 9 } }, 0x50, by decide⟩⟩

theorem wit_FlashResults :
  (∃ (s : State) (l : Nat) (a b : LineCheck), l < 2 ^ 18 ∧ s.dev.flashUp = true ∧ s.dev.flash.stopped = false ∧
    s.dev.flash.forced = false ∧ s.dev.flash.line ≠ some l ∧ Device.lineBad a = false) ∧
  (∃ (s : State) (l : Nat) (a b : LineCheck), l < 2 ^ 18 ∧ s.dev.flashUp = true ∧ s.dev.flash.stopped = false ∧
    s.dev.flash.forced = false ∧ s.dev.flash.line ≠ some l ∧ Device.lineBad a = true ∧ Device.lineBad b = true) ∧
  (∃ (s : State) (l : Nat) (a b : LineCheck), l < 2 ^ 18 ∧ s.dev.flashUp = true ∧ s.dev.flash.stopped = false ∧
    s.dev.flash.forced = false ∧ s.dev.flash.line ≠ some l ∧ s.dev.flash.erase ≠ .idle ∧ s.dev.flash.susp = false) ∧
  (∃ (s : State) (u : Nat) (x : List Byte), u < 2 ^ 20 ∧ s.dev.flashUp = true ∧ Device.programs u x = true ∧ (s.dev.flash.prog
    ≠ .idle ∨ s.dev.flash.forced = true ∨ s.dev.flash.progQueue ≠ [])) ∧
  (∃ (s : State) (u : Nat) (x : List Byte), u < 2 ^ 20 ∧ s.dev.flashUp = true ∧ Device.programs u x = true ∧ s.dev.flash.prog
    = .idle ∧ s.dev.flash.forced = false ∧ s.dev.flash.progQueue = [] ∧ (Table.get s.dev.flash.erased 0 (physBlock s.dev.flash
    (u / 1024))) &&& (unitMask (u % 1024) (x.length / 64)) ≠ (unitMask (u % 1024) (x.length / 64))) ∧
  (∃ (s : State) (u : Nat) (x : List Byte), u < 2 ^ 20 ∧ s.dev.flashUp = true ∧ Device.programs u x = true ∧ s.dev.flash.prog
    = .idle ∧ s.dev.flash.forced = false ∧ s.dev.flash.progQueue = [] ∧ (Table.get s.dev.flash.erased 0 (physBlock s.dev.flash
    (u / 1024))) &&& (unitMask (u % 1024) (x.length / 64)) = (unitMask (u % 1024) (x.length / 64)) ∧ s.dev.flash.erase =
    .idle) ∧
  (∃ (s : State) (u : Nat) (x : List Byte) (again : Bool), s.dev.flash.prog = .program u x again ∧ s.dev.flash.progQueue = []
    ∧ s.dev.flash.eraseQueue = []) ∧
  (∃ (s : State) (u : Nat) (x : List Byte) (again : Bool), s.dev.flash.prog = .program u x again ∧ again = false ∧ 0 <
    s.dev.flash.spares) ∧
  (∃ (s : State) (b : Nat), b < 1024 ∧ s.dev.flashUp = true ∧ (s.dev.flash.prog ≠ .idle ∨ s.dev.flash.erase ≠ .idle)) ∧
  (∃ (s : State) (b : Nat), b < 1024 ∧ s.dev.flashUp = true ∧ s.dev.flash.prog = .idle ∧ s.dev.flash.erase = .idle ∧ Table.get
    s.dev.flash.erases 0 (physBlock s.dev.flash b) < s.dev.cal.endurance) ∧
  (∃ (s : State) (b t0 : Nat) (again : Bool), s.dev.flash.erase = .erase b t0 again ∧ s.dev.flash.susp = false ∧
    s.dev.flash.progQueue = [] ∧ s.dev.flash.eraseQueue = []) ∧
  (∃ (s : State) (b t0 : Nat) (again : Bool), s.dev.flash.erase = .erase b t0 again ∧ s.dev.flash.susp = false ∧ again = false
    ∧ 0 < s.dev.flash.spares ∧ 0 < s.dev.cal.endurance ∧ s.dev.flash.erases = []) ∧
  (∃ (s : State) (b t0 : Nat) (again : Bool), s.dev.flash.erase = .erase b t0 again ∧ t0 + 500000000 ≤ s.dev.now) ∧
  (∃ (s : State) (b : Nat), b < 1024 ∧ s.dev.flashUp = true ∧ s.dev.flash.marked.contains b = true ∧ Device.underErase
    s.dev.flash b = false ∧ s.dev.flash.spares = 0) ∧
  (∃ (s : State) (b : Nat), b < 1024 ∧ s.dev.flashUp = true ∧ s.dev.flash.marked.contains b = true ∧ Device.underErase
    s.dev.flash b = false ∧ 0 < s.dev.flash.spares) ∧
  (∃ (s : State) (code : Code) (x : W64), s.dev.flashUp = true ∧ s.dev.flash.worn = false ∧ s.dev.flash.log.length < 131072) :=
  ⟨⟨st dev, 2 ^ 18 - 1, { corrected := 0, uncorrectable := false, tagOk := true }, { corrected := 0, uncorrectable := false, tagOk := true }, by decide⟩,
   ⟨st dev, 2 ^ 18 - 1, { corrected := 0, uncorrectable := true, tagOk := true }, { corrected := 0, uncorrectable := true, tagOk := true }, by decide⟩,
   ⟨st { dev with flash := { Flash.reset with erase := .erase 5 900000 false } }, 0, { corrected := 0, uncorrectable := false, tagOk := true }, { corrected := 0, uncorrectable := false, tagOk := true }, by decide⟩,
   ⟨st { dev with flash := { Flash.reset with forced := true } }, 2 ^ 20 - 1, (List.replicate 64 9), by decide⟩,
   ⟨st { dev with flash := { Flash.reset with erased := [] } }, 2 ^ 20 - 1, (List.replicate 64 9), by decide⟩,
   ⟨st { dev with flash := { Flash.reset with erased := blankMap } }, 2 ^ 20 - 1, (List.replicate 64 9), by decide⟩,
   ⟨st { dev with flash := { Flash.reset with prog := .program 5 [] true } }, 5, [], true, by decide⟩,
   ⟨st { dev with flash := { Flash.reset with prog := .program 5 [] false, spares := 1 } }, 5, [], false, by decide⟩,
   ⟨st { dev with flash := { Flash.reset with erase := .erase 5 900000 false } }, 1023, by decide⟩,
   ⟨st { dev with flash := { Flash.reset with erases := [(1023, 99999)] } }, 1023, by decide⟩,
   ⟨st { dev with flash := { Flash.reset with erase := .erase 5 900000 false } }, 5, 900000, false, by decide⟩,
   ⟨st { dev with flash := { Flash.reset with erase := .erase 5 900000 false, spares := 1 } }, 5, 900000, false, by decide⟩,
   ⟨st { dev with flash := { Flash.reset with erase := .erase 5 0 false }, tally := { dev.tally with now := 500000000 } }, 5, 0, false, by decide⟩,
   ⟨st { dev with flash := { Flash.reset with marked := [1023], spares := 0 } }, 1023, by decide⟩,
   ⟨st { dev with flash := { Flash.reset with marked := [1023], spares := 1 } }, 1023, by decide⟩,
   ⟨st dev, 0x0901, 7, by decide⟩⟩

theorem wit_TallyAndStartResults :
  (∃ (s : State) (f : BitVec 80) (edges : Nat), s.dev.tallyUp = true ∧ s.dev.tally.src = 0 ∧ tcGood f = true ∧
    s.dev.tally.running = false) ∧
  (∃ (s : State) (f : BitVec 80) (edges : Nat), s.dev.tallyUp = true ∧ s.dev.tally.src = 0 ∧ tcGood f = true ∧
    s.dev.tally.running = true) ∧
  (∃ (s : State) (f : BitVec 80) (edges : Nat), s.dev.tallyUp = true ∧ s.dev.tally.src = 0 ∧ tcGood f = false) ∧
  (∃ (s : State) (f : BitVec 80) (edges : Nat), s.dev.tallyUp = true ∧ s.dev.tally.src = 0 ∧ s.dev.tally.running = true) ∧
  (∃ (s : State) (f : BitVec 80) (edges : Nat), s.dev.tallyUp = true ∧ s.dev.tally.src = 0 ∧ s.dev.tally.running = false) ∧
  (∃ (s : State), 100000000 < s.dev.tally.backward) ∧
  (∃ (s : State), s.dev.tally.backward ≤ 100000000) ∧
  (∃ (s : State), s.dev.tally.running = true) ∧
  (∃ (s : State) (m : PtpMsg), s.dev.tallyUp = true ∧ s.dev.tally.src = 1 ∧ m.supported = false ∧ ∃ i ∈ [Instr.ptpSync m,
    .ptpFollowUp m, .ptpDelayResp m, .ptpAnnounce m], True) ∧
  (∃ (s : State) (m : PtpMsg), s.dev.tallyUp = true ∧ s.dev.tally.src = 1 ∧ m.supported = true ∧ m.domain =
    s.dev.tally.ptpDomain ∧ s.dev.tally.ptpSource = some m.source ∧ m.twoStep = true) ∧
  (∃ (s : State) (m : PtpMsg), s.dev.tallyUp = true ∧ s.dev.tally.src = 1 ∧ m.supported = true ∧ m.domain =
    s.dev.tally.ptpDomain ∧ s.dev.tally.ptpSource = some m.source ∧ m.twoStep = false) ∧
  (∃ (s : State) (m : PtpMsg), s.dev.tallyUp = true ∧ s.dev.tally.src = 1 ∧ m.supported = true ∧ m.domain =
    s.dev.tally.ptpDomain ∧ s.dev.tally.ptpSource = some m.source ∧ ∃ at_ corr, s.dev.tally.ptpSync = some (m.seqId, at_,
    corr)) ∧
  (∃ (s : State) (m : PtpMsg), s.dev.tallyUp = true ∧ s.dev.tally.src = 1 ∧ m.supported = true ∧ m.domain =
    s.dev.tally.ptpDomain ∧ s.dev.tally.ptpSource = some m.source ∧ ∃ t1 t2, s.dev.tally.ptpLast = some (t1, t2) ∧
    s.dev.tally.running = true) ∧
  (∃ (s : State) (m : PtpMsg), s.dev.tallyUp = true ∧ s.dev.tally.src = 1 ∧ s.dev.tally.ptpSource.isSome = true ∧
    s.dev.tally.state ≠ .holdover) ∧
  (∃ (s : State) (m : PtpMsg), s.dev.servesTime = true ∧ m.supported = true ∧ m.domain = s.dev.tally.ptpDomain) ∧
  (∃ (s : State) (b : BootReport), s.dev.boot.released = false ∧ (b.sfdpOk = false ∨ b.calOk = false)) ∧
  (∃ (s : State) (b : BootReport), s.dev.boot.released = false ∧ b.sfdpOk = true ∧ b.calOk = true ∧ b.imageA = false ∧
    b.imageB = false) ∧
  (∃ (s : State) (b : BootReport), s.dev.boot.released = false ∧ b.sfdpOk = true ∧ b.calOk = true ∧ b.imageA = true ∧ b.imageB
    = true ∧ s.dev.flash.bootSlot ≤ 1) ∧
  (∃ (s : State) (ms : W32), s.dev.boot.released = true ∧ s.dev.boot.stage = 8 ∧ s.dev.glb.devState = 0 ∧
    s.dev.resets.devAsked = none ∧ s.dev.trained = true ∧ s.dev.resets.devOos = false) :=
  ⟨⟨st { dev with tally := { dev.tally with running := false } }, tcF, 64, by decide⟩,
   ⟨st dev, tcF, 64, by decide⟩,
   ⟨st dev, tcF + 1, 64, by decide⟩,
   ⟨st dev, tcF, 64, by decide⟩,
   ⟨st { dev with tally := { dev.tally with running := false } }, tcF, 64, by decide⟩,
   ⟨st { dev with tally := { dev.tally with backward := 100000001 } }, by decide⟩,
   ⟨st { dev with tally := { dev.tally with backward := 100000000 } }, by decide⟩,
   ⟨st dev, by decide⟩,
   ⟨st { dev with tally := { dev.tally with src := 1 } }, { ptp with supported := false }, by decide, by decide, by decide, _, List.Mem.head _, trivial⟩,
   ⟨st { dev with tally := { dev.tally with src := 1, ptpSource := some 7 } }, { ptp with twoStep := true }, by decide⟩,
   ⟨st { dev with tally := { dev.tally with src := 1, ptpSource := some 7 } }, ptp, by decide⟩,
   ⟨st { dev with tally := { dev.tally with src := 1, ptpSource := some 7, ptpSync := some (3, 900000, 0) } }, ptp, by decide, by decide, by decide, by decide, by decide, 900000, 0, by decide⟩,
   ⟨st { dev with tally := { dev.tally with src := 1, ptpSource := some 7, ptpLast := some (5, 900000) } }, ptp, by decide, by decide, by decide, by decide, by decide, 5, 900000, by decide⟩,
   ⟨st { dev with tally := { dev.tally with src := 1, ptpSource := some 7 } }, ptp, by decide⟩,
   ⟨st { dev with tally := { dev.tally with ptpTx := true }, links := { Links.reset with ports := [(1, { Port.reset with up := true })] } }, ptp, by decide⟩,
   ⟨{ pending := [], dev := { dev with boot := Boot.reset } }, { brep with sfdpOk := false }, by decide⟩,
   ⟨{ pending := [], dev := { dev with boot := Boot.reset } }, { brep with imageA := false, imageB := false }, by decide⟩,
   ⟨{ pending := [], dev := { dev with boot := Boot.reset } }, brep, by decide⟩,
   ⟨st { dev with glb := { dev.glb with devState := 0 } }, 5, by decide⟩⟩

theorem wit_CompletionRule :
  (∃ (c : Instr) (s : State), c.wf = true) ∧
  (∃ (c : Instr) (s : State), c.wf = false) :=
  ⟨⟨.add 11, st dev, by decide⟩,
   ⟨.add 12, st dev, by decide⟩⟩

theorem wit_EveryStepKeeps :
  (∃ s t : State, step s = .next t ∧ ((∀ c ∈ s.pending.head?, c ≠ .powerOnResetAssert ∧ ∀ b, c ≠ .coldStart b))) :=
  ⟨st dev, _, rfl, fun c h => nomatch h⟩

theorem wit_RingEnableRule :
  (∃ (s : State) (n off width : Nat), n < 64 ∧ (s.dev.ring n).en = true ∧ 0x1000 + 0x20 * n ≤ off ∧
    off + width ≤ 0x1018 + 0x20 * n ∧ (off % 0x20 < 8 ∨ 0x10 ≤ off % 0x20)) ∧
  (∃ (s : State) (n : Nat) (v : W32), n < 64 ∧ (s.dev.ring n).en = false ∧ bit v 0 = true ∧
    (bits v 4 1 < 6 ∨ 16 < bits v 4 1 ∨ bits v 24 5 = 0)) :=
  ⟨⟨st { dev with rings := [(63, { Ring.reset with en := true })] }, 63, 0x17F0, 8, by decide⟩,
   ⟨st dev, 63, 0x2B, by decide⟩⟩

theorem wit_AlarmFiringRule :
  (∃ (d : Device) (n : Nat), (d.alarm n).periodic = false) ∧
  (∃ (d : Device) (n : Nat), (d.alarm n).periodic = true ∧ 0 < (d.alarm n).per ∧ (d.alarm n).cmp ≤ d.now) ∧
  (∃ (s : State) (slot : Nat), slot < 256 ∧ s.dev.fires slot 6 = true) :=
  ⟨⟨dev, 255, by decide⟩,
   ⟨withAlarm 255 { Alarm.reset with armed := true, periodic := true, per := 7, cmp := 1000000 } dev, 255, by decide⟩,
   ⟨st (withAlarm 255 { Alarm.reset with armed := true, kind := 6 } dev), 255, by decide⟩⟩

theorem wit_ShepherdFrame :
  (∃ (c : Instr) (s t : State), shepherdRow c = true ∧ exec c s = .next t) :=
  ⟨.stepDecision, st dev, _, by decide, rfl⟩

/-! ### The shapes of results have instances that complete -/

/-- Every opcode of a list issues on the small device, with the other bits of the word as in `b`. -/
def allIssueAt (sl : Slot) (b : Nat) (l : List Nat) : Bool :=
  l.all fun op => (go sl (BitVec.ofNat 64 (b + op))).dev.mayIssue 0 sl op (head sl (BitVec.ofNat 64 (b + op)))
theorem wit_ScalarArithmeticResults : allIssueAt .c 0 [1, 2, 3, 4, 5, 6, 7, 8, 9, 10, 11, 12, 13, 14, 15] = true := by decide
theorem wit_VectorLaneResults : allIssueAt .t 0 [0x10, 0x11, 0x12, 0x13, 0x14, 0x15, 0x16, 0x17] = true := by decide
theorem wit_VectorLaneResults_bits : allIssueAt .t 0x8000000000 [0x18, 0x19, 0x1A, 0x1B, 0x1C, 0x1D, 0x2C] = true := by decide
theorem wit_VectorMoveResults : allIssueAt .t 0 [0x1F, 0x20, 0x21, 0x23, 0x25, 0x26] = true := by decide
theorem wit_LoadResult_sld : ∃ (s : State) (c : Nat) (x : QInstr) (e : Device) (bs : List Byte), s.dev.mayIssue c .m 1 x = true ∧
    s.dev.ownRange c 0 8 = true ∧ s.dev.portsBusy c = false ∧ (mOffset (s.dev.regs c) x.word).toNat = 0 ∧ (s.dev.audit c 0 8).readYard c 4 0 8 = (e, .inl bs) :=
  ⟨go .m 1, 0, head .m 1, _, List.replicate 8 0, by decide, by decide, by decide, by decide, pairEq (by decide)⟩
theorem wit_LoadResult_vld : ∃ (s : State) (c : Nat) (x : QInstr) (e : Device) (bs : List Byte), s.dev.mayIssue c .m 3 x = true ∧
    s.dev.ownRange c 0 1024 = true ∧ s.dev.portsBusy c = false ∧ ewBytes (mEW x.word) = 4 ∧ (mOffset (s.dev.regs c) x.word).toNat = 0 ∧
    (s.dev.audit c 0 1024).readYard c 4 0 1024 = (e, .inl bs) :=
  ⟨go .m 3, 0, head .m 3, _, List.replicate 1024 0, by decide, by decide, by decide, by decide, by decide, pairEq (by decide)⟩
theorem wit_StoreResult : ∀ op ∈ [2, 4], ∃ (s : State) (x : QInstr), s.dev.mayIssue 0 .m op x = true ∧
    s.dev.ownRange 0 0 1024 = true ∧ s.dev.portsBusy 0 = false ∧ (mOffset (s.dev.regs 0) x.word).toNat = 0 := by
  intro op h
  rcases List.mem_cons.1 h with rfl | h
  · exact ⟨go .m 2, head .m 2, by decide⟩
  · exact ⟨go .m 4, head .m 4, by rw [List.mem_singleton.1 h]; decide⟩
theorem wit_ChannelResult : ([1, 2, 3, 4] : List Nat).all (fun op => (goH (BitVec.ofNat 64 op) id).dev.mayExecute 0 1 op) = true := by
  decide

/-! ### Ill-formed commands -/

theorem test_wf_below2_0 : ((
  [fun n => .haulEnd 0 n, fun n => .channelIdle 0 n, fun n => .haulBase 0 n, fun n => .haulStride 0 n, fun n => .haulLoop 0 n,
   fun n => .move 0 n, fun n => .pieceIssue 0 n, fun n => .tring 0 n, fun n => .tnext 0 n, fun n => .tput 0 n,
   fun n => .tileCreditReturn 0 n, fun n => .hpop 0 n, fun n => .hpush 0 n, fun n => .hbase 0 n, fun n => .wopen 0 n,
   fun n => .wclose 0 n, fun n => .skidmark 0 n, fun n => .twait 0 n, fun n => .chutePushArrive (.channel 0 n) 0,
   fun n => .droveHello n default, fun n => .droveWrite n default, fun n => .droveReadReq n default,
   fun n => .droveReadRsp n default, fun n => .droveAck n default, fun n => .droveNak n default,
   fun n => .droveMusterArrive n default, fun n => .droveMusterRelease n default, fun n => .frameForward n default,
   fun n => .arpRequest n default, fun n => .neighbourSolicitation n default] : List (Nat → Instr)).all fun f => !(f (2)).wf && (f (2 - 1)).wf) = true := by decide
theorem test_wf_below2_1 : ((
  [.pfcPause, fun n => .portLinkChange n default, fun n => .twaitReached 0 n, .rxFrameDrop, .pfcPauseExpiry] : List (Nat → Instr)).all fun f => !(f (2)).wf && (f (2 - 1)).wf) = true := by decide
theorem test_wf_below4_0 : ((
  [fun n => .dzientRead (some n) default, fun n => .dzientNext (some n) default, fun n => .dzientWrite (some n) default,
   fun n => .layoutWrite (some n) default, fun n => .chanOnWrite (some n) default, fun n => .capSetWrite (some n) default,
   fun n => .opRootWrite (some n) default default, fun n => .trustWrite (some n) default,
   fun n => .bundleRelease (some n) default default, fun n => .removeWrite (some n) default,
   fun n => .pdkResetWrite (some n) default, fun n => .devResetWrite (some n) default, fun n => .snapSetWrite (some n) default,
   fun n => .bindWrite (some n) default, fun n => .routeWrite (some n) default, fun n => .stageWrite (some n) default,
   fun n => .commit (some n) default default, fun n => .srcWrite (some n) default, fun n => .tcHzWrite (some n) default,
   fun n => .calSet (some n) default, fun n => .spdmGetVersion (some n) default,
   fun n => .spdmGetCapabilities (some n) default, fun n => .spdmNegotiateAlgorithms (some n) default,
   fun n => .spdmGetDigests (some n) default, fun n => .spdmGetCertificate (some n) default,
   fun n => .spdmChallenge (some n) default, fun n => .spdmGetMeasurements (some n) default,
   fun n => .spdmKeyExchange (some n) default, fun n => .spdmFinish (some n) default, fun n => .spdmHeartbeat (some n) default] : List (Nat → Instr)).all fun f => !(f (4)).wf && (f (4 - 1)).wf) = true := by decide
theorem test_wf_below4_1 : ((
  [fun n => .spdmKeyUpdate (some n) default, fun n => .spdmEndSession (some n) default,
   fun n => .spdmChunkGet (some n) default, .spdmHeartbeatMissed] : List (Nat → Instr)).all fun f => !(f (4)).wf && (f (4 - 1)).wf) = true := by decide
theorem test_wf_below6 : ((
  [fun n => .musterLeadRelease n 0, fun n => .windowCloseComplete n 0, fun n => .segmentZeroComplete n 0,
   fun n => .jobStart n default, .accountNormalise, fun n => .semSetup n 0 default, fun n => .semTeardown n 0, .queuePark,
   .stepRelease, fun n => .stepCtlWrite n default, .tenantRemoveRequest, fun n => .removalRetire n default, .removalScrub,
   .removalEnd, .traceWriteFail, .hangReportTimeout, .droverFault, .paddockResetRequest, .paddockReset, .paddockReady] : List (Nat → Instr)).all fun f => !(f (6)).wf && (f (6 - 1)).wf) = true := by decide
theorem test_wf_below12_0 : ((
  [.bundleDispatch, fun n => .nop n default, .pissue, .penSlotWrite, .pswap, .pfold, .pconv, .pdrn, .pldw, .pldwComplete,
   .pskarm, .skidMarkerArrive, .skidBeatArrive, .tpass, .tpassComplete, .tact, .cbld, .cbldComplete, .vadd, .vsub, .vmul,
   .vfma, .vmin, .vmax, .vabs, .vneg, .vand, .vor, .vxor, .vshl] : List (Nat → Instr)).all fun f => !(f (12)).wf && (f (12 - 1)).wf) = true := by decide
theorem test_wf_below12_1 : ((
  [.vshr, .vsra, .vcmp, .vsel, .vcvt, .vfun, .vred, .vperm, .vext, .vpack, .vunpk, .vsort, .vtkclr, .vtkadd, .vtkget, .vsamp,
   .viota, .sld, .sst, .vld, .vst, .vlds, .vsts, .haul, .chpush, .chpop, .imld, .add, .sub, .and] : List (Nat → Instr)).all fun f => !(f (12)).wf && (f (12 - 1)).wf) = true := by decide
theorem test_wf_below12_2 : ((
  [.or, .xor, .shl, .shr, .sra, .mul, .min, .max, .minu, .maxu, .slt, .sltu, .br, .loop, .mfc, .mtc, .msend, .mrecv,
   fun n => .messageArrive n 0, fun n => .messageArrive 0 n, .muster, .fsignal, .fwait, .kerf, .coreYield, .ysync, .tly, .rand,
   .trap, .halt] : List (Nat → Instr)).all fun f => !(f (12)).wf && (f (12 - 1)).wf) = true := by decide
theorem test_wf_below12_3 : ((
  [.pset, .phase, .semTicketTake, .semRelease, .chuteModeWrite, .chainWrite, .stepAreaWrite, .channelHaltAck, .channelStop,
   fun n => .haulEnd n 0, fun n => .channelIdle n 0, fun n => .haulBase n 0, fun n => .haulStride n 0, fun n => .haulLoop n 0,
   fun n => .move n 0, fun n => .pieceIssue n 0, fun n => .tring n 0, fun n => .tnext n 0, fun n => .tput n 0,
   fun n => .tileCreditReturn n 0, fun n => .hpop n 0, fun n => .hpush n 0, fun n => .hbase n 0, fun n => .wopen n 0,
   fun n => .wclose n 0, fun n => .skidmark n 0, fun n => .twait n 0, fun n => .chutePushArrive (.program 0) n,
   fun n => .chutePushArrive (.program n) 0, fun n => .chuteFreeSignal n 0] : List (Nat → Instr)).all fun f => !(f (12)).wf && (f (12 - 1)).wf) = true := by decide
theorem test_wf_below12_4 : ((
  [fun n => .yardUeRead n 0 default, .mendWriteback, .mergeDrainTimeout, .patrolRead, fun n => .remapInstall n 0 0 0,
   .regionClearComplete, .grazeTimeout, fun n => .twaitReached n 0] : List (Nat → Instr)).all fun f => !(f (12)).wf && (f (12 - 1)).wf) = true := by decide
theorem test_wf_below16 : ((
  [fun n => .chuteFreeSignal 0 n, fun n => .channelTrainingDone n default, fun n => .atsCompletion n default, .atsTimeout,
   fun n => .prgResponse n default, .pageRequestTimeout, fun n => .semSetup 0 n default, fun n => .semTeardown 0 n] : List (Nat → Instr)).all fun f => !(f (16)).wf && (f (16 - 1)).wf) = true := by decide
theorem test_wf_below18 : ((
  [fun n => .remapInstall 0 0 0 n] : List (Nat → Instr)).all fun f => !(f (18)).wf && (f (18 - 1)).wf) = true := by decide
theorem test_wf_below34 : ((
  [.invalAck, .invalTimeout] : List (Nat → Instr)).all fun f => !(f (34)).wf && (f (34 - 1)).wf) = true := by decide
theorem test_wf_below48 : ((
  [fun n => .bind n 0 default, fun n => .bindComplete n default, .unbind, .unbindComplete,
   fun n => .capsuleWrite n default default, .capsuleTake, .creditRecordTimer, .capsuleNop, .runProgram, .copy,
   fun n => .intakeChunk n default, .signalFence, .waitFence, .objCreate, .objRef, .objUnref, .yardLoad, .windowOpen,
   .windowClose, .seqJoin, .seqLeave, .hintPhase, fun n => .musterSet n default, .cancel, .commandComplete, .queueUnpark] : List (Nat → Instr)).all fun f => !(f (48)).wf && (f (48 - 1)).wf) = true := by decide
theorem test_wf_below64 : ((
  [.ringWriteFail, fun n => .evrCtlWrite n default, .helloSend, .ackSend, fun n => .retransmit n default, .sessionTimeout] : List (Nat → Instr)).all fun f => !(f (64)).wf && (f (64 - 1)).wf) = true := by decide
theorem test_wf_below256 : ((
  [.stepStart, .musterDeadline, .powerPhase, .heartbeat, .snapshot, .hostEvent, fun n => .remapInstall 0 n 0 0,
   fun n => .windowCloseComplete 0 n, fun n => .segmentZeroComplete 0 n] : List (Nat → Instr)).all fun f => !(f (256)).wf && (f (256 - 1)).wf) = true := by decide
theorem test_wf_below512 : ((
  [.msixModerationExpiry, .msixVectorUnmask] : List (Nat → Instr)).all fun f => !(f (512)).wf && (f (512 - 1)).wf) = true := by decide
theorem test_wf_below1024 : ((
  [.flashErase, fun n => .flashRelocate n default] : List (Nat → Instr)).all fun f => !(f (1024)).wf && (f (1024 - 1)).wf) = true := by decide
theorem test_wf_below4096 : ((
  [fun n => .musterLeadRelease 0 n, fun n => .remapInstall 0 0 n 0] : List (Nat → Instr)).all fun f => !(f (4096)).wf && (f (4096 - 1)).wf) = true := by decide
theorem test_wf_below16384 : ((
  [fun n => .bind 0 n default, .queueRunnable] : List (Nat → Instr)).all fun f => !(f (16384)).wf && (f (16384 - 1)).wf) = true := by decide
theorem test_wf_below65536 : ((
  [fun n => .mirrorWriteFail n default] : List (Nat → Instr)).all fun f => !(f (65536)).wf && (f (65536 - 1)).wf) = true := by decide
theorem test_wf_below2pow18 : ((
  [fun n => .flashLineRead n default default] : List (Nat → Instr)).all fun f => !(f (2 ^ 18)).wf && (f (2 ^ 18 - 1)).wf) = true := by decide
theorem test_wf_below2pow20 : ((
  [fun n => .flashProgram n default] : List (Nat → Instr)).all fun f => !(f (2 ^ 20)).wf && (f (2 ^ 20 - 1)).wf) = true := by decide
theorem test_wf_below2pow21 : ((
  [fun n => .yardUeRead 0 n default] : List (Nat → Instr)).all fun f => !(f (2 ^ 21)).wf && (f (2 ^ 21 - 1)).wf) = true := by decide

/-- An ill-formed command faults, and changes nothing by it. -/
theorem test_illFormed_faults : exec (.add 12) (st dev) = .fault .absentUnit := rfl

/-! ### Values worked out from the spec -/

/-- R198, worked example: offset 0x0123_4568. -/
theorem test_yardMap : yardPort 0x01234568 = 1 ∧ yardBank 0x01234568 = 65 ∧ yardRow 0x01234568 = 2257 ∧ yardWord 0x01234568 = 10 ∧
    yardLatency 0x01234568 = 10 := by decide
/-- R29, worked example: TLY_RATE of a counter at 24 MHz. -/
theorem test_rate : rateOf 24000000 = 0x29AAAAAAAB := by decide
/-- R28: the CRC of a count of zero is zero, and a last count bit alone leaves 0x07 in the register, sent most significant bit first. -/
theorem test_tcFrame : tcGood 0x7E = true ∧ tcGood (0x7E + 2 ^ 71 + 2 ^ 77 + 2 ^ 78 + 2 ^ 79) = true ∧ tcGood (0x7E + 2 ^ 8) = false := by
  decide
/-- R222, worked example: slot 0x17 at generation 0x42. -/
theorem test_windowHandle : Device.winHandle 0x42 0x17 = 0x50004217 ∧ Device.winSlot 0x50004217 = 0x17 := by decide
/-- R209, R210: one bad data bit in a PLAIN block is found. -/
theorem test_plainCheck : checkPlain { data := 1, chk := 1 } = .good ∧ checkPlain { data := 1, chk := 0 } = .bad false := by decide
/-- R211: a single bad data bit of row 1, column 2 is mended, and two bad data bits are not. -/
theorem test_guardedCheck : checkGuarded { data := 2 ^ 18, chk := 0 } = .mended { data := 0, chk := 0 } ∧
    checkGuarded { data := 3, chk := 0 } = .bad false := by decide
/-- R212: the inverse of the guarded check bits poisons a block. -/
theorem test_poison : checkGuarded (Blk.poisoned 5) = .bad true := by decide
/-- R274, worked example: P of DVA 0x130_0000_0123_4567 in a segment with BASE 512. -/
theorem test_privAddress :
    { dev with segs := [(3, { seg1 with seg := 3, base := 512, len := 128 })] }.privCheck 0 5 0x130000001234567 4 false =
      .inr 0x41234567 := by decide
/-- R173: ADD wraps at 64 bits and takes a sign-extended immediate: S2 := S1 + (−1). -/
theorem test_add : (match exec (.add 0) (goD .c 0xFFFFFFFF10010801 (fun d => d.modSeq 0 fun q => q.setSop 1 0)) with
    | .next t => (t.dev.regs 0).sop 2
    | _ => 0) = 0xFFFFFFFFFFFFFFFF := by decide
/-- R173: SHL shifts by b mod 64: S2 := S1 shifted by 65. -/
theorem test_shl : (match exec (.shl 0) (goD .c 0x0000004110010806 (fun d => d.modSeq 0 fun q => q.setSop 1 3)) with
    | .next t => (t.dev.regs 0).sop 2
    | _ => 0) = 6 := by decide
/-- R173: SLT compares as signed numbers: −1 < 0. -/
theorem test_slt : (match exec (.slt 0) (goD .c 0x000000001001080E (fun d => d.modSeq 0 fun q => q.setSop 1 (-1))) with
    | .next t => (t.dev.regs 0).sop 2
    | _ => 0) = 1 := by decide
/-- R153: a write to S0 is discarded. -/
theorem test_s0 : (match exec (.add 0) (go .c 0x0000000510000001) with
    | .next t => (t.dev.regs 0).sop 0
    | _ => 1) = 0 := by decide
/-- R159: an instruction whose guard fails leaves its queue and has no effect. -/
theorem test_guard : (match exec (.add 0) (go .c 0x0000000510000A01) with
    | .next t => ((t.dev.regs 0).sop 2, (t.dev.regs 0).qc)
    | _ => (1, [])) = (0, []) := by decide
/-- R168, R176: BF16 lanes round to nearest, ties to even: 1 + 2⁻⁸ is 1, and 1 + 2⁻⁷ + 2⁻⁸ is 1 + 2⁻⁶. -/
theorem test_vadd_bf16 :
    laneOut 1 (((laneVal 1 0x3F800000).add (laneVal 1 0x3B800000)).1) = 0x3F800000 ∧
    laneOut 1 (((laneVal 1 0x3F810000).add (laneVal 1 0x3B800000)).1) = 0x3F820000 := by decide
/-- R6, R171: SST writes the low byte at the lowest address. -/
theorem test_sst : (match exec (.sst 0) (goD .m 0x402 (fun d => d.modSeq 0 fun q => q.setSop 1 0x0102030405060708)) with
    | .next t => ((t.dev.slice 0).byteAt 0, (t.dev.slice 0).byteAt 7)
    | _ => (0, 0)) = (8, 1) := by decide
/-- R334: a fence only rises. -/
theorem test_signal : ((((dev.signalFence 0 5).1.signalFence 0 3).1.fence 0).value) = 5 := by decide
/-- R327: the opcodes 0 and 0x11 are not defined. -/
theorem test_badOpcode : dev.refusal 47 [0x11] [] = some (nack 0x0101 0) ∧ dev.refusal 47 [0] [] = some (nack 0x0101 0) := by decide
/-- R42: the Tally steps forward by 5.3 ms, and the heartbeat fires once, with MISS = 5, and stays on its 1 ms grid. -/
theorem test_heartbeatMissed :
    let a := ((withAlarm 0 { Alarm.reset with armed := true, periodic := true, kind := 4, owner := 7, per := 1000000, cmp := 1000000 }
      { dev with tally := { dev.tally with now := 6300000 } }).fired 0).alarm 0
    a.miss = 5 ∧ a.cmp = 7000000 ∧ a.armed = true := by decide
/-- R13 to R15: the step takes the command at the front of the queue and leaves the rest. -/
theorem test_step : (match step { dev := dev, pending := [.pmVack, .stepDecision] } with
    | .next t => t.pending
    | _ => []) = [.stepDecision] := by decide

end Sys2Proof.Tests
end

section
/-! PROOF. Which commands complete, and what the moves to and from a core's registers and the host's register writes do (spec 00). -/

namespace Sys2Proof.Machine

/-! ### Commands and their units -/

/-- A command of meaning `r` runs exactly where its units exist, as `b` tells: it then changes the device by one function and
leaves the queue, and otherwise it faults. -/
def RunsIf (b : Bool) (r : State → Res0) : Prop :=
  ∃ f : Device → Device, ∀ s, r s = if b then .next { s with dev := f s.dev } else .fault .absentUnit

theorem runsIf_done (f : Device → Device) : RunsIf true fun s => done s f := ⟨f, fun _ => rfl⟩

theorem runsIf_onUnit (n i : Nat) (f : Device → Device) : RunsIf (decide (i < n)) fun s => onUnit n i s f := by
  refine ⟨f, fun s => ?_⟩
  by_cases h : i < n
  · simp [h, onUnit_next]
  · simp [h, onUnit_absent]

/-- A command that names a unit and, with it, a part of that unit or a second unit. -/
theorem runsIf_onUnit_of (n i : Nat) (f : Device → Device) (p : Prop) [Decidable p] :
    RunsIf (decide (i < n) && decide p) fun s => if p then onUnit n i s f else .fault .absentUnit := by
  obtain ⟨g, hg⟩ := runsIf_onUnit n i f
  refine ⟨g, fun s => ?_⟩
  by_cases h : p <;> simp [h, hg]

theorem runsIf_onSess (k : Option Nat) (f : Device → Device) :
    RunsIf (k.all (decide <| · < 4)) fun s => onSess k s f := ⟨f, fun _ => rfl⟩

theorem RunsIf.congr {a b : Bool} {r : State → Res0} (h : RunsIf a r) (e : a = b) : RunsIf b r := e ▸ h

/-- Every command runs exactly where the full configuration has its units. -/
theorem exec_runsIf (c : Instr) : RunsIf c.wf (exec c) := by
  cases c with
  | powerOnResetAssert | coldStart _ | coldStartReady _ | tallyStartTimeout | tcSerFrame _ _ | tcClkLoss | tallyDiverged
    | ptpSync _ | ptpFollowUp _ | ptpDelayResp _ | ptpAnnounce _ | ptpAnnounceTimeout | ptpSyncTimeout | vbatCalLoss
    | calendarAnchor | tlyNowLowRead | registerWrite _ _ _ | landBurst _ | windowTransferCheck _ | privateReadComplete _ _
    | cxlGo _ | cxlReadData _ _ | cxlSnoop | atsInvalidate _ _ _ | xltFlush _ | priResume | ucieLinkTraining _ _
    | functionLevelReset | jobRelease _ | jobResume _ | quantumExpiry _ | powerInterval _ | stepDecision | pmVack
    | vregTimeout | raiseSuppressEnd | lockstepRaise | supplyWarning _ | supplyHold | supplyNormal | supplyReset _
    | thermalSample _ | thermalMaxstepTick | thermalTripExit | entropySample _ | drbgReseed | watchdogExpiry _
    | shepherdRestartDone | deviceReset _ _ | deviceResetReady _ | mctpSetEndpointId _ | mctpGetEndpointId
    | mctpGetEndpointUuid | mctpGetVersionSupport | mctpGetMessageTypeSupport | mctpUnsupportedControl _ | i3cEntdaa _
    | i3cSetdasa _ | flashProgramComplete _ | flashEraseComplete _ | flashForcedTimer | flashLogEntry _ _
    | privateWriteComplete _ | ptpDelayReq _ | ptpTimeTransmit =>
    exact runsIf_done _
  | stepStart _ | musterDeadline _ | powerPhase _ | heartbeat _ | snapshot _ | hostEvent _ | bundleDispatch _ | nop _ _
    | pissue _ | penSlotWrite _ | pswap _ | pfold _ | pconv _ | pdrn _ | pldw _ | pldwComplete _ | pskarm _
    | skidMarkerArrive _ | skidBeatArrive _ | tpass _ | tpassComplete _ | tact _ | cbld _ | cbldComplete _ | vadd _ | vsub _
    | vmul _ | vfma _ | vmin _ | vmax _ | vabs _ | vneg _ | vand _ | vor _ | vxor _ | vshl _ | vshr _ | vsra _ | vcmp _
    | vsel _ | vcvt _ | vfun _ | vred _ | vperm _ | vext _ | vpack _ | vunpk _ | vsort _ | vtkclr _ | vtkadd _ | vtkget _
    | vsamp _ | viota _ | sld _ | sst _ | vld _ | vst _ | vlds _ | vsts _ | haul _ | chpush _ | chpop _ | imld _ | add _
    | sub _ | and _ | or _ | xor _ | shl _ | shr _ | sra _ | mul _ | min _ | max _ | minu _ | maxu _ | slt _ | sltu _ | br _
    | loop _ | mfc _ | mtc _ | msend _ | mrecv _ | muster _ | fsignal _ | fwait _ | kerf _ | coreYield _ | ysync _ | tly _
    | rand _ | trap _ | halt _ | pset _ | phase _ | semTicketTake _ | semRelease _ | chuteModeWrite _ | chainWrite _
    | stepAreaWrite _ | channelHaltAck _ | channelStop _ | mendWriteback _ | mergeDrainTimeout _ | patrolRead _
    | regionClearComplete _ | channelTrainingDone _ _ | atsCompletion _ _ | atsTimeout _ | prgResponse _ _
    | pageRequestTimeout _ | invalAck _ | invalTimeout _ | bindComplete _ _ | unbind _ | unbindComplete _
    | capsuleWrite _ _ _ | capsuleTake _ | creditRecordTimer _ | capsuleNop _ | runProgram _ | copy _ | intakeChunk _ _
    | signalFence _ | waitFence _ | objCreate _ | objRef _ | objUnref _ | yardLoad _ | windowOpen _ | windowClose _
    | seqJoin _ | seqLeave _ | hintPhase _ | musterSet _ _ | cancel _ | commandComplete _ | mirrorWriteFail _ _
    | ringWriteFail _ | msixModerationExpiry _ | evrCtlWrite _ _ | jobStart _ _ | accountNormalise _ | queuePark _
    | queueUnpark _ | queueRunnable _ | stepRelease _ | stepCtlWrite _ _ | droveHello _ _ | droveWrite _ _
    | droveReadReq _ _ | droveReadRsp _ _ | droveAck _ _ | droveNak _ _ | droveMusterArrive _ _ | droveMusterRelease _ _
    | frameForward _ _ | arpRequest _ _ | neighbourSolicitation _ _ | pfcPause _ | portLinkChange _ _ | helloSend _
    | ackSend _ | retransmit _ _ | sessionTimeout _ | grazeTimeout _ | tenantRemoveRequest _ | removalRetire _ _
    | removalScrub _ | removalEnd _ | traceWriteFail _ | hangReportTimeout _ | droverFault _ | paddockResetRequest _
    | paddockReset _ | paddockReady _ | spdmHeartbeatMissed _ | flashLineRead _ _ _ | flashProgram _ _ | flashErase _
    | flashRelocate _ _ | rxFrameDrop _ | pfcPauseExpiry _ | msixVectorUnmask _ =>
    exact runsIf_onUnit _ _ _
  | messageArrive _ _ | musterLeadRelease _ _ | haulEnd _ _ | channelIdle _ _ | haulBase _ _ | haulStride _ _ | haulLoop _ _
    | move _ _ | pieceIssue _ _ | tring _ _ | tnext _ _ | tput _ _ | tileCreditReturn _ _ | hpop _ _ | hpush _ _ | hbase _ _
    | wopen _ _ | wclose _ _ | skidmark _ _ | twait _ _ | chuteFreeSignal _ _ | yardUeRead _ _ _ | windowCloseComplete _ _
    | segmentZeroComplete _ _ | bind _ _ _ | semSetup _ _ _ | semTeardown _ _ | twaitReached _ _ =>
    exact runsIf_onUnit_of _ _ _ _
  | chutePushArrive src dst =>
    exact (runsIf_onUnit_of 12 dst _ (src.wf = true)).congr (by simp [Instr.wf, Bool.and_comm])
  | remapInstall core bank row word =>
    exact (runsIf_onUnit_of 12 core _ (bank < 256 ∧ row < 4096 ∧ word < 18)).congr (by simp [Instr.wf, Bool.and_assoc])
  | dzientRead _ _ | dzientNext _ _ | dzientWrite _ _ | layoutWrite _ _ | chanOnWrite _ _ | capSetWrite _ _
    | opRootWrite _ _ _ | trustWrite _ _ | bundleRelease _ _ _ | removeWrite _ _ | pdkResetWrite _ _ | devResetWrite _ _
    | snapSetWrite _ _ | bindWrite _ _ | routeWrite _ _ | stageWrite _ _ | commit _ _ _ | srcWrite _ _ | tcHzWrite _ _
    | calSet _ _ | spdmGetVersion _ _ | spdmGetCapabilities _ _ | spdmNegotiateAlgorithms _ _ | spdmGetDigests _ _
    | spdmGetCertificate _ _ | spdmChallenge _ _ | spdmGetMeasurements _ _ | spdmKeyExchange _ _ | spdmFinish _ _
    | spdmHeartbeat _ _ | spdmKeyUpdate _ _ | spdmEndSession _ _ | spdmChunkGet _ _ =>
    exact runsIf_onSess _ _

/-- Settles O57: by the cases of the command, each of which runs exactly where its units exist. -/
theorem completionRule : Obligations.CompletionRule := by
  unfold Obligations.CompletionRule
  intro c s
  obtain ⟨f, hf⟩ := exec_runsIf c
  rw [hf]
  exact ⟨fun h => ⟨{ s with dev := f s.dev }, by rw [if_pos h], rfl⟩, fun h => by simp [h]⟩

/-! ### MFC and MTC -/

namespace Device

variable {d : Device} {c n ch : Nat} {v : W64} {x : QInstr}

/-- MFC of a register other than PEN_SEM_TKT only reads it (R174). -/
theorem mfcBody_read {off : Nat} (ho : csrOf x.word = off) (h : off < 0x700 ∨ 0x780 ≤ off ∨ off % 8 ≠ 0) :
    mfcBody c x d = .ok (d.modSeq c fun q => q.setSop (fD x.word) (d.coreRead c off)) := by
  have hne : ¬ (0x700 ≤ off ∧ off < 0x780 ∧ off % 8 = 0) := by omega
  simp only [mfcBody, ho, if_neg hne]

/-- Read-only registers of a core: PEN_ID, PEN_FOLD, PEN_BUSY, PEN_TRG_STAT, PEN_SEQ_STAT and PEN_MUS_STAT (Tables 4.7, 5.8, 6.13
and 8.8). -/
def statusRegs : List Nat := [0x000, 0x010, 0x018, 0x210, 0x300, 0x508]

theorem coreWrite_status {off : Nat} (h : off ∈ statusRegs) : coreWrite c off v x d = .ok d := by
  simp only [statusRegs, List.mem_cons, List.not_mem_nil, or_false] at h
  rcases h with rfl | rfl | rfl | rfl | rfl | rfl <;> rfl

/-- PEN_CHT of Chute `n` (R252). -/
theorem coreWrite_chute (h : n < 16) : coreWrite c (0x480 + 8 * n) v x d = setChuteMode c n (bit v 0) d := by
  generalize hoff : 0x480 + 8 * n = off
  have hn : (off - 0x480) / 8 = n := by omega
  have hrange : 0x480 ≤ off ∧ off < 0x500 ∧ off % 8 = 0 := by omega
  have hpen : off ≠ 0x008 ∧ off ≠ 0x040 ∧ off ≠ 0x044 ∧ off ≠ 0x048 := by omega
  have htrough : off ≠ 0x200 ∧ off ≠ 0x208 := by omega
  have hchannel : off ≠ 0x400 ∧ off ≠ 0x440 ∧ off ≠ 0x408 ∧ off ≠ 0x448 := by omega
  simp [coreWrite, hn, hrange, hpen, htrough, hchannel]

theorem coreWrite_chain : coreWrite c 0x500 v x d = setChain c v x d := by simp [coreWrite]

theorem coreWrite_stepArea : coreWrite c 0x800 v x d = setStepArea c v x d := by simp [coreWrite]

/-- PEN_SKD_STAT of channel `ch` (R234). -/
theorem coreWrite_haltAck (h : ch < 2) (hv : bit v 2 = true) :
    coreWrite c (0x400 + 0x40 * ch) v x d = .ok (d.ackHalt c ch) := by
  obtain rfl | rfl : ch = 0 ∨ ch = 1 := by omega
  all_goals simp [coreWrite, hv]

/-- PEN_SKD_CTL of channel `ch` (R248). -/
theorem coreWrite_stop (h : ch < 2) (hv : bit v 0 = true) :
    coreWrite c (0x408 + 0x40 * ch) v x d = .ok (d.stopChannel c ch) := by
  obtain rfl | rfl : ch = 0 ∨ ch = 1 := by omega
  all_goals simp [coreWrite, hv]

/-- An empty Chute that no channel is bound to changes its mode (R252). -/
theorem setChuteMode_empty {b : Bool} (hm : (d.chute c n).handle ≠ b) (he : (d.chute c n).entries = [])
    (hb : (d.chute c n).bound = .none) : setChuteMode c n b d = .ok (d.setChute c n { d.chute c n with handle := b }) := by
  simp [setChuteMode, hm, he, hb]

/-- PEN_CHAIN takes LAST, or a NEXT that is a core of the job (R249). -/
theorem setChain_ok (h : bit v 4 = true ∨ ∃ j k, d.jobOf c = some (j, k) ∧ k.cores.contains (bits v 3 0) = true) :
    setChain c v x d = .ok (d.modCore c fun k => { k with chainNext := bits v 3 0, chainLast := bit v 4 }) := by
  unfold setChain
  rcases h with hlast | ⟨j, k, hj, hk⟩
  · simp [hlast]
  · simp only [hj, hk]
    simp

/-- PEN_STEP_AREA takes EN 0, or an aligned list inside a region of the job (R378). -/
theorem setStepArea_ok (h : bit v 31 = false ∨ (bits v 25 0 % 64 = 0 ∧ d.ownRange c (bits v 25 0) 8256 = true)) :
    setStepArea c v x d = .ok (d.modCore c fun k => { k with stepOff := bits v 25 0, stepEn := bit v 31 }) := by
  rcases h with hoff | ⟨halign, hown⟩
  · simp [setStepArea, hoff]
  · simp [setStepArea, halign, hown]

/-- Acknowledging the job's first halt frees its channel and drops the job's code (R234). -/
theorem ackHalt_first {j : Nat} {k : Job} (hs : (d.channel c ch).state = .halted)
    (hj : (d.setChannel c ch { d.channel c ch with state := .idle, halt := false }).jobOf c = some (j, k))
    (hk : k.haltAt = some (c, ch)) :
    d.ackHalt c ch =
      (d.setChannel c ch { d.channel c ch with state := .idle, halt := false }).setJob j { k with haltCode := 0 } := by
  unfold ackHalt
  simp only [hs, if_true, hj, hk]

/-- A move whose row is chosen by its CSR comes to issue when it heads the C queue. -/
theorem issueCsr_eq {op : Nat} {p : Nat → Bool} {body : Nat → QInstr → Device → Issue} (h : d.mayIssue c .c op x = true)
    (hp : p (csrOf x.word) = true) : issueCsr c op p body d = issue c .c op (body c) d := by
  obtain ⟨-, hq, -⟩ := mayIssue_iff.1 h
  obtain ⟨rest, hqc⟩ := List.head?_eq_some_iff.1 hq
  have hqc : (d.core c).sq.qc = x :: rest := hqc
  simp only [issueCsr, hqc, hp, if_true]

end Device

section
variable {s : State} {c off : Nat} {x : QInstr} {e : Device}

/-- MTC of a register that takes the value completes with the register written. -/
theorem exec_mtc_completed (h : s.dev.mayIssue c .c 0x13 x = true) (ho : bits x.word 43 32 = off)
    (hw : Device.coreWrite c off ((s.dev.regs c).sop (fA x.word)) x s.dev = .ok e) :
    exec (.mtc c) s = .next { s with dev := s.dev.completed c x e } :=
  Device.onUnit_completed h (by rw [Device.mtcBody, Device.csrOf, ho, hw]) rfl

/-- The same of an MTC whose row is chosen by its register. -/
theorem issueCsr_mtc_completed {p : Nat → Bool} (h : s.dev.mayIssue c .c 0x13 x = true) (ho : bits x.word 43 32 = off)
    (hp : p off = true) (hw : Device.coreWrite c off ((s.dev.regs c).sop (fA x.word)) x s.dev = .ok e) :
    onUnit 12 c s (Device.issueCsr c 0x13 p Device.mtcBody) = .next { s with dev := s.dev.completed c x e } := by
  have hc : c < 12 := (Device.mayIssue_iff.1 h).1
  rw [onUnit_next _ _ hc, Device.issueCsr_eq h (by rwa [Device.csrOf, ho]), ← onUnit_next _ _ hc]
  exact exec_mtc_completed h ho hw

end

/-- Settles O22: each move by what its register takes. -/
theorem coreRegisterResults : Obligations.CoreRegisterResults := by
  unfold Obligations.CoreRegisterResults
  refine ⟨fun s c x => ⟨fun h hoff => ?mfc, fun h => ?mtc⟩, fun s c x h => ⟨?chute, ?chain, ?stepArea, ?haltAck, ?stop⟩⟩
  case mfc => exact Device.onUnit_completed h (Device.mfcBody_read rfl hoff) rfl
  case mtc =>
    refine ⟨?fs20, ?flags, ?ctl, ?troughCtl, ?troughFlags, ?readOnly⟩
    case readOnly =>
      exact fun ho => exec_mtc_completed h rfl (Device.coreWrite_status (by simpa [Device.statusRegs] using ho))
    case fs20 | flags | ctl | troughCtl | troughFlags => exact fun ho => exec_mtc_completed h ho rfl
  case chute =>
    intro n hn ho hm he hb
    exact issueCsr_mtc_completed h ho (by simp; omega) ((Device.coreWrite_chute hn).trans (Device.setChuteMode_empty hm he hb))
  case chain =>
    exact fun ho hv => issueCsr_mtc_completed h ho rfl (Device.coreWrite_chain.trans (Device.setChain_ok hv))
  case stepArea =>
    exact fun ho hv => issueCsr_mtc_completed h ho rfl (Device.coreWrite_stepArea.trans (Device.setStepArea_ok hv))
  case haltAck =>
    intro ch hch ho hv hs e j k hj hk
    refine issueCsr_mtc_completed h ho (by simp; omega) ?_
    rw [Device.coreWrite_haltAck hch hv, Device.ackHalt_first hs hj hk]
  case stop =>
    intro ch hch ho hv
    exact issueCsr_mtc_completed h ho (by simp; omega) (Device.coreWrite_stop hch hv)

/-! ### REGISTER_WRITE -/

/-- The fields of the low half of a word (Table 0.3). -/
theorem bits_setWidth_32 (v : W64) {m l : Nat} (h : m < 32) : bits (v.setWidth 32 : W32) m l = bits v m l := by
  apply Nat.eq_of_testBit_eq
  intro i
  simp only [bits, BitVec.toNat_setWidth, Nat.testBit_mod_two_pow, Nat.testBit_shiftRight]
  by_cases hi : i < m + 1 - l
  · simp [hi, show l + i < 32 by omega]
  · simp [hi]

theorem bit_setWidth_32 (v : W64) {k : Nat} (h : k < 32) : bit (v.setWidth 32 : W32) k = bit v k := by
  simp [bit, h]

namespace Device

variable {d : Device} {off p : Nat} {v : W64}

/-- An 8-byte write replaces the 64-bit register at its offset (R8). -/
theorem writeReg_wide {old : Nat} {put : Nat → Device} (hup : d.mmioUp = true) (ha : off % 8 = 0) (hs : off < 0x100000)
    (hw : d.wideReg off = some (old, put)) : writeReg off 8 v d = put v.toNat := by
  have hoff : off / 8 * 8 = off := by omega
  simp [writeReg, hup, ha, hoff, hw, Nat.not_le.2 hs]

/-- A 4-byte write outside the Stall pages, where no 64-bit register stands, reaches the 32-bit register at its offset (R8). -/
theorem writeReg_narrow (hup : d.mmioUp = true) (ha : off % 4 = 0) (hs : off < 0x100000 ∨ 0x130000 ≤ off)
    (hw : d.wideReg (off / 8 * 8) = none) : writeReg off 4 v d = d.narrowReg off (v.setWidth 32) := by
  have hstall : ¬ (0x100000 ≤ off ∧ off < 0x130000) := by omega
  simp [writeReg, hup, ha, hw, hstall]

/-- The base of ring `n` keeps its value while the ring is enabled (R340). -/
theorem wideReg_ringBase {n : Nat} (hn : n < 64) : d.wideReg (0x1000 + 0x20 * n) =
    some ((d.ring n).base, fun v => if (d.ring n).en then d else d.setRing n { d.ring n with base := alignDva 4096 v }) := by
  have hlt : 0x1000 + 0x20 * n < 0x1800 := by omega
  simp [wideReg, hlt, show 0x1000 + 0x20 * n ≠ 0x20 by omega, show 0x1000 + 0x20 * n ≠ 0x40 by omega]

/-- The index of ring `n` up to which the host has read (R340). -/
theorem wideReg_ringCons {n : Nat} (hn : n < 64) : d.wideReg (0x1018 + 0x20 * n) =
    some ((d.ring n).cons, fun v => d.setRing n { d.ring n with cons := v % 2 ^ 64 }) := by
  have hidx : (0x1018 + 0x20 * n - 0x1000) / 0x20 = n := by omega
  have hmod : (0x1018 + 0x20 * n - 0x1000) % 0x20 = 0x18 := by omega
  have hrange : 0x1000 ≤ 0x1018 + 0x20 * n ∧ 0x1018 + 0x20 * n < 0x1800 := by omega
  simp [wideReg, hidx, hmod, hrange, show 0x1018 + 0x20 * n ≠ 0x20 by omega, show 0x1018 + 0x20 * n ≠ 0x40 by omega]

/-- The 64-bit registers all stand below 0x4000. -/
theorem wideReg_high (h : 0x4000 ≤ off) : d.wideReg off = none := by
  have h20 : off ≠ 0x20 := by omega
  have h40 : off ≠ 0x40 := by omega
  have hring : ¬ off < 0x1800 := by omega
  have hvec : ¬ off < 0x4000 := by omega
  have hstall : ¬ off < 0x280 := by omega
  simp [wideReg, h20, h40, hring, hvec, hstall]

/-- A write in the page of Paddock `p` reaches its Drover (Table 11.7). -/
theorem narrowReg_drover {o : Nat} {w : W32} (hp : p < 6) (ho : o < 0x10000) :
    d.narrowReg (0x200000 + 0x10000 * p + o) w = d.writeDrover p o w := by
  generalize hoff : 0x200000 + 0x10000 * p + o = off
  have hpage : (off - 0x200000) / 0x10000 = p := by omega
  have hin : off % 0x10000 = o := by omega
  have hrange : 0x200000 ≤ off ∧ off < 0x260000 := by omega
  have hring : ¬ off < 0x1800 := by omega
  have hvec : ¬ off < 0x4000 := by omega
  simp [narrowReg, hpage, hin, hrange, hring, hvec, show off ≠ 0x18 by omega, show off ≠ 0x28 by omega,
    show off ≠ 0x30 by omega, show off ≠ 0x48 by omega, show off ≠ 0x6000 by omega]

/-- A 4-byte write in the page of Paddock `p` reaches its Drover. -/
theorem writeReg_drover {o : Nat} (hup : d.mmioUp = true) (hp : p < 6) (ho : o < 0x10000) (ha : o % 4 = 0) :
    writeReg (0x200000 + 0x10000 * p + o) 4 v d = d.writeDrover p o (v.setWidth 32) := by
  rw [writeReg_narrow hup (by omega) (.inr (by omega)) (wideReg_high (by omega)), narrowReg_drover hp ho]

/-- PDK_DRV_CTL of a Paddock that runs takes a quantum of 10 to 10,000 (R355). -/
theorem writeDrover_ctl {w : W32} (hpr : d.pdkPresent p = true) (hr : (d.pdk p).rst = .running) (hlo : 10 ≤ bits w 31 16)
    (hhi : bits w 31 16 ≤ 10000) :
    d.writeDrover p 0x1000 w = d.modPdk p fun k => { k with preemptEn := bit w 0, quantum := bits w 31 16 } := by
  simp [writeDrover, hpr, hr, hlo, hhi]

/-- PDK_SHARE of group `g` of a Paddock that runs (R359). -/
theorem writeDrover_share {g : Nat} {w : W32} (hpr : d.pdkPresent p = true) (hr : (d.pdk p).rst = .running) (hg : g < 64) :
    d.writeDrover p (0x1040 + 4 * g) w = d.writeShare p g w := by
  have hrange : 0x1040 + 4 * g < 0x1140 := by omega
  simp [writeDrover, hpr, hr, hrange, show 0x1040 + 4 * g ≠ 0x1000 by omega]

/-- PDK_SHARE takes a weight other than 0 and the foreground bit, and leaves the account. -/
theorem share_writeShare {g : Nat} {w : W32} (hw : bits w 7 0 ≠ 0) :
    (d.writeShare p g w).share p g = { d.share p g with weight := bits w 7 0, fg := bit w 8 } := by
  simp [writeShare, share, hw]

end Device

/-- REGISTER_WRITE completes with the write of its register. -/
theorem exec_registerWrite (off width : Nat) (v : W64) (s : State) :
    exec (.registerWrite off width v) s = .next { s with dev := s.dev.writeReg off width v } := rfl

/-- Settles O24: each register by the rule for the part of the map it stands in. -/
theorem registerWriteResults : Obligations.RegisterWriteResults := by
  unfold Obligations.RegisterWriteResults
  intro s v hup
  refine ⟨?drvCtx, ?qtab, ?ringBase, ?ringCons, ?drover⟩
  case drvCtx => rw [exec_registerWrite, Device.writeReg_narrow hup (by decide) (by decide) rfl]; rfl
  case qtab => rw [exec_registerWrite, Device.writeReg_wide hup (by decide) (by decide) rfl]; rfl
  case ringBase =>
    intro n hn off hoff hen
    rw [exec_registerWrite, hoff, Device.writeReg_wide hup (by omega) (by omega) (Device.wideReg_ringBase hn)]
    simp only [hen, alignDva]
    rfl
  case ringCons =>
    intro n hn off hoff
    rw [exec_registerWrite, hoff, Device.writeReg_wide hup (by omega) (by omega) (Device.wideReg_ringCons hn),
      Nat.mod_eq_of_lt v.isLt]
  case drover =>
    intro p hp hpr hr
    refine ⟨fun hlo hhi => ?ctl, fun g hg hw => ?share⟩
    case ctl =>
      rw [exec_registerWrite, show 0x201000 + 0x10000 * p = 0x200000 + 0x10000 * p + 0x1000 by omega,
        Device.writeReg_drover hup hp (by decide) (by decide),
        Device.writeDrover_ctl hpr hr (by rwa [bits_setWidth_32 v (by decide)]) (by rwa [bits_setWidth_32 v (by decide)]),
        bits_setWidth_32 v (by decide), bit_setWidth_32 v (by decide)]
    case share =>
      refine ⟨_, exec_registerWrite _ _ _ _, ?_⟩
      have hoff : 0x201040 + 0x10000 * p + 4 * g = 0x200000 + 0x10000 * p + (0x1040 + 4 * g) := by omega
      rw [hoff, Device.writeReg_drover hup hp (by omega) (by omega), Device.writeDrover_share hpr hr hg,
        Device.share_writeShare (by rwa [bits_setWidth_32 v (by decide)]), bits_setWidth_32 v (by decide),
        bit_setWidth_32 v (by decide)]
      exact ⟨rfl, rfl, rfl⟩

end Sys2Proof.Machine
end

section
/-! PROOF. The Tally, the alarms and the start, the dictionary's writes, and what every step keeps (spec 02, 16, 18). -/

namespace Sys2Proof.Machine

/-! ### What every step keeps -/

/-- A command of meaning `r` leaves a later device whenever it completes. -/
def Advances (r : State → Res0) : Prop := ∀ ⦃s t : State⦄, r s = .next t → Device.Later s.dev t.dev

section
variable {n i c ch op : Nat} {sl : Slot} {f : Device → Device}

theorem done_advances (hf : ∀ {a : Device} d, a.Later d → a.Later (f d)) : Advances fun s => done s f :=
  fun _ _ h => done_later (fun d => hf d (.refl d)) h

theorem onUnit_advances (hf : ∀ {a : Device} d, a.Later d → a.Later (f d)) : Advances fun s => onUnit n i s f :=
  fun _ _ h => onUnit_later (fun d => hf d (.refl d)) h

theorem onChannel_advances (hf : ∀ {a : Device} d, a.Later d → a.Later (f d)) : Advances fun s => onChannel c ch s f :=
  fun _ _ h => onChannel_later (fun d => hf d (.refl d)) h

theorem onSess_advances {k : Option Nat} (hf : ∀ {a : Device} d, a.Later d → a.Later (f d)) :
    Advances fun s => onSess k s f :=
  fun _ _ h => onSess_later (fun d => hf d (.refl d)) h

/-- A command that names a unit and, with it, a part of that unit or a second unit. -/
theorem onUnit_of_advances {p : Prop} [Decidable p] (hf : ∀ {a : Device} d, a.Later d → a.Later (f d)) :
    Advances fun s => if p then onUnit n i s f else .fault .absentUnit := by
  intro s t h
  split at h
  · exact onUnit_advances hf h
  · cases h

/-- An instruction of a core. -/
theorem issue_advances {body : QInstr → Device → Issue} (hb : ∀ {a : Device} x d, a.Later d → Issue.Later a (body x d)) :
    Advances fun s => onUnit 12 c s (Device.issue c sl op body) :=
  onUnit_advances fun d h => Device.issue_later _ _ _ _ d (fun x e => hb x e) h

/-- An instruction of a Skidder channel. -/
theorem haulStep_advances {body : W64 → Channel → Device → Device}
    (hb : ∀ {a : Device} w k d, a.Later d → a.Later (body w k d)) :
    Advances fun s => onChannel c ch s (Device.haulStep c ch op body) :=
  onChannel_advances fun d h => Device.haulStep_later _ _ _ _ d (fun w k e => hb w k e) h

/-- A dictionary write. -/
theorem dzWrite_advances {mine : Nat → Bool} {apply : Nat → Nat → Nat → List Byte → Device → Device.Written} {ses : Option Nat}
    {r : DzRequest} (hb : ∀ {a : Device} k i n b d, a.Later d → SumLater a (apply k i n b d)) :
    Advances fun s => onSess ses s (Device.dzWrite mine apply ses r) :=
  onSess_advances fun d h => Device.dzWrite_later _ _ _ _ d (fun k i n b e => hb k i n b e) h

/-- A frame of the Drove that arrives. -/
theorem arrive_advances {port : Nat} {k : FrameType} {g : DroveFrame} {body : Device → Nat → Device}
    (hb : ∀ {a : Device} d b, a.Later d → a.Later (body d b)) :
    Advances fun s => onUnit 2 port s (Device.arrive port k g body) :=
  onUnit_advances fun d h => Device.arrive_later _ _ _ _ d (fun e b => hb e b) h

/-- A move whose row is chosen by its CSR. -/
theorem issueCsr_advances {p : Nat → Bool} {body : Nat → QInstr → Device → Issue}
    (hb : ∀ {a : Device} c x d, a.Later d → Issue.Later a (body c x d)) :
    Advances fun s => onUnit 12 c s (Device.issueCsr c op p body) :=
  onUnit_advances fun d h => Device.issueCsr_later _ _ _ _ d (fun c x e => hb c x e) h

/-- VTKADD and VTKGET trap where the core holds no top-K memory of their type (R178). -/
theorem execVtkadd_advances : Advances (execVtkadd c) :=
  issue_advances fun _ d h => by
    split
    · exact .trap
    · exact Issue.Later.ite .trap (.ok (Device.modCore_later d _ _ h))

theorem execVtkget_advances : Advances (execVtkget c) :=
  issue_advances fun _ d h => by
    split
    · exact .trap
    · exact Issue.Later.ite .trap (.ok (Device.modSeq_later _ _ _ (Device.tookFree_later d h)))

end

/-- Every command but a power-on reset and a cold start leaves a later device. -/
theorem exec_advances (c : Instr) (hp : c ≠ .powerOnResetAssert) (hs : ∀ b, c ≠ .coldStart b) : Advances (exec c) := by
  cases c with
  | powerOnResetAssert => exact absurd rfl hp
  | coldStart b => exact absurd rfl (hs b)
  | chpush _ => exact issue_advances (chpushBody_later _)
  | chpop _ => exact issue_advances (chpopBody_later _)
  | msend _ => exact issue_advances (msendBody_later _)
  | mrecv _ => exact issue_advances (mrecvBody_later _)
  | pissue _ => exact issue_advances (pissueBody_later _)
  | penSlotWrite _ => exact onUnit_advances (penSlotWrite_later _)
  | pswap _ => exact issue_advances (pswapBody_later _)
  | pfold _ => exact issue_advances (pfoldBody_later _)
  | pconv _ => exact issue_advances (pconvBody_later _)
  | pdrn _ => exact issue_advances (pdrnBody_later _)
  | pldw _ => exact issue_advances (pldwBody_later _)
  | pldwComplete _ => exact onUnit_advances (pldwComplete_later _)
  | pskarm _ => exact issue_advances (pskarmBody_later _)
  | skidMarkerArrive _ => exact onUnit_advances (Device.skidMarker_later _)
  | skidBeatArrive _ => exact onUnit_advances (Device.skidBeat_later _)
  | windowTransferCheck _ => exact done_advances (Device.windowCheck_later _)
  | landBurst _ => exact done_advances (Device.landPiece_later _)
  | windowCloseComplete _ _ => exact onUnit_of_advances (Device.closeDone_later _ _)
  | haul _ => exact issue_advances (haulBody_later _)
  | haulEnd _ _ => exact haulStep_advances (Device.haulEndOp_later _ _)
  | channelIdle _ _ => exact onChannel_advances (Device.channelIdle_later _ _)
  | haulBase _ _ => exact haulStep_advances (Device.haulBaseOp_later _ _)
  | haulStride _ _ => exact haulStep_advances (Device.haulStrideOp_later _ _)
  | haulLoop _ _ => exact haulStep_advances (Device.haulLoopOp_later _ _)
  | move _ _ => exact haulStep_advances (Device.haulMoveOp_later _ _)
  | pieceIssue _ _ => exact onChannel_advances (Device.issuePiece_later _ _)
  | tring _ _ => exact haulStep_advances (Device.haulTringOp_later _ _)
  | tnext _ _ => exact haulStep_advances (Device.haulTnextOp_later _ _)
  | tput _ _ => exact haulStep_advances (Device.haulTputOp_later _ _)
  | tileCreditReturn _ _ => exact onChannel_advances (Device.creditReturn_later _ _)
  | hpop _ _ => exact haulStep_advances (Device.haulHpopOp_later _ _)
  | hpush _ _ => exact haulStep_advances (Device.haulHpushOp_later _ _)
  | hbase _ _ => exact haulStep_advances (Device.haulHbaseOp_later _ _)
  | wopen _ _ => exact haulStep_advances (Device.haulWopenOp_later _ _)
  | wclose _ _ => exact haulStep_advances (Device.haulWcloseOp_later _ _)
  | skidmark _ _ => exact haulStep_advances (Device.haulSkidmarkOp_later _ _)
  | twait _ _ => exact haulStep_advances (Device.haulTwaitOp_later _ _)
  | twaitReached _ _ => exact haulStep_advances (Device.haulTwaitReached_later _ _)
  | privateReadComplete _ _ => exact done_advances (Device.privRead_later _ _)
  | privateWriteComplete _ => exact done_advances (Device.privWritten_later _)
  | segmentZeroComplete _ _ => exact onUnit_of_advances (Device.segZeroed_later _ _)
  | cxlGo _ => exact done_advances (Device.hostGo_later _)
  | cxlReadData _ _ => exact done_advances (Device.hostData_later _ _)
  | atsCompletion _ _ => exact onUnit_advances (Device.atsDone_later _ _)
  | atsTimeout _ => exact onUnit_advances (Device.atsLate_later _)
  | prgResponse _ _ => exact onUnit_advances (Device.prgDone_later _ _)
  | pageRequestTimeout _ => exact onUnit_advances (Device.prgLate_later _)
  | atsInvalidate _ _ _ => exact done_advances (Device.invalidate_later _ _ _)
  | invalAck _ => exact onUnit_advances (Device.invalAck_later _)
  | invalTimeout _ => exact onUnit_advances (Device.invalLate_later _)
  | xltFlush _ => exact done_advances (Device.flushXlt_later _)
  | jobStart _ _ => exact onUnit_advances (Device.startJob_later _ _)
  | jobRelease _ => exact done_advances (Device.releaseJob_later _)
  | jobResume _ => exact done_advances (Device.resumeJob_later _)
  | quantumExpiry _ => exact done_advances (Device.quantumEnds_later _)
  | accountNormalise _ => exact onUnit_advances (Device.normalise_later _)
  | semSetup _ _ _ => exact onUnit_of_advances (Device.setupSem_later _ _ _)
  | semTeardown _ _ => exact onUnit_of_advances (Device.dropSem_later _ _)
  | stepCtlWrite _ _ => exact onUnit_advances (Device.writeStepCtl_later _ _)
  | stepStart _ => exact onUnit_advances (Device.stepAlarm_later _)
  | bind _ _ _ => exact onUnit_of_advances (Device.bindStall_later _ _ _)
  | bindComplete _ _ => exact onUnit_advances (Device.boundStall_later _ _)
  | unbind _ => exact onUnit_advances (Device.unbindStall_later _)
  | unbindComplete _ => exact onUnit_advances (Device.unboundStall_later _)
  | capsuleWrite _ _ _ => exact onUnit_advances (Device.capsuleWrite_later _ _ _)
  | queuePark _ => exact onUnit_advances (Device.parkQueue_later _)
  | queueUnpark _ => exact onUnit_advances (Device.unparkStall_later _)
  | queueRunnable _ => exact onUnit_advances (Device.setRunnable_later _)
  | evrCtlWrite _ _ => exact onUnit_advances (Device.writeEvrCtl_later _ _)
  | ringWriteFail _ => exact onUnit_advances (Device.failRing_later _)
  | msixModerationExpiry _ => exact onUnit_advances (Device.moderationEnd_later _)
  | msixVectorUnmask _ => exact onUnit_advances (Device.unmask_later _)
  | mirrorWriteFail _ _ => exact onUnit_advances (Device.mirrorFail_later _ _)
  | tallyStartTimeout => exact done_advances Device.tallyTimeout_later
  | tcSerFrame _ _ => exact done_advances (Device.tcFrame_later _ _)
  | tcClkLoss => exact done_advances Device.clkLoss_later
  | tallyDiverged => exact done_advances Device.diverged_later
  | ptpSync _ => exact done_advances (Device.ptpSync_later _)
  | ptpFollowUp _ => exact done_advances (Device.ptpFollowUp_later _)
  | ptpDelayResp _ => exact done_advances (Device.ptpDelayResp_later _)
  | ptpAnnounce _ => exact done_advances (Device.ptpAnnounce_later _)
  | ptpAnnounceTimeout => exact done_advances Device.announceLost_later
  | ptpSyncTimeout => exact done_advances Device.syncLost_later
  | ptpDelayReq _ => exact done_advances (Device.delayReq_later _)
  | ptpTimeTransmit => exact done_advances Device.timeTransmit_later
  | vbatCalLoss => exact done_advances Device.calendarLost_later
  | sld _ => exact issue_advances (sldBody_later _)
  | sst _ => exact issue_advances (sstBody_later _)
  | vld _ => exact issue_advances (vldBody_later _)
  | vst _ => exact issue_advances (vstBody_later _)
  | vlds _ => exact issue_advances (vldsBody_later _)
  | vsts _ => exact issue_advances (vstsBody_later _)
  | imld _ => exact issue_advances (imldBody_later _)
  | tpass _ => exact issue_advances (tpassBody_later _)
  | tpassComplete _ => exact onUnit_advances (tpassComplete_later _)
  | tact _ => exact issue_advances (tactBody_later _)
  | cbld _ => exact issue_advances (cbldBody_later _)
  | cbldComplete _ => exact onUnit_advances (cbldComplete_later _)
  | yardUeRead _ _ _ => exact onUnit_of_advances (Device.ueRead_later _ _ _)
  | mendWriteback _ => exact onUnit_advances (Device.mendBack_later _)
  | mergeDrainTimeout _ => exact onUnit_advances (Device.drainOldest_later _)
  | patrolRead _ => exact onUnit_advances (Device.patrol_later _)
  | remapInstall _ _ _ _ => exact onUnit_of_advances (Device.softRemap_later _ _ _ _)
  | regionClearComplete _ => exact onUnit_advances (Device.clearDone_later _)
  | coldStartReady _ => exact done_advances (Device.startReady_later _)
  | runProgram _ => exact onUnit_advances (Device.readyJob_later _)
  | intakeChunk _ _ => exact onUnit_advances (Device.takeChunk_later _ _)
  | commandComplete _ => exact onUnit_advances (Device.completeNext_later _)
  | add _ | sub _ | and _ | or _ | xor _ | shl _ | shr _ | sra _ | mul _ | min _ | max _ | minu _ | maxu _ | slt _
    | sltu _ | pset _ | vadd _ | vsub _ | vmul _ | vfma _ | vmin _ | vmax _ | vabs _ | vneg _ | vand _ | vor _ | vxor _
    | vshl _ | vshr _ | vsra _ | vcmp _ | vsel _ | vcvt _ | vfun _ | vperm _ | vext _ | vpack _ | vunpk _ | vsort _
    | viota _ =>
    exact issue_advances (Device.regOp_later _ _)
  | bundleDispatch _ => exact onUnit_advances (Device.dispatch_later _)
  | nop _ _ => exact onUnit_advances (nopStep_later _ _)
  | br _ => exact issue_advances (brBody_later _)
  | loop _ => exact issue_advances (loopBody_later _)
  | ysync _ => exact issue_advances (ysyncBody_later _)
  | halt _ => exact issue_advances (haltBody_later _)
  | kerf _ => exact issue_advances (kerfBody_later _)
  | coreYield _ => exact onUnit_advances (Device.yieldCore_later _)
  | muster _ => exact onUnit_advances (musterStep_later _)
  | musterLeadRelease _ _ => exact onUnit_of_advances (leadRelease_later _ _)
  | musterDeadline _ => exact onUnit_advances (musterDeadline_later _)
  | fsignal _ => exact issue_advances (fsignalBody_later _)
  | fwait _ => exact issue_advances (fwaitBody_later _)
  | phase _ => exact issue_advances (phaseBody_later _)
  | mfc _ => exact issue_advances (Device.mfcBody_later _)
  | mtc _ => exact issue_advances (Device.mtcBody_later _)
  | semTicketTake _ => exact issueCsr_advances Device.mfcBody_later
  | semRelease _ | chuteModeWrite _ | chainWrite _ | stepAreaWrite _ | channelHaltAck _ | channelStop _ =>
    exact issueCsr_advances Device.mtcBody_later
  | flashLineRead _ _ _ => exact onUnit_advances (Device.readLine_later _ _ _)
  | flashProgram _ _ => exact onUnit_advances (Device.flashProgram_later _ _)
  | flashProgramComplete _ => exact done_advances (Device.programEnds_later _)
  | flashErase _ => exact onUnit_advances (Device.flashErase_later _)
  | flashEraseComplete _ => exact done_advances (Device.eraseEnds_later _)
  | flashForcedTimer => exact done_advances Device.forcedTimer_later
  | flashRelocate _ _ => exact onUnit_advances (Device.relocate_later _ _)
  | flashLogEntry _ _ => exact done_advances (Device.logEntry_later _ _)
  | powerPhase _ => exact onUnit_advances (Device.phaseAlarm_later _)
  | hostEvent _ => exact onUnit_advances (Device.hostEvent_later _)
  | powerInterval _ => exact done_advances (Device.intervalEnds_later _)
  | stepDecision => exact done_advances Device.decideStep_later
  | pmVack => exact done_advances Device.vackRises_later
  | vregTimeout => exact done_advances Device.vregLate_later
  | lockstepRaise => exact done_advances Device.commonRaise_later
  | grazeTimeout _ => exact onUnit_advances (Device.grazeEnds_later _)
  | supplyWarning _ => exact done_advances (Device.supplyWarns_later _)
  | supplyHold => exact done_advances Device.supplyHolds_later
  | supplyNormal => exact done_advances Device.supplyNormal_later
  | supplyReset _ => exact done_advances (Device.supplyResets_later _)
  | thermalSample _ => exact done_advances (Device.senseHeat_later _)
  | thermalMaxstepTick => exact done_advances Device.maxStepTick_later
  | thermalTripExit => exact done_advances Device.tripEnds_later
  | heartbeat _ => exact onUnit_advances (Device.heartbeat_later _)
  | hangReportTimeout _ => exact onUnit_advances (Device.hangUnreported_later _)
  | droverFault _ => exact onUnit_advances (Device.droverFault_later _)
  | watchdogExpiry _ => exact done_advances (Device.watchdog_later _)
  | shepherdRestartDone => exact done_advances Device.restartDone_later
  | paddockResetRequest _ => exact onUnit_advances (Device.askReset_later _)
  | paddockReset _ => exact onUnit_advances (Device.resetPdk_later _)
  | paddockReady _ => exact onUnit_advances (Device.pdkReady_later _)
  | deviceReset _ _ => exact done_advances (Device.resetDevice_later _ _)
  | deviceResetReady _ => exact done_advances (Device.readyAfterReset_later _)
  | channelTrainingDone _ _ => exact onUnit_advances (Device.trainingDone_later _ _)
  | ucieLinkTraining _ _ => exact done_advances (Device.linkTrained_later _ _)
  | entropySample _ => exact done_advances (Device.entropySample_later _)
  | drbgReseed => exact done_advances Device.reseed_later
  | removalRetire _ _ => exact onUnit_advances (Device.removalRetire_later _ _)
  | removalScrub _ => exact onUnit_advances (Device.removalScrub_later _)
  | removalEnd _ => exact onUnit_advances (Device.removalEnd_later _)
  | traceWriteFail _ => exact onUnit_advances (Device.traceFails_later _)
  | snapshot _ => exact onUnit_advances (Device.snapshot_later _)
  | dzientRead _ _ => exact onSess_advances (Device.dzRead_later _ _)
  | dzientNext _ _ => exact onSess_advances (Device.dzNext_later _ _)
  | dzientWrite _ _ => exact dzWrite_advances fun _ _ _ _ _ h => Device.applyOther_later _ _ _ _ _ h
  | layoutWrite _ _ => exact dzWrite_advances fun _ _ _ _ _ h => Device.applyLayout_later _ _ _ h
  | chanOnWrite _ _ => exact dzWrite_advances fun _ _ _ _ _ h => Device.applyChanOn_later _ _ _ _ h
  | capSetWrite _ _ => exact dzWrite_advances fun _ _ _ _ _ h => Device.applyCap_later _ _ _ h
  | opRootWrite _ _ _ => exact dzWrite_advances fun _ _ _ _ _ h => Device.applyRoot_later _ _ _ _ _ h
  | trustWrite _ _ => exact dzWrite_advances fun _ _ _ _ _ h => Device.applyTrust_later _ _ _ _ h
  | bundleRelease _ _ _ => exact dzWrite_advances fun _ _ _ _ _ h => Device.applyBundle_later _ _ _ _ _ h
  | removeWrite _ _ => exact dzWrite_advances fun _ _ _ _ _ h => Device.applyRemove_later _ _ _ h
  | pdkResetWrite _ _ => exact dzWrite_advances fun _ _ _ _ _ h => Device.applyPdkReset_later _ _ _ h
  | devResetWrite _ _ => exact dzWrite_advances fun _ _ _ _ _ h => Device.applyDevReset_later _ _ h
  | snapSetWrite _ _ => exact dzWrite_advances fun _ _ _ _ _ h => Device.applySnap_later _ _ _ _ h
  | bindWrite _ _ => exact dzWrite_advances fun _ _ _ _ _ h => Device.applyBind_later _ _ _ _ h
  | routeWrite _ _ => exact dzWrite_advances fun _ _ _ _ _ h => Device.applyRoute_later _ _ _ _ h
  | stageWrite _ _ => exact onSess_advances (Device.writeStage_later _ _)
  | commit _ _ _ => exact dzWrite_advances fun _ _ _ _ _ h => Device.applyCommit_later _ _ _ _ h
  | srcWrite _ _ => exact dzWrite_advances fun _ _ _ _ _ h => Device.applySrc_later _ _ _ h
  | tcHzWrite _ _ => exact dzWrite_advances fun _ _ _ _ _ h => Device.applyTcHz_later _ _ _ h
  | calSet _ _ => exact dzWrite_advances fun _ _ _ _ _ h => Device.applyCal_later _ _ h
  | frameForward _ _ => exact onUnit_advances (Device.forward_later _ _)
  | portLinkChange _ _ => exact onUnit_advances (Device.linkChange_later _ _)
  | helloSend _ => exact onUnit_advances (Device.hello_later _)
  | ackSend _ => exact onUnit_advances (Device.ackNow_later _)
  | retransmit _ _ => exact onUnit_advances (Device.retransmit_later _ _)
  | sessionTimeout _ => exact onUnit_advances (Device.timeoutSession_later _)
  | registerWrite _ _ _ => exact done_advances (Device.writeReg_later _ _ _)
  | spdmGetCertificate _ _ => exact onSess_advances (Device.getCertificate_later _ _)
  | spdmGetMeasurements _ _ => exact onSess_advances (Device.getMeasurements_later _ _)
  | spdmKeyExchange _ _ => exact onSess_advances (Device.keyExchange_later _ _)
  | spdmFinish _ _ => exact onSess_advances (Device.finish_later _ _)
  | spdmHeartbeat _ _ => exact onSess_advances (Device.heartbeatMsg_later _ _)
  | spdmKeyUpdate _ _ => exact onSess_advances (Device.keyUpdate_later _ _)
  | spdmEndSession _ _ => exact onSess_advances (Device.endSessionMsg_later _ _)
  | spdmChunkGet _ _ => exact onSess_advances (Device.chunkGet_later _ _)
  | spdmHeartbeatMissed _ => exact onUnit_advances (Device.beatMissed_later _)
  | mctpSetEndpointId _ => exact done_advances (Device.setEid_later _)
  | i3cEntdaa _ | i3cSetdasa _ => exact done_advances (Device.assignAddr_later _)
  | capsuleNop _ | objCreate _ | objRef _ | objUnref _ | windowOpen _ | windowClose _ | seqJoin _ | seqLeave _ | hintPhase _
    | musterSet _ _ => exact onUnit_advances (Device.instant_later _ _ _ _)
  | capsuleTake _ | cancel _ => exact onUnit_advances fun d h => Device.takeIf_later d _ _ _ h
  | copy _ | yardLoad _ =>
    exact onUnit_advances fun d h => Device.startNext_later d _ _ _ h fun e _ k => Device.advanceCopy_later e _ _ k
  | signalFence _ => exact onUnit_advances fun d h => Device.startNext_later d _ _ _ h fun e _ k => Device.signalNow_later _ e _ k
  | waitFence _ =>
    exact onUnit_advances fun d h => Device.releaseWait_later _ _ (Device.startNext_later d _ _ _ h fun _ _ k => k)
  | creditRecordTimer _ => exact onUnit_advances fun d h => Device.Later.ite (Device.postCredit_later d _ h) h
  | messageArrive _ _ => exact onUnit_of_advances fun d h => Device.pushArrives_later d _ _ _ h
  | chutePushArrive _ _ => exact onUnit_of_advances fun d h => Device.pushArrives_later d _ _ _ h
  | chuteFreeSignal _ _ => exact onUnit_of_advances fun d h => Device.freeSignal_later d _ _ h
  | cxlSnoop => exact done_advances fun _ h => Device.emit_later _ h
  | priResume => exact done_advances fun d h => Device.modXlt_later d _ h
  | raiseSuppressEnd => exact done_advances fun d h => Device.modPower_later d _ h
  | tlyNowLowRead => exact done_advances fun _ h => h.same rfl rfl rfl rfl rfl rfl rfl rfl
  | calendarAnchor => exact done_advances fun d h => Device.Later.ite (Device.anchor_later d h) h
  | stepRelease _ =>
    exact onUnit_advances fun d h => Device.Later.ite h (Device.clearForStep_later _ _ (Device.releaseStep_later d _ h))
  | functionLevelReset => exact done_advances fun d h => Device.requestDevReset_later d _ h
  | tenantRemoveRequest _ => exact onUnit_advances fun d h => Device.requestRemoval_later d _ h
  | droveWrite _ _ | droveReadReq _ _ | droveReadRsp _ _ | droveNak _ _ | droveMusterArrive _ _ | droveMusterRelease _ _ =>
    exact arrive_advances fun d b h => Device.takeSequenced_later d b _ h
  | droveHello _ _ => exact arrive_advances (Device.takeHello_later _)
  | droveAck _ _ => exact arrive_advances (Device.takeAckFrame_later _)
  | rxFrameDrop _ => exact onUnit_advances fun d h => Device.dropFrame_later d _ h
  | arpRequest _ _ | neighbourSolicitation _ _ => exact onUnit_advances fun d h => Device.answerAt_later _ _ _ d h
  | pfcPause _ => exact onUnit_advances fun d h => Device.Later.ite (Device.modPort_later d _ _ h) h
  | pfcPauseExpiry _ => exact onUnit_advances fun d h => Device.flushPort_later _ _ (Device.modPort_later d _ _ h)
  | spdmGetVersion _ _ | spdmGetCapabilities _ _ | spdmNegotiateAlgorithms _ _ =>
    exact onSess_advances (Device.spdmStep_later _ _ _ _ _)
  | spdmGetDigests _ _ =>
    exact onSess_advances fun d h => Device.spdm_later _ _ _ _ _ d (fun e k => Device.spdmAnswer_later e _ _ k) h
  | spdmChallenge _ _ =>
    exact onSess_advances fun d h => Device.onSlot_later _ _ _ _ d (fun e k => Device.spdmAnswer_later e _ _ k) h
  | mctpGetEndpointId | mctpGetEndpointUuid | mctpGetVersionSupport | mctpGetMessageTypeSupport | mctpUnsupportedControl _ =>
    exact done_advances fun d h => Device.mctp_later _ _ _ d h
  | tly _ | vtkclr _ => exact issue_advances fun _ d h => .ok (Device.modCore_later d _ _ h)
  | rand _ | vred _ | vsamp _ => exact issue_advances fun _ d h => .ok (Device.modSeq_later _ _ _ (Device.tookFree_later d h))
  | trap _ => exact issue_advances fun _ _ _ => .trap
  | vtkadd _ => exact execVtkadd_advances
  | vtkget _ => exact execVtkget_advances

/-- Every command keeps what the block keeps, the two that start the block among them. -/
theorem exec_kept {c : Instr} {s t : State} (h : exec c s = .next t) : Device.Kept s.dev t.dev := by
  by_cases hp : c = .powerOnResetAssert
  · subst hp
    rw [done_dev h]
    exact Device.assertReset_kept _
  by_cases hs : ∃ b, c = .coldStart b
  · obtain ⟨b, rfl⟩ := hs
    rw [done_dev h]
    exact Device.coldStart_kept _ _
  · exact (exec_advances c hp (not_exists.1 hs) h).toKept

/-- A command that completes leaves the queue as it is. -/
theorem exec_pending {c : Instr} {s t : State} (h : exec c s = .next t) : t.pending = s.pending := by
  obtain ⟨f, hf⟩ := exec_runsIf c
  rw [hf] at h
  split at h
  · cases h; rfl
  · cases h

/-- Settles O58: time passes by `tick_later`, and a command runs by `exec_kept` and, where it does not start the block,
`exec_advances`. -/
theorem everyStepKeeps : Obligations.EveryStepKeeps := by
  unfold Obligations.EveryStepKeeps
  intro s t h
  obtain ⟨d, q⟩ := s
  cases q with
  | nil =>
    cases h
    have hl : Device.Later d (tick d) := tick_later d (.refl d)
    exact ⟨hl.toKept, rfl, fun _ => hl⟩
  | cons c rest =>
    have hc : exec c { dev := d, pending := rest } = .next t := h
    have hk := exec_kept hc
    have hq := exec_pending hc
    refine ⟨hk, hq, fun hstart => ?_⟩
    obtain ⟨hp, hs⟩ := hstart c rfl
    have hl := exec_advances c hp hs hc
    exact hl

/-- Settles O56: a step is by definition the command's meaning, or the passing of one period. -/
theorem stepRule : Obligations.StepRule := by
  unfold Obligations.StepRule
  exact ⟨fun _ _ => rfl, fun _ => rfl⟩

/-! ### Alarms -/

namespace Device

variable {d : Device} {n : Nat}

/-- A one-shot slot is disarmed when it fires, and has missed nothing (R40). -/
theorem fired_oneShot (h : (d.alarm n).periodic = false) : d.fired n =
    d.setAlarm n { d.alarm n with armed := false, miss := 0, late := (d.alarm n).past, past := false, due := none } := by
  simp [fired, h]

/-- A periodic slot moves on by the periods that have begun since its compare value (R40). -/
theorem fired_periodic (h : (d.alarm n).periodic = true) (hp : 0 < (d.alarm n).per) : d.fired n =
    d.setAlarm n { d.alarm n with
      cmp := (d.alarm n).cmp + ((d.now - (d.alarm n).cmp) / (d.alarm n).per + 1) * (d.alarm n).per
      miss := satNat 8 ((d.now - (d.alarm n).cmp) / (d.alarm n).per)
      late := (d.alarm n).past, past := false, due := none } := by
  simp [fired, h, hp.ne']

/-- The firing of a slot changes that slot alone. -/
theorem fired_alarm_ne {m : Nat} (h : m ≠ n) : (d.fired n).alarm m = d.alarm m := by
  unfold fired
  extract_lets a
  split
  · exact setAlarm_alarm_ne _ _ _ h.symm
  · exact setAlarm_alarm_ne _ _ _ h.symm

/-- A HOST_EVENT alarm that fires posts its record (R36). -/
theorem hostEvent_fires (h : d.fires n 6 = true) : d.hostEvent n = (d.fired n).postQueue (d.alarm n).ring
    ((d.fired n).pdkEvent (d.alarm n).owner 7 0 (det 20 (d.alarm n).target) (d.alarm n).context) := by
  simp [hostEvent, h]

end Device

/-- The first multiple of `per` past `now` on the grid that begins at `cmp` (R40). -/
theorem periods_since {cmp per now : Nat} (hp : 0 < per) (hc : cmp ≤ now) :
    now < cmp + ((now - cmp) / per + 1) * per ∧ ∀ j, j < (now - cmp) / per + 1 → cmp + j * per ≤ now := by
  refine ⟨?_, fun j hj => ?_⟩
  · have := Nat.lt_mul_div_succ (now - cmp) hp
    rw [Nat.mul_comm] at this
    omega
  · have := (Nat.le_div_iff_mul_le hp).1 (Nat.lt_succ_iff.1 hj)
    omega

theorem satNat_8 (x : Nat) : satNat 8 x = min 255 x := by
  unfold satNat
  split <;> omega

/-- Settles O55: a slot by its mode; the record of a HOST_EVENT alarm leaves the slots as the firing left them. -/
theorem alarmFiringRule : Obligations.AlarmFiringRule := by
  unfold Obligations.AlarmFiringRule
  refine ⟨fun d n => ⟨fun h => ?oneShot, fun h hp hc => ?periodic, fun m hm => Device.fired_alarm_ne hm⟩,
    fun s slot hslot h => ?hostEvent⟩
  case oneShot => exact ⟨0, by rw [Device.fired_oneShot h, Device.setAlarm_alarm_same]⟩
  case periodic =>
    obtain ⟨hpast, hleast⟩ := periods_since hp hc
    refine ⟨_, Nat.le_add_left 1 _, hpast, fun j _ hj => hleast j hj, ?_⟩
    rw [Device.fired_periodic h hp, Device.setAlarm_alarm_same, satNat_8, Nat.add_sub_cancel]
  case hostEvent =>
    refine ⟨_, onUnit_next s _ hslot, ?_⟩
    simp only [Device.hostEvent_fires h, Device.postQueue_alarm]

/-! ### PSET, TLY and RAND -/

section
variable {s : State} {c op : Nat} {x : QInstr} {e : Device} {body : QInstr → Device → Issue}

/-- An instruction of the C slot that completes at once, is no Kerf point and is not traced. -/
theorem exec_c_completed (h : s.dev.mayIssue c .c op x = true) (hb : body x s.dev = .ok e)
    (hk : op ∉ [0x10, 0x15, 0x16, 0x18, 0x1E] := by decide) :
    onUnit 12 c s (Device.issue c .c op body) = .next { s with dev := e.retired c .c } := by
  obtain ⟨-, -, hslot, hop, -⟩ := Device.mayIssue_iff.1 h
  simp only [List.mem_cons, List.not_mem_nil, not_or] at hk
  obtain ⟨hbr, hrecv, hmuster, hwait, hhalt, -⟩ := hk
  exact Device.onUnit_issue_ok h hb (Device.kpMarked_c hop hrecv hmuster hwait) (Device.traceOf_c hslot hop hbr hhalt) rfl

end

/-- Every lane of the predicate that PSET writes is its condition. -/
theorem getLsbD_allOnes_or_zero (b : Bool) {l : Nat} (h : l < 256) :
    (if b then BitVec.allOnes 256 else 0 : BitVec 256).getLsbD l = b := by
  cases b
  · exact BitVec.getLsbD_zero
  · exact BitVec.getLsbD_allOnes.trans (decide_eq_true h)

/-- Settles O2: each completes at once with the register it writes. That every core reads the block's one Tally is log entry 21. -/
theorem predicateTimeAndRandomResults : Obligations.PredicateTimeAndRandomResults := by
  unfold Obligations.PredicateTimeAndRandomResults
  refine ⟨fun s c x h => ?pset, fun s c x h => exec_c_completed h rfl, fun s c x h => ?rand⟩
  case pset => exact ⟨_, exec_c_completed h rfl, fun l hl => getLsbD_allOnes_or_zero _ hl⟩
  case rand => exact ⟨_, exec_c_completed h rfl⟩

/-! ### The Tally and the calendar -/

namespace Device

variable {d : Device} {n : Nat} {off : Int}

@[simp] theorem platform_tally (c : Code) (x : BitVec 96) : (d.platform c x).tally = d.tally := postDev_tally _ _
@[simp] theorem platform_glb (c : Code) (x : BitVec 96) : (d.platform c x).glb = d.glb := postDev_glb _ _
@[simp] theorem platform_boot (c : Code) (x : BitVec 96) : (d.platform c x).boot = d.boot := postDev_boot _ _
@[simp] theorem platform_flash (c : Code) (x : BitVec 96) : (d.platform c x).flash = d.flash := postDev_flash _ _
@[simp] theorem platform_sec (c : Code) (x : BitVec 96) : (d.platform c x).sec = d.sec := postDev_sec _ _
@[simp] theorem modTally_tally (g : Tally → Tally) : (d.modTally g).tally = g d.tally := rfl

theorem now_eq (d : Device) : d.now = d.tally.now := rfl

@[simp] theorem sampled_tally (before : Nat) : (d.sampled before).tally = d.tally := by
  unfold sampled
  split <;> rfl

/-- An anchor takes the Tally and the calendar of its instant (R48). -/
@[simp] theorem anchor_tally : d.anchor.tally = { d.tally with
    anchTally := d.now, anchCal := d.calWord, anchors := (d.now, d.calWord) :: d.tally.anchors } := by
  simp [anchor, now]

/-- The Tally that starts runs from its first value, which is its first anchor (R519). -/
theorem startTally_tally : (d.startTally n).tally = { ({ d.tally with now := n, running := true } : Tally).marked with
    anchTally := n, anchCal := d.calWord, anchors := (n, d.calWord) :: d.tally.anchors } := by
  simp only [startTally, anchor_tally, modTally_tally]
  rfl

/-- Entering holdover tells of the Tally no more than its state and its bound (R33, R35). -/
theorem enterHoldover_tally (h : d.tally.state ≠ .holdover) :
    d.enterHoldover.tally = { d.tally with state := .holdover, errBnd := 0xFFFFFFFF } := by
  simp [enterHoldover, h]

/-- A device in holdover stays as it is, and any other enters it (R33). -/
theorem enterHoldover_holds : ∃ b, d.enterHoldover.tally = { d.tally with state := .holdover, errBnd := b } := by
  by_cases h : d.tally.state = .holdover
  · exact ⟨d.tally.errBnd, by rw [enterHoldover, if_pos h, ← h]⟩
  · exact ⟨_, enterHoldover_tally h⟩

/-- An offset of more than 1 ms steps the Tally forward (R31). -/
theorem removeOffset_steps (h : 1000000 < off) : (d.removeOffset off).tally =
    ({ d.tally with now := d.now + off.toNat, stepCnt := d.tally.stepCnt + 1, backward := 0, ahead := 0, trim := 0 } : Tally).marked := by
  simp only [removeOffset, if_pos h, platform_tally, sampled_tally, modTally_tally]
  rfl

/-- Any other offset is trimmed away, by at most 500 ppm and in its direction (R31). -/
theorem removeOffset_trims (h : off ≤ 1000000) : ∃ trim back ahead,
    (d.removeOffset off).tally = { d.tally with trim := trim, backward := back, ahead := ahead } ∧
      trim.natAbs ≤ 500 ∧ (0 < off → 0 < trim) ∧ (off < 0 → trim < 0) := by
  unfold removeOffset
  extract_lets e ppm f
  rw [if_neg (by omega)]
  have hlo : 0 < ppm := by simp only [ppm]; omega
  have hhi : ppm ≤ 500 := by simp only [ppm]; omega
  rcases lt_trichotomy off 0 with hneg | rfl | hpos
  · exact ⟨-ppm, _, _, by rw [if_neg hneg.ne, if_neg (by omega)]; rfl, by omega, by omega, by omega⟩
  · exact ⟨0, 0, 0, rfl, by decide, by decide, by decide⟩
  · exact ⟨ppm, _, _, by rw [if_neg hpos.ne', if_pos hpos]; rfl, by omega, by omega, by omega⟩

/-- Removing an offset leaves the state of the source, its bad frames and the path of PTP. -/
theorem removeOffset_source : (d.removeOffset off).tally.state = d.tally.state ∧
    (d.removeOffset off).tally.badRow = d.tally.badRow ∧ (d.removeOffset off).tally.ptpHops = d.tally.ptpHops := by
  rcases lt_or_ge 1000000 off with h | h
  · rw [removeOffset_steps h]
    exact ⟨rfl, rfl, rfl⟩
  · obtain ⟨trim, back, ahead, ht, -⟩ := removeOffset_trims (d := d) h
    rw [ht]
    exact ⟨rfl, rfl, rfl⟩

/-! #### Frames of source 0 -/

/-- The Tally that a frame's count names, at the rate in force or the one set by TC_HZ (R29). -/
def frameTally (d : Device) (count : Nat) : Nat :=
  count * (if d.tally.hz = 0 then d.tally.rate else rateOf d.tally.hz).toNat / 2 ^ 32 % 2 ^ 64

variable {count edges : Nat}

/-- A good frame starts a Tally that waits for one (R30, R519). -/
theorem goodFrame_starts (h : d.tally.running = false) :
    (d.goodFrame count edges).now = d.frameTally count ∧ (d.goodFrame count edges).tally.running = true ∧
      (d.goodFrame count edges).tally.state = .locked ∧ (d.goodFrame count edges).tally.anchTally = d.frameTally count := by
  unfold goodFrame
  extract_lets rate ref diff e f
  have hf : f = e.startTally ref := if_neg (by simp [e, h])
  simp only [now, modTally_tally, hf, startTally_tally]
  exact ⟨rfl, rfl, rfl, rfl⟩

/-- A good frame locks a Tally that runs, and its offset is removed (R30, R31). -/
theorem goodFrame_steers (h : d.tally.running = true) : ∃ e : Device,
    e.tally.now = d.now ∧ e.tally.state = .locked ∧ e.tally.badRow = 0 ∧ e.tally.stepCnt = d.tally.stepCnt ∧
      (d.goodFrame count edges).tally =
        { (e.removeOffset ((d.frameTally count : Int) - d.now)).tally with set := true } := by
  unfold goodFrame
  extract_lets rate ref diff e f
  have hf : f = e.removeOffset ((ref : Int) - e.now) := if_pos h
  exact ⟨e, rfl, rfl, rfl, rfl, by rw [hf]; rfl⟩

/-- A bad frame is counted, and the third in a row of a Tally that runs loses the source (R28, R33). -/
theorem badFrame_tally :
    (d.badFrame edges).tally.frameErr = satInc d.tally.frameErr ∧ (d.badFrame edges).now = d.now ∧
      (2 ≤ d.tally.badRow → d.tally.running = true → (d.badFrame edges).tally.state = .holdover) := by
  unfold badFrame
  extract_lets e
  split
  · obtain ⟨b, hb⟩ := e.enterHoldover_holds
    simp only [now, hb]
    exact ⟨rfl, rfl, fun _ _ => trivial⟩
  · next hfew => exact ⟨rfl, rfl, fun hrow hrun => absurd ⟨Nat.succ_le_succ hrow, hrun⟩ hfew⟩

theorem tcFrame_good {f : BitVec 80} (hu : d.tallyUp = true) (hs : d.tally.src = 0) (hf : tcGood f = true) :
    tcFrame f edges d = d.goodFrame (tcCount f) edges := by
  simp [tcFrame, hu, hs, hf]

theorem tcFrame_bad {f : BitVec 80} (hu : d.tallyUp = true) (hs : d.tally.src = 0) (hf : tcGood f = false) :
    tcFrame f edges d = d.badFrame edges := by
  simp [tcFrame, hu, hs, hf]

end Device

section
variable {s : State} {f : BitVec 80} {edges ref : Nat}

theorem exec_tcSerFrame_starts (hu : s.dev.tallyUp = true) (hs : s.dev.tally.src = 0) (hf : tcGood f = true)
    (hr : s.dev.tally.running = false) (href : ref = s.dev.frameTally (tcCount f)) :
    ∃ t, exec (.tcSerFrame f edges) s = .next t ∧ t.dev.now = ref ∧
      t.dev.tally.running = true ∧ t.dev.tally.state = .locked ∧ t.dev.tally.anchTally = ref := by
  refine ⟨_, done_next s _, ?_⟩
  simp only [Device.tcFrame_good hu hs hf, href]
  exact Device.goodFrame_starts hr

theorem exec_tcSerFrame_steers (hu : s.dev.tallyUp = true) (hs : s.dev.tally.src = 0) (hf : tcGood f = true)
    (hr : s.dev.tally.running = true) (href : ref = s.dev.frameTally (tcCount f)) :
    ∃ t, exec (.tcSerFrame f edges) s = .next t ∧ t.dev.tally.state = .locked ∧ t.dev.tally.badRow = 0 ∧
      (s.dev.now + 1000000 < ref → t.dev.now = ref ∧ t.dev.tally.stepCnt = s.dev.tally.stepCnt + 1) ∧
      (ref ≤ s.dev.now + 1000000 → t.dev.now = s.dev.now ∧ t.dev.tally.trim.natAbs ≤ 500 ∧
        (s.dev.now < ref → 0 < t.dev.tally.trim) ∧ (ref < s.dev.now → t.dev.tally.trim < 0)) := by
  obtain ⟨e, hnow, hstate, hrow, hsteps, ht⟩ := Device.goodFrame_steers (count := tcCount f) (edges := edges) hr
  refine ⟨_, done_next s _, ?_⟩
  simp only [Device.tcFrame_good hu hs hf, Device.now_eq, ht, ← href]
  rw [← Device.now_eq s.dev, ← hnow]
  obtain ⟨hkeep, hkeepRow, -⟩ := Device.removeOffset_source (d := e) (off := (ref : Int) - e.tally.now)
  refine ⟨hkeep.trans hstate, hkeepRow.trans hrow, fun hstep => ?step, fun htrim => ?trim⟩
  case step =>
    have h := Device.removeOffset_steps (d := e) (off := (ref : Int) - e.tally.now) (by omega)
    rw [h, ← hsteps]
    exact ⟨by change e.tally.now + _ = _; omega, rfl⟩
  case trim =>
    obtain ⟨trim, back, ahead, h, hmax, hpos, hneg⟩ :=
      Device.removeOffset_trims (d := e) (off := (ref : Int) - e.tally.now) (by omega)
    rw [h]
    exact ⟨rfl, hmax, fun hlt => hpos (by omega), fun hlt => hneg (by omega)⟩

theorem exec_tcSerFrame_bad (hu : s.dev.tallyUp = true) (hs : s.dev.tally.src = 0) (hf : tcGood f = false) :
    ∃ t, exec (.tcSerFrame f edges) s = .next t ∧ t.dev.tally.frameErr = satInc s.dev.tally.frameErr ∧
      t.dev.now = s.dev.now ∧ (2 ≤ s.dev.tally.badRow → s.dev.tally.running = true → t.dev.tally.state = .holdover) := by
  refine ⟨_, done_next s _, ?_⟩
  simp only [Device.tcFrame_bad hu hs hf]
  exact Device.badFrame_tally

theorem exec_tcClkLoss (hu : s.dev.tallyUp = true) (hs : s.dev.tally.src = 0) (hr : s.dev.tally.running = true) :
    exec .tcClkLoss s = s.goes s.dev.enterHoldover := by
  rw [show exec .tcClkLoss s = s.goes s.dev.clkLoss from rfl, Device.clkLoss, if_pos (by simp [hu, hs, hr])]

theorem exec_tallyStartTimeout (hu : s.dev.tallyUp = true) (hs : s.dev.tally.src = 0) (hr : s.dev.tally.running = false) :
    exec .tallyStartTimeout s = s.goes (s.dev.startTally 0) := by
  rw [show exec .tallyStartTimeout s = s.goes s.dev.tallyTimeout from rfl, Device.tallyTimeout, if_pos (by simp [hu, hs, hr])]

/-- TALLY_DIVERGED is posted while a backward offset exceeds 100 ms (R32); otherwise nothing happens, which is log entry 3. -/
theorem exec_tallyDiverged : exec .tallyDiverged s =
    s.goes (if 100000000 < s.dev.tally.backward then s.dev.platform 0x0707 else s.dev) := rfl

theorem exec_calendarAnchor (hr : s.dev.tally.running = true) : exec .calendarAnchor s = s.goes s.dev.anchor := by
  rw [show exec .calendarAnchor s = s.goes (if s.dev.tally.running then s.dev.anchor else s.dev) from rfl, if_pos hr]

end

/-! ### PTP -/

namespace Device

variable {d : Device} {m : PtpMsg}

/-- A message of the domain served whose options are supported takes effect (R34). -/
theorem ptpMsg_taken {go : Device → Device} (hu : d.tallyUp = true) (hs : d.tally.src = 1) (hm : m.supported = true)
    (hd : m.domain = d.tally.ptpDomain) : ptpMsg m go d = go d := by
  simp [ptpMsg, hu, hs, hm, hd]

/-- A message that uses an unsupported option is dropped and counted, whatever its kind (R34). -/
theorem ptpMsg_dropped {go : Device → Device} (hu : d.tallyUp = true) (hs : d.tally.src = 1) (hm : m.supported = false) :
    ptpMsg m go d = d.modPort 0 fun p => { p with ptpDrop := p.ptpDrop + 1 } := by
  simp [ptpMsg, hu, hs, hm]

theorem ptpBound_le (d : Device) : d.ptpBound ≤ 40 + 25 * d.tally.ptpHops := Nat.le_of_lt_succ (Nat.mod_lt _ (Nat.succ_pos _))

/-- The answer to a Delay_Req ends an exchange: the offset is removed, and a source within 1 us of the Tally, or stepped to, is
locked (R31, R33, R35). That a locked source met at a larger offset is acquired again is log entry 22. -/
theorem ptpDelayResp_tally {t1 t2 : Nat} (hu : d.tallyUp = true) (hs : d.tally.src = 1) (hm : m.supported = true)
    (hd : m.domain = d.tally.ptpDomain) (hsrc : d.tally.ptpSource = some m.source) (hl : d.tally.ptpLast = some (t1, t2))
    (hr : d.tally.running = true) {back off : Int} (hback : back = (t2 : Int) - t1)
    (hoff : off = (back + ((m.stamp.toNat : Int) - m.correction - m.reqSent.toNat)) / 2 - back) :
    ∃ (e : Device) (bound : W32), e.now = d.now ∧ bound.toNat ≤ 40 + 25 * d.tally.ptpHops ∧
      (ptpDelayResp m d).tally =
        if 1000000 < off ∨ off.natAbs ≤ 1000 then { (e.removeOffset off).tally with state := .locked, errBnd := bound }
        else { (e.removeOffset off).tally with state := .acquiring, errBnd := 0xFFFFFFFF } := by
  subst hback hoff
  rw [ptpDelayResp, ptpMsg_taken hu hs hm hd]
  split
  next h => exact absurd (hl.symm.trans h) (by simp)
  next u1 u2 h =>
    obtain ⟨rfl, rfl⟩ : t1 = u1 ∧ t2 = u2 := by simpa [hl] using h
    rw [if_neg (by simp [hsrc, hr])]
    extract_lets back forth off e bound f
    refine ⟨d.modTally fun t => { t with ptpDelay := some ((back + forth) / 2) }, bound, rfl, ?_, ?_⟩
    · have hhops : e.tally.ptpHops = d.tally.ptpHops := removeOffset_source.2.2
      calc bound.toNat ≤ e.ptpBound := Nat.mod_le _ _
        _ ≤ 40 + 25 * e.tally.ptpHops := e.ptpBound_le
        _ = 40 + 25 * d.tally.ptpHops := by rw [hhops]
    · by_cases h : 1000000 < off ∨ off.natAbs ≤ 1000
      · rw [if_pos h, if_pos h]; rfl
      · rw [if_neg h, if_neg h]; rfl

/-- An Announce of the selected time transmitter refreshes what is known of it (R34). -/
theorem ptpAnnounce_selected (hu : d.tallyUp = true) (hs : d.tally.src = 1) (hm : m.supported = true)
    (hd : m.domain = d.tally.ptpDomain) (hsrc : d.tally.ptpSource = some m.source) :
    (ptpAnnounce m d).tally.ptpSource = some m.source ∧ (ptpAnnounce m d).tally.utcValid = m.utcValid ∧
      (ptpAnnounce m d).tally.utcOffset = m.utcOffset := by
  rw [ptpAnnounce, ptpMsg_taken hu hs hm hd]
  extract_lets t same e
  rw [if_neg (by simp [same, t, hsrc])]
  split
  · split <;> exact ⟨rfl, rfl, rfl⟩
  · exact ⟨rfl, rfl, rfl⟩

/-- The loss of the selected time transmitter (R33). -/
theorem announceLost_tally (hu : d.tallyUp = true) (hs : d.tally.src = 1) (hsrc : d.tally.ptpSource.isSome = true)
    (hst : d.tally.state ≠ .holdover) :
    (announceLost d).tally.state = .holdover ∧ (announceLost d).tally.ptpSource = none ∧
      (announceLost d).tally.errBnd = 0xFFFFFFFF := by
  rw [announceLost, if_pos (by simp [hu, hs, hsrc]), enterHoldover_tally]
  exacts [⟨rfl, rfl, rfl⟩, hst]

theorem syncLost_tally (hu : d.tallyUp = true) (hs : d.tally.src = 1) (hsrc : d.tally.ptpSource.isSome = true)
    (hst : d.tally.state ≠ .holdover) :
    (syncLost d).tally.state = .holdover ∧ (syncLost d).tally.ptpLast = none := by
  rw [syncLost, if_pos (by simp [hu, hs, hsrc]), enterHoldover_tally]
  exacts [⟨rfl, rfl⟩, hst]

end Device

section
variable {s : State} {m : PtpMsg}

/-- The messages that the port-0 clock drops (R34). -/
theorem exec_ptp_dropped (hu : s.dev.tallyUp = true) (hs : s.dev.tally.src = 1) (hm : m.supported = false) :
    ∀ i ∈ [Instr.ptpSync m, .ptpFollowUp m, .ptpDelayResp m, .ptpAnnounce m],
      exec i s = s.goes (s.dev.modPort 0 fun p => { p with ptpDrop := p.ptpDrop + 1 }) := by
  intro i hi
  simp only [List.mem_cons, List.not_mem_nil, or_false] at hi
  rcases hi with rfl | rfl | rfl | rfl
  · rw [← Device.ptpMsg_dropped hu hs hm]; rfl
  · rw [← Device.ptpMsg_dropped hu hs hm]; rfl
  · rw [← Device.ptpMsg_dropped hu hs hm]; rfl
  · rw [← Device.ptpMsg_dropped hu hs hm]; rfl

/-- What a Sync or a Follow_Up of the selected time transmitter is taken for (R34). -/
theorem exec_ptpSync_twoStep (hu : s.dev.tallyUp = true) (hs : s.dev.tally.src = 1) (hm : m.supported = true)
    (hd : m.domain = s.dev.tally.ptpDomain) (hsrc : s.dev.tally.ptpSource = some m.source) (h2 : m.twoStep = true) :
    exec (.ptpSync m) s =
      s.goes { s.dev with tally := { s.dev.tally with ptpSync := some (m.seqId, m.local_.toNat, m.correction) } } := by
  rw [show exec (.ptpSync m) s = s.goes (s.dev.ptpSync m) from rfl, Device.ptpSync, Device.ptpMsg_taken hu hs hm hd,
    if_neg (by simp [hsrc]), if_pos h2]
  rfl

theorem exec_ptpSync_oneStep (hu : s.dev.tallyUp = true) (hs : s.dev.tally.src = 1) (hm : m.supported = true)
    (hd : m.domain = s.dev.tally.ptpDomain) (hsrc : s.dev.tally.ptpSource = some m.source) (h2 : m.twoStep = false) :
    exec (.ptpSync m) s = s.goes (s.dev.syncAccepted (m.stamp.toNat + m.correction) m.local_.toNat) := by
  rw [show exec (.ptpSync m) s = s.goes (s.dev.ptpSync m) from rfl, Device.ptpSync, Device.ptpMsg_taken hu hs hm hd,
    if_neg (by simp [hsrc]), if_neg (by simp [h2])]

theorem exec_ptpFollowUp {at_ : Nat} {corr : Int} (hu : s.dev.tallyUp = true) (hs : s.dev.tally.src = 1)
    (hm : m.supported = true) (hd : m.domain = s.dev.tally.ptpDomain) (hsrc : s.dev.tally.ptpSource = some m.source)
    (hw : s.dev.tally.ptpSync = some (m.seqId, at_, corr)) :
    exec (.ptpFollowUp m) s = s.goes (s.dev.syncAccepted (m.stamp.toNat + (corr + m.correction)) at_) := by
  rw [show exec (.ptpFollowUp m) s = s.goes (s.dev.ptpFollowUp m) from rfl, Device.ptpFollowUp,
    Device.ptpMsg_taken hu hs hm hd]
  simp [hw, hsrc]

/-- What a Delay_Resp does to the Tally, by the offset it gives (R31, R33, R35). -/
theorem exec_ptpDelayResp {t1 t2 : Nat} (hu : s.dev.tallyUp = true) (hs : s.dev.tally.src = 1) (hm : m.supported = true)
    (hd : m.domain = s.dev.tally.ptpDomain) (hsrc : s.dev.tally.ptpSource = some m.source)
    (hl : s.dev.tally.ptpLast = some (t1, t2)) (hr : s.dev.tally.running = true) {back off : Int}
    (hback : back = (t2 : Int) - t1)
    (hoff : off = (back + ((m.stamp.toNat : Int) - m.correction - m.reqSent.toNat)) / 2 - back) :
    ∃ t, exec (.ptpDelayResp m) s = .next t ∧
      (1000000 < off → t.dev.now = s.dev.now + off.toNat ∧ t.dev.tally.state = .locked) ∧
      (off ≤ 1000000 → t.dev.now = s.dev.now ∧ (t.dev.tally.state = .locked ↔ off.natAbs ≤ 1000)) ∧
      (t.dev.tally.state = .locked → t.dev.tally.errBnd.toNat ≤ 40 + 25 * s.dev.tally.ptpHops) := by
  obtain ⟨e, bound, hnow, hbound, ht⟩ := Device.ptpDelayResp_tally hu hs hm hd hsrc hl hr hback hoff
  refine ⟨_, done_next s _, ?_⟩
  simp only [Device.now_eq, ht]
  rw [← Device.now_eq s.dev, ← hnow]
  refine ⟨fun hstep => ?step, fun htrim => ?trim, ?bound⟩
  case step =>
    rw [if_pos (.inl hstep), Device.removeOffset_steps hstep]
    exact ⟨rfl, rfl⟩
  case trim =>
    obtain ⟨trim, back, ahead, hd', -⟩ := Device.removeOffset_trims (d := e) htrim
    by_cases hlock : off.natAbs ≤ 1000
    · rw [if_pos (.inr hlock), hd']
      exact ⟨rfl, iff_of_true rfl hlock⟩
    · rw [if_neg (by omega), hd']
      exact ⟨rfl, iff_of_false (by simp) hlock⟩
  case bound =>
    split
    · exact fun _ => hbound
    · exact fun h => nomatch h

/-- Port 1 answers a Delay_Req of its domain, and announces its time (R34). -/
theorem exec_ptpDelayReq (h : s.dev.servesTime = true) (hm : m.supported = true) (hd : m.domain = s.dev.tally.ptpDomain) :
    exec (.ptpDelayReq m) s = s.goes (s.dev.emit (.ptpDelayResp m.local_.toNat)) := by
  rw [show exec (.ptpDelayReq m) s = s.goes (s.dev.delayReq m) from rfl, Device.delayReq, if_neg (by simp [h]),
    if_neg (by simp [hm]), if_neg (by simp [hd])]

theorem exec_ptpTimeTransmit (h : s.dev.servesTime = true) : exec .ptpTimeTransmit s =
    s.goes (((s.dev.emit .ptpAnnounce).emit .ptpSync).emit (.ptpFollowUp s.dev.now)) := by
  rw [show exec .ptpTimeTransmit s = s.goes s.dev.timeTransmit from rfl, Device.timeTransmit, if_pos h]

end

/-! ### The start -/

namespace Device

variable {d : Device} {c p n : Nat}

/-- Reading a part of the device after a fold of changes that leave it. -/
theorem foldl_part {α β : Type} {φ : Device → β} {g : Device → α → Device} (hg : ∀ x a, φ (g x a) = φ x) (l : List α)
    (d : Device) : φ (l.foldl g d) = φ d := by
  induction l generalizing d with
  | nil => rfl
  | cons a l ih => rw [List.foldl_cons, ih, hg]

/-- What the stages from 4 on leave: the slot booted from, whether it is the other image's, and the seeds drawn (R439, R503). -/
def startMarks (d : Device) : Nat × Bool × Nat := (d.flash.active, d.boot.fallback, d.sec.seedNum)

@[simp] theorem logFlash_active (k : Code) (x : W64) : (d.logFlash k x).flash.active = d.flash.active := by
  unfold logFlash
  dsimp only
  split <;> rfl
@[simp] theorem logFlash_bootSlot (k : Code) (x : W64) : (d.logFlash k x).flash.bootSlot = d.flash.bootSlot := by
  unfold logFlash
  dsimp only
  split <;> rfl

theorem startMarks_logFlash (k : Code) (x : W64) : (d.logFlash k x).startMarks = d.startMarks := by simp [startMarks]
theorem startMarks_postDev (ev : EventRec) : (d.postDev ev).startMarks = d.startMarks := by simp [startMarks]

theorem startMarks_installRemap (bank row word : Nat) (fused : Bool) :
    (d.installRemap c bank row word fused).startMarks = d.startMarks := by
  unfold installRemap
  extract_lets s b k spare
  split
  · rfl
  · split
    · exact startMarks_postDev _
    · rfl

theorem startMarks_softEntry (bank row word : Nat) : (softEntry c bank row word d).startMarks = d.startMarks := by
  have he : (d.installRemap c bank row word false).startMarks = d.startMarks := startMarks_installRemap bank row word false
  unfold softEntry
  dsimp only
  split
  · exact he
  · simpa [startMarks] using he

theorem startMarks_runTests (t : TestReport) : (d.runTests t).startMarks = d.startMarks := by
  unfold runTests
  extract_lets bad soft pairs boot e f g h
  have hf : f.startMarks = e.startMarks := foldl_part (fun _ _ => startMarks_installRemap _ _ _ _) _ _
  have hg : g.startMarks = f.startMarks := foldl_part (fun _ _ => startMarks_installRemap _ _ _ _) _ _
  have hh : h.startMarks = g.startMarks := foldl_part (fun _ _ => startMarks_softEntry _ _ _) _ _
  exact hh.trans (hg.trans hf)

theorem startMarks_arm {owner kind target cmp per ctx ring : Nat} {e : Device}
    (h : d.arm owner kind target cmp per ctx ring = some (e, n)) : e.startMarks = d.startMarks := by
  obtain ⟨k, -, hk⟩ := Option.map_eq_some_iff.1 h
  obtain ⟨rfl, -⟩ := Prod.mk.inj hk
  rfl

theorem startMarks_armFirmware : d.armFirmware.startMarks = d.startMarks := by
  unfold armFirmware
  extract_lets e
  have he : e.startMarks = d.startMarks := by
    simp only [e]
    split
    · next h => exact startMarks_arm h
    · rfl
  refine (foldl_part (fun x n => ?_) _ e).trans he
  dsimp only
  split
  · rfl
  · split
    · next f k h =>
      have hf : f.startMarks = x.startMarks := startMarks_arm h
      exact hf
    · rfl

theorem startMarks_newMemKey : (d.newMemKey p).startMarks = d.startMarks := by
  unfold newMemKey
  split
  · rfl
  · split <;> rfl

theorem startMarks_newIntake : (d.newIntake p).startMarks = d.startMarks := by
  unfold newIntake
  extract_lets e
  split <;> rfl

theorem startMarks_trainAll : d.trainAll.startMarks = d.startMarks := by
  unfold trainAll
  refine (foldl_part (fun x n => ?_) _ _).trans (foldl_part (fun x p => ?_) _ d)
  · split <;> rfl
  · exact startMarks_newIntake.trans startMarks_newMemKey

theorem startMarks_atStage8 (d : Device) : d.atStage8.startMarks = d.startMarks := rfl

/-- Entropy that passes its tests draws one seed (R439); in either case the image is the one booted. -/
theorem startEntropy_marks (ok : Bool) : (startEntropy ok d).flash.active = d.flash.active ∧
    (startEntropy ok d).boot.fallback = d.boot.fallback ∧ (ok = true → (startEntropy ok d).sec.seedNum = d.sec.seedNum + 1) := by
  cases ok
  · simp [startEntropy]
  · exact ⟨rfl, rfl, fun _ => rfl⟩

/-- The epoch of a start is the one after the last (R45). -/
theorem startEpoch_epoch : d.startEpoch.tally.epoch = (d.tally.epoch + 1) % 2 ^ 32 := by
  unfold startEpoch
  extract_lets e
  split
  · rfl
  · rw [startTally_tally]; rfl

theorem startEpoch_bootSlot : d.startEpoch.flash.bootSlot = d.flash.bootSlot := by
  unfold startEpoch
  extract_lets e
  split
  · rfl
  · simp [startTally, anchor]; rfl

theorem startEpoch_seedNum : d.startEpoch.sec.seedNum = d.sec.seedNum := by
  unfold startEpoch
  extract_lets e
  split
  · rfl
  · simp [startTally, anchor]; rfl

variable {b : BootReport}

/-- The release of BLK_PORST_N, before any stage has run (R516). -/
def releasedReset (d : Device) : Device := { d with boot := { d.boot with released := true, stage := 2 } }

theorem bootImage_none (ha : b.imageA = false) (hB : b.imageB = false) : d.bootImage b = none := by
  simp [bootImage, ha, hB]

theorem bootImage_stored (ha : b.imageA = true) (hB : b.imageB = true) : d.bootImage b = some (d.flash.bootSlot, false) := by
  simp [bootImage, ha, hB]

/-- A calibration or a flash that fails holds the device in stage 2 (R499, R501). -/
theorem coldStart_stage2 (hr : d.boot.released = false) (hb : b.sfdpOk = false ∨ b.calOk = false) :
    coldStart b d = { d.releasedReset with boot := { d.releasedReset.boot with fail := true } } := by
  rw [coldStart, if_neg (by simp [hr]), if_pos (by simpa using hb)]
  rfl

/-- Two images that fail hold the ROM (R503). -/
theorem coldStart_romHold (hr : d.boot.released = false) (hs : b.sfdpOk = true) (hc : b.calOk = true)
    (ha : b.imageA = false) (hB : b.imageB = false) :
    (coldStart b d).boot.stage = 9 ∧ (coldStart b d).boot.fail = true ∧ (coldStart b d).boot.code = 0x0906 ∧
      (coldStart b d).tally.epoch = (d.tally.epoch + 1) % 2 ^ 32 := by
  rw [coldStart, if_neg (by simp [hr])]
  dsimp only
  rw [if_neg (by simp [hs, hc]), bootImage_none ha hB]
  simp only [logFlash_boot, logFlash_tally]
  exact ⟨trivial, trivial, trivial, startEpoch_epoch⟩

/-- The device whose ROM has booted the slot stored, both images being good (R503). -/
def booted (b : BootReport) (d : Device) : Device :=
  let e := d.releasedReset.startEpoch
  { e with
    boot := { e.boot with fallback := false }
    flash := { e.flash with
      active := e.flash.bootSlot, imageOk := Table.set (Table.set e.flash.imageOk false 0 b.imageA) false 1 b.imageB } }

/-- Good images start the device as far as the trainings of stage 8 (R503, R518). -/
theorem coldStart_boots (hr : d.boot.released = false) (hs : b.sfdpOk = true) (hc : b.calOk = true)
    (ha : b.imageA = true) (hB : b.imageB = true) :
    coldStart b d = ((startEntropy b.entropyOk (d.booted b).armFirmware).runTests b.tests).trainAll.atStage8 := by
  rw [coldStart, if_neg (by simp [hr])]
  dsimp only
  rw [if_neg (by simp [hs, hc]), bootImage_stored ha hB]
  rfl

/-- The stages from 5 on leave the marks of the start, and all of them leave the epoch. -/
theorem startMarks_stages (t : TestReport) (ok : Bool) :
    ((startEntropy ok d.armFirmware).runTests t).trainAll.atStage8.startMarks = (startEntropy ok d.armFirmware).startMarks :=
  (startMarks_atStage8 _).trans (startMarks_trainAll.trans (startMarks_runTests t))

theorem stages_epoch (t : TestReport) (ok : Bool) :
    ((startEntropy ok d.armFirmware).runTests t).trainAll.atStage8.tally.epoch = d.tally.epoch :=
  (atStage8_later _ (trainAll_later _ (runTests_later _ _ (startEntropy_later _ _ (armFirmware_later _ (.refl d)))))).epoch

theorem coldStart_stage8 (hr : d.boot.released = false) (hs : b.sfdpOk = true) (hc : b.calOk = true)
    (ha : b.imageA = true) (hB : b.imageB = true) :
    (coldStart b d).boot.stage = 8 ∧ (coldStart b d).flash.active = d.flash.bootSlot ∧
      (coldStart b d).tally.epoch = (d.tally.epoch + 1) % 2 ^ 32 ∧ (coldStart b d).boot.fallback = false ∧
      (b.entropyOk = true → (coldStart b d).sec.seedNum = d.sec.seedNum + 1) := by
  rw [coldStart_boots hr hs hc ha hB]
  have hmarks := startMarks_stages (d := d.booted b) b.tests b.entropyOk
  have harm := startMarks_armFirmware (d := d.booted b)
  simp only [startMarks, Prod.mk.injEq] at hmarks harm
  obtain ⟨hact, hfall, hseed⟩ := hmarks
  obtain ⟨hact', hfall', hseed'⟩ := harm
  obtain ⟨hentAct, hentFall, hentSeed⟩ := startEntropy_marks (d := (d.booted b).armFirmware) b.entropyOk
  refine ⟨rfl, ?active, (stages_epoch _ _).trans startEpoch_epoch, hfall.trans (hentFall.trans hfall'), fun hok => ?seed⟩
  case active => exact hact.trans (hentAct.trans (hact'.trans startEpoch_bootSlot))
  case seed => rw [hseed, hentSeed hok, hseed']; exact congrArg (· + 1) startEpoch_seedNum

/-- Taking a Paddock into service leaves what is told of the start (R471). -/
theorem enterService_boot : (d.enterService p).boot = d.boot := by
  unfold enterService
  split
  · refine foldl_part (φ := Device.boot) (fun x b => ?_) _ _
    unfold sessionOpen
    extract_lets k
    split <;> rfl
  · rfl

theorem setReady_boot : d.setReady.boot = d.boot := by simp [setReady]
theorem setReady_glb : d.setReady.glb = { d.glb with ready := true, devState := 1 } := by simp [setReady]

/-- Stage 8 ends with READY and the time it took, in a device that is in service (R345, R518, R531). -/
theorem startReady_ready {ms : W32} (hr : d.boot.released = true) (h8 : d.boot.stage = 8) (h0 : d.glb.devState = 0)
    (ha : d.resets.devAsked = none) (ht : d.trained = true) (ho : d.resets.devOos = false) :
    (startReady ms d).glb.ready = true ∧ (startReady ms d).glb.devState = 1 ∧ (startReady ms d).boot.cold = ms := by
  have hboot : ∀ l : List Nat, ∀ e : Device, (l.foldl enterService e).boot = e.boot :=
    foldl_part (φ := Device.boot) fun _ _ => enterService_boot
  rw [startReady, if_neg (by simp [hr, h8, h0, ha, ht])]
  extract_lets boot e glb f
  have hf : f.boot.cold = ms := by rw [show f.boot = e.boot from setReady_boot.trans (hboot _ e)]
  have hg : f.glb.ready = true ∧ f.glb.devState = 1 := by rw [show f.glb = _ from setReady_glb]; exact ⟨rfl, rfl⟩
  rw [if_neg (by simp [e, ho])]
  split
  · simp only [platform_glb, platform_boot]
    exact ⟨hg.1, hg.2, hf⟩
  · exact ⟨hg.1, hg.2, hf⟩

end Device

/-- Settles O54: source 0 by its frames, source 1 by its messages, and the start by its stages. That a Tally that follows PTP is
locked exactly within 1 us is log entry 22, and that nothing happens without a divergence log entry 3. -/
theorem tallyAndStartResults : Obligations.TallyAndStartResults := by
  unfold Obligations.TallyAndStartResults
  refine ⟨fun s f edges hu hs => ?frames, fun s => ?clock, fun s m hu hs => ?ptp, fun s m hserve => ?serve, fun s => ?reset,
    fun s b hb => ?cold, fun s ms hr h8 h0 ha ht ho => ⟨_, done_next s _, Device.startReady_ready hr h8 h0 ha ht ho⟩⟩
  case frames =>
    refine ⟨fun hf hr => exec_tcSerFrame_starts hu hs hf hr rfl, fun hf hr => exec_tcSerFrame_steers hu hs hf hr rfl,
      fun hf => exec_tcSerFrame_bad hu hs hf, exec_tcClkLoss hu hs, fun hr => ⟨exec_tallyStartTimeout hu hs hr, ?_⟩⟩
    rw [Device.now_eq, Device.startTally_tally]
    exact ⟨rfl, rfl, rfl⟩
  case clock =>
    refine ⟨fun h => ?far, fun h => ?near, exec_calendarAnchor, rfl, rfl⟩
    case far => rw [exec_tallyDiverged, if_pos h]
    case near => rw [exec_tallyDiverged, if_neg (Nat.not_lt.2 h)]
  case ptp =>
    exact ⟨exec_ptp_dropped hu hs, fun hm hd hsrc => ⟨exec_ptpSync_twoStep hu hs hm hd hsrc,
      exec_ptpSync_oneStep hu hs hm hd hsrc, fun at_ corr => exec_ptpFollowUp hu hs hm hd hsrc,
      fun t1 t2 hl hr => exec_ptpDelayResp hu hs hm hd hsrc hl hr rfl rfl,
      _, done_next s _, Device.ptpAnnounce_selected hu hs hm hd hsrc⟩, fun hsome hst =>
      ⟨⟨_, done_next s _, Device.announceLost_tally hu hs hsome hst⟩, _, done_next s _, Device.syncLost_tally hu hs hsome hst⟩⟩
  case serve => exact ⟨exec_ptpDelayReq hserve, exec_ptpTimeTransmit hserve⟩
  case reset => exact ⟨_, done_next s _, rfl, rfl, rfl, rfl, rfl, rfl, rfl, rfl, rfl, rfl⟩
  case cold =>
    refine ⟨fun hbad => ⟨_, done_next s _, ?stage2⟩, fun hs hc =>
      ⟨fun ha hB => ⟨_, done_next s _, ?hold⟩, fun ha hB _ => ⟨_, done_next s _, Device.coldStart_stage8 hb hs hc ha hB⟩⟩⟩
    case stage2 => simp only [Device.coldStart_stage2 hb hbad]; exact ⟨rfl, rfl, trivial, rfl⟩
    case hold => exact Device.coldStart_romHold hb hs hc ha hB

namespace Device

/-! ### What stopping work leaves alone -/

/-- What a removal or the end of a session asks of the device before it acts: the device's state, each Paddock's entry but for its
trace, each Paddock's reset state, and who the bindings join and whom the device trusts. -/
structure Tenure where
  devState : Nat
  entFail : Bool
  entry : Nat → PdkSec
  rst : Nat → PdkRst
  trust : Table (BitVec 17)
  bound : Nat → Bool × Nat × BitVec 16

def tenure (d : Device) : Tenure where
  devState := d.glb.devState
  entFail := d.sec.entFail
  entry p := { d.pdkSec p with trace := Trace.reset }
  rst p := (d.pdk p).rst
  trust := d.links.trust
  bound j := ((d.binding j).valid, (d.binding j).pdk, (d.binding j).peer)

/-- Reading a part of the device after a fold over a table, of changes that leave it. -/
theorem tfoldl_part {α β : Type} {φ : Device → β} {g : Device → Nat → α → Device} (hg : ∀ x i a, φ (g x i a) = φ x)
    (t : Table α) (d : Device) : φ (Table.foldl t g d) = φ d := foldl_part (fun x (a : Nat × α) => hg x a.1 a.2) t d

theorem tenure_of_parts {d e : Device} (hglb : e.glb = d.glb) (hsec : e.sec = d.sec) (hpdks : e.pdks = d.pdks)
    (htrust : e.links.trust = d.links.trust) (hbind : e.links.bindings = d.links.bindings) : e.tenure = d.tenure := by
  simp only [tenure, pdkSec, pdk, binding, hglb, hsec, hpdks, htrust, hbind]

theorem tenure_setPdk (d : Device) (p : Nat) (v : Pdk) (h : v.rst = (d.pdk p).rst) : (d.setPdk p v).tenure = d.tenure := by
  have hr : ∀ q, ((d.setPdk p v).pdk q).rst = (d.pdk q).rst := fun q => by
    rw [setPdk, pdk, Table.get_set]
    split
    · next hq => exact hq ▸ h
    · rfl
  simp only [tenure, hr]
  rfl

theorem tenure_modPdk (d : Device) (p : Nat) (f : Pdk → Pdk) (h : ∀ x, (f x).rst = x.rst) :
    (d.modPdk p f).tenure = d.tenure := tenure_setPdk d p _ (h _)

theorem tenure_setPdkSec (d : Device) (p : Nat) (v : PdkSec)
    (h : { v with trace := Trace.reset } = { d.pdkSec p with trace := Trace.reset }) : (d.setPdkSec p v).tenure = d.tenure := by
  have hr : ∀ q, { (d.setPdkSec p v).pdkSec q with trace := Trace.reset } = { d.pdkSec q with trace := Trace.reset } := fun q => by
    rw [setPdkSec, pdkSec, Table.get_set]
    split
    · next hq => exact hq ▸ h
    · rfl
  simp only [tenure, hr]
  rfl

theorem tenure_setBinding (d : Device) (b : Nat) (v : Binding)
    (h : (v.valid, v.pdk, v.peer) = ((d.binding b).valid, (d.binding b).pdk, (d.binding b).peer)) :
    (d.setBinding b v).tenure = d.tenure := by
  have hr : ∀ q, (((d.setBinding b v).binding q).valid, ((d.setBinding b v).binding q).pdk, ((d.setBinding b v).binding q).peer) =
      ((d.binding q).valid, (d.binding q).pdk, (d.binding q).peer) := fun q => by
    rw [setBinding, binding, Table.get_set]
    split
    · next hq => exact hq ▸ h
    · rfl
  simp only [tenure, hr]
  rfl

theorem tenure_modBinding (d : Device) (b : Nat) (f : Binding → Binding)
    (h : ∀ x, ((f x).valid, (f x).pdk, (f x).peer) = (x.valid, x.pdk, x.peer)) : (d.modBinding b f).tenure = d.tenure :=
  tenure_setBinding d b _ (h _)

/-! The writes of single units. -/

@[simp] theorem tenure_setCore (d : Device) (c : Nat) (v : Core) : (setCore d c v).tenure = d.tenure := rfl

@[simp] theorem tenure_modCore (d : Device) (c : Nat) (f : Core → Core) : (modCore d c f).tenure = d.tenure := rfl

@[simp] theorem tenure_setSlice (d : Device) (c : Nat) (v : Slice) : (setSlice d c v).tenure = d.tenure := rfl

@[simp] theorem tenure_modSlice (d : Device) (c : Nat) (f : Slice → Slice) : (modSlice d c f).tenure = d.tenure := rfl

@[simp] theorem tenure_setStall (d : Device) (s : Nat) (v : Stall) : (setStall d s v).tenure = d.tenure := rfl

@[simp] theorem tenure_modStall (d : Device) (s : Nat) (f : Stall → Stall) : (modStall d s f).tenure = d.tenure := rfl

@[simp] theorem tenure_setOutQueue (d : Device) (q : Nat) (v : OutQueue) : (setOutQueue d q v).tenure = d.tenure := rfl

@[simp] theorem tenure_modOutQueue (d : Device) (q : Nat) (f : OutQueue → OutQueue) : (modOutQueue d q f).tenure = d.tenure := rfl

@[simp] theorem tenure_setRing (d : Device) (n : Nat) (v : Ring) : (setRing d n v).tenure = d.tenure := rfl

@[simp] theorem tenure_setVec (d : Device) (n : Nat) (v : Vec) : (setVec d n v).tenure = d.tenure := rfl

@[simp] theorem tenure_setObj (d : Device) (i : Nat) (v : Obj) : (setObj d i v).tenure = d.tenure := rfl

@[simp] theorem tenure_setFence (d : Device) (i : Nat) (v : Fence) : (setFence d i v).tenure = d.tenure := rfl

@[simp] theorem tenure_setSeq (d : Device) (i : Nat) (v : Seq) : (setSeq d i v).tenure = d.tenure := rfl

@[simp] theorem tenure_setWindow (d : Device) (w : Nat) (v : Window) : (setWindow d w v).tenure = d.tenure := rfl

@[simp] theorem tenure_setPort (d : Device) (n : Nat) (v : Port) : (setPort d n v).tenure = d.tenure := rfl

@[simp] theorem tenure_modPort (d : Device) (n : Nat) (f : Port → Port) : (modPort d n f).tenure = d.tenure := rfl

@[simp] theorem tenure_setAlarm (d : Device) (n : Nat) (v : Alarm) : (setAlarm d n v).tenure = d.tenure := rfl

@[simp] theorem tenure_setChannel (d : Device) (c ch : Nat) (v : Channel) : (setChannel d c ch v).tenure = d.tenure := rfl

@[simp] theorem tenure_modChannel (d : Device) (c ch : Nat) (f : Channel → Channel) : (modChannel d c ch f).tenure = d.tenure := rfl

@[simp] theorem tenure_setChute (d : Device) (c n : Nat) (v : Chute) : (setChute d c n v).tenure = d.tenure := rfl

@[simp] theorem tenure_setJob (d : Device) (j : Nat) (v : Job) : (setJob d j v).tenure = d.tenure := rfl

@[simp] theorem tenure_modJob (d : Device) (j : Nat) (f : Job → Job) : (modJob d j f).tenure = d.tenure := by
  unfold modJob
  split <;> simp

@[simp] theorem tenure_emit (d : Device) (o : Out) : (emit d o).tenure = d.tenure := rfl

/-! Event records, alarms, fences and objects. -/

@[simp] theorem tenure_raiseVector (d : Device) (v interval : Nat) :
    (raiseVector d v interval).tenure = d.tenure := by simp [raiseVector, apply_ite tenure]

@[simp] theorem tenure_postRing (d : Device) (n : Nat) (ev : EventRec) :
    (postRing d n ev).tenure = d.tenure := by simp [postRing, apply_ite tenure]

@[simp] theorem tenure_postQueue (d : Device) (ring : Nat) (ev : EventRec) :
    (postQueue d ring ev).tenure = d.tenure := by simp [postQueue, apply_ite tenure]

@[simp] theorem tenure_armSlot (d : Device) (n owner kind target cmp : Nat) (per : Nat) (ctx ring : Nat) :
    (armSlot d n owner kind target cmp per ctx ring).tenure = d.tenure := rfl

@[simp] theorem tenure_freeAlarm (d : Device) (n : Nat) : (freeAlarm d n).tenure = d.tenure := rfl

@[simp] theorem tenure_disarmAll (d : Device) (owner : Nat) :
    (disarmAll d owner).tenure = d.tenure := foldl_part (φ := tenure) (fun _ _ => tenure_freeAlarm ..) _ _

@[simp] theorem tenure_fenceChanged (d : Device) (i : Nat) :
    (fenceChanged d i).tenure = d.tenure := by simp [fenceChanged, apply_ite tenure]

@[simp] theorem tenure_signalFence (d : Device) (i : Nat) (v : W64) : (signalFence d i v).1.tenure = d.tenure := by
  unfold signalFence
  dsimp only
  split
  · rfl
  · split
    · rfl
    · simp

@[simp] theorem tenure_attachError (d : Device) (i : Nat) (code : Code) :
    (attachError d i code).tenure = d.tenure := by simp [attachError, apply_ite tenure]

@[simp] theorem tenure_attachTo (d : Device) (ctx : Nat) (h : W32) (code : Code) : (attachTo d ctx h code).tenure = d.tenure := by
  unfold attachTo
  split <;> simp

@[simp] theorem tenure_reapFence (d : Device) (i : Nat) : (reapFence d i).tenure = d.tenure := by simp [reapFence, apply_ite tenure]

@[simp] theorem tenure_unrefFence (d : Device) (h : W32) : (unrefFence d h).tenure = d.tenure := by simp [unrefFence, apply_ite tenure]

@[simp] theorem tenure_dropWait (d : Device) (c : Nat) : (dropWait d c).tenure = d.tenure := by
  unfold dropWait
  split <;> simp

@[simp] theorem tenure_clearRegion (d : Device) (c base : Nat) : (clearRegion d c base).tenure = d.tenure := rfl

@[simp] theorem tenure_reapObj (d : Device) (i : Nat) : (reapObj d i).tenure = d.tenure := by
  unfold reapObj
  dsimp only
  split
  · have hs : ∀ l : List Nat, ({ d.setObj i { Obj.reset with gen := (d.obj i).gen + 1 } with
        sec := { (d.setObj i { Obj.reset with gen := (d.obj i).gen + 1 }).sec with sealedObjs := l } } : Device).tenure = d.tenure :=
      fun _ => rfl
    split
    · exact hs _
    · exact hs _
    · exact (tenure_clearRegion ..).trans (hs _)
  · rfl

@[simp] theorem tenure_unrefObj (d : Device) (i : Nat) : (unrefObj d i).tenure = d.tenure := by simp [unrefObj]

/-! Traces, windows, queues, pieces and channels. -/

@[simp] theorem tenure_traceRec (d : Device) (c kind slot bundle : Nat) (detail : Nat) :
    (traceRec d c kind slot bundle detail).tenure = d.tenure := by
  unfold traceRec
  split
  · rfl
  · dsimp only
    split
    · rfl
    · split
      · exact tenure_setPdkSec _ _ _ rfl
      · split
        · exact tenure_setPdkSec _ _ _ rfl
        · exact (tenure_emit ..).trans (tenure_setPdkSec _ _ _ rfl)

@[simp] theorem tenure_progress (d : Device) (p : Nat) : (progress d p).tenure = d.tenure := tenure_modPdk _ _ _ fun _ => rfl

@[simp] theorem tenure_freeRegions (d : Device) (c : Nat) (p : Region → Bool) : (freeRegions d c p).tenure = d.tenure := rfl

@[simp] theorem tenure_winFlight (d : Device) (k : Nat) (f : Nat → Nat) : (winFlight d k f).tenure = d.tenure := rfl

@[simp] theorem tenure_winClose (d : Device) (k : Nat) : (winClose d k).tenure = d.tenure := by simp [winClose, apply_ite tenure]

@[simp] theorem tenure_closeWindows (d : Device) (p : Nat → Window → Bool) :
    (closeWindows d p).tenure = d.tenure := by simp [closeWindows, tfoldl_part (φ := tenure), apply_ite tenure]

@[simp] theorem tenure_modQueue (d : Device) (q : Nat) (f : Queue → Queue) : (modQueue d q f).tenure = d.tenure := by
  unfold modQueue
  split <;> simp

@[simp] theorem tenure_modCmd (d : Device) (q : Nat) (seq : W32) (f : Cmd → Cmd) :
    (modCmd d q seq f).tenure = d.tenure := by simp [modCmd]

@[simp] theorem tenure_finishCmd (d : Device) (q : Nat) (seq : W32) (code : Code) (handle : W32) :
    (finishCmd d q seq code handle).tenure = d.tenure := by simp [finishCmd]

@[simp] theorem tenure_setPiece (d : Device) (i : Nat) (v : Piece) : (setPiece d i v).tenure = d.tenure := rfl

@[simp] theorem tenure_leaveSession (d : Device) (i : Nat) : (leaveSession d i).tenure = d.tenure := by
  refine foldl_part (φ := tenure) (fun x b => ?_) _ _
  split
  · exact tenure_modBinding _ _ _ fun _ => rfl
  · rfl

@[simp] theorem tenure_dropPiece (d : Device) (i : Nat) : (dropPiece d i).tenure = d.tenure := by
  unfold dropPiece
  split
  · rfl
  · dsimp only
    split
    · exact (tenure_winFlight ..).trans ((tenure_leaveSession ..).trans (tenure_of_parts rfl rfl rfl rfl rfl))
    · exact (tenure_leaveSession ..).trans (tenure_of_parts rfl rfl rfl rfl rfl)

@[simp] theorem tenure_stopPieces (d : Device) (o : PieceOwner → Bool) : (stopPieces d o).tenure = d.tenure := by
  refine tfoldl_part (φ := tenure) (fun x i p => ?_) _ _
  split
  · split <;> simp
  · rfl

@[simp] theorem tenure_unbind (d : Device) (c ch : Nat) :
    (unbind d c ch).tenure = d.tenure := foldl_part (φ := tenure) (fun _ _ => tenure_modCore ..) _ _

@[simp] theorem tenure_forgetSenders (d : Device) (p : Sender → Bool) : (forgetSenders d p).tenure = d.tenure := by
  unfold forgetSenders
  split
  · exact foldl_part (φ := tenure) (fun _ _ => tenure_modCore ..) _ _
  · rfl

@[simp] theorem tenure_stopRing (c ch : Nat) (s : Device × Nat) (r : Ring4) : (stopRing c ch s r).1.tenure = s.1.tenure := by
  unfold stopRing
  exact (tenure_setChute ..).trans (tenure_of_parts rfl rfl rfl rfl rfl)

@[simp] theorem tenure_stopStream (d : Device) (c ch : Nat) : (stopStream d c ch).tenure = d.tenure := by
  have hr : ∀ (l : List Ring4) (x : Device × Nat), (l.foldl (stopRing c ch) x).1.tenure = x.1.tenure := fun l => by
    induction l with
    | nil => exact fun _ => rfl
    | cons r l ih => exact fun x => (ih _).trans (tenure_stopRing ..)
  unfold stopStream
  extract_lets k
  split
  next e waste he =>
  have h := hr ((d.channel c ch).ring.toList ++ (d.channel c ch).olds) (d, 0)
  rw [he] at h
  exact (tenure_modChannel ..).trans ((tenure_unbind ..).trans h)

@[simp] theorem tenure_stopChannel (d : Device) (c ch : Nat) : (stopChannel d c ch).tenure = d.tenure := by
  unfold stopChannel
  split
  · refine (tenure_setChannel ..).trans ((tenure_of_parts rfl rfl rfl rfl rfl).trans (?_ : (((d.stopStream c ch).stopPieces
      (ofChannel c ch)).forgetSenders (· == .channel c ch)).tenure = d.tenure))
    simp
  · rfl

@[simp] theorem tenure_haltChannel (d : Device) (c ch : Nat) (code : Code) (detail : BitVec 96) (pc : Option Nat) :
    (haltChannel d c ch code detail pc).tenure = d.tenure := by
  unfold haltChannel
  split
  · dsimp only
    split <;> simp
  · rfl

@[simp] theorem tenure_failCommand (d : Device) (s : Nat) (seq : W32) (code : Code) :
    (failCommand d s seq code).tenure = d.tenure := by simp [failCommand]

@[simp] theorem tenure_failPiece (d : Device) (i : Nat) (code : Code) (l : Loc) : (failPiece d i code l).tenure = d.tenure := by
  unfold failPiece
  split
  · rfl
  · dsimp only
    split
    · simp
    · split <;> simp

/-! Frames and sessions. -/

@[simp] theorem tenure_sendAt (d : Device) (n : Nat) (fwd : Bool) (f : DroveFrame) : (sendAt d n fwd f).tenure = d.tenure := rfl

@[simp] theorem tenure_putPort (d : Device) (n : Nat) (fwd : Bool) (f : DroveFrame) :
    (putPort d n fwd f).tenure = d.tenure := by simp [putPort, apply_ite tenure]

@[simp] theorem tenure_sendFrame (d : Device) (b : Nat) (f : DroveFrame) : (sendFrame d b f).tenure = d.tenure := by
  unfold sendFrame
  split
  · rfl
  · split
    · rfl
    · exact tenure_putPort ..

@[simp] theorem tenure_flushOwed (b n : Nat) (d : Device) : (flushOwed d b n).tenure = d.tenure := by
  induction n generalizing d with
  | zero => rfl
  | succ n ih =>
    unfold flushOwed
    dsimp only
    split
    · rfl
    · split
      · exact (ih _).trans ((tenure_sendFrame ..).trans (tenure_setBinding _ _ _ rfl))
      · rfl

@[simp] theorem tenure_sendSeq (d : Device) (b : Nat) (f : DroveFrame) :
    (sendSeq d b f).tenure = d.tenure := by simp [sendSeq, tenure_setBinding]

@[simp] theorem tenure_endOutstanding (d : Device) (b : Nat) (code : Code) : (endOutstanding d b code).tenure = d.tenure := by
  refine foldl_part (φ := tenure) (fun _ _ => ?_) _ _
  split <;> simp

@[simp] theorem tenure_clearSession (d : Device) (b : Nat) (code : Code) : (clearSession d b code).tenure = d.tenure := by
  unfold clearSession
  refine (tenure_modBinding _ _ _ ?_).trans (tenure_endOutstanding ..)
  exact fun _ => rfl

@[simp] theorem tenure_sessionDown (d : Device) (b : Nat) (code : Code) : (sessionDown d b code).tenure = d.tenure := by
  unfold sessionDown
  refine (tenure_modBinding _ _ _ ?_).trans (tenure_clearSession ..)
  exact fun _ => rfl

/-! Power phases and Musters. -/

@[simp] theorem tenure_learn (d : Device) (c : Nat) : (learn d c).tenure = d.tenure := by
  unfold learn
  dsimp only
  split
  · exact tenure_of_parts rfl rfl rfl rfl rfl
  · split
    · exact tenure_of_parts rfl rfl rfl rfl rfl
    · split <;> exact tenure_of_parts rfl rfl rfl rfl rfl

@[simp] theorem tenure_lowerTo (d : Device) (s limit : Nat) : (lowerTo d s limit).tenure = d.tenure := rfl

@[simp] theorem tenure_takeCommon (d : Device) (field leader at_ : Nat) : (takeCommon d field leader at_).tenure = d.tenure := by
  refine tenure_of_parts ?_ ?_ ?_ ?_ ?_ <;>
    · simp only [takeCommon, lowerTo]
      repeat' split
      all_goals rfl

@[simp] theorem tenure_lowerCommon (d : Device) : (lowerCommon d).tenure = d.tenure := by
  refine tenure_of_parts ?_ ?_ ?_ ?_ ?_ <;>
    · simp only [lowerCommon, lowerTo]
      repeat' split
      all_goals rfl

@[simp] theorem tenure_forgetAnnounced (d : Device) (c : Nat) : (forgetAnnounced d c).tenure = d.tenure := by
  unfold forgetAnnounced
  split
  · next slot _ =>
    refine (tenure_of_parts (d := (d.freeAlarm slot).modCore c fun k => { k with announced := none }) rfl rfl rfl rfl rfl).trans ?_
    exact (tenure_modCore ..).trans (tenure_freeAlarm ..)
  · rfl

@[simp] theorem tenure_endPhase (d : Device) (c : Nat) : (endPhase d c).tenure = d.tenure := by simp [endPhase]

@[simp] theorem tenure_freeMusterSlot (d : Device) (p : Nat) : (freeMusterSlot d p).tenure = d.tenure := by
  unfold freeMusterSlot
  split
  · split
    · exact tenure_freeAlarm ..
    · rfl
  · rfl

@[simp] theorem tenure_rearmMuster (d : Device) (p : Nat) : (rearmMuster d p).tenure = d.tenure := by
  unfold rearmMuster
  split
  · rfl
  · split
    · rfl
    · split <;> simp

@[simp] theorem tenure_setRound (d : Device) (r : Round) : (setRound d r).tenure = d.tenure := rfl

@[simp] theorem tenure_releaseCores (d : Device) (cores : List Nat) :
    (releaseCores d cores).tenure = d.tenure := by simp [releaseCores, foldl_part (φ := tenure), apply_ite tenure]

@[simp] theorem tenure_releaseRound (d : Device) (j : Nat) (r : Round) :
    (releaseRound d j r).tenure = d.tenure := by simp [releaseRound, apply_ite tenure]

@[simp] theorem tenure_completeRound (d : Device) (j lead : Nat) (r : Round) :
    (completeRound d j lead r).tenure = d.tenure := by simp [completeRound, apply_ite tenure]

@[simp] theorem tenure_tryComplete (d : Device) (j id : Nat) : (tryComplete d j id).tenure = d.tenure := by
  unfold tryComplete
  split
  · split
    · rfl
    · split
      · rfl
      · split
        · exact tenure_completeRound ..
        · split
          · refine foldl_part (φ := tenure) (fun x y => ?_) _ _
            split
            · exact tenure_completeRound ..
            · rfl
          · extract_lets release step f d1 d2
            have h1 : d1.tenure = d.tenure := foldl_part (φ := tenure) (fun x a => by split <;> simp) _ _
            have h2 : d2.tenure = d1.tenure := by
              unfold d2
              split
              · exact tenure_takeCommon ..
              · rfl
            split <;> simp [h1, h2]
  · rfl

@[simp] theorem tenure_resumeRounds (d : Device) : (resumeRounds d).tenure = d.tenure := by
  exact (foldl_part (φ := tenure) tenure_rearmMuster _ _).trans (tenure_of_parts rfl rfl rfl rfl rfl)

@[simp] theorem tenure_dropRounds (d : Device) (j p : Nat) : (dropRounds d j p).tenure = d.tenure := by
  refine (foldl_part (φ := tenure) (fun x i => ?_) _ _).trans ((tenure_rearmMuster ..).trans (tenure_of_parts rfl rfl rfl rfl rfl))
  split
  · exact tenure_tryComplete ..
  · rfl

/-! Shares, tickets, sequences and jobs. -/

@[simp] theorem tenure_setShare (d : Device) (p g : Nat) (v : Share) :
    (setShare d p g v).tenure = d.tenure := tenure_modPdk _ _ _ fun _ => rfl

@[simp] theorem tenure_chargeGroup (d : Device) (p g n : Nat) : (chargeGroup d p g n).tenure = d.tenure := by simp [chargeGroup]

@[simp] theorem tenure_chargeStep (d : Device) (p : Nat) : (chargeStep d p).tenure = d.tenure := by
  unfold chargeStep
  split
  · rfl
  · dsimp only
    split
    · exact (tenure_chargeGroup ..).trans (foldl_part (φ := tenure) (fun _ _ => tenure_chargeGroup ..) _ _)
    · exact foldl_part (φ := tenure) (fun _ _ => tenure_chargeGroup ..) _ _

@[simp] theorem tenure_setSem (d : Device) (p n : Nat) (v : Sem) :
    (setSem d p n v).tenure = d.tenure := tenure_modPdk _ _ _ fun _ => rfl

@[simp] theorem tenure_releaseTicket (p n fuel : Nat) (d : Device) : (releaseTicket d p n fuel).tenure = d.tenure := by
  induction fuel generalizing d with
  | zero => rfl
  | succ fuel ih =>
    unfold releaseTicket
    split
    · rfl
    · dsimp only
      split
      · exact (ih _).trans ((tenure_setSem ..).trans (tenure_signalFence ..))
      · exact tenure_signalFence ..

@[simp] theorem tenure_dropTickets (d : Device) (j : Nat) (v : Job) :
    (dropTickets d j v).tenure = d.tenure := by simp [dropTickets, foldl_part (φ := tenure)]

@[simp] theorem tenure_seqIdle (d : Device) (i : Nat) :
    (seqIdle d i).tenure = d.tenure := by simp [seqIdle, foldl_part (φ := tenure), apply_ite tenure]

@[simp] theorem tenure_leaveDone (d : Device) (i : Nat) : (leaveDone d i).tenure = d.tenure := by
  unfold leaveDone
  split <;> simp

@[simp] theorem tenure_idleAll (d : Device) (p : Nat) (code : Code) :
    (idleAll d p code).tenure = d.tenure := by simp [idleAll, tfoldl_part (φ := tenure), apply_ite tenure]

@[simp] theorem tenure_leaveCore (d : Device) (c : Nat) : (leaveCore d c).tenure = d.tenure := by
  unfold leaveCore
  extract_lets d1 d2 d3
  have h1 : d1.tenure = d.tenure := by simp [d1]
  have h2 : d2.tenure = d1.tenure := by simp [d2]
  have h3 : d3.tenure = d2.tenure := foldl_part (φ := tenure) (fun _ _ => tenure_modChannel ..) _ _
  exact (tenure_modCore ..).trans ((tenure_forgetSenders ..).trans (h3.trans (h2.trans h1)))

@[simp] theorem tenure_freeJobRegions (d : Device) (j : Nat) :
    (freeJobRegions d j).tenure = d.tenure := foldl_part (φ := tenure) (fun _ _ => tenure_freeRegions ..) _ _

@[simp] theorem tenure_calmCore (d : Device) (c : Nat) : (calmCore d c).tenure = d.tenure := rfl

@[simp] theorem tenure_withdrawFor (d : Device) (j : Nat) :
    (withdrawFor d j).tenure = d.tenure := by simp [withdrawFor, foldl_part (φ := tenure), tfoldl_part (φ := tenure), apply_ite tenure]

@[simp] theorem tenure_lapseCommon (d : Device) (p : Nat) (v : Job) : (lapseCommon d p v).tenure = d.tenure := by
  unfold lapseCommon
  split <;> rfl

@[simp] theorem tenure_endJob (d : Device) (j : Nat) (code : Code) : (endJob d j code).tenure = d.tenure := by
  unfold endJob
  split
  · rfl
  · next v hv =>
    extract_lets code d1 d2 d3 d4 d5 d6 d7 d8 d9 d10 d11 d12 d13
    have h1 : d1.tenure = d.tenure := foldl_part (φ := tenure) (fun x c => by split <;> simp) _ _
    have h2 : d2.tenure = d1.tenure := tenure_of_parts rfl rfl rfl rfl rfl
    have h3 : d3.tenure = d2.tenure :=
      foldl_part (φ := tenure) (fun x c => foldl_part (φ := tenure) (fun _ _ => tenure_modChannel ..) _ _) _ _
    have h4 : d4.tenure = d3.tenure := tenure_of_parts rfl rfl rfl rfl rfl
    have h10 : d10.tenure = d4.tenure := by simp [d10, d9, d8, d7, d6, d5]
    have h11 : d11.tenure = d10.tenure := (tenure_resumeRounds _).trans (by rfl)
    have h12 : d12.tenure = d11.tenure := tenure_freeMusterSlot ..
    have h13 : d13.tenure = d12.tenure := by
      unfold d13
      split
      · refine (tenure_modPdk _ _ _ ?_).trans ((tenure_idleAll ..).trans (tenure_chargeStep ..))
        exact fun _ => rfl
      · rfl
    calc
      _ = d13.tenure := tenure_finishCmd ..
      _ = d10.tenure := h13.trans (h12.trans h11)
      _ = d4.tenure := h10
      _ = d.tenure := h4.trans (h3.trans (h2.trans h1))

/-! Commands and the fence of a Paddock. -/

@[simp] theorem tenure_modXlt (d : Device) (f : Xlt → Xlt) : (modXlt d f).tenure = d.tenure := rfl

@[simp] theorem tenure_dropHolds (d : Device) (q : Nat) (seq : W32) : (dropHolds d q seq).tenure = d.tenure := rfl

@[simp] theorem tenure_modStallQ (d : Device) (s : Nat) (f : Queue → Queue) : (modStallQ d s f).tenure = d.tenure := rfl

@[simp] theorem tenure_fenceCommon (d : Device) (p : Nat) : (fenceCommon d p).tenure = d.tenure := by
  refine (tenure_closeWindows ..).trans ((tenure_disarmAll ..).trans ((tenure_modPdk _ _ _ ?_).trans
    ((foldl_part (φ := tenure) (fun _ _ => tenure_modCore ..) _ _).trans
      (foldl_part (φ := tenure) (fun _ _ => tenure_modStall ..) _ _))))
  exact fun _ => rfl

@[simp] theorem tenure_dropCommand (d : Device) (ctx queue : Nat) (m : Cmd) (code : Code) :
    (dropCommand d ctx queue m code).tenure = d.tenure := by simp [dropCommand, foldl_part (φ := tenure), apply_ite tenure]

@[simp] theorem tenure_dropCommands (d : Device) (code : Code) (s : Nat) :
    (dropCommands d code s).tenure = d.tenure := by simp [dropCommands, foldl_part (φ := tenure)]

@[simp] theorem tenure_endJobs (d : Device) (p : Nat) (code : Code) : (endJobs d p code).tenure = d.tenure := by
  refine tfoldl_part (φ := tenure) (fun x j v => ?_) _ _
  split
  · exact tenure_endJob ..
  · rfl

@[simp] theorem tenure_dropOutCommands (d : Device) (p : Nat) (code : Code) : (dropOutCommands d p code).tenure = d.tenure := by
  simp [dropOutCommands, foldl_part (φ := tenure), tfoldl_part (φ := tenure), apply_ite tenure]

@[simp] theorem tenure_auditRule (d : Device) (p : Nat) : (auditRule d p).tenure = d.tenure := by
  unfold auditRule
  split
  · rfl
  · exact foldl_part (φ := tenure) (fun _ _ => tenure_modSlice ..) _ _

end Device

/-! ### The last chunk of a write (R491 to R494) -/

namespace Device

variable {d e : Device} {k : Nat} {r : DzRequest} {o : DzObj} {b : List Byte} {c : Code}

/-- What it takes to be the last chunk of a write (R491 to R493). -/
theorem of_lastChunk (h : d.lastChunk k r o b = true) :
    k < 4 ∧ d.reaches (some k) = true ∧ (d.sess k).operator = true ∧ d.dzFind r.index.toNat r.sub.toNat = some o ∧
    o.access ≠ .ro ∧ r.more = false ∧ r.len = r.data.length ∧ r.len ≤ 1024 ∧
    r.offset = (d.stagedBy k r.index.toNat r.sub.toNat).length ∧ b = d.stagedBy k r.index.toNat r.sub.toNat ++ r.data ∧ fits o b = true ∧
    d.stagedElsewhere (some k) r.index.toNat r.sub.toNat = false := by
  simpa only [lastChunk, Bool.and_eq_true, decide_eq_true_eq, beq_iff_eq, bne_iff_ne, Bool.not_eq_true', ne_eq, and_assoc] using h

/-- Past the checks of R493, the last chunk of a write applies the value. -/
theorem dzChecked_last (h : d.lastChunk k r o b = true) (go : Nat → DzObj → List Byte → Bool → Device) :
    d.dzChecked (some k) r go = go k o (d.stagedBy k r.index.toNat r.sub.toNat) false := by
  obtain ⟨-, hreach, hop, hfind, hrw, hmore, hlen, hmax, hoff, hb, hfits, hfree⟩ := of_lastChunk h
  subst hb
  simp [dzChecked, hreach, hfind, isOperator, hop, hrw, hmore, hlen, hoff, hfits, hfree, hlen ▸ hmax]

variable {mine : Nat → Bool} {apply : Nat → Nat → Nat → List Byte → Device → Written}

/-- The last chunk of a write leaves the staging, and the value is applied or refused. -/
theorem dzWrite_last (h : d.lastChunk k r o b = true) (hm : mine r.index.toNat = true) :
    d.dzWrite mine apply (some k) r =
      match apply k r.index.toNat r.sub.toNat b (d.unstage k r.index.toNat r.sub.toNat) with
      | .inl e => e.respond r 2 r.index.toNat r.sub.toNat o.type 0
      | .inr c => (d.unstage k r.index.toNat r.sub.toNat).respond r 2 r.index.toNat r.sub.toNat o.type c := by
  obtain ⟨-, -, -, -, -, hmore, -, -, -, hb, -, -⟩ := of_lastChunk h
  simp only [dzWrite, hm, dzChecked_last h, hmore, ← hb]
  cases apply k r.index.toNat r.sub.toNat b (d.unstage k r.index.toNat r.sub.toNat) <;> rfl

end Device

theorem onSess_of_lastChunk {s : State} {k : Nat} {r : DzRequest} {o : DzObj} {b : List Byte}
    (h : s.dev.lastChunk k r o b = true) (f : Device → Device) : onSess (some k) s f = s.goes (f s.dev) := by
  obtain ⟨hk, -⟩ := Device.of_lastChunk h
  exact onSess_next s f (by simpa using hk)

section
variable {s : State} {k : Nat} {r : DzRequest} {o : DzObj} {b : List Byte} {mine : Nat → Bool}
  {apply : Nat → Nat → Nat → List Byte → Device → Device.Written}
  (h : s.dev.lastChunk k r o b = true) (hm : mine r.index.toNat = true)
include h hm

/-- A value that is applied is answered with code 0. -/
theorem onSess_accepted {e : Device}
    (ha : apply k r.index.toNat r.sub.toNat b (s.dev.unstage k r.index.toNat r.sub.toNat) = .inl e) :
    onSess (some k) s (Device.dzWrite mine apply (some k) r) = s.goes (e.respond r 2 r.index.toNat r.sub.toNat o.type 0) := by
  rw [onSess_of_lastChunk h, Device.dzWrite_last h hm, ha]

/-- A value that is refused leaves the device, but for the staging, and is answered with its code. -/
theorem onSess_refused {c : Code}
    (ha : apply k r.index.toNat r.sub.toNat b (s.dev.unstage k r.index.toNat r.sub.toNat) = .inr c) :
    onSess (some k) s (Device.dzWrite mine apply (some k) r) =
      s.goes ((s.dev.unstage k r.index.toNat r.sub.toNat).respond r 2 r.index.toNat r.sub.toNat o.type c) := by
  rw [onSess_of_lastChunk h, Device.dzWrite_last h hm, ha]

end

namespace Device
variable {d : Device} {r : DzRequest} {o : DzObj} {b : List Byte} {n i k : Nat}

/-! ### The values of single objects: applied, or refused with a code -/

theorem inFlash_ok (hf : r.flash = .ok) (e : Device) : inFlash r (.inl e) = .inl e := by simp [inFlash, hf]

theorem applyOther_thermWarn (hi : i = 0x3002) (hf : r.flash = .ok) (hlo : 70 ≤ ofBytes b) (hhi : ofBytes b ≤ 105) :
    applyOther r i n b d = .inl { d with power := { d.power with thermWarn := ofBytes b } } := by
  subst hi
  simp [applyOther, modPower, inFlash, hf, hlo, hhi]

theorem applyOther_thermWarn_out (hi : i = 0x3002) (hv : ofBytes b < 70 ∨ 105 < ofBytes b) :
    applyOther r i n b d = .inr BAD_FIELD := by
  subst hi
  have hout : (decide (70 ≤ ofBytes b) && decide (ofBytes b ≤ 105)) = false := by
    rw [Bool.and_eq_false_iff, decide_eq_false_iff_not, decide_eq_false_iff_not]
    omega
  simp only [applyOther, hout]
  rfl

theorem applyOther_hangMs (hi : i = 0x5000) (hf : r.flash = .ok) (hv : ofBytes b = 0 ∨ (10 ≤ ofBytes b ∧ ofBytes b ≤ 60000)) :
    applyOther r i n b d = .inl { d with resets := { d.resets with hangMs := ofBytes b } } := by
  subst hi
  have hok : (ofBytes b == 0 || (decide (10 ≤ ofBytes b) && decide (ofBytes b ≤ 60000))) = true := by simpa using hv
  simp [applyOther, inFlash, hf, hok]

theorem applyChanOn_owned (hv : ofBytes b = 0) (ho : (d.pdkOfChan n).isSome = true) : applyChanOn r n b d = .inr BUSY := by
  simp [applyChanOn, hv, ho]

theorem applyChanOn_off (hv : ofBytes b = 0) (ho : d.pdkOfChan n = none) (hf : r.flash = .ok) :
    applyChanOn r n b d = .inl ((d.modDict fun x => { x with chanOff := n :: x.chanOff.filter (· != n) }).modChan n fun k =>
      if k.state = .failed then k else { k with state := .off }) := by
  simp [applyChanOn, hv, ho, inFlash, hf]

theorem applyCap_inFlash (hlo : 5 ≤ ofBytes b) (hhi : ofBytes b ≤ fusedWatts d.fuse) :
    applyCap r b d = inFlash r (.inl { d with power := { d.power with capSet := ofBytes b } }) := by
  have h : ¬(ofBytes b < 5 ∨ fusedWatts d.fuse < ofBytes b) := by omega
  simp [applyCap, h, modPower]

theorem applyCap_out (hv : ofBytes b < 5 ∨ fusedWatts d.fuse < ofBytes b) : applyCap r b d = .inr BAD_FIELD := by
  simp [applyCap, hv]

theorem applyRoot_ok {parses : Bool} (hf : r.flash = .ok) (hlen : b.length ≤ 2048) (hp : b = [] ∨ parses = true) :
    applyRoot r parses n b d = .inl { d with dict := { d.dict with roots := Table.set d.dict.roots [] n b } } := by
  have h : (decide (2048 < b.length) || (!b.isEmpty && !parses)) = false := by
    rcases hp with rfl | rfl
    · rfl
    · simpa using hlen
  simp [applyRoot, h, inFlash, hf, modDict]

theorem applyRemove_asked (hv : ofBytes b ≠ 0) (hp : d.pdkPresent n = true) (hb : d.removalBarred n = false) :
    applyRemove n b d = .inl (d.requestRemoval n) := by simp [applyRemove, hv, hp, hb]

theorem applyRemove_barred (hv : ofBytes b ≠ 0) (hp : d.pdkPresent n = true) (hb : d.removalBarred n = true) :
    applyRemove n b d = .inr 0x0604 := by simp [applyRemove, hv, hp, hb]

theorem applyPdkReset_asked (hv : ofBytes b ≠ 0) (hp : d.pdkPresent n = true) (hd : d.glb.devState ≠ 0) :
    applyPdkReset n b d = .inl (d.requestReset n 0x0701) := by simp [applyPdkReset, hv, hp, hd]

theorem applyDevReset_asked (hv : ofBytes b = 0x0B60) (hd : d.glb.devState ≠ 0) :
    applyDevReset b d = .inl (d.requestDevReset 0x070F) := by simp [applyDevReset, hv, hd]

theorem applyDevReset_other (hv : ofBytes b ≠ 0x0B60) : applyDevReset b d = .inr BAD_FIELD := by simp [applyDevReset, hv]

theorem applySrc_ok (hf : r.flash = .ok) (hv : ofBytes b ≤ 2) (hz : ofBytes b ≠ 0 ∨ d.tally.hz ≠ 0) :
    applySrc r b d = .inl (d.setSource (ofBytes b)) := by
  have h2 : ¬ 2 < ofBytes b := by omega
  have h0 : ¬(ofBytes b = 0 ∧ d.tally.hz = 0) := by omega
  simp [applySrc, h2, h0, inFlash, hf]

theorem applySrc_noClock (hv : ofBytes b = 0) (hz : d.tally.hz = 0) : applySrc r b d = .inr BUSY := by simp [applySrc, hv, hz]

theorem applyTcHz_ok (hf : r.flash = .ok) (hlo : 1000000 ≤ ofBytes b) (hhi : ofBytes b ≤ 200000000) :
    applyTcHz r b d = .inl { d with tally := { d.tally with
      hz := ofBytes b, rate := if d.tally.src = 0 then d.tally.rate else rateOf (ofBytes b) } } := by
  have h : ¬(ofBytes b < 1000000 ∨ 200000000 < ofBytes b) := by omega
  simp only [applyTcHz, h, if_false, inFlash_ok hf]
  rfl

theorem applyCal_ok : applyCal b d = .inl { d with tally := { d.tally with calSet := some (ofBytes b % 2 ^ 63) } } := by
  simp [applyCal, setCalendar, modTally]

theorem applyCommit_noSlot {ok : Bool} (hv : 1 < ofBytes b) : applyCommit r ok b d = .inr BAD_FIELD := by simp [applyCommit, hv]

theorem applyCommit_active {ok : Bool} (hv : ofBytes b ≤ 1) (ha : ofBytes b = d.flash.active) : applyCommit r ok b d = .inr BUSY := by
  have h : ¬ 1 < ofBytes b := by omega
  rw [applyCommit, if_neg h, if_pos ha]

theorem applyCommit_ok (hv : ofBytes b ≤ 1) (ha : ofBytes b ≠ d.flash.active) (hf : r.flash = .ok) :
    applyCommit r true b d = .inl ((d.eraseNow ((d.flash.bootSeq + 1) % 2)).modFlash fun f => { f with
      bootSeq := f.bootSeq + 1, bootSlot := ofBytes b, imageOk := Table.set f.imageOk false (ofBytes b) true }) := by
  have h : ¬ 1 < ofBytes b := by omega
  simp [applyCommit, h, ha, inFlash, hf]


/-! Trust, routes and bindings (R390, R403, R497). -/

/-- The binding that a BIND value asks for. -/
def bindingOf (w : W64) : Binding :=
  { Binding.reset with
    valid := bit w 0, pdk := bits w 3 1, peerPdk := bits w 6 4, peer := BitVec.ofNat 16 (bits w 23 8), credits := bits w 33 24 }

section
variable {w : W64} (hw : w = BitVec.ofNat 64 (ofBytes b)) (h7 : bit w 7 = false) (hz : bits w 63 52 = 0)
include hw h7 hz

/-- A BIND that names a new binding, past the checks of its fields. -/
theorem applyBind_new (hv : bit w 0 = true) (hx : (d.binding k).valid = false) (hc : (bindingOf w).credits ≠ 0)
    (hsum : (bindingOf w).credits + d.otherCredits k ≤ 512) (hp : d.pdkPresent (bindingOf w).pdk = true)
    (h0 : (bindingOf w).peer ≠ 0) (hF : (bindingOf w).peer ≠ 0xFFFF) (ha : (bindingOf w).peer ≠ d.links.addr)
    (htwice : ∀ j < 64, j ≠ k → (d.binding j).valid = true → (d.binding j).pdk = (bindingOf w).pdk →
      (d.binding j).peer ≠ (bindingOf w).peer) :
    applyBind r k b d = if d.confidential (bindingOf w).pdk && !d.trusted (bindingOf w).peer.toNat then .inr 0x0405
      else inFlash r (.inl ((d.setBinding k (bindingOf w)).sessionOpen k)) := by
  subst hw
  unfold applyBind
  extract_lets w x reset n same twice
  have hn : n.valid = true := hv
  have hx' : x.valid = false := hx
  have htw : twice = false := by
    rw [List.any_eq_false]
    intro j hj
    simp only [Bool.and_eq_true, bne_iff_ne, beq_iff_eq, not_and]
    exact fun ⟨⟨hne, hval⟩, hpdk⟩ => htwice j (List.mem_range.1 hj) hne hval hpdk
  have hfields : (n.credits == 0 || decide (512 < n.credits + d.otherCredits k) || !d.pdkPresent n.pdk || n.peer == 0 ||
      n.peer == 0xFFFF || n.peer == d.links.addr || twice) = false := by
    simp only [Bool.or_eq_false_iff, beq_eq_false_iff_ne, decide_eq_false_iff_not, Bool.not_eq_false', not_lt]
    exact ⟨⟨⟨⟨⟨⟨hc, hsum⟩, hp⟩, h0⟩, hF⟩, ha⟩, htw⟩
  rw [if_neg (by simp [w, h7, hz]), if_neg (by rw [hfields, Bool.and_false]; exact Bool.false_ne_true), if_neg (by simp [hx'])]
  simp only [hn, hx', Bool.true_and, Bool.false_and, Bool.false_eq_true, if_false]
  rfl

/-- A BIND with the fields of a standing binding and VALID 0 clears it. -/
theorem applyBind_clear (hv : bit w 0 = false) (hx : (d.binding k).valid = true) (hp : (d.binding k).pdk = (bindingOf w).pdk)
    (hpp : (d.binding k).peerPdk = (bindingOf w).peerPdk) (hpeer : (d.binding k).peer = (bindingOf w).peer)
    (hc : (d.binding k).credits = (bindingOf w).credits) (hf : r.flash = .ok) :
    applyBind r k b d = .inl (d.clearBinding k 0x0406) := by
  subst hw
  unfold applyBind
  extract_lets w x reset n same twice
  have hn : n.valid = false := hv
  have hx' : x.valid = true := hx
  have hsame : same = true := by
    simp only [same, Bool.and_eq_true, beq_iff_eq]
    exact ⟨⟨⟨hp.symm, hpp.symm⟩, hpeer.symm⟩, hc.symm⟩
  rw [if_neg (by simp [w, h7, hz]), if_neg (by simp [hn]), if_neg (by simp [hsame]), if_neg (by simp [hn]), if_neg (by simp [hn]),
    if_pos hx', inFlash_ok hf]

/-- A BIND that would change a standing binding's peer is refused. -/
theorem applyBind_busy (hv : bit w 0 = false) (hx : (d.binding k).valid = true) (hpeer : (d.binding k).peer ≠ (bindingOf w).peer) :
    applyBind r k b d = .inr BUSY := by
  subst hw
  unfold applyBind
  extract_lets w x reset n same twice
  have hn : n.valid = false := hv
  have hx' : x.valid = true := hx
  have hsame : same = false := by
    simp only [same, Bool.and_eq_false_iff, beq_eq_false_iff_ne]
    exact Or.inl (Or.inr hpeer.symm)
  rw [if_neg (by simp [w, h7, hz]), if_neg (by simp [hn]), if_pos (by simp [hsame, hx'])]

end

/-- With MODE 0 the address has no port, and no session opens. -/
theorem applyRoute_off (hm : bits (BitVec.ofNat 8 (ofBytes b)) 1 0 = 0) (hf : r.flash = .ok) : applyRoute r n b d =
    .inl { d with links := { d.links with routes := Table.set d.links.routes 0 n (BitVec.ofNat 8 (ofBytes b)) } } := by
  unfold applyRoute
  extract_lets v links e
  have hm' : bits v 1 0 = 0 := hm
  have hport : e.routePort n = none := by simp [routePort, e, hm']
  rw [if_neg (by simp [hm']), inFlash_ok hf, List.foldl_fixed' fun k => ?_]
  split
  · next h => simp [sessionOpen, beq_iff_eq.1 h, hport]
  · rfl

/-- With MODE 1 or 2 the sessions towards the address open in turn. -/
theorem applyRoute_on (hhi : bits (BitVec.ofNat 8 (ofBytes b)) 1 0 ≤ 2)
    (hn : (Table.get d.links.nbrs Neighbour.reset (bits (BitVec.ofNat 8 (ofBytes b)) 7 2)).valid = true) (hf : r.flash = .ok) :
    applyRoute r n b d = .inl ((List.range 64).foldl (fun d k => if (d.binding k).peer.toNat == n then d.sessionOpen k else d)
      { d with links := { d.links with routes := Table.set d.links.routes 0 n (BitVec.ofNat 8 (ofBytes b)) } }) := by
  unfold applyRoute
  extract_lets v links e
  have h3 : bits v 1 0 ≠ 3 := by
    change bits v 1 0 ≤ 2 at hhi
    omega
  have hn' : (Table.get d.links.nbrs Neighbour.reset (bits v 7 2)).valid = true := hn
  rw [if_neg (by simp [h3, hn']), inFlash_ok hf]

/-- Binding `j` is valid, its peer is at address `a`, to which a route leads, and its Paddock runs. -/
def Openable (a j : Nat) (d : Device) : Prop :=
  (d.binding j).valid = true ∧ (d.binding j).peer.toNat = a ∧ (d.routePort a).isSome = true ∧ (d.pdk (d.binding j).pdk).rst = .running

theorem sessionOpen_routes (d : Device) (k : Nat) : (d.sessionOpen k).links.routes = d.links.routes := by
  unfold sessionOpen
  dsimp only
  split <;> rfl

theorem sessionOpen_binding_ne {j : Nat} (d : Device) (h : k ≠ j) : (d.sessionOpen k).binding j = d.binding j := by
  unfold sessionOpen
  dsimp only
  split
  · exact setBinding_binding_ne _ _ _ h
  · rfl

theorem sessionOpen_binding_same {a j : Nat} (h : Openable a j d) : (d.sessionOpen j).binding j =
    if (d.binding j).state = .down then { d.binding j with state := .opening } else d.binding j := by
  obtain ⟨hvalid, hpeer, hport, hrun⟩ := h
  by_cases hs : (d.binding j).state = .down
  · simp [sessionOpen, hvalid, hpeer, hport, hrun, hs]
  · simp [sessionOpen, hs]

theorem Openable.sessionOpen {a j : Nat} (h : Openable a j d) (k : Nat) : Openable a j (d.sessionOpen k) := by
  have hb : (d.sessionOpen k).binding j = d.binding j ∨ (d.sessionOpen k).binding j = { d.binding j with state := .opening } := by
    by_cases hk : k = j
    · rw [hk, sessionOpen_binding_same h]
      split
      · exact Or.inr rfl
      · exact Or.inl rfl
    · exact Or.inl (sessionOpen_binding_ne d hk)
  have hroute : (d.sessionOpen k).routePort a = d.routePort a := by simp only [routePort, sessionOpen_routes]
  have hrst : ∀ p, ((d.sessionOpen k).pdk p) = d.pdk p := fun p => by
    unfold Device.sessionOpen
    dsimp only
    split <;> rfl
  obtain ⟨hvalid, hpeer, hport, hrun⟩ := h
  rcases hb with hb | hb <;> simp only [Openable, hb, hroute, hrst] <;> exact ⟨hvalid, hpeer, hport, hrun⟩

/-- A session towards the address that is DOWN opens when its turn comes, and stays OPENING. -/
theorem openSessions_opening {a j : Nat} (l : List Nat) {d : Device} (ho : Openable a j d)
    (hs : (d.binding j).state = .opening ∨ (d.binding j).state = .down ∧ j ∈ l) :
    ((l.foldl (fun d k => if (d.binding k).peer.toNat == a then d.sessionOpen k else d) d).binding j).state = .opening := by
  induction l generalizing d with
  | nil => exact hs.resolve_right fun h => absurd h.2 List.not_mem_nil
  | cons k l ih =>
    rw [List.foldl_cons]
    by_cases hk : k = j
    · subst hk
      rw [if_pos (beq_iff_eq.2 ho.2.1)]
      refine ih (ho.sessionOpen k) (Or.inl ?_)
      rw [sessionOpen_binding_same ho]
      split
      · rfl
      · next h => exact hs.resolve_right fun hd => h hd.1
    · have hs' : (d.binding j).state = .opening ∨ (d.binding j).state = .down ∧ j ∈ l :=
        hs.imp_right fun h => ⟨h.1, (List.mem_cons.1 h.2).resolve_left (Ne.symm hk)⟩
      split
      · exact ih (ho.sessionOpen k) (by rwa [sessionOpen_binding_ne d hk])
      · exact ih ho hs'

/-- Binding `j` joins a confidential Paddock to trusted addresses alone (R403). -/
def Trusting (d : Device) (j : Nat) : Prop :=
  (d.binding j).valid = true → d.confidential (d.binding j).pdk = true → d.trusted (d.binding j).peer.toNat = true

theorem trusting_of_tenure {e : Device} {j : Nat} (h : Trusting d j) (ht : e.tenure = d.tenure) : Trusting e j := by
  have hb := congrFun (congrArg Tenure.bound ht) j
  simp only [tenure, Prod.mk.injEq] at hb
  obtain ⟨hv, hp, hpeer⟩ := hb
  have hl : ∀ p, e.layout p = d.layout p := fun p => (congrArg PdkSec.layout (congrFun (congrArg Tenure.entry ht) p) :)
  have htrust : e.links.trust = d.links.trust := congrArg Tenure.trust ht
  simpa only [Trusting, hv, hp, hpeer, confidential, pdkPresent, trusted, hl, htrust] using h

theorem clearBinding_trusting_same (d : Device) (j : Nat) (c : Code) : Trusting (d.clearBinding j c) j := by
  intro hv
  simp [clearBinding, modBinding] at hv

theorem clearBinding_trusting {j : Nat} (h : Trusting d j) (k : Nat) (c : Code) : Trusting (d.clearBinding k c) j := by
  by_cases hk : k = j
  · exact hk ▸ clearBinding_trusting_same d k c
  · have hs : Trusting (d.sessionDown k c) j := trusting_of_tenure h (tenure_sessionDown ..)
    have hb : (d.clearBinding k c).binding j = (d.sessionDown k c).binding j := setBinding_binding_ne _ _ _ hk
    rw [Trusting, hb]
    exact hs

/-- A binding's turn when the table of trusted peers has changed. -/
def distrust (d : Device) (k : Nat) : Device :=
  if (d.binding k).valid && d.confidential (d.binding k).pdk && !d.trusted (d.binding k).peer.toNat then d.clearBinding k 0x0405 else d

theorem distrust_trusting (d : Device) (j : Nat) : Trusting (d.distrust j) j := by
  unfold distrust
  split
  · exact clearBinding_trusting_same _ _ _
  · next h =>
    intro hv hc
    simpa [hv, hc] using h

theorem Trusting.distrust {j : Nat} (h : Trusting d j) (k : Nat) : Trusting (d.distrust k) j := by
  unfold Device.distrust
  split
  · exact clearBinding_trusting h k _
  · exact h

theorem distrustAll_trusting (l : List Nat) (d : Device) (j : Nat) (h : Trusting d j ∨ j ∈ l) : Trusting (l.foldl distrust d) j := by
  induction l generalizing d with
  | nil => exact h.resolve_right List.not_mem_nil
  | cons k l ih =>
    refine ih _ ?_
    rcases h with h | h
    · exact Or.inl (h.distrust k)
    · rcases List.mem_cons.1 h with rfl | h
      · exact Or.inl (distrust_trusting _ _)
      · exact Or.inr h

theorem distrust_trust (d : Device) (k : Nat) : (d.distrust k).links.trust = d.links.trust := by
  unfold distrust
  split
  · exact congrArg Tenure.trust (tenure_sessionDown d k 0x0405)
  · rfl

theorem applyTrust_ok (hf : r.flash = .ok) (hv : ofBytes b < 2 ^ 17) : applyTrust r n b d =
    .inl ((List.range 64).foldl distrust
      { d with links := { d.links with trust := Table.set d.links.trust 0 n (BitVec.ofNat 17 (ofBytes b)) } }) := by
  unfold applyTrust
  extract_lets v links e
  rw [if_neg (Nat.not_le.2 hv), inFlash_ok hf]
  rfl

/-! Bundle keys (R450). -/

/-- Number `m` bytes long at byte `a` of a value. -/
def numAt (b : List Byte) (a m : Nat) : Nat := ofBytes ((b.drop a).take m)

/-- The bundle that a release installs, under key `key`. -/
def releasedBundle (b : List Byte) (u : BundleUnwrap) (key : Nat) : Bundle where
  installed := true
  context := numAt b 0 4
  dva := numAt b 4 8
  length := numAt b 12 8
  id := BitVec.ofNat 128 (numAt b 20 16)
  header := u.header
  key := key

section
variable {u : BundleUnwrap} (hz : numAt b 173 3 = 0) (hctx : numAt b 0 4 < 2 ^ 20) (hp : d.pdkPresent (n / 4) = true)
include hz hctx hp

theorem bundle_gate : ¬(numAt b 173 3 ≠ 0 ∨ 2 ^ 20 ≤ numAt b 0 4 ∨ (!d.pdkPresent (n / 4)) = true) := by
  rintro (h | h | h)
  · exact h hz
  · exact Nat.not_lt.2 h hctx
  · simp [hp] at h

theorem applyBundle_unload (hn : numAt b 133 40 = 0) : applyBundle u k n b d =
    .inl (d.setPdkSec (n / 4) { d.pdkSec (n / 4) with
      bundles := Table.set (d.pdkSec (n / 4)).bundles Bundle.reset (n % 4) Bundle.reset }) := by
  unfold applyBundle
  extract_lets p s num slot put fresh
  have hgate : ¬(num 173 3 ≠ 0 ∨ 2 ^ 20 ≤ num 0 4 ∨ (!d.pdkPresent p) = true) := bundle_gate hz hctx hp
  rw [if_neg hgate, if_pos (show num 133 40 = 0 from hn)]
  rfl

theorem applyBundle_stale (hn : numAt b 133 40 ≠ 0)
    (hold : ∀ t0 a z : Nat, (d.sess k).measured = some t0 → d.wallTime t0 = some a → d.wallTime d.now = some z →
      a + 60000000000 < z) :
    applyBundle u k n b d = .inr 0x0601 := by
  unfold applyBundle
  extract_lets p s num slot put fresh
  have hgate : ¬(num 173 3 ≠ 0 ∨ 2 ^ 20 ≤ num 0 4 ∨ (!d.pdkPresent p) = true) := bundle_gate hz hctx hp
  have hfresh : fresh = false := by
    unfold fresh
    split
    · next t z ht hz =>
      obtain ⟨t0, hm, hw⟩ := Option.bind_eq_some_iff.1 ht
      simpa using hold t0 t z hm hw hz
    · rfl
  rw [if_neg hgate, if_neg (show num 133 40 ≠ 0 from hn), if_pos (by simp [hfresh])]

theorem applyBundle_release {t0 a z i : Nat} (hn : numAt b 133 40 ≠ 0) (hm : (d.sess k).measured = some t0) (hw : d.wallTime t0 = some a)
    (hnow : d.wallTime d.now = some z) (hage : z ≤ a + 60000000000)
    (hobj : d.objOfDva (numAt b 0 4) (numAt b 4 8) (numAt b 12 8) = some i) (hhost : (d.obj i).space = .host)
    (hslot : (Table.get (d.pdkSec (n / 4)).bundles Bundle.reset (n % 4)).installed = false) (hkey : u.keyOk = true)
    (hintake : (d.pdkSec (n / 4)).intakeKey ≠ 0) (hf : faesk u = true) :
    applyBundle u k n b d = .inl
      (({ d with sec := { d.sec with keyCount := d.sec.keyCount + 1 } } : Device).setPdkSec (n / 4)
        { d.pdkSec (n / 4) with
          bundles := Table.set (d.pdkSec (n / 4)).bundles Bundle.reset (n % 4) (releasedBundle b u (d.sec.keyCount + 1)) }) := by
  unfold applyBundle
  extract_lets p s num slot put fresh host key e
  have hgate : ¬(num 173 3 ≠ 0 ∨ 2 ^ 20 ≤ num 0 4 ∨ (!d.pdkPresent p) = true) := bundle_gate hz hctx hp
  have hfresh : fresh = true := by
    have ht : (d.sess k).measured.bind d.wallTime = some a := by rw [hm]; exact hw
    simp only [fresh, ht, hnow, decide_eq_true_eq]
    exact hage
  have hhost' : host = true := by
    have hobj' : d.objOfDva (num 0 4) (num 4 8) (num 12 8) = some i := hobj
    simp only [host, hobj', hhost]
    rfl
  have hslot' : slot.installed = false := hslot
  have hintake' : (d.pdkSec p).intakeKey ≠ 0 := hintake
  rw [if_neg hgate, if_neg (show num 133 40 ≠ 0 from hn), if_neg (by simp [hfresh]), if_neg (by simp [hslot', hhost']),
    if_neg (by simp [hkey, hintake', hf])]
  rfl

end

/-! Snapshot sets (R496). -/

/-- SNAP_SET with a period arms the set's slot, once a firing that is due has come. -/
theorem applySnap_armed {j : Nat} (hf : r.flash = .ok) (hz : (b.drop 7).all (· == 0) = true)
    (hg : bits (BitVec.ofNat 8 (ofBytes ((b.drop 6).take 1))) 7 4 = 0)
    (hc : ∀ c < 16, bit (BitVec.ofNat 16 (ofBytes ((b.drop 4).take 2))) c = true → d.corePresent c = true)
    (hlo : 0 < ofBytes (b.take 4)) (hhi : ofBytes (b.take 4) ≤ 4294967)
    (hj : (Table.get d.dict.snaps Snap.reset n).slot = some j ∨
      (Table.get d.dict.snaps Snap.reset n).slot = none ∧ d.freeSlot 7 = some j) :
    applySnap r n b d = .inl
      (((d.snapFired j).armSlot j 7 5 n ((d.snapFired j).now + ofBytes (b.take 4) * 1000) (ofBytes (b.take 4) * 1000)).modDict fun y =>
        { y with snaps := Table.set y.snaps Snap.reset n { Table.get (d.snapFired j).dict.snaps Snap.reset n with
            period := ofBytes (b.take 4), cores := BitVec.ofNat 16 (ofBytes ((b.drop 4).take 2)),
            groups := BitVec.ofNat 8 (ofBytes ((b.drop 6).take 1)), slot := some j } }) := by
  unfold applySnap
  extract_lets period cores groups x put absent
  have habsent : absent = false := by
    rw [List.any_eq_false]
    intro c hcm
    simpa using hc c (List.mem_range.1 hcm)
  have hrest : (b.drop 7).any (· != 0) = false := by
    rw [List.any_eq_false]
    intro x hx
    simpa using List.all_eq_true.1 hz x hx
  have hg' : bits groups 7 4 = 0 := hg
  have hhi' : ¬ 4294967 < period := Nat.not_lt.2 hhi
  have hslot : (x.slot.orElse fun _ => d.freeSlot 7) = some j := by
    rcases hj with h | ⟨h, hfree⟩
    · have : x.slot = some j := h
      rw [this]; rfl
    · have : x.slot = none := h
      rw [this]; exact hfree
  have hbad : ((b.drop 7).any (· != 0) || decide (bits groups 7 4 ≠ 0) || absent || decide (4294967 < period)) = false := by
    rw [hrest, habsent, decide_eq_false (not_not.2 hg'), decide_eq_false hhi']
    rfl
  have h0 : period ≠ 0 := Nat.ne_of_gt hlo
  simp only [hbad, h0, hslot, if_false, Bool.false_eq_true, inFlash_ok hf]
  rfl

/-! Firmware chunks (R504, R508). -/

/-- STAGE has one subindex and a value of bytes. -/
theorem dzFind_stage {n : Nat} (h : d.dzFind 0x7002 n = some o) : n = 0 ∧ o = ⟨0x7002, 1, 8, .wo, 0⟩ := by
  have hfind : dzObjects.find? (fun o => o.index == 0x7002) = some ⟨0x7002, 1, 8, .wo, 0⟩ := by decide
  rw [dzFind, hfind] at h
  dsimp only at h
  split at h
  · next hn =>
    obtain ⟨hcount, -⟩ := Bool.and_eq_true_iff.1 hn
    have hlt : n < 1 := of_decide_eq_true hcount
    exact ⟨Nat.lt_one_iff.1 hlt, (Option.some.inj h).symm⟩
  · cases h

/-- A chunk of one whole unit, which starts no block. -/
theorem stagedUnits_one (ho : r.offset % 64 = 0) : stagedUnits r.offset 64 = [r.offset / 64] := by
  have h : (r.offset + 64 + 63) / 64 - r.offset / 64 = 1 := by omega
  simp [stagedUnits, h]

section
variable (ho : r.offset % 64 = 0) (hb : r.offset / 64 % 1024 ≠ 0) (hl : r.data.length = 64)
include ho hb hl

theorem stageChunk_erased (he : unitErased d.flash (imageUnit (1 - d.flash.active) + r.offset / 64) = true) (hf : r.flash = .ok) :
    d.stageChunk r = .inl (({ d with flash := { d.flash with
      imageOk := Table.set d.flash.imageOk false (1 - d.flash.active) false } } : Device).programNow
        (imageUnit (1 - d.flash.active) + r.offset / 64) r.data) := by
  have hu : 64 * (r.offset / 64) = r.offset := by omega
  have htake : r.data.take 64 = r.data := List.take_of_length_le (by omega)
  have he' : unitErased { d.flash with imageOk := Table.set d.flash.imageOk false (1 - d.flash.active) false }
      (imageUnit (1 - d.flash.active) + r.offset / 64) = true := he
  simp [stageChunk, hl, stagedUnits_one ho, hb, he', hf, inFlash, hu, htake, modFlash]

theorem stageChunk_programmed (he : unitErased d.flash (imageUnit (1 - d.flash.active) + r.offset / 64) = false) :
    d.stageChunk r = .inr 0x0901 := by
  have he' : unitErased { d.flash with imageOk := Table.set d.flash.imageOk false (1 - d.flash.active) false }
      (imageUnit (1 - d.flash.active) + r.offset / 64) = false := he
  simp [stageChunk, hl, stagedUnits_one ho, hb, he', modFlash]

end

/-- The last chunk of an image: too long a value is refused, and any other is programmed as it comes. -/
theorem writeStage_last (h : d.lastChunk k r o b = true) (hi : r.index = 0x7002) :
    d.writeStage (some k) r =
      if 2 ^ 23 < b.length then (d.unstage k 0x7002 0).respond r 2 0x7002 0 o.type BAD_FIELD
      else match (d.unstage k 0x7002 0).stageChunk r with
        | .inl e => e.respond r 2 0x7002 0 o.type 0
        | .inr c => (if c = 0x0901 then (d.unstage k 0x7002 0).modFlash fun f => { f with neCnt := satNat 16 (f.neCnt + 1) }
            else d.unstage k 0x7002 0).respond r 2 0x7002 0 o.type c := by
  obtain ⟨-, -, -, -, -, hmore, -, -, -, hb, -, -⟩ := of_lastChunk h
  have hidx : r.index.toNat = 0x7002 := by rw [hi]; rfl
  have hlen : (d.stagedBy k r.index.toNat r.sub.toNat).length + r.data.length = b.length := by rw [hb, List.length_append]
  simp only [writeStage, dzChecked_last h, hidx] at hlen ⊢
  simp only [hlen, hmore]
  split
  · next hc => exact absurd rfl hc
  · split
    · rfl
    · cases (d.unstage k 0x7002 0).stageChunk r <;> rfl

end Device

namespace Device

/-! ### A layout write: what each Paddock's entry comes to (R434, R435) -/

/-- What a change of Paddock `p` leaves: the device's state, and the entries and reset states of the other Paddocks. -/
def Tenure.but (t : Tenure) (p : Nat) : Nat × Bool × (Nat → Option (PdkSec × PdkRst)) :=
  (t.devState, t.entFail, fun q => if q = p then none else some (t.entry q, t.rst q))

theorem Tenure.but_eq {a t : Tenure} {p : Nat} (h : a.but p = t.but p) :
    a.devState = t.devState ∧ a.entFail = t.entFail ∧ ∀ q ≠ p, a.entry q = t.entry q ∧ a.rst q = t.rst q := by
  simp only [Tenure.but, Prod.mk.injEq] at h
  obtain ⟨hdev, hent, hq⟩ := h
  refine ⟨hdev, hent, fun q hne => ?_⟩
  simpa [hne] using congrFun hq q

theorem but_modPdkSec (d : Device) (p : Nat) (f : PdkSec → PdkSec) : (d.modPdkSec p f).tenure.but p = d.tenure.but p := by
  refine congrArg (fun g => (d.glb.devState, d.sec.entFail, g)) (funext fun q => ?_)
  split
  · rfl
  · next hq =>
    have hs : (d.modPdkSec p f).pdkSec q = d.pdkSec q := setPdkSec_pdkSec_ne _ _ _ (Ne.symm hq)
    simp only [tenure, hs]
    rfl

theorem but_modPdk (d : Device) (p : Nat) (f : Pdk → Pdk) : (d.modPdk p f).tenure.but p = d.tenure.but p := by
  refine congrArg (fun g => (d.glb.devState, d.sec.entFail, g)) (funext fun q => ?_)
  split
  · rfl
  · next hq =>
    have hs : (d.modPdk p f).pdk q = d.pdk q := setPdk_pdk_ne _ _ _ (Ne.symm hq)
    simp only [tenure, hs]
    rfl

/-- Stopping a tenant's work, once its phase is FENCED, leaves what `tenure` reads. -/
theorem tenure_beginRemoval (d : Device) (p : Nat) : (d.beginRemoval p).tenure =
    ((d.fenceCommon p).modPdkSec p fun x => { x with phase := .fenced, rmvWaits := false }).tenure := by
  unfold beginRemoval
  extract_lets e f
  have hf : f.tenure = e.tenure := (tenure_dropOutCommands ..).trans (foldl_part (φ := tenure) (fun _ _ => tenure_dropCommands ..) _ _)
  exact (tenure_idleAll ..).trans ((tenure_endJobs ..).trans hf)

theorem but_beginRemoval (d : Device) (p : Nat) : (d.beginRemoval p).tenure.but p = d.tenure.but p := by
  rw [tenure_beginRemoval, but_modPdkSec, tenure_fenceCommon]

theorem but_requestRemoval (d : Device) (p : Nat) : (d.requestRemoval p).tenure.but p = d.tenure.but p := by
  unfold requestRemoval
  split
  · rfl
  · split
    · exact but_modPdkSec ..
    · split
      · exact but_modPdkSec ..
      · exact (but_beginRemoval ..).trans (but_modPdk ..)

theorem but_takeEntry (d : Device) (p : Nat) (l : Layout) : (d.takeEntry p l).tenure.but p = d.tenure.but p := by
  unfold takeEntry
  extract_lets e f
  have he : e.tenure.but p = d.tenure.but p := but_modPdk ..
  have hf : f.tenure.but p = d.tenure.but p := (but_modPdkSec ..).trans he
  split
  · split
    · exact (but_requestRemoval ..).trans hf
    · exact (but_modPdkSec ..).trans hf
  · rw [tenure_auditRule]
    exact (but_modPdkSec ..).trans he

/-- Whether an entry changes is decided by the entry itself and the Paddock's reset state. -/
theorem layoutChanges_eq {a d : Device} {p : Nat} (hs : a.tenure.entry p = d.tenure.entry p) (hr : a.tenure.rst p = d.tenure.rst p)
    (l : Layout) : a.layoutChanges p l = d.layoutChanges p l := by
  have hl : a.layout p = d.layout p := (congrArg PdkSec.layout hs :)
  have hr' : (a.pdk p).rst = (d.pdk p).rst := hr
  simp only [layoutChanges, hl, hr']

/-- Where the device serves, entropy is there and no removal is under way, a removal that is asked for begins, or waits for the
record of a reset. -/
theorem requestRemoval_begins {d : Device} {p : Nat} (hdev : d.glb.devState = 1) (hent : d.sec.entFail = false)
    (hphase : (d.pdkSec p).phase = .none) (hp : d.pdkPresent p = true) :
    ((d.requestRemoval p).tenure.entry p).newLayout = (d.pdkSec p).newLayout ∧
      (((d.requestRemoval p).tenure.entry p).phase = .fenced ∨ ((d.requestRemoval p).tenure.entry p).rmvWaits = true) := by
  have hgo : (!d.pdkPresent p || (d.pdkSec p).phase != .none || d.removalBarred p || (d.glb.devState != 1 && d.glb.devState != 2)) =
      false := by simp [hp, hphase, removalBarred, hent, hdev]
  rw [requestRemoval, hgo, if_neg (by simp), if_neg (by simp [hdev])]
  split
  · simp [tenure, modPdkSec]
  · rw [tenure_beginRemoval]
    have hs : ∀ e : Device, (e.fenceCommon p).tenure.entry p = e.tenure.entry p := fun e => by rw [tenure_fenceCommon]
    have hn := congrArg PdkSec.newLayout (hs (d.modPdk p fun k => { k with rst := if k.rst = .retraining then .running else k.rst }))
    simp only [tenure, modPdkSec, setPdkSec_pdkSec_same, true_or, and_true]
    exact hn

/-- What a layout write leaves of Paddock `p`, whose entry is `l`: a removal towards it, or no more than its debug setting. -/
def EntryTaken (d : Device) (p : Nat) (l : Layout) (t : Device) : Prop :=
  (d.layoutChanges p l = true → (t.pdkSec p).newLayout = some l ∧ ((t.pdkSec p).phase = .fenced ∨ (t.pdkSec p).rmvWaits = true)) ∧
  (d.layoutChanges p l = false → (t.pdkSec p).phase = .none ∧ (t.layout p).debugOpen = l.debugOpen)

@[simp] theorem modPdkSec_pdkSec_same (d : Device) (p : Nat) (f : PdkSec → PdkSec) : (d.modPdkSec p f).pdkSec p = f (d.pdkSec p) :=
  setPdkSec_pdkSec_same ..

theorem takeEntry_taken {d : Device} {p : Nat} (hdev : d.glb.devState = 1) (hent : d.sec.entFail = false)
    (hphase : (d.pdkSec p).phase = .none) (l : Layout) : d.EntryTaken p l (d.takeEntry p l) := by
  unfold takeEntry
  extract_lets e f
  have he : e.tenure = d.tenure := tenure_modPdk _ _ _ fun _ => rfl
  have hc : e.layoutChanges p l = d.layoutChanges p l :=
    layoutChanges_eq (congrArg (fun t => t.entry p) he) (congrArg (fun t => t.rst p) he) l
  split
  · next h =>
    refine ⟨fun _ => ?_, fun h' => by simp [← hc, h] at h'⟩
    have hf : f.pdkSec p = { d.pdkSec p with newLayout := some l } := modPdkSec_pdkSec_same ..
    split
    · next hp =>
      have hbegins := requestRemoval_begins (d := f) (p := p) hdev hent (by rw [hf]; exact hphase) hp
      rw [hf] at hbegins
      exact hbegins
    · have hdev' : f.glb.devState = 1 := hdev
      simp [hf, hdev']
  · next h =>
    refine ⟨fun h' => by simp [hc, h'] at h, fun _ => ?_⟩
    have hs := congrArg (fun t => t.entry p)
      (tenure_auditRule (e.modPdkSec p fun x => { x with layout := { x.layout with debugOpen := l.debugOpen } }) p)
    have hphase' := (congrArg PdkSec.phase hs :)
    have hopen := (congrArg (fun x => x.layout.debugOpen) hs :)
    simp only [tenure, modPdkSec_pdkSec_same] at hphase' hopen
    exact ⟨hphase'.trans hphase, hopen⟩

/-- What a layout write leaves of Paddock `p` is decided by its entry. -/
theorem EntryTaken.of_entry {d t u : Device} {p : Nat} {l : Layout} (h : d.EntryTaken p l t) (hs : u.tenure.entry p = t.tenure.entry p) :
    d.EntryTaken p l u := by
  have hn := (congrArg PdkSec.newLayout hs :)
  have hp := (congrArg PdkSec.phase hs :)
  have hw := (congrArg PdkSec.rmvWaits hs :)
  have hl := (congrArg (fun x => x.layout.debugOpen) hs :)
  simp only [tenure] at hn hp hw hl
  simpa only [EntryTaken, layout, hn, hp, hw, hl] using h

/-- The Paddocks of `ps` take their entries of `at_` one after the other, and none disturbs another's. -/
theorem takeEntries_taken {at_ : Nat → Layout} {ps : List Nat} (hps : ps.Nodup) {d : Device} (hdev : d.glb.devState = 1)
    (hent : d.sec.entFail = false) (hphase : ∀ p ∈ ps, (d.pdkSec p).phase = .none) :
    (∀ p ∈ ps, d.EntryTaken p (at_ p) (ps.foldl (fun d p => d.takeEntry p (at_ p)) d)) ∧
    ∀ p ∉ ps, (ps.foldl (fun d p => d.takeEntry p (at_ p)) d).tenure.entry p = d.tenure.entry p := by
  induction ps generalizing d with
  | nil => exact ⟨fun p hp => absurd hp List.not_mem_nil, fun _ _ => rfl⟩
  | cons q ps ih =>
    obtain ⟨hq, hps⟩ := List.nodup_cons.1 hps
    obtain ⟨hdev', hent', hrest⟩ := Tenure.but_eq (but_takeEntry d q (at_ q))
    have hkeep : ∀ p ∈ ps, (d.takeEntry q (at_ q)).tenure.entry p = d.tenure.entry p ∧
        (d.takeEntry q (at_ q)).tenure.rst p = d.tenure.rst p := fun p hp => hrest p fun h => hq (h ▸ hp)
    obtain ⟨hin, hout⟩ := ih hps (d := d.takeEntry q (at_ q)) (hdev'.trans hdev) (hent'.trans hent) fun p hp =>
      (congrArg PdkSec.phase (hkeep p hp).1 :).trans (hphase p (List.mem_cons_of_mem _ hp))
    refine ⟨fun p hp => ?_, fun p hp => ?_⟩
    · rcases List.mem_cons.1 hp with rfl | hp
      · exact (takeEntry_taken hdev hent (hphase p List.mem_cons_self) _).of_entry (hout p hq)
      · have h := hin p hp
        rwa [EntryTaken, layoutChanges_eq (hkeep p hp).1 (hkeep p hp).2] at h
    · obtain ⟨hne, hp⟩ := not_or.1 (mt List.mem_cons.2 hp)
      exact (hout p hp).trans (hrest p hne).1

end Device
namespace Device
variable {d : Device} {r : DzRequest} {b : List Byte}

/-- The word of Paddock `p` in a LAYOUT value. -/
def entryWord (b : List Byte) (p : Nat) : W64 := BitVec.ofNat 64 (ofBytes ((b.drop (8 * p)).take 8))

theorem entries_getD (b : List Byte) {p : Nat} (hp : p < 6) :
    (((List.range 6).map (entryWord b)).map layoutOf).getD p Layout.reset = layoutOf (entryWord b p) := by
  simp [List.getD, hp]

/-- A LAYOUT value that obeys the rules, while the device serves and no write is in progress, is taken entry by entry. -/
theorem applyLayout_ok (hf : r.flash = .ok) (hdev : d.glb.devState = 1) (hbusy : d.layoutBusy = false) (hent : d.sec.entFail = false)
    (hbits : ∀ p < 6, bits (entryWord b p) 7 6 = 0 ∧ bits (entryWord b p) 31 20 = 0)
    (hdis : disjoint ((List.range 6).map fun p => layoutOf (entryWord b p)) = true)
    (hok : ∀ p < 6, d.entryOk p (layoutOf (entryWord b p)) = true) :
    applyLayout r b d = .inl ((List.range 6).foldl (fun d p => d.takeEntry p (layoutOf (entryWord b p))) d) := by
  unfold applyLayout
  extract_lets ws ls at_
  have hws : (ws.any fun w => decide (bits w 7 6 ≠ 0) || decide (bits w 31 20 ≠ 0)) = false := by
    rw [List.any_eq_false]
    intro w hw
    obtain ⟨p, hp, rfl⟩ := List.mem_map.1 hw
    obtain ⟨h6, h20⟩ := hbits p (List.mem_range.1 hp)
    have h6' : bits (BitVec.ofNat 64 (ofBytes ((b.drop (8 * p)).take 8))) 7 6 = 0 := h6
    have h20' : bits (BitVec.ofNat 64 (ofBytes ((b.drop (8 * p)).take 8))) 31 20 = 0 := h20
    simp [h6', h20']
  have hdis' : disjoint ls = true := by
    have : ls = (List.range 6).map fun p => layoutOf (entryWord b p) := List.map_map
    rw [this, hdis]
  have hok' : ((List.range 6).any fun p => !d.entryOk p (at_ p)) = false := by
    rw [List.any_eq_false]
    intro p hp
    have hlt := List.mem_range.1 hp
    have : at_ p = layoutOf (entryWord b p) := entries_getD b hlt
    simp [this, hok p hlt]
  rw [if_neg (by rw [hws]; exact Bool.false_ne_true), if_neg (by simp [hdis', hok']), if_neg (by simp [hdev, hbusy]),
    if_neg (by simp [hent]), inFlash_ok hf]
  refine congrArg Sum.inl (List.foldl_ext _ _ _ fun x p hp => ?_)
  rw [← entries_getD b (List.mem_range.1 hp)]
  rfl

theorem ofBytes_zero {b : List Byte} (h : ∀ x ∈ b, x = 0) : ofBytes b = 0 := by
  induction b with
  | nil => rfl
  | cons x b ih =>
    obtain ⟨hx, hb⟩ := List.forall_mem_cons.1 h
    simp [ofBytes, hx, ih hb]

/-- A value of zeros empties every Paddock, which the rules allow: only a write in progress refuses it. -/
theorem applyLayout_busy (hz : b.all (· == 0) = true) (hbusy : d.layoutBusy = true) : applyLayout r b d = .inr BUSY := by
  have hw : ∀ p, BitVec.ofNat 64 (ofBytes ((b.drop (8 * p)).take 8)) = 0 := fun p => by
    rw [ofBytes_zero fun x hx => ?_]
    · rfl
    · simpa using List.all_eq_true.1 hz x (List.mem_of_mem_drop (List.mem_of_mem_take hx))
  have hok : ∀ p, d.entryOk p Layout.reset = true := fun _ => rfl
  have hdis : disjoint (List.replicate 6 Layout.reset) = true := by decide
  have hat : ∀ p, (List.replicate 6 Layout.reset).getD p Layout.reset = Layout.reset := fun p => by
    rw [List.getD_eq_getElem?_getD, List.getElem?_replicate]
    split <;> rfl
  have hls : ((List.range 6).map fun _ : Nat => (0 : W64)).map layoutOf = List.replicate 6 Layout.reset := by decide
  simp only [applyLayout, hw, hls, hat, hok, hdis, hbusy]
  rw [if_neg (by decide), if_neg (by decide), if_pos (Or.inr trivial)]

theorem phase_of_not_layoutBusy (h : d.layoutBusy = false) {p : Nat} (hp : p < 6) : (d.pdkSec p).phase = .none := by
  have hp' := List.any_eq_false.1 h p (List.mem_range.2 hp)
  simp only [Bool.or_eq_true, bne_iff_ne, not_or, not_not] at hp'
  exact hp'.1.1

end Device

namespace Device

/-! A response leaves the device as it is but for what has left it. -/

section
variable (e : Device) (r : DzRequest) (op i n ty : Nat) (c : Code)

@[simp] theorem respond_tenure : (e.respond r op i n ty c).tenure = e.tenure := rfl
@[simp] theorem respond_links : (e.respond r op i n ty c).links = e.links := rfl
@[simp] theorem respond_flash : (e.respond r op i n ty c).flash = e.flash := rfl
@[simp] theorem respond_binding (j : Nat) : (e.respond r op i n ty c).binding j = e.binding j := rfl
@[simp] theorem respond_chan (j : Nat) : (e.respond r op i n ty c).chan j = e.chan j := rfl

end

theorem distrustAll_trust (l : List Nat) (d : Device) : (l.foldl distrust d).links.trust = d.links.trust :=
  foldl_part (φ := fun d => d.links.trust) distrust_trust l d

theorem openSessions_routes (a : Nat) (l : List Nat) (d : Device) :
    (l.foldl (fun d k => if (d.binding k).peer.toNat == a then d.sessionOpen k else d) d).links.routes = d.links.routes := by
  refine foldl_part (φ := fun d => d.links.routes) (fun x k => ?_) l d
  split
  · exact sessionOpen_routes ..
  · rfl

theorem eraseNow_boot (d : Device) (n : Nat) : (d.eraseNow n).flash.bootSeq = d.flash.bootSeq ∧
    (d.eraseNow n).flash.active = d.flash.active := by
  simp only [eraseNow, modFlash, emit, and_self]

end Device

section
variable {s : State} {k : Nat} {r : DzRequest} {o : DzObj} {b : List Byte} (h : s.dev.lastChunk k r o b = true)
include h

theorem exec_layoutWrite (hi : r.index = 0x2000) (hf : r.flash = .ok) (hdev : s.dev.glb.devState = 1)
    (hbusy : s.dev.layoutBusy = false) (hent : s.dev.sec.entFail = false)
    (hbits : ∀ p < 6, bits (Device.entryWord b p) 7 6 = 0 ∧ bits (Device.entryWord b p) 31 20 = 0)
    (hdis : Device.disjoint ((List.range 6).map fun p => Device.layoutOf (Device.entryWord b p)) = true)
    (hok : ∀ p < 6, s.dev.entryOk p (Device.layoutOf (Device.entryWord b p)) = true) :
    ∃ t, exec (.layoutWrite (some k) r) s = .next t ∧
      ∀ p < 6, s.dev.EntryTaken p (Device.layoutOf (Device.entryWord b p)) t.dev := by
  refine ⟨_, onSess_accepted h (by rw [hi]; rfl) (Device.applyLayout_ok hf hdev hbusy hent hbits hdis hok), fun p hp => ?_⟩
  obtain ⟨htaken, -⟩ := Device.takeEntries_taken (at_ := fun p => Device.layoutOf (Device.entryWord b p)) (List.nodup_range (n := 6))
    (d := s.dev.unstage k r.index.toNat r.sub.toNat) hdev hent
    fun q hq => Device.phase_of_not_layoutBusy hbusy (List.mem_range.1 hq)
  exact (htaken p (List.mem_range.2 hp)).of_entry (congrArg (fun t => t.entry p) (Device.respond_tenure ..))

theorem exec_chanOnWrite (hi : r.index = 0x2002) (hv : ofBytes b = 0) (ho : s.dev.pdkOfChan r.sub.toNat = none) (hf : r.flash = .ok)
    (hs : (s.dev.chan r.sub.toNat).state ≠ .failed) :
    ∃ t, exec (.chanOnWrite (some k) r) s = .next t ∧ (t.dev.chan r.sub.toNat).state = .off ∧ r.sub.toNat ∈ t.dev.dict.chanOff := by
  refine ⟨_, onSess_accepted h (by rw [hi]; rfl) (Device.applyChanOn_off hv ho hf), ?_, List.mem_cons_self⟩
  dsimp only
  rw [Device.respond_chan, Device.modChan, Device.setChan_chan_same]
  split
  · next hfailed => exact absurd hfailed hs
  · rfl

theorem exec_trustWrite (hi : r.index = 0x4010) (hf : r.flash = .ok) (hv : ofBytes b < 2 ^ 17) :
    ∃ t, exec (.trustWrite (some k) r) s = .next t ∧ Table.get t.dev.links.trust 0 r.sub.toNat = BitVec.ofNat 17 (ofBytes b) ∧
      ∀ j < 64, t.dev.Trusting j := by
  refine ⟨_, onSess_accepted h (by rw [hi]; rfl) (Device.applyTrust_ok hf hv), ?_, fun j hj => ?_⟩
  · dsimp only
    rw [Device.respond_links, Device.distrustAll_trust]
    exact Table.get_set_same ..
  · exact Device.trusting_of_tenure (Device.distrustAll_trusting _ _ j (Or.inr (List.mem_range.2 hj))) (Device.respond_tenure ..)

theorem exec_routeWrite_on {a : Nat} (hlo : 0x6100 ≤ r.index.toNat) (hhi : r.index.toNat < 0x6200)
    (ha : a = 256 * (r.index.toNat - 0x6100) + r.sub.toNat) (hf : r.flash = .ok) (h1 : 1 ≤ bits (BitVec.ofNat 8 (ofBytes b)) 1 0)
    (h2 : bits (BitVec.ofNat 8 (ofBytes b)) 1 0 ≤ 2)
    (hn : (Table.get s.dev.links.nbrs Neighbour.reset (bits (BitVec.ofNat 8 (ofBytes b)) 7 2)).valid = true) :
    ∃ t, exec (.routeWrite (some k) r) s = .next t ∧ Table.get t.dev.links.routes 0 a = BitVec.ofNat 8 (ofBytes b) ∧
      ∀ j < 64, (s.dev.binding j).valid = true → (s.dev.binding j).state = .down → (s.dev.binding j).peer.toNat = a →
        (s.dev.pdk (s.dev.binding j).pdk).rst = .running → (t.dev.binding j).state = .opening := by
  subst ha
  refine ⟨_, onSess_accepted h (by simp [hlo, hhi]) (Device.applyRoute_on h2 hn hf), ?_, fun j hj hv hd hp hr => ?_⟩
  · dsimp only
    rw [Device.respond_links, Device.openSessions_routes]
    exact Table.get_set_same ..
  · dsimp only
    rw [Device.respond_binding]
    refine Device.openSessions_opening _ ⟨hv, hp, ?_, hr⟩ (Or.inr ⟨hd, List.mem_range.2 hj⟩)
    have hmode : bits (BitVec.ofNat 8 (ofBytes b)) 1 0 = 1 ∨ bits (BitVec.ofNat 8 (ofBytes b)) 1 0 = 2 := by omega
    rcases hmode with hm | hm <;> simp [Device.routePort, hm]

theorem exec_commit (hi : r.index = 0x7003) (hv : ofBytes b ≤ 1) (ha : ofBytes b ≠ s.dev.flash.active) (hf : r.flash = .ok) :
    ∃ t, exec (.commit (some k) r true) s = .next t ∧ t.dev.flash.bootSlot = ofBytes b ∧
      t.dev.flash.bootSeq = s.dev.flash.bootSeq + 1 ∧ t.dev.flash.active = s.dev.flash.active := by
  refine ⟨_, onSess_accepted h (by rw [hi]; rfl) (Device.applyCommit_ok hv ha hf), ?_⟩
  obtain ⟨hseq, hact⟩ := Device.eraseNow_boot (s.dev.unstage k r.index.toNat r.sub.toNat)
    (((s.dev.unstage k r.index.toNat r.sub.toNat).flash.bootSeq + 1) % 2)
  dsimp only
  rw [Device.respond_flash]
  generalize Device.eraseNow _ _ = e at hseq hact ⊢
  exact ⟨rfl, congrArg (· + 1) hseq, hact⟩

theorem exec_routeWrite_off {a : Nat} (hlo : 0x6100 ≤ r.index.toNat) (hhi : r.index.toNat < 0x6200)
    (ha : a = 256 * (r.index.toNat - 0x6100) + r.sub.toNat) (hf : r.flash = .ok) (hm : bits (BitVec.ofNat 8 (ofBytes b)) 1 0 = 0) :
    let d := s.dev.unstage k r.index.toNat r.sub.toNat
    exec (.routeWrite (some k) r) s =
      s.goes (Device.respond { d with links := { d.links with routes := Table.set d.links.routes 0 a (BitVec.ofNat 8 (ofBytes b)) } }
        r 2 r.index.toNat r.sub.toNat o.type 0) := by
  subst ha
  exact onSess_accepted h (by simp [hlo, hhi]) (Device.applyRoute_off hm hf)

/-- The last chunk of an image. -/
theorem exec_stageWrite (hi : r.index = 0x7002) :
    let d := s.dev.unstage k r.index.toNat r.sub.toNat
    exec (.stageWrite (some k) r) s =
      s.goes (if 2 ^ 23 < b.length then d.respond r 2 r.index.toNat r.sub.toNat o.type BAD_FIELD
        else match d.stageChunk r with
          | .inl e => e.respond r 2 r.index.toNat r.sub.toNat o.type 0
          | .inr c => (if c = 0x0901 then d.modFlash fun f => { f with neCnt := satNat 16 (f.neCnt + 1) }
              else d).respond r 2 0x7002 0 8 c) := by
  have hidx : r.index.toNat = 0x7002 := by rw [hi]; rfl
  obtain ⟨-, -, -, hfind, -⟩ := Device.of_lastChunk h
  obtain ⟨hn, ho⟩ := Device.dzFind_stage (n := r.sub.toNat) (by rw [hidx] at hfind; exact hfind)
  have ht : o.type = 8 := by rw [ho]
  rw [hidx, hn, ht, ← ht]
  exact (onSess_of_lastChunk h _).trans (by rw [Device.writeStage_last h hi])

end

/-- Settles O51, object by object: the checks of R493 leave the value's own rule, and what it makes of the device. -/
theorem dictionaryWrites : Obligations.DictionaryWrites := by
  intro s k r o b h n d yes no v ses
  refine ⟨?thermWarn, ?thermOut, ?hang, ?layout, ?layoutBusy, ?owned, ?off, ?cap, ?capOut, ?capFlash, ?root, ?trust, ?bundle, ?remove,
    ?pdkReset, ?devReset, ?devOther, ?snap, ?bind, ?route, ?stageLong, ?stage, ?commitSlot, ?commitActive, ?commit, ?src, ?srcClock,
    ?tcHz, ?cal⟩
  case thermWarn =>
    exact fun hi hf hlo hhi => onSess_accepted h (by rw [hi]; rfl) (Device.applyOther_thermWarn (by rw [hi]; rfl) hf hlo hhi)
  case thermOut => exact fun hi hv => onSess_refused h (by rw [hi]; rfl) (Device.applyOther_thermWarn_out (by rw [hi]; rfl) hv)
  case hang => exact fun hi hf hv => onSess_accepted h (by rw [hi]; rfl) (Device.applyOther_hangMs (by rw [hi]; rfl) hf hv)
  case layout =>
    intro hi hf hdev hbusy hent w ls hbits hdis hok
    exact exec_layoutWrite h hi hf hdev hbusy hent hbits hdis hok
  case layoutBusy => exact fun hi hz hbusy => onSess_refused h (by rw [hi]; rfl) (Device.applyLayout_busy hz hbusy)
  case owned => exact fun hi hv ho => onSess_refused h (by rw [hi]; rfl) (Device.applyChanOn_owned hv ho)
  case off => exact fun hi hv ho hf hs => exec_chanOnWrite h hi hv ho hf hs
  case cap =>
    exact fun hi hf hlo hhi => onSess_accepted h (by rw [hi]; rfl)
      ((Device.applyCap_inFlash (d := d) hlo hhi).trans (Device.inFlash_ok hf _))
  case capOut => exact fun hi hv => onSess_refused h (by rw [hi]; rfl) (Device.applyCap_out (d := d) hv)
  case capFlash =>
    intro hi hlo hhi
    have hcap := Device.applyCap_inFlash (r := r) (d := d) hlo hhi
    exact ⟨fun hf => onSess_refused h (by rw [hi]; rfl) (hcap.trans (by rw [Device.inFlash, hf])),
      fun hf => onSess_refused h (by rw [hi]; rfl) (hcap.trans (by rw [Device.inFlash, hf]))⟩
  case root => exact fun parses hi hf hlen hp => onSess_accepted h (by rw [hi]; rfl) (Device.applyRoot_ok hf hlen hp)
  case trust => exact fun hi hf hv => exec_trustWrite h hi hf hv
  case bundle =>
    intro u hi hz hctx hp num x
    refine ⟨fun hn => ?_, fun hn hold => ?_, ?_⟩
    · exact onSess_accepted h (by rw [hi]; rfl) (Device.applyBundle_unload hz hctx hp hn)
    · exact onSess_refused h (by rw [hi]; rfl) (Device.applyBundle_stale hz hctx hp hn hold)
    · intro t0 a z i hn hm hw hnow hage hobj hhost hslot hkey hintake hf y e
      exact onSess_accepted h (by rw [hi]; rfl)
        (Device.applyBundle_release hz hctx hp hn hm hw hnow hage hobj hhost hslot hkey hintake hf)
  case remove =>
    exact fun hi hv hp => ⟨fun hb => onSess_accepted h (by rw [hi]; rfl) (Device.applyRemove_asked hv hp hb),
      fun hb => onSess_refused h (by rw [hi]; rfl) (Device.applyRemove_barred hv hp hb)⟩
  case pdkReset => exact fun hi hv hp hd => onSess_accepted h (by rw [hi]; rfl) (Device.applyPdkReset_asked hv hp hd)
  case devReset => exact fun hi hv hd => onSess_accepted h (by rw [hi]; rfl) (Device.applyDevReset_asked hv hd)
  case devOther => exact fun hi hv => onSess_refused h (by rw [hi]; rfl) (Device.applyDevReset_other hv)
  case snap =>
    intro hi hf hz hg period cores at_ hc hlo hhi j hj f e
    exact onSess_accepted h (by rw [hi]; rfl) (Device.applySnap_armed hf hz hg hc hlo hhi hj)
  case bind =>
    intro hi hf w y h7 hz
    refine ⟨fun hv hx hc hsum hp h0 hF ha htwice => ?_, ?_, ?_⟩
    · have hnew := Device.applyBind_new (r := r) (d := d) rfl h7 hz hv hx hc hsum hp h0 hF ha htwice
      refine ⟨fun ht => onSess_accepted h (by rw [hi]; rfl) (hnew.trans ?_), fun hconf htrust =>
        onSess_refused h (by rw [hi]; rfl) (hnew.trans (if_pos ?_))⟩
      · have hgate : (s.dev.confidential (Device.bindingOf w).pdk && !s.dev.trusted (Device.bindingOf w).peer.toNat) = false := by
          rcases ht with hc | htr
          · exact Bool.and_eq_false_imp.2 fun hc' => absurd (hc.symm.trans hc') Bool.false_ne_true
          · exact Bool.and_eq_false_imp.2 fun _ => congrArg (!·) htr
        exact (if_neg (ne_true_of_eq_false hgate)).trans (Device.inFlash_ok hf _)
      · exact Bool.and_eq_true_iff.2 ⟨hconf, congrArg (!·) htrust⟩
    · exact fun hv hx hp hpp hpeer hc => onSess_accepted h (by rw [hi]; rfl)
        (Device.applyBind_clear rfl h7 hz hv hx hp hpp hpeer hc hf)
    · exact fun hv hx hpeer => onSess_refused h (by rw [hi]; rfl) (Device.applyBind_busy rfl h7 hz hv hx hpeer)
  case route =>
    exact fun a hlo hhi ha hf => ⟨exec_routeWrite_off h hlo hhi ha hf, exec_routeWrite_on h hlo hhi ha hf⟩
  case stageLong =>
    intro hi hlen
    exact (exec_stageWrite h hi).trans (congrArg s.goes (if_pos hlen))
  case stage =>
    intro hi hlen ho hb hl u e
    have hrun := (exec_stageWrite h hi).trans (congrArg s.goes (if_neg (Nat.not_lt.2 hlen)))
    refine ⟨fun he hf => ?_, fun he => ?_⟩
    · rw [hrun, Device.stageChunk_erased (d := s.dev.unstage k r.index.toNat r.sub.toNat) ho hb hl he hf]
      rfl
    · rw [hrun, Device.stageChunk_programmed (d := s.dev.unstage k r.index.toNat r.sub.toNat) ho hb hl he]
      rfl
  case commitSlot => exact fun ok hi hv => onSess_refused h (by rw [hi]; rfl) (Device.applyCommit_noSlot hv)
  case commitActive => exact fun ok hi hv ha => onSess_refused h (by rw [hi]; rfl) (Device.applyCommit_active hv ha)
  case commit => exact fun hi hv ha hf => exec_commit h hi hv ha hf
  case src => exact fun hi hf hv hz => onSess_accepted h (by rw [hi]; rfl) (Device.applySrc_ok hf hv hz)
  case srcClock => exact fun hi hv hz => onSess_refused h (by rw [hi]; rfl) (Device.applySrc_noClock hv hz)
  case tcHz => exact fun hi hf hlo hhi => onSess_accepted h (by rw [hi]; rfl) (Device.applyTcHz_ok hf hlo hhi)
  case cal => exact fun hi => onSess_accepted h (by rw [hi]; rfl) (Device.applyCal_ok)

end Sys2Proof.Machine
end

section
/-! PROOF. The arithmetic of one issue: identities, masked lanes and saturation; PISSUE and the write of its slots (spec 03). -/

namespace Sys2Proof.Machine

/-! ### Identities and the combine of one slot (R65, R66) -/

/-- The INT32 pattern of Table 3.4. -/
theorem identI_eq_toInt (op : Nat) :
    identI op = (if op = 3 then 0x7FFFFFFF else if op = 4 then 0x80000000 else 0 : W32).toInt := by
  unfold identI
  split
  · rfl
  · split <;> rfl

/-- The FP32 pattern of Table 3.4. -/
theorem identF_eq_acc32 (op : Nat) :
    identF op = acc32 (if op = 3 then 0x7F800000 else if op = 4 then 0xFF800000 else 0) := by
  unfold identF
  split
  · rfl
  · split <;> rfl

/-- INIT = IDENTITY starts an INT32 slot from the identity. -/
theorem combineI_init (op : Nat) {x : W32} (h : identI op = x.toInt) (acc : W32) (t : Int) :
    combineI op true acc t = combineI op false x t := by simp [combineI, h]

/-- INIT = IDENTITY starts an FP32 slot from the identity. -/
theorem combineF_init (op : Nat) {x : W32} (h : identF op = acc32 x) (acc t : W32) :
    combineF op true acc t = combineF op false x t := by simp [combineF, h]

/-- The word of an INT32 slot holds every result in its range. -/
theorem toInt_ofInt_32 {x : Int} (h : -(2 ^ 31) ≤ x) (h' : x < 2 ^ 31) : (BitVec.ofInt 32 x).toInt = x :=
  BitVec.toInt_ofInt_eq_self (by decide) h h'

theorem toInt_bounds (a : W32) : -(2 ^ 31) ≤ a.toInt ∧ a.toInt < 2 ^ 31 := ⟨a.le_toInt, a.toInt_lt⟩

theorem satInt_32 (x : Int) : satInt 32 x = max (-(2 ^ 31)) (min (2 ^ 31 - 1) x) := rfl

theorem satInt_32_bounds (x : Int) : -(2 ^ 31) ≤ satInt 32 x ∧ satInt 32 x < 2 ^ 31 := by rw [satInt_32]; omega

/-- `sat` leaves exactly the values of the range (Table 0.3). -/
theorem satInt_32_eq_iff (x : Int) : satInt 32 x = x ↔ -(2 ^ 31) ≤ x ∧ x < 2 ^ 31 := by rw [satInt_32]; omega

section
variable (acc : W32) {t : Int} (hlo : -(2 ^ 31) ≤ t) (hhi : t < 2 ^ 31)
include hlo hhi

theorem combineI_min : (combineI 3 false acc t).1.toInt = min acc.toInt t := by
  have ha := toInt_bounds acc
  change (BitVec.ofInt 32 (min acc.toInt t)).toInt = _
  exact toInt_ofInt_32 (by omega) (by omega)

theorem combineI_max : (combineI 4 false acc t).1.toInt = max acc.toInt t := by
  have ha := toInt_bounds acc
  change (BitVec.ofInt 32 (max acc.toInt t)).toInt = _
  exact toInt_ofInt_32 (by omega) (by omega)

end

/-- An additive operator clamps the sum. -/
theorem combineI_sum {op : Nat} (h3 : op ≠ 3) (h4 : op ≠ 4) (acc : W32) (t : Int) :
    combineI op false acc t =
      (BitVec.ofInt 32 (satInt 32 (acc.toInt + t)), if satInt 32 (acc.toInt + t) = acc.toInt + t then 0 else fSAT) := by
  simp [combineI, h3, h4]

theorem combineI_sum_toInt {op : Nat} (h3 : op ≠ 3) (h4 : op ≠ 4) (acc : W32) (t : Int) :
    (combineI op false acc t).1.toInt = max (-(2 ^ 31)) (min (2 ^ 31 - 1) (acc.toInt + t)) := by
  obtain ⟨hlo, hhi⟩ := satInt_32_bounds (acc.toInt + t)
  rw [combineI_sum h3 h4, toInt_ofInt_32 hlo hhi, satInt_32]

/-- SAT is raised exactly where the sum leaves the range (Table 3.5). -/
theorem combineI_sum_flag {op : Nat} (h3 : op ≠ 3) (h4 : op ≠ 4) (acc : W32) (t : Int) :
    (combineI op false acc t).2 ≠ 0 ↔ acc.toInt + t < -(2 ^ 31) ∨ 2 ^ 31 ≤ acc.toInt + t := by
  have hflag : (combineI op false acc t).2 ≠ 0 ↔ satInt 32 (acc.toInt + t) ≠ acc.toInt + t := by
    rw [combineI_sum h3 h4]
    by_cases hs : satInt 32 (acc.toInt + t) = acc.toInt + t
    · simp [hs]
    · simp [hs, fSAT]
  rw [hflag, Ne, satInt_32_eq_iff]
  omega

/-! ### The terms of a row (R56) -/

/-- The INT32 term that lane `j` brings to row `i`. -/
def IssueArgs.intTerm (a : IssueArgs) (p : Pens) (u i j : Nat) : Int × FFlags :=
  if a.valid u j then
    laneI a.op a.cond a.fw a.fx (cellElems (twoElem a.op a.fw a.fx) (p.weight a.fold u i j))
      (laneElems (twoElem a.op a.fw a.fx) a.fx (a.x u j))
  else (identI a.op, 0)

/-- The FP32 term that lane `j` brings to row `i`. -/
def IssueArgs.fltTerm (a : IssueArgs) (p : Pens) (u i j : Nat) : FVal × FFlags :=
  if a.valid u j then
    laneF a.op a.fw a.fx (cellElems (twoElem a.op a.fw a.fx) (p.weight a.fold u i j))
      (laneElems (twoElem a.op a.fw a.fx) a.fx (a.x u j))
  else (identF a.op, 0)

section
variable (p : Pens) (a : IssueArgs) (u i : Nat)

theorem rowI_eq_tree : rowI p a u i = treeI a.op ((List.range (unitDim a.fold)).map (a.intTerm p u i)) := rfl

theorem rowF_eq_tree (ord : List Nat) (h : fmtMx a.fx = false) : rowF p a ord u i =
    (fun t => ((rnd32 t.1).1, t.2))
      (treeF a.op a.fx (if a.fold then 5 else 4) ord ((List.range (unitDim a.fold)).map (a.fltTerm p u i))) := by
  simp only [rowF, h]; rfl

theorem rowF_eq_scaled_tree (ord : List Nat) (h : fmtMx a.fx = true) : rowF p a ord u i =
    (fun t => ((rnd32 t.1).1, t.2)) (mxScale a.fx (p.rowScale a.fold u i) (a.sx u)
      (treeF a.op a.fx (if a.fold then 5 else 4) ord ((List.range (unitDim a.fold)).map (a.fltTerm p u i)))) := by
  simp only [rowF, h]; rfl

variable {j : Nat} (h : a.valid u j = false)
include h

theorem IssueArgs.intTerm_masked : a.intTerm p u i j = (identI a.op, 0) := by simp [intTerm, h]

theorem IssueArgs.fltTerm_masked : a.fltTerm p u i j = (identF a.op, 0) := by simp [fltTerm, h]

end

/-- Settles O26: the identities are the values of Table 3.4, and each use of them is one of the branches of the combine or of a
row's terms. -/
theorem operatorIdentities : Obligations.OperatorIdentities := by
  intro op idI idF
  have hI : identI op = idI.toInt := identI_eq_toInt op
  have hF : identF op = acc32 idF := identF_eq_acc32 op
  refine ⟨combineI_init op hI, combineF_init op hF, fun _ _ => rfl, fun p a u i ha => ?terms, fun acc t hlo hhi => ?combine⟩
  case terms =>
    subst ha
    have hmasked : ∀ j, a.valid u j = false → a.fltTerm p u i j = (acc32 idF, 0) := fun j hj => by
      rw [a.fltTerm_masked p u i hj, hF]
    refine ⟨⟨a.intTerm p u i, rowI_eq_tree p a u i, fun j hj => by rw [a.intTerm_masked p u i hj, hI]⟩,
      fun ord hx => ⟨a.fltTerm p u i, rowF_eq_tree p a u i ord hx, hmasked⟩,
      fun ord hx => ⟨a.fltTerm p u i, rowF_eq_scaled_tree p a u i ord hx, hmasked⟩⟩
  case combine =>
    refine ⟨?_, ?_, fun h3 h4 => ⟨combineI_sum_toInt h3 h4 acc t, combineI_sum_flag h3 h4 acc t⟩⟩
    · rintro rfl; exact combineI_min acc hlo hhi
    · rintro rfl; exact combineI_max acc hlo hhi

/-! ### Instructions that fly, wait or trap -/

/-- The cause under which a slot queue waits. -/
@[simp] theorem find_waitsIn (k : Core) (sl : Slot) (v : Cause) :
    Table.find (k.waitsIn sl (some v)).waits (slotNum sl) = some v := Table.find_put_same ..

namespace Device

/-- No instruction of the P slot is a Kerf point (R186). -/
theorem kpWait_p {x : QInstr} (h : x.slot = .p) (d : Device) (c : Nat) : d.kpWait c x = d := by
  simp [kpWait, h, kpMarked]

section
variable {s : State} {c op : Nat} {sl : Slot} {x : QInstr} {body : QInstr → Device → Issue} {e : Device}

/-- A command whose instruction completes at an event to come, as `issue_fly`. -/
theorem onUnit_issue_fly (h : s.dev.mayIssue c sl op x = true) (hb : body x s.dev = .fly e) :
    onUnit 12 c s (issue c sl op body) = .next { s with dev := e.departed c sl } := by
  rw [onUnit_next _ _ (mayIssue_iff.1 h).1, issue_fly h hb]

/-- A command whose P-slot instruction waits, as `issue_wait`. -/
theorem onUnit_issue_wait_p (h : s.dev.mayIssue c .p op x = true) {cause : Option Cause} (hb : body x s.dev = .wait e cause) :
    onUnit 12 c s (issue c .p op body) = .next { s with dev := e.modCore c fun k => k.waitsIn .p cause } := by
  obtain ⟨hc, -, hs, -⟩ := mayIssue_iff.1 h
  rw [onUnit_next _ _ hc, issue_wait h hb, kpWait_p hs]

end

/-- A core that has not trapped records the trap, and its job ends with the code (R190, R191). -/
theorem trapCore_records {d : Device} {c j : Nat} {v : Job} (hj : d.jobOf c = some (j, v)) (hs : (d.regs c).stat ≠ .trapped)
    (code : Code) (bundle : Nat) (sl : Slot) (info : W64) :
    ∃ e : Device, (e.regs c).trap = some { code := code, bundle := bundle, slot := slotNum sl, info := info } ∧
      (e.regs c).stat = .trapped ∧ d.trapCore c code bundle sl info = e.endJob j code := by
  simp only [trapCore, if_neg hs, hj]
  exact ⟨_, by simp [regs], by simp [regs], rfl⟩

/-! ### What holds back a Pen issue -/

section
variable {d : Device} {c due : Nat} {pens : List Nat} (hcopy : d.copyHeld c = false) (hpower : d.withheld c = false)
  (haccept : (d.core c).pn.accept d.power.cycles due pens = true)
include hcopy hpower haccept

/-- Nothing holds the issue back. -/
theorem penHold_none (h : (pens.all fun n => ((d.core c).pn.pen n).rampOk d.power.cycles) = true) :
    d.penHold c pens due = none := by
  have hany : (pens.any fun n => !((d.core c).pn.pen n).rampOk d.power.cycles) = false := by
    rw [← List.not_all_eq_any_not, h]; rfl
  simp [penHold, hcopy, hpower, haccept, hany]

/-- Only the ramp holds the issue back, and each of its Pens notes it (R100). -/
theorem penHold_ramp (h : (pens.all fun n => ((d.core c).pn.pen n).rampOk d.power.cycles) = false) :
    d.penHold c pens due = some (d.modPens c fun p => p.bar d.power.cycles pens, some .power) := by
  have hany : (pens.any fun n => !((d.core c).pn.pen n).rampOk d.power.cycles) = true := by
    rw [← List.not_all_eq_any_not, h]; rfl
  simp [penHold, hcopy, hpower, haccept, hany]

end
end Device

/-! ### PISSUE -/

/-- The device once the issue `f` of the units `us`, with operands `a`, has entered (R77, R112), with the switch of SWAP after it
(R89). -/
def Device.entered (d : Device) (c : Nat) (w : W64) (a : IssueArgs) (us : List Nat) (f : Flight) : Device :=
  (d.tookFree.spend c (f.pens.length * d.weight (issueKind a.op a.fw a.fx))).modPens c fun p =>
    let p := p.enter f d.power.cycles (interval a.fx)
    if bit w 46 then us.foldl (fun p u => p.switchUnit a.fold u) p else p

section
variable {c : Nat} {x : QInstr} {d : Device} {a : IssueArgs} {us : List Nat} {f : Flight}
  (ha : a = issueArgs (d.core c).sq x.word) (hus : us = maskUnits (d.core c).sq x.word)
  (hf : f = flightOf (d.core c).pn a x.num x.bundle d.free d.power.cycles us)
  (hpair : pairOk a.op a.cond a.fw a.fx = true) (hslot : a.fold = true ∨ a.slot < 16)
  (hscale : if fmtMx a.fx then bits x.word 51 47 % 2 = 0 else bits x.word 51 47 = 0) (hne : us ≠ [])
  (hunits : badUnits (d.core c).pn.folds a.fold us = false)
  (hswap : bit x.word 46 = true → anyShadow (d.core c).pn a.fold us [.loading, .armed] = false)
  (hfree : a.init = true ∨ (d.core c).pn.slotBusy a.fold (us.flatMap (pensOf a.fold)) a.slot = false)
include ha hus hf hpair hslot hscale hne hunits hswap hfree

/-- A legal PISSUE that waits for no shadow and no slot enters unless `penHold` holds it back. -/
theorem pissueBody_eq : pissueBody c x d =
    (d.penHold c f.pens f.due).elim (.fly (d.entered c x.word a us f)) fun h => .wait h.1 h.2 := by
  subst ha hus hf
  unfold pissueBody
  dsimp only
  rw [if_neg ?legal, if_neg (by simpa using hne), if_neg (by simp [hunits]), if_neg ?shadow, if_neg ?free]
  case legal =>
    have hsx : (if fmtMx (issueArgs (d.core c).sq x.word).fx then bits x.word 51 47 % 2 == 1 else bits x.word 51 47 != 0) =
        false := by
      split at hscale <;> simp_all
    rcases hslot with h | h
    · simp [hpair, hsx, h]
    · simp [hpair, hsx, Nat.not_le.2 h]
  case shadow => simpa using hswap
  case free => rcases hfree with h | h <;> simp [h]
  cases d.penHold c _ _ <;> rfl

end

/-! ### The issues of one write cycle -/

/-- The result of row `i` of unit `u` on its way to its slot, which `g` combines with it. -/
structure SlotWrite where
  u : Nat
  i : Nat
  g : W32 → W32 × FFlags

/-- The writes of an issue, in their order. -/
def Flight.writes (f : Flight) : List SlotWrite :=
  (f.rows.map fun x => ⟨x.1, x.2.1, fun v => combineF f.op f.init v x.2.2⟩) ++
    f.irows.map fun x => ⟨x.1, x.2.1, fun v => combineI f.op f.init v x.2.2⟩

/-- One write after the Pens and conditions so far. -/
def Flight.write (f : Flight) (s : Pens × List (Nat × FFlags)) (x : SlotWrite) : Pens × List (Nat × FFlags) :=
  ((s.1.writeRow f x.u x.i x.g).1, (s.1.writeRow f x.u x.i x.g).2 :: s.2)

/-- The cell whose slot a write names. -/
def Flight.cell (f : Flight) (x : SlotWrite) : Nat × Nat := cellAt f.fold x.u x.i f.slot

theorem landFlight_eq_foldl (p : Pens) (f : Flight) : p.landFlight f = f.writes.foldl f.write (p, f.flags) := by
  simp only [Pens.landFlight, Flight.writes, List.foldl_append, List.foldl_map]
  rfl

theorem Flight.map_cell_writes (f : Flight) : f.writes.map f.cell =
    (f.rows.map fun x => cellAt f.fold x.1 x.2.1 f.slot) ++ f.irows.map fun x => cellAt f.fold x.1 x.2.1 f.slot := by
  simp [Flight.writes, Flight.cell, Function.comp_def]

section
variable (p : Pens) (f : Flight) (u i : Nat) (g : W32 → W32 × FFlags)

@[simp] theorem writeRow_flights : (p.writeRow f u i g).1.flights = p.flights := rfl
@[simp] theorem writeRow_ctl : (p.writeRow f u i g).1.ctl = p.ctl := rfl

/-- A write combines its own slot. -/
theorem slotVal_writeRow_same :
    (p.writeRow f u i g).1.slotVal f.fold u i f.slot = (g (p.slotVal f.fold u i f.slot)).1 := by
  simp [Pens.writeRow, Pens.slotVal, Pens.setPen, Pens.pen]

/-- A write leaves the slots of other cells. -/
theorem slotVal_writeRow_ne {fold : Bool} {v j s : Nat} (h : cellAt f.fold u i f.slot ≠ cellAt fold v j s) :
    (p.writeRow f u i g).1.slotVal fold v j s = p.slotVal fold v j s := by
  simp only [Pens.writeRow, Pens.slotVal, Pens.setPen, Pens.pen, Table.get_set]
  split
  · next hn =>
    rw [← hn, Table.get_set_ne _ _ _ fun hk => h (Prod.ext hn hk)]
  · rfl

end

section
variable {f : Flight}

@[simp] theorem foldl_write_flights (l : List SlotWrite) (s : Pens × List (Nat × FFlags)) :
    (l.foldl f.write s).1.flights = s.1.flights := by
  induction l generalizing s with
  | nil => rfl
  | cons x r ih => exact (ih _).trans (writeRow_flights ..)

@[simp] theorem foldl_write_ctl (l : List SlotWrite) (s : Pens × List (Nat × FFlags)) : (l.foldl f.write s).1.ctl = s.1.ctl := by
  induction l generalizing s with
  | nil => rfl
  | cons x r ih => exact (ih _).trans (writeRow_ctl ..)

/-- Writes leave the slots of cells that none of them names. -/
theorem slotVal_foldl_write_of_not_mem {fold : Bool} {u i j : Nat} {l : List SlotWrite} (s : Pens × List (Nat × FFlags))
    (h : cellAt fold u i j ∉ l.map f.cell) : (l.foldl f.write s).1.slotVal fold u i j = s.1.slotVal fold u i j := by
  induction l generalizing s with
  | nil => rfl
  | cons x r ih =>
    rw [List.map_cons, List.mem_cons, not_or] at h
    obtain ⟨hx, hr⟩ := h
    exact (ih _ hr).trans (slotVal_writeRow_ne _ f _ _ _ (Ne.symm hx))

/-- Of writes to distinct cells each combines its own slot as it stood before them. -/
theorem slotVal_foldl_write_of_mem {l : List SlotWrite} (s : Pens × List (Nat × FFlags)) (hl : (l.map f.cell).Nodup)
    {x : SlotWrite} (h : x ∈ l) :
    (l.foldl f.write s).1.slotVal f.fold x.u x.i f.slot = (x.g (s.1.slotVal f.fold x.u x.i f.slot)).1 := by
  induction l generalizing s with
  | nil => cases h
  | cons y r ih =>
    obtain ⟨hy, hr⟩ := List.nodup_cons.1 hl
    rcases List.mem_cons.1 h with rfl | hx
    · exact (slotVal_foldl_write_of_not_mem _ hy).trans (slotVal_writeRow_same ..)
    · have hne : f.cell y ≠ f.cell x := fun he => hy (he ▸ List.mem_map_of_mem hx)
      rw [List.foldl_cons, ih _ hr hx]
      exact congrArg (fun v => (x.g v).1) (slotVal_writeRow_ne _ f _ _ _ hne)

end

section
variable (p : Pens) (f : Flight)

@[simp] theorem landFlight_flights : (p.landFlight f).1.flights = p.flights := by simp [landFlight_eq_foldl]
@[simp] theorem landFlight_ctl : (p.landFlight f).1.ctl = p.ctl := by simp [landFlight_eq_foldl]

variable {f} (hn : ((f.rows.map fun x => cellAt f.fold x.1 x.2.1 f.slot) ++
  (f.irows.map fun x => cellAt f.fold x.1 x.2.1 f.slot)).Nodup) {u i : Nat}
include hn

/-- An FP32 row result is combined with its slot (R65). -/
theorem slotVal_landFlight_row {v : W32} (h : (u, i, v) ∈ f.rows) : (p.landFlight f).1.slotVal f.fold u i f.slot =
    (combineF f.op f.init (p.slotVal f.fold u i f.slot) v).1 := by
  rw [landFlight_eq_foldl]
  rw [← f.map_cell_writes] at hn
  exact slotVal_foldl_write_of_mem (p, f.flags) hn (List.mem_append_left _ (List.mem_map_of_mem h))

/-- An INT32 row result is combined with its slot (R65). -/
theorem slotVal_landFlight_irow {v : Int} (h : (u, i, v) ∈ f.irows) : (p.landFlight f).1.slotVal f.fold u i f.slot =
    (combineI f.op f.init (p.slotVal f.fold u i f.slot) v).1 := by
  rw [landFlight_eq_foldl]
  rw [← f.map_cell_writes] at hn
  exact slotVal_foldl_write_of_mem (p, f.flags) hn (List.mem_append_right _ (List.mem_map_of_mem h))

end

@[simp] theorem landAll_flights (p : Pens) (l : List Flight) : (p.landAll l).1.flights = p.flights := by
  induction l generalizing p with
  | nil => rfl
  | cons f r ih => exact (ih _).trans (landFlight_flights p f)

@[simp] theorem landAll_ctl (p : Pens) (l : List Flight) : (p.landAll l).1.ctl = p.ctl := by
  induction l generalizing p with
  | nil => rfl
  | cons f r ih => exact (ih _).trans (landFlight_ctl p f)

theorem landAll_singleton (p : Pens) (f : Flight) :
    p.landAll [f] = ((p.landFlight f).1, (p.landFlight f).2, [(f.bundle, condBits (p.landFlight f).2)]) := by
  simp [Pens.landAll]

/-! ### PEN_SLOT_WRITE -/

/-- The issues of core `c` whose writes fall in cycle `due`. -/
def Device.dueAt (d : Device) (c due : Nat) : List Flight := (d.core c).pn.flights.filter fun x => x.due == due

/-- The Pens of core `c` once the writes of cycle `due` have landed, and their conditions. -/
def Device.penWrites (d : Device) (c due : Nat) : Pens × List (Nat × FFlags) × List (Nat × FFlags × W32) :=
  (d.core c).pn.landAll (d.dueAt c due)

/-- The device once the writes of cycle `due` have landed: their issues end, and their conditions set flags. -/
def Device.slotsWritten (d : Device) (c due : Nat) : Device :=
  (d.modCore c fun k => { k with
    pn := { (d.penWrites c due).1 with flights := (d.penWrites c due).1.flights.filter fun x => x.due != due }
    sq := (d.dueAt c due).foldl (fun q x => q.release x.num) k.sq }).modPens c fun p => p.raise (condBits (d.penWrites c due).2.1)

/-- The smallest due cycle of a list of issues. -/
theorem foldl_min_due {due : Nat} (l : List Flight) {m : Nat} (hm : due ≤ m) (hl : ∀ x ∈ l, due ≤ x.due)
    (h : m = due ∨ ∃ x ∈ l, x.due = due) : l.foldl (fun m x => min m x.due) m = due := by
  induction l generalizing m with
  | nil => simpa using h
  | cons y r ih =>
    obtain ⟨hy, hr⟩ := List.forall_mem_cons.1 hl
    refine ih (le_min hm hy) hr ?_
    rcases h with rfl | ⟨x, hx, hd⟩
    · exact .inl (min_eq_left hy)
    · rcases List.mem_cons.1 hx with rfl | hx
      · exact .inl (hd ▸ min_eq_right (hd ▸ hm))
      · exact .inr ⟨x, hx, hd⟩

namespace Device
section
variable (d : Device) (c due : Nat)

theorem slotsWritten_pn : ((d.slotsWritten c due).core c).pn =
    { (d.penWrites c due).1 with flights := (d.core c).pn.flights.filter fun x => x.due != due }.raise
      (condBits (d.penWrites c due).2.1) := by
  simp [slotsWritten, penWrites]

@[simp] theorem slotsWritten_ctl : ((d.slotsWritten c due).core c).pn.ctl = (d.core c).pn.ctl := by
  simp [slotsWritten_pn, Pens.raise, penWrites]

theorem slotsWritten_regs : (d.slotsWritten c due).regs c = (d.dueAt c due).foldl (fun q x => q.release x.num) (d.regs c) := by
  simp [slotsWritten, regs]

@[simp] theorem slotsWritten_jobOf : (d.slotsWritten c due).jobOf c = d.jobOf c := by
  simp [slotsWritten, jobOf]

end

/-- Releases of claims leave the state of the core. -/
theorem foldl_release_stat (l : List Flight) (q : Sequencer) : (l.foldl (fun q x => q.release x.num) q).stat = q.stat := by
  induction l generalizing q with
  | nil => rfl
  | cons x r ih => exact ih _

/-- PEN_SLOT_WRITE after the earliest write cycle, `due`, has ended (R72, R76). -/
theorem penSlotWrite_eq {d : Device} {c due : Nat} (hmin : ∀ x ∈ (d.core c).pn.flights, due ≤ x.due)
    (hmem : ∃ x ∈ (d.core c).pn.flights, x.due = due) (hnow : due < d.power.cycles) :
    penSlotWrite c d = ((d.penWrites c due).2.2.find? fun b => b.2.1 &&& (d.core c).pn.ctl ≠ 0).elim (d.slotsWritten c due)
      fun b => (d.slotsWritten c due).trapCore c 0x0803 b.1 .p (arithInfo (condBits (d.penWrites c due).2.1)) := by
  rw [← d.slotsWritten_ctl c due]
  unfold penSlotWrite
  cases hfl : (d.core c).pn.flights with
  | nil => simp [hfl] at hmem
  | cons f r =>
    obtain ⟨hf, hr⟩ := List.forall_mem_cons.1 (hfl ▸ hmin)
    have hdue : r.foldl (fun m x => min m x.due) f.due = due := foldl_min_due r hf hr (by simpa [hfl] using hmem)
    have hgroup : (f :: r).filter (fun x => x.due == due) = d.dueAt c due := by rw [dueAt, hfl]
    simp only [hdue, if_neg (Nat.not_le.2 hnow), hgroup]
    change (match (d.penWrites c due).2.2.find? fun b => b.2.1 &&& ((d.slotsWritten c due).core c).pn.ctl ≠ 0 with
      | some b => (d.slotsWritten c due).trapCore c 0x0803 b.1 .p (arithInfo (condBits (d.penWrites c due).2.1))
      | none => d.slotsWritten c due) = _
    cases (d.penWrites c due).2.2.find? fun b => b.2.1 &&& ((d.slotsWritten c due).core c).pn.ctl ≠ 0 <;> rfl

/-- The writes of one issue `f` alone in its cycle. -/
theorem penWrites_single {d : Device} {c : Nat} {f : Flight} (h : d.dueAt c f.due = [f]) :
    d.penWrites c f.due = (((d.core c).pn.landFlight f).1, ((d.core c).pn.landFlight f).2,
      [(f.bundle, condBits ((d.core c).pn.landFlight f).2)]) := by
  rw [penWrites, h, landAll_singleton]

end Device

section
variable {s : State} {c due : Nat} (hc : c < 12) (hmin : ∀ x ∈ (s.dev.core c).pn.flights, due ≤ x.due)
  (hmem : ∃ x ∈ (s.dev.core c).pn.flights, x.due = due) (hnow : due < s.dev.power.cycles)
include hc hmin hmem hnow

/-- Writes without an enabled condition. -/
theorem exec_penSlotWrite_quiet (hq : ((s.dev.penWrites c due).2.2.find? fun b => b.2.1 &&& (s.dev.core c).pn.ctl ≠ 0) = none) :
    exec (.penSlotWrite c) s = .next { s with dev := s.dev.slotsWritten c due } := by
  have hw := Device.penSlotWrite_eq hmin hmem hnow
  rw [hq] at hw
  exact (onUnit_next _ _ hc).trans (by rw [hw]; rfl)

/-- Writes of which some carry an enabled condition, `b` the oldest of them (R72). -/
theorem exec_penSlotWrite_trap {b : Nat × FFlags × W32}
    (hb : ((s.dev.penWrites c due).2.2.find? fun b => b.2.1 &&& (s.dev.core c).pn.ctl ≠ 0) = some b) :
    exec (.penSlotWrite c) s =
      s.goes ((s.dev.slotsWritten c due).trapCore c 0x0803 b.1 .p (arithInfo (condBits (s.dev.penWrites c due).2.1))) := by
  have hw := Device.penSlotWrite_eq hmin hmem hnow
  rw [hb] at hw
  exact (onUnit_next _ _ hc).trans (by rw [hw]; rfl)

end

/-- Setting flags leaves the slots. -/
theorem slotVal_raise (p : Pens) (l : List Flight) (x : FFlags × W32) (fold : Bool) (u i j : Nat) :
    ({ p with flights := l }.raise x).slotVal fold u i j = p.slotVal fold u i j := rfl

/-- Settles O25: PISSUE by what `penHold` answers, PEN_SLOT_WRITE by whether an enabled condition is among those of its cycle. -/
theorem penIssueResults : Obligations.PenIssueResults := by
  refine ⟨?issue, ?write, ?trap⟩
  case issue =>
    intro s c x h w k a us hpair hslot hscale hne hunits hswap hfree now f hcopy hpower haccept
    have hbody := pissueBody_eq (f := f) rfl rfl rfl hpair hslot hscale hne hunits hswap hfree
    refine ⟨fun hramp => ?_, fun hramp => ?_⟩
    · rw [Device.penHold_none hcopy hpower haccept hramp] at hbody
      exact Device.onUnit_issue_fly h hbody
    · rw [Device.penHold_ramp hcopy hpower haccept hramp] at hbody
      refine ⟨_, Device.onUnit_issue_wait_p h hbody, by simp [now, k], by simp [Device.regs, k], ?_⟩
      rw [Device.modCore_eq, Device.setCore_core_same]
      exact find_waitsIn _ .p _
  case write =>
    intro s c f hc hmin hgroup hnow hquiet hcells
    have hmem : f ∈ (s.dev.core c).pn.flights := (List.mem_filter.1 (hgroup ▸ List.mem_singleton_self f)).1
    have hw := Device.penWrites_single hgroup
    have hpn := s.dev.slotsWritten_pn c f.due
    rw [hw] at hpn
    refine ⟨_, exec_penSlotWrite_quiet hc hmin ⟨f, hmem, rfl⟩ hnow ?_, ?_, fun u i v h => ?_, fun u i v h => ?_, ?_⟩
    · simp [hw, hquiet]
    · rw [hpn]; rfl
    · rw [hpn, slotVal_raise, slotVal_landFlight_row _ hcells h]
    · rw [hpn, slotVal_raise, slotVal_landFlight_irow _ hcells h]
    · have hg : s.dev.dueAt c f.due = [f] := hgroup
      simp [s.dev.slotsWritten_regs c f.due, hg, Sequencer.release]
  case trap =>
    intro s c j due v b hc hj hs hmin hany hnow group landed hb t
    have hrun : ((s.dev.slotsWritten c due).regs c).stat ≠ .trapped := by
      rwa [Device.slotsWritten_regs, Device.foldl_release_stat]
    obtain ⟨e, htrap, hstat, he⟩ := Device.trapCore_records ((s.dev.slotsWritten_jobOf c due).trans hj) hrun 0x0803 b.1 .p
      (arithInfo (condBits landed.2.1))
    refine ⟨e, htrap, hstat, ?_⟩
    exact (exec_penSlotWrite_trap hc hmin (by simpa using hany) hnow hb).trans (congrArg s.goes he)

end Sys2Proof.Machine
end

section
/-! PROOF. The Pen and Fold instructions, the moving front and the Trough (spec 04, 05). -/

namespace Sys2Proof.Machine

/-! ### The Pens under changes of one Pen -/

section
variable (p : Pens) (n m : Nat)

theorem pen_setPen (v : Pen) : (p.setPen n v).pen m = if n = m then v else p.pen m := Table.get_set ..

theorem pen_modPen (f : Pen → Pen) : (p.modPen n f).pen m = if m = n then f (p.pen m) else p.pen m := by
  rw [Pens.modPen, pen_setPen]
  by_cases h : n = m
  · subst h; simp
  · simp [h, Ne.symm h]

/-- An idempotent change, made of each Pen of a list in turn, is made of the Pens of the list and of no other. -/
theorem pen_foldl_modPen {f : Pen → Pen} (hf : ∀ v, f (f v) = f v) (l : List Nat) :
    (l.foldl (fun p n => p.modPen n f) p).pen m = if m ∈ l then f (p.pen m) else p.pen m := by
  induction l generalizing p with
  | nil => simp
  | cons n r ih =>
    rw [List.foldl_cons, ih, pen_modPen]
    by_cases hn : m = n <;> by_cases hr : m ∈ r <;> simp [hn, hr, hf]

theorem pen_setShadow (l : List Nat) (v : Shadow) :
    (p.setShadow l v).pen m = if m ∈ l then { p.pen m with shadow := v } else p.pen m :=
  pen_foldl_modPen p m (f := fun q => { q with shadow := v }) (fun _ => rfl) l

end

/-! ### Yard reads and writes leave the cores -/

namespace Device
variable (d : Device) (c : Nat)

/-- Cores that stand as they did. -/
theorem core_congr {d e : Device} (h : e.cores = d.cores) (c : Nat) : e.core c = d.core c := by simp [core, h]

/-- The device of a pair whose cores stand as they did. -/
theorem cores_of_eq {β : Type} {d e : Device} {p : Device × β} {y : β} (k : p = (e, y)) (h : p.1.cores = d.cores) :
    e.cores = d.cores := by
  subst k; exact h

@[simp] theorem yardUe_cores (b cls : Nat) (q : Bool) : (d.yardUe c b cls q).cores = d.cores := by
  unfold yardUe
  dsimp only
  split <;> simp [noteFaults]

@[simp] theorem yardMend_cores (b : Nat) : (d.yardMend c b).cores = d.cores := by
  unfold yardMend
  dsimp only
  split <;> simp [noteFaults]

@[simp] theorem drainEntry_cores (m : Merge) : (d.drainEntry c m).cores = d.cores := by
  unfold drainEntry
  extract_lets e s full s' old
  have he : e.cores = d.cores := rfl
  split
  · exact he
  · split
    · split
      · exact he
      · exact (yardMend_cores ..).trans he
      · exact (yardUe_cores ..).trans he
    · exact he

@[simp] theorem drainBlock_cores (b : Nat) : (d.drainBlock c b).cores = d.cores := by
  unfold drainBlock
  split <;> simp

@[simp] theorem readBlock_cores (cls b : Nat) : (d.readBlock c cls b).1.cores = d.cores := by
  unfold readBlock
  dsimp only
  split <;> simp

@[simp] theorem readBlocks_cores (cls : Nat) (l : List Nat) : (d.readBlocks c cls l).1.cores = d.cores := by
  induction l generalizing d with
  | nil => rfl
  | cons b r ih =>
    unfold readBlocks
    split
    · next h => exact cores_of_eq h (readBlock_cores ..)
    · next h => exact (ih _).trans (cores_of_eq h (readBlock_cores ..))

@[simp] theorem readBytes_cores (cls off n : Nat) : (d.readBytes c cls off n).1.cores = d.cores := by
  unfold readBytes
  split <;> next h => exact cores_of_eq h (readBlocks_cores ..)

@[simp] theorem readYard_cores (cls off n : Nat) : (d.readYard c cls off n).1.cores = d.cores :=
  readBytes_cores ..

@[simp] theorem writeBlock_cores (m : Merge) : (d.writeBlock c m).cores = d.cores := by
  unfold writeBlock
  split
  · rfl
  · split
    · dsimp only; split <;> simp
    · dsimp only
      split
      · split <;> simp
      · simp

@[simp] theorem writeYard_cores (off : Nat) (bs : List Byte) : (d.writeYard c off bs).cores = d.cores :=
  foldl_part (φ := fun d => d.cores) (fun _ _ => writeBlock_cores ..) _ _

end Device

/-! ### The switch (R89) -/

section
variable {p : Pens} {fold : Bool} {u : Nat}

/-- Of a unit whose shadow is FULL each Pen switches, and no other. -/
theorem pen_switchUnit (h : p.shadowOf fold u = .full) (n : Nat) :
    (p.switchUnit fold u).pen n = if n ∈ pensOf fold u then (p.pen n).switch else p.pen n := by
  rw [Pens.switchUnit, if_pos h]
  exact pen_foldl_modPen p n (f := Pen.switch) (fun _ => rfl) _

theorem switchUnit_of_not_full (h : p.shadowOf fold u ≠ .full) : p.switchUnit fold u = p := if_neg h

end

/-- PSWAP waits while a named unit is LOADING or ARMED, and else switches the named units. -/
theorem pswapBody_eq {c : Nat} {x : QInstr} {d : Device}
    (hunits : badUnits (d.core c).pn.folds (fUK x.word) (maskUnits (d.core c).sq x.word) = false) : pswapBody c x d =
    if anyShadow (d.core c).pn (fUK x.word) (maskUnits (d.core c).sq x.word) [.loading, .armed] then .wait d none
    else .ok (d.modPens c fun p => (maskUnits (d.core c).sq x.word).foldl (fun p u => p.switchUnit (fUK x.word) u) p) := by
  simp only [pswapBody, hunits, Bool.false_eq_true, if_false]

/-- A slot that a unit has (R167): a Pen has 16, a Fold 32. -/
theorem slot_ok {fold : Bool} {slot : Nat} (h : fold = true ∨ slot < 16) : (!fold && decide (16 ≤ slot)) = false := by
  rcases h with h | h
  · simp [h]
  · simp [Nat.not_le.2 h]

/-- A legal PISSUE with SWAP waits while a named unit is LOADING or ARMED (R89). -/
theorem pissueBody_waits {c : Nat} {x : QInstr} {d : Device} {a : IssueArgs} {us : List Nat}
    (ha : a = issueArgs (d.core c).sq x.word) (hus : us = maskUnits (d.core c).sq x.word)
    (hpair : pairOk a.op a.cond a.fw a.fx = true) (hslot : a.fold = true ∨ a.slot < 16)
    (hscale : if fmtMx a.fx then bits x.word 51 47 % 2 = 0 else bits x.word 51 47 = 0) (hne : us ≠ [])
    (hunits : badUnits (d.core c).pn.folds a.fold us = false) (hswap : bit x.word 46 = true)
    (hshadow : anyShadow (d.core c).pn a.fold us [.loading, .armed] = true) : pissueBody c x d = .wait d none := by
  subst ha hus
  unfold pissueBody
  dsimp only
  rw [if_neg ?legal, if_neg (by simpa using hne), if_neg (by simp [hunits]), if_pos (by simp [hswap, hshadow])]
  case legal =>
    have hsx : (if fmtMx (issueArgs (d.core c).sq x.word).fx then bits x.word 51 47 % 2 == 1 else bits x.word 51 47 != 0) =
        false := by
      split at hscale <;> simp_all
    simp [hpair, hsx, slot_ok hslot]

namespace Device
section
variable (d : Device) (c : Nat)

@[simp] theorem tookFree_core (n : Nat) : d.tookFree.core n = d.core n := rfl
@[simp] theorem spend_pn (w : Nat) : ((d.spend c w).core c).pn = (d.core c).pn := by simp [spend]
@[simp] theorem spend_tr (w : Nat) : ((d.spend c w).core c).tr = (d.core c).tr := by simp [spend]
@[simp] theorem retired_pn (sl : Slot) : ((d.retired c sl).core c).pn = (d.core c).pn := by simp [retired]
@[simp] theorem departed_pn (sl : Slot) : ((d.departed c sl).core c).pn = (d.core c).pn := by simp [departed]

theorem entered_pn (w : W64) (a : IssueArgs) (us : List Nat) (f : Flight) : ((d.entered c w a us f).core c).pn =
    if bit w 46 then us.foldl (fun p u => p.switchUnit a.fold u) ((d.core c).pn.enter f d.power.cycles (interval a.fx))
    else (d.core c).pn.enter f d.power.cycles (interval a.fx) := by
  simp [entered]

end
end Device

/-- A P-slot instruction that waits under no cause changes no Pen, and stays in its queue. -/
theorem Device.onUnit_issue_waits_p {s : State} {c op : Nat} {x : QInstr} {body : QInstr → Device → Issue}
    (h : s.dev.mayIssue c .p op x = true) (hb : body x s.dev = .wait s.dev none) :
    ∃ t, onUnit 12 c s (Device.issue c .p op body) = .next t ∧ (t.dev.core c).pn = (s.dev.core c).pn ∧
      (t.dev.regs c).queue .p = (s.dev.regs c).queue .p :=
  ⟨_, Device.onUnit_issue_wait_p h hb, by simp, by simp [Device.regs]⟩

/-- Settles O27: the switch of one unit Pen by Pen, and the two instructions by whether a named shadow still loads or is armed. -/
theorem switchRule : Obligations.SwitchRule := by
  refine ⟨fun p fold u => ⟨fun h n => ?switched, switchUnit_of_not_full⟩, ?pswap, ?pissue⟩
  case switched =>
    rw [pen_switchUnit h n]
    refine ⟨fun hn => ?_, fun hn => if_neg hn⟩
    rw [if_pos hn]
    exact ⟨rfl, rfl, rfl⟩
  case pswap =>
    intro s c x h k us hunits
    have hbody := pswapBody_eq hunits
    refine ⟨fun hshadow => ?_, fun hshadow => ?_⟩
    · rw [if_neg (by simpa using hshadow)] at hbody
      obtain ⟨-, -, hs, -⟩ := Device.mayIssue_iff.1 h
      exact ⟨_, Device.onUnit_issue_ok h hbody rfl (Device.traceOf_p hs) rfl, by simp; rfl⟩
    · rw [if_pos hshadow] at hbody
      exact Device.onUnit_issue_waits_p h hbody
  case pissue =>
    intro s c x h w k a us hpair hslot hscale hne hunits hswap now f
    refine ⟨fun hshadow => ?_, fun hshadow hfree hhold => ?_⟩
    · exact Device.onUnit_issue_waits_p h (pissueBody_waits rfl rfl hpair hslot hscale hne hunits hswap hshadow)
    · have hbody := pissueBody_eq (f := f) rfl rfl rfl hpair hslot hscale hne hunits (fun _ => hshadow) hfree
      rw [hhold] at hbody
      refine ⟨_, Device.onUnit_issue_fly h hbody, ?_⟩
      rw [Device.departed_pn, Device.entered_pn, if_pos hswap]

/-! ### PFOLD (R93) -/

/-- A mask of eight bits with the bits of a list set. -/
theorem getLsbD_foldl_mask (l : List Nat) (m : BitVec 8) {i : Nat} (hi : i < 8) :
    (l.foldl (fun m f => m ||| BitVec.ofNat 8 (2 ^ f)) m).getLsbD i = (m.getLsbD i || decide (i ∈ l)) := by
  induction l generalizing m with
  | nil => simp
  | cons f r ih =>
    have hbit : (BitVec.ofNat 8 (2 ^ f)).getLsbD i = decide (i = f) := by
      rw [BitVec.getLsbD_ofNat, Nat.testBit_two_pow]
      simp [hi, eq_comm]
    rw [List.foldl_cons, ih, BitVec.getLsbD_or, hbit]
    by_cases h : i = f <;> simp [h]

theorem mem_unitsOf_fold {m : W64} {f : Nat} : f ∈ unitsOf true m ↔ f < 8 ∧ bit m f = true := by simp [unitsOf]

/-- The joined Folds after `fs` join or split. -/
def Pens.foldsAfter (p : Pens) (join : Bool) (fs : List Nat) : BitVec 8 :=
  let m : BitVec 8 := fs.foldl (fun m f => m ||| BitVec.ofNat 8 (2 ^ f)) 0
  if join then p.folds ||| m else p.folds &&& ~~~m

theorem getLsbD_foldsAfter (p : Pens) (join : Bool) (m : W64) {f : Nat} (hf : f < 8) :
    (p.foldsAfter join (unitsOf true m)).getLsbD f = if bit m f then join else p.folds.getLsbD f := by
  have hmask := getLsbD_foldl_mask (unitsOf true m) 0 hf
  rw [show (0 : BitVec 8).getLsbD f = false from BitVec.getLsbD_zero, Bool.false_or] at hmask
  have hbit : decide (f ∈ unitsOf true m) = bit m f := by simp [mem_unitsOf_fold, hf]
  rw [hbit] at hmask
  unfold Pens.foldsAfter
  cases join
  · rw [if_neg Bool.false_ne_true, BitVec.getLsbD_and, BitVec.getLsbD_not, hmask]
    cases bit m f <;> simp [hf]
  · rw [if_pos rfl, BitVec.getLsbD_or, hmask]
    cases bit m f <;> simp

section
variable {c : Nat} {x : QInstr} {d : Device} {fs : List Nat} (hfs : fs = unitsOf true ((d.core c).sq.sop (fSU x.word)))
  (hidle : ((fs.flatMap (pensOf true)).any fun n => (d.core c).pn.busy n || ((d.core c).pn.pen n).shadow == .loading) = false)
  (harmed : bit x.word 16 = true → ((fs.flatMap (pensOf true)).any fun n => ((d.core c).pn.pen n).shadow == .armed) = false)
include hfs hidle harmed

/-- PFOLD of Folds whose Pens are idle, and not ARMED where they join. -/
theorem pfoldBody_eq :
    pfoldBody c x d = .ok (d.modPens c fun p => { p with folds := p.foldsAfter (bit x.word 16) fs }) := by
  subst hfs
  have hlegal : (bit x.word 16 && ((unitsOf true ((d.core c).sq.sop (fSU x.word))).flatMap (pensOf true)).any
      fun n => ((d.core c).pn.pen n).shadow == .armed) = false := by
    cases h : bit x.word 16
    · rfl
    · exact harmed h
  simp only [pfoldBody, hidle, hlegal, Bool.false_eq_true, if_false]
  rfl

end

/-! ### PDRN (R84, R85) -/

namespace Sequencer

@[simp] theorem lane_setV_same (q : Sequencer) (n : Nat) (v : VReg) (l : Nat) : (q.setV n v).lane n l = Table.get v 0 l := by
  simp [lane, vReg, setV]
@[simp] theorem retire_lane (q : Sequencer) (sl : Slot) (n l : Nat) : (q.retire sl).lane n l = q.lane n l := by
  simp [lane, vReg]

end Sequencer

/-- Lane `l` of a PLAIN drain of slot `s` of the units `us`. -/
def Pens.plainLane (p : Pens) (fold : Bool) (us : List Nat) (s l : Nat) : W32 :=
  match us.find? fun u => u % (if fold then 8 else 16) == l / unitDim fold with
  | some u => p.slotVal fold u (l % unitDim fold) s
  | none => 0

/-- Lane `l` of a SUM drain of slot `s` of the units `us` from device `d`, with its conditions. -/
def Device.sumDrain (d : Device) (c : Nat) (fold : Bool) (us : List Nat) (s l : Nat) : W32 × FFlags :=
  sumLane (sumKind (d.core c).pn fold (us.headD 0) s (d.freeWord 4)) (Config.freeOrder 4 (64 * d.free + l))
    (us.map fun u => (d.core c).pn.slotVal fold u l s)

/-- The conditions of a SUM drain, by Pen. -/
def Device.sumConds (d : Device) (c : Nat) (fold : Bool) (us : List Nat) (s : Nat) : FFlags × W32 :=
  let flags := (List.range (unitDim fold)).foldl (fun g l => g ||| (d.sumDrain c fold us s l).2) (0 : FFlags)
  condBits ((us.flatMap (pensOf fold)).map fun n => (n, flags))

section
variable {c : Nat} {x : QInstr} {d : Device} {fold : Bool} {us : List Nat} {slot : Nat} (hfold : fold = fUK x.word)
  (hus : us = maskUnits (d.core c).sq x.word) (hslot : slot = bits x.word 26 22) (hs : fold = true ∨ slot < 16) (hne : us ≠ [])
  (hunits : badUnits (d.core c).pn.folds fold us = false)
  (howed : (d.core c).pn.slotOwed x.num fold (us.flatMap (pensOf fold)) slot = false)
include hfold hus hslot hs hne hunits howed

/-- PDRN PLAIN of units of which no two have the same lanes. -/
theorem pdrnBody_plain (hsum : bit x.word 27 = false)
    (hlanes : (us.map (· % if fold then 8 else 16)).eraseDups.length = us.length) :
    pdrnBody c x d = .ok (d.modSeq c fun q => q.setV (fA x.word) (vregOf ((d.core c).pn.plainLane fold us slot))) := by
  subst hfold hus hslot
  unfold pdrnBody
  dsimp only
  rw [if_neg (by simp [slot_ok hs]), if_neg (by simpa using hne), if_neg (by simp [hunits, hlanes]), if_neg (by simp [howed]),
    if_pos (by simp [hsum])]
  rfl

/-- PDRN SUM where no condition is enabled. -/
theorem pdrnBody_sum (hsum : bit x.word 27 = true) (hctl : (d.core c).pn.ctl = 0) :
    pdrnBody c x d = .ok ((d.tookFree.modSeq c fun q => q.setV (fA x.word) (vregOf fun l =>
      if l < unitDim fold then (d.sumDrain c fold us slot l).1 else 0)).modPens c fun p => p.raise (d.sumConds c fold us slot)) := by
  subst hfold hus hslot
  unfold pdrnBody
  dsimp only
  rw [if_neg (by simp [slot_ok hs]), if_neg (by simpa using hne), if_neg (by simp [hunits, hsum]), if_neg (by simp [howed]),
    if_neg (by simp [hsum]), if_neg (by simp [hctl])]
  rfl

end

/-! ### PCONV (R107 to R110) -/

/-- A walk has one issue for each position and chunk. -/
theorem Conv.length_issues (v : Conv) : v.issues.length = v.count * v.chunks := by
  simp [Conv.issues, List.length_flatMap]

/-- The operands of the issue of a walk at position `n`, whose lanes read `ls` (R109). -/
def Conv.args (v : Conv) (n : Nat) (ls : List (Bool × W32)) : IssueArgs :=
  { op := 0, cond := 0, fw := v.elem, fx := v.elem, init := !v.acc, slot := (v.slot0 + n) % 16, fold := false,
    valid := fun _ j => (ls.getD j (false, 0)).1, x := fun _ j => (ls.getD j (false, 0)).2, sx := fun _ => 0 }

section
variable {c : Nat} {x : QInstr} {d e : Device} {bs : List Byte} {off first : Nat} {v : Conv}
  (hoff : off = ((d.core c).sq.aReg (bits x.word 15 11)).toNat) (hfirst : first = bits x.word 20 16) (hv : v = convOf (ofBytes bs))
  (hfs : (d.core c).pn.fs20 = true) (halign : off % 32 = 0) (hown : d.ownRange c off 32 = true)
  (hread : d.readYard c 3 off 32 = (e, .inl bs)) (hres : v.reserved = false) (helem : v.elem = 0 ∨ v.elem = 7)
  (hbase : v.base % 4 = 0) (hdims : [v.kh, v.kw, v.sy, v.sx, v.dy, v.dx].any (· == 0) = false) (hcount : 1 ≤ v.count)
  (hmax : v.count ≤ 16) (hpens : first + v.chunks ≤ 32) (hreads : (v.reads.all fun o => d.ownRange c o v.esize) = true)
  (hunits : badUnits (d.core c).pn.folds false ((List.range v.chunks).map (first + ·)) = false)
include hoff hfirst hv hfs halign hown hread hres helem hbase hdims hcount hmax hpens hreads hunits

/-- PCONV of a legal descriptor begins its walk. -/
theorem pconvBody_eq : pconvBody c x d = .fly (e.modPens c fun p => { p with
    walk := if v.issues.isEmpty then none
      else some { num := x.num, bundle := x.bundle, first := first, conv := v, todo := v.issues, extra := v.extra v.issues } }) := by
  subst hoff hfirst hv
  have helem' : ((convOf (ofBytes bs)).elem != 0 && (convOf (ofBytes bs)).elem != 7) = false := by
    rcases helem with h | h <;> simp [h]
  have hcount' : ((convOf (ofBytes bs)).count == 0) = false := by simp; omega
  have hmax' : decide (16 < (convOf (ofBytes bs)).count) = false := by simpa using hmax
  have hpens' : decide (32 - bits x.word 20 16 < (convOf (ofBytes bs)).chunks) = false := by simp; omega
  have hbase' : ((convOf (ofBytes bs)).base % 4 != 0) = false := by simpa using hbase
  unfold pconvBody
  dsimp only
  rw [if_neg (by simp [hfs, halign, hown]), hread]
  dsimp only
  rw [hres, helem', hbase', hdims, hcount', hmax', hpens', hreads, hunits]
  rfl

end

namespace Device
section
variable (d : Device) (c : Nat)

/-- Reading the lanes of an issue leaves the cores. -/
@[simp] theorem convLanes_cores (n : Nat) (l : List (Option (Option Nat))) : (d.convLanes c n l).1.cores = d.cores := by
  induction l generalizing d with
  | nil => rfl
  | cons o r ih =>
    have hrest : ∀ (e : Device) (y : Bool × W32), (match e.convLanes c n r with
        | (d, .inl t) => ((d, .inl (y :: t)) : Device × (List (Bool × W32) ⊕ Nat))
        | (d, .inr b) => (d, .inr b)).1.cores = e.cores := by
      intro e y
      split <;> next h => exact cores_of_eq h (ih e)
    unfold convLanes
    rcases o with _ | _ | off
    · exact hrest d _
    · exact hrest d _
    · rcases hread : d.readBytes c 3 off n with ⟨e, bs | b⟩
      all_goals
        have he := cores_of_eq hread (readBytes_cores ..)
        simp only [hread]
      · exact (hrest e _).trans he
      · exact he

end

section
variable {d g : Device} {c n q : Nat} {w : Walk} {rest : List (Nat × Nat)} {ls : List (Bool × W32)}

/-- A walk whose next issue nothing holds back makes it. -/
theorem walkCycle_issue (hw : (d.core c).pn.walk = some w) (htodo : w.todo = (n, q) :: rest) (hextra : w.extra = 0)
    (hfree : w.conv.acc = true → (d.core c).pn.slotBusy false [w.first + q] ((w.conv.slot0 + n) % 16) = false)
    (hhold : d.penHold c [w.first + q] (d.power.cycles + latency 0 w.conv.elem false - 1) = none) :
    d.walkCycle c = d.walkIssue c w n q rest := by
  have hslot : (w.conv.acc && (d.core c).pn.slotBusy false [w.first + q] ((w.conv.slot0 + n) % 16)) = false := by
    cases h : w.conv.acc
    · rfl
    · exact hfree h
  unfold walkCycle
  simp only [hw, htodo, hextra, hslot, hhold, Nat.lt_irrefl, if_false, Bool.false_eq_true]

/-- The issue of a walk enters its Pen with the lanes read, and the walk goes on with the rest. -/
theorem walkIssue_pn (hread : (d.askPorts c 3 true (w.conv.lines n q)).convLanes c w.conv.esize (w.conv.lanes n q) = (g, .inl ls)) :
    ((d.walkIssue c w n q rest).core c).pn =
      { (d.core c).pn.enter (flightOf (d.core c).pn (w.conv.args n ls) w.num w.bundle g.free d.power.cycles [w.first + q])
          d.power.cycles (interval w.conv.elem) with
        walk := if rest.isEmpty then none else some { w with todo := rest, extra := w.conv.extra rest } } := by
  have hcores : g.cores = d.cores := cores_of_eq hread (convLanes_cores ..)
  unfold walkIssue
  simp only [hread, core_congr hcores]
  simp [pWaits, core_congr hcores, Conv.args]

end
end Device

/-- Settles O28: each instruction by the equation of its body, and one cycle of a walk by its issue. -/
theorem penInstructionResults : Obligations.PenInstructionResults := by
  refine ⟨?pswap, ?pfold, ?pdrn, ?pconv, ?walk⟩
  case pswap =>
    intro s c x h k us hunits hshadow e
    have hbody := pswapBody_eq hunits
    rw [if_neg (by simpa using hshadow)] at hbody
    exact Device.onUnit_completed h hbody rfl
  case pfold =>
    intro s c x h k m ps hidle harmed
    obtain ⟨-, -, hs, -⟩ := Device.mayIssue_iff.1 h
    refine ⟨_, Device.onUnit_issue_ok h (pfoldBody_eq rfl hidle harmed) rfl (Device.traceOf_p hs) rfl, fun f hf => ?_⟩
    rw [Device.retired_pn, Device.modPens_eq, Device.setCore_core_same]
    exact getLsbD_foldsAfter _ _ _ hf
  case pdrn =>
    intro s c x h w k fold us slot dim m hslot hne hunits howed
    refine ⟨fun hsum hlanes => ?plain, fun hsum hctl => ?sum⟩
    case plain =>
      exact ⟨_, Device.onUnit_completed h (pdrnBody_plain rfl rfl rfl hslot hne hunits howed hsum hlanes) rfl,
        fun l hl => (Sequencer.get_vregOf _ l).trans (if_pos hl)⟩
    case sum =>
      obtain ⟨-, -, hs, -⟩ := Device.mayIssue_iff.1 h
      refine ⟨_, Device.onUnit_issue_ok h (pdrnBody_sum rfl rfl rfl hslot hne hunits howed hsum hctl) rfl (Device.traceOf_t hs) rfl,
        fun l hl => ?_⟩
      have hlane : ∀ v : VReg, ((((s.dev.tookFree.modSeq c fun q => q.setV (fA x.word) v).modPens c fun p =>
          p.raise (s.dev.sumConds c fold us slot)).retired c .t).regs c).lane (fA x.word) l = Table.get v 0 l := fun v => by
        simp [Device.retired, Device.regs]
      exact (hlane _).trans ((Sequencer.get_vregOf _ l).trans (if_pos hl))
  case pconv =>
    intro s c x e bs h k off first v hfs halign hown hread hres helem hbase hdims hcount hmax hpens hreads hunits walk g
    have hbody := pconvBody_eq rfl rfl rfl hfs halign hown hread hres helem hbase hdims hcount hmax hpens hreads hunits
    exact ⟨Device.onUnit_issue_fly h hbody, v.length_issues⟩
  case walk =>
    intro d g c n q w rest ls v now hw htodo hextra hfree hhold hread a f
    rw [Device.walkCycle_issue hw htodo hextra hfree hhold, Device.walkIssue_pn hread]
    rfl

/-! ### Tiles that land in the shadows (R87, R94) -/

/-- One content of a tile lands in H. -/
def Pens.putCell (p : Pens) (x : Nat × Nat × BitVec 16) : Pens :=
  p.modPen x.1 fun q => { q with h := Table.set q.h 0 x.2.1 x.2.2 }

/-- One row scale of a tile lands in its shadow. -/
def Pens.putScale (p : Pens) (x : Nat × Nat × Byte) : Pens :=
  p.modPen x.1 fun q => { q with sh := Table.set q.sh 0x7F x.2.1 x.2.2 }

theorem landTile_eq (p : Pens) (pens : List Nat) (cells : List (Nat × Nat × BitVec 16)) (scales : List (Nat × Nat × Byte)) :
    p.landTile pens cells scales = (scales.foldl Pens.putScale (cells.foldl Pens.putCell p)).setShadow pens .full := rfl

theorem shadow_setShadow {l : List Nat} {n : Nat} (h : n ∈ l) (p : Pens) (v : Shadow) : ((p.setShadow l v).pen n).shadow = v := by
  rw [pen_setShadow, if_pos h]

@[simp] theorem h_setShadow (p : Pens) (l : List Nat) (v : Shadow) (n : Nat) : ((p.setShadow l v).pen n).h = (p.pen n).h := by
  rw [pen_setShadow]
  split <;> rfl

@[simp] theorem h_foldl_putScale (l : List (Nat × Nat × Byte)) (p : Pens) (n : Nat) :
    ((l.foldl Pens.putScale p).pen n).h = (p.pen n).h := by
  induction l generalizing p with
  | nil => rfl
  | cons x r ih =>
    refine (ih _).trans ?_
    rw [Pens.putScale, pen_modPen]
    split <;> rfl

/-- A landed content is read back, and the contents of other cells stand. -/
theorem h_putCell (p : Pens) (x : Nat × Nat × BitVec 16) (n k : Nat) :
    Table.get ((p.putCell x).pen n).h 0 k = if (x.1, x.2.1) = (n, k) then x.2.2 else Table.get (p.pen n).h 0 k := by
  rw [Pens.putCell, pen_modPen]
  by_cases hn : n = x.1
  · subst hn
    simp [Table.get_set]
  · simp [hn, Ne.symm hn]

section
variable {l : List (Nat × Nat × BitVec 16)} {n k : Nat}

theorem h_foldl_putCell_of_not_mem (p : Pens) (h : (n, k) ∉ l.map fun x => (x.1, x.2.1)) :
    Table.get ((l.foldl Pens.putCell p).pen n).h 0 k = Table.get (p.pen n).h 0 k := by
  induction l generalizing p with
  | nil => rfl
  | cons x r ih =>
    rw [List.map_cons, List.mem_cons, not_or] at h
    obtain ⟨hx, hr⟩ := h
    exact (ih _ hr).trans ((h_putCell ..).trans (if_neg (Ne.symm hx)))

/-- Of contents of distinct cells each is read back. -/
theorem h_foldl_putCell_of_mem (p : Pens) (hl : (l.map fun x => (x.1, x.2.1)).Nodup) {v : BitVec 16} (h : (n, k, v) ∈ l) :
    Table.get ((l.foldl Pens.putCell p).pen n).h 0 k = v := by
  induction l generalizing p with
  | nil => cases h
  | cons x r ih =>
    obtain ⟨hx, hr⟩ := List.nodup_cons.1 hl
    rcases List.mem_cons.1 h with rfl | h
    · exact (h_foldl_putCell_of_not_mem _ hx).trans ((h_putCell ..).trans (if_pos rfl))
    · exact ih _ hr h

end

section
variable (p : Pens) {pens : List Nat} {cells : List (Nat × Nat × BitVec 16)} (scales : List (Nat × Nat × Byte)) {n k : Nat}

/-- Each content of a tile of distinct cells stands in H. -/
theorem h_landTile {v : BitVec 16} (hl : (cells.map fun x => (x.1, x.2.1)).Nodup) (h : (n, k, v) ∈ cells) :
    Table.get ((p.landTile pens cells scales).pen n).h 0 k = v := by
  rw [landTile_eq, h_setShadow, h_foldl_putScale]
  exact h_foldl_putCell_of_mem p hl h

theorem shadow_landTile (h : n ∈ pens) : ((p.landTile pens cells scales).pen n).shadow = .full := by
  rw [landTile_eq, shadow_setShadow h]

end

/-- The claims of an instruction are gone once they are released. -/
theorem Sequencer.num_of_mem_claims_release {q : Sequencer} {n : Nat} {k : Claim} (h : k ∈ (q.release n).claims) : k.num ≠ n := by
  simpa using (List.mem_filter.1 h).2

@[simp] theorem Sequencer.release_sop (q : Sequencer) (n r : Nat) : (q.release n).sop r = q.sop r := rfl

/-! ### PLDW and its completion (R86 to R88, R142, R172) -/

/-- The contents that the rows `t` of a PLDW bring to their cells: decoded by the codebooks of Trough `tr`, or as packed
(R86, R142). -/
def pldwCells (w : W64) (tr : Trough) (t : List ((Nat × Nat) × List Byte)) : List (Nat × Nat × BitVec 16) :=
  t.flatMap fun r => (List.range (unitDim (fUK w))).map fun j =>
    ((cellAt (fUK w) r.1.1 r.1.2 j).1, (cellAt (fUK w) r.1.1 r.1.2 j).2,
      if bit w 30 then tr.decodeElem (bits w 32 31) (bits w 35 33) (bits w 43 39) (bits w 38 36) (bits w 47 44) (ofBytes r.2) j
      else rowElem (bits w 29 26) r.2 j)

/-- The row scales that the rows of a PLDW bring in an MX format. -/
def pldwScales (w : W64) (t : List ((Nat × Nat) × List Byte)) : List (Nat × Nat × Byte) :=
  if !bit w 30 && fmtMx (bits w 29 26) then t.map fun r =>
    ((scaleAt (fUK w) r.1.1 r.1.2).1, (scaleAt (fUK w) r.1.1 r.1.2).2, r.2.getD (pldwRow w - 1) 0) else []

/-- The codebooks that a PLDW names. -/
def pldwBooks (w : W64) : List Nat := if bit w 30 then booksOf (bits w 32 31) (bits w 35 33) (bits w 38 36) else []

/-- The load of PLDW `x` of the units `us`, whose rows read `t`. -/
def pldwLoad (x : QInstr) (tr : Trough) (us : List Nat) (t : List ((Nat × Nat) × List Byte)) : Load :=
  { num := x.num, bundle := x.bundle, pens := us.flatMap (pensOf (fUK x.word)), cells := pldwCells x.word tr t,
    scales := pldwScales x.word t, books := pldwBooks x.word }

section
variable {c : Nat} {x : QInstr} {d e : Device} {us : List Nat} {t : List ((Nat × Nat) × List Byte)}
  (hus : us = maskUnits (d.core c).sq x.word)
  (hfields : pldwFieldsOk x.word = true) (hne : us ≠ []) (hunits : badUnits (d.core c).pn.folds (fUK x.word) us = false)
  (harmed : anyShadow (d.core c).pn (fUK x.word) us [.armed] = false)
  (hown : ((pldwRows (d.core c).sq x.word us).all fun r => d.ownRange c r.2.toNat (pldwRow x.word)) = true)
  (hbooks : (d.core c).tr.bookLoading (pldwBooks x.word) = false)
  (hloading : anyShadow (d.core c).pn (fUK x.word) us [.loading] = false)
  (hvalid : (d.core c).tr.badBook (d.ctxOf c) (pldwBooks x.word) = none)
  (hpair : bit x.word 30 = true → bits x.word 32 31 = 1 →
    ((d.core c).tr.book (bits x.word 35 33)).efmt = ((d.core c).tr.book (bits x.word 38 36)).efmt ∧
    ((d.core c).tr.book (bits x.word 35 33)).bscale = ((d.core c).tr.book (bits x.word 38 36)).bscale)
  (hread : d.readTile c (pldwRow x.word) (pldwRows (d.core c).sq x.word us) = (e, .inl t))
include hus hfields hne hunits harmed hown hbooks hloading hvalid hpair hread

/-- A legal PLDW that waits for nothing and meets no bad block. -/
theorem pldwBody_eq : pldwBody c x d = .fly (e.modPens c fun p =>
    { p.setShadow (pldwLoad x (d.core c).tr us t).pens .loading with loads := p.loads ++ [pldwLoad x (d.core c).tr us t] }) := by
  subst hus
  unfold pldwBooks at hbooks hvalid
  unfold pldwBody
  dsimp only
  rw [if_neg (by simp [hfields]), if_neg (by simpa using hne), if_neg (by simp [hunits, harmed, hown]),
    if_neg (by simp [hbooks, hloading]), hvalid]
  dsimp only
  rw [if_neg ?pair, hread]
  case pair =>
    by_cases hdec : bit x.word 30 = true <;> by_cases hfmt : bits x.word 32 31 = 1
    · simp [hpair hdec hfmt]
    all_goals simp [hdec, hfmt]
  rfl

end

/-- PLDW_COMPLETE of the oldest load (R87). -/
theorem pldwComplete_eq {d : Device} {c : Nat} {l : Load} {r : List Load} (h : (d.core c).pn.loads = l :: r) :
    pldwComplete c d = d.modCore c fun k =>
      { k with pn := { k.pn.landTile l.pens l.cells l.scales with loads := r }, sq := k.sq.release l.num } := by
  rw [pldwComplete, h]

/-- Settles O29: the load by the equation of PLDW's body, its end by what the landing of a tile leaves in each cell. -/
theorem penLoadResults : Obligations.PenLoadResults := by
  refine ⟨?load, ?complete⟩
  case load =>
    intro s c x e rows h w k us ctl b1 b2 bs hfields hne hunits harmed hown hbooks hloading hvalid hpair hread
    refine ⟨_, pldwLoad x k.tr us rows, Device.onUnit_issue_fly h
      (pldwBody_eq rfl hfields hne hunits harmed hown hbooks hloading hvalid hpair hread), ?_⟩
    rw [Device.departed_pn, Device.modPens_eq, Device.setCore_core_same]
    exact ⟨rfl, rfl, rfl, fun n hn => shadow_setShadow hn _ _, rfl⟩
  case complete =>
    intro s c l r hc hl hcells
    refine ⟨_, (onUnit_next _ _ hc).trans (by rw [pldwComplete_eq hl]), ?_⟩
    simp only [Device.modCore_eq, Device.setCore_core_same, Device.regs]
    refine ⟨trivial, fun n k v hv => ?_, fun n hn => ?_, fun k hk => ?_⟩
    · exact h_landTile _ _ hcells hv
    · exact shadow_landTile _ _ hn
    · exact Sequencer.num_of_mem_claims_release hk

/-! ### A front of one beat (R98) -/

/-- A front of one beat that lands in Pen 0. -/
def oneBeatFront : Front :=
  { gen := 0, fmt := 0, beats := 1, got := 0, taken := true, dead := false, src := (0, 0), pens := [0] }

/-- Core 0, the last of its chain, whose Pen 0 is ARMED, with the one beat of its front on its way. -/
def oneBeatState : State :=
  { dev := (Device.reset.modCore 0 fun k => { k with
      chainLast := true
      pn := { k.pn.setShadow [0] .armed with skidArmed := true, front := some oneBeatFront } }).setSkid 0
        [.beat (List.replicate 128 0)],
    pending := [] }

/-- PEN_SKID_CTL.ARMED is taken from the shadows as they stand before the beat fills them, so Pen 0 still counts. -/
theorem skidArmed_oneBeatState : ((Device.skidBeat 0 oneBeatState.dev).core 0).pn.skidArmed = true := by decide

/-- Refutes O30: its last clause asks that no front is expected any more once the last beat of a front has landed in all the Pens
that were ARMED, from any state. The model reads ARMED off the shadows before that beat, and in `oneBeatState` the only beat of a
front is the last one and its Pen is still ARMED. A marker that is taken never leaves such a state: a front to P Pens has at
least 16 beats (R94), and its first beat takes its Pens from ARMED to LOADING. -/
theorem not_movingFrontResults : ¬ Obligations.MovingFrontResults := by
  rintro ⟨-, -, hbeat⟩
  obtain ⟨t, ht, -, hlast⟩ := hbeat oneBeatState 0 oneBeatFront (List.replicate 128 0) [] (by decide) rfl rfl rfl rfl
  obtain ⟨-, hidle, -⟩ := hlast rfl
  have harmed : (t.dev.core 0).pn.skidArmed = true := by
    have hnext := onUnit_next oneBeatState (Device.skidBeat 0) (show 0 < 12 by decide)
    rw [show exec (.skidBeatArrive 0) oneBeatState = _ from hnext] at ht
    cases ht
    exact skidArmed_oneBeatState
  have hothers : ∀ n < 32, n ∉ oneBeatFront.pens → ((oneBeatState.dev.core 0).pn.pen n).shadow ≠ .armed := by decide
  exact absurd (hidle hothers) (by rw [harmed]; decide)

/-! ### TPASS and TACT (R113, R126, R130) -/

section
variable {c off : Nat} {x : QInstr} {d e : Device} {bs : List Byte} {p : Desc}
  (hoff : off = ((d.core c).sq.aReg (bits x.word 15 11)).toNat) (hp : p = descOf (ofBytes bs))
  (hroom : (d.core c).tr.passes.length < 4) (halign : off % 32 = 0) (hown : d.ownRange c off 32 = true)
  (hread : d.readYard c 2 off 32 = (e, .inl bs)) (hzero : descReservedZero (ofBytes bs) = true) (hfields : p.fieldsOk = true)
  (hranges : d.passRangesOk c p = true) (hbank : p.op = 2 ∨ ((d.core c).tr.bank p.abank).int8 = decide (p.afmt = 1))
  (hloading : (d.core c).tr.bookLoading (booksOf p.fmt p.book1 p.book2) = false)
  (hvalid : (d.core c).tr.badBook (d.ctxOf c) (booksOf p.fmt p.book1 p.book2) = none) (hpair : (d.core c).tr.pairOk p = true)
include hoff hp hroom halign hown hread hzero hfields hranges hbank hloading hvalid hpair

/-- TPASS of a legal descriptor queues its pass. -/
theorem tpassBody_eq : tpassBody c x d = .fly (e.modTrough c fun t => { t with failed := false, passes := t.passes ++
    [{ num := x.num, bundle := x.bundle, sd := bits x.word 20 16, d := p, ran := 0 }] }) := by
  subst hoff hp
  unfold tpassBody
  dsimp only
  rw [if_neg (Nat.not_le.2 hroom), if_neg (by simp [halign, hown]), hread]
  dsimp only
  rw [if_neg ?legal, if_neg (by simp [hloading]), hvalid]
  case legal =>
    rcases hbank with h | h <;> simp [hzero, hfields, hranges, h]
  dsimp only
  rw [if_neg (by simp [hpair])]

end

/-- The bank after TACT writes 256 elements of the format `int8` to it, element `i` being `f i`; the other elements of that format
stand (R126). -/
def Bank.filled (b : Bank) (int8 : Bool) (base : Nat) (f : Nat → BitVec 16) : Bank :=
  { int8 := int8,
    elems := (List.range 256).foldl (fun t i => Table.set t 0 (base + i) (f i)) (if b.int8 = int8 then b.elems else []) }

/-- An element written to a bank, from a lane: INT8 saturated, or BF16 rounded. -/
def bankElem (int8 : Bool) (v : W32) : BitVec 16 :=
  if int8 then BitVec.ofInt 16 (satInt 8 v.toInt % 256) else BitVec.ofNat 16 (bits (rndBf16 (val32 v)) 31 16)

/-- The bank that TACT `w` of core `c` leaves. -/
def Device.tactBank (d : Device) (c : Nat) (w : W64) : Bank :=
  ((d.core c).tr.bank (bits w 22 22)).filled (bit w 29) (256 * bits w 28 23) fun i =>
    bankElem (bit w 29) ((d.core c).sq.lane (fA w) i)

theorem tactBody_eq {c : Nat} {x : QInstr} {d : Device}
    (hidle : ((d.core c).tr.passes.any fun p => p.d.op != 2 && p.d.abank == bits x.word 22 22) = false) :
    tactBody c x d = .ok (d.modTrough c fun t =>
      { t with banks := Table.set t.banks Bank.reset (bits x.word 22 22) (d.tactBank c x.word) }) := by
  simp only [tactBody, hidle, Bool.false_eq_true, if_false]
  rfl

/-- Entries written from `base` onward. -/
theorem get_foldl_set_range (t : Table (BitVec 16)) (base : Nat) (f : Nat → BitVec 16) (n i : Nat) :
    Table.get ((List.range n).foldl (fun t i => Table.set t 0 (base + i) (f i)) t) 0 (base + i) =
      if i < n then f i else Table.get t 0 (base + i) := by
  induction n with
  | zero => simp
  | succ n ih =>
    rw [List.range_succ, List.foldl_append, List.foldl_cons, List.foldl_nil, Table.get_set, ih]
    by_cases hn : n = i
    · simp [hn]
    · have hlt : i < n + 1 ↔ i < n := by omega
      simp [hn, hlt]

theorem get_filled (b : Bank) (int8 : Bool) (base : Nat) (f : Nat → BitVec 16) {i : Nat} (hi : i < 256) :
    Table.get (b.filled int8 base f).elems 0 (base + i) = f i := by
  rw [Bank.filled, get_foldl_set_range, if_pos hi]

/-- The high half of a word. -/
theorem bits_31_16 (v : W32) : bits v 31 16 = v.toNat / 65536 := by
  have hv : v.toNat < 2 ^ 32 := v.isLt
  have hlt : v.toNat / 65536 < 2 ^ 16 := by omega
  rw [bits, Nat.shiftRight_eq_div_pow]
  exact Nat.mod_eq_of_lt hlt

/-! ### One cycle of the grid (R132, R135, R414) -/

namespace Device
section
variable {d : Device} {c : Nat} {y : Pass}
  (hy : (d.core c).tr.passes.find? (fun p => decide (p.ran < streamCycles p.d)) = some y) (hreload : (d.core c).tr.reload = 0)
include hy hreload

theorem troughCycle_copy (hcopy : d.copyHeld c = true) : d.troughCycle c = d.tWaits c (some .copy) := by
  simp [troughCycle, hy, hreload, hcopy]

theorem troughCycle_power (hcopy : d.copyHeld c = false) (hpower : d.withheld c = true) :
    d.troughCycle c = d.tWaits c (some .power) := by
  simp [troughCycle, hy, hreload, hcopy, hpower]

/-- The pass runs the cycle, which is counted. -/
theorem troughCycle_runs (hcopy : d.copyHeld c = false) (hpower : d.withheld c = false)
    (hports : ((d.slice c).requests.any fun r => r.own && r.cls == 2) = false) :
    ((d.troughCycle c).core c).tr = { (d.core c).tr with
      cnt := (d.core c).tr.cnt + 1,
      passes := (d.core c).tr.passes.map fun x => if x.num = y.num then { x with ran := x.ran + 1 } else x } := by
  unfold troughCycle
  simp only [hy, hreload, hcopy, hpower, hports]
  simp [tWaits, askPorts, hreload]

end

/-! ### TPASS_COMPLETE (R113, R134) -/

section
variable (d : Device) (c : Nat)

@[simp] theorem codeRead_cores (off n : Nat) : (d.codeRead c off n).1.cores = d.cores := by
  unfold codeRead
  split
  · rfl
  · exact readBytes_cores ..

@[simp] theorem streamRead_cores (off n : Nat) : (d.streamRead c off n).1.cores = d.cores := by
  unfold streamRead
  split
  · rfl
  · exact readYard_cores ..

@[simp] theorem readRow_cores (p : Desc) (r : Nat) : (d.readRow c p r).1.cores = d.cores := by
  unfold readRow
  dsimp only
  split
  · next h => exact cores_of_eq h (codeRead_cores ..)
  · next h =>
    have hcode := cores_of_eq h (codeRead_cores ..)
    split
    · next h => exact (cores_of_eq h (streamRead_cores ..)).trans hcode
    · next h =>
      have hmx := (cores_of_eq h (streamRead_cores ..)).trans hcode
      split
      · next h => exact (cores_of_eq h (streamRead_cores ..)).trans hmx
      · next h =>
        have hrs := (cores_of_eq h (streamRead_cores ..)).trans hmx
        split <;> next h => exact (cores_of_eq h (streamRead_cores ..)).trans hrs

@[simp] theorem readRows_cores (p : Desc) (l : List Nat) : (d.readRows c p l).1.cores = d.cores := by
  induction l generalizing d with
  | nil => rfl
  | cons r l ih =>
    unfold readRows
    split
    · next h => exact cores_of_eq h (readRow_cores ..)
    · next h => exact (ih _).trans (cores_of_eq h (readRow_cores ..))

/-- Writing outputs leaves the cores. -/
@[simp] theorem writeOuts_cores (p : Desc) (i : Nat) (ys : List (W32 × FFlags)) : (d.writeOuts c p i ys).cores = d.cores :=
  writeYard_cores ..

end
end Device

/-- Loading a set of decode tables leaves the passes, the count and the enables. -/
theorem loadSet_keeps {t u : Trough} {p : Desc} (h : t.loadSet p = .inl u) :
    u.passes = t.passes ∧ u.cnt = t.cnt ∧ u.ctl = t.ctl := by
  unfold Trough.loadSet at h
  dsimp only at h
  split at h
  · cases h; exact ⟨rfl, rfl, rfl⟩
  · split at h
    · cases h; exact ⟨rfl, rfl, rfl⟩
    · split at h
      · cases h
      · cases h; exact ⟨rfl, rfl, rfl⟩

/-- The outputs of a pass over the rows `xs`, with the words `out` of an accumulating column pass (R113). -/
def passOuts (t : Trough) (p : Desc) (ord : Nat → List Nat) (xs : List RowIn) (out : List W32) : List (W32 × FFlags) :=
  match p.op with
  | 0 => (List.range p.rows).map fun r => rowOut t p ord r (xs.getD r default)
  | 1 => (List.range p.k).map fun j => colOut t p ord xs (out.getD j 0) j
  | _ => xs.flatMap (expandOut t p)

/-- Words that a pass reads from its output array before it writes it. -/
def Desc.oldOuts (p : Desc) : Nat := if p.acc && p.op = 1 then p.k else 0

/-- The free pairing orders of a pass that runs from `d`. -/
def Device.passOrders (d : Device) (k : Nat) : List Nat := Config.freeOrder 3 (65536 * d.free + k)

namespace Device

/-- The pass `y` at the head has written the outputs `ys`: it leaves the queue, Sd takes its count, and its claims are gone
(R134). -/
def passWritten (g : Device) (c : Nat) (y : Pass) (ys : List (W32 × FFlags)) : Device :=
  ((g.writeOuts c y.d 0 ys).modTrough c fun t => { t with passes := t.passes.drop 1 }).modSeq c fun q =>
    (q.setSop y.sd (BitVec.ofNat 64 (if y.d.op = 1 then y.d.k else y.d.rows))).release y.num

theorem passWritten_core (g : Device) (c : Nat) (y : Pass) (ys : List (W32 × FFlags)) : (g.passWritten c y ys).core c =
    { g.core c with
      tr := { (g.core c).tr with passes := (g.core c).tr.passes.drop 1 }
      sq := ((g.core c).sq.setSop y.sd (BitVec.ofNat 64 (if y.d.op = 1 then y.d.k else y.d.rows))).release y.num } := by
  simp [passWritten, core_congr (writeOuts_cores ..)]

theorem passWritten_slices (g : Device) (c : Nat) (y : Pass) (ys : List (W32 × FFlags)) : (g.passWritten c y ys).slices =
    ((g.askPorts c 2 true (linesOf y.d.outBase (4 * ys.length)) [(c, 2)]).writeYard c y.d.outBase
      (ys.flatMap fun z => toBytes 4 z.1.toNat)).slices := rfl

section
variable (d : Device) (c : Nat) (ys : List (W32 × FFlags))

@[simp] theorem flagTrough_sq : ((d.flagTrough c ys).core c).sq = (d.core c).sq := by simp [flagTrough]
@[simp] theorem flagTrough_passes : ((d.flagTrough c ys).core c).tr.passes = (d.core c).tr.passes := by simp [flagTrough]
@[simp] theorem flagTrough_cnt : ((d.flagTrough c ys).core c).tr.cnt = (d.core c).tr.cnt := by simp [flagTrough]

end

/-- Outputs without an enabled condition set flags and do not trap (R138). -/
theorem raiseTrough_quiet {d : Device} {c : Nat} {ys : List (W32 × FFlags)} (bundle : Nat)
    (h : ∀ z ∈ ys, z.2 &&& ((d.core c).tr.ctl).setWidth 5 = 0) : d.raiseTrough c bundle ys = d.flagTrough c ys := by
  have hnone : (ys.find? fun y => y.2 &&& ((d.core c).tr.ctl).setWidth 5 ≠ 0) = none := by
    simpa using fun a b hab => h (a, b) hab
  simp only [raiseTrough, hnone]

section
variable {d e g : Device} {c : Nat} {y : Pass} {t : Trough} {xs : List RowIn} {out : List Byte}
  (hset : (d.core c).tr.loadSet y.d = .inl t)
  (hrows : (d.tookFree.modTrough c fun _ => t).readRows c y.d (List.range y.d.rows) = (e, xs, none))
  (hout : e.streamRead c y.d.outBase (4 * y.d.oldOuts) = (g, .inl out))
include hrows hout

/-- The Trough of the core stands as its load of tables left it while the pass reads. -/
theorem runPass_reads_core : g.core c = { d.core c with tr := t } := by
  have hcores : g.cores = (d.tookFree.modTrough c fun _ => t).cores :=
    (cores_of_eq hout (streamRead_cores ..)).trans (cores_of_eq hrows (readRows_cores ..))
  rw [core_congr hcores]
  simp

include hset

/-- A pass whose tables load and whose reads meet no bad block runs to its end. -/
theorem runPass_eq {ys : List (W32 × FFlags)} (hys : ys = passOuts t y.d d.passOrders xs (wordsOf out y.d.oldOuts)) :
    d.runPass c y = (g.passWritten c y ys).raiseTrough c y.bundle ys := by
  subst hys
  unfold runPass
  unfold Desc.oldOuts at hout
  simp only [tookFree_core, hset, hrows, hout]
  rfl

end
end Device

/-- TPASS_COMPLETE runs the pass at the head once its stream cycles have all run. -/
theorem tpassComplete_eq {d : Device} {c : Nat} {y : Pass} {r : List Pass} (h : (d.core c).tr.passes = y :: r)
    (hran : streamCycles y.d ≤ y.ran) : tpassComplete c d = d.runPass c y := by
  simp only [tpassComplete, h, if_neg (Nat.not_lt.2 hran)]

/-- Settles O31: TPASS and TACT by the equations of their bodies, TPASS_COMPLETE by what a whole pass leaves, and a cycle of the
grid by what holds the Trough. -/
theorem troughResults : Obligations.TroughResults := by
  refine ⟨?tpass, ?complete, ?tact, ?cycle⟩
  case tpass =>
    intro s c x e bs h k off p books hroom halign hown hread hzero hfields hranges hbank hloading hvalid hpair y g
    exact Device.onUnit_issue_fly h
      (tpassBody_eq rfl rfl hroom halign hown hread hzero hfields hranges hbank hloading hvalid hpair)
  case complete =>
    intro s c y r t e g xs out hc p ord m ys hpasses hran hset hrows hout hquiet
    have hys : ys = passOuts t y.d s.dev.passOrders xs (Device.wordsOf out y.d.oldOuts) := rfl
    clear_value ys
    obtain ⟨htp, htcnt, htctl⟩ := loadSet_keeps hset
    have hcore := Device.passWritten_core g c y ys
    rw [Device.runPass_reads_core hrows hout] at hcore
    have hctl : ((g.passWritten c y ys).core c).tr.ctl = (s.dev.core c).tr.ctl := by rw [hcore]; exact htctl
    have hrun : tpassComplete c s.dev = (g.passWritten c y ys).flagTrough c ys := by
      rw [tpassComplete_eq hpasses hran, Device.runPass_eq hset hrows hout hys,
        Device.raiseTrough_quiet _ (fun z hz => by rw [hctl]; exact hquiet z hz)]
    refine ⟨_, (onUnit_next _ _ hc).trans (by rw [hrun]), g.passWritten_slices c y ys, ?_, ?_, ?_, fun k hk => ?_⟩
    · rw [Device.flagTrough_passes, hcore]
      exact congrArg (List.drop 1) (htp.trans hpasses)
    · rw [Device.flagTrough_cnt, hcore]
      exact htcnt
    · rw [Device.regs, Device.flagTrough_sq, hcore, Sequencer.release_sop, Sequencer.sop_setSop]
      by_cases hsd : y.sd = 0 <;> simp [hsd, p]
    · rw [Device.regs, Device.flagTrough_sq, hcore] at hk
      exact Sequencer.num_of_mem_claims_release hk
  case tact =>
    intro s c x h k b hidle
    obtain ⟨-, -, hs, -⟩ := Device.mayIssue_iff.1 h
    refine ⟨_, Device.onUnit_issue_ok h (tactBody_eq hidle) rfl (Device.traceOf_t hs) rfl, rfl, fun i hi => ?_⟩
    refine (get_filled _ _ _ _ hi).trans ?_
    rw [bankElem, bits_31_16]
    rfl
  case cycle =>
    intro d c y hc hy hreload e
    refine ⟨Device.troughCycle_copy hy hreload, Device.troughCycle_power hy hreload, fun hcopy hpower hports => ?_⟩
    have htr := Device.troughCycle_runs hy hreload hcopy hpower hports
    exact ⟨congrArg Trough.cnt htr, congrArg Trough.passes htr⟩

end Sys2Proof.Machine
end

section
/-! PROOF. CBLD, IMLD and HAUL (spec 05: R121 to R124; spec 06: R194; spec 08: R230). -/

namespace Sys2Proof

/-! ### Runs of entries -/

/-- The table with the values of a list written from entry `n` onward. -/
def Table.setRun {α : Type} [DecidableEq α] (t : Table α) (d : α) : (n : Nat) → List α → Table α
  | _, [] => t
  | n, x :: r => Table.setRun (Table.set t d n x) d (n + 1) r

section
variable {α : Type} [DecidableEq α] (d : α)

theorem Table.get_setRun (t : Table α) (n : Nat) (l : List α) (i : Nat) : Table.get (t.setRun d n l) d i =
    if n ≤ i ∧ i < n + l.length then l.getD (i - n) d else Table.get t d i := by
  induction l generalizing t n with
  | nil =>
    rw [if_neg (by rw [List.length_nil]; omega)]
    rfl
  | cons x r ih =>
    rw [Table.setRun, ih, Table.get_set, List.length_cons]
    rcases Nat.lt_trichotomy n i with h | h | h
    · obtain ⟨k, rfl⟩ := Nat.exists_eq_add_of_lt h
      have hk : n + k + 1 - n = k + 1 := by omega
      have hk' : n + k + 1 - (n + 1) = k := by omega
      rw [hk, hk', List.getD_cons_succ, if_neg (by omega : n ≠ n + k + 1)]
      exact if_congr (by omega) rfl rfl
    · subst h
      simp
    · rw [if_neg (by omega), if_neg (by omega), if_neg (by omega)]

/-- Numbered values written one after another are a run. -/
theorem Table.foldl_zipIdx_set (t : Table α) (n k : Nat) (l : List α) :
    (l.zipIdx k).foldl (fun t (x, i) => Table.set t d (n + i) x) t = t.setRun d (n + k) l := by
  induction l generalizing t k with
  | nil => rfl
  | cons x r ih => exact ih _ _

end

end Sys2Proof

namespace Sys2Proof.Machine

/-! ### CBLD and its completion (R121 to R123) -/

section
variable (t : Trough) (b : Nat) (v : Book)

@[simp] theorem book_setBook_same : (t.setBook b v).book b = v := Table.get_set_same ..

/-- The generation of the book advances, whether or not the sets that name it are emptied. -/
@[simp] theorem book_advanceGen_same : (t.advanceGen b).book b = { t.book b with gen := (t.book b).gen + 1 } := by
  have hset := book_setBook_same t b { t.book b with gen := (t.book b).gen + 1 }
  unfold Trough.advanceGen
  dsimp only
  split
  · exact hset
  · exact hset

theorem get_entries_put (first : Nat) (es : List W64) (i : Nat) : Table.get (v.put first es).entries 0 i =
    if first ≤ i ∧ i < first + es.length then es.getD (i - first) 0 else Table.get v.entries 0 i := by
  rw [show (v.put first es).entries = v.entries.setRun 0 first es from Table.foldl_zipIdx_set 0 v.entries first 0 es]
  exact Table.get_setRun ..

/-- What a load leaves of its book (R122). -/
theorem book_landLoad (l : BookLoad) : (t.landLoad l).book l.book =
    { (t.book l.book).put l.first l.entries with
      owner := l.context, efmt := l.efmt, bscale := l.bscale, valid := true, loading := false
      gen := (t.book l.book).gen + 1 } := by
  rw [Trough.landLoad, book_advanceGen_same, book_setBook_same]
  rfl

end

/-- The book as the first step of a load for context `ctx` leaves it: not VALID, and empty where another context owned it
(R120, R122). -/
def Book.started (k : Book) (ctx : Nat) : Book :=
  { k with valid := false, loading := true, entries := if decide (k.owner = ctx) then k.entries else [],
           bad := if decide (k.owner = ctx) then k.bad else [] }

section
variable {c off b n : Nat} {x : QInstr} {d e : Device} {bs : List Byte}
  (hoff : off = ((d.core c).sq.aReg (fAB x.word)).toNat) (hb : b = bits x.word 23 21) (hn : n = 8 * bits x.word 42 33)
  (halign : off % 64 = 0) (hfits : 8 * bits x.word 32 24 + n ≤ 4096)
  (hefmt : bits x.word 46 43 = 0 ∨ bits x.word 46 43 = 4 ∨ bits x.word 46 43 = 5) (hown : d.ownRange c off (8 * n) = true)
  (hpasses : ((d.core c).tr.passes.any fun p => (booksOf p.d.fmt p.d.book1 p.d.book2).contains b) = false)
  (hloads : ((d.core c).pn.loads.any fun l => l.books.contains b) = false) (hidle : ((d.core c).tr.book b).loading = false)
  (hread : ((d.modTrough c fun t => t.setBook b (((d.core c).tr.book b).started (d.ctxOf c))).askPorts c 3 true
    (linesOf off (8 * n))).readBlocks c 3 (Device.blocksOf off (8 * n)) = (e, bs, none))
include hoff hb hn halign hfits hefmt hown hpasses hloads hidle hread

/-- CBLD of a legal word whose book nothing uses sets its entries on their way. -/
theorem cbldBody_eq : cbldBody c x d = .fly (e.modTrough c fun t => { t with loads := t.loads ++
    [{ num := x.num, bundle := x.bundle, book := b, first := 8 * bits x.word 32 24, entries := entriesOf bs n,
       efmt := bits x.word 46 43, bscale := BitVec.ofNat 8 (bits x.word 54 47), context := d.ctxOf c }] }) := by
  subst hoff hb hn
  have hlegal : (bits x.word 46 43 == 0 || bits x.word 46 43 == 4 || bits x.word 46 43 == 5) = true := by
    simpa [or_assoc] using hefmt
  simp only [Book.started, decide_eq_true_eq] at hread
  unfold cbldBody
  dsimp only
  rw [if_neg (by simp [halign, hlegal, hown, hfits]), if_neg (by rw [hpasses, hloads, hidle]; simp), hread]

end

/-- CBLD_COMPLETE lands the oldest load (R122). -/
theorem cbldComplete_eq {d : Device} {c : Nat} {l : BookLoad} {r : List BookLoad} (h : (d.core c).tr.loads = l :: r) :
    cbldComplete c d = d.modCore c fun k => { k with tr := { k.tr.landLoad l with loads := r }, sq := k.sq.release l.num } := by
  rw [cbldComplete, h]

/-! ### IMLD (R194) -/

/-- The blocks of a run of bytes that begins at a block. -/
theorem Device.blocksOf_aligned {off : Nat} (h : off % 32 = 0) (n : Nat) :
    Device.blocksOf off (32 * n) = (List.range n).map fun k => off / 32 + k := by
  unfold Device.blocksOf
  split
  · obtain rfl : n = 0 := by omega
    rfl
  · rw [show (off + 32 * n - 1) / 32 + 1 - off / 32 = n by omega]

namespace Device
section
variable {d : Device} {c : Nat}

/-- A block that reads as it is gives its data, and nothing changes. -/
theorem readBlock_plain {b : Nat} (h : d.plainRead c b = true) (cls : Nat) :
    d.readBlock c cls b = (d, some ((d.slice c).block b).data) := by
  obtain ⟨hmerge, hgood⟩ := Bool.and_eq_true_iff.1 h
  have hnone : ((d.slice c).merge.find? fun m => m.block == b) = none := by simpa using hmerge
  have hdrain : d.drainBlock c b = d := by rw [drainBlock, hnone]
  unfold readBlock
  dsimp only
  rw [hdrain, beq_iff_eq.1 hgood]

/-- Whether a block reads as it is is a matter of the slices. -/
theorem plainRead_congr {e : Device} (h : e.slices = d.slices) (b : Nat) : e.plainRead c b = d.plainRead c b := by
  simp only [plainRead, slice, h]

/-- Requests at the ports change no block. -/
theorem plainRead_askPorts (cls : Nat) (own : Bool) (lines : List Nat) (b : Nat) :
    (d.askPorts c cls own lines).plainRead c b = d.plainRead c b := by
  simp only [plainRead, askPorts, modSlice_eq, setSlice_slice_same]
  rfl

theorem block_askPorts (cls : Nat) (own : Bool) (lines : List Nat) (b : Nat) :
    ((d.askPorts c cls own lines).slice c).block b = (d.slice c).block b := by
  simp only [askPorts, modSlice_eq, setSlice_slice_same]
  rfl

/-- Blocks that read as they are become bundles in a run, and no slice changes. -/
theorem loadBundles_plain {bs : List Nat} (h : ∀ b ∈ bs, d.plainRead c b = true) (first : Nat) :
    ∃ e, d.loadBundles c first bs = (e, none) ∧ e.slices = d.slices ∧
      (e.regs c).imem = (d.regs c).imem.setRun 0 first (bs.map fun b => ((d.slice c).block b).data) := by
  induction bs generalizing d first with
  | nil => exact ⟨d, rfl, rfl, rfl⟩
  | cons b r ih =>
    obtain ⟨hb, hr⟩ := List.forall_mem_cons.1 h
    obtain ⟨e, he, hslices, himem⟩ := ih (d := d.modSeq c fun q => q.loadBundle first ((d.slice c).block b).data)
      (fun k hk => (plainRead_congr (by simp) k).trans (hr k hk)) (first + 1)
    refine ⟨e, ?_, hslices, ?_⟩
    · rw [loadBundles, readBlock_plain hb]
      exact he
    · rw [himem]
      simp [regs, Sequencer.loadBundle, Table.setRun]

end
end Device

section
variable {c off first n : Nat} {x : QInstr} {d : Device}
  (hoff : off = ((d.core c).sq.aReg (fAB x.word)).toNat) (hfirst : first = bits x.word 33 21) (hn : n = bits x.word 47 34)
  (halign : off % 32 = 0) (hown : d.ownRange c off (32 * n) = true) (hfits : first + n ≤ 8192)
  (hblocks : ((List.range n).all fun i => (d.slice c).guardedAt (off + 32 * i) && d.plainRead c (off / 32 + i)) = true)
include hoff hfirst hn halign hown hfits hblocks

/-- IMLD of GUARDED blocks that read as they are writes them as bundles; of the slices it changes the ports' requests. -/
theorem imldBody_ok : ∃ e, imldBody c x d = .ok e ∧ e.slices = (d.askPorts c 3 true (linesOf off (32 * n))).slices ∧
    ∀ i, Table.get (e.regs c).imem 0 i = if first ≤ i ∧ i < first + n then ((d.slice c).block (off / 32 + (i - first))).data
      else Table.get (d.regs c).imem 0 i := by
  simp only [List.all_eq_true, Bool.and_eq_true, List.mem_range] at hblocks
  have hbs := Device.blocksOf_aligned halign n
  have hguard : ((Device.blocksOf off (32 * n)).all fun b => (d.slice c).guardedAt (32 * b)) = true := by
    simp only [hbs, List.all_map, List.all_eq_true, List.mem_range, Function.comp_apply]
    intro i hi
    rw [show 32 * (off / 32 + i) = off + 32 * i by omega]
    exact (hblocks i hi).1
  have hplain : ∀ b ∈ Device.blocksOf off (32 * n), (d.askPorts c 3 true (linesOf off (32 * n))).plainRead c b = true := by
    simp only [hbs, List.mem_map, List.mem_range, Device.plainRead_askPorts]
    rintro _ ⟨i, hi, rfl⟩
    exact (hblocks i hi).2
  obtain ⟨e, he, hslices, himem⟩ := Device.loadBundles_plain hplain first
  refine ⟨e, ?_, hslices, fun i => ?_⟩
  · unfold imldBody
    dsimp only
    rw [← hoff, ← hfirst, ← hn, if_neg (by simp [halign, hown, hguard, hfits]), he]
  · rw [himem, Table.get_setRun, hbs]
    simp only [List.length_map, List.length_range, Device.block_askPorts, List.map_map]
    split
    · next hi =>
      rw [List.getD_eq_getElem _ _ (by simp; omega)]
      simp
    · simp [Device.askPorts, Device.regs]

end

/-! ### HAUL (R230, R236) -/

section
variable {c ch ar off : Nat} {x : QInstr} {d e : Device} {bs : List Byte} {prog : List W64}
  (hch : ch = if bit x.word 10 then 1 else 0) (har : ar = bits x.word 26 21) (hoff : off = ((d.core c).sq.aReg (fAB x.word)).toNat)
  (hprog : prog = (List.range 16).map fun i => BitVec.ofNat 64 (ofBytes ((bs.drop (8 * i)).take 8)))
  (hidle : (d.channel c ch).state = .idle) (hargs : ar ≤ 56) (halign : off % 128 = 0) (hown : d.ownRange c off 128 = true)
  (hread : d.readYard c 4 off 128 = (e, .inl bs)) (hlegal : haulLegal prog = true)
include hch har hoff hprog hidle hargs halign hown hread hlegal

/-- HAUL of a legal program launches it on its IDLE channel. -/
theorem haulBody_eq : haulBody c x d = .ok (e.setChannel c ch
    ((e.channel c ch).launch prog ((List.range 8).map fun i => (d.regs c).sop (ar + i)) (e.core c).job)) := by
  have hbit : b2n (bit x.word 10) = ch := hch.symm
  unfold haulBody
  dsimp only
  rw [hbit, ← har, ← hoff, hidle]
  dsimp only
  rw [if_neg (by simp [hargs, halign, hown]), hread]
  dsimp only
  rw [← hprog, if_neg (by simp [hlegal])]
  rfl

end

/-- Settles O32: CBLD, IMLD and HAUL by the equations of their bodies, CBLD_COMPLETE by what a load leaves of its book. That CBLD
reads its source when it issues is log entry 53. -/
theorem loadAndLaunchResults : Obligations.LoadAndLaunchResults := by
  refine ⟨?cbld, ?complete, ?imld, ?haul⟩
  case cbld =>
    intro s c x e bs h k off b n old mine halign hfits hefmt hown hpasses hloads hidle start hread l g
    exact Device.onUnit_issue_fly h (cbldBody_eq rfl rfl rfl halign hfits hefmt hown hpasses hloads hidle hread)
  case complete =>
    intro s c l r hc hl hbook
    refine ⟨_, (onUnit_next _ _ hc).trans (by rw [cbldComplete_eq hl]), ?_⟩
    simp only [Device.modCore_eq, Device.setCore_core_same, Device.regs]
    have hland : ({ (s.dev.core c).tr.landLoad l with loads := r } : Trough).book l.book = _ := book_landLoad (s.dev.core c).tr l
    refine ⟨trivial, fun k hk => Sequencer.num_of_mem_claims_release hk, ?_⟩
    rw [hland]
    exact ⟨rfl, rfl, rfl, rfl, rfl, rfl, fun i => get_entries_put ..⟩
  case imld =>
    intro s c x h off first n halign hown hfits hblocks
    obtain ⟨-, -, hs, hop, -⟩ := Device.mayIssue_iff.1 h
    obtain ⟨e, hbody, hslices, himem⟩ := imldBody_ok rfl rfl rfl halign hown hfits hblocks
    refine ⟨_, Device.onUnit_issue_ok h hbody (Device.kpMarked_m hop) (Device.traceOf_m hs hop) rfl, fun k => ?_, fun i => ?_⟩
    · rw [Device.retired, Device.modCore_eq, Device.setCore_slice, Device.slice, hslices]
      rfl
    · rw [← himem i]
      simp [Device.retired, Device.regs]
  case haul =>
    intro s c x e bs h q ch ar off prog hidle hargs halign hown hread hlegal k g
    exact Device.onUnit_completed h (haulBody_eq rfl rfl rfl rfl hidle hargs halign hown hread hlegal) rfl

end Sys2Proof.Machine
end

section
/-! PROOF. A refused statement about the events of a Yard slice: a trap that does not outlast the end of its job (spec 06: R190,
R191; spec 07: R213). -/

namespace Sys2Proof.Machine

/-! ### A core that its job does not list -/

/-- SLD of 8 bytes at offset 0, behind which a MUSTER that is a Kerf point waits. -/
def straySld : QInstr := { num := 1, bundle := 0, slot := .m, word := 1 }
def strayMuster : QInstr := { num := 2, bundle := 0, slot := .c, word := 0x20000016 }

/-- A running job of Paddock 0 with these cores and Muster definitions. -/
def strayJob (cores : List Nat) (musters : List MusterDef) : Job :=
  { state := .running, paddock := 0, context := 0, queue := 0, seq := 0, want := 1, cores := cores, halted := [], yielded := [],
    image := 0, entry := 0, args := [], fence := 0, value := 0, share := 0, loan := none, loanDepth := 0, loanFor := (0, 0),
    bundles := [], musters := musters, loaded := true, trapCode := 0, haltCode := 0, haltAt := none, forJob := none, since := 0,
    released := 0, step := false, tickets := [] }

/-- A round of Muster 5 at device scope, and the definition of that Muster. -/
def strayRound (j : Nat) (arrived : List Nat) : Round :=
  { paddock := 0, id := 5, job := j, scope := 1, round := 0, arrived := arrived, peers := [], early := [], offers := [],
    earlyOffers := [], named := false, deadline := none, paused := none, releaseAt := none }
def strayDef : MusterDef := { id := 5, scope := 1, timeout := 0, lead := 0, paddocks := 0, peers := [] }

/-- Core 0 drains at its MUSTER and holds job 1, which does not list it; job 0 lists it, and at that job's round of the Muster it
has arrived. Job 1 has a round of the Muster too. Block 0 of its slice fails its check. -/
def strayDevice : Device := { Device.reset with
  fuse := { Config.fuses with cores := 0 }
  sec := Security.reset
  jobs := [(0, strayJob [0] [strayDef]), (1, strayJob [] [])]
  rounds := [strayRound 0 [0], strayRound 1 []]
  cores := [(0, { Core.reset with
    job := some 1, musWaiting := true
    sq := { Sequencer.reset with stat := .draining, draining := some none, qm := [straySld], qc := [strayMuster] } })]
  slices := [(0, { Slice.reset with
    regions := [(0, { Region.reset with valid := true, resident := true, size := 1 })], data := [(0, { data := 0, chk := 1 })] })] }

def strayState : State := { dev := strayDevice, pending := [] }

/-- The device once the SLD has met block 0. -/
def strayMet : Device := (strayDevice.readYard 0 4 0 8).1

theorem sldBody_strayDevice : sldBody 0 straySld (strayDevice.failBlock 0 0) = .bad strayMet 0x0301 0 := rfl

/-- The end of job 1 withdraws its round; that of job 0 is then complete, and its release ends the drain of core 0, which runs. -/
theorem stat_strayMet_trapCore : ((strayMet.trapCore 0 0x0301 0 .m 0).regs 0).stat = .run := by decide

theorem trap_strayMet_trapCore : ((strayMet.trapCore 0 0x0301 0 .m 0).regs 0).trap ≠ none := by decide

/-! ### An uncorrectable read after which its core has not trapped -/

namespace Device
variable {d : Device} {c b op bundle : Nat} {sl : Slot} {body : QInstr → Device → Issue}

/-- The issue at which a read finds its block failed stands only where its core has trapped after it. -/
theorem ueIssue_of_not_trapped (h : ((issue c sl op body (d.failBlock c b)).regs c).stat ≠ .trapped) :
    d.ueIssue c sl bundle b op body = d := by
  unfold ueIssue
  dsimp only
  rw [if_neg h, ite_self]

/-- An SLD at the head of the M queue is what an uncorrectable read of its bundle ends. -/
theorem ueLoad_of_sld (h : d.headIs c .m bundle [1] = true) : d.ueLoad c bundle b = d.ueIssue c .m bundle b 1 (sldBody c) := by
  rw [ueLoad, if_pos h]

/-- An uncorrectable read of a load, by a core in use. -/
theorem ueRead_load (h : d.corePresent c = true) (n : Nat) : ueRead c b (.load n) d = d.ueLoad c n b := by
  rw [ueRead, h]
  rfl

end Device

/-- YARD_UE_READ of a block that there is, by a core that there is. -/
theorem exec_yardUeRead {s : State} {c b : Nat} (hc : c < 12) (hb : b < 2 ^ 21) (r : Requester) :
    exec (.yardUeRead c b r) s = .next { s with dev := Device.ueRead c b r s.dev } :=
  (if_pos hb).trans (onUnit_next s _ hc)

/-- In `strayState` the model takes the SLD's uncorrectable read for one that did not come. -/
theorem exec_yardUeRead_strayState : exec (.yardUeRead 0 0 (.load 0)) strayState = .next strayState := by
  have hissue : Device.issue 0 .m 1 (sldBody 0) (strayDevice.failBlock 0 0) = strayMet.trapCore 0 0x0301 0 .m 0 :=
    Device.issue_bad (x := straySld) (by decide) sldBody_strayDevice
  have hstat : ((Device.issue 0 .m 1 (sldBody 0) (strayDevice.failBlock 0 0)).regs 0).stat ≠ .trapped := by
    rw [hissue, stat_strayMet_trapCore]
    decide
  have hread : Device.ueRead 0 0 (.load 0) strayDevice = strayDevice := by
    have hpresent : strayDevice.corePresent 0 = true := by decide
    have hhead : strayDevice.headIs 0 .m 0 [1] = true := by decide
    rw [Device.ueRead_load hpresent, Device.ueLoad_of_sld hhead, Device.ueIssue_of_not_trapped hstat]
  rw [exec_yardUeRead (by decide) (by decide)]
  exact congrArg (fun d => Host.Outcome.next { strayState with dev := d }) hread

/-- Refutes O38: its second clause asks, from any state, that an instruction whose read finds its block failed traps with what its
body answers. The model keeps that trap only where the core still shows it after the end of its job (`Device.ueIssue`), and in
`strayState` it does not: job 1, which ends, does not list core 0, so the core is not taken from its Muster, and the release of
another job's round makes it run. The start of a job lists each core that it takes, so such a state is one to start from and not
one that a run meets. -/
theorem not_yardAndMemoryEvents : ¬ Obligations.YardAndMemoryEvents := by
  rintro ⟨-, htraps, -⟩
  have h := htraps strayState 0 0 1 straySld .m (.load 0) (sldBody 0) strayMet 0x0301 0 (by decide) (by decide) (by decide)
    (by decide) (.inl ⟨rfl, rfl, rfl, rfl⟩) sldBody_strayDevice
  rw [exec_yardUeRead_strayState] at h
  have hdev : strayDevice = strayMet.trapCore 0 0x0301 0 .m 0 := congrArg State.dev (Host.Outcome.next.inj h)
  refine trap_strayMet_trapCore ?_
  rw [← hdev]
  rfl

end Sys2Proof.Machine
end

section
/-! PROOF. The scalar instructions: what each writes to D, and that it changes nothing else (spec 06: R153, R173). -/

namespace Sys2Proof.Machine

/-! ### Values of the ALU format (R173) -/

section
variable {i : Nat → Instr} {op : Nat} {f g : W64 → W64 → W64}

/-- An instruction of the ALU format that runs `f` gives the results of any `g` with the same values. -/
theorem aluResult_of_eq (hi : ∀ c s, exec (i c) s = onUnit 12 c s (Device.issue c .c op (Device.regOp c (aluOp f))))
    (hf : ∀ a b, f a b = g a b) (hk : op ∉ [0x10, 0x15, 0x16, 0x18, 0x1E] := by decide) : AluResult i op g := by
  intro s c x h
  obtain rfl : f = g := funext fun a => funext (hf a)
  rw [hi]
  exact exec_c_completed h rfl hk

end

theorem shiftLeft_eq_ofNat {w : Nat} (a : BitVec w) (n : Nat) : a <<< n = BitVec.ofNat w (a.toNat * 2 ^ n) := by
  apply BitVec.eq_of_toNat_eq
  rw [BitVec.toNat_shiftLeft, Nat.shiftLeft_eq, BitVec.toNat_ofNat]

theorem ushiftRight_eq_ofNat {w : Nat} (a : BitVec w) (n : Nat) : a >>> n = BitVec.ofNat w (a.toNat / 2 ^ n) := by
  apply BitVec.eq_of_toNat_eq
  rw [BitVec.toNat_ushiftRight, Nat.shiftRight_eq_div_pow, BitVec.toNat_ofNat,
    Nat.mod_eq_of_lt (lt_of_le_of_lt (Nat.div_le_self _ _) a.isLt)]

theorem sshiftRight_eq_ofInt {w : Nat} (a : BitVec w) (n : Nat) : a.sshiftRight n = BitVec.ofInt w (a.toInt / 2 ^ n) := by
  rw [BitVec.sshiftRight, Int.shiftRight_eq_div_pow]
  norm_cast

theorem ofInt_min_toInt {w : Nat} (a b : BitVec w) : BitVec.ofInt w (min a.toInt b.toInt) = if a.toInt ≤ b.toInt then a else b := by
  rw [min_def, apply_ite (BitVec.ofInt w), BitVec.ofInt_toInt, BitVec.ofInt_toInt]

theorem ofInt_max_toInt {w : Nat} (a b : BitVec w) : BitVec.ofInt w (max a.toInt b.toInt) = if a.toInt ≤ b.toInt then b else a := by
  rw [max_def, apply_ite (BitVec.ofInt w), BitVec.ofInt_toInt, BitVec.ofInt_toInt]

theorem ofNat_min_toNat {w : Nat} (a b : BitVec w) : BitVec.ofNat w (min a.toNat b.toNat) = if a ≤ b then a else b := by
  rw [min_def, apply_ite (BitVec.ofNat w), BitVec.ofNat_toNat, BitVec.ofNat_toNat]
  simp [BitVec.le_def]

theorem ofNat_max_toNat {w : Nat} (a b : BitVec w) : BitVec.ofNat w (max a.toNat b.toNat) = if a ≤ b then b else a := by
  rw [max_def, apply_ite (BitVec.ofNat w), BitVec.ofNat_toNat, BitVec.ofNat_toNat]
  simp [BitVec.le_def]

theorem ofInt_sub_toInt {w : Nat} (a b : BitVec w) : BitVec.ofInt w (a.toInt - b.toInt) = a - b := by
  apply BitVec.eq_of_toInt_eq
  simp [BitVec.toInt_sub]

/-- Settles O1: each runs its function of the ALU format, whose values are the statement's. -/
theorem scalarArithmeticResults : Obligations.ScalarArithmeticResults := by
  unfold Obligations.ScalarArithmeticResults
  refine ⟨?add, ?sub, ?and, ?or, ?xor, ?shl, ?shr, ?sra, ?mul, ?min, ?max, ?minu, ?maxu, ?slt, ?sltu⟩
  case add | mul | and | or | xor | slt => exact aluResult_of_eq (fun _ _ => rfl) fun _ _ => rfl
  case sub => exact aluResult_of_eq (fun _ _ => rfl) fun a b => (ofInt_sub_toInt a b).symm
  case shl => exact aluResult_of_eq (fun _ _ => rfl) fun a _ => shiftLeft_eq_ofNat a _
  case shr => exact aluResult_of_eq (fun _ _ => rfl) fun a _ => ushiftRight_eq_ofNat a _
  case sra => exact aluResult_of_eq (fun _ _ => rfl) fun a b => sshiftRight_eq_ofInt a _
  case min => exact aluResult_of_eq (fun _ _ => rfl) fun a b => (ofInt_min_toInt a b).symm
  case max => exact aluResult_of_eq (fun _ _ => rfl) fun a b => (ofInt_max_toInt a b).symm
  case minu => exact aluResult_of_eq (fun _ _ => rfl) fun a b => (ofNat_min_toNat a b).symm
  case maxu => exact aluResult_of_eq (fun _ _ => rfl) fun a b => (ofNat_max_toNat a b).symm
  case sltu => exact aluResult_of_eq (fun _ _ => rfl) fun a b => by simp [aluSltu, BitVec.lt_def]

/-! ### The frame of the scalar instructions (R153, R173) -/

/-- Instruction `i`, opcode `op` of the C slot, writes a value to D; beside that only its queue and the number of free values
taken change. -/
def WritesOnlyD (i : Nat → Instr) (op : Nat) : Prop :=
  ∀ (s : State) (c : Nat) (x : QInstr), s.dev.mayIssue c .c op x = true → ∃ (free : Nat) (f : Sequencer → W64),
    exec (i c) s = .next { s with dev :=
      ({ s.dev with free := free }.modSeq c fun q => q.setSop (fD x.word) (f q)).retired c .c }

theorem AluResult.writesOnlyD {i : Nat → Instr} {op : Nat} {f : W64 → W64 → W64} (h : AluResult i op f) : WritesOnlyD i op :=
  fun s c x hx => ⟨s.dev.free, fun q => f (q.sop (fA x.word)) (q.aluB x.word), h s c x hx⟩

/-- Device `e` is `d` but for operand `n` of core `c`, its queues and its time: the registers, Pens, Trough, Chutes and channels of
the core, every other core, and all memory. -/
def Device.SameButOperand (d e : Device) (c n : Nat) : Prop :=
  (∀ r, r ≠ n ∨ r = 0 → (e.regs c).sop r = (d.regs c).sop r) ∧
  (e.regs c).v = (d.regs c).v ∧ (e.regs c).p = (d.regs c).p ∧ (e.regs c).trap = (d.regs c).trap ∧
  (e.core c).pn = (d.core c).pn ∧ (e.core c).tr = (d.core c).tr ∧
  (e.core c).chutes = (d.core c).chutes ∧ (e.core c).channels = (d.core c).channels ∧
  (∀ k, k ≠ c → e.core k = d.core k) ∧
  (∀ k b, (e.slice k).block b = (d.slice k).block b) ∧ e.chans = d.chans ∧ e.out = d.out

theorem sameButOperand_setSop_retired (d : Device) (c n : Nat) (f : Sequencer → W64) :
    d.SameButOperand ((d.modSeq c fun q => q.setSop n (f q)).retired c .c) c n := by
  have hcore : ((d.modSeq c fun q => q.setSop n (f q)).retired c .c).core c =
      { (d.core c).waitsIn .c none with sq := ((d.regs c).setSop n (f (d.regs c))).retire .c } := by
    simp [Device.retired, Device.modSeq, Device.regs]; rfl
  simp only [Device.SameButOperand, Device.regs, hcore]
  refine ⟨fun r hr => ?sop, ?v, ?p, ?trap, rfl, rfl, rfl, rfl, fun k hk => ?others, fun _ _ => rfl, rfl, rfl⟩
  case sop =>
    rw [Sequencer.retire_sop, Sequencer.sop_setSop, if_neg]
    rintro ⟨rfl, hn⟩
    exact hr.elim (· rfl) hn
  case v | p | trap => simp
  case others => simp [Device.retired, Device.modSeq, Device.modCore, Device.setCore_core_ne _ _ _ (Ne.symm hk)]

theorem WritesOnlyD.sameButOperand {i : Nat → Instr} {op : Nat} (hi : WritesOnlyD i op) {s t : State} {c : Nat} {x : QInstr}
    (hx : s.dev.mayIssue c .c op x = true) (ht : exec (i c) s = .next t) : s.dev.SameButOperand t.dev c (fD x.word) := by
  obtain ⟨free, f, hrun⟩ := hi s c x hx
  obtain rfl : { s with dev := _ } = t := Host.Outcome.next.inj (hrun.symm.trans ht)
  exact sameButOperand_setSop_retired { s.dev with free := free } c (fD x.word) f

/-- Settles O3: each writes D alone, TLY and RAND among them, and such a write leaves the rest. -/
theorem scalarFrame : Obligations.ScalarFrame := by
  unfold Obligations.ScalarFrame
  obtain ⟨hadd, hsub, hand, hor, hxor, hshl, hshr, hsra, hmul, hmin, hmax, hminu, hmaxu, hslt, hsltu⟩ := scalarArithmeticResults
  obtain ⟨-, htly, hrand⟩ := predicateTimeAndRandomResults
  intro i hi
  suffices hwrites : WritesOnlyD i.1 i.2 from fun _ _ _ _ hx ht => hwrites.sameButOperand hx ht
  revert i
  simp only [List.forall_mem_cons, List.not_mem_nil, false_imp_iff, implies_true, and_true]
  exact ⟨hadd.writesOnlyD, hsub.writesOnlyD, hand.writesOnlyD, hor.writesOnlyD, hxor.writesOnlyD, hshl.writesOnlyD,
    hshr.writesOnlyD, hsra.writesOnlyD, hmul.writesOnlyD, hmin.writesOnlyD, hmax.writesOnlyD, hminu.writesOnlyD,
    hmaxu.writesOnlyD, hslt.writesOnlyD, hsltu.writesOnlyD, fun s c x h => ⟨s.dev.free, _, htly s c x h⟩,
    fun s c x h => let ⟨v, hv⟩ := hrand s c x h; ⟨s.dev.free + 1, fun _ => v, hv⟩⟩

end Sys2Proof.Machine
end

section
/-! PROOF. The vector instructions: lane arithmetic, moves, reductions, sorting and the top-k list (spec 06: R155, R168 to R170, R176
to R180). -/

namespace Sys2Proof.Machine

/-! ### Instructions that write lanes (R155, R168, R169) -/

/-- What `writeLanes` puts in a lane. -/
theorem get_writeLanes (q : Sequencer) (w : W64) (ty : Nat) (f : Nat → W32) : ∃ v : VReg,
    q.writeLanes w ty f = q.setV (fD w) v ∧ ∀ l < 256, Table.get v 0 l =
      if (q.pReg (vMP w)).getLsbD l then laneFix ty (f l) else if vMZ w then 0 else q.lane (fD w) l :=
  ⟨_, rfl, fun l hl => (Sequencer.get_vregOf _ l).trans (if_pos hl)⟩

/-- A change of a core's registers counts by its value at the registers that stand. -/
theorem Device.modSeq_congr {d : Device} {c : Nat} {f g : Sequencer → Sequencer} (h : f (d.regs c) = g (d.regs c)) :
    d.modSeq c f = d.modSeq c g := by
  simp only [modSeq, modCore, h]

section
variable {s : State} {c op : Nat} {x : QInstr} {e : Device} {body : QInstr → Device → Issue}

/-- A vector instruction whose body completes at once. -/
theorem exec_t_completed (h : s.dev.mayIssue c .t op x = true) (hb : body x s.dev = .ok e) (hop : 0x10 ≤ op := by decide) :
    onUnit 12 c s (Device.issue c .t op body) = .next { s with dev := e.vecRetired c } := by
  rw [onUnit_next _ _ (Device.mayIssue_iff.1 h).1, Device.issue_vec h hb hop]

/-- A vector instruction whose body completes at once, after a change of its core's registers that is `g` there. -/
theorem exec_t_modSeq {f g : Sequencer → Sequencer} (h : s.dev.mayIssue c .t op x = true)
    (hb : body x s.dev = .ok (e.modSeq c f)) (hf : f (e.regs c) = g (e.regs c)) (hop : 0x10 ≤ op := by decide) :
    onUnit 12 c s (Device.issue c .t op body) = .next { s with dev := (e.modSeq c g).vecRetired c } := by
  rw [exec_t_completed h hb hop, Device.modSeq_congr hf]

end

section
variable {i : Nat → Instr} {op : Nat} {ty : W64 → Nat} {f g : W64 → Sequencer → Nat → W32}

/-- An instruction that writes the lanes of `g` gives the results of any `f` with the same values in the 256 lanes. -/
theorem vecResult_of_eq
    (hi : ∀ c s, exec (i c) s = onUnit 12 c s (Device.issue c .t op (Device.regOp c fun w q => q.writeLanes w (ty w) (g w q))))
    (hg : ∀ w q, ∀ l < 256, g w q l = f w q l) (hop : 0x10 ≤ op := by decide) : VecResult i op ty f := by
  intro s c x h
  obtain ⟨v, hv, hl⟩ := get_writeLanes (s.dev.regs c) x.word (ty x.word) (g x.word (s.dev.regs c))
  exact ⟨v, (hi c s).trans (exec_t_modSeq h rfl hv hop), fun l hlt => by rw [hl l hlt, hg _ _ l hlt]⟩

end

/-! ### Lane arithmetic (R176) -/

theorem intMin_eq (x y : W32) : intMin x y = BitVec.ofInt 32 (min x.toInt y.toInt) := (ofInt_min_toInt x y).symm
theorem intMax_eq (x y : W32) : intMax x y = BitVec.ofInt 32 (max x.toInt y.toInt) := (ofInt_max_toInt x y).symm

/-- The magnitude of an INT32 lane; that of the least wraps to itself. -/
theorem ofNat_natAbs_toInt {w : Nat} (x : BitVec w) : BitVec.ofNat w x.toInt.natAbs = if x.toInt < 0 then -x else x := by
  rw [← BitVec.ofInt_natCast]
  split
  · next h => rw [Int.ofNat_natAbs_of_nonpos h.le, BitVec.ofInt_neg, BitVec.ofInt_toInt]
  · next h => rw [Int.natAbs_of_nonneg (not_lt.1 h), BitVec.ofInt_toInt]

theorem ofInt_neg_toInt {w : Nat} (x : BitVec w) : BitVec.ofInt w (-x.toInt) = -x := by
  rw [BitVec.ofInt_neg, BitVec.ofInt_toInt]

/-- Lanes of two operands by their type, from the integer form alone. -/
theorem lanes2_congr {int jnt : W32 → W32 → W32} (h : ∀ x y, int x y = jnt x y) (flt : FVal → FVal → FVal) (w : W64) (q : Sequencer)
    (l : Nat) : byType int flt w (q.lane (fA w) l) (q.vb w l) = lanes2 jnt flt w q l := by
  simp only [byType, lanes2, h]

theorem laneShl_eq (w : W64) (x y : W32) : laneShl w x y = BitVec.ofNat 32 (x.toNat * 2 ^ (y.toNat % 32)) :=
  shiftLeft_eq_ofNat x _

theorem laneShr_eq (w : W64) (x y : W32) : laneShr w x y = BitVec.ofNat 32 (x.toNat / 2 ^ (y.toNat % 32)) :=
  ushiftRight_eq_ofNat x _

theorem laneSra_eq (w : W64) (x y : W32) : laneSra w x y = BitVec.ofInt 32 (x.toInt / 2 ^ (y.toNat % 32)) :=
  sshiftRight_eq_ofInt x _

/-- Settles O4: each writes lanes, of the values that the statement names. -/
theorem vectorLaneResults : Obligations.VectorLaneResults := by
  unfold Obligations.VectorLaneResults
  refine ⟨?vadd, ?vsub, ?vmul, ?vfma, ?vmin, ?vmax, ?vabs, ?vneg, ?vand, ?vor, ?vxor, ?vshl, ?vshr, ?vsra, ?viota⟩
  case vfma => exact vecResult_of_eq (fun _ _ => rfl) fun _ _ _ _ => rfl
  case vadd | vsub | vmul => exact vecResult_of_eq (fun _ _ => rfl) fun _ _ _ _ => lanes2_congr (fun _ _ => rfl) ..
  case vmin => exact vecResult_of_eq (fun _ _ => rfl) fun _ _ _ _ => lanes2_congr intMin_eq ..
  case vmax => exact vecResult_of_eq (fun _ _ => rfl) fun _ _ _ _ => lanes2_congr intMax_eq ..
  case vabs => exact vecResult_of_eq (fun _ _ => rfl) fun _ _ _ _ => lanes2_congr (fun x _ => (ofNat_natAbs_toInt x).symm) ..
  case vneg => exact vecResult_of_eq (fun _ _ => rfl) fun _ _ _ _ => lanes2_congr (fun x _ => (ofInt_neg_toInt x).symm) ..
  case vand | vor | vxor | viota => exact vecResult_of_eq (fun _ _ => rfl) fun _ _ _ _ => rfl
  case vshl => exact vecResult_of_eq (fun _ _ => rfl) fun w _ _ _ => laneShl_eq w ..
  case vshr => exact vecResult_of_eq (fun _ _ => rfl) fun w _ _ _ => laneShr_eq w ..
  case vsra => exact vecResult_of_eq (fun _ _ => rfl) fun w _ _ _ => laneSra_eq w ..

/-! ### Packing (R170) -/

theorem packAll_eq_sum (ty aux : Nat) (f : Nat → W32) : packAll ty aux f =
    ((List.range 256).map fun i => packLane ty aux (f i) * 2 ^ (packBits aux * i)).sum := by
  rw [List.sum_eq_foldl, List.foldl_map, packAll]

theorem vregNat_eq_sum (q : Sequencer) (n : Nat) : vregNat q n =
    ((List.range 256).map fun i => (q.lane n i).toNat * 2 ^ (32 * i)).sum := by
  rw [List.sum_eq_foldl, List.foldl_map, vregNat]

/-- Settles O5: each writes lanes; the packed data are sums over the lanes. -/
theorem vectorMoveResults : Obligations.VectorMoveResults := by
  unfold Obligations.VectorMoveResults
  refine ⟨?vsel, ?vperm, ?vcvt, ?vfun, ?vpack, ?vunpk⟩
  case vsel | vperm | vcvt | vfun => exact vecResult_of_eq (fun _ _ => rfl) fun _ _ _ _ => rfl
  case vpack => exact vecResult_of_eq (fun _ _ => rfl) fun w q l _ => by rw [packAll_eq_sum]
  case vunpk => exact vecResult_of_eq (fun _ _ => rfl) fun w q l _ => by rw [vregNat_eq_sum]

/-! ### VCMP, VEXT, VRED and VSAMP (R168, R169, R176, R180) -/

theorem bitsOf_lt (f : Nat → Bool) (n : Nat) : bitsOf f n < 2 ^ n := by
  induction n with
  | zero => exact Nat.one_pos
  | succ n ih => rw [bitsOf, pow_succ]; split <;> omega

theorem testBit_bitsOf (f : Nat → Bool) {l n : Nat} (h : l < n) : (bitsOf f n).testBit l = f l := by
  induction n with
  | zero => omega
  | succ n ih =>
    have hlow := Nat.testBit_lt_two_pow (bitsOf_lt f n)
    rcases Nat.lt_succ_iff_lt_or_eq.1 h with hl | rfl
    · rw [bitsOf]
      split
      · rw [Nat.add_comm, Nat.testBit_two_pow_add_gt hl, ih hl]
      · exact ih hl
    · rw [bitsOf]
      split
      · next hf => rw [Nat.add_comm, Nat.testBit_two_pow_add_eq, hlow, hf]; rfl
      · next hf => rw [Nat.add_zero, hlow, Bool.eq_false_of_not_eq_true hf]

/-- The terms of the lanes that `p` keeps. -/
theorem filterMap_id_map_ite {α : Type} (p : Nat → Bool) (f : Nat → α) (l : List Nat) :
    (l.map fun i => if p i then some (f i) else none).filterMap id = (l.filter p).map f := by
  induction l with
  | nil => rfl
  | cons x r ih => cases h : p x <;> simpa [h] using ih

/-- VRED's INT32 sum wraps. -/
theorem redVal_int_sum (ord : List Nat) (p : Nat → Bool) (f : Nat → W32) (l : List Nat) :
    redVal 2 0 ord (l.map fun i => if p i then some (f i) else none) = ((l.filter p).map f).sum := by
  rw [redVal, if_pos rfl, List.sum_eq_foldl, ← filterMap_id_map_ite]
  rfl

theorem vecCmp_setP (w : W64) (q : Sequencer) : ∃ p : BitVec 256, vecCmp w q = q.setP (bits w 12 10) p ∧ ∀ l < 256, p.getLsbD l =
    if (q.pReg (vMP w)).getLsbD l then
      condOf (vAUX w) ((laneVal (vTY w) (q.lane (fA w) l)).cmp (laneVal (vTY w) (q.vb w l)))
    else !vMZ w && (q.pReg (bits w 12 10)).getLsbD l := by
  refine ⟨_, rfl, fun l hl => ?_⟩
  rw [BitVec.getLsbD_ofNat, testBit_bitsOf _ hl, decide_eq_true hl, Bool.true_and]
  rfl

theorem vecExt_setSop (w : W64) (q : Sequencer) : vecExt w q =
    let v := q.lane (fA w) ((q.sop (fBb w)).toNat % 256)
    q.setSop (fD w) (if vTY w = 2 then BitVec.ofInt 64 v.toInt else BitVec.ofNat 64 (laneFix (vTY w) v).toNat) := by
  simp only [vecExt, BitVec.signExtend, BitVec.ofNat_toNat]

/-- Settles O6: each by the one register it writes. The masked lanes of VCMP under MZ and VEXT of a BF16 lane follow log entry 66, the
free prefix sums of VSAMP log entry 70. -/
theorem vectorReduceResults : Obligations.VectorReduceResults := by
  unfold Obligations.VectorReduceResults
  refine ⟨fun s c x h => ?vcmp, fun s c x h => ?vext, fun s c x h => ?vred, fun s c x h => ?vsamp⟩
  case vcmp =>
    obtain ⟨p, hp, hl⟩ := vecCmp_setP x.word (s.dev.regs c)
    exact ⟨p, exec_t_modSeq h rfl hp, hl⟩
  case vext => exact exec_t_modSeq h rfl (vecExt_setSop ..)
  case vred =>
    refine ⟨_, exec_t_modSeq h rfl rfl, ⟨_, rfl⟩, fun hty haux => ?_⟩
    rw [hty, haux]
    exact redVal_int_sum ..
  case vsamp =>
    exact ⟨_, _, fun hsb => if_pos hsb, exec_t_modSeq h rfl rfl⟩

/-! ### Sorting and the top-k list (R178, R179) -/

theorem insertStable_perm {α : Type} (lt : α → α → Bool) (x : α) (l : List α) : (insertStable lt x l).Perm (x :: l) := by
  induction l with
  | nil => exact .refl _
  | cons y r ih =>
    rw [insertStable]
    split
    · exact .refl _
    · exact (ih.cons y).trans (.swap x y r)

theorem sortStable_perm {α : Type} (lt : α → α → Bool) (l : List α) : (sortStable lt l).Perm l := by
  suffices h : ∀ s : List α, (l.foldl (fun s x => insertStable lt x s) s).Perm (s ++ l) from h []
  induction l with
  | nil => exact fun s => .of_eq (List.append_nil s).symm
  | cons x r ih => exact fun s => (ih _).trans ((((insertStable_perm lt x s).append_right r)).trans List.perm_middle.symm)

/-- The three groups of VSORT's order, numbers, NaNs and masked lanes, make up the lanes. -/
theorem sortStable_groups_perm {α : Type} (lt : α → α → Bool) (on nan : α → Bool) (l : List α) :
    (sortStable lt ((l.filter on).filter fun i => !nan i) ++ (l.filter on).filter nan ++ l.filter fun i => !on i).Perm l := by
  have hunmasked : (sortStable lt ((l.filter on).filter fun i => !nan i) ++ (l.filter on).filter nan).Perm (l.filter on) :=
    ((sortStable_perm _ _).append_right _).trans (List.perm_append_comm.trans (List.filter_append_perm ..))
  exact (hunmasked.append_right _).trans (List.filter_append_perm ..)

theorem sortOrder_perm (q : Sequencer) (w : W64) : (sortOrder q w).Perm (List.range 256) := sortStable_groups_perm ..

theorem vecSort_setV (w : W64) (q : Sequencer) : ∃ v n : VReg, vecSort w q = (q.setV (fD w) v).setV (vC w) n ∧
    ∀ l < 256, Table.get n 0 l = BitVec.ofNat 32 ((sortOrder q w).getD l 0) ∧
      Table.get v 0 l = laneFix (vTY w) (q.lane (fA w) ((sortOrder q w).getD l 0)) := by
  refine ⟨_, _, rfl, fun l hl => ?_⟩
  rw [Sequencer.get_vregOf, Sequencer.get_vregOf, if_pos hl, if_pos hl]
  exact ⟨rfl, rfl⟩

theorem vecTop_setV {t : TopK} {free w : W64} (hne : fD w ≠ vC w) (q : Sequencer) : ∃ v n : VReg,
    vecTop t free w q = (q.setV (fD w) v).setV (vC w) n ∧
    ∀ l < 256, Table.get v 0 l = (t.entries.map (·.1)).getD l (if t.ty = 2 then 0x80000000 else 0x7FC00000) ∧
      Table.get n 0 l = (t.entries.map (·.2)).getD l 0xFFFFFFFF := by
  refine ⟨_, _, if_neg (by simp [hne]), fun l hl => ?_⟩
  rw [Sequencer.get_vregOf, Sequencer.get_vregOf, if_pos hl, if_pos hl]
  simp only [List.getD_eq_getElem?_getD, List.getElem?_map]
  cases t.entries[l]? <;> exact ⟨rfl, rfl⟩

/-- Settles O7: VSORT by its order, a rearrangement of the lanes, and the top-k instructions by their list. -/
theorem vectorSortResults : Obligations.VectorSortResults := by
  unfold Obligations.VectorSortResults
  refine ⟨fun s c x h => ?vsort, fun s c x h => exec_t_completed h rfl, fun s c x t h ht hty => ?vtkadd,
    fun s c x t h ht hty hne => ?vtkget⟩
  case vsort =>
    obtain ⟨v, n, hv, hl⟩ := vecSort_setV x.word (s.dev.regs c)
    exact ⟨_, v, n, sortOrder_perm .., rfl, exec_t_modSeq h rfl hv, hl⟩
  case vtkadd =>
    exact exec_t_completed h (by simp only [ht, hty, ne_eq, not_true_eq_false, if_false])
  case vtkget =>
    obtain ⟨v, n, hv, hl⟩ := vecTop_setV (t := t) (free := s.dev.freeWord 2) hne (s.dev.regs c)
    exact ⟨v, n, exec_t_modSeq h (by simp only [ht, hty, ne_eq, not_true_eq_false, if_false]; rfl) hv, hl⟩

end Sys2Proof.Machine
end

section
/-! PROOF. Dispatch and control flow: what leaves and enters the slot queues, BR and LOOP, FSIGNAL and FWAIT (spec 06: R157 to R165, R174;
spec 10: R332, R335). -/

namespace Sys2Proof.Machine

/-! ### The slot queues (R161) -/

namespace Sequencer

theorem queue_setQueue (q : Sequencer) (sl tl : Slot) (l : List QInstr) :
    (q.setQueue sl l).queue tl = if sl = tl then l else q.queue tl := by
  cases sl <;> cases tl <;> rfl

@[simp] theorem queue_setQueue_same (q : Sequencer) (sl : Slot) (l : List QInstr) : (q.setQueue sl l).queue sl = l := by
  rw [queue_setQueue, if_pos rfl]

@[simp] theorem advance_queue (q : Sequencer) (b : Nat) (l : List Loop) (sl : Slot) : (q.advance b l).queue sl = q.queue sl := by
  cases sl <;> simp [queue]

/-- Where dispatch goes on depends on the bundle and the loops alone. -/
theorem advance_congr (q r : Sequencer) (b : Nat) (l : List Loop) :
    (q.advance b l).pc = (r.advance b l).pc ∧ (q.advance b l).loops = (r.advance b l).loops := by
  induction l with
  | nil => exact ⟨rfl, rfl⟩
  | cons x r ih =>
    simp only [advance]
    split
    · split
      · exact ⟨rfl, rfl⟩
      · exact ih
    · exact ⟨rfl, rfl⟩

section
variable {q : Sequencer} {sl : Slot} {x : QInstr} {r : List QInstr} (h : q.queue sl = x :: r)
include h

theorem retire_of_held (hh : q.hold = some (.issue x.num)) :
    q.retire sl = ({ q.setQueue sl r with hold := none }.advance x.bundle q.loops).release x.num := by
  simp [retire, issued, h, hh]

theorem retire_of_not_held (hh : q.hold ≠ some (.issue x.num)) : q.retire sl = (q.setQueue sl r).release x.num := by
  simp [retire, issued, h, hh]

end

/-- A loop that has runs left goes back to its first bundle (R165). -/
theorem advance_again {l : Loop} (h : 1 < l.count) (q : Sequencer) (r : List Loop) :
    q.advance l.end_ (l :: r) = { q with pc := l.start, loops := { l with count := l.count - 1 } :: r } := by
  rw [advance, if_pos rfl, if_pos h]

/-- A bundle at which no loop ends is followed by the one after it. -/
theorem advance_next {b : Nat} {l : List Loop} (h : ∀ m ∈ l, m.end_ ≠ b) (q : Sequencer) :
    q.advance b l = { q with pc := b + 1, loops := l } := by
  cases l with
  | nil => rfl
  | cons m r => rw [advance, if_neg (h m List.mem_cons_self).symm]

theorem advance_last {l : Loop} (h : l.count ≤ 1) (q : Sequencer) (r : List Loop) :
    q.advance l.end_ (l :: r) = q.advance l.end_ r := by
  rw [advance, if_pos rfl, if_neg (Nat.not_lt.2 h)]

end Sequencer

/-- Settles O16: by whether dispatch is held for the instruction, and by the runs that the loop has left. -/
theorem dispatchGoesOn : Obligations.DispatchGoesOn := by
  unfold Obligations.DispatchGoesOn
  refine ⟨fun q sl x r h => ?retires, fun q l r => ⟨fun hc => ?again, fun hc hr => ?ends⟩⟩
  case retires =>
    by_cases hh : q.hold = some (.issue x.num)
    · rw [Sequencer.retire_of_held h hh]
      refine ⟨(Sequencer.advance_queue ..).trans (Sequencer.queue_setQueue_same ..),
        fun k hk => Sequencer.num_of_mem_claims_release hk, fun _ => ⟨?_, Sequencer.advance_congr ..⟩, fun hn => absurd hh hn⟩
      exact Sequencer.advance_hold ..
    · rw [Sequencer.retire_of_not_held h hh]
      exact ⟨Sequencer.queue_setQueue_same .., fun k hk => Sequencer.num_of_mem_claims_release hk, fun hn => absurd hn hh,
        fun _ => ⟨Sequencer.setQueue_hold .., Sequencer.setQueue_pc .., Sequencer.setQueue_loops ..⟩⟩
  case again => rw [Sequencer.advance_again hc]; exact ⟨rfl, rfl⟩
  case ends => rw [Sequencer.advance_last hc, Sequencer.advance_next hr]; exact ⟨rfl, rfl⟩

/-! ### BUNDLE_DISPATCH (R157, R160) -/

/-- Instruction `x` enters its slot queue, and what it writes is claimed. -/
def Sequencer.enqueue (q : Sequencer) (x : QInstr) : Sequencer :=
  let q := q.setQueue x.slot (q.queue x.slot ++ [x])
  if (claimsOf x.slot x.word).isEmpty then q else { q with claims := q.claims ++ [{ num := x.num, res := claimsOf x.slot x.word }] }

/-- Where dispatch goes on after the instructions `qs`, the bundle at PC: it is held for one of them, or the next bundle follows, at
once or after a YSYNC. -/
def Sequencer.goesOn (q : Sequencer) (qs : List QInstr) : Sequencer :=
  match qs.find? fun x => holdsDispatch x.slot x.word with
  | some x => { q with hold := some (.issue x.num) }
  | none =>
    let q := q.advance q.pc q.loops
    match qs.find? fun x => x.slot == .c && opOf x.word == 0x1A with
    | some x => { q with hold := some (.ysync x.num) }
    | none => q

/-- The words of the bundle at PC that are no NOPs. -/
def Sequencer.nextWords (q : Sequencer) : List (Slot × W64) := (bundleWords (Table.get q.imem 0 q.pc)).filter fun x => x.2 ≠ 0

/-- Those words as instructions in their queues. -/
def Sequencer.numbered (q : Sequencer) (is : List (Slot × W64)) : List QInstr :=
  is.map fun x => { num := q.num + slotNum x.1, bundle := q.pc, slot := x.1, word := x.2 }

/-- Scoreboard entries in use. -/
def Sequencer.claimed (q : Sequencer) : Nat := (q.claims.map fun k => k.res.length).foldl (· + ·) 0

/-- Scoreboard entries that the words claim. -/
def claimsNeeded (is : List (Slot × W64)) : Nat := (is.map fun x => (claimsOf x.1 x.2).length).foldl (· + ·) 0

/-- The bundle of the words `is` is dispatched. -/
def Sequencer.dispatched (q : Sequencer) (is : List (Slot × W64)) : Sequencer :=
  let r := (q.numbered is).foldl enqueue q
  { r with num := r.num + 4, bundleCnt := r.bundleCnt + 1, sbPeak := max r.sbPeak (q.claimed + claimsNeeded is) }.goesOn (q.numbered is)

namespace Sequencer

@[simp] theorem enqueue_num (q : Sequencer) (x : QInstr) : (q.enqueue x).num = q.num := by unfold enqueue; dsimp only; split <;> simp
@[simp] theorem enqueue_pc (q : Sequencer) (x : QInstr) : (q.enqueue x).pc = q.pc := by unfold enqueue; dsimp only; split <;> simp
@[simp] theorem enqueue_loops (q : Sequencer) (x : QInstr) : (q.enqueue x).loops = q.loops := by
  unfold enqueue; dsimp only; split <;> simp
@[simp] theorem enqueue_bundleCnt (q : Sequencer) (x : QInstr) : (q.enqueue x).bundleCnt = q.bundleCnt := by
  unfold enqueue; dsimp only; split <;> simp

theorem enqueue_queue (q : Sequencer) (x : QInstr) (sl : Slot) :
    (q.enqueue x).queue sl = q.queue sl ++ if x.slot = sl then [x] else [] := by
  have hclaims : (q.enqueue x).queue sl = (q.setQueue x.slot (q.queue x.slot ++ [x])).queue sl := by
    unfold enqueue; dsimp only; split <;> rfl
  rw [hclaims, queue_setQueue]
  split
  · next h => rw [h]
  · rw [List.append_nil]

theorem foldl_enqueue_queue (l : List QInstr) (q : Sequencer) (sl : Slot) :
    (l.foldl enqueue q).queue sl = q.queue sl ++ l.filter fun x => x.slot == sl := by
  induction l generalizing q with
  | nil => simp
  | cons x r ih =>
    rw [List.foldl_cons, ih, enqueue_queue, List.filter_cons]
    by_cases h : x.slot = sl <;> simp [h]

/-- Dispatch changes neither where the bundle stands nor the loops around it. -/
theorem foldl_enqueue_same {β : Type} {φ : Sequencer → β} (hφ : ∀ q x, φ (enqueue q x) = φ q) (l : List QInstr) (q : Sequencer) :
    φ (l.foldl enqueue q) = φ q := by
  induction l generalizing q with
  | nil => rfl
  | cons x r ih => rw [List.foldl_cons, ih, hφ]

@[simp] theorem goesOn_queue (q : Sequencer) (qs : List QInstr) (sl : Slot) : (q.goesOn qs).queue sl = q.queue sl := by
  unfold goesOn
  split
  · rfl
  · dsimp only
    split
    · exact advance_queue ..
    · exact advance_queue ..

@[simp] theorem goesOn_bundleCnt (q : Sequencer) (qs : List QInstr) : (q.goesOn qs).bundleCnt = q.bundleCnt := by
  unfold goesOn
  split
  · rfl
  · dsimp only
    split <;> simp

/-- No instruction holds dispatch: the next bundle follows. -/
theorem goesOn_pc {q : Sequencer} {qs : List QInstr} (h : ∀ x ∈ qs, holdsDispatch x.slot x.word = false) :
    (q.goesOn qs).pc = (q.advance q.pc q.loops).pc := by
  have hnone : (qs.find? fun x => holdsDispatch x.slot x.word) = none := List.find?_eq_none.2 fun x hx => by simp [h x hx]
  unfold goesOn
  rw [hnone]
  dsimp only
  split <;> rfl

end Sequencer

/-- A change of a core's registers puts the changed registers in their place. -/
theorem modSeq_eq_const (d : Device) (c : Nat) (f : Sequencer → Sequencer) :
    d.modSeq c f = d.modCore c fun k => { k with sq := f (d.regs c) } := rfl

/-- The sequencer of a core that may dispatch: it runs, nothing holds it, its bundle is good, and its words keep the rules of a
bundle and find room in the queues and on the scoreboard. -/
theorem dispatch_eq {d : Device} {c : Nat} (hrun : (d.regs c).stat = .run) (hhold : (d.regs c).hold = none)
    (hfrozen : d.frozen c = false) (hpc : (d.regs c).pc < 8192) (hgood : (d.regs c).imemBad.contains (d.regs c).pc = false)
    (hkp : ((d.regs c).nextWords.any fun x => kpMarked x.1 x.2 && decide (1 < (d.regs c).nextWords.length)) = false)
    (hrules : dispatchFault (d.regs c).nextWords [] = none)
    (hqueues : ((d.regs c).nextWords.all fun x => decide (((d.regs c).queue x.1).length < 8)) = true)
    (hboard : (d.regs c).claimed + claimsNeeded (d.regs c).nextWords ≤ 96) :
    d.dispatch c = d.modSeq c fun q => q.dispatched q.nextWords := by
  have hkp : ((d.regs c).nextWords.find? fun x => kpMarked x.1 x.2 && decide (1 < (d.regs c).nextWords.length)) = none :=
    List.find?_eq_none.2 fun x hx => by simpa using List.any_eq_false.1 hkp x hx
  have hqueues : ((d.regs c).nextWords.any fun x => decide (8 ≤ ((d.regs c).queue x.1).length)) = false :=
    List.any_eq_false.2 fun x hx => by simpa using List.all_eq_true.1 hqueues x hx
  unfold Device.dispatch
  extract_lets q is
  rw [if_neg (by simpa [hfrozen] using ⟨hrun, hhold⟩), if_neg (Nat.not_le.2 hpc), if_neg (by rw [hgood]; decide)]
  split
  · next heq => exact absurd (heq.symm.trans hkp) (Option.some_ne_none _)
  · split
    · next heq => exact absurd (heq.symm.trans hrules) (Option.some_ne_none _)
    · rw [if_neg (by rw [Bool.or_eq_true, not_or, decide_eq_true_eq, not_lt]; exact ⟨by rw [Bool.not_eq_true]; exact hqueues, hboard⟩)]
      rw [modSeq_eq_const]
      rfl

/-- Settles O14: by the sequencer that dispatches. -/
theorem dispatchResults : Obligations.DispatchResults := by
  unfold Obligations.DispatchResults
  refine ⟨fun s c hc hrun hhold hfrozen hpc hgood hkp hrules hqueues hboard => ?dispatch, fun s c sl hc hq => ?nop⟩
  case nop =>
    have hstep : nopStep c sl s.dev = s.dev := by
      unfold nopStep
      rw [show (s.dev.core c).sq.queue sl = [] from hq]
    exact (onUnit_next _ _ hc).trans (by rw [hstep])
  case dispatch =>
    refine ⟨_, onUnit_next _ _ hc, ?_⟩
    rw [List.sum_eq_foldl, List.sum_eq_foldl] at hboard
    rw [dispatch_eq hrun hhold hfrozen hpc hgood hkp hrules hqueues hboard]
    have hregs : (s.dev.modSeq c fun q => q.dispatched q.nextWords).regs c = (s.dev.regs c).dispatched (s.dev.regs c).nextWords := by
      simp [Device.modSeq, Device.regs]
    simp only [hregs]
    refine ⟨fun sl => ?queue, ?count, fun hfree => ?pc⟩
    case queue =>
      rw [Sequencer.dispatched, Sequencer.goesOn_queue]
      refine (Sequencer.foldl_enqueue_queue ..).trans ?_
      rw [Sequencer.numbered, List.filter_map]
      rfl
    case count =>
      rw [Sequencer.dispatched, Sequencer.goesOn_bundleCnt, Sequencer.foldl_enqueue_same Sequencer.enqueue_bundleCnt]
    case pc =>
      rw [Sequencer.dispatched, Sequencer.goesOn_pc]
      · rw [Sequencer.foldl_enqueue_same Sequencer.enqueue_pc, Sequencer.foldl_enqueue_same Sequencer.enqueue_loops]
        exact (Sequencer.advance_congr ..).1
      · intro x hx
        obtain ⟨y, hy, rfl⟩ := List.mem_map.1 hx
        simpa using List.all_eq_true.1 hfree y hy

/-! ### BR and LOOP (R164, R165, R174) -/

section
variable {c : Nat} {x : QInstr} {d : Device}

theorem brBody_taken (h : condHolds (cCOND x.word) ((d.regs c).sop (fA x.word)) ((d.regs c).sop (fBb x.word)) = true) :
    brBody c x d = .ok (d.modSeq c fun q => { branchTo (bits x.word 44 32) q with hold := none }) := if_pos h

theorem brBody_falls (h : condHolds (cCOND x.word) ((d.regs c).sop (fA x.word)) ((d.regs c).sop (fBb x.word)) = false) :
    brBody c x d = .ok d := if_neg (by rw [h]; decide)

variable {n : Nat} (hn : n = if cI x.word then bits x.word 47 32 else bits ((d.regs c).sop (fA x.word)) 31 0)
  (hend : x.bundle < bits x.word 60 48)
include hn hend

theorem loopBody_none (h0 : n = 0) :
    loopBody c x d = .ok (d.modSeq c fun q => { q with pc := bits x.word 60 48 + 1, hold := none }) :=
  (if_neg (Nat.not_le.2 hend)).trans (if_pos (hn.symm.trans h0))

theorem loopBody_runs (h0 : n ≠ 0) (hdepth : (d.regs c).loops.length < 4) :
    loopBody c x d = .ok (d.modSeq c fun q => { q with
      pc := x.bundle + 1, loops := { count := n, start := x.bundle + 1, end_ := bits x.word 60 48 } :: q.loops, hold := none }) := by
  subst hn
  exact (if_neg (Nat.not_le.2 hend)).trans ((if_neg h0).trans (if_neg (Nat.not_le.2 hdepth)))

end

/-- Settles O15: BR by its condition, LOOP by its count. -/
theorem branchAndLoopResults : Obligations.BranchAndLoopResults := by
  unfold Obligations.BranchAndLoopResults
  refine ⟨fun s c x h => ⟨fun hcond => ?taken, fun hcond => ?falls⟩, fun s c x h => ?loop⟩
  case taken => exact Device.onUnit_completed h (brBody_taken hcond) rfl
  case falls => exact Device.onUnit_completed h (brBody_falls hcond) rfl
  case loop =>
    intro q last n hend
    refine ⟨fun h0 => ?none, fun h0 hdepth => ?runs⟩
    case none => exact Device.onUnit_completed h (loopBody_none rfl hend h0) rfl
    case runs => exact Device.onUnit_completed h (loopBody_runs rfl hend h0 hdepth) rfl

/-! ### FSIGNAL and FWAIT (R174, R332, R335) -/

section
variable {c i : Nat} {x : QInstr} {d : Device}

theorem fsignalBody_unknown (h : d.findFence (d.ctxOf c) (((d.regs c).sop (fA x.word)).setWidth 32) = none) :
    fsignalBody c x d = .ok (d.modSeq c fun q => q.setSop (fD x.word) 0x0103) := by
  simp only [fsignalBody, h]

theorem fwaitBody_unknown (h : d.findFence (d.ctxOf c) (((d.regs c).sop (fA x.word)).setWidth 32) = none) :
    fwaitBody c x d = .ok (d.modSeq c fun q => q.setSop (fD x.word) 0x0103) := by
  simp only [fwaitBody, h]

variable (h : d.findFence (d.ctxOf c) (((d.regs c).sop (fA x.word)).setWidth 32) = some i)
include h

theorem fsignalBody_signals : fsignalBody c x d =
    .ok ((d.signalFence i ((d.regs c).sop (fBb x.word))).1.modSeq c fun q =>
      q.setSop (fD x.word) ((d.signalFence i ((d.regs c).sop (fBb x.word))).2.setWidth 64)) := by
  simp only [fsignalBody, h]

theorem fwaitBody_done {code : Code} (hdone : d.waitDone i ((d.regs c).sop (fBb x.word)) = some code) : fwaitBody c x d =
    .ok ((d.modSeq c fun q => q.setSop (fD x.word) (code.setWidth 64)).dropWait c) := by
  simp only [fwaitBody, h, hdone]

end

/-- A wait for a value that the fence has reached is over with 0 (R335). -/
theorem Device.waitDone_reached {d : Device} {i : Nat} {v : W64} (h : v ≤ (d.fence i).value) : d.waitDone i v = some 0 := if_pos h

/-- A wait on a fence that carries an error is over with its code (R335). -/
theorem Device.waitDone_error {d : Device} {i : Nat} {v : W64} (h : (d.fence i).value < v) (hc : (d.fence i).code ≠ 0) :
    d.waitDone i v = some (d.fence i).code := (if_neg (BitVec.not_le.2 h)).trans (if_pos hc)

/-- Settles O20: by the fence that the handle names. Where it names none, D takes NO_OBJECT (0x0103). -/
theorem fenceInstructionResults : Obligations.FenceInstructionResults := by
  unfold Obligations.FenceInstructionResults
  intro s c x q h v
  refine ⟨fun hx => ⟨fun hnone => ?unknownSignal, fun i hi => ?signals⟩, fun hx => ⟨fun hnone => ?unknownWait, fun i hi => ?waits⟩⟩
  case unknownSignal => exact Device.onUnit_completed hx (fsignalBody_unknown hnone) rfl
  case signals => exact Device.onUnit_completed hx (fsignalBody_signals hi) rfl
  case unknownWait => exact Device.onUnit_completed hx (fwaitBody_unknown hnone) rfl
  case waits =>
    refine ⟨fun hreached => ?reached, fun hbelow hcode => ?error⟩
    case reached => exact Device.onUnit_completed hx (fwaitBody_done hi (Device.waitDone_reached hreached)) rfl
    case error => exact Device.onUnit_completed hx (fwaitBody_done hi (Device.waitDone_error hbelow hcode)) rfl

end Sys2Proof.Machine
end

section
/-! PROOF. The accesses of the M slot to the Yard (spec 06: R171; spec 07: R203, R206). -/

namespace Sys2Proof.Machine

/-- An M-slot instruction that completes at once, is no Kerf point and is not traced. -/
theorem exec_m_retired {s : State} {c op : Nat} {x : QInstr} {e : Device} {body : QInstr → Device → Issue}
    (h : s.dev.mayIssue c .m op x = true) (hb : body x s.dev = .ok e)
    (hop : op ∉ [0x0C, 0x0D, 0x02, 0x04, 0x0B] := by decide) :
    onUnit 12 c s (Device.issue c .m op body) = .next { s with dev := e.retired c .m } := by
  obtain ⟨-, -, hslot, hopc, -⟩ := Device.mayIssue_iff.1 h
  simp only [List.mem_cons, List.not_mem_nil, not_or] at hop
  obtain ⟨hpush, hpop, hsst, hvst, hhaul, -⟩ := hop
  exact Device.onUnit_issue_ok h hb (Device.kpMarked_m hopc hpush hpop) (Device.traceOf_m hslot hopc hpush hpop hsst hvst hhaul) rfl

section
variable {i : Nat → Instr} {op : Nat}

/-- An instruction whose body is a load of `n` bytes, of which `f` takes what it reads. -/
theorem loadResult_of_mslotLoad {n : W64 → Nat} {f : W64 → List Byte → Sequencer → Sequencer}
    (hi : ∀ c s, exec (i c) s = onUnit 12 c s (Device.issue c .m op fun x d =>
      d.mslotLoad c x (mOffset (d.regs c) x.word) (n x.word) (f x.word)))
    (hop : op ∉ [0x0C, 0x0D, 0x02, 0x04, 0x0B] := by decide) : LoadResult i op n f := by
  intro s c x e bs h off halign hown hports hread
  have hok : s.dev.mslotOk c off (n x.word) = true := by simp [Device.mslotOk, halign, hown]
  have hbody : s.dev.mslotLoad c x off (n x.word) (f x.word) =
      .ok (e.modSeq c fun q => mPost x.word (f x.word bs q)) := by
    simp only [Device.mslotLoad, hok, hports, hread]
    rfl
  exact (hi c s).trans (exec_m_retired h hbody hop)

/-- An instruction whose body is a store of the bytes `f`. -/
theorem storeResult_of_mslotStore {ports : Bool} {f : W64 → Sequencer → List Byte}
    (hi : ∀ c s, exec (i c) s = onUnit 12 c s (Device.issue c .m op fun x d =>
      d.mslotStore c x (mOffset (d.regs c) x.word) (f x.word (d.regs c)) ports)) : StoreResult i op ports f := by
  intro s c x h off bs halign hown hports d e
  have hok : s.dev.mslotOk c off bs.length = true := by simp [Device.mslotOk, halign, hown]
  have hbody : s.dev.mslotStore c x off bs ports = .ok e := by
    simp only [Device.mslotStore, hok, hports]
    rfl
  exact (hi c s).trans (Device.onUnit_completed h hbody rfl)

end

/-- An element of its lane: the lane, its upper half, or its low byte. -/
theorem narrow_eq (ew : Nat) (v : W32) : narrow ew v =
    if ew = 0 then v.toNat else if ew = 1 then v.toNat / 65536 else v.toNat % 256 := by
  rw [narrow, bits_31_16]
  rfl

/-! ### Strided accesses -/

section
variable {c : Nat} {x : QInstr} {d : Device}
  (hoffs : (((List.range 256).map (laneOffset (d.regs c) x.word)).all fun o => d.mslotOk c o 4) = true) (hports : d.portsBusy c = false)
include hoffs hports

theorem vldsBody_eq {e : Device} {ws : List W32}
    (hread : ((d.askPorts c 4 true (wordLines ((List.range 256).map (laneOffset (d.regs c) x.word)))).auditAll c
      (((List.range 256).map (laneOffset (d.regs c) x.word)).map fun o => (o.toNat, 4))).gatherWords c
      (((List.range 256).map (laneOffset (d.regs c) x.word)).map (·.toNat)) = (e, .inl ws)) :
    vldsBody c x d = .ok (e.modSeq c fun q => mPost x.word (q.setV (fD x.word) (vregOf fun l => ws.getD l 0))) := by
  unfold vldsBody
  rw [if_neg (by rw [hoffs]; decide), if_neg (by rw [hports]; decide), hread]

theorem vstsBody_eq : vstsBody c x d = .ok (((List.range 256).foldl
    (fun e l => e.writeYard c (laneOffset (d.regs c) x.word l).toNat (toBytes 4 ((d.regs c).lane (fD x.word) l).toNat))
    ((d.askPorts c 4 true (wordLines ((List.range 256).map (laneOffset (d.regs c) x.word))) [(c, 2)]).auditAll c
      ((List.range 256).map fun l => ((laneOffset (d.regs c) x.word l).toNat, 4)))).modSeq c (mPost x.word)) := by
  unfold vstsBody
  rw [if_neg (by rw [hoffs]; decide), if_neg (by rw [hports]; decide), List.map_map]
  rfl

end

/-- Settles O8: each is a load or a store of the M slot, at one offset or at one for each lane. -/
theorem yardAccessResults : Obligations.YardAccessResults := by
  unfold Obligations.YardAccessResults
  refine ⟨?sld, ?vld, ?vlds, ?sst, ?vst, ?vsts⟩
  case sld | vld => exact loadResult_of_mslotLoad fun _ _ => rfl
  case sst => exact storeResult_of_mslotStore fun _ _ => rfl
  case vst =>
    have hvst : StoreResult .vst 0x04 true fun w q =>
        (List.range 256).flatMap fun l => toBytes (ewBytes (mEW w)) (narrow (mEW w) (q.lane (fD w) l)) :=
      storeResult_of_mslotStore fun _ _ => rfl
    simpa only [narrow_eq] using hvst
  case vlds =>
    intro s c x e ws h offs hoffs hports hread
    exact exec_m_retired h (vldsBody_eq hoffs hports hread)
  case vsts =>
    intro s c x h off hoffs hports d e
    exact exec_m_retired h (vstsBody_eq (by rw [List.all_map]; exact hoffs) hports)

end Sys2Proof.Machine
end

section
/-! PROOF. Chutes: messages and handles, sent, arriving, returned and taken (spec 06: R182, R183; spec 08: R252 to R257). -/

namespace Sys2Proof.Machine

/-! ### A push that sets out (R182, R256, R257) -/

namespace Device

/-- An instruction that is no Kerf point waits without a drain (R186). -/
theorem kpWait_of_not_marked {x : QInstr} (h : kpMarked x.slot x.word = false) (d : Device) (c : Nat) : d.kpWait c x = d := by
  simp [kpWait, h]

/-- A command whose instruction waits and is no Kerf point, as `issue_wait`. -/
theorem onUnit_issue_wait {s : State} {c op : Nat} {sl : Slot} {x : QInstr} {body : QInstr → Device → Issue} {e : Device}
    (h : s.dev.mayIssue c sl op x = true) {cause : Option Cause} (hb : body x s.dev = .wait e cause) (hk : kpMarked sl x.word = false) :
    onUnit 12 c s (issue c sl op body) = .next { s with dev := e.modCore c fun k => k.waitsIn sl cause } := by
  obtain ⟨hc, -, rfl, -⟩ := mayIssue_iff.1 h
  rw [onUnit_next _ _ hc, issue_wait h hb, kpWait_of_not_marked hk]

section
variable {d : Device} {src : Sender} {core n : Nat} {v : W64} {handle : Bool} {bundle : Nat} (hheld : d.heldBefore src core n = false)
include hheld

/-- A push to the sender's own core enters its Chute at once. -/
theorem push_enters (hown : core = senderCore src) (hfull : d.fullFor core n src = false) :
    d.push src core n v handle bundle = (d.enter core n v, true) := by
  subst hown
  simp [push, hheld, hfull]

/-- A push to another core that receives sets out. -/
theorem push_sends (hother : core ≠ senderCore src) (hrecv : d.receives core = true) (hfull : d.fullFor core n src = false) :
    d.push src core n v handle bundle = (d.send src core n v handle bundle, true) := by
  simp [push, hheld, hother, hrecv, hfull]

/-- A push to a full Chute is refused (R257). -/
theorem push_refused (hrecv : core = senderCore src ∨ d.receives core = true) (hfull : d.fullFor core n src = true) :
    d.push src core n v handle bundle = (d.refuse core n src, false) := by
  rcases hrecv with rfl | hrecv
  · simp [push, hheld, hfull]
  · simp [push, hheld, hrecv, hfull]

end

/-- The program's instruction completes with the push, or waits under CHUTE_FULL. -/
theorem pushFrom_of_push {d e : Device} {c core n : Nat} {v : W64} {handle : Bool} {bundle : Nat} {done : Bool}
    (h : d.push (.program c) core n v handle bundle = (e, done)) :
    d.pushFrom c core n v handle bundle = if done then .ok e else .wait e (some .chuteFull) := by
  unfold pushFrom
  rw [h]
  cases done <;> rfl

/-! ### A push that arrives (R252, R256, R257) -/

/-- A fold that at each item keeps what it has or takes the item ends with one of them. -/
theorem mem_of_foldl_choice {α : Type} {f : Option α → α → Option α} (hf : ∀ b y, f b y = b ∨ f b y = some y) {l : List α}
    {b : Option α} {p : α} (h : l.foldl f b = some p) : b = some p ∨ p ∈ l := by
  induction l generalizing b with
  | nil => exact .inl h
  | cons y r ih =>
    rcases ih h with hy | hr
    · rcases hf b y with hb | hb
      · exact .inl (hb ▸ hy)
      · obtain rfl : y = p := Option.some.inj (hb.symm.trans hy)
        exact .inr List.mem_cons_self
    · exact .inr (List.mem_cons_of_mem _ hr)

/-- The push that reaches a core next is one of the pushes under way, from the sender asked for. -/
theorem of_arriving {d : Device} {src : Sender} {core : Nat} {handle : Bool} {p : Push} (h : d.arriving src core handle = some p) :
    p ∈ d.pushes := by
  simp only [arriving, Option.filter_eq_some_iff] at h
  obtain ⟨hnext, -⟩ := h
  have hmem := (mem_of_foldl_choice (fun b y => ?_) hnext).resolve_left (Option.some_ne_none p).symm
  · exact List.mem_of_mem_filter (List.mem_of_mem_filter hmem)
  · cases b with
    | none => exact .inr rfl
    | some b => simp only; split <;> simp

/-- A push that is returned to its sender, whose job is there, is held by it (R257). -/
def returned (d : Device) (p : Push) : Device :=
  { d with pushes := d.pushes.map fun x => if x == p then { p with held := true } else x }

section
variable {d : Device} {src : Sender} {core : Nat} {handle : Bool} {p : Push} (harr : d.arriving src core handle = some p)
  (hheld : d.heldBefore src core p.chute = false) (hrecv : d.receives core = true) (hsuits : d.suits src core p.chute handle = true)
include harr hheld hrecv hsuits

theorem pushArrives_enters (hroom : (d.chute core p.chute).entries.length < 64) :
    d.pushArrives src core handle = { d with pushes := d.pushes.erase p }.enter core p.chute p.value := by
  simp [pushArrives, harr, hheld, hrecv, hsuits, Nat.not_le.2 hroom]

theorem pushArrives_returned {j : Nat} (hj : p.job = some j) (hjob : (d.job j).isSome = true)
    (hfull : 64 ≤ (d.chute core p.chute).entries.length) :
    d.pushArrives src core handle = (d.returned p).refuse core p.chute src := by
  simp [pushArrives, harr, hheld, hrecv, hsuits, hfull, hj, hjob, returned]

end

section
variable (d : Device) (c n : Nat)

@[simp] theorem setChute_chute_same (v : Chute) : (d.setChute c n v).chute c n = v := by simp [chute]

@[simp] theorem enter_chute_same (v : W64) : (d.enter c n v).chute c n = { d.chute c n with entries := (d.chute c n).entries ++ [v] } :=
  setChute_chute_same ..

theorem refuse_chute_same (src : Sender) : ((d.refuse c n src).chute c n).entries = (d.chute c n).entries ∧
    src ∈ ((d.refuse c n src).chute c n).waiting := by
  simp only [refuse, setChute_chute_same, true_and]
  split <;> simp_all

end

/-! ### Taking an entry, and the free signal (R254, R257) -/

theorem popChute_cons {d : Device} {c n : Nat} {v : W64} {r : List W64} (h : (d.chute c n).entries = v :: r) :
    d.popChute c n = some (d.setChute c n { d.chute c n with entries := r }, v) := by
  simp only [popChute, h]

theorem freeSignal_signals {d : Device} {c n : Nat} {src : Sender} {r : List Sender} (hw : (d.chute c n).waiting = src :: r)
    (hroom : (d.chute c n).entries.length < 64) : d.freeSignal c n =
      (d.setChute c n { d.chute c n with waiting := r }).resend fun x => x.src == src && x.core == c && x.chute == n := by
  simp only [freeSignal, hw, hroom, if_true]

/-- Held pushes that are sent again are on their way. -/
theorem mem_resend {d : Device} {q : Push → Bool} {p : Push} (hp : p ∈ d.pushes) (hheld : p.held = true) (hq : q p = true) :
    { p with held := false, due := d.power.cycles + meshLatency (senderCore p.src) p.core + 2 } ∈ (d.resend q).pushes := by
  refine List.mem_append_right _ (List.mem_map.2 ⟨p, List.mem_filter.2 ⟨hp, ?_⟩, rfl⟩)
  simp [hheld, hq]

end Device

/-! ### The instructions -/

section
variable {c : Nat} {x : QInstr} {d : Device}

theorem msendBody_eq (hpdk : d.samePaddock c (bits x.word 35 32) = true)
    (hsuits : d.suits (.program c) (bits x.word 35 32) (bits x.word 39 36) false = true) : msendBody c x d =
      d.pushFrom c (bits x.word 35 32) (bits x.word 39 36) ((d.regs c).sop (fA x.word)) false x.bundle := by
  simp [msendBody, hpdk, hsuits]

/-- CHPUSH of a good handle, once the core's earlier Yard writes are granted (R255). -/
theorem chpushBody_eq {core : Nat} (hcore : core = if bit x.word 24 then bits x.word 23 20 else c)
    (hpdk : d.samePaddock c core = true) (hsuits : d.suits (.program c) core (bits x.word 19 16) true = true)
    (hgood : d.goodHandle c ((d.regs c).sop (fD x.word)) = true) (howed : d.outputsOwed c x.num = false)
    (hwrites : (d.drainAll c).writesOwed c x.num = false) {e : Device}
    (hpush : (d.drainAll c).push (.program c) core (bits x.word 19 16) ((d.regs c).sop (fD x.word)) true x.bundle = (e, true)) :
    chpushBody c x d = .ok (e.giveHandle c ((d.regs c).sop (fD x.word))) := by
  subst hcore
  simp [chpushBody, hpdk, hsuits, hgood, howed, hwrites, Device.pushFrom, hpush]

theorem mrecvBody_eq (hmode : (d.chute c (bits x.word 39 36)).handle = false) {v : W64} {r : List W64}
    (hentries : (d.chute c (bits x.word 39 36)).entries = v :: r) : mrecvBody c x d =
      .ok ((d.setChute c (bits x.word 39 36) { d.chute c (bits x.word 39 36) with entries := r }).modSeq c fun q =>
        q.setSop (fD x.word) v) := by
  simp [mrecvBody, hmode, Device.popChute_cons hentries]

theorem chpopBody_eq (hmode : (d.chute c (bits x.word 19 16)).handle = true) (hbound : (d.chute c (bits x.word 19 16)).bound ≠ .free)
    {v : W64} {r : List W64} (hentries : (d.chute c (bits x.word 19 16)).entries = v :: r) : chpopBody c x d =
      .ok (((d.setChute c (bits x.word 19 16) { d.chute c (bits x.word 19 16) with entries := r }).holdHandle c v).modSeq c fun q =>
        q.setSop (fD x.word) v) := by
  simp [chpopBody, hmode, hbound, Device.popChute_cons hentries]

end

theorem exec_messageArrive {s : State} {src dst : Nat} (hsrc : src < 12) (hdst : dst < 12) :
    exec (.messageArrive src dst) s = .next { s with dev := s.dev.pushArrives (.program src) dst false } :=
  (if_pos hdst).trans (onUnit_next _ _ hsrc)

theorem exec_chutePushArrive {s : State} {src : Sender} {dst : Nat} (hsrc : src.wf = true) (hdst : dst < 12) :
    exec (.chutePushArrive src dst) s = .next { s with dev := s.dev.pushArrives src dst true } :=
  (if_pos hsrc).trans (onUnit_next _ _ hdst)

theorem exec_chuteFreeSignal {s : State} {c n : Nat} (hc : c < 12) (hn : n < 16) :
    exec (.chuteFreeSignal c n) s = .next { s with dev := s.dev.freeSignal c n } :=
  (if_pos hn).trans (onUnit_next _ _ hc)

/-- Settles O13: each push by what it meets when it sets out and when it arrives, each pop by the oldest entry. -/
theorem chuteResults : Obligations.ChuteResults := by
  unfold Obligations.ChuteResults
  refine ⟨?msend, ?messageArrive, ?mrecv, ?returned, ?chpush, ?pushArrive, ?chpop, ?freeSignal⟩
  case msend =>
    intro s c x h n core v hpdk hsuits hheld
    have hbody := msendBody_eq hpdk hsuits
    refine ⟨fun hown hfull => ?own, fun hother hrecv hfull => ?other, fun hrecv hfull => ?full⟩
    case own =>
      subst hown
      exact Device.onUnit_completed h (hbody.trans (Device.pushFrom_of_push (Device.push_enters hheld rfl hfull))) rfl
    case other =>
      exact Device.onUnit_completed h (hbody.trans (Device.pushFrom_of_push (Device.push_sends hheld hother hrecv hfull))) rfl
    case full =>
      obtain ⟨-, -, hslot, hop, -⟩ := Device.mayIssue_iff.1 h
      exact Device.onUnit_issue_wait h (hbody.trans (Device.pushFrom_of_push (Device.push_refused hheld hrecv hfull)))
        (Device.kpMarked_c hop)
  case messageArrive =>
    intro s src dst p hsrc hdst harr hheld hrecv hsuits hroom
    refine ⟨_, exec_messageArrive hsrc hdst, ?_⟩
    rw [Device.pushArrives_enters harr hheld hrecv hsuits hroom]
    exact ⟨rfl, congrArg Chute.entries (Device.enter_chute_same ..)⟩
  case mrecv =>
    intro s c x v r h hmode hentries
    exact Device.onUnit_completed h (mrecvBody_eq hmode hentries) rfl
  case returned =>
    intro s src dst p j hsrc hdst harr hj hjob hheld hrecv hsuits hfull
    refine ⟨_, exec_messageArrive hsrc hdst, ?_⟩
    rw [Device.pushArrives_returned harr hheld hrecv hsuits hj hjob hfull]
    refine ⟨?_, Device.refuse_chute_same ..⟩
    exact List.mem_map.2 ⟨p, Device.of_arriving harr, by simp⟩
  case chpush =>
    intro s c x h n core v d hpdk hsuits hgood howed hwrites hheld
    refine ⟨fun hown hfull => ?own, fun hother hrecv hfull => ?other⟩
    case own =>
      have hpush : d.push (.program c) core n v true x.bundle = (d.enter c n v, true) := by
        rw [Device.push_enters hheld hown (by rw [hown]; exact hfull), hown]
      exact Device.onUnit_completed h (chpushBody_eq rfl hpdk hsuits hgood howed hwrites hpush) rfl
    case other =>
      exact Device.onUnit_completed h
        (chpushBody_eq rfl hpdk hsuits hgood howed hwrites (Device.push_sends hheld hother hrecv hfull)) rfl
  case pushArrive =>
    intro s src dst p hsrc hdst harr hheld hrecv hsuits hroom
    refine ⟨_, exec_chutePushArrive hsrc hdst, ?_⟩
    rw [Device.pushArrives_enters harr hheld hrecv hsuits hroom]
    exact ⟨rfl, congrArg Chute.entries (Device.enter_chute_same ..)⟩
  case chpop =>
    intro s c x v r h hmode hbound hentries
    exact Device.onUnit_completed h (chpopBody_eq hmode hbound hentries) rfl
  case freeSignal =>
    intro s c n src r hc hn hwaiting hroom
    refine ⟨_, exec_chuteFreeSignal hc hn, ?_⟩
    rw [Device.freeSignal_signals hwaiting hroom]
    refine ⟨congrArg Chute.waiting (Device.setChute_chute_same ..), fun p hp hheld hsrc hcore hchute => ?_⟩
    subst hsrc hcore hchute
    exact Device.mem_resend (d := s.dev.setChute _ _ _) hp hheld (by simp)

end Sys2Proof.Machine
end

section
/-! PROOF. How a core's program ends or gives way: YSYNC, HALT, KERF, CORE_YIELD and TRAP, and the end of a job (spec 06: R163, R184,
R185, R187 to R191; spec 11: R350). -/

namespace Sys2Proof.Machine

namespace Device

/-! ### The drain of the merge buffer (R215) -/

section
variable {β : Type} {φ : Device → β} (hs : ∀ d c v, φ (setSlice d c v) = φ d) (hp : ∀ d ev, φ (postDev d ev) = φ d)
include hs hp

theorem yardUe_part (d : Device) (c b cls : Nat) (q : Bool) : φ (d.yardUe c b cls q) = φ d := by
  unfold yardUe
  dsimp only
  split <;> simp [hp, hs, noteFaults, modSlice]

omit hp in
theorem yardMend_part (d : Device) (c b : Nat) : φ (d.yardMend c b) = φ d := by
  unfold yardMend
  dsimp only
  split <;> simp [hs, noteFaults, modSlice]

/-- A drain writes slices and posts records, and changes nothing else. -/
theorem drainEntry_part (d : Device) (c : Nat) (m : Merge) : φ (d.drainEntry c m) = φ d := by
  unfold drainEntry
  extract_lets e s full s' old
  have he : ∀ v, φ (e.setSlice c v) = φ d := fun v => (hs ..).trans (hs ..)
  split
  · exact he _
  · split
    · split
      · exact he _
      · exact (yardMend_part hs ..).trans (he _)
      · exact (yardUe_part hs hp ..).trans (he _)
    · exact he _

theorem drainAll_part (d : Device) (c : Nat) : φ (d.drainAll c) = φ d :=
  (foldl_part (fun _ _ => drainEntry_part hs hp ..) ..).trans (hs ..)

end

@[simp] theorem drainAll_cores (d : Device) (c : Nat) : (d.drainAll c).cores = d.cores :=
  drainAll_part (φ := Device.cores) (fun _ _ _ => rfl) (fun _ _ => postDev_cores ..) d c
@[simp] theorem drainAll_jobs (d : Device) (c : Nat) : (d.drainAll c).jobs = d.jobs :=
  drainAll_part (φ := Device.jobs) (fun _ _ _ => rfl) (fun _ _ => postDev_jobs ..) d c
@[simp] theorem drainAll_saved (d : Device) (c : Nat) : (d.drainAll c).saved = d.saved :=
  drainAll_part (φ := Device.saved) (fun _ _ _ => rfl) (fun _ _ => postDev_saved ..) d c

@[simp] theorem noteFaults_merge (d : Device) (c b : Nat) (g : Bool) (ws : List Nat) :
    ((d.noteFaults c b g ws).slice c).merge = (d.slice c).merge := by simp [noteFaults]

@[simp] theorem yardUe_merge (d : Device) (c b cls : Nat) (q : Bool) :
    ((d.yardUe c b cls q).slice c).merge = (d.slice c).merge := by
  unfold yardUe
  dsimp only
  split <;> simp

@[simp] theorem yardMend_merge (d : Device) (c b : Nat) : ((d.yardMend c b).slice c).merge = (d.slice c).merge := by
  unfold yardMend
  dsimp only
  split <;> simp

theorem drainEntry_merge (d : Device) (c : Nat) (m : Merge) : ((d.drainEntry c m).slice c).merge = (d.slice c).merge := by
  unfold drainEntry
  extract_lets e s full s' old
  have hs : s'.merge = (d.slice c).merge := by
    have h : s.merge = (d.slice c).merge := by simp [s, e, askDrain, askPorts, Slice.ask]
    by_cases hf : full <;> simp [s', hf, h]
  have hput : ∀ v, ((e.setSlice c (s'.putBlock m.block v)).slice c).merge = (d.slice c).merge := fun v => by
    simpa [Slice.putBlock] using hs
  split
  · exact hput _
  · split
    · split
      · exact hput _
      · exact (yardMend_merge ..).trans (hput _)
      · exact (yardUe_merge ..).trans (hput _)
    · exact hput _

/-- A drain of the whole buffer leaves it empty. -/
theorem drainAll_merge (d : Device) (c : Nat) : ((d.drainAll c).slice c).merge = [] := by
  refine (foldl_part (φ := fun d => (d.slice c).merge) (fun _ _ => drainEntry_merge ..) ..).trans ?_
  simp

/-! ### The jobs, and the state of the cores that yielded -/

/-- The jobs, and the frames of the cores that yielded. -/
def ledger (d : Device) : Table Job × Table (List Saved) := (d.jobs, d.saved)

@[simp] theorem ledger_setCore (d : Device) (c : Nat) (v : Core) : (setCore d c v).ledger = d.ledger := rfl
@[simp] theorem ledger_setStall (d : Device) (s : Nat) (v : Stall) : (setStall d s v).ledger = d.ledger := rfl
@[simp] theorem ledger_setOutQueue (d : Device) (q : Nat) (v : OutQueue) : (setOutQueue d q v).ledger = d.ledger := rfl
@[simp] theorem ledger_setObj (d : Device) (i : Nat) (v : Obj) : (setObj d i v).ledger = d.ledger := rfl
@[simp] theorem ledger_setFence (d : Device) (i : Nat) (v : Fence) : (setFence d i v).ledger = d.ledger := rfl
@[simp] theorem ledger_setSeq (d : Device) (i : Nat) (v : Seq) : (setSeq d i v).ledger = d.ledger := rfl
@[simp] theorem ledger_setPdk (d : Device) (p : Nat) (v : Pdk) : (setPdk d p v).ledger = d.ledger := rfl
@[simp] theorem ledger_setAlarm (d : Device) (n : Nat) (v : Alarm) : (setAlarm d n v).ledger = d.ledger := rfl
@[simp] theorem ledger_emit (d : Device) (o : Out) : (emit d o).ledger = d.ledger := rfl
@[simp] theorem ledger_postQueue (d : Device) (n : Nat) (ev : EventRec) : (postQueue d n ev).ledger = d.ledger := by simp [ledger]
@[simp] theorem ledger_traceRec (d : Device) (c k s b x : Nat) : (traceRec d c k s b x).ledger = d.ledger := by simp [ledger]

/-! Fences, objects and queues. -/

@[simp] theorem ledger_fenceChanged (d : Device) (i : Nat) : (fenceChanged d i).ledger = d.ledger := by
  simp [fenceChanged, apply_ite ledger]
@[simp] theorem ledger_attachTo (d : Device) (ctx : Nat) (h : W32) (code : Code) : (attachTo d ctx h code).ledger = d.ledger := by
  unfold attachTo
  split <;> simp [attachError, apply_ite ledger]
@[simp] theorem ledger_reapFence (d : Device) (i : Nat) : (reapFence d i).ledger = d.ledger := by simp [reapFence, apply_ite ledger]
@[simp] theorem ledger_unrefFence (d : Device) (h : W32) : (unrefFence d h).ledger = d.ledger := by simp [unrefFence, apply_ite ledger]
@[simp] theorem ledger_dropWait (d : Device) (c : Nat) : (dropWait d c).ledger = d.ledger := by
  unfold dropWait
  split <;> simp
@[simp] theorem ledger_unrefObj (d : Device) (i : Nat) : (unrefObj d i).ledger = d.ledger := by
  unfold unrefObj reapObj
  dsimp only
  split
  · split <;> rfl
  · rfl
@[simp] theorem ledger_modQueue (d : Device) (q : Nat) (f : Queue → Queue) : (modQueue d q f).ledger = d.ledger := by
  unfold modQueue
  split <;> rfl
@[simp] theorem ledger_finishCmd (d : Device) (q : Nat) (seq : W32) (code : Code) (h : W32) :
    (finishCmd d q seq code h).ledger = d.ledger := ledger_modQueue ..

/-! Phases and rounds. -/

@[simp] theorem ledger_learn (d : Device) (c : Nat) : (learn d c).ledger = d.ledger := by
  unfold learn
  dsimp only
  split
  · rfl
  · split
    · rfl
    · split <;> rfl
@[simp] theorem ledger_forgetAnnounced (d : Device) (c : Nat) : (forgetAnnounced d c).ledger = d.ledger := by
  unfold forgetAnnounced
  split <;> rfl
@[simp] theorem ledger_endPhase (d : Device) (c : Nat) : (endPhase d c).ledger = d.ledger := by simp [endPhase]
@[simp] theorem ledger_rearmMuster (d : Device) (p : Nat) : (rearmMuster d p).ledger = d.ledger := by
  unfold rearmMuster
  split
  · rfl
  · split
    · rfl
    · split <;> rfl
@[simp] theorem ledger_pauseRounds (d : Device) (j c : Nat) : (pauseRounds d j c).ledger = d.ledger :=
  foldl_part (φ := ledger) ledger_rearmMuster _ _
@[simp] theorem ledger_resumeRounds (d : Device) : (resumeRounds d).ledger = d.ledger :=
  foldl_part (φ := ledger) ledger_rearmMuster _ _
@[simp] theorem ledger_freeMusterSlot (d : Device) (p : Nat) : (freeMusterSlot d p).ledger = d.ledger := by
  unfold freeMusterSlot
  split
  · split <;> rfl
  · rfl

/-! Steps and sequences. -/

@[simp] theorem ledger_chargeGroup (d : Device) (p g n : Nat) : (chargeGroup d p g n).ledger = d.ledger := rfl
@[simp] theorem ledger_chargeStep (d : Device) (p : Nat) : (chargeStep d p).ledger = d.ledger := by
  unfold chargeStep
  split
  · rfl
  · dsimp only
    split
    · exact (ledger_chargeGroup ..).trans (foldl_part (φ := ledger) (fun _ _ => ledger_chargeGroup ..) _ _)
    · exact foldl_part (φ := ledger) (fun _ _ => ledger_chargeGroup ..) _ _
@[simp] theorem ledger_leaveDone (d : Device) (i : Nat) : (leaveDone d i).ledger = d.ledger := by
  unfold leaveDone
  split <;> simp
@[simp] theorem ledger_seqIdle (d : Device) (i : Nat) : (seqIdle d i).ledger = d.ledger := by
  simp [seqIdle, foldl_part (φ := ledger), apply_ite ledger]
@[simp] theorem ledger_idleAll (d : Device) (p : Nat) (code : Code) : (idleAll d p code).ledger = d.ledger := by
  simp [idleAll, tfoldl_part (φ := ledger), apply_ite ledger]

theorem job_of_ledger {d e : Device} (h : e.ledger = d.ledger) (j : Nat) : e.job j = d.job j :=
  congrArg (Table.find · j) (congrArg Prod.fst h)

theorem saved_of_ledger {d e : Device} (h : e.ledger = d.ledger) : e.saved = d.saved := congrArg Prod.snd h

/-! ### The end of a job (R350) -/

/-- A job that has ended is no longer listed (R350). -/
theorem endJob_job (d : Device) (j : Nat) (code : Code) : (d.endJob j code).job j = none := by
  unfold endJob
  split
  · assumption
  · extract_lets code d1 d2 d3 d4 d5 d6 d7 d8 d9 d10 d11 d12 d13
    have herase : ({ d10 with jobs := Table.erase d10.jobs j } : Device).job j = none := by simp [job, Table.find_erase]
    have htail : d13.ledger = ({ d10 with jobs := Table.erase d10.jobs j } : Device).ledger := by
      simp [d13, d12, d11, apply_ite ledger, modPdk]
    rw [job_of_ledger ((ledger_finishCmd ..).trans htail), herase]

/-! ### What an instruction of the C slot leaves -/

/-- The job of a core depends on the core's job and the list of jobs alone. -/
theorem jobOf_congr {d e : Device} {c : Nat} (hc : (e.core c).job = (d.core c).job) (hj : e.jobs = d.jobs) :
    e.jobOf c = d.jobOf c := by simp only [jobOf, job, hc, hj]

theorem drainAll_core (d : Device) (c k : Nat) : (d.drainAll c).core k = d.core k := core_congr (drainAll_cores ..) k

/-- An instruction that is no Kerf point and is not traced only leaves its queue. -/
theorem completed_eq_retired {d e : Device} {c : Nat} {x : QInstr} (hk : kpMarked x.slot x.word = false) (ht : traceOf d c x = none) :
    d.completed c x e = e.retired c x.slot := by simp [completed, traceIssue, kpDone, hk, ht]

end Device

/-- An instruction that leaves its queue holds no dispatch back that was free. -/
theorem Sequencer.retire_hold_none {q : Sequencer} (h : q.hold = none) (sl : Slot) : (q.retire sl).hold = none := by
  unfold retire issued
  split
  · exact h
  · simp [release, h]

theorem Device.retired_hold_none {d : Device} {c : Nat} {sl : Slot} (h : (d.regs c).hold = none) :
    ((d.retired c sl).regs c).hold = none := by
  simpa [regs, retired] using Sequencer.retire_hold_none h sl

section
variable {c j : Nat} {x : QInstr} {v : Job} {d : Device}

/-! ### YSYNC, HALT and KERF (R163, R184, R185) -/

/-- With every earlier Yard write granted YSYNC lets dispatch go on (R163). -/
theorem ysyncBody_goesOn (ho : d.outputsOwed c x.num = false) (hw : (d.drainAll c).writesOwed c x.num = false) :
    ysyncBody c x d = .ok ((d.drainAll c).modSeq c fun q => { q with hold := none }) := by
  simp [ysyncBody, ho, hw]

/-- Only a DRAINING job settles. -/
theorem settleYield_of_not_draining (hj : d.job j = some v) (hs : v.state ≠ .draining) : settleYield d j = d := by
  simp [settleYield, hj, hs]

/-- HALT stops a core of which nothing else is under way; its job ends where the others have halted. -/
theorem haltBody_stops (hw : ((d.regs c).waiting.any fun y => y.num != x.num) = false) (hq : d.quiet c = true)
    (hj : d.jobOf c = some (j, v)) : haltBody c x d =
      let e := ((((d.drainAll c).modSeq c fun q => { q with stat := .halted }).progress v.paddock).setJob j
        { v with halted := v.halted ++ [c] })
      .ok (if v.cores.all fun k => k == c || v.halted.contains k then e.endJob j 0 else settleYield e j) := by
  have hj' : ((d.drainAll c).modSeq c fun q => { q with stat := .halted }).jobOf c = some (j, v) :=
    (Device.jobOf_congr (by simp [Device.drainAll_core]) (by simp)).trans hj
  simp only [haltBody, hw, hq, hj']
  rfl

/-- Progress counts for the Paddock of the core's job (R464). -/
theorem jobProgress_modSeq (hj : d.jobOf c = some (j, v)) (f : Sequencer → Sequencer) :
    (d.modSeq c f).jobProgress c = (d.modSeq c f).progress v.paddock := by
  have hj' : (d.modSeq c f).jobOf c = some (j, v) := (Device.jobOf_congr (by simp) (by simp)).trans hj
  simp only [Device.jobProgress, hj']

end

/-! ### CORE_YIELD (R184, R189) -/

namespace Device
section
variable (d : Device) (c : Nat)

/-- The job of a core, and whether its sequencer runs. -/
def standing : Option Nat × SeqStat := ((d.core c).job, (d.core c).sq.stat)

theorem standing_modCore (n : Nat) (f : Core → Core) : (d.modCore n f).standing c =
    if n = c then ((f (d.core n)).job, (f (d.core n)).sq.stat) else d.standing c := by
  simp only [standing, core, modCore, setCore, Table.get_set]
  split <;> rfl

theorem setJob_standing (j : Nat) (v : Job) : (d.setJob j v).standing c = d.standing c := rfl

theorem requestPreempt_standing (k : Nat) (b : Option Nat) : (d.requestPreempt k b).standing c = d.standing c := by
  unfold requestPreempt
  split
  · rfl
  · split
    · refine (foldl_part (φ := (standing · c)) (fun e n => ?_) _ _)
      split
      · rw [standing_modCore]
        split
        · next h => subst h; rfl
        · rfl
      · rfl
    · rfl

theorem consider_standing (p : Nat) : (d.consider p).standing c = d.standing c := by
  unfold consider
  split
  · rfl
  · split
    · rfl
    · split
      · rfl
      · exact foldl_part (φ := (standing · c)) (fun _ _ => requestPreempt_standing ..) _ _

theorem requestPreempt_saved (k : Nat) (b : Option Nat) : (d.requestPreempt k b).saved = d.saved := by
  unfold requestPreempt
  split
  · rfl
  · split
    · exact foldl_part (φ := Device.saved) (fun e n => by split <;> rfl) _ _
    · rfl

theorem consider_saved (p : Nat) : (d.consider p).saved = d.saved := by
  unfold consider
  split
  · rfl
  · split
    · rfl
    · split
      · rfl
      · exact foldl_part (φ := Device.saved) (fun _ _ => requestPreempt_saved ..) _ _

/-- The cores of a YIELDED job that have halted leave it. -/
def freeHalted (j : Nat) (l : List Nat) : Device :=
  l.foldl (fun d k => d.modCore k fun x => { x with job := if x.job = some j then none else x.job }) d

theorem freeHalted_saved (j : Nat) (l : List Nat) : (d.freeHalted j l).saved = d.saved := by
  induction l generalizing d with
  | nil => rfl
  | cons k r ih => exact ih _

/-- A core that belongs to no job stays so. -/
theorem freeHalted_standing {s : SeqStat} (j : Nat) (l : List Nat) (h : d.standing c = (none, s)) :
    (d.freeHalted j l).standing c = (none, s) := by
  induction l generalizing d with
  | nil => exact h
  | cons k r ih =>
    refine ih _ ?_
    rw [standing_modCore]
    split
    · next hk => subst hk; simp_all [standing]
    · exact h

end
end Device

theorem settleYield_eq (d : Device) (j : Nat) : settleYield d j = d ∨ ∃ v w, settleYield d j = (d.setJob j v).freeHalted j w := by
  unfold settleYield
  split
  · exact .inl rfl
  · split
    · exact .inr ⟨_, _, rfl⟩
    · exact .inl rfl

theorem settleYield_saved (d : Device) (j : Nat) : (settleYield d j).saved = d.saved := by
  obtain h | ⟨v, w, h⟩ := settleYield_eq d j
  · rw [h]
  · rw [h, Device.freeHalted_saved]; rfl

theorem settleYield_standing {d : Device} {c : Nat} {s : SeqStat} (j : Nat) (h : d.standing c = (none, s)) :
    (settleYield d j).standing c = (none, s) := by
  obtain h' | ⟨v, w, h'⟩ := settleYield_eq d j
  · rw [h', h]
  · rw [h']; exact Device.freeHalted_standing _ c j w h

/-- A drained core yields: its frame holds its state, and it belongs to no job (R184). -/
theorem yieldCore_yields {d : Device} {c j : Nat} {v : Job} (hd : d.drained c = true) (hf : d.frozen c = false)
    (hj : d.jobOf c = some (j, v)) :
    (d.yieldCore c).saved = Table.put d.saved c (d.savedOf c j :: Table.get d.saved [] c) ∧
      (d.yieldCore c).standing c = (none, .yielded) := by
  unfold Device.yieldCore
  rw [if_neg (by simp [hd, hf]), hj]
  dsimp -zeta only
  extract_lets d1 d2 d3 d4 d5 d6
  have hown : d1.savedOf c j = d.savedOf c j := by simp only [Device.savedOf, d1, Device.traceRec_core, Device.drainAll_core]
  have hold : d1.saved = d.saved := by simp [d1]
  have hled : d5.ledger = d2.ledger := (Device.ledger_setCore ..).trans (by simp [d4, d3])
  have hst : d5.standing c = (none, .yielded) := (Device.standing_modCore ..).trans (if_pos rfl)
  constructor
  · refine (Device.consider_saved d6 _).trans ((settleYield_saved _ j).trans ((Device.setJob_saved ..).trans ?_))
    rw [Device.saved_of_ledger hled]
    simp only [d2, hown, hold]
  · exact (Device.consider_standing d6 c _).trans (settleYield_standing j ((Device.setJob_standing ..).trans hst))

/-! ### TRAP (R189, R190) -/

/-- A core that has not trapped records the trap before its job ends, which the records of trace and ring leave alone. -/
theorem trapCore_ends {d : Device} {c j : Nat} {v : Job} (hj : d.jobOf c = some (j, v)) (hs : (d.regs c).stat ≠ .trapped)
    (code : Code) (bundle : Nat) (sl : Slot) (info : W64) :
    let t : Trap := { code := code, bundle := bundle, slot := slotNum sl, info := info }
    let t' := d.modSeq c fun q => { q with stat := .trapped, trap := some t }
    ∃ e : Device, e.cores = t'.cores ∧ e.jobs = t'.jobs ∧ d.trapCore c code bundle sl info = e.endJob j code := by
  simp only [Device.trapCore, if_neg hs, hj]
  exact ⟨_, by simp, by simp, rfl⟩

/-- Settles O17: by what each instruction's body answers, and for a yield and the end of a job by the parts that the steps after the
deciding write leave. -/
theorem endingResults : Obligations.EndingResults := by
  unfold Obligations.EndingResults
  refine ⟨?ysync, ?halt, ?kerf, ?yield, ?trap, Device.endJob_job⟩
  case ysync =>
    intro s c x h ho hw
    obtain ⟨-, -, hslot, hop, -⟩ := Device.mayIssue_iff.1 h
    refine ⟨Device.onUnit_completed h (ysyncBody_goesOn ho hw) rfl, ?_⟩
    rw [Device.completed_eq_retired (hslot ▸ Device.kpMarked_c hop) (Device.traceOf_c hslot hop)]
    exact ⟨Device.drainAll_merge .., Device.retired_hold_none (by simp [Device.regs])⟩
  case halt =>
    intro s c x j v h hw hq hj
    refine ⟨fun hall hst => ?_, fun hall => ?_⟩
    · refine Device.onUnit_completed h ((haltBody_stops hw hq hj).trans ?_) rfl
      simp only [hall, Bool.false_eq_true, if_false]
      exact congrArg Issue.ok (settleYield_of_not_draining (Device.setJob_job_same ..) hst)
    · refine Device.onUnit_completed h ((haltBody_stops hw hq hj).trans ?_) rfl
      simp only [hall, if_true]
  case kerf =>
    intro s c x j v h hj
    refine ⟨fun hp => ?_, fun hp hb => ?_, fun hp hb => ?_⟩
    · refine Device.onUnit_completed h ?_ rfl
      simp only [kerfBody, hp, jobProgress_modSeq hj]
      rfl
    · refine Device.onUnit_completed h ?_ rfl
      simp only [kerfBody, hp, hb]
      rfl
    · refine Device.onUnit_completed h ?_ rfl
      simp only [kerfBody, hp, hb, jobProgress_modSeq hj]
      rfl
  case yield =>
    intro s c j v hc hd hf hj
    obtain ⟨hsaved, hst⟩ := yieldCore_yields hd hf hj
    refine ⟨_, onUnit_next _ _ hc, ?_, congrArg Prod.snd hst, congrArg Prod.fst hst⟩
    rw [hsaved, Table.get_put_same]
  case trap =>
    intro s c x j v h hj t d
    have hst : (s.dev.regs c).stat ≠ .trapped := by
      obtain ⟨-, -, -, -, hi, -⟩ := Device.mayIssue_iff.1 h
      rintro hs
      simp [Sequencer.issues, hs] at hi
    obtain ⟨e, hc, hjobs, he⟩ := trapCore_ends hj hst 0x0807 x.bundle .c (BitVec.ofNat 64 (bits x.word 47 32))
    refine ⟨e, hc, hjobs, ?_⟩
    rw [← he]
    exact (onUnit_next _ _ (Device.mayIssue_iff.1 h).1).trans (by rw [Device.issue_trap h rfl])

end Sys2Proof.Machine
end

section
/-! PROOF. A refused statement about the Drover: the accounts of a share table that lists a group twice (spec 11: R356). -/

namespace Sys2Proof.Machine

/-! ### Accounts of a table that lists no group twice -/

theorem Table.get_eq_default_of_not_mem {α : Type} {t : Table α} {d : α} {i : Nat} (h : i ∉ t.map (·.1)) : Table.get t d i = d := by
  induction t with
  | nil => rfl
  | cons kv r ih =>
    obtain ⟨hk, hr⟩ := not_or.1 (fun hm => h (List.mem_cons.2 hm))
    rw [Table.get, if_neg (Ne.symm hk), ih hr]

/-- In a table that lists no number twice a change of every entry that keeps the default changes what each number reads. -/
theorem Table.get_mapAll {α : Type} [DecidableEq α] {t : Table α} {d : α} {f : α → α} (hf : f d = d)
    (h : (t.map (·.1)).Nodup) (i : Nat) : Table.get (Table.mapAll t d f) d i = f (Table.get t d i) := by
  induction t with
  | nil => exact hf.symm
  | cons kv r ih =>
    obtain ⟨k, v⟩ := kv
    obtain ⟨hk, hr⟩ := List.nodup_cons.1 h
    have ih := ih hr
    have hcons : Table.mapAll ((k, v) :: r) d f = if f v = d then Table.mapAll r d f else (k, f v) :: Table.mapAll r d f := by
      by_cases hd : f v = d <;> simp [Table.mapAll, hd]
    rw [hcons, Table.get]
    by_cases hi : k = i
    · subst hi
      have hlast : Table.get (Table.mapAll r d f) d k = d := by
        rw [ih, Table.get_eq_default_of_not_mem hk, hf]
      rw [if_pos rfl]
      split
      · next hd => rw [hlast, hd]
      · rw [Table.get, if_pos rfl]
    · rw [if_neg hi, ← ih]
      split
      · rfl
      · rw [Table.get, if_neg hi]

/-- The smallest active account is taken off every account of a table that lists no group twice (R356). -/
theorem acct_normalise {d : Device} {p m : Nat} (hm : d.leastAcct p none = some m) (h : ((d.pdk p).shares.map (·.1)).Nodup) (g : Nat) :
    ((Device.normalise p d).share p g).acct = (d.share p g).acct - m := by
  simp only [Device.normalise, hm, Device.share, Device.modPdk, Device.setPdk_pdk_same]
  rw [Table.get_mapAll (by simp [Share.reset]) h]

/-! ### A table that lists a group twice -/

/-- Job 0 runs in Paddock 0, whose share table lists group 0 with account 5, and again with account 7. -/
def twiceListed : State := { pending := [], dev := { Device.reset with
  jobs := [(0, strayJob [] [])]
  pdks := [(0, { Pdk.reset with shares := [(0, { Share.reset with acct := 5 }), (0, { Share.reset with acct := 7 })] })] } }

theorem leastAcct_twiceListed : twiceListed.dev.leastAcct 0 none = some 5 := by decide

theorem acct_twiceListed : (twiceListed.dev.share 0 0).acct = 5 := by decide

/-- The first entry becomes the default and is dropped, so that the second is read. -/
theorem acct_normalise_twiceListed : ((Device.normalise 0 twiceListed.dev).share 0 0).acct = 2 := by decide

/-- Refutes O45: its clause about ACCOUNT_NORMALISE asks, from any state, that each account read less by the smallest. Where a share
table lists a group twice, as in `twiceListed`, the first entry can come to equal the default and is dropped, and the account of the
second is read: 2 for 5 - 5. The tables that the model writes list no number twice, so such a state is one to start from and not one
that a run meets; from a table that lists no group twice the clause holds (`acct_normalise`). -/
theorem not_droverResults : ¬ Obligations.DroverResults := by
  rintro ⟨-, -, -, -, hnorm, -⟩
  obtain ⟨t, ht, hacct⟩ := hnorm twiceListed 0 5 (by decide) leastAcct_twiceListed
  have hdev : t = { twiceListed with dev := Device.normalise 0 twiceListed.dev } :=
    Host.Outcome.next.inj (ht.symm.trans (onUnit_next (n := 6) (i := 0) _ (Device.normalise 0) (by decide)))
  have h := hacct 0
  rw [hdev, acct_normalise_twiceListed, acct_twiceListed] at h
  exact absurd h (by decide)

end Sys2Proof.Machine
end

section
/-! PROOF. A Yard slice as its readers get it: blocks through the remap table, the merge buffer, and what a write changes (spec 06:
R171; spec 07: R206, R209 to R217). -/

namespace Sys2Proof.Machine

/-! ### Bits of blocks, words and bytes -/

theorem getLsbD_ofNat_bits {w n : Nat} (x : BitVec w) (m l i : Nat) (hi : i < n) :
    (BitVec.ofNat n (bits x m l)).getLsbD i = (decide (i < m + 1 - l) && x.getLsbD (l + i)) := by
  simp only [bits, BitVec.getLsbD_ofNat, hi, decide_true, Bool.true_and, Nat.testBit_mod_two_pow, Nat.testBit_shiftRight,
    BitVec.testBit_toNat]

/-- Bit `i` of the number that bytes hold is a bit of one byte. -/
theorem testBit_ofBytes (l : List Byte) (i : Nat) : (ofBytes l).testBit i = (l.getD (i / 8) 0).getLsbD (i % 8) := by
  induction l generalizing i with
  | nil => simp [ofBytes]
  | cons b r ih =>
    have hb : b.toNat < 2 ^ 8 := b.isLt
    rw [ofBytes, Nat.add_comm, show 256 = 2 ^ 8 from rfl, Nat.testBit_two_pow_mul_add _ hb]
    split
    · next h => rw [Nat.div_eq_of_lt h, Nat.mod_eq_of_lt h]; rfl
    · next h =>
      rw [ih, show i / 8 = (i - 8) / 8 + 1 by omega, show (i - 8) % 8 = i % 8 by omega]
      rfl

theorem getLsbD_mixBytes (old new : Block256) (mask : W32) {i : Nat} (hi : i < 256) :
    (Device.mixBytes old new mask).getLsbD i = if mask.getLsbD (i / 8) then new.getLsbD i else old.getLsbD i := by
  have h8 : i / 8 < 32 := by omega
  have hbit : (255#8).getLsbD (i % 8) = true := by
    have : i % 8 < 8 := Nat.mod_lt _ (by decide)
    interval_cases i % 8 <;> rfl
  simp only [Device.mixBytes, BitVec.getLsbD_or, BitVec.getLsbD_and, BitVec.getLsbD_not, BitVec.getLsbD_ofNat, testBit_ofBytes, hi,
    List.getD_eq_getElem?_getD, List.getElem?_map, List.getElem?_range h8, Option.map_some, Option.getD_some]
  by_cases hm : mask.getLsbD (i / 8) <;> simp [hm, hbit]

/-- Byte `k` of a block. -/
def blkByte (x : Block256) (k : Nat) : Byte := BitVec.ofNat 8 (bits x (8 * k + 7) (8 * k))

theorem getLsbD_blkByte (x : Block256) (k : Nat) {i : Nat} (hi : i < 8) : (blkByte x k).getLsbD i = x.getLsbD (8 * k + i) := by
  rw [blkByte, getLsbD_ofNat_bits _ _ _ _ hi, decide_eq_true (by omega), Bool.true_and]

theorem blkByte_mixBytes (old new : Block256) (mask : W32) {k : Nat} (hk : k < 32) :
    blkByte (Device.mixBytes old new mask) k = if mask.getLsbD k then blkByte new k else blkByte old k := by
  refine BitVec.eq_of_getLsbD_eq fun i hi => ?_
  rw [getLsbD_blkByte _ _ hi, getLsbD_mixBytes _ _ _ (by omega), show (8 * k + i) / 8 = k by omega]
  split <;> rw [getLsbD_blkByte _ _ hi]

/-- A mask of every byte takes the new data. -/
theorem mixBytes_allOnes (old new : Block256) : Device.mixBytes old new (BitVec.allOnes 32) = new := by
  refine BitVec.eq_of_getLsbD_eq fun i hi => ?_
  rw [getLsbD_mixBytes _ _ _ hi, BitVec.getLsbD_allOnes, decide_eq_true (by omega), if_pos rfl]

theorem getLsbD_wordOf (x : Block256) (k : Nat) {i : Nat} (hi : i < 32) : (wordOf x k).getLsbD i = x.getLsbD (32 * k + i) := by
  rw [wordOf, getLsbD_ofNat_bits _ _ _ _ hi, decide_eq_true (by omega), Bool.true_and]

theorem getLsbD_withWord (x : Block256) {k : Nat} (v : W32) {i : Nat} (hi : i < 256) :
    (withWord x k v).getLsbD i = if i / 32 = k then v.getLsbD (i % 32) else x.getLsbD i := by
  simp only [withWord, BitVec.getLsbD_or, BitVec.getLsbD_and, BitVec.getLsbD_not, BitVec.getLsbD_ofNat, hi, decide_true, Bool.true_and,
    Nat.testBit_mul_two_pow, Nat.testBit_two_pow_sub_one, BitVec.testBit_toNat]
  rcases Nat.lt_trichotomy (i / 32) k with h | h | h
  · have h1 : ¬ 32 * k ≤ i := by omega
    simp [h1, h.ne]
  · have h1 : 32 * k ≤ i := by omega
    have h2 : i - 32 * k < 32 := by omega
    have h3 : i - 32 * k = i % 32 := by omega
    simp [h1, h, h3, show i % 32 < 32 by omega]
  · have h1 : 32 * k ≤ i := by omega
    have h2 : ¬ i - 32 * k < 32 := by omega
    simp [h1, h2, h.ne', BitVec.getLsbD_of_ge v (i - 32 * k) (by omega)]

/-! ### A block through the remap table (R217) -/

/-- The cell of a block that a remap entry's word names: one of its eight words, or its check word. -/
def cellOf (w : Nat) : Nat := if w < 16 then w % 8 else 8

/-- What a block holds in the cell of a word, and the block with that cell replaced. -/
def Blk.cell (k : Blk) (w : Nat) : W32 := if w < 16 then wordOf k.data (w % 8) else k.chk
def Blk.withCell (k : Blk) (w : Nat) (v : W32) : Blk :=
  if w < 16 then { k with data := withWord k.data (w % 8) v } else { k with chk := v }

theorem Blk.cell_congr (k : Blk) {w w' : Nat} (h : cellOf w = cellOf w') : k.cell w = k.cell w' := by
  unfold cellOf at h
  unfold Blk.cell
  split at h <;> split at h
  · next hw hw' => rw [if_pos hw, if_pos hw', h]
  · omega
  · omega
  · next hw hw' => rw [if_neg hw, if_neg hw']

theorem wordOf_withWord (x : Block256) {k j : Nat} (v : W32) (hj : j < 8) :
    wordOf (withWord x k v) j = if k = j then v else wordOf x j := by
  refine BitVec.eq_of_getLsbD_eq fun i hi => ?_
  rw [getLsbD_wordOf _ _ hi, getLsbD_withWord _ _ (by omega), show (32 * j + i) / 32 = j by omega,
    show (32 * j + i) % 32 = i by omega]
  by_cases h : k = j
  · rw [if_pos h.symm, if_pos h]
  · rw [if_neg (Ne.symm h), if_neg h, getLsbD_wordOf _ _ hi]

theorem Blk.cell_withCell (k : Blk) (w w' : Nat) (v : W32) :
    (k.withCell w v).cell w' = if cellOf w = cellOf w' then v else k.cell w' := by
  have h8 : ∀ n, n % 8 < 8 := fun n => Nat.mod_lt n (by decide)
  unfold Blk.withCell Blk.cell cellOf
  by_cases hw : w < 16 <;> by_cases hw' : w' < 16
  · simp only [if_pos hw, if_pos hw', wordOf_withWord _ _ (h8 w')]
  · simp only [if_pos hw, if_neg hw', if_neg (h8 w).ne]
  · simp only [if_neg hw, if_pos hw', if_neg (h8 w').ne']
  · simp only [if_neg hw, if_neg hw', if_true]

/-- A block is its cells. -/
theorem Blk.ext_cell {k k' : Blk} (h : ∀ w, k.cell w = k'.cell w) : k = k' := by
  obtain ⟨x, y⟩ := k
  obtain ⟨x', y'⟩ := k'
  have hchk : y = y' := h 16
  have hdata : x = x' := BitVec.eq_of_getLsbD_eq fun i hi => by
    have hcell : wordOf x (i / 32) = wordOf x' (i / 32) := by
      simpa [Blk.cell, show i / 32 < 16 by omega, Nat.mod_eq_of_lt (show i / 32 < 8 by omega)] using h (i / 32)
    have hbit := congrArg (BitVec.getLsbD · (i % 32)) hcell
    simpa only [getLsbD_wordOf _ _ (Nat.mod_lt i (by decide : 0 < 32)), Nat.div_add_mod] using hbit
  rw [hchk, hdata]

/-- The cells of the entries `es`, as another block holds them. -/
def Blk.patch (k : Blk) (es : List Remap) (u : Blk) : Blk := es.foldl (fun k e => k.withCell e.word (u.cell e.word)) k

theorem Blk.cell_patch (k : Blk) (es : List Remap) (u : Blk) (w : Nat) :
    (k.patch es u).cell w = if ∃ e ∈ es, cellOf e.word = cellOf w then u.cell w else k.cell w := by
  induction es generalizing k with
  | nil => simp [Blk.patch]
  | cons e r ih =>
    rw [Blk.patch, List.foldl_cons]
    refine (ih _).trans ?_
    by_cases hr : ∃ e ∈ r, cellOf e.word = cellOf w
    · obtain ⟨x, hx, hc⟩ := hr
      rw [if_pos ⟨x, hx, hc⟩, if_pos ⟨x, List.mem_cons_of_mem _ hx, hc⟩]
    · rw [if_neg hr, Blk.cell_withCell]
      by_cases he : cellOf e.word = cellOf w
      · rw [if_pos he, if_pos ⟨e, List.mem_cons_self, he⟩, Blk.cell_congr u he]
      · rw [if_neg he, if_neg]
        rintro ⟨x, hx, hc⟩
        rcases List.mem_cons.1 hx with rfl | hx
        · exact he hc
        · exact hr ⟨x, hx, hc⟩

/-- What a patch takes from a block another patch gives back. -/
theorem Blk.patch_patch (v : Blk) (es : List Remap) (u : Blk) : (v.patch es u).patch es v = v := by
  refine Blk.ext_cell fun w => ?_
  rw [Blk.cell_patch, Blk.cell_patch]
  split <;> rfl

/-- The remap entry acts on block `b`. -/
def Remap.actsOn (e : Remap) (b : Nat) : Bool :=
  e.bank == yardBank (32 * b) && e.row == yardRow (32 * b) && (if e.word < 16 then e.word / 8 == b % 2 else e.word - 16 == b % 2)

theorem Slice.remapsOf_eq (s : Slice) (b : Nat) : s.remapsOf b = s.remap.filter (·.actsOn b) := rfl

theorem Remap.actsOn_of_mem {s : Slice} {b : Nat} {e : Remap} (h : e ∈ s.remapsOf b) : e.actsOn b = true := (List.mem_filter.1 h).2

/-- The entry after a write of `v` to block `b`: its spare takes the word. -/
def Remap.written (b : Nat) (v : Blk) (e : Remap) : Remap := if e.actsOn b then { e with spare := v.cell e.word } else e

theorem Remap.written_actsOn (b b' : Nat) (v : Blk) (e : Remap) : (e.written b v).actsOn b' = e.actsOn b' := by
  unfold Remap.written
  split <;> rfl

theorem Slice.block_eq (s : Slice) (b : Nat) : s.block b =
    (s.remapsOf b).foldl (fun k e => k.withCell e.word e.spare) (Table.get s.data Blk.reset b) := rfl

theorem Slice.putBlock_data (s : Slice) (b : Nat) (v : Blk) : (s.putBlock b v).data =
    Table.set s.data Blk.reset b (v.patch (s.remapsOf b) (Table.get s.data Blk.reset b)) := by
  have h : ∀ (k : Blk) (e : Remap), (if e.word < 16 then
      ({ k with data := withWord k.data (e.word % 8) (wordOf (Table.get s.data Blk.reset b).data (e.word % 8)) } : Blk)
      else { k with chk := (Table.get s.data Blk.reset b).chk }) = k.withCell e.word ((Table.get s.data Blk.reset b).cell e.word) := by
    intro k e
    unfold Blk.withCell Blk.cell
    split <;> rfl
  unfold Slice.putBlock Blk.patch
  simp only [h]

theorem Slice.putBlock_remap (s : Slice) (b : Nat) (v : Blk) : (s.putBlock b v).remap = s.remap.map (Remap.written b v) := by
  refine List.map_congr_left fun e he => ?_
  have hmem : (s.remapsOf b).contains e = e.actsOn b := by
    rw [Slice.remapsOf_eq, Bool.eq_iff_iff, List.contains_iff_mem, List.mem_filter]
    simp [he]
  rw [hmem]
  rfl

theorem Slice.remapsOf_putBlock (s : Slice) (b b' : Nat) (v : Blk) :
    (s.putBlock b v).remapsOf b' = (s.remapsOf b').map (Remap.written b v) := by
  simp only [Slice.remapsOf_eq, Slice.putBlock_remap, List.filter_map]
  congr 1
  exact List.filter_congr fun e _ => Remap.written_actsOn b b' v e

/-- A block that is written reads as written, through any remap entries. -/
@[simp] theorem Slice.block_putBlock_same (s : Slice) (b : Nat) (v : Blk) : (s.putBlock b v).block b = v := by
  have hwritten : ∀ (k : Blk) (e : Remap), e ∈ s.remapsOf b →
      k.withCell (e.written b v).word (e.written b v).spare = k.withCell e.word (v.cell e.word) := by
    intro k e he
    rw [Remap.written, if_pos (Remap.actsOn_of_mem he)]
  rw [Slice.block_eq, Slice.remapsOf_putBlock, Slice.putBlock_data, Table.get_set_same, List.foldl_map]
  exact (List.foldl_ext _ _ _ hwritten).trans (Blk.patch_patch v _ _)

/-- The blocks of a slice lie in different words of its banks (R198). -/
theorem yardPlace_inj {b b' : Nat} (hb : b < 2 ^ 21) (hb' : b' < 2 ^ 21) (hbank : yardBank (32 * b) = yardBank (32 * b'))
    (hrow : yardRow (32 * b) = yardRow (32 * b')) (hpar : b % 2 = b' % 2) : b = b' := by
  have hport : ∀ x, yardPort x < 16 := fun x => by
    have h : ∀ n, n % 16 < 2 ^ 4 := fun n => Nat.mod_lt n (by decide)
    exact Nat.xor_lt_two_pow (Nat.xor_lt_two_pow (Nat.xor_lt_two_pow (h _) (h _)) (h _)) (h _)
  have h1 := hport (32 * b)
  have h2 := hport (32 * b')
  unfold yardBank at hbank
  have hgroup : 32 * b / 2 ^ 22 % 16 = 32 * b' / 2 ^ 22 % 16 := by omega
  have hp : yardPort (32 * b) = yardPort (32 * b') := by omega
  unfold yardRow at hrow
  have hlow : 32 * b / 64 % 65536 % 16 = 32 * b' / 64 % 65536 % 16 := by
    unfold yardPort at hp
    have e1 : ∀ n, n / 256 = n / 16 / 16 := fun n => by omega
    have e2 : ∀ n, n / 4096 = n / 16 / 256 := fun n => by omega
    simp only [e1, e2, hrow, Nat.xor_assoc] at hp
    exact Nat.xor_left_injective hp
  omega

/-- No remap entry acts on two blocks. -/
theorem Remap.eq_of_actsOn {e : Remap} {b b' : Nat} (hb : b < 2 ^ 21) (hb' : b' < 2 ^ 21) (h : e.actsOn b = true)
    (h' : e.actsOn b' = true) : b = b' := by
  simp only [Remap.actsOn, Bool.and_eq_true, beq_iff_eq] at h h'
  obtain ⟨⟨hbank, hrow⟩, hpar⟩ := h
  obtain ⟨⟨hbank', hrow'⟩, hpar'⟩ := h'
  refine yardPlace_inj hb hb' (hbank ▸ hbank') (hrow ▸ hrow') ?_
  split at hpar
  · next hw =>
    rw [if_pos hw] at hpar'
    rw [← beq_iff_eq.1 hpar, beq_iff_eq.1 hpar']
  · next hw =>
    rw [if_neg hw] at hpar'
    rw [← beq_iff_eq.1 hpar, beq_iff_eq.1 hpar']

/-- A write of a block leaves the others. -/
theorem Slice.block_putBlock_ne (s : Slice) {b b' : Nat} (v : Blk) (hb : b < 2 ^ 21) (hb' : b' < 2 ^ 21) (h : b ≠ b') :
    (s.putBlock b v).block b' = s.block b' := by
  have hkeep : ∀ e ∈ s.remapsOf b', e.written b v = e := by
    intro e he
    exact if_neg fun hacts => h (Remap.eq_of_actsOn hb hb' hacts (Remap.actsOn_of_mem he))
  rw [Slice.block_eq, Slice.remapsOf_putBlock, List.map_congr_left hkeep, List.map_id', Slice.putBlock_data, Table.get_set_ne _ _ _ h,
    Slice.block_eq]


/-! ### What a reader gets of a block (R210, R211) -/

theorem checkGuarded_of (x : Block256) : checkGuarded (Blk.of true x) = .good := by
  simp [checkGuarded, Blk.of, checkBits]

/-- A block written in its mode passes its check. -/
theorem checkBlk_of (g : Bool) (x : Block256) : checkBlk g (Blk.of g x) = .good := by
  cases g
  · simp [checkBlk, checkPlain, Blk.of, checkBits]
  · exact checkGuarded_of x

/-- A poisoned block fails its check (R212). -/
theorem checkGuarded_poisoned (x : Block256) : checkGuarded (Blk.poisoned x) = .bad true := by
  have h : (~~~ guardedCheck x) ^^^ guardedCheck x = BitVec.allOnes 32 := by
    rw [← BitVec.not_xor_left, BitVec.xor_self]; rfl
  unfold checkGuarded Blk.poisoned
  rw [h]
  rfl

/-- The data of a block as a reader gets them: mended where its region is GUARDED. -/
def Blk.read (g : Bool) (k : Blk) : Block256 :=
  if g then (match checkGuarded k with
    | .mended x => x.data
    | _ => k.data) else k.data

@[simp] theorem Blk.read_false (k : Blk) : k.read false = k.data := rfl

theorem Blk.read_of_good {k : Blk} (h : checkGuarded k = .good) : k.read true = k.data := by simp [Blk.read, h]
theorem Blk.read_of_mended {k x : Blk} (h : checkGuarded k = .mended x) : k.read true = x.data := by simp [Blk.read, h]
theorem Blk.read_of_bad {k : Blk} {p : Bool} (h : checkGuarded k = .bad p) : k.read true = k.data := by simp [Blk.read, h]

@[simp] theorem Blk.read_of (g : Bool) (x : Block256) : (Blk.of g x).read g = x := by
  cases g
  · rfl
  · rw [Blk.read_of_good (checkGuarded_of x)]; rfl
@[simp] theorem Blk.read_poisoned (x : Block256) : (Blk.poisoned x).read true = x := Blk.read_of_bad (checkGuarded_poisoned x)

/-- The data of block `b` below the merge buffer, as a reader gets them. -/
def Slice.stored (s : Slice) (b : Nat) : Block256 := (s.block b).read (s.guardedAt (32 * b))

/-- The data of block `b` through the merge buffer. -/
def Slice.merged (s : Slice) (b : Nat) : Block256 :=
  match s.merge.find? fun m => m.block == b with
  | some m => Device.mixBytes (s.stored b) m.data m.mask
  | none => s.stored b

/-- The entry found for a block is of that block. -/
theorem block_of_find? {l : List Merge} {b : Nat} {x : Merge} (h : l.find? (fun z => z.block == b) = some x) : x.block = b := by
  simpa using List.find?_some h

theorem Slice.byteAt_eq (s : Slice) (a : Nat) : s.byteAt a = blkByte (s.merged (a / 32)) (a % 32) := by
  unfold Slice.byteAt Slice.merged
  dsimp only
  cases s.merge.find? fun m => m.block == a / 32 with
  | none => rfl
  | some m => exact (blkByte_mixBytes _ _ _ (Nat.mod_lt a (by decide))).symm

/-! ### The drain of a merge entry (R215) -/

/-- The two slices hold the same below their merge buffers. -/
structure Slice.SameCells (s t : Slice) : Prop where
  data : t.data = s.data
  remap : t.remap = s.remap
  regions : t.regions = s.regions

namespace Slice.SameCells
variable {s t u : Slice}

theorem refl (s : Slice) : SameCells s s := ⟨rfl, rfl, rfl⟩
theorem trans (h : SameCells s t) (k : SameCells t u) : SameCells s u :=
  ⟨k.data.trans h.data, k.remap.trans h.remap, k.regions.trans h.regions⟩

theorem block (h : SameCells s t) (b : Nat) : t.block b = s.block b := by
  simp only [Slice.block, Slice.remapsOf, h.data, h.remap]
theorem guardedAt (h : SameCells s t) (a : Nat) : t.guardedAt a = s.guardedAt a := by
  simp only [Slice.guardedAt, Slice.regionAt, h.regions]
theorem stored (h : SameCells s t) (b : Nat) : t.stored b = s.stored b := by
  rw [Slice.stored, Slice.stored, h.block, h.guardedAt]
theorem putBlock (h : SameCells s t) (b : Nat) (v : Blk) : SameCells (s.putBlock b v) (t.putBlock b v) := by
  refine ⟨?_, ?_, h.regions⟩
  · rw [Slice.putBlock_data, Slice.putBlock_data, Slice.remapsOf_eq, Slice.remapsOf_eq, h.data, h.remap]
  · rw [Slice.putBlock_remap, Slice.putBlock_remap, h.remap]

end Slice.SameCells

@[simp] theorem Slice.putBlock_guardedAt (s : Slice) (b : Nat) (v : Blk) (a : Nat) : (s.putBlock b v).guardedAt a = s.guardedAt a := rfl
@[simp] theorem Slice.putBlock_merge (s : Slice) (b : Nat) (v : Blk) : (s.putBlock b v).merge = s.merge := rfl

theorem Slice.stored_putBlock (s : Slice) {b b' : Nat} (v : Blk) (hb : b < 2 ^ 21) (hb' : b' < 2 ^ 21) :
    (s.putBlock b v).stored b' = if b = b' then v.read (s.guardedAt (32 * b')) else s.stored b' := by
  unfold Slice.stored
  split
  · next h => rw [h, Slice.block_putBlock_same, Slice.putBlock_guardedAt]
  · next h => rw [Slice.block_putBlock_ne s v hb hb' h, Slice.putBlock_guardedAt]

namespace Device
variable (d : Device) (c : Nat)

theorem noteFaults_cells (b : Nat) (g : Bool) (ws : List Nat) : (d.slice c).SameCells ((d.noteFaults c b g ws).slice c) := by
  simp only [noteFaults, modSlice_eq, setSlice_slice_same]
  exact ⟨rfl, rfl, rfl⟩

theorem yardUe_cells (b cls : Nat) (q : Bool) : (d.slice c).SameCells ((d.yardUe c b cls q).slice c) := by
  unfold yardUe
  dsimp only
  rw [postDev_slice, setSlice_slice_same]
  split
  · exact ⟨rfl, rfl, rfl⟩
  · obtain ⟨hdata, hremap, hregions⟩ := d.noteFaults_cells c b false (plainFaults ((d.slice c).block b))
    exact ⟨hdata, hremap, hregions⟩

theorem yardMend_cells (b : Nat) : (d.slice c).SameCells ((d.yardMend c b).slice c) := by
  unfold yardMend
  dsimp only
  rw [setSlice_slice_same]
  split
  · next x _ =>
    obtain ⟨hdata, hremap, hregions⟩ := d.noteFaults_cells c b true [mendedWord ((d.slice c).block b) x]
    exact ⟨hdata, hremap, hregions⟩
  · exact ⟨rfl, rfl, rfl⟩

/-- A drain writes one block, whose reader then gets the entry's bytes, and the block's own elsewhere. -/
theorem drainEntry_cells (m : Merge) : ∃ v, ((d.slice c).putBlock m.block v).SameCells ((d.drainEntry c m).slice c) ∧
    v.read ((d.slice c).guardedAt (32 * m.block)) = mixBytes ((d.slice c).stored m.block) m.data m.mask := by
  unfold drainEntry
  extract_lets e s full s' old
  have hs : (d.slice c).SameCells s' := by
    have hask : (d.slice c).SameCells s := by
      simp only [s, e, askDrain, askPorts, modSlice_eq, setSlice_slice_same]
      exact ⟨rfl, rfl, rfl⟩
    refine hask.trans ?_
    cases hf : full <;> simp only [s', hf] <;> exact ⟨rfl, rfl, rfl⟩
  have hold : old = (d.slice c).block m.block := hs.block m.block
  have hg : s'.guardedAt (32 * m.block) = (d.slice c).guardedAt (32 * m.block) := hs.guardedAt _
  have hput : ∀ v, ((d.slice c).putBlock m.block v).SameCells ((e.setSlice c (s'.putBlock m.block v)).slice c) := fun v => by
    rw [setSlice_slice_same]; exact hs.putBlock _ _
  rw [hg, Slice.stored, ← hold]
  split
  · next hf =>
    refine ⟨_, hput _, ?_⟩
    rw [Blk.read_of, of_decide_eq_true hf, mixBytes_allOnes]
  · split
    · next hgd =>
      rw [hgd]
      split
      · next h => exact ⟨_, hput _, by rw [Blk.read_of, Blk.read_of_good h]⟩
      · next h => exact ⟨_, (hput _).trans (yardMend_cells ..), by rw [Blk.read_of, Blk.read_of_mended h]⟩
      · next h => exact ⟨_, (hput _).trans (yardUe_cells ..), by rw [Blk.read_poisoned, Blk.read_of_bad h]⟩
    · next hgd =>
      rw [Bool.eq_false_of_not_eq_true hgd]
      exact ⟨_, hput _, rfl⟩

theorem drainEntry_stored {m : Merge} {b : Nat} (hm : m.block < 2 ^ 21) (hb : b < 2 ^ 21) : ((d.drainEntry c m).slice c).stored b =
    if m.block = b then mixBytes ((d.slice c).stored b) m.data m.mask else (d.slice c).stored b := by
  obtain ⟨v, hcells, hread⟩ := d.drainEntry_cells c m
  rw [hcells.stored, Slice.stored_putBlock _ _ hm hb]
  split
  · next h => rw [← h, hread]
  · rfl

/-! ### The other slices -/

section
variable {k : Nat} (hk : k ≠ c)
include hk

theorem noteFaults_slice_ne (b : Nat) (g : Bool) (ws : List Nat) : (d.noteFaults c b g ws).slice k = d.slice k :=
  setSlice_slice_ne _ _ _ hk.symm

theorem yardUe_slice_ne (b cls : Nat) (q : Bool) : (d.yardUe c b cls q).slice k = d.slice k := by
  unfold yardUe
  dsimp only
  rw [postDev_slice, setSlice_slice_ne _ _ _ hk.symm]
  split
  · rfl
  · exact noteFaults_slice_ne d c hk ..

theorem yardMend_slice_ne (b : Nat) : (d.yardMend c b).slice k = d.slice k := by
  unfold yardMend
  dsimp only
  rw [setSlice_slice_ne _ _ _ hk.symm]
  split
  · exact noteFaults_slice_ne d c hk ..
  · rfl

theorem drainEntry_slice_ne (m : Merge) : (d.drainEntry c m).slice k = d.slice k := by
  unfold drainEntry
  extract_lets e s full s' old
  have he : ∀ v, (e.setSlice c v).slice k = d.slice k := fun v =>
    (setSlice_slice_ne _ _ _ hk.symm).trans (setSlice_slice_ne _ _ _ hk.symm)
  split
  · exact he _
  · split
    · split
      · exact he _
      · exact (yardMend_slice_ne _ c hk _).trans (he _)
      · exact (yardUe_slice_ne _ c hk ..).trans (he _)
    · exact he _

theorem drainBlock_slice_ne (b : Nat) : (d.drainBlock c b).slice k = d.slice k := by
  unfold drainBlock
  split
  · exact (drainEntry_slice_ne _ c hk _).trans (setSlice_slice_ne _ _ _ hk.symm)
  · rfl

end

/-! ### The drain of a block -/

/-- The drained block is the merge buffer's no longer. -/
theorem drainBlock_merge (b : Nat) : ((d.drainBlock c b).slice c).merge = (d.slice c).merge.filter fun x => x.block != b := by
  unfold drainBlock
  split
  · rw [drainEntry_merge, modSlice_eq, setSlice_slice_same]
  · next h =>
    refine (List.filter_eq_self.2 fun x hx => ?_).symm
    simpa using List.find?_eq_none.1 h x hx

/-- A drain changes nothing that a reader gets. -/
theorem drainBlock_merged (hmerge : ∀ x ∈ (d.slice c).merge, x.block < 2 ^ 21) (b : Nat) {b' : Nat} (hb' : b' < 2 ^ 21) :
    ((d.drainBlock c b).slice c).merged b' = (d.slice c).merged b' := by
  cases hfind : (d.slice c).merge.find? fun m => m.block == b with
  | none => rw [drainBlock, hfind]
  | some m =>
    have hm : m.block = b := block_of_find? hfind
    have hstored : ((d.drainBlock c b).slice c).stored b' =
        if m.block = b' then mixBytes ((d.slice c).stored b') m.data m.mask else (d.slice c).stored b' := by
      rw [drainBlock, hfind]
      refine (drainEntry_stored _ c (hmerge m (List.mem_of_find?_eq_some hfind)) hb').trans ?_
      rw [modSlice_eq, setSlice_slice_same]
      rfl
    unfold Slice.merged
    rw [drainBlock_merge, hstored]
    by_cases hbb : b = b'
    · subst hbb
      rw [hfind, List.find?_eq_none.2 (by simp), if_pos hm]
    · have hkeep : ((d.slice c).merge.filter fun x => x.block != b).find? (fun m => m.block == b') =
          (d.slice c).merge.find? fun m => m.block == b' := by
        rw [List.find?_filter]
        congr 1
        funext x
        by_cases hx : x.block = b' <;> simp [hx, Ne.symm hbb]
      rw [hkeep, if_neg (hm ▸ hbb)]

end Device

/-! ### Writes of one block (R214, R215) -/

/-- A merge entry that a narrow write joins at grid cycle `now`. -/
def Merge.joined (x m : Merge) (now : Nat) : Merge :=
  { x with data := Device.mixBytes x.data m.data m.mask, mask := x.mask ||| m.mask, last := now }

/-- The entry that a write joins stays that of its block. -/
theorem Merge.joined_block {l : List Merge} {x m : Merge} (h : l.find? (fun z => z.block == m.block) = some x) (now : Nat) :
    (x.joined m now).block = m.block := block_of_find? (x := x) h

/-- The merge buffer once the entry of a block has become `y`. -/
def mergeJoin (l : List Merge) (b : Nat) (y : Merge) : List Merge := l.map fun z => if z.block == b then y else z

/-- Bytes of two writes, merged one after the other or together. -/
theorem mixBytes_mixBytes (old x y : Block256) (mx my : W32) :
    Device.mixBytes old (Device.mixBytes x y my) (mx ||| my) = Device.mixBytes (Device.mixBytes old x mx) y my := by
  refine BitVec.eq_of_getLsbD_eq fun i hi => ?_
  simp only [getLsbD_mixBytes _ _ _ hi, BitVec.getLsbD_or]
  cases my.getLsbD (i / 8) <;> simp

section
variable {l : List Merge} {b : Nat} {y : Merge} (hy : y.block = b)
include hy

theorem mergeJoin_block (z : Merge) : (if z.block == b then y else z).block = z.block := by
  split
  · next h => rw [hy, beq_iff_eq.1 h]
  · rfl

theorem map_block_mergeJoin : (mergeJoin l b y).map (·.block) = l.map (·.block) := by
  rw [mergeJoin, List.map_map]
  exact List.map_congr_left fun z _ => mergeJoin_block hy z

theorem find?_mergeJoin (b' : Nat) : (mergeJoin l b y).find? (fun z => z.block == b') =
    (l.find? fun z => z.block == b').map fun z => if z.block == b then y else z := by
  rw [mergeJoin, List.find?_map]
  congr 2
  funext z
  exact congrArg (· == b') (mergeJoin_block hy z)

end

namespace Device
variable {d : Device} {c : Nat} {m : Merge}

theorem writeBlock_full (h : m.mask = BitVec.allOnes 32) :
    d.writeBlock c m = d.setSlice c ((d.slice c).putBlock m.block (Blk.of ((d.slice c).guardedAt (32 * m.block)) m.data)) := if_pos h

/-- A narrow write into a block that an entry holds joins that entry, which drains when it is full. -/
theorem writeBlock_joins {x : Merge} (hnarrow : m.mask ≠ BitVec.allOnes 32)
    (hx : (d.slice c).merge.find? (fun z => z.block == m.block) = some x) :
    let e := d.setSlice c { d.slice c with merge := mergeJoin (d.slice c).merge m.block (x.joined m d.power.cycles) }
    d.writeBlock c m = if x.mask ||| m.mask = BitVec.allOnes 32 then e.drainBlock c m.block else e := by
  simp only [writeBlock, if_neg hnarrow, hx]
  rfl

/-- A narrow write into another block takes an entry of its own, for which the oldest makes room in a full buffer. -/
theorem writeBlock_enters (hnarrow : m.mask ≠ BitVec.allOnes 32)
    (hnone : (d.slice c).merge.find? (fun z => z.block == m.block) = none) :
    ∃ e : Device, (e = d ∧ (d.slice c).merge.length < 16 ∨ ∃ o ∈ (d.slice c).merge, e = d.drainBlock c o.block) ∧
      d.writeBlock c m = e.setSlice c { e.slice c with merge := (e.slice c).merge ++ [{ m with last := e.power.cycles }] } := by
  simp only [writeBlock, if_neg hnarrow, hnone]
  cases hl : (d.slice c).merge with
  | nil => exact ⟨d, .inl ⟨rfl, by decide⟩, rfl⟩
  | cons o r =>
    dsimp only
    split
    · exact ⟨_, .inr ⟨o, List.mem_cons_self, rfl⟩, rfl⟩
    · next h => exact ⟨d, .inl ⟨rfl, Nat.lt_of_not_le h⟩, rfl⟩

/-! ### What a narrow write changes -/

/-- A slice whose merge buffer gained an entry for `m` of a block that had none. -/
theorem merged_append {s : Slice} {m : Merge} (hnone : s.merge.find? (fun z => z.block == m.block) = none) (now b : Nat) :
    { s with merge := s.merge ++ [{ m with last := now }] }.merged b =
      if m.block = b then mixBytes (s.merged b) m.data m.mask else s.merged b := by
  have hstored : { s with merge := s.merge ++ [{ m with last := now }] }.stored b = s.stored b := rfl
  simp only [Slice.merged, hstored, List.find?_append]
  by_cases hb : m.block = b
  · subst hb
    simp [hnone]
  · cases s.merge.find? (fun z => z.block == b) <;> simp [hb]

/-- A slice in whose merge buffer `m` joined the entry of its block. -/
theorem merged_join {s : Slice} {m x : Merge} (hx : s.merge.find? (fun z => z.block == m.block) = some x) (now b : Nat) :
    { s with merge := mergeJoin s.merge m.block (x.joined m now) }.merged b =
      if m.block = b then mixBytes (s.merged b) m.data m.mask else s.merged b := by
  have hblock : x.block = m.block := block_of_find? hx
  have hstored : { s with merge := mergeJoin s.merge m.block (x.joined m now) }.stored b = s.stored b := rfl
  simp only [Slice.merged, hstored, find?_mergeJoin (Merge.joined_block hx now)]
  by_cases hb : m.block = b
  · subst hb
    simp only [hx, Option.map_some, hblock, beq_self_eq_true, if_true]
    exact mixBytes_mixBytes ..
  · rw [if_neg hb]
    cases hz : s.merge.find? (fun z => z.block == b) with
    | none => rfl
    | some z =>
      have hzb : z.block = b := block_of_find? hz
      simp [hzb, Ne.symm hb]

/-- A narrow write changes the bytes of its mask, in its block. -/
theorem writeBlock_merged (hmerge : ∀ x ∈ (d.slice c).merge, x.block < 2 ^ 21) (hnarrow : m.mask ≠ BitVec.allOnes 32) {b : Nat}
    (hb : b < 2 ^ 21) : ((d.writeBlock c m).slice c).merged b =
      if m.block = b then mixBytes ((d.slice c).merged b) m.data m.mask else (d.slice c).merged b := by
  cases hfind : (d.slice c).merge.find? (fun z => z.block == m.block) with
  | some x =>
    rw [writeBlock_joins hnarrow hfind, ← merged_join hfind d.power.cycles b]
    split
    · rw [drainBlock_merged _ c _ _ hb, setSlice_slice_same]
      rw [setSlice_slice_same]
      intro z hz
      have hmem : z.block ∈ (mergeJoin (d.slice c).merge m.block (x.joined m d.power.cycles)).map (·.block) := List.mem_map_of_mem hz
      rw [map_block_mergeJoin (Merge.joined_block hfind _)] at hmem
      obtain ⟨y, hy, hblock⟩ := List.mem_map.1 hmem
      exact hblock ▸ hmerge y hy
    · rw [setSlice_slice_same]
  | none =>
    obtain ⟨e, he, hwrite⟩ := writeBlock_enters hnarrow hfind
    have hmerged : (e.slice c).merged b = (d.slice c).merged b := by
      rcases he with ⟨rfl, -⟩ | ⟨o, -, rfl⟩
      · rfl
      · exact drainBlock_merged d c hmerge o.block hb
    have hnone : (e.slice c).merge.find? (fun z => z.block == m.block) = none := by
      rcases he with ⟨rfl, -⟩ | ⟨o, -, rfl⟩
      · exact hfind
      · rw [drainBlock_merge]
        refine List.find?_eq_none.2 fun z hz => List.find?_eq_none.1 hfind z (List.mem_of_mem_filter hz)
    rw [hwrite, setSlice_slice_same, merged_append hnone, hmerged]

/-- A write leaves the other slices. -/
theorem writeBlock_slice_ne {k : Nat} (hk : k ≠ c) : (d.writeBlock c m).slice k = d.slice k := by
  have hset : ∀ (e : Device) v, (e.setSlice c v).slice k = e.slice k := fun e v => setSlice_slice_ne _ _ _ hk.symm
  by_cases hfull : m.mask = BitVec.allOnes 32
  · rw [writeBlock_full hfull, hset]
  · cases hfind : (d.slice c).merge.find? (fun z => z.block == m.block) with
    | some x =>
      rw [writeBlock_joins hfull hfind]
      split
      · rw [drainBlock_slice_ne _ c hk, hset]
      · rw [hset]
    | none =>
      obtain ⟨e, he, hwrite⟩ := writeBlock_enters hfull hfind
      rw [hwrite, hset]
      rcases he with ⟨rfl, -⟩ | ⟨o, -, rfl⟩
      · rfl
      · exact drainBlock_slice_ne d c hk _

end Device

/-- Settles O10: a narrow write mixes its bytes into its block as a reader gets it, and a drain on its way changes nothing that a
reader gets. -/
theorem narrowWriteChangesItsBytes : Obligations.NarrowWriteChangesItsBytes := by
  unfold Obligations.NarrowWriteChangesItsBytes
  refine fun d c m hmerge hblock hnarrow => ⟨fun a ha => ?_, fun k hk => Device.writeBlock_slice_ne hk⟩
  rw [Slice.byteAt_eq, Slice.byteAt_eq, Device.writeBlock_merged hmerge hnarrow (by omega)]
  by_cases hb : m.block = a / 32
  · simp only [hb, if_true, true_and]
    exact blkByte_mixBytes _ _ _ (Nat.mod_lt a (by decide))
  · rw [if_neg hb, if_neg fun h => hb h.1.symm]

/-! ### The merge buffer under writes (R214) -/

/-- At most 16 entries, of different blocks of the slice. -/
structure MergeOk (l : List Merge) : Prop where
  nodup : (l.map (·.block)).Nodup
  block : ∀ x ∈ l, x.block < 2 ^ 21
  length : l.length ≤ 16

namespace MergeOk
variable {l : List Merge}

theorem filter (h : MergeOk l) (p : Merge → Bool) : MergeOk (l.filter p) where
  nodup := h.nodup.sublist (List.filter_sublist.map _)
  block x hx := h.block x (List.mem_of_mem_filter hx)
  length := (List.length_filter_le p l).trans h.length

/-- Whether a buffer is well-formed depends on the blocks of its entries. -/
theorem of_map_block {l' : List Merge} (h : MergeOk l) (hb : l'.map (·.block) = l.map (·.block)) : MergeOk l' where
  nodup := hb ▸ h.nodup
  block x hx := by
    obtain ⟨y, hy, hblock⟩ := List.mem_map.1 (hb ▸ List.mem_map_of_mem hx)
    exact hblock ▸ h.block y hy
  length := by
    have hlen := congrArg List.length hb
    simp only [List.length_map] at hlen
    exact hlen ▸ h.length

theorem append {m : Merge} (h : MergeOk l) (hlen : l.length < 16) (hm : m.block < 2 ^ 21) (hnew : ∀ x ∈ l, x.block ≠ m.block) :
    MergeOk (l ++ [m]) where
  nodup := by
    rw [List.map_append]
    refine h.nodup.append (List.nodup_singleton _) ?_
    simpa using hnew
  block x hx := by
    rcases List.mem_append.1 hx with hx | hx
    · exact h.block x hx
    · rw [List.mem_singleton.1 hx]; exact hm
  length := by rw [List.length_append]; exact hlen

end MergeOk

namespace Device
variable {d : Device} {c : Nat} {m : Merge}

theorem drainBlock_mergeOk (h : MergeOk (d.slice c).merge) (b : Nat) : MergeOk ((d.drainBlock c b).slice c).merge := by
  rw [drainBlock_merge]
  exact h.filter _

theorem writeBlock_mergeOk (h : MergeOk (d.slice c).merge) (hm : m.block < 2 ^ 21) : MergeOk ((d.writeBlock c m).slice c).merge := by
  by_cases hfull : m.mask = BitVec.allOnes 32
  · rw [writeBlock_full hfull, setSlice_slice_same]
    exact h
  · cases hfind : (d.slice c).merge.find? (fun z => z.block == m.block) with
    | some x =>
      have hjoin : MergeOk (mergeJoin (d.slice c).merge m.block (x.joined m d.power.cycles)) :=
        h.of_map_block (map_block_mergeJoin (Merge.joined_block hfind _))
      rw [writeBlock_joins hfull hfind]
      split
      · exact drainBlock_mergeOk (by rwa [setSlice_slice_same]) _
      · rwa [setSlice_slice_same]
    | none =>
      have hnew : ∀ x ∈ (d.slice c).merge, x.block ≠ m.block := by simpa using List.find?_eq_none.1 hfind
      obtain ⟨e, he, hwrite⟩ := writeBlock_enters hfull hfind
      rw [hwrite, setSlice_slice_same]
      rcases he with ⟨rfl, hlen⟩ | ⟨o, ho, rfl⟩
      · exact h.append hlen hm hnew
      · have hlen : ((d.slice c).merge.filter fun x => x.block != o.block).length < (d.slice c).merge.length :=
          List.length_filter_lt_length_iff_exists.2 ⟨o, ho, by simp⟩
        refine (drainBlock_mergeOk h _).append ?_ hm ?_ <;> rw [drainBlock_merge]
        · exact hlen.trans_le h.length
        · exact fun x hx => hnew x (List.mem_of_mem_filter hx)

end Device

theorem blocksOf_lt {off n b : Nat} (h : off + n ≤ 2 ^ 26) (hb : b ∈ Device.blocksOf off n) : b < 2 ^ 21 := by
  unfold Device.blocksOf at hb
  split at hb
  · cases hb
  · obtain ⟨k, hk, rfl⟩ := List.mem_map.1 hb
    have := List.mem_range.1 hk
    omega

/-- Settles O11: each block of the run is written with the buffer kept well-formed. -/
theorem mergeBlocksDistinct : Obligations.MergeBlocksDistinct := by
  unfold Obligations.MergeBlocksDistinct
  intro d c off bs hrange hnodup hblock hlen
  have hok : MergeOk ((d.writeYard c off bs).slice c).merge := by
    unfold Device.writeYard
    refine List.foldlRecOn _ _ (motive := fun e : Device => MergeOk (e.slice c).merge) ⟨hnodup, hblock, hlen⟩ fun e he b hb => ?_
    exact Device.writeBlock_mergeOk he (blocksOf_lt hrange hb)
  exact ⟨hok.nodup, hok.block, hok.length⟩

/-- Settles O12: the written block is its own reader's, and passes its check. -/
theorem fullWriteReadsBack : Obligations.FullWriteReadsBack := by
  unfold Obligations.FullWriteReadsBack
  intro d c b cls x hmerge e
  have he : e.slice c = (d.slice c).putBlock b (Blk.of ((d.slice c).guardedAt (32 * b)) x) := by
    rw [show e = _ from Device.writeBlock_full rfl, Device.setSlice_slice_same]
  have hdrain : e.drainBlock c b = e := by
    have hnone : (e.slice c).merge.find? (fun m => m.block == b) = none := by
      rw [he]
      exact List.find?_eq_none.2 fun m hm => by simpa using List.all_eq_true.1 hmerge m hm
    rw [Device.drainBlock, hnone]
  unfold Device.readBlock
  simp only [hdrain, he, Slice.block_putBlock_same, Slice.putBlock_guardedAt, checkBlk_of]
  rfl

theorem length_toBytes (n x : Nat) : (toBytes n x).length = n := by
  induction n generalizing x with
  | zero => rfl
  | succ n ih => exact congrArg (· + 1) (ih _)

/-- Settles O9: the store's offset fails its check before anything is written. The statement speaks of SST; the trap on a misaligned
offset is R171's. -/
theorem yardAccessTraps : Obligations.YardAccessTraps := by
  unfold Obligations.YardAccessTraps
  intro s c x h off hbad
  have hbody : sstBody c x s.dev = Device.illegal x := by
    have hok : s.dev.mslotOk c off (if bit x.word 48 then 4 else 8) = false := by
      rcases hbad with hbad | hbad <;> simp [Device.mslotOk, hbad]
    simp only [sstBody, Device.mslotStore, length_toBytes, off] at hok ⊢
    rw [hok]
    rfl
  exact (onUnit_next _ _ (Device.mayIssue_iff.1 h).1).trans
    (congrArg (fun e => Host.Outcome.next { s with dev := e }) (Device.issue_trap h hbody))

end Sys2Proof.Machine
end

section
/-! PROOF. Skidder channels: the handles and windows of Haul programs, and pieces on their way, their checks and their arrival (spec 07:
R223 to R225; spec 08: R232 to R243, R255, R256; spec 09: R283, R287, R288). -/

namespace Sys2Proof.Machine

namespace Device
variable {d : Device} {c ch op : Nat}

/-! ### An instruction of a Haul program that executes (R231, R235) -/

/-- The parts of `mayExecute`. -/
theorem mayExecute_iff : d.mayExecute c ch op = true ↔ c < 12 ∧ ch < 2 ∧ (d.channel c ch).state = .running ∧ d.frozen c = false ∧
    (d.channel c ch).ending = false ∧ (d.channel c ch).closing = none ∧ hop (d.channel c ch).word = op ∧
    (d.channel c ch).planned = [] := by
  simp [mayExecute, and_assoc]

/-- A channel that may execute an instruction does what its body says. -/
theorem haulStep_of_mayExecute (h : d.mayExecute c ch op = true) (body : W64 → Channel → Device → Device) :
    haulStep c ch op body d = body (d.channel c ch).word (d.channel c ch) d := by
  obtain ⟨-, -, hstate, hfrozen, hending, hclosing, hop, hplanned⟩ := mayExecute_iff.1 h
  simp [haulStep, hstate, hfrozen, hending, hclosing, hop, hplanned]

end Device

section
variable {s : State} {e : Device}

/-- A wrapped command, by what its function makes of the device. -/
theorem done_of_eq {f : Device → Device} (h : f s.dev = e) : done s f = .next { s with dev := e } := by rw [done_next, h]

theorem onChannel_of_eq {c ch : Nat} {f : Device → Device} (hc : c < 12) (hch : ch < 2) (h : f s.dev = e) :
    onChannel c ch s f = .next { s with dev := e } := by rw [onChannel_next _ _ hc hch, h]

theorem exec_haulStep {c ch op : Nat} {body : W64 → Channel → Device → Device} (h : s.dev.mayExecute c ch op = true)
    (hbody : body (s.dev.channel c ch).word (s.dev.channel c ch) s.dev = e) :
    onChannel c ch s (Device.haulStep c ch op body) = .next { s with dev := e } := by
  obtain ⟨hc, hch, -⟩ := Device.mayExecute_iff.1 h
  exact onChannel_of_eq hc hch ((Device.haulStep_of_mayExecute h body).trans hbody)

end

/-! ### Handles and windows of a Haul program (R223, R225, R235, R255, R256) -/

/-- What a search for the least number finds lies in its range. -/
theorem lowestFrom_lt {p : Nat → Bool} {n i k : Nat} (h : lowestFrom p n i = some k) : k < i + n := by
  induction n generalizing i with
  | zero => cases h
  | succ n ih =>
    rw [lowestFrom] at h
    split at h
    · cases h; omega
    · have := ih h; omega

theorem lowest_lt {p : Nat → Bool} {n k : Nat} (h : lowest p n = some k) : k < n := by
  simpa using lowestFrom_lt h

/-- The handle of a window slot as a 64-bit value. -/
theorem winHandle_setWidth (gen : BitVec 20) {slot : Nat} (h : slot < 256) :
    (Device.winHandle gen slot).setWidth 64 = BitVec.ofNat 64 (5 * 2 ^ 28 + gen.toNat * 256 + slot) := by
  have hgen := gen.isLt
  refine BitVec.eq_of_toNat_eq ?_
  simp only [Device.winHandle, BitVec.toNat_setWidth, BitVec.toNat_ofNat]
  omega

namespace Device
variable {d : Device} {c ch : Nat} {w : W64} {k : Channel}

/-- A channel none of whose writes waits has nothing to drain. -/
theorem drainChannel_of_not_pending (h : d.writesPending c ch = false) : d.drainChannel c ch = d := by
  have hnone : ∀ kv ∈ d.slices, (kv.2.merge.filter fun m => m.chans.contains (c, ch)) = [] := by
    intro kv hkv
    have hkv := List.any_eq_false.1 h kv hkv
    refine List.filter_eq_nil_iff.2 fun m hm hmem => hkv ?_
    rw [Bool.or_eq_true]
    exact .inl (List.any_eq_true.2 ⟨m, hm, hmem⟩)
  refine List.foldlRecOn _ _ (motive := fun e : Device => e = d) rfl fun e he kv hkv => ?_
  dsimp only
  rw [hnone kv hkv]
  exact he

/-- A channel whose pieces are complete and whose writes are granted has landed all that it wrote (R255). -/
theorem landed_of_complete (hpieces : (d.pieces.any fun x => x.2.owner == .channel c ch) = false)
    (hwrites : d.writesPending c ch = false) : d.landed c ch = (d, true) := by
  have howes : d.owes (ofChannel c ch) = false := hpieces
  simp [landed, howes, drainChannel_of_not_pending hwrites, hwrites]

theorem haulHpopOp_eq (hmode : (d.chute c (bits w 11 8)).handle = true)
    (hbound : (d.chute c (bits w 11 8)).bound = .free → (d.chute c (bits w 11 8)).bch = ch) {v : W64} {r : List W64}
    (hentries : (d.chute c (bits w 11 8)).entries = v :: r) : haulHpopOp c ch w k d =
      ((d.setChute c (bits w 11 8) { d.chute c (bits w 11 8) with entries := r }).holdHandle c v).executed c ch
        { k with h := Table.set k.h 0 (bits w 5 4) v } := by
  have hok : (!(d.chute c (bits w 11 8)).handle || ((d.chute c (bits w 11 8)).bound == .free && (d.chute c (bits w 11 8)).bch != ch)) =
      false := by
    simpa [hmode] using hbound
  unfold haulHpopOp
  dsimp only
  rw [hok, popChute_cons hentries]
  rfl

/-- HPUSH of a good handle, once the channel's writes are done. -/
theorem haulHpushOp_eq (hpdk : d.samePaddock c (bits w 15 12) = true)
    (hsuits : d.suits (.channel c ch) (bits w 15 12) (bits w 11 8) true = true)
    (hgood : d.goodHandle c (Table.get k.h 0 (bits w 5 4)) = true)
    (hpieces : (d.pieces.any fun x => x.2.owner == .channel c ch) = false) (hwrites : d.writesPending c ch = false) {e : Device}
    (hpush : d.push (.channel c ch) (bits w 15 12) (bits w 11 8) (Table.get k.h 0 (bits w 5 4)) true 0 = (e, true)) :
    haulHpushOp c ch w k d = (e.giveHandle c (Table.get k.h 0 (bits w 5 4))).executed c ch k := by
  simp only [haulHpushOp, hpdk, hsuits, hgood, landed_of_complete hpieces hwrites, hpush]
  rfl

theorem winOpenCheck_slot_lt {p core off len slot ctx : Nat} {job : Option Nat} (h : d.winOpenCheck p core off len job ctx = .inr slot) :
    slot < 256 := by
  unfold winOpenCheck at h
  extract_lets inOne at h
  split at h
  · cases h
  · split at h
    · next hs => cases h; exact lowest_lt hs
    · cases h

theorem haulWopenOp_eq {slot : Nat} (h : d.winOpenCheck ((d.pdkOfCore c).getD 0) c (k.arg (bits w 10 8)).toNat
      (k.arg (bits w 14 12)).toNat (d.core c).job (d.ctxOf c) = .inr slot) : haulWopenOp c ch w k d =
    let key := 256 * (d.pdkOfCore c).getD 0 + slot
    (d.setWindow key { state := .open_, rd := bit w 15, wr := bit w 16, mesh := bit w 17, drove := bit w 18, core := c,
                       gen := (d.window key).gen, base := (k.arg (bits w 10 8)).toNat, len := (k.arg (bits w 14 12)).toNat,
                       owner := d.ctxOf c, job := (d.core c).job, inFlight := 0, obj := none }).executed c ch
      { k with h := Table.set k.h 0 (bits w 5 4) (BitVec.ofNat 64 (5 * 2 ^ 28 + (d.window key).gen.toNat * 256 + slot)) } := by
  simp only [haulWopenOp, h, winOpen, winHandle_setWidth _ (winOpenCheck_slot_lt h)]
  rfl

/-- WCLOSE of an open window that the handle names. -/
theorem haulWcloseOp_eq {hnd : W32} {key : Nat} (hhnd : hnd = (Table.get k.h 0 (bits w 5 4)).setWidth 32)
    (hkey : key = 256 * (d.pdkOfCore c).getD 0 + winSlot hnd) (hnames : winNames (d.window key) hnd = true)
    (hopen : (d.window key).state = .open_) : haulWcloseOp c ch w k d =
      (d.setWindow key { d.window key with state := .closing }).setChannel c ch { k with closing := some key, wait := .window } := by
  subst hhnd hkey
  simp only [haulWcloseOp, winClose, hopen, hnames]
  rfl

end Device

/-- Settles O36: each instruction by what its body makes of the channel, the Chute and the window it names. -/
theorem haulHandleResults : Obligations.HaulHandleResults := by
  unfold Obligations.HaulHandleResults
  refine ⟨?hpop, ?hpush, ?wopen, ?wclose⟩
  case hpop =>
    intro s c ch v r h k n x hmode hbound hentries e
    exact exec_haulStep h (Device.haulHpopOp_eq hmode hbound hentries)
  case hpush =>
    intro s c ch h k v n core hpdk hsuits hgood hpieces hwrites hheld
    have hpushed : ∀ {e : Device}, s.dev.push (.channel c ch) core n v true 0 = (e, true) →
        exec (.hpush c ch) s = .next { s with dev := (e.giveHandle c v).executed c ch k } := fun hpush =>
      exec_haulStep h (Device.haulHpushOp_eq hpdk hsuits hgood hpieces hwrites hpush)
    refine ⟨fun hown hfull => ?own, fun hother hrecv hfull => hpushed (Device.push_sends hheld hother hrecv hfull)⟩
    have hpush := Device.push_enters (v := v) (handle := true) (bundle := 0) hheld hown (by rw [hown]; exact hfull)
    rw [hown] at hpush
    exact hpushed (by rw [hown]; exact hpush)
  case wopen =>
    intro s c ch slot h k w p off len hcheck old x hnd k'
    exact exec_haulStep h (Device.haulWopenOp_eq hcheck)
  case wclose =>
    intro s c ch h k hnd key x hnames hopen e
    exact exec_haulStep h (Device.haulWcloseOp_eq rfl rfl hnames hopen)

/-! ### A piece that sets out, and its arrival (R224, R239, R243) -/

namespace Device
variable {d : Device}

/-- The next piece is outstanding in the session of a binding, where it is remote (R397). -/
def startsIn (d : Device) : Option Nat → Device
  | some n => d.setBinding n { d.binding n with pieces := (d.binding n).pieces ++ [d.nextPiece] }
  | none => d

/-- The next piece of a channel sets out unless a MOVE may still join it. -/
theorem issuePiece_go {c ch : Nat} {p : Planned} {r : List Planned} {b : Option Nat} (hplanned : (d.channel c ch).planned = p :: r)
    (hstate : (d.channel c ch).state = .running) (hfrozen : d.frozen c = false)
    (hmay : r ≠ [] ∨ (d.channel c ch).ending = true ∨ joins (d.channel c ch) (d.channel c ch).word p = false)
    (hgate : d.remoteGate ((d.pdkOfCore c).getD 0) (locOf c (d.channel c ch) p.srcSpace p.src p.srcXa p.srcSlot)
      (locOf c (d.channel c ch) p.dstSpace p.dst p.dstXa p.dstSlot) = .go b) :
    d.issuePiece c ch =
      let k := d.channel c ch
      let e := (d.startsIn b).setChannel c ch { k with planned := r, wait := .none }
      e.startPiece (freshPiece (.channel c ch) (e.ctxOf c) ((d.pdkOfCore c).getD 0) k.job (locOf c k p.srcSpace p.src p.srcXa p.srcSlot)
        (locOf c k p.dstSpace p.dst p.dstXa p.dstSlot) p.len p.tile p.pc) := by
  have hready : (decide ((d.channel c ch).state ≠ .running) || d.frozen c ||
      (r.isEmpty && !(d.channel c ch).ending && joins (d.channel c ch) (d.channel c ch).word p)) = false := by
    simp only [hstate, hfrozen, ne_eq, not_true_eq_false, decide_false, Bool.false_or]
    rcases hmay with h | h | h <;> simp [h]
  unfold issuePiece
  simp only [hplanned, hready, hgate]
  rfl

/-- The check of a transfer at an open window that its handle names, within its bounds and permissions. -/
theorem winCheck_ok {pdk o n : Nat} {h : W32} {write : Bool} (hopen : (d.window (256 * pdk + winSlot h)).state = .open_)
    (hnames : winNames (d.window (256 * pdk + winSlot h)) h = true) (hmesh : (d.window (256 * pdk + winSlot h)).mesh = true)
    (ho : o % 4 = 0) (hn : n % 4 = 0) (hrange : o + n ≤ (d.window (256 * pdk + winSlot h)).len)
    (hperm : (if write then (d.window (256 * pdk + winSlot h)).wr else (d.window (256 * pdk + winSlot h)).rd) = true) :
    d.winCheck pdk h o n write false = .inr ((d.window (256 * pdk + winSlot h)).base + o) := by
  simp [winCheck, hopen, hnames, hmesh, ho, hn, hperm, Nat.not_lt.2 hrange]

end Device

/-- The channels whose bytes a landing carries. -/
def Piece.landsFor (p : Piece) : List (Nat × Nat) :=
  match p.owner with
  | .channel k ch => [(k, ch)]
  | .command _ _ => []

namespace Device
variable {d : Device}

/-- The audit of a landing by a channel in its own slice. -/
def landAudit (d : Device) (p : Piece) (c off : Nat) : Device :=
  match p.owner, p.win with
  | .channel k _, none => if k = c then d.audit c off p.len else d
  | _, _ => d

section
variable {i o : Nat} {h : W32} {p : Piece} (hp : d.piece i = some p)
include hp

/-- An accepted read of a window delivers its bytes. -/
theorem windowCheck_read {e : Device} {bs : List Byte} (hphase : p.phase = .read) (hsrc : p.src = .window h o) (hkeep : p.discard = false)
    (hcheck : d.winCheck p.pdk h o p.len false false = .inr ((d.window (256 * p.pdk + winSlot h)).base + o))
    (hread : d.readYard (d.window (256 * p.pdk + winSlot h)).core 5 ((d.window (256 * p.pdk + winSlot h)).base + o) p.len = (e, .inl bs)) :
    d.windowCheck i = e.gotData i p bs := by
  simp [windowCheck, hp, hphase, hsrc, winEnd, hkeep, hcheck, hread]

/-- A write of a window that is accepted in its turn, with room for it, waits in the landing buffer. -/
theorem windowCheck_write (hphase : p.phase = .check) (hgo : d.mayGo i p = true) (hsent : d.firstSent p = true) (hdst : p.dst = .window h o)
    (hcheck : d.winCheck p.pdk h o p.len true false = .inr ((d.window (256 * p.pdk + winSlot h)).base + o))
    (hroom : d.landRoom (d.window (256 * p.pdk + winSlot h)).core p.len = true) :
    d.windowCheck i =
      let key := 256 * p.pdk + winSlot h
      ((d.winFlight key (· + 1)).setPiece i
        { p with phase := .land, land := some ((d.window key).core, (d.window key).base + o), win := some key }).pump p.owner := by
  simp [windowCheck, hp, hphase, hgo, hsent, hdst, winEnd, hcheck, hroom]

/-- A piece that is first of its owner lands, audited where its channel lands it in its own slice (R227, R243). -/
theorem landPiece_lands {c off : Nat} (hphase : p.phase = .land) (hland : p.land = some (c, off)) (hfirst : d.first i p = true) :
    d.landPiece i = ((d.landAudit p c off).landBytes c off p.data p.landsFor).complete i := by
  simp only [landPiece, hp, hphase, hland, hfirst]
  rfl

end

/-! ### A window that closes (R225) -/

end Device

theorem Table.get_mapVals {α : Type} (t : Table α) (d : α) (f : α → α) (hf : f d = d) (i : Nat) :
    Table.get (Table.mapVals t f) d i = f (Table.get t d i) := by
  induction t with
  | nil => exact hf.symm
  | cons kv r ih =>
    obtain ⟨k, v⟩ := kv
    change (if k = i then f v else Table.get (Table.mapVals r f) d i) = f (if k = i then v else Table.get r d i)
    rw [ih, apply_ite f]

namespace Device
variable {d : Device}

/-- The clear of a region moves open windows over it, and no other. -/
theorem clearRegion_window (d : Device) (c base : Nat) {n : Nat} (h : (d.window n).state ≠ .open_) :
    (d.clearRegion c base).window n = d.window n := by
  have hstay : (Table.get d.windows Window.reset n).state ≠ .open_ := h
  simp only [clearRegion, window, modSlice_eq, setSlice_windows]
  rw [Table.get_mapVals _ _ _ rfl]
  exact if_neg (by simp [hstay])

theorem window_congr {d e : Device} (h : e.windows = d.windows) (n : Nat) : e.window n = d.window n := by rw [window, window, h]

/-- An object that loses a reference leaves a window that is not open. -/
theorem unrefObj_window (d : Device) (o : Nat) {n : Nat} (h : (d.window n).state ≠ .open_) : (d.unrefObj o).window n = d.window n := by
  unfold unrefObj reapObj
  extract_lets _ x _ e sec e'
  have he : e'.window n = d.window n := window_congr (d := d) (e := e') rfl n
  split
  · split
    · exact he
    · exact (window_congr (d := e') rfl n).trans he
    · rw [clearRegion_window e' _ _ (by rw [he]; exact h), he]
  · exact window_congr (d := d) rfl n

/-- A window that is freed is FREE at the next generation. -/
theorem winFree_window {n : Nat} (h : (d.window n).state ≠ .free) :
    (d.winFree n).window n = { Window.reset with gen := (d.window n).gen + 1 } := by
  unfold winFree
  rw [if_neg h]
  dsimp only
  split
  · rw [unrefObj_window _ _ (by rw [setWindow_window_same]; nofun), setWindow_window_same]
  · exact setWindow_window_same ..

@[simp] theorem finishCmd_windows (d : Device) (q : Nat) (seq : W32) (code : Code) (h : W32) :
    (d.finishCmd q seq code h).windows = d.windows := by
  unfold finishCmd modCmd modQueue
  split <;> rfl

theorem drainAll_window (d : Device) (c n : Nat) : (d.drainAll c).window n = d.window n :=
  drainAll_part (φ := fun d => d.window n) (fun _ _ _ => rfl) (fun _ _ => postDev_window ..) d c

theorem closeDone_window {p n : Nat} (hstate : (d.window (256 * p + n)).state = .closing)
    (hflight : (d.window (256 * p + n)).inFlight = 0) :
    (d.closeDone p n).window (256 * p + n) = { Window.reset with gen := (d.window (256 * p + n)).gen + 1 } := by
  have hready : (decide ((d.window (256 * p + n)).state ≠ .closing) || decide ((d.window (256 * p + n)).inFlight ≠ 0)) = false := by
    simp [hstate, hflight]
  have hdrained := d.drainAll_window (d.window (256 * p + n)).core (256 * p + n)
  unfold closeDone
  extract_lets k w d1 d2
  have hd1 : d1.window k = { Window.reset with gen := w.gen + 1 } := by
    rw [winFree_window (by rw [hdrained, hstate]; decide), hdrained]
  have hd2 : d2.window k = d1.window k := by
    refine foldl_part (φ := fun d => d.window k) (fun e n => ?_) _ _
    dsimp only
    split <;> rfl
  rw [if_neg (by simpa using hready), ← hd1, ← hd2]
  refine foldl_part (φ := fun d => d.window k) (fun e n => ?_) _ _
  split
  · simp [window]
  · rfl

/-! ### A read that fails leaves the memory, but for its channel's counts (R283) -/

@[simp] theorem finishCmd_chans (d : Device) (q : Nat) (seq : W32) (code : Code) (h : W32) :
    (d.finishCmd q seq code h).chans = d.chans := by
  unfold finishCmd modCmd modQueue
  split <;> rfl

@[simp] theorem modJob_chans (d : Device) (j : Nat) (f : Job → Job) : (d.modJob j f).chans = d.chans := by
  unfold modJob
  split <;> rfl

@[simp] theorem leaveSession_chans (d : Device) (i : Nat) : (d.leaveSession i).chans = d.chans := by
  refine foldl_part (φ := chans) (fun x b => ?_) _ _
  split
  · exact setBinding_chans ..
  · rfl

@[simp] theorem dropPiece_chans (d : Device) (i : Nat) : (d.dropPiece i).chans = d.chans := by
  unfold dropPiece
  split
  · rfl
  · dsimp only
    split
    · exact (setWindow_chans ..).trans (leaveSession_chans ..)
    · exact leaveSession_chans ..

@[simp] theorem stopPieces_chans (d : Device) (o : PieceOwner → Bool) : (d.stopPieces o).chans = d.chans := by
  refine tfoldl_part (φ := chans) (fun x i p => ?_) _ _
  split
  · split
    · exact dropPiece_chans ..
    · exact dropPiece_chans ..
    · rfl
    · rfl
  · rfl

/-! A change of each core in turn, as `unbind` and `forgetSenders` make. -/

theorem foldl_modCore_chans (g : Nat → Core → Core) (l : List Nat) (d : Device) :
    (l.foldl (fun d n => d.modCore n (g n)) d).chans = d.chans := foldl_part (φ := chans) (fun _ _ => setCore_chans ..) l d

@[simp] theorem unbind_chans (d : Device) (c ch : Nat) : (d.unbind c ch).chans = d.chans := foldl_modCore_chans ..

@[simp] theorem forgetSenders_chans (d : Device) (p : Sender → Bool) : (d.forgetSenders p).chans = d.chans := by
  unfold forgetSenders
  split
  · exact foldl_modCore_chans ..
  · rfl

theorem stopRings_chans (c ch : Nat) (l : List Ring4) (x : Device × Nat) : (l.foldl (stopRing c ch) x).1.chans = x.1.chans := by
  induction l generalizing x with
  | nil => rfl
  | cons r l ih => exact (ih _).trans (setCore_chans ..)

@[simp] theorem stopStream_chans (d : Device) (c ch : Nat) : (d.stopStream c ch).chans = d.chans := by
  unfold stopStream
  extract_lets k
  split
  next e waste he =>
  have h := stopRings_chans c ch (k.ring.toList ++ k.olds) (d, 0)
  rw [he] at h
  exact (setCore_chans ..).trans ((unbind_chans ..).trans h)

@[simp] theorem stopChannel_chans (d : Device) (c ch : Nat) : (d.stopChannel c ch).chans = d.chans := by
  unfold stopChannel
  split
  · refine (setCore_chans ..).trans (?_ : (((d.stopStream c ch).stopPieces (ofChannel c ch)).forgetSenders
      (· == .channel c ch)).chans = d.chans)
    simp only [forgetSenders_chans, stopPieces_chans, stopStream_chans]
  · rfl

@[simp] theorem haltChannel_chans (d : Device) (c ch : Nat) (code : Code) (x : BitVec 96) (pc : Option Nat) :
    (d.haltChannel c ch code x pc).chans = d.chans := by
  unfold haltChannel
  split
  · dsimp only
    split
    · simp only [traceRec_chans, setChannel_eq, setCore_chans, stopChannel_chans]
    · simp only [modJob_chans, postQueue_chans, traceRec_chans, setChannel_eq, setCore_chans, stopChannel_chans]
  · rfl

@[simp] theorem failPiece_chans (d : Device) (i : Nat) (code : Code) (l : Loc) : (d.failPiece i code l).chans = d.chans := by
  unfold failPiece
  split
  · rfl
  · dsimp only
    split
    · exact dropPiece_chans ..
    · split
      · rw [haltChannel_chans, dropPiece_chans]
      · rw [failCommand, finishCmd_chans, stopPieces_chans, dropPiece_chans]

/-- A read of the unit `q` that failed its MAC is counted and recorded at the unit's channel. -/
theorem privError_chan (d : Device) (i : Nat) (p : Piece) (q : Nat) (l : Loc) :
    let c := (d.privLine p.pdk q).1
    ((d.privError i p q 0x0302 l).chan c) =
      { d.chan c with macf := satInc (d.chan c).macf, failLine := (d.privLine p.pdk q).2, failCode := 0x0302 } := by
  intro c
  have hfail : (d.privError i p q 0x0302 l).chan c = (d.privFail p.pdk p.ctx q 0x0302).chan c :=
    congrArg (fun t => Table.get t Chan.reset c) (failPiece_chans ..)
  rw [hfail, privFail]
  exact (postDev_chan ..).trans (setChan_chan_same ..)

section
variable {i : Nat} {p : Piece} (hp : d.piece i = some p)
include hp

theorem privRead_good {bs : List Byte} (hphase : p.phase = .read) (hsrc : p.src.isPriv = true) (hbursts : p.bursts = [])
    (hread : d.readPriv p.pdk p.place p.len = .inl bs) : d.privRead i .good = d.gotData i p bs := by
  simp [privRead, hp, hphase, hsrc, hbursts, privChecked, hread]

theorem privRead_macFail (hphase : p.phase = .read) (hsrc : p.src.isPriv = true) (hbursts : p.bursts = []) :
    d.privRead i .macFail = d.tookFree.privError i p (d.hitUnit (privUnits p.place p.len)) 0x0302 p.src := by
  simp [privRead, hp, hphase, hsrc, hbursts, privChecked]

theorem privWritten_complete {e : Device} (hphase : p.phase = .write) (hdst : p.dst.isPriv = true) (hbursts : p.bursts = [])
    (hfirst : d.first i p = true) (hwrite : d.writePriv p.pdk p.place p.data = .inl e) : d.privWritten i = e.complete i := by
  simp [privWritten, hp, hphase, hdst, hbursts, hfirst, hwrite]

theorem hostData_got {bs : List Byte} (hphase : p.phase = .read) (hsrc : p.src.isHost = true) (hlen : bs.length = p.len) :
    d.hostData i bs = d.gotData i p bs := by
  simp [hostData, hp, hphase, hsrc, hlen]

theorem hostGo_complete (hphase : p.phase = .write) (hdst : p.dst.isHost = true) : d.hostGo i = d.complete i := by
  simp [hostGo, hp, hphase, hdst]

end

/-- The unit that an error hits is one of those read. -/
theorem hitUnit_mem {us : List Nat} (h : us ≠ []) : d.hitUnit us ∈ us := by
  have hlt : (d.freeWord 6).toNat % us.length < us.length := Nat.mod_lt _ (List.length_pos_iff.2 h)
  rw [hitUnit, List.getD_eq_getElem _ _ hlt]
  exact List.getElem_mem hlt

theorem privUnits_ne_nil {place n : Nat} (h : 0 < n) : privUnits place n ≠ [] := by
  have hlen : (privUnits place n).length = (place + n - 1) / 64 + 1 - place / 64 := by
    rw [privUnits, if_neg h.ne', List.length_map, List.length_range]
  intro hnil
  rw [hnil, List.length_nil] at hlen
  omega

/-! ### The memory frame (R241) -/

/-- Of what has been chosen and a further request the one that asked first. -/
def earlierAsked (b : Option (Nat × Piece)) (kv : Nat × Piece) : Option (Nat × Piece) :=
  match b with
  | some x => if kv.2.asked < x.2.asked then some kv else b
  | none => some kv

/-- The oldest request of class `k`. -/
def oldestOf (l : List (Nat × Piece)) (k : Nat) : Option (Nat × Piece) :=
  (l.filter fun kv => frameClass kv.2 == k).foldl earlierAsked none

theorem frameTakes_eq (d : Device) (s c : Nat) :
    let want := d.pieces.filter fun kv => Table.get kv.2.bursts 0 c != 0
    d.frameTakes s c = (oldestOf want (slotClass s)).or ((oldestOf want 0).or ((oldestOf want 1).or (oldestOf want 2))) := rfl

theorem asked_foldl_earlierAsked (l : List (Nat × Piece)) (x : Nat × Piece) : ∃ y, l.foldl earlierAsked (some x) = some y ∧
    (y = x ∨ y ∈ l) ∧ y.2.asked ≤ x.2.asked ∧ ∀ z ∈ l, y.2.asked ≤ z.2.asked := by
  induction l generalizing x with
  | nil => exact ⟨x, rfl, .inl rfl, le_rfl, fun _ hz => absurd hz List.not_mem_nil⟩
  | cons k r ih =>
    rw [List.foldl_cons, earlierAsked]
    split
    · next hlt =>
      obtain ⟨y, hy, hmem, hle, hall⟩ := ih k
      refine ⟨y, hy, .inr (List.mem_cons.2 hmem), hle.trans hlt.le, fun z hz => ?_⟩
      rcases List.mem_cons.1 hz with rfl | hz
      · exact hle
      · exact hall z hz
    · next hge =>
      obtain ⟨y, hy, hmem, hle, hall⟩ := ih x
      refine ⟨y, hy, hmem.imp_right (List.mem_cons_of_mem _), hle, fun z hz => ?_⟩
      rcases List.mem_cons.1 hz with rfl | hz
      · exact hle.trans (Nat.le_of_not_lt hge)
      · exact hall z hz

/-- The oldest request of a class is of that class, and none of the class asked before it. -/
theorem of_oldestOf {l : List (Nat × Piece)} {k : Nat} {x : Nat × Piece} (h : oldestOf l k = some x) :
    x ∈ l ∧ frameClass x.2 = k ∧ ∀ y ∈ l, frameClass y.2 = k → x.2.asked ≤ y.2.asked := by
  have hmem : ∀ y, y ∈ (l.filter fun kv => frameClass kv.2 == k) ↔ y ∈ l ∧ frameClass y.2 = k := fun y => by
    simp [List.mem_filter]
  unfold oldestOf at h
  cases hl : l.filter fun kv => frameClass kv.2 == k with
  | nil => rw [hl] at h; cases h
  | cons a r =>
    rw [hl] at h
    obtain ⟨y, hy, hin, hle, hall⟩ := asked_foldl_earlierAsked r a
    obtain rfl : y = x := Option.some.inj (hy.symm.trans h)
    obtain ⟨hx, hclass⟩ := (hmem y).1 (hl ▸ List.mem_cons.2 hin)
    refine ⟨hx, hclass, fun z hz hzc => ?_⟩
    rcases List.mem_cons.1 (hl ▸ (hmem z).2 ⟨hz, hzc⟩) with rfl | hz
    · exact hle
    · exact hall z hz

/-- A class without an oldest request has none. -/
theorem of_oldestOf_none {l : List (Nat × Piece)} {k : Nat} (h : oldestOf l k = none) : ∀ y ∈ l, frameClass y.2 ≠ k := by
  intro y hy hk
  have hmem : y ∈ l.filter fun kv => frameClass kv.2 == k := List.mem_filter.2 ⟨hy, by simp [hk]⟩
  unfold oldestOf at h
  cases hl : l.filter fun kv => frameClass kv.2 == k with
  | nil => rw [hl] at hmem; cases hmem
  | cons a r =>
    rw [hl] at h
    obtain ⟨x, hx, -⟩ := asked_foldl_earlierAsked r a
    exact Option.some_ne_none x (hx.symm.trans h)

/-- The request that takes a slot is the oldest of a class: the slot's, or, where none is of the slot's class, the first that has
a request. -/
theorem frameTakes_class {s c : Nat} {x : Nat × Piece} (h : d.frameTakes s c = some x) :
    let want := d.pieces.filter fun kv => Table.get kv.2.bursts 0 c != 0
    oldestOf want (frameClass x.2) = some x ∧ (frameClass x.2 ≠ slotClass s →
      (∀ y ∈ want, frameClass y.2 ≠ slotClass s) ∧ ∀ y ∈ want, frameClass x.2 ≤ frameClass y.2) := by
  intro want
  have hclass : ∀ {k}, oldestOf want k = some x → oldestOf want (frameClass x.2) = some x := fun hk => by
    rw [(of_oldestOf hk).2.1]; exact hk
  rw [frameTakes_eq, Option.or_eq_some_iff] at h
  rcases h with hslot | ⟨hslot, h⟩
  · exact ⟨hclass hslot, fun hne => absurd (of_oldestOf hslot).2.1 hne⟩
  · rw [Option.or_eq_some_iff] at h
    rcases h with h0 | ⟨h0, h⟩
    · refine ⟨hclass h0, fun _ => ⟨of_oldestOf_none hslot, fun y hy => ?_⟩⟩
      rw [(of_oldestOf h0).2.1]
      exact Nat.zero_le _
    · rw [Option.or_eq_some_iff] at h
      rcases h with h1 | ⟨h1, h2⟩
      · refine ⟨hclass h1, fun _ => ⟨of_oldestOf_none hslot, fun y hy => ?_⟩⟩
        rw [(of_oldestOf h1).2.1]
        exact Nat.pos_of_ne_zero (of_oldestOf_none h0 y hy)
      · refine ⟨hclass h2, fun _ => ⟨of_oldestOf_none hslot, fun y hy => ?_⟩⟩
        have hy0 := of_oldestOf_none h0 y hy
        have hy1 := of_oldestOf_none h1 y hy
        rw [(of_oldestOf h2).2.1]
        omega

end Device

/-- Settles O37: each clause by what the command's function makes of the piece, the window or the request that it names. -/
theorem pieceResults : Obligations.PieceResults := by
  unfold Obligations.PieceResults
  refine ⟨?issue, ?check, ?land, ?close, ?read, ?frame, ?write, ?hostData, ?go, fun s => rfl⟩
  case issue =>
    intro s c ch p r b hc hch k hplanned hstate hfrozen hmay src dst pdk hgate d e y
    exact onChannel_of_eq hc hch (Device.issuePiece_go hplanned hstate hfrozen hmay hgate)
  case check =>
    intro s pid o h p hp w hopen hnames hmesh ho hn hrange
    refine ⟨fun e bs hphase hsrc hkeep hrd hread => ?_, fun hphase hgo hsent hdst hwr hroom => ?_⟩
    · have hcheck := Device.winCheck_ok (write := false) hopen hnames hmesh ho hn hrange hrd
      exact done_of_eq (Device.windowCheck_read hp hphase hsrc hkeep hcheck hread)
    · have hcheck := Device.winCheck_ok (write := true) hopen hnames hmesh ho hn hrange hwr
      exact done_of_eq (Device.windowCheck_write hp hphase hgo hsent hdst hcheck hroom)
  case land =>
    intro s pid c off p hp hphase hland hfirst d chan
    exact done_of_eq (Device.landPiece_lands hp hphase hland hfirst)
  case close =>
    intro s p n hp hn hstate hflight
    have hwindow := Device.closeDone_window hstate hflight
    refine ⟨_, (if_pos hn).trans (onUnit_next _ _ hp), ?_, ?_⟩
    · exact congrArg Window.state hwindow
    · exact congrArg Window.gen hwindow
  case read =>
    intro s pid a p hp hphase hsrc hpriv hbursts
    have hfrom : p.src.isPriv = true := by rw [hsrc]; exact hpriv
    refine ⟨fun bs hread => ?_, fun hlen => ?_⟩
    · exact done_of_eq (Device.privRead_good hp hphase hfrom hbursts hread)
    · have hchan := s.dev.tookFree.privError_chan pid p (s.dev.hitUnit (Device.privUnits p.place p.len)) p.src
      refine ⟨_, done_of_eq (Device.privRead_macFail hp hphase hfrom hbursts), _,
        Device.hitUnit_mem (d := s.dev) (Device.privUnits_ne_nil hlen), ?_⟩
      exact ⟨congrArg Chan.macf hchan, congrArg Chan.failLine hchan, congrArg Chan.failCode hchan, (congrArg Chan.lines hchan :)⟩
  case frame =>
    intro d n c i p htakes wants
    obtain ⟨holdest, hother⟩ := Device.frameTakes_class htakes
    obtain ⟨hmem, -, hfirst⟩ := Device.of_oldestOf holdest
    have hwant : ∀ x, x ∈ (d.pieces.filter fun kv => Table.get kv.2.bursts 0 c != 0) ↔ x ∈ d.pieces ∧ wants x.2 := fun x => by
      rw [List.mem_filter, bne_iff_ne]
    obtain ⟨hpiece, hwants⟩ := (hwant _).1 hmem
    refine ⟨hpiece, hwants, fun x hx hxw => hfirst x ((hwant x).2 ⟨hx, hxw⟩), fun hne x hx hxw => ?_⟩
    obtain ⟨hslot, hleast⟩ := hother hne
    exact ⟨hslot x ((hwant x).2 ⟨hx, hxw⟩), hleast x ((hwant x).2 ⟨hx, hxw⟩)⟩
  case write =>
    intro s pid a p d hp hphase hdst hpriv hbursts hfirst hwrite
    have hto : p.dst.isPriv = true := by rw [hdst]; exact hpriv
    exact done_of_eq (Device.privWritten_complete hp hphase hto hbursts hfirst hwrite)
  case hostData =>
    intro s pid a p data hp hphase hsrc hpriv hlen
    have hfrom : p.src.isHost = true := by rw [hsrc, Loc.isHost, hpriv]; rfl
    exact done_of_eq (Device.hostData_got hp hphase hfrom hlen)
  case go =>
    intro s pid a p hp hphase hdst hpriv
    have hto : p.dst.isHost = true := by rw [hdst, Loc.isHost, hpriv]; rfl
    exact done_of_eq (Device.hostGo_complete hp hphase hto)

end Sys2Proof.Machine
end

section
/-! PROOF. Skidder channels: the instructions of Haul programs, the pieces of a MOVE, and tile streams (spec 08: R232, R235 to R240,
R245 to R247, R250). -/

namespace Sys2Proof.Machine

/-! ### The pieces of a MOVE (R239) -/

namespace Device
variable {src dst : W64} {n o : Nat}

/-- The length of the piece of a MOVE that starts at its byte `o`: up to the next 4 KiB boundary of either end. -/
def cutLen (src dst : W64) (n o : Nat) : Nat :=
  min (n - o) (min (4096 - (src.toNat + o) % 4096) (4096 - (dst.toNat + o) % 4096))

/-- The 4 KiB boundaries of both ends that a MOVE of `n` bytes has still to cross from its byte `o`. -/
def boundariesLeft (src dst : W64) (n o : Nat) : Nat :=
  ((src.toNat + n) / 4096 - (src.toNat + o) / 4096) + ((dst.toNat + n) / 4096 - (dst.toNat + o) / 4096)

/-- A MOVE whose bytes are all cut has no further piece. -/
theorem pieceCuts_done (h : n ≤ o) (fuel : Nat) : pieceCuts src dst fuel n o = [] := by
  cases fuel with
  | zero => rfl
  | succ fuel => exact if_pos h

theorem pieceCuts_cons (h : o < n) (fuel : Nat) : pieceCuts src dst (fuel + 1) n o =
    (o, cutLen src dst n o) :: pieceCuts src dst fuel n (o + cutLen src dst n o) := if_neg (Nat.not_le.2 h)

theorem cutLen_le : cutLen src dst n o ≤ n - o := Nat.min_le_left ..

/-- A piece is not empty, and stays within a 4 KiB block of either end. -/
theorem cutLen_within (h : o < n) : 0 < cutLen src dst n o ∧ (src.toNat + o) % 4096 + cutLen src dst n o ≤ 4096 ∧
    (dst.toNat + o) % 4096 + cutLen src dst n o ≤ 4096 := by
  unfold cutLen
  omega

/-- A piece that is not the last one ends at a boundary. -/
theorem boundariesLeft_lt (h : o + cutLen src dst n o < n) :
    boundariesLeft src dst n (o + cutLen src dst n o) < boundariesLeft src dst n o := by
  unfold boundariesLeft
  have hcut : cutLen src dst n o = 4096 - (src.toNat + o) % 4096 ∨ cutLen src dst n o = 4096 - (dst.toNat + o) % 4096 := by
    unfold cutLen at h ⊢
    omega
  rcases hcut with hcut | hcut <;> omega

/-- A MOVE of 1 MiB crosses at most 256 boundaries of each end. -/
theorem boundariesLeft_zero_le (h : n ≤ 1048576) : boundariesLeft src dst n 0 ≤ 512 := by
  unfold boundariesLeft
  omega

theorem pieceCuts_within (fuel : Nat) {p : Nat × Nat} (h : p ∈ pieceCuts src dst fuel n o) :
    0 < p.2 ∧ (src.toNat + p.1) % 4096 + p.2 ≤ 4096 ∧ (dst.toNat + p.1) % 4096 + p.2 ≤ 4096 := by
  induction fuel generalizing o with
  | zero => cases h
  | succ fuel ih =>
    rcases Nat.lt_or_ge o n with ho | ho
    · rw [pieceCuts_cons ho] at h
      rcases List.mem_cons.1 h with rfl | h
      · exact cutLen_within ho
      · exact ih h
    · rw [pieceCuts_done ho] at h
      cases h

/-- Each piece starts where those before it end. -/
theorem pieceCuts_offset (fuel : Nat) {i : Nat} (h : i < (pieceCuts src dst fuel n o).length) :
    ((pieceCuts src dst fuel n o).getD i (0, 0)).1 = o + (((pieceCuts src dst fuel n o).take i).map (·.2)).sum := by
  induction fuel generalizing o i with
  | zero => cases h
  | succ fuel ih =>
    rcases Nat.lt_or_ge o n with ho | ho
    · rw [pieceCuts_cons ho] at h ⊢
      cases i with
      | zero => rfl
      | succ i =>
        rw [List.getD_cons_succ, ih (Nat.lt_of_succ_lt_succ h), List.take_succ_cons, List.map_cons, List.sum_cons, Nat.add_assoc]
    · rw [pieceCuts_done ho] at h
      cases h

/-- Where the fuel outnumbers the boundaries that are left, the pieces reach the last byte. -/
theorem pieceCuts_sum {fuel : Nat} (hfuel : boundariesLeft src dst n o < fuel) :
    ((pieceCuts src dst fuel n o).map (·.2)).sum = n - o := by
  induction fuel generalizing o with
  | zero => exact absurd hfuel (Nat.not_lt_zero _)
  | succ fuel ih =>
    rcases Nat.lt_or_ge o n with ho | ho
    · have hlen := cutLen_le (src := src) (dst := dst) (n := n) (o := o)
      rw [pieceCuts_cons ho, List.map_cons, List.sum_cons]
      rcases Nat.lt_or_ge (o + cutLen src dst n o) n with hmore | hlast
      · have hfewer := boundariesLeft_lt hmore
        rw [ih (by omega)]
        omega
      · rw [pieceCuts_done hlast, List.map_nil, List.sum_nil]
        omega
    · rw [pieceCuts_done ho, Nat.sub_eq_zero_of_le ho]
      rfl

end Device

/-- Settles O34: a piece that is not the last one crosses a boundary, and 1 MiB has fewer of them than MOVE's fuel. -/
theorem piecesCoverTheMove : Obligations.PiecesCoverTheMove := by
  unfold Obligations.PiecesCoverTheMove
  intro src dst n hn ps
  refine ⟨?_, fun i hi => ?_, fun p hp => Device.pieceCuts_within 1024 hp⟩
  · exact Device.pieceCuts_sum (Nat.lt_of_le_of_lt (Device.boundariesLeft_zero_le hn) (by decide))
  · exact (Device.pieceCuts_offset 1024 hi).trans (Nat.zero_add _)

/-! ### Chutes and channels are parts of their cores -/

namespace Device
variable (d : Device) (c ch : Nat)

theorem setChannel_channel_same (k : Channel) : (d.setChannel c ch k).channel c ch = k := by simp [channel]

theorem setChannel_chute (k : Channel) (n m : Nat) : (d.setChannel c ch k).chute n m = d.chute n m := by
  simp only [setChannel, chute, modCore_eq, setCore_core]
  split
  · next h => subst h; rfl
  · rfl

theorem setChute_channel (n : Nat) (x : Chute) (m : Nat) : (d.setChute c n x).channel m ch = d.channel m ch := by
  simp only [setChute, channel, modCore_eq, setCore_core]
  split
  · next h => subst h; rfl
  · rfl

theorem traceRec_chute (n k sl b x m : Nat) : (d.traceRec n k sl b x).chute m ch = d.chute m ch := by simp [chute]

/-! ### END unbinds the Chutes of its channel (R232, R245) -/

/-- A Chute that is bound to the channel is free of it; any other stays. -/
def chuteFreed (x : Chute) : Chute :=
  if x.bound != .none && x.bcore == c && x.bch == ch then { x with bound := .none, bch := 0, bcore := 0 } else x

/-- The Chutes of a core, those of the channel unbound. -/
def coreFreed (k : Core) : Core := { k with chutes := Table.mapAll k.chutes Chute.reset (chuteFreed c ch) }

theorem unbind_eq : d.unbind c ch = (List.range 12).foldl (fun d n => d.modCore n (coreFreed c ch)) d := rfl

/-- A core that is named once in a list of changes is changed once. -/
theorem foldl_modCore_core {f : Core → Core} {l : List Nat} (hl : l.Nodup) (n : Nat) :
    (l.foldl (fun d k => d.modCore k f) d).core n = if n ∈ l then f (d.core n) else d.core n := by
  induction l generalizing d with
  | nil => rfl
  | cons k r ih =>
    obtain ⟨hk, hr⟩ := List.nodup_cons.1 hl
    rw [List.foldl_cons, ih _ hr, modCore_eq, setCore_core]
    by_cases hn : k = n
    · subst hn; simp [hk]
    · simp [hn, Ne.symm hn]

theorem unbind_core {n : Nat} (h : n < 12) : (d.unbind c ch).core n = coreFreed c ch (d.core n) := by
  rw [unbind_eq, foldl_modCore_core d List.nodup_range, if_pos (List.mem_range.2 h)]

/-- In a core that lists no Chute twice END frees the Chutes of the channel, and no other. -/
theorem unbind_chute {n : Nat} (h : n < 12) (hlist : ((d.core n).chutes.map (·.1)).Nodup) (m : Nat) :
    (d.unbind c ch).chute n m = chuteFreed c ch (d.chute n m) := by
  rw [chute, unbind_core d c ch h]
  exact Table.get_mapAll (by simp [chuteFreed, Chute.reset]) hlist m

theorem haulEndOp_chute (w : W64) (k : Channel) (n m : Nat) : (haulEndOp c ch w k d).chute n m = (d.unbind c ch).chute n m :=
  (traceRec_chute ..).trans (setChannel_chute ..)

end Device

/-! ### A core that lists a Chute twice -/

/-- Core 0 lists Chute 0 bound to its channel 0, which is at an END, and again as a Chute for handles. -/
def twiceBound : State := { pending := [], dev := { Device.reset with
  fuse := { Config.fuses with cores := 0 }
  sec := Security.reset
  cores := [(0, { Core.reset with
    channels := [(0, { Channel.reset with state := .running })]
    chutes := [(0, { Chute.reset with bound := .full }), (0, { Chute.reset with handle := true })] })] } }

theorem mayExecute_twiceBound : twiceBound.dev.mayExecute 0 0 0x0 = true := by decide

theorem chute_twiceBound : twiceBound.dev.chute 0 0 = { Chute.reset with bound := .full } := by decide

/-- The first entry becomes the default and is dropped, so that the second is read. -/
theorem unbind_chute_twiceBound : (twiceBound.dev.unbind 0 0).chute 0 0 = { Chute.reset with handle := true } := by
  rw [Device.chute, Device.unbind_core _ 0 0 (by decide)]
  decide

/-- Refutes O33: its clause about END asks, from any state, that a Chute which the channel had bound reads as before but for its
binding. Where a core lists a Chute twice, as in `twiceBound`, the first entry can come to equal the default and is dropped, and the
second is read: a Chute for handles for one that was not. The lists that the model writes name no Chute twice, so such a state is
one to start from and not one that a run meets; where no core lists a Chute twice the clause holds (`Device.unbind_chute`). -/
theorem not_haulInstructionResults : ¬ Obligations.HaulInstructionResults := by
  rintro ⟨-, -, -, -, -, -, hend, -⟩
  obtain ⟨t, ht, -, hchute⟩ := hend twiceBound 0 0 mayExecute_twiceBound
  have hdev := Host.Outcome.next.inj (ht.symm.trans (exec_haulStep (body := Device.haulEndOp 0 0) mayExecute_twiceBound rfl))
  have h := hchute 0 (by decide) 0
  rw [hdev, Device.haulEndOp_chute, unbind_chute_twiceBound, chute_twiceBound] at h
  exact absurd h (by decide)

/-! ### Tile streams (R245, R246) -/

namespace Device
variable {d : Device} {c ch : Nat} {w : W64} {k : Channel}

/-- The ring that TRING begins, its first slot at `off` of what DST points at, which is `soff` of its core's slice. -/
def newRing (k : Channel) (w : W64) (handle : W32) (off soff : Nat) : Ring4 :=
  { id := (k.ring.toList ++ k.olds).length, space := k.dst.space, handle := handle, off := off, soff := soff, core := bits w 11 8,
    size := (if bits w 27 16 = 0 then 4096 else bits w 27 16) * 256, fullChute := bits w 7 4, freeChute := bits w 15 12,
    next := 0, open_ := false, unreturned := [] }

/-- The channel with that ring; those before it still take their handles back. -/
def beginRing (k : Channel) (w : W64) (handle : W32) (off soff : Nat) : Channel :=
  { k with olds := k.ring.toList ++ k.olds, ring := some (newRing k w handle off soff) }

/-- The Chutes that TRING names are bound to the channel. -/
def ringBound (d : Device) (c ch : Nat) (w : W64) : Device :=
  let e := d.setChute (bits w 11 8) (bits w 7 4) { d.chute (bits w 11 8) (bits w 7 4) with bound := .full, bch := ch, bcore := c }
  e.setChute c (bits w 15 12) { e.chute c (bits w 15 12) with bound := .free, bch := ch, bcore := c }

section
variable (hfull : d.bindable (bits w 11 8) (bits w 7 4) = true) (hfree : d.bindable c (bits w 15 12) = true)
  (hne : bits w 11 8 = c → bits w 7 4 ≠ bits w 15 12)
include hfull hfree hne

/-- No check of R245 halts the channel at a TRING for the core of its FULL Chute. -/
theorem tringHalts_false : (decide (bits w 11 8 ≠ bits w 11 8) || !d.bindable (bits w 11 8) (bits w 7 4) ||
    !d.bindable c (bits w 15 12) || (bits w 11 8 == c && bits w 7 4 == bits w 15 12)) = false := by
  simpa [hfull, hfree] using hne

/-- TRING in the core's own slice. -/
theorem haulTringOp_slice (hspace : k.dst.space = 0) (hcore : bits w 11 8 = c) : haulTringOp c ch w k d =
    (d.ringBound c ch w).executed c ch (beginRing k w 0 (k.addr k.dst).toNat (k.addr k.dst).toNat) := by
  have hmay := tringHalts_false hfull hfree hne
  have hloc : locOf c k k.dst.space (k.addr k.dst) k.dst.xa k.dst.slot = .slice c (k.addr k.dst).toNat := by rw [hspace]; rfl
  subst hcore
  simp only [haulTringOp, hloc, hmay, Bool.false_eq_true, if_false, beginRing, newRing, List.length_append, Nat.add_comm k.olds.length]
  rfl

/-- TRING in a window of the core of its FULL Chute. -/
theorem haulTringOp_window {l : Loc} {h : W32} {o : Nat} {b : Bool}
    (hloc : locOf c k k.dst.space (k.addr k.dst) k.dst.xa k.dst.slot = l)
    (hend : d.winEnd ((d.pdkOfCore c).getD 0) l = some (h, o, b))
    (hcore : (d.window (256 * (d.pdkOfCore c).getD 0 + winSlot h)).core = bits w 11 8) : haulTringOp c ch w k d =
    (d.ringBound c ch w).executed c ch (beginRing k w h o ((d.window (256 * (d.pdkOfCore c).getD 0 + winSlot h)).base + o)) := by
  have hmay := tringHalts_false hfull hfree hne
  cases l with
  | window _ _ | slot _ _ =>
    simp only [haulTringOp, hloc, hend, hcore, hmay, Bool.false_eq_true, if_false, beginRing, newRing, List.length_append,
      Nat.add_comm k.olds.length]
    rfl
  | _ => cases hend

end

/-- What DST points at in a window: its handle and the offset in it, from its base where it was set by a slot handle (R237). -/
theorem winEnd_dst (hspace : k.dst.space = 1) (p : Nat) :
    let a := k.addr k.dst
    let h : W32 := if k.dst.slot then (k.arg k.dst.xa).setWidth 32 else BitVec.ofNat 32 (bits a 63 32)
    let o := if k.dst.slot then (bits a 31 0 + 2 ^ 32 - (d.window (256 * p + winSlot h)).base) % 2 ^ 32 else bits a 31 0
    ∃ b, d.winEnd p (locOf c k k.dst.space a k.dst.xa k.dst.slot) = some (h, o, b) := by
  rw [hspace]
  cases k.dst.slot with
  | false => exact ⟨true, by simp only [locOf, winEnd, Bool.false_eq_true, if_false]⟩
  | true => exact ⟨_, by simp only [locOf, winEnd, if_true]; rfl⟩

/-- TNEXT while fewer than four tiles are unreturned. -/
theorem haulTnextOp_eq {r : Ring4} (hring : k.ring = some r) (hclosed : r.open_ = false) (hroom : r.unreturned.length < 4) :
    haulTnextOp c ch w k d =
      let o := r.off + r.size * (r.next % 4)
      let base := if r.space = 0 then BitVec.ofNat 64 o else BitVec.ofNat 64 (r.handle.toNat * 2 ^ 32 + o % 2 ^ 32)
      d.executed c ch { k with dst := { k.dst with space := r.space, base := base, slot := false },
                               ring := some { r with next := r.next + 1, open_ := true } } := by
  simp only [haulTnextOp, hring, hclosed, Nat.not_le.2 hroom, Bool.false_eq_true, if_false]
  rfl

/-- The handle of a ring's tile `n`. -/
def tileHandle (r : Ring4) (n : Nat) : W64 := slotHandle (r.soff + r.size * (n % 4)) r.core (r.size / 256) (n % 2 ^ 20)

/-- A Chute of 64 entries is full for every sender. -/
theorem fullFor_of_length {core n : Nat} {src : Sender} (h : 64 ≤ (d.chute core n).entries.length) : d.fullFor core n src = true := by
  simp [fullFor, h]

section
variable {r : Ring4} (hring : k.ring = some r) (hopen : r.open_ = true)
  (hpieces : (d.pieces.any fun x => x.2.owner == .channel c ch) = false) (hwrites : d.writesPending c ch = false)
  (halign : (r.soff + r.size * ((r.next - 1) % 4)) % 256 = 0) (hend : r.soff + r.size * ((r.next - 1) % 4) + r.size ≤ 2 ^ 26)
include hring hopen hpieces hwrites halign hend

/-- TPUT of a tile whose writes are done, by what its push meets (R246, R256). -/
theorem haulTputOp_eq {e : Device} {ok : Bool}
    (hpush : d.push (.channel c ch) r.core r.fullChute (tileHandle r (r.next - 1)) true 0 = (e, ok)) :
    haulTputOp c ch w k d = if ok then e.executed c ch { k with
        ring := some { r with open_ := false,
                              unreturned := r.unreturned ++ [(r.next - 1, r.soff + r.size * ((r.next - 1) % 4))] } }
      else e.haulWait c ch .chute := by
  have hfits : (decide ((r.soff + r.size * ((r.next - 1) % 4)) % 256 ≠ 0) ||
      decide (2 ^ 26 < r.soff + r.size * ((r.next - 1) % 4) + r.size)) = false := by
    simpa [halign] using hend
  unfold tileHandle at hpush
  simp only [haulTputOp, hring, hopen, landed_of_complete hpieces hwrites, tileTag, hfits, hpush, Bool.not_true, Bool.false_eq_true,
    if_false]
  cases ok <;> rfl

end

/-- The channel takes back the handle of its oldest unreturned tile, which is the oldest entry of its FREE Chute (R246). -/
theorem creditReturn_eq {r : Ring4} {n so : Nat} {v : W64} {l : List W64} {u : List (Nat × Nat)}
    (hring : (d.channel c ch).ring = some r) (hstate : (d.channel c ch).state = .running)
    (hentries : (d.chute c r.freeChute).entries = v :: l) (hoff : bits v 25 0 = so) (htag : bits v 63 44 = n % 2 ^ 20)
    (hold : r.unreturned = (n, so) :: u) :
    creditReturn c ch d =
      (d.setChute c r.freeChute { d.chute c r.freeChute with entries := l }).setChannel c ch { d.channel c ch with
        ring := some { r with unreturned := u }
        fetched := Table.erase (d.channel c ch).fetched (2 ^ 32 * r.id + n)
        wait := if (d.channel c ch).wait = .tile then .none else (d.channel c ch).wait } := by
  have hmatch : hOffset v = so ∧ handleTag v = tileTag n := ⟨hoff, htag⟩
  have hruns : ¬ (d.channel c ch).state ≠ .running := not_not.2 hstate
  simp only [creditReturn, hring, hruns, popChute_cons hentries, hold, hmatch, if_false, and_self, if_true]
  rw [modChannel, setChute_channel]

end Device

/-- Settles O35: each instruction by what its body makes of the channel's ring, a TPUT by what its push meets. -/
theorem tileStreamResults : Obligations.TileStreamResults := by
  unfold Obligations.TileStreamResults
  refine ⟨?tring, ?tnext, ?tput, ?credit⟩
  case tring =>
    intro s c ch h k w a p hnd x o size hfull hfree hne d e olds r
    refine ⟨fun hspace hcore => ?_, fun hspace hcore => ?_⟩
    · exact exec_haulStep h (Device.haulTringOp_slice hfull hfree hne hspace hcore)
    · obtain ⟨b, hend⟩ := Device.winEnd_dst (d := s.dev) (c := c) hspace p
      exact exec_haulStep h (Device.haulTringOp_window hfull hfree hne rfl hend hcore.symm)
  case tnext =>
    intro s c ch r h hring hclosed hroom k o base dst k'
    exact exec_haulStep h (Device.haulTnextOp_eq hring hclosed hroom)
  case tput =>
    intro s c ch r h hring hopen hpieces hwrites hheld k so v k' halign hend full
    have hput : ∀ {e : Device} {ok : Bool}, s.dev.push (.channel c ch) r.core r.fullChute v true 0 = (e, ok) →
        exec (.tput c ch) s = .next { s with dev := if ok then e.executed c ch k' else e.haulWait c ch .chute } := fun hpush =>
      exec_haulStep h (Device.haulTputOp_eq hring hopen hpieces hwrites halign hend hpush)
    refine ⟨fun hown hroom => ?own, fun hother hrecv hroom => hput (Device.push_sends hheld hother hrecv hroom), fun hown hlen => ?full⟩
    case own =>
      subst hown
      exact hput (Device.push_enters hheld rfl hroom)
    case full =>
      subst hown
      exact hput (Device.push_refused hheld (.inl rfl) (Device.fullFor_of_length hlen))
  case credit =>
    intro s c ch n so r v l u hc hch hring hstate hentries hold hoff htag
    refine ⟨_, onChannel_of_eq hc hch (Device.creditReturn_eq hring hstate hentries hoff htag hold), ?_, ?_, ?_⟩
    · rw [Device.setChannel_chute, Device.setChute_chute_same]
    · rw [Device.setChannel_channel_same]
    · rw [Device.setChannel_channel_same]
      exact ⟨_, rfl, rfl, rfl, rfl⟩

end Sys2Proof.Machine
end

section
/-! PROOF. Musters: the arrival of a core, the release of a round and its deadline (spec 08: R262 to R267). -/

namespace Sys2Proof.Machine

/-! ### The rounds, and what the operations of a Muster leave -/

namespace Device
variable (d : Device)

/-- Where core `c` waits at a Muster. -/
def musterWait (c : Nat) : Bool × Nat × BitVec 32 := ((d.core c).musWaiting, (d.core c).musId, (d.core c).musRound)

theorem musterWait_congr {d e : Device} (h : e.cores = d.cores) (c : Nat) : e.musterWait c = d.musterWait c := by
  simp only [musterWait, core_congr h]

theorem roundOf_congr {d e : Device} (h : e.rounds = d.rounds) (j id : Nat) : e.roundOf j id = d.roundOf j id := by
  simp only [roundOf, h]

/-- The deadline slot is all that is armed anew. -/
theorem rearmMuster_part {β : Type} {φ : Device → β} (hs : ∀ d n v, φ (setAlarm d n v) = φ d) (p : Nat) :
    φ (d.rearmMuster p) = φ d := by
  unfold rearmMuster
  split
  · rfl
  · split
    · rfl
    · split <;> exact hs ..

@[simp] theorem rearmMuster_rounds (p : Nat) : (d.rearmMuster p).rounds = d.rounds := d.rearmMuster_part (fun _ _ _ => rfl) p
@[simp] theorem rearmMuster_cores (p : Nat) : (d.rearmMuster p).cores = d.cores := d.rearmMuster_part (fun _ _ _ => rfl) p

/-- The common step lowers the power step alone. -/
theorem lowerCommon_part {β : Type} {φ : Device → β} (hs : ∀ d w, φ { d with power := w } = φ d) : φ d.lowerCommon = φ d := by
  unfold lowerCommon
  split
  · rfl
  · split
    · rfl
    · dsimp only
      split
      · exact hs d _
      · exact hs d _

@[simp] theorem lowerCommon_rounds : d.lowerCommon.rounds = d.rounds := d.lowerCommon_part fun _ _ => rfl
@[simp] theorem lowerCommon_cores : d.lowerCommon.cores = d.cores := d.lowerCommon_part fun _ _ => rfl

/-- A drain at a Kerf point changes the sequencer of its core alone. -/
theorem kpWait_part {β : Type} {φ : Device → β} {c : Nat} (x : QInstr)
    (hs : ∀ d (f : Sequencer → Sequencer), φ (modCore d c fun k => { k with sq := f k.sq }) = φ d) : φ (d.kpWait c x) = φ d := by
  unfold kpWait
  dsimp only
  split
  · split
    · split
      · rfl
      · exact hs d fun q => { q.kerfPassed with skipped := some x.num }
    · exact hs d fun q => { q with stat := .draining, draining := some none }
  · rfl

@[simp] theorem setRound_cores (r : Round) : (d.setRound r).cores = d.cores := rfl

variable {d}

/-- A search that asks only for job and ID finds the round that has taken the place of the one it found. -/
theorem roundOf_setRound {j id : Nat} {r r' : Round} (h : d.roundOf j id = some r) (hjob : r'.job = r.job) (hid : r'.id = r.id) :
    (d.setRound r').roundOf j id = some r' := by
  have hr := List.find?_some (p := fun x : Round => x.job == j && x.id == id) h
  obtain ⟨hj, hi⟩ : r.job = j ∧ r.id = id := by simpa using hr
  unfold roundOf at h ⊢
  have hsame : ((fun x : Round => x.job == j && x.id == id) ∘ fun x => if x.job == r'.job && x.id == r'.id then r' else x) =
      fun x => x.job == j && x.id == id := by
    funext x
    simp only [Function.comp_apply, hjob, hid, hj, hi]
    split
    · next hx => simp [hjob, hid, hj, hi, hx]
    · rfl
  rw [setRound, List.find?_map, hsame, h]
  simp [hjob, hid]

theorem mem_setRound {r r' : Round} (h : r ∈ d.rounds) (hjob : r'.job = r.job) (hid : r'.id = r.id) :
    r' ∈ (d.setRound r').rounds :=
  List.mem_map.2 ⟨r, h, by simp [hjob, hid]⟩

/-! ### The arrival of a core (R262, R263, R265) -/

theorem job_of_jobOf {c j : Nat} {v : Job} (h : d.jobOf c = some (j, v)) : d.job j = some v := by
  unfold jobOf at h
  split at h
  · cases h
  · obtain ⟨_, hv, hjv⟩ := Option.map_eq_some_iff.1 h
    cases hjv
    exact hv

theorem id_of_musterDef {v : Job} {id : Nat} {m : MusterDef} (h : musterDef v id = some m) : m.id = id := by
  simpa using List.find?_some h

section
variable {c j : Nat} {v : Job} {m : MusterDef} {r : Round}

/-- A round of one job of which a core is missing is not complete. -/
theorem tryComplete_of_missing (hjob : d.job j = some v) (hdef : musterDef v m.id = some m) (hround : d.roundOf j m.id = some r)
    (hscope : m.scope = 0) (hmissing : allLocal v r = false) : d.tryComplete j m.id = d := by
  simp [tryComplete, hjob, hdef, hround, roundComplete, hscope, hmissing]

/-- The round with the arrival of core `c`, and what the arrival makes of the deadline (R265, R267). -/
def joined (r : Round) (c : Nat) (named : Bool) (deadline paused : Option Nat) : Round :=
  { r with arrived := r.arrived ++ [c], named := named, deadline := deadline, paused := paused }

/-- The core is counted in its round, which stays open while others are missing. -/
theorem arriveRound_of_missing (hjob : d.job j = some v) (hdef : musterDef v m.id = some m) (hround : d.roundOf j m.id = some r)
    (hscope : m.scope = 0) (hmissing : v.cores.all (r.arrived ++ [c]).contains = false) (hnew : r.arrived.contains c = false)
    (operand : Option Nat) : ∃ named deadline paused,
      d.arriveRound c j v m r operand = (d.setRound (joined r c named deadline paused)).rearmMuster r.paddock := by
  unfold arriveRound
  extract_lets r0 r1 e
  have hr0 : r0 = joined r c r.named r.deadline r.paused := by simp only [r0, hnew]; rfl
  obtain ⟨named, deadline, paused, hr1⟩ : ∃ named deadline paused, r1 = joined r c named deadline paused := by
    simp only [r1, hr0]
    split
    · split
      · exact ⟨_, _, _, rfl⟩
      · split <;> exact ⟨_, _, _, rfl⟩
    · split
      · exact ⟨_, _, _, rfl⟩
      · split <;> exact ⟨_, _, _, rfl⟩
  have hreport : e.reportArrival v m r1 = e := by simp [reportArrival, hscope]
  have hejob : e.job j = some v := (job_of_ledger (ledger_rearmMuster (d.setRound r1) _) j).trans hjob
  have heround : e.roundOf j m.id = some r1 := by
    rw [roundOf_congr (rearmMuster_rounds ..), hr1]
    exact roundOf_setRound hround rfl rfl
  have hemissing : allLocal v r1 = false := by rw [hr1]; exact hmissing
  rw [hreport, tryComplete_of_missing hejob hdef heround hscope hemissing]
  exact ⟨named, deadline, paused, by simp only [e, hr1]⟩

end
end Device

/-- MUSTER where a core is missing: the core waits at the round, in which it is counted. -/
theorem musterBody_eq {d : Device} {c j : Nat} {x : QInstr} {v : Job} {m : MusterDef} {r : Round}
    (hfree : (d.core c).musWaiting = false) (hjob : d.jobOf c = some (j, v)) (hid : bits x.word 43 32 ≠ 0xFFF)
    (hdef : Device.musterDef v (bits x.word 43 32) = some m) (hround : d.roundOf j (bits x.word 43 32) = some r) (hscope : m.scope = 0) :
    musterBody c x d = .wait ((waitAt c (bits x.word 43 32) r.round d).arriveRound c j v m r
      (if fA x.word = 0 then none else some ((d.core c).sq.sop (fA x.word)).toNat)) (some .muster) := by
  simp [musterBody, hfree, hjob, hid, hdef, hround, hscope]

/-- A MUSTER that came to wait leaves the rounds, and where its core waits, as its body did. -/
theorem musterStep_of_wait {d e : Device} {c : Nat} {x : QInstr} (h : d.mayIssue c .c 0x16 x = true)
    (hbody : musterBody c x d = .wait e (some .muster)) (hwait : (e.core c).musWaiting = true) :
    (musterStep c d).rounds = e.rounds ∧ (musterStep c d).musterWait c = e.musterWait c := by
  have hissue := Device.issue_wait h hbody
  have hrounds : (Device.issue c .c 0x16 (musterBody c) d).rounds = e.rounds := by
    rw [hissue]
    exact Device.kpWait_part (φ := Device.rounds) _ x fun _ _ => rfl
  have hmuster : (Device.issue c .c 0x16 (musterBody c) d).musterWait c = e.musterWait c := by
    rw [hissue]
    refine (Device.kpWait_part (φ := (Device.musterWait · c)) _ x fun _ _ => ?_).trans ?_
    · simp [Device.musterWait]
    · simp [Device.musterWait]
  have hwaits : ((Device.issue c .c 0x16 (musterBody c) d).core c).musWaiting = true := (congrArg Prod.fst hmuster).trans hwait
  unfold musterStep
  extract_lets before bundle d1 d2
  have hd2 : d2.rounds = d1.rounds ∧ d2.cores = d1.cores := by
    simp only [d2]
    split
    · exact ⟨Device.traceRec_rounds .., Device.traceRec_cores ..⟩
    · exact ⟨rfl, rfl⟩
  have hstays : (d2.core c).musWaiting = true := by rw [Device.core_congr hd2.2]; exact hwaits
  rw [if_pos hstays]
  exact ⟨hd2.1.trans hrounds, (Device.musterWait_congr hd2.2 c).trans hmuster⟩

/-- MUSTER where a core is missing: the core waits at the round, which has its arrival and stays open (R263). -/
theorem musterStep_arrives {d : Device} {c j : Nat} {x : QInstr} {v : Job} {m : MusterDef} {r : Round}
    (h : d.mayIssue c .c 0x16 x = true) (hfree : (d.core c).musWaiting = false) (hjob : d.jobOf c = some (j, v))
    (hid : bits x.word 43 32 ≠ 0xFFF) (hdef : Device.musterDef v (bits x.word 43 32) = some m)
    (hround : d.roundOf j (bits x.word 43 32) = some r) (hscope : m.scope = 0)
    (hmissing : v.cores.all (r.arrived ++ [c]).contains = false) (hnew : r.arrived.contains c = false) :
    (musterStep c d).musterWait c = (true, bits x.word 43 32, r.round) ∧ ∃ named deadline paused,
      (musterStep c d).roundOf j (bits x.word 43 32) = some (Device.joined r c named deadline paused) := by
  have hmid : m.id = bits x.word 43 32 := Device.id_of_musterDef hdef
  have hbody := musterBody_eq hfree hjob hid hdef hround hscope
  rw [← hmid] at hid hdef hround hbody ⊢
  have hcore : (waitAt c m.id r.round d).musterWait c = (true, m.id, r.round) := by simp [Device.musterWait, waitAt]
  obtain ⟨named, deadline, paused, harrive⟩ := Device.arriveRound_of_missing (d := waitAt c m.id r.round d)
    (Device.job_of_jobOf (d := d) hjob) hdef hround hscope hmissing hnew
    (if fA x.word = 0 then none else some ((d.core c).sq.sop (fA x.word)).toNat)
  rw [harrive] at hbody
  have hwait := (Device.musterWait_congr (Device.rearmMuster_cores ((waitAt c m.id r.round d).setRound
    (Device.joined r c named deadline paused)) r.paddock) c).trans hcore
  obtain ⟨hrounds, hmuster⟩ := musterStep_of_wait h hbody (congrArg Prod.fst hwait)
  refine ⟨hmuster.trans hwait, named, deadline, paused, ?_⟩
  rw [Device.roundOf_congr (hrounds.trans (Device.rearmMuster_rounds ..))]
  exact Device.roundOf_setRound (d := waitAt c m.id r.round d) hround rfl rfl

/-! ### The release of a round (R264) -/

namespace Device
variable {d : Device}

/-- The round that begins where `r` is released. -/
def nextRound (r : Round) : Round :=
  { r with round := r.round + 1, arrived := [], peers := r.early, early := [], offers := r.earlyOffers, earlyOffers := [], named := false,
           deadline := none, paused := none, releaseAt := none }

theorem releaseCores_cons (d : Device) (k : Nat) (l : List Nat) : d.releaseCores (k :: l) = (d.releaseCores [k]).releaseCores l := rfl

theorem releaseCores_one_musWaiting (d : Device) (k c : Nat) :
    ((d.releaseCores [k]).core c).musWaiting = (!decide (k = c) && (d.core c).musWaiting) := by
  by_cases hk : k = c
  · subst hk
    cases hw : (d.core k).musWaiting <;> simp [releaseCores, hw]
  · cases hw : (d.core k).musWaiting <;> simp [releaseCores, hw, hk, setCore_core]

/-- No core that is released waits at a Muster. -/
theorem releaseCores_musWaiting {c : Nat} {l : List Nat} (h : c ∈ l ∨ (d.core c).musWaiting = false) :
    ((d.releaseCores l).core c).musWaiting = false := by
  induction l generalizing d with
  | nil => simpa [releaseCores] using h
  | cons k l ih =>
    rw [releaseCores_cons]
    refine ih ?_
    rw [releaseCores_one_musWaiting]
    rcases h with h | h
    · rcases List.mem_cons.1 h with rfl | h
      · simp
      · exact .inl h
    · simp [h]

@[simp] theorem releaseCores_rounds (d : Device) (l : List Nat) : (d.releaseCores l).rounds = d.rounds := by
  refine foldl_part (φ := rounds) (fun _ _ => ?_) l d
  split <;> rfl

section
variable {j : Nat} {r : Round}

theorem releaseRound_cores {v : Job} (h : d.job j = some v) : (d.releaseRound j r).cores = (d.releaseCores v.cores).cores := by
  simp [releaseRound, h, progress, modPdk, apply_ite cores]

theorem releaseRound_rounds : (d.releaseRound j r).rounds = (d.setRound (nextRound r)).rounds := by
  simp [releaseRound, progress, modPdk, apply_ite rounds, setRound, nextRound]

end
end Device

/-- A round whose release instant has come is released. -/
theorem leadRelease_eq {d : Device} {p id at_ : Nat} {r : Round} (honly : (d.rounds.filter fun r => r.paddock == p && r.id == id) = [r])
    (hrel : r.releaseAt = some at_) (hnow : at_ ≤ d.now) : leadRelease p id d = d.releaseRound r.job r := by
  simp [leadRelease, honly, hrel, hnow]

/-! ### The deadline of a round (R265, R266) -/

/-- The firing of a slot changes the slot alone. -/
theorem Device.fired_part {β : Type} {φ : Device → β} (hs : ∀ d n v, φ (Device.setAlarm d n v) = φ d) (d : Device) (n : Nat) :
    φ (d.fired n) = φ d := by
  unfold Device.fired
  dsimp only
  split <;> exact hs ..

theorem musterTimeout_job (d : Device) (r : Round) : (musterTimeout d r).job r.job = none := by
  unfold musterTimeout
  split
  · assumption
  · exact Device.endJob_job ..

/-- A round of Paddock `p` whose deadline has been reached. -/
def overdue (d : Device) (p : Nat) (r : Round) : Bool :=
  r.paddock == p && (match r.deadline with
    | some t => decide (t ≤ d.now)
    | none => false)

theorem musterDeadline_fires {d : Device} {slot : Nat} (hfires : d.fires slot 2 = true) :
    musterDeadline slot d = ((sortBy (fun (a b : Round) => decide (a.id < b.id))
      ((d.fired slot).rounds.filter (overdue (d.fired slot) (d.alarm slot).owner))).foldl musterTimeout (d.fired slot)).rearmMuster
        (d.alarm slot).owner := if_pos hfires

/-- The one round whose deadline has been reached times out. -/
theorem musterDeadline_eq {d : Device} {slot : Nat} {r : Round} (hfires : d.fires slot 2 = true)
    (hlate : d.rounds.filter (overdue d (d.alarm slot).owner) = [r]) :
    musterDeadline slot d = (musterTimeout (d.fired slot) r).rearmMuster (d.alarm slot).owner := by
  have hrounds : (d.fired slot).rounds = d.rounds := Device.fired_part (fun _ _ _ => rfl) d slot
  have hnow : (d.fired slot).now = d.now := Device.fired_part (fun _ _ _ => rfl) d slot
  have hoverdue : overdue (d.fired slot) = overdue d := by
    funext p r
    simp only [overdue, hnow]
  rw [musterDeadline_fires hfires, hrounds, hoverdue, hlate]
  rfl

/-- Settles O18: the arrival by what the round is counted with, the release by the cores and the rounds it leaves, the deadline by
the end of the round's job. -/
theorem musterResults : Obligations.MusterResults := by
  unfold Obligations.MusterResults
  refine ⟨?arrival, ?release, ?deadline⟩
  case arrival =>
    intro s c x j v m r h id hfree hjob hid hdef hround hscope hmissing hnew
    obtain ⟨hwait, named, deadline, paused, hround'⟩ := musterStep_arrives h hfree hjob hid hdef hround hscope hmissing hnew
    exact ⟨_, onUnit_next _ _ (Device.mayIssue_iff.1 h).1, congrArg Prod.fst hwait, congrArg (·.2.1) hwait, congrArg (·.2.2) hwait,
      _, hround', rfl, rfl⟩
  case release =>
    intro s p id r v at_ hp hid honly hrel hnow hjob
    refine ⟨_, (if_pos hid).trans (onUnit_next _ _ hp), ?_⟩
    rw [leadRelease_eq honly hrel hnow]
    have hr : r ∈ s.dev.rounds ∧ (r.paddock == p && r.id == id) = true := List.mem_filter.1 (honly ▸ List.mem_singleton_self r)
    obtain ⟨hmem, hnames⟩ := hr
    have hrid : r.id = id := eq_of_beq (Bool.and_eq_true_iff.1 hnames).2
    refine ⟨fun c hc => ?_, Device.nextRound r, ?_, rfl, hrid, rfl, rfl⟩
    · rw [Device.core_congr (Device.releaseRound_cores hjob)]
      exact Device.releaseCores_musWaiting (.inl hc)
    · rw [Device.releaseRound_rounds]
      exact Device.mem_setRound hmem rfl rfl
  case deadline =>
    intro s slot r hslot hfires hlate
    refine ⟨_, onUnit_next _ _ hslot, ?_⟩
    rw [musterDeadline_eq hfires hlate, Device.job_of_ledger (Device.ledger_rearmMuster ..)]
    exact musterTimeout_job ..

end Sys2Proof.Machine
end

section
/-! PROOF. Translation: completions, page requests, invalidations, acknowledgements, and what ends the host link (spec 09: R290 to R300,
R306, R307). -/

namespace Sys2Proof.Machine

/-! ### Entries and the pages they cover (R290) -/

theorem pageBytes_pos (sz : PageSize) : 0 < pageBytes sz := by cases sz <;> decide

theorem AtcEntry.covers_iff {e : AtcEntry} {ctx a : Nat} : e.covers ctx a = true ↔
    e.context = ctx ∧ e.group = a / (16 * pageBytes e.size) ∧ e.mask.getLsbD (a / pageBytes e.size % 16) = true := by
  simp [AtcEntry.covers, and_assoc]

/-- Page `m` of a group is covered by an entry of the group whose mask has bit `m`. -/
theorem AtcEntry.covers_page {e : AtcEntry} {m : Nat} (hm : m < 16) (hmask : e.mask.getLsbD m = true) :
    e.covers e.context ((16 * e.group + m) * pageBytes e.size) = true := by
  have hpos := pageBytes_pos e.size
  have hpage : (16 * e.group + m) * pageBytes e.size / pageBytes e.size = 16 * e.group + m := Nat.mul_div_cancel _ hpos
  refine AtcEntry.covers_iff.2 ⟨rfl, ?_, ?_⟩
  · rw [Nat.mul_comm 16 (pageBytes e.size), ← Nat.div_div_eq_div_mul, hpage]
    omega
  · rw [hpage, Nat.mul_add_mod, Nat.mod_eq_of_lt hm]
    exact hmask

/-- The group of an entry that covers an address of a range overlaps the range. -/
theorem groupOverlaps_of_covers {e : AtcEntry} {ctx a n x : Nat} (hcovers : e.covers ctx x = true) (ha : a ≤ x) (hx : x < a + n) :
    Device.groupOverlaps e a n = true := by
  obtain ⟨-, hgroup, -⟩ := AtcEntry.covers_iff.1 hcovers
  have hlow : e.group * (16 * pageBytes e.size) ≤ x := hgroup ▸ Nat.div_mul_le_self ..
  have hhigh : x < (e.group + 1) * (16 * pageBytes e.size) :=
    hgroup ▸ (Nat.div_lt_iff_lt_mul (by have := pageBytes_pos e.size; omega)).1 (Nat.lt_succ_self _)
  simp only [Device.groupOverlaps, Bool.and_eq_true, decide_eq_true_eq]
  omega

namespace Device
variable {d : Device} {w : Nat} {v : Walker}

/-- A page that fills the table is covered afterwards, with its permissions (R290). -/
theorem fillPage_covers (d : Device) (ctx : Nat) (sz : PageSize) (group hpa : Nat) (r w global : Bool) {m : Nat} (hm : m < 16) :
    ∃ e ∈ (d.fillPage ctx sz group m hpa r w global).xlt.atc,
      e.covers ctx ((16 * group + m) * pageBytes sz) = true ∧ e.r = r ∧ e.w = w ∧ (global = true → e.global = true) := by
  unfold fillPage modXlt
  extract_lets b same bit
  dsimp -zeta only
  extract_lets atc fresh others
  have hbit : bit.getLsbD m = true := (BitVec.getLsbD_ofNat ..).trans (by simp [hm, Nat.testBit_shiftLeft])
  split
  case isTrue hold =>
    obtain ⟨e, he, hfits⟩ := List.any_eq_true.1 hold
    refine ⟨_, List.mem_map_of_mem he, ?_⟩
    rw [if_pos hfits]
    simp only [same, Bool.and_eq_true, beq_iff_eq] at hfits
    obtain ⟨⟨⟨⟨⟨rfl, rfl⟩, rfl⟩, -⟩, hr⟩, hw⟩ := hfits
    exact ⟨AtcEntry.covers_page (e := { e with mask := e.mask ||| bit, global := e.global || global, used := d.xlt.clock }) hm
      (by simp [hbit]), hr, hw, fun hglobal => by simp [hglobal]⟩
  case isFalse =>
    exact ⟨fresh, List.mem_append_right _ (List.mem_singleton_self _), AtcEntry.covers_page (e := fresh) hm hbit, rfl, rfl, id⟩

@[simp] theorem fillPage_walkers (d : Device) (ctx : Nat) (sz : PageSize) (group m hpa : Nat) (r w global : Bool) :
    (d.fillPage ctx sz group m hpa r w global).xlt.walkers = d.xlt.walkers := by
  simp only [fillPage, modXlt]
  split <;> rfl

@[simp] theorem fillPage_misses (d : Device) (ctx : Nat) (sz : PageSize) (group m hpa : Nat) (r w global : Bool) :
    (d.fillPage ctx sz group m hpa r w global).xlt.misses = d.xlt.misses := by
  simp only [fillPage, modXlt]
  split <;> rfl

/-! ### Walkers (R294, R295) -/

/-- A completion of 4 KiB pages that reports one page with a permission fills the table with that page. -/
theorem fillAll_page {r : AtsResult} {g : AtsPage} (hsize : r.size = 4096) (hpages : r.pages = [g]) (hperm : (g.r || g.w) = true)
    (hu : g.u = false) : d.fillAll v r = d.fillPage v.context .p4K v.group (g.page % 16) g.hpa g.r g.w g.global := by
  have hspan : pageSpan r = .p4K := by simp [pageSpan, hsize]
  have hgroup : v.group * 65536 / (16 * pageBytes .p4K) = v.group := Nat.mul_div_cancel _ (by decide)
  simp only [fillAll, hspan, hpages, if_pos, List.foldl_cons, List.foldl_nil, hperm, hu, hgroup, Bool.not_false, Bool.and_true]

/-- With nothing that waits for a walker, none is fed. -/
theorem feedWalkers_of_misses (h : d.xlt.misses = []) : d.feedWalkers = d.modXlt fun x => { x with misses := [] } := by
  rw [feedWalkers, h]
  rfl

section
variable (hw : d.walker w = some v)
include hw

section
variable {r : AtsResult} (hphase : v.phase = .translation)
include hphase

/-- After an invalidation that overlapped it, a completion is asked for again (R299). -/
theorem atsDone_stale (hstale : v.stale = true) :
    d.atsDone w r = (d.setWalker w { v with stale := false }).emit (.atsRequest v.context v.group) := by
  simp [atsDone, hw, hphase, hstale]

theorem atsDone_denied (hstale : v.stale = false) (hdenied : r.denied = true) : d.atsDone w r = d.failWalker w v 0x0202 := by
  simp [atsDone, hw, hphase, hstale, hdenied]

/-- A completion for a walker on which neither a piece nor a command waits fills the table and frees the walker. -/
theorem atsDone_unawaited (hstale : v.stale = false) (hdenied : r.denied = false) (hpieces : v.pieces = []) (hqueued : v.queued = []) :
    d.atsDone w r = ((d.fillAll v r).modXlt fun x => { x with walkers := Table.erase x.walkers w }).feedWalkers := by
  simp [atsDone, hw, hphase, hstale, hdenied, hpieces, hqueued]

theorem atsLate_eq : d.atsLate w = d.failWalker w v 0x0201 := by simp [atsLate, hw, hphase]

end

section
variable (hphase : v.phase = .page)
include hphase

theorem prgDone_success : d.prgDone w .success =
    (d.setWalker w { v with phase := .translation, retried := true, stale := false }).emit (.atsRequest v.context v.group) := by
  simp [prgDone, hw, hphase]

theorem prgDone_invalidRequest : d.prgDone w .invalidRequest = d.failWalker w v 0x0201 := by simp [prgDone, hw, hphase]

theorem prgDone_responseFailure :
    d.prgDone w .responseFailure = (d.modXlt fun x => { x with priStop := true }).failWalker w v 0x0201 := by simp [prgDone, hw, hphase]

theorem prgLate_eq : d.prgLate w = d.failWalker w v 0x0201 := by simp [prgLate, hw, hphase]

end
end

/-- The page of a completion of one page is in the table, and the walker is free. -/
theorem atsDone_page {r : AtsResult} {g : AtsPage} (hw : d.walker w = some v) (hphase : v.phase = .translation) (hstale : v.stale = false)
    (hdenied : r.denied = false) (hsize : r.size = 4096) (hpages : r.pages = [g]) (hperm : (g.r || g.w) = true) (hu : g.u = false)
    (hpieces : v.pieces = []) (hqueued : v.queued = []) (hmisses : d.xlt.misses = []) :
    Table.find (d.atsDone w r).xlt.walkers w = none ∧
    ∃ e ∈ (d.atsDone w r).xlt.atc, e.covers v.context (65536 * v.group + 4096 * (g.page % 16)) = true ∧ e.r = g.r ∧ e.w = g.w ∧
      (g.global = true → e.global = true) := by
  rw [atsDone_unawaited hw hphase hstale hdenied hpieces hqueued, fillAll_page hsize hpages hperm hu,
    feedWalkers_of_misses (by simp [modXlt, hmisses])]
  have haddr : 65536 * v.group + 4096 * (g.page % 16) = (16 * v.group + g.page % 16) * pageBytes .p4K := by
    simp only [pageBytes]
    omega
  rw [haddr]
  exact ⟨by simp [modXlt, Table.find_erase],
    fillPage_covers d v.context .p4K v.group g.hpa g.r g.w g.global (Nat.mod_lt g.page (by decide))⟩

/-! ### Invalidations and flushes (R296, R297, R300) -/

/-- What an Invalidate Request for a range of a context makes a translation lose. -/
def rangeLoses (ctx a n c x : Nat) : Bool :=
  ctx == c && decide (a < (x / 65536 + 1) * 65536) && decide (x / 65536 * 65536 < a + n)

/-- The entries of a context, and the Global ones (log entry 116, the model's choice), whose groups overlap the range go, and what
walkers of the context have asked for there is stale (R297, R299). -/
def forgetRange (d : Device) (ctx a n : Nat) : Device :=
  d.modXlt fun x => { x with
    atc := x.atc.filter fun e => !((ctx == e.context || e.global) && groupOverlaps e a n)
    walkers := Table.mapVals x.walkers fun v =>
      if ctx == v.context && v.phase == .translation && decide (a < (v.group + 1) * 65536) && decide (v.group * 65536 < a + n) then
        { v with stale := true } else v
    invCnt := x.invCnt + 1 }

section
variable {ctx a n : Nat}

theorem invalidate_eq (hroom : (d.xlt.invals.filter fun v => !v.flush).length < 32) :
    d.invalidate (some ctx) a n = ((d.forgetRange ctx a n).notify false).retranslate (rangeLoses ctx a n) :=
  if_neg (Nat.not_le.2 hroom)

theorem mem_forgetRange_atc {e : AtcEntry} : e ∈ (d.forgetRange ctx a n).xlt.atc ↔
    e ∈ d.xlt.atc ∧ ((e.context = ctx ∨ e.global = true) → groupOverlaps e a n = false) := by
  simp only [forgetRange, modXlt, List.mem_filter, Bool.not_eq_true', Bool.and_eq_false_imp, Bool.or_eq_true, beq_iff_eq,
    eq_comm (a := ctx)]

/-- No entry that is left to the context covers an address of the range. -/
theorem covers_forgetRange {e : AtcEntry} {c x : Nat} (he : e ∈ (d.forgetRange ctx a n).xlt.atc)
    (hmine : e.context = ctx ∨ e.global = true) (ha : a ≤ x) (hx : x < a + n) : e.covers c x = false := by
  refine Bool.eq_false_iff.2 fun hcovers => ?_
  have hoverlaps := groupOverlaps_of_covers hcovers ha hx
  rw [(mem_forgetRange_atc.1 he).2 hmine] at hoverlaps
  cases hoverlaps

theorem uncovered_forgetRange {e : AtcEntry} {x : Nat} (he : e ∈ (d.forgetRange ctx a n).xlt.atc) (ha : a ≤ x) (hx : x < a + n) :
    e.covers ctx x = false := by
  by_cases hctx : e.context = ctx
  · exact covers_forgetRange he (.inl hctx) ha hx
  · exact Bool.eq_false_iff.2 fun hcovers => hctx (AtcEntry.covers_iff.1 hcovers).1

end

/-- A fold whose steps all leave its start leaves it. -/
theorem foldl_of_steps_fix {α β : Type} {f : β → α → β} {b : β} {l : List α} (h : ∀ x ∈ l, f b x = b) : l.foldl f b = b := by
  induction l with
  | nil => rfl
  | cons x l ih =>
    rw [List.foldl_cons, h x (List.mem_cons_self ..)]
    exact ih fun y hy => h y (List.mem_cons_of_mem _ hy)

/-- Pieces without translations have none to lose. -/
theorem retranslate_of_untranslated {lost : Nat → Nat → Bool} (h : ∀ x ∈ d.pieces, x.2.srcHpa = none ∧ x.2.dstHpa = none) :
    d.retranslate lost = d := by
  refine foldl_of_steps_fix fun x hx => ?_
  obtain ⟨hsrc, hdst⟩ := h x hx
  cases hphase : x.2.phase <;> simp [hphase, hsrc, hdst]

section
variable {i a n h : Nat} {p : Piece}

/-- A piece that reads its source and has lost the translation of its destination looks it up again (R297). -/
theorem retranslate_reading {lost : Nat → Nat → Bool} (hpieces : d.pieces = [(i, p)]) (hphase : p.phase = .read)
    (hhpa : p.dstHpa = some h) (hlost : lost p.ctx p.dst.dva? = true) :
    d.retranslate lost = (d.setPiece i { p with dstHpa := none }).resolve i 6 := by
  simp [retranslate, Table.foldl, hpieces, hphase, hhpa, hlost]

theorem lookup_miss {ctx : Nat} {write : Bool} (huncovered : ∀ e ∈ d.xlt.atc, e.covers ctx a = false) :
    d.lookup ctx a write = (d.modXlt fun x => { x with missCnt := x.missCnt + 1 }, .miss) := by
  have hnone : (d.xlt.atc.find? fun e => e.covers ctx a) = none :=
    List.find?_eq_none.2 fun e he => Bool.eq_false_iff.1 (huncovered e he)
  simp [lookup, hnone]

/-- A piece whose page no entry covers waits for a walker (R291, R294). -/
theorem resolve_miss {fuel : Nat} {write : Bool} (hp : d.piece i = some p) (hneed : needEnd p = some (a, write))
    (huncovered : ∀ e ∈ d.xlt.atc, e.covers p.ctx a = false) :
    d.resolve i (fuel + 1) =
      (d.modXlt fun x => { x with missCnt := x.missCnt + 1 }).takeMiss p.ctx (a / 65536) p.pdk (.piece i) := by
  simp [resolve, hp, hneed, lookup_miss huncovered]

/-- The walker that asks for the group of one piece. -/
def firstWalker (ctx group pdk i : Nat) : Walker :=
  { context := ctx, group := group, pdk := pdk, phase := .translation, pieces := [i], retried := false, stale := false, page := 0,
    queued := [] }

/-- With every walker free, a miss of a piece takes the first (R294). -/
theorem takeMiss_first {ctx group pdk : Nat} (hwalkers : d.xlt.walkers = []) :
    d.takeMiss ctx group pdk (.piece i) = (d.setWalker 0 (firstWalker ctx group pdk i)).emit (.atsRequest ctx group) := by
  simp [takeMiss, busyWalker, hwalkers, lowest, lowestFrom, firstWalker]

theorem needEnd_of_lost (hphase : p.phase = .read) (hdst : p.dst = .dva a) (ha : a < 2 ^ 57) (hpriv : isPriv a = false) :
    needEnd { p with dstHpa := none } = some (a, true) := by
  simp only [needEnd, hphase, hdst, Loc.isHost, Loc.dva?, hpriv, Nat.mod_eq_of_lt ha]
  rfl

/-- An invalidation of the group of a piece's destination, whose translation is not used yet, makes the piece ask for it again. -/
theorem invalidate_reading (hpieces : d.pieces = [(i, p)]) (hphase : p.phase = .read) (hdst : p.dst = .dva a)
    (hhpa : p.dstHpa = some h) (ha : a < 2 ^ 57) (hpriv : isPriv a = false) (hinvals : d.xlt.invals = []) (hwalkers : d.xlt.walkers = []) :
    (d.invalidate (some p.ctx) (a / 65536 * 65536) 65536).pieces = [(i, { p with dstHpa := none })] ∧
    (d.invalidate (some p.ctx) (a / 65536 * 65536) 65536).xlt.walkers = [(0, firstWalker p.ctx (a / 65536) p.pdk i)] := by
  have hlow : a / 65536 * 65536 ≤ a := Nat.div_mul_le_self a 65536
  have hhigh : a < a / 65536 * 65536 + 65536 := by omega
  have hlost : rangeLoses p.ctx (a / 65536 * 65536) 65536 p.ctx p.dst.dva? = true := by
    simp [rangeLoses, hdst, Loc.dva?]
    omega
  let e := (d.forgetRange p.ctx (a / 65536 * 65536) 65536).notify false
  let q : Piece := { p with dstHpa := none }
  have hmiss := resolve_miss (d := e.setPiece i q) (fuel := 5) (Table.find_put_same e.pieces q i)
    (needEnd_of_lost hphase hdst ha hpriv) fun x hx => uncovered_forgetRange hx hlow hhigh
  have hwalkers' : e.xlt.walkers = [] := by simp [e, notify, forgetRange, modXlt, hwalkers, Table.mapVals]
  rw [invalidate_eq (by simp [hinvals]), retranslate_reading (d := e) (i := i) (p := p) hpieces hphase hhpa hlost, hmiss,
    takeMiss_first (by exact hwalkers')]
  constructor
  · change Table.put d.pieces i q = [(i, q)]
    simp [hpieces, Table.put, Table.erase, Table.insert]
  · change Table.put e.xlt.walkers 0 _ = _
    simp [hwalkers', Table.put, Table.erase, Table.insert, q]

end

/-- The entries that a flush names go (R300). -/
def forgetContext (d : Device) (x : W64) : Device :=
  d.modXlt fun y => { y with atc := y.atc.filter fun e => !(bit x 20 || e.context == bits x 19 0) }

theorem flushXlt_of_untranslated {x : W64} (h : ∀ y ∈ d.pieces, y.2.srcHpa = none ∧ y.2.dstHpa = none) :
    d.flushXlt x = (d.forgetContext x).notify true :=
  retranslate_of_untranslated (d := (d.forgetContext x).notify true) (lost := fun c _ => bit x 20 || c == bits x 19 0) h

theorem invalidate_of_untranslated {ctx a n : Nat} (hroom : (d.xlt.invals.filter fun v => !v.flush).length < 32)
    (h : ∀ y ∈ d.pieces, y.2.srcHpa = none ∧ y.2.dstHpa = none) :
    d.invalidate (some ctx) a n = (d.forgetRange ctx a n).notify false :=
  (invalidate_eq hroom).trans (retranslate_of_untranslated (d := (d.forgetRange ctx a n).notify false) h)

@[simp] theorem notify_atc (d : Device) (flush : Bool) : (d.notify flush).xlt.atc = d.xlt.atc := rfl
@[simp] theorem notify_invCnt (d : Device) (flush : Bool) : (d.notify flush).xlt.invCnt = d.xlt.invCnt := rfl
theorem notify_invals_length (d : Device) (flush : Bool) : (d.notify flush).xlt.invals.length = d.xlt.invals.length + 1 :=
  List.length_append

/-! ### Acknowledgements (R297, R298) -/

section
variable {agent : Nat} {x : Inval} {r : List Inval}

/-- The oldest notice of a list that names the agent first is the first. -/
theorem ackNotice_cons (h : x.agents.contains agent = true) : ackNotice agent (x :: r) =
    if (x.agents.filter (· != agent)).isEmpty then (r, !x.flush) else ({ x with agents := x.agents.filter (· != agent) } :: r, false) :=
  if_pos h

section
variable (hinvals : d.xlt.invals = x :: r) (hagent : x.agents.contains agent = true)
include hinvals hagent

theorem find_owing : (d.xlt.invals.find? fun v => v.agents.contains agent) = some x := by
  rw [hinvals]
  exact List.find?_cons_of_pos hagent

theorem invalAck_eq (howed : d.owedTo x agent = []) : d.invalAck agent = d.ackBy agent := by
  rw [invalAck, find_owing hinvals hagent]
  exact if_pos (List.isEmpty_iff.2 howed)

/-- The acknowledgement of the last agent ends the notice, with an answer where the host asked (R297). -/
theorem ackBy_last (hlast : x.agents.filter (· != agent) = []) :
    (d.ackBy agent).xlt.invals = r ∧ (d.ackBy agent).out = d.out ++ if x.flush then [] else [.invalidateCompletion] := by
  rw [ackBy, hinvals, ackNotice_cons hagent, hlast]
  cases x.flush <;> simp [modXlt, emit]

theorem ackBy_more (hmore : x.agents.filter (· != agent) ≠ []) :
    (d.ackBy agent).xlt.invals = { x with agents := x.agents.filter (· != agent) } :: r ∧ (d.ackBy agent).out = d.out := by
  rw [ackBy, hinvals, ackNotice_cons hagent, if_neg (by simpa using hmore)]
  exact ⟨rfl, rfl⟩

end
end

/-- A host request of a late agent is abandoned: its piece fails at the end that it had on the way (R298). -/
def abandonPiece (d : Device) (i : Nat) : Device :=
  match d.piece i with
  | none => d
  | some p =>
    let l := if p.phase = .read then p.src else p.dst
    (d.xltFault p.ctx p.pdk l.dva? 0x0203).failPiece i 0x0203 l
/-- A late agent is halted, where it is a channel, and counts as having acknowledged (R298). -/
def haltAgent (d : Device) (agent : Nat) : Device :=
  let d := if agent < 24 then d.haltChannel (agent / 2) (agent % 2) 0x0203 0 else d
  (d.modXlt fun x => { x with invToCnt := satInc x.invToCnt }).ackBy agent

/-- The pieces of which an agent has a host request on the way. -/
def owing (d : Device) (agent : Nat) : Table Piece := d.pieces.filter fun x => x.2.hostOut && d.agentOf x.2 == agent

theorem invalLate_eq {agent : Nat} {x : Inval} {r : List Inval} (hinvals : d.xlt.invals = x :: r)
    (hagent : x.agents.contains agent = true) :
    d.invalLate agent = (((d.owing agent).map (·.1)).foldl abandonPiece d).haltAgent agent := by
  rw [invalLate, find_owing hinvals hagent]
  rfl

theorem abandonPiece_eq {i : Nat} {p : Piece} (hp : d.piece i = some p) : d.abandonPiece i =
    (d.xltFault p.ctx p.pdk (if p.phase = .read then p.src else p.dst).dva? 0x0203).failPiece i 0x0203
      (if p.phase = .read then p.src else p.dst) := by
  simp [abandonPiece, hp]

/-! ### The host link and the function-level reset (R306, R307) -/

theorem linkTrained_eq {m0 m1 : Bool} (hstage : d.boot.stage = 8) :
    d.linkTrained m0 m1 = { d with
      glb := { d.glb with link := BitVec.ofNat 2 (b2n m0 + 2 * b2n m1) }
      boot := { d.boot with linkDone := m0 || m1, linkBad := !(m0 && m1) } } := if_neg (not_not_intro hstage)

theorem requestDevReset_asks {cause : Code} (hasked : d.resets.devAsked = none) (hstate : d.glb.devState ≠ 0) :
    (d.requestDevReset cause).resets.devAsked = some cause ∧ (d.requestDevReset cause).glb.devState = 2 := by
  rw [requestDevReset, if_neg (by simp [hasked, hstate])]
  exact ⟨rfl, rfl⟩

end Device

/-- Settles O39: completions and responses by what the walker's function does in its phase, invalidations and flushes by the entries
that are left and the pieces that ask again, acknowledgements by the oldest notice that the agent owes. -/
theorem translationResults : Obligations.TranslationResults := by
  unfold Obligations.TranslationResults
  refine ⟨?completion, ?response, ?invalidate, ?reading, ?flush, ?ack, ?late, fun s => rfl, ?link, ?reset⟩
  case completion =>
    intro s w v r hw hv hphase
    refine ⟨fun hstale => ?_, fun hstale hdenied => ?_, ?_, ?_⟩
    · exact (onUnit_next _ _ hw).trans (by rw [Device.atsDone_stale hv hphase hstale]; rfl)
    · exact (onUnit_next _ _ hw).trans (by rw [Device.atsDone_denied hv hphase hstale hdenied])
    · intro g hstale hdenied hsize hpages hperm hu hpieces hqueued hmisses
      obtain ⟨hfree, e, he, hcovers, hr, hwr, hglobal⟩ :=
        Device.atsDone_page hv hphase hstale hdenied hsize hpages hperm hu hpieces hqueued hmisses
      refine ⟨_, onUnit_next _ _ hw, hfree, List.any_eq_true.2 ⟨e, he, ?_⟩⟩
      simpa [hcovers, hr, hwr, or_iff_not_imp_left] using hglobal
    · exact (onUnit_next _ _ hw).trans (by rw [Device.atsLate_eq hv hphase])
  case response =>
    intro s w v hw hv hphase
    refine ⟨(onUnit_next _ _ hw).trans ?_, (onUnit_next _ _ hw).trans ?_, (onUnit_next _ _ hw).trans ?_, (onUnit_next _ _ hw).trans ?_⟩
    · rw [Device.prgDone_success hv hphase]
      rfl
    · rw [Device.prgDone_invalidRequest hv hphase]
    · rw [Device.prgDone_responseFailure hv hphase]
      rfl
    · rw [Device.prgLate_eq hv hphase]
  case invalidate =>
    intro s ctx a n hroom huntranslated
    refine ⟨_, done_next _ _, ?_⟩
    simp only [Device.invalidate_of_untranslated hroom huntranslated]
    refine ⟨fun e he => ⟨(Device.mem_forgetRange_atc.1 he).1, fun x hmine => Device.covers_forgetRange he hmine⟩,
      fun e he hctx hglobal => Device.mem_forgetRange_atc.2 ⟨he, fun hmine => ?_⟩, Device.notify_invals_length _ _, rfl⟩
    simp [hctx, hglobal] at hmine
  case reading =>
    intro s i a h p hpieces hphase hdst hhpa ha hpriv hinvals hwalkers
    obtain ⟨hleft, hwalker⟩ := Device.invalidate_reading hpieces hphase hdst hhpa ha hpriv hinvals hwalkers
    exact ⟨_, _, done_next _ _, hleft, rfl, hwalker⟩
  case flush =>
    intro s x huntranslated
    refine ⟨_, done_next _ _, ?_⟩
    simp only [Device.flushXlt_of_untranslated huntranslated]
    exact ⟨by simp [Device.forgetContext, Device.modXlt, bne], Device.notify_invals_length _ _⟩
  case ack =>
    intro s agent x r hagent hinvals hnamed howed
    refine ⟨_, onUnit_next _ _ hagent, ?_⟩
    simp only [Device.invalAck_eq hinvals hnamed howed]
    exact ⟨fun honly => Device.ackBy_last hinvals hnamed (by simp [honly]), Device.ackBy_more hinvals hnamed⟩
  case late =>
    intro s agent x r hagent hinvals hnamed
    refine ⟨fun howed => (onUnit_next _ _ hagent).trans ?_, fun i p howed hp => (onUnit_next _ _ hagent).trans ?_⟩
    · rw [Device.invalLate_eq hinvals hnamed, Device.owing, howed]
      rfl
    · rw [Device.invalLate_eq hinvals hnamed, Device.owing, howed, List.map_singleton, List.foldl_cons, Device.abandonPiece_eq hp]
      rfl
  case link =>
    intro s m0 m1 hstage
    exact (done_next _ _).trans (by rw [Device.linkTrained_eq hstage])
  case reset =>
    intro s hasked hstate
    exact ⟨_, done_next _ _, Device.requestDevReset_asks hasked hstate⟩

end Sys2Proof.Machine
end

section
/-! PROOF. Capsule commands: how each opcode starts and ends, jobs that become READY, and the chunks of an intake (spec 10: R316, R323 to
R335; spec 11: R350; spec 14: R451). -/

namespace Sys2Proof.Machine

namespace Device
variable {d : Device} {st : Nat} {m : Cmd}

/-! ### Taking and starting (R321, R326) -/

theorem takeIf_of_empty {peers : List Nat} {p : List W64 → Bool} (h : d.headCapsule st = none) : d.takeIf st peers p = d := by
  simp [takeIf, h]

theorem takeIf_takes {peers : List Nat} {p : List W64 → Bool} {w : List W64} (hhead : d.headCapsule st = some w)
    (htakes : d.takes st = true) (hp : p w = true) : d.takeIf st peers p = d.takeCapsule st w peers := by
  simp [takeIf, hhead, htakes, hp]

/-- The command that stands first in start order starts, and does what its opcode says. -/
theorem startNext_starts {op : Nat} {go : Device → Cmd → Device} (hbound : (d.stall st).state = .bound)
    (hnext : (d.stall st).q.nextStart = some m) (hop : m.opcode = op) :
    d.startNext st op go = go (d.startCmd (d.stall st).queue m.seq) m := by
  simp [startNext, hbound, hnext, hop]

theorem startNext_of_none {op : Nat} {go : Device → Cmd → Device} (hnext : (d.stall st).q.nextStart = none) :
    d.startNext st op go = d := by
  simp [startNext, hnext]

/-- Where no capsule is to be taken, a command that waits for nothing more starts and ends. -/
theorem instant_ends {op : Nat} {waits : Device → Cmd → Bool} (hempty : d.headCapsule st = none)
    (hbound : (d.stall st).state = .bound) (hnext : (d.stall st).q.nextStart = some m) (hop : m.opcode = op)
    (hwaits : waits (d.startCmd (d.stall st).queue m.seq) m = false) :
    d.instant op st [] waits =
      let e := d.startCmd (d.stall st).queue m.seq
      e.finishCmd (e.stall st).queue m.seq 0 m.handle := by
  rw [instant, takeIf_of_empty hempty, startNext_starts hbound hnext hop, hwaits]
  rfl

/-- A capsule that leaves no command to start is taken, and that is all. -/
theorem instant_takes {op : Nat} {peers : List Nat} {waits : Device → Cmd → Bool} {w : List W64} (hhead : d.headCapsule st = some w)
    (htakes : d.takes st = true) (hop : capOp w = op) (hpeers : listsPeers w = peers.length)
    (hnext : ((d.takeCapsule st w peers).stall st).q.nextStart = none) : d.instant op st peers waits = d.takeCapsule st w peers := by
  rw [instant, takeIf_takes hhead htakes (by simp [hop, hpeers]), startNext_of_none hnext]

/-! ### What a start leaves: the queues stay in their Stalls, and the Paddocks as they are set -/

@[simp] theorem modQueue_stall_queue (d : Device) (q : Nat) (f : Queue → Queue) (k : Nat) :
    ((d.modQueue q f).stall k).queue = (d.stall k).queue := by
  unfold modQueue
  split
  · rw [modStall_eq, setStall_stall]
    split
    · next h => rw [h]
    · rfl
  · rfl

@[simp] theorem markOverlap_stall_queue (d : Device) (k : Nat) : (d.markOverlap.stall k).queue = (d.stall k).queue := by
  simp only [markOverlap, stall]
  rw [Table.get_mapVals _ _ _ rfl]

@[simp] theorem startCmd_stall_queue (d : Device) (q : Nat) (seq : W32) (k : Nat) :
    ((d.startCmd q seq).stall k).queue = (d.stall k).queue := by
  simp only [startCmd, queueProgress, modQueue_stall_queue, progress, modPdk_eq, setPdk_stall, modCmd]
  split <;> simp

@[simp] theorem modCmd_pdk (d : Device) (q : Nat) (seq : W32) (f : Cmd → Cmd) (p : Nat) : (d.modCmd q seq f).pdk p = d.pdk p := by
  unfold modCmd modQueue
  split <;> rfl

/-- A group that becomes active changes its account alone (R356). -/
@[simp] theorem activate_preemptEn (d : Device) (p g k : Nat) : ((d.activate p g).pdk k).preemptEn = (d.pdk k).preemptEn := by
  unfold activate setShare
  split
  · rfl
  · split
    · rw [modPdk_eq, setPdk_pdk]
      split
      · next h => rw [h]
      · rfl
    · rfl

/-! ### Fences (R332, R333, R335) -/

theorem signalNow_live {i : Nat} (h : d.findFence (d.stall st).q.context ((cmdWord m 1).setWidth 32) = some i) :
    d.signalNow st m =
      let r := d.signalFence i (cmdWord m 2)
      let g := if r.2 = 0 then r.1 else r.1.commandRecord st r.2 ((cmdWord m 1).setWidth 32) m.seq m.opcode 0
      g.finishCmd (g.stall st).queue m.seq r.2 := by
  simp [signalNow, h]

theorem signalNow_gone (h : d.findFence (d.stall st).q.context ((cmdWord m 1).setWidth 32) = none) :
    d.signalNow st m = d.finishCmd (d.stall st).queue m.seq 0 := by
  simp [signalNow, h]

/-- A wait whose fence has its value, or an error, ends with the code of that. -/
theorem releaseWait_ends {i : Nat} {code : Code}
    (hwait : ((d.stall st).q.accepted.find? fun m => m.opcode == 5 && m.phase == .running) = some m)
    (hfence : d.findFence (d.stall st).q.context ((cmdWord m 1).setWidth 32) = some i) (hdone : d.waitDone i (cmdWord m 2) = some code) :
    d.releaseWait st = d.finishCmd (d.stall st).queue m.seq code := by
  simp only [releaseWait, hwait, hfence, hdone]

/-! ### RUN_PROGRAM (R350) -/

theorem consider_of_disabled {p : Nat} (h : (d.pdk p).preemptEn = false) : d.consider p = d := by simp [consider, h]

/-- The job of a RUN_PROGRAM of Stall `st`. -/
def jobOfCmd (d : Device) (st : Nat) (m : Cmd) : Job :=
  let x := d.stall st
  { state := .ready, paddock := x.q.paddock, context := x.q.context, queue := x.queue, seq := m.seq,
    want := bits (cmdWord m 1) 48 45, cores := [], halted := [], yielded := [], image := (cmdWord m 1).setWidth 32,
    entry := bits (cmdWord m 1) 44 32, args := [cmdWord m 2, cmdWord m 3, cmdWord m 4, cmdWord m 5],
    fence := (cmdWord m 6).setWidth 32, value := cmdWord m 7, share := x.q.share, loan := none, loanDepth := 0,
    loanFor := (0, 0), bundles := [], musters := m.musters, loaded := false, trapCode := 0, haltCode := 0, haltAt := none,
    forJob := none, since := d.now, released := 0, step := false, tickets := [] }

/-- A RUN_PROGRAM without a job makes one, READY, where its Paddock does not pre-empt (R350). -/
theorem readyJob_eq (hbound : (d.stall st).state = .bound) (hnext : (d.stall st).q.nextStart = some m) (hop : m.opcode = 2)
    (hjob : m.job = none) (hpreempt : (d.pdk (d.stall st).q.paddock).preemptEn = false) :
    d.readyJob st =
      let e := (d.activate (d.stall st).q.paddock (d.stall st).q.share).modCmd (d.stall st).queue m.seq fun m =>
        { m with job := some d.nextJob, musters := [] }
      { e with nextJob := d.nextJob + 1 }.setJob d.nextJob (d.jobOfCmd st m) := by
  have hready : (decide (m.opcode ≠ 2) || m.job.isSome) = false := by simp [hop, hjob]
  simp only [readyJob, hbound, hnext, hready]
  exact consider_of_disabled ((congrArg Pdk.preemptEn (modCmd_pdk ..)).trans ((activate_preemptEn ..).trans hpreempt))

/-! ### Intakes (R451) -/

section
variable {c : IntakeChunk} (hbound : (d.stall st).state = .bound)
  (hintake : ((d.stall st).q.accepted.find? fun m => m.phase == .running && (d.intakeOf st m).isSome) = some m)
  (hlength : c.data.length = min 14336 (copyLen m - m.done))
include hbound hintake hlength

/-- A chunk that fails a check fails its command. -/
theorem takeChunk_fails (hchecks : (c.tagOk && c.checkOk) = false) : d.takeChunk st c = d.failCommand st m.seq 0x0603 := by
  have hbad : (!c.tagOk || !c.checkOk) = true := by rw [← Bool.not_and, hchecks]; rfl
  rw [takeChunk, if_neg (not_not_intro hbound), hintake]
  exact (if_neg (not_not_intro hlength)).trans (if_pos hbad)

/-- A chunk that passes both checks and lands seals its object and counts; the last one ends the command. -/
theorem takeChunk_lands {e : Device} (hchecks : (c.tagOk && c.checkOk) = true) (hlands : d.landChunk st m c.data = .inl e) :
    d.takeChunk st c =
      let o := landsIn m
      let objs := if e.sec.sealedObjs.contains o then e.sec.sealedObjs else e.sec.sealedObjs ++ [o]
      let f := { e with sec := { e.sec with sealedObjs := objs } }
      let g := f.modCmd (f.stall st).queue m.seq fun m => { m with done := m.done + c.data.length, issued := m.issued + c.data.length }
      if copyLen m ≤ m.done + c.data.length then g.finishCmd (g.stall st).queue m.seq 0 else g := by
  have hgood : (!c.tagOk || !c.checkOk) = false := by rw [← Bool.not_and, hchecks]; rfl
  rw [takeChunk, if_neg (not_not_intro hbound), hintake]
  exact (if_neg (not_not_intro hlength)).trans ((if_neg (Bool.eq_false_iff.1 hgood)).trans (by rw [hlands]))

end

/-! ### The commands that act when they are taken (R327) -/

/-- What a command of an opcode that acts when it is taken may still wait for when it starts. -/
def waitsOf (st op : Nat) (d : Device) (m : Cmd) : Bool :=
  match op with
  | 6 => zeroWaits d m
  | 0x0B => closeWaits st d m
  | 0x0D => leaveWaits st d m
  | _ => noWait d m

theorem waitsOf_eq_false (hzero : m.opcode = 6 → zeroWaits d m = false) (hclose : m.opcode = 0x0B → closeWaits st d m = false)
    (hleave : m.opcode = 0x0D → leaveWaits st d m = false) : waitsOf st m.opcode d m = false := by
  unfold waitsOf
  split
  · next h => exact hzero h
  · next h => exact hclose h
  · next h => exact hleave h
  · rfl

end Device

/-- The commands that end by their own start, with their opcodes; MUSTER_SET without peers. -/
def instants : List ((Nat → Instr) × Nat) :=
  [(.capsuleNop, 1), (.objRef, 7), (.objUnref, 8), (.windowOpen, 0x0A), (.seqJoin, 0x0C), (.hintPhase, 0x0E),
    (fun st => .musterSet st [], 0x0F), (.objCreate, 6), (.windowClose, 0x0B), (.seqLeave, 0x0D)]

theorem exec_instants : ∀ i ∈ instants, ∀ (st : Nat) (s : State),
    exec (i.1 st) s = onUnit 48 st s (Device.instant i.2 st [] (Device.waitsOf st i.2)) := by
  simp only [instants, List.forall_mem_cons]
  exact ⟨fun _ _ => rfl, fun _ _ => rfl, fun _ _ => rfl, fun _ _ => rfl, fun _ _ => rfl, fun _ _ => rfl, fun _ _ => rfl, fun _ _ => rfl,
    fun _ _ => rfl, fun _ _ => rfl, List.forall_mem_nil _⟩

/-- Settles O41: each command by what the start of the first in start order does under its opcode. -/
theorem capsuleCommandResults : Obligations.CapsuleCommandResults := by
  unfold Obligations.CapsuleCommandResults
  refine ⟨?instant, ?start, ?wait, ?signal, ?job, ?intake, ?cancel, ?muster⟩
  case instant =>
    intro i hi s st m hst hempty hbound hnext hop e hzero hclose hleave
    have hwaits := Device.waitsOf_eq_false hzero hclose hleave
    rw [exec_instants i hi, onUnit_next _ _ hst, ← hop, Device.instant_ends hempty hbound hnext rfl hwaits]
  case start =>
    intro s st m hst hbound hnext
    refine ⟨fun hop => (onUnit_next _ _ hst).trans ?_, fun hop => (onUnit_next _ _ hst).trans ?_,
      fun hop => (onUnit_next _ _ hst).trans ?_⟩ <;> rw [Device.startNext_starts hbound hnext hop]
  case wait =>
    intro s st i m code hst hnext hwait hfence hdone
    exact (onUnit_next _ _ hst).trans (by rw [Device.startNext_of_none hnext, Device.releaseWait_ends hwait hfence hdone])
  case signal =>
    intro s st m hst hbound hnext hop
    refine ⟨fun i hlive => (onUnit_next _ _ hst).trans ?_, fun hgone => (onUnit_next _ _ hst).trans ?_⟩
    · rw [Device.startNext_starts hbound hnext hop, Device.signalNow_live hlive]
    · rw [Device.startNext_starts hbound hnext hop, Device.signalNow_gone hgone, Device.startCmd_stall_queue]
  case job =>
    intro s st m hst hbound hnext hop hjob hpreempt
    refine ⟨_, s.dev.jobOfCmd st m, onUnit_next _ _ hst, ?_⟩
    simp only [Device.readyJob_eq hbound hnext hop hjob hpreempt]
    exact ⟨rfl, Table.find_put_same .., rfl, rfl, rfl, rfl, rfl, rfl, rfl⟩
  case intake =>
    intro s st m c hst hbound hintake hlength
    refine ⟨fun hchecks => (onUnit_next _ _ hst).trans ?_, fun d hchecks hlands => (onUnit_next _ _ hst).trans ?_⟩
    · rw [Device.takeChunk_fails hbound hintake hlength hchecks]
    · rw [Device.takeChunk_lands hbound hintake hlength hchecks hlands]
  case cancel =>
    intro s st w hst hhead htakes hop
    exact (onUnit_next _ _ hst).trans (by rw [Device.takeIf_takes (p := fun w => capOp w == 0x10) hhead htakes (beq_iff_eq.2 hop)])
  case muster =>
    intro s st w peers hst hhead htakes hop hpeers d hnext
    exact (onUnit_next _ _ hst).trans
      (by rw [Device.instant_takes hhead htakes hop (hpeers.trans (List.length_map _).symm) hnext])

end Sys2Proof.Machine
end

section
/-! PROOF. Fences and their mirrors, event rings and vectors, semaphores, and the queues that are parked (spec 10: R331 to R343, R348;
spec 11: R364, R369 to R371). -/

namespace Sys2Proof.Machine

/-! ### Fences and their mirrors (R331 to R337) -/

namespace Device
variable {d : Device} {i : Nat}

/-- The mirror and the record of a change leave every fence as it is. -/
@[simp] theorem fenceChanged_fence (d : Device) (i k : Nat) : (d.fenceChanged i).fence k = d.fence k := by
  simp [fenceChanged, apply_ite (fence · k)]

theorem signalFence_above {v : W64} (hcode : (d.fence i).code = 0) (hv : (d.fence i).value < v) :
    d.signalFence i v = ((d.setFence i { d.fence i with value := v }).fenceChanged i, 0) := by
  simp [signalFence, hcode, BitVec.not_le.2 hv]

theorem signalFence_notAbove {v : W64} (hcode : (d.fence i).code = 0) (hv : v ≤ (d.fence i).value) :
    d.signalFence i v = (d, 0x0105) := by
  simp [signalFence, hcode, hv]

theorem signalFence_error {v : W64} (hcode : (d.fence i).code ≠ 0) : d.signalFence i v = (d, 0x0108) := if_pos hcode

/-- The first error of a fence stays (R336). -/
theorem attachError_code (code : Code) :
    ((d.attachError i code).fence i).code = if (d.fence i).code = 0 then code else (d.fence i).code := by
  unfold attachError
  dsimp only
  split
  · rw [fenceChanged_fence, setFence_fence_same]
  · rfl

theorem mirrorFail_fence {denied : Bool} (hused : (d.fence i).used = true) (hmirror : (d.fence i).mirror ≠ 0)
    (hgoes : (d.fence i).mirrorStopped = false) :
    (d.mirrorFail i denied).fence i = { d.fence i with mirrorStopped := true } := by
  simp [mirrorFail, hused, hmirror, hgoes]

end Device

/-- Settles O19: by the error that the fence carries, and else by where the signal lies. -/
theorem signalRule : Obligations.SignalRule := by
  unfold Obligations.SignalRule
  intro d i v
  refine ⟨fun hcode hv => ?_, Device.signalFence_notAbove, Device.signalFence_error⟩
  rw [Device.signalFence_above hcode hv, Device.fenceChanged_fence, Device.setFence_fence_same]
  exact ⟨rfl, rfl⟩

/-! ### Event rings (R340, R343, R348) -/

namespace Device
variable {d : Device} {n : Nat} {v : W32}

theorem writeEvrCtl_enables (hoff : (d.ring n).en = false) (hen : bit v 0 = true) (hlo : 6 ≤ bits v 4 1) (hhi : bits v 4 1 ≤ 16)
    (hctx : bits v 24 5 ≠ 0) :
    d.writeEvrCtl n v = d.setRing n { d.ring n with size := bits v 4 1, context := bits v 24 5, en := true } := by
  simp [writeEvrCtl, hoff, hen, hlo, hhi, bne_iff_ne.2 hctx]

theorem writeEvrCtl_disables (hon : (d.ring n).en = true) (hen : bit v 0 = false) :
    d.writeEvrCtl n v =
      d.setRing n { d.ring n with context := bits v 24 5, en := false, failed := false, p := 0, lost := 0 } := by
  simp [writeEvrCtl, hon, hen]

/-- A size outside 6 to 16, or context 0, enables nothing. -/
theorem writeEvrCtl_refuses (hoff : (d.ring n).en = false) (hbad : bits v 4 1 < 6 ∨ 16 < bits v 4 1 ∨ bits v 24 5 = 0) :
    ((d.writeEvrCtl n v).ring n).en = false := by
  have hen : (bit v 0 && decide (6 ≤ bits v 4 1) && decide (bits v 4 1 ≤ 16) && bits v 24 5 != 0) = false := by
    rcases hbad with h | h | h
    · simp [Nat.not_le.2 h]
    · simp [Nat.not_le.2 h]
    · simp [h]
  simp [writeEvrCtl, hoff, hen]

/-- An enabled ring keeps its size and its addresses under a write of GLB_EVR_CTL. -/
theorem writeEvrCtl_keeps (hon : (d.ring n).en = true) : ((d.writeEvrCtl n v).ring n).size = (d.ring n).size ∧
    ((d.writeEvrCtl n v).ring n).base = (d.ring n).base ∧ ((d.writeEvrCtl n v).ring n).wb = (d.ring n).wb := by
  cases hen : bit v 0 <;> simp [writeEvrCtl, hon, hen]

@[simp] theorem raiseVector_ring (d : Device) (k m n : Nat) : (d.raiseVector k m).ring n = d.ring n := by
  simp [raiseVector, apply_ite (ring · n)]

/-- A record changes the ring that it is posted to, and no other. -/
theorem postRing_ring_ne {k : Nat} (h : k ≠ n) (ev : EventRec) : (d.postRing k ev).ring n = d.ring n := by
  unfold postRing
  dsimp only
  split
  · simp [setRing_ring_ne _ _ _ h]
  · rfl

/-- A ring whose write fails is FAILED, and GLB_EVR_FAIL names it; but for ring 0's own failure a record of it is posted to ring 0. -/
theorem failRing_fails (hon : (d.ring n).en = true) (hgood : (d.ring n).failed = false) :
    ((d.failRing n).ring n).failed = true ∧ (d.failRing n).glb.ringFail = true ∧ (d.failRing n).glb.failRing = n ∧
      (n = 0 → (d.failRing n).out = d.out) := by
  simp only [failRing, hon, hgood, Bool.not_false, Bool.and_self, if_true]
  split
  · next h => exact ⟨by simp [ring, setRing], rfl, rfl, fun _ => rfl⟩
  · next h =>
    refine ⟨?_, by simp, by simp, fun h0 => absurd h0 h⟩
    rw [postDev, postRing_ring_ne (Ne.symm h)]
    simp [ring, setRing]

/-- The base of ring `n` and its write-back address hold while it is enabled (R348). -/
theorem wideReg_held {off : Nat} (hn : n < 64) (hon : (d.ring n).en = true) (h : off = 0x1000 + 0x20 * n ∨ off = 0x1010 + 0x20 * n) :
    ∃ old, d.wideReg off = some (old, fun _ => d) := by
  rcases h with rfl | rfl
  · exact ⟨_, by simp [wideReg_ringBase hn, hon]; rfl⟩
  · have hidx : (0x1010 + 0x20 * n - 0x1000) / 0x20 = n := by omega
    have hmod : (0x1010 + 0x20 * n - 0x1000) % 0x20 = 0x10 := by omega
    have hrange : 0x1000 ≤ 0x1010 + 0x20 * n ∧ 0x1010 + 0x20 * n < 0x1800 := by omega
    exact ⟨(d.ring n).wb, by simp [wideReg, hidx, hmod, hrange, hon, show 0x1010 + 0x20 * n ≠ 0x20 by omega,
      show 0x1010 + 0x20 * n ≠ 0x40 by omega]⟩

/-- A write to GLB_EVR_BASE or GLB_EVR_WB of an enabled ring leaves the device as it is. -/
theorem writeReg_enabledRing {off width : Nat} {v : W64} (hn : n < 64) (hon : (d.ring n).en = true) (hlo : 0x1000 + 0x20 * n ≤ off)
    (hhi : off + width ≤ 0x1018 + 0x20 * n) (hreg : off % 0x20 < 8 ∨ 0x10 ≤ off % 0x20) : d.writeReg off width v = d := by
  unfold writeReg
  split
  · rfl
  · split
    · omega
    · split
      · rfl
      · next hshape =>
        have hwidth : width = 4 ∨ width = 8 := by
          by_contra h
          rw [not_or] at h
          simp [h] at hshape
        obtain ⟨old, hold⟩ := wideReg_held (off := off / 8 * 8) hn hon (by omega)
        rw [hold]

end Device

/-- Settles O44: the addresses by the registers at their offsets, GLB_EVR_CTL by whether the ring is enabled. -/
theorem ringEnableRule : Obligations.RingEnableRule := by
  unfold Obligations.RingEnableRule
  intro s n hn
  refine ⟨fun hon => ⟨fun off width v hlo hhi hreg => ?_, fun v => ⟨_, onUnit_next _ _ hn, Device.writeEvrCtl_keeps hon⟩⟩,
    fun hoff v _ hbad => ⟨_, onUnit_next _ _ hn, Device.writeEvrCtl_refuses hoff hbad⟩⟩
  exact ⟨_, exec_registerWrite .., by rw [Device.writeReg_enabledRing hn hon hlo hhi hreg]⟩

/-! ### Vectors (R341, R342) -/

namespace Device
variable {d : Device} {n : Nat}

theorem moderationEnd_idle (hruns : (d.vec n).moderating = true) (howed : (d.vec n).owed = false) :
    d.moderationEnd n = d.setVec n { d.vec n with moderating := false } := by
  simp [moderationEnd, hruns, howed]

theorem moderationEnd_owed (hruns : (d.vec n).moderating = true) (howed : (d.vec n).owed = true) (hmask : (d.vec n).masked = false) :
    d.moderationEnd n =
      (d.emit (.msix n)).setVec n { d.vec n with owed := false, moderating := decide ((d.ring (n / 8)).mod ≠ 0) } := by
  simp [moderationEnd, hruns, howed, hmask]

theorem unmask_vec (d : Device) (n : Nat) : ((d.unmask n).vec n).masked = false ∧ ((d.unmask n).vec n).pending = false ∧
    (d.unmask n).out = d.out ++ if (d.vec n).pending then [.msix n] else [] := by
  cases h : (d.vec n).pending <;> simp [unmask, h, emit]

end Device

/-! ### Semaphores (R364) -/

namespace Device
variable {d : Device} {p n i : Nat}

/-- A semaphore of a live fence is set up with its tickets, and the fence rises by their number. -/
theorem setupSem_accepts {v : W64} (hpdk : d.pdkPresent p = true) (hfenced : d.fencedPdk p = false) (hfree : (d.sem p n).valid = false)
    (hvalid : bit v 24 = true) (hcount : bits v 23 20 ≠ 0)
    (hfence : d.liveFence (bits v 19 0) (BitVec.ofNat 32 (bits v 63 32)) = some i) (hcode : (d.fence i).code = 0) :
    d.setupSem p n v =
      ((d.setSem p n { context := bits v 19 0, count := bits v 23 20, valid := true, bad := false,
                       fence := BitVec.ofNat 32 (bits v 63 32), ticket := (d.fence i).value.toNat + 1,
                       abandoned := [] }).signalFence i ((d.fence i).value + BitVec.ofNat 64 (bits v 23 20))).1 := by
  simp [setupSem, hpdk, hfenced, hfree, hvalid, hcount, hfence, hcode]

@[simp] theorem setSem_sem_same (d : Device) (p n : Nat) (x : Sem) : (d.setSem p n x).sem p n = x := by simp [setSem, sem]

/-- A teardown clears VALID and ends the waits on the semaphore's fence. -/
theorem dropSem_drops (hfenced : d.fencedPdk p = false) (hvalid : (d.sem p n).valid = true) :
    ((d.dropSem p n).sem p n).valid = false ∧ ∀ i, d.semFence p n = some i →
      ((d.dropSem p n).fence i).code = if (d.fence i).code = 0 then CANCELLED else (d.fence i).code := by
  simp only [dropSem, hvalid, hfenced, Bool.not_false, Bool.and_self, if_true]
  split
  · next j hj =>
    refine ⟨by rw [setSem_sem_same], fun i hi => ?_⟩
    obtain rfl := Option.some.inj (hj.symm.trans hi)
    exact attachError_code CANCELLED
  · next hnone => exact ⟨by rw [setSem_sem_same], fun i hi => by rw [hnone] at hi; cases hi⟩

end Device

/-! ### Requests to yield change cores and jobs alone (R354, R359) -/

namespace Device
section
variable {β : Type} {φ : Device → β} (hc : ∀ d c v, φ (setCore d c v) = φ d) (hj : ∀ d j v, φ (setJob d j v) = φ d)
include hc hj

theorem requestPreempt_part (d : Device) (k : Nat) (b : Option Nat) : φ (d.requestPreempt k b) = φ d := by
  unfold requestPreempt
  split
  · rfl
  · split
    · refine (hj ..).trans (foldl_part (φ := φ) (fun e n => ?_) _ _)
      split
      · exact hc ..
      · rfl
    · rfl

theorem yieldAll_part (d : Device) (q : Nat) : φ (d.yieldAll q) = φ d := by
  refine tfoldl_part (φ := φ) (fun e j v => ?_) _ _
  split
  · exact requestPreempt_part hc hj ..
  · rfl

theorem consider_part (d : Device) (p : Nat) : φ (d.consider p) = φ d := by
  unfold consider
  split
  · rfl
  · split
    · rfl
    · split
      · rfl
      · exact foldl_part (φ := φ) (fun _ _ => requestPreempt_part hc hj ..) _ _

end

theorem yieldAll_stall (d : Device) (q k : Nat) : (d.yieldAll q).stall k = d.stall k :=
  yieldAll_part (φ := (stall · k)) (fun _ _ _ => rfl) (fun _ _ _ => rfl) d q

theorem consider_stall (d : Device) (p k : Nat) : (d.consider p).stall k = d.stall k :=
  consider_part (φ := (stall · k)) (fun _ _ _ => rfl) (fun _ _ _ => rfl) d p

theorem consider_outQueue (d : Device) (p k : Nat) : (d.consider p).outQueue k = d.outQueue k :=
  consider_part (φ := (outQueue · k)) (fun _ _ _ => rfl) (fun _ _ _ => rfl) d p

/-! ### Parking (R369 to R371) -/

theorem setRunnable_stall (n k : Nat) (d : Device) : (d.setRunnable n).stall k = d.stall k := by
  simp [setRunnable, apply_ite (stall · k)]

/-- A watched queue whose wait is met becomes RUNNABLE, and nothing else of it changes. -/
theorem setRunnable_sets {d : Device} {n : Nat} (hknown : (d.outQueue n).known = true) (hout : (d.outQueue n).qstate = 0)
    (hnot : (d.outQueue n).runnable = false) (hmet : d.watchMet (d.outQueue n) = true) :
    (d.setRunnable n).outQueue n = { d.outQueue n with runnable := true } := by
  simp [setRunnable, hknown, hout, hnot, hmet]

/-- The element of a list that a search for the least value of `f` ends with. -/
def leastBy (f : Nat → Nat) (a : Nat) (l : List Nat) : Nat := l.foldl (fun b x => if f x < f b then x else b) a

theorem leastBy_spec (f : Nat → Nat) (a : Nat) (l : List Nat) :
    leastBy f a l ∈ a :: l ∧ ∀ k ∈ a :: l, f (leastBy f a l) ≤ f k := by
  induction l generalizing a with
  | nil => simp [leastBy]
  | cons x l ih =>
    have hstep : leastBy f a (x :: l) = leastBy f (if f x < f a then x else a) l := rfl
    rw [hstep]
    split
    · next h =>
      obtain ⟨hmem, hle⟩ := ih x
      exact ⟨List.mem_cons_of_mem _ hmem, List.forall_mem_cons.2 ⟨(hle x List.mem_cons_self).trans h.le, hle⟩⟩
    · next h =>
      obtain ⟨hmem, hle⟩ := ih a
      obtain ⟨ha, hl⟩ := List.forall_mem_cons.1 hle
      exact ⟨((List.sublist_cons_self x l).cons_cons a).subset hmem,
        List.forall_mem_cons.2 ⟨ha, List.forall_mem_cons.2 ⟨ha.trans (Nat.not_lt.1 h), hl⟩⟩⟩

/-- Where the Drover parks a queue of a Paddock, it parks one whose progress is oldest (R370). -/
theorem parkQueue_parks {d : Device} {p : Nat} (hmust : d.mustPark p = true) (hbound : d.boundOf p ≠ []) :
    ∃ st ∈ d.boundOf p, ((d.parkQueue p).stall st).state = .parked ∧
      ∀ k ∈ d.boundOf p, (d.stall st).q.progress ≤ (d.stall k).q.progress := by
  obtain ⟨a, r, hl⟩ := List.exists_cons_of_ne_nil hbound
  obtain ⟨hmem, hle⟩ := leastBy_spec (fun k => (d.stall k).q.progress) a r
  refine ⟨leastBy (fun k => (d.stall k).q.progress) a r, hl ▸ hmem, ?_, hl ▸ hle⟩
  simp only [parkQueue, hmust, hl, Bool.not_true, Bool.false_eq_true, if_false]
  rw [tfoldl_part (φ := (stall · _)) fun e n o => by split <;> simp [setRunnable_stall]]
  simp [yieldAll_stall, leastBy]

/-- A parked queue that is no longer blocked returns to its Stall (R370). -/
theorem unparkStall_returns {d : Device} {st : Nat} (hparked : (d.stall st).state = .parked) (hgoes : d.blocked (d.stall st).q = false) :
    ((d.unparkStall st).stall st).state = .bound ∧ ((d.unparkStall st).outQueue (d.stall st).queue).qstate = 1 := by
  simp [unparkStall, hparked, hgoes, consider_stall, consider_outQueue]

end Device

/-- Settles O43: rings, vectors, mirrors and semaphores by what each write makes of its unit, parking by the search for the oldest
progress, which the requests to yield and the records leave alone. -/
theorem ringAndQueueResults : Obligations.RingAndQueueResults := by
  unfold Obligations.RingAndQueueResults
  refine ⟨?enable, ?disable, ?ringFail, ?moderation, ?unmask, ?mirror, ?setup, ?teardown, ?park, ?unpark, ?runnable⟩
  case enable =>
    intro s n v hn hoff hen hlo hhi hctx
    exact (onUnit_next _ _ hn).trans (by rw [Device.writeEvrCtl_enables hoff hen hlo hhi hctx])
  case disable =>
    intro s n v hn hon hen
    exact (onUnit_next _ _ hn).trans (by rw [Device.writeEvrCtl_disables hon hen])
  case ringFail =>
    intro s n hn hon hgood
    exact ⟨_, onUnit_next _ _ hn, Device.failRing_fails hon hgood⟩
  case moderation =>
    intro s n hn hruns
    refine ⟨fun howed => (onUnit_next _ _ hn).trans (by rw [Device.moderationEnd_idle hruns howed]), fun howed hmask =>
      ⟨_, onUnit_next _ _ hn, ?_⟩⟩
    rw [Device.moderationEnd_owed hruns howed hmask, Device.setVec_vec_same]
    exact ⟨rfl, rfl⟩
  case unmask =>
    intro s n hn
    exact ⟨_, onUnit_next _ _ hn, s.dev.unmask_vec n⟩
  case mirror =>
    intro s i denied hi hused hmirror hgoes
    exact ⟨_, onUnit_next _ _ hi, Device.mirrorFail_fence hused hmirror hgoes⟩
  case setup =>
    intro s p n i v hp hn hpdk hfenced hfree hvalid hcount hfence hcode
    exact (if_pos hn).trans ((onUnit_next _ _ hp).trans
      (by rw [Device.setupSem_accepts hpdk hfenced hfree hvalid hcount hfence hcode]))
  case teardown =>
    intro s p n hp hn hfenced hvalid
    exact ⟨_, (if_pos hn).trans (onUnit_next _ _ hp), Device.dropSem_drops hfenced hvalid⟩
  case park =>
    intro s p hp hmust hbound
    obtain ⟨st, hst, hparked, hleast⟩ := Device.parkQueue_parks hmust hbound
    exact ⟨_, st, onUnit_next _ _ hp, hst, hparked, hleast⟩
  case unpark =>
    intro s st hst hparked hgoes
    exact ⟨_, onUnit_next _ _ hst, Device.unparkStall_returns hparked hgoes⟩
  case runnable =>
    intro s n hn hknown hout hnot hmet
    exact ⟨_, onUnit_next _ _ hn, Device.setRunnable_sets hknown hout hnot hmet⟩

end Sys2Proof.Machine
end

section
/-! PROOF. Stalls: the queues that they load and give up, the capsules that land in them, and the commands that complete (spec 10: R311
to R322, R333). -/

namespace Sys2Proof.Machine

namespace Device
variable {d : Device} {st queue : Nat}

/-! ### BIND and BIND_COMPLETE (R312 to R314) -/

theorem resident_eq_false (h : ∀ k < 48, (d.stall k).state ≠ .free → (d.stall k).queue ≠ queue) : d.resident queue = false := by
  simpa [resident] using h

section
variable {e : QueueEntry} (hoos : d.resets.devOos = false) (hcnt : queue < d.glb.qtabCnt.toNat)
include hoos hcnt

/-- The checks of R314, one by one. -/
theorem bindCode_eq_zero (hvalid : e.valid = true) (hzero : e.reservedZero = true) (hctx : e.context ≠ 0)
    (hpdk : d.pdkPresent e.paddock = true) (hring : (d.ring e.ring).en = true) (hsave : e.save % 4096 = 0)
    (hout : d.resident queue = false) (hbound : ∀ p ∈ d.boundTo e.context, p = e.paddock)
    (hrst : (d.pdk e.paddock).rst ≠ .outOfService)
    (hkey : (d.layout e.paddock).session = true → (d.pdkSec e.paddock).memKey ≠ 0 ∨ d.sec.entFail = false) :
    d.bindCode queue (some e) = 0 := by
  have hfields : (!e.valid || !e.reservedZero || e.context == 0 || !d.pdkPresent e.paddock || !(d.ring e.ring).en ||
      e.save % 4096 != 0) = false := by
    simp [hvalid, hzero, hctx, hpdk, hring, hsave]
  have hbusy : (d.resident queue || (d.boundTo e.context).any (· != e.paddock)) = false := by
    simpa [hout] using hbound
  have hnoKey : ((d.layout e.paddock).session && (d.pdkSec e.paddock).memKey == 0 && d.sec.entFail) = false := by
    cases hs : (d.layout e.paddock).session with
    | false => rfl
    | true => simpa [Decidable.imp_iff_not_or] using hkey hs
  simp only [bindCode, hoos, Nat.not_le.2 hcnt, hfields, hbusy, hrst, hnoKey, Bool.false_eq_true, if_false]

end

theorem bindStall_binds {e : QueueEntry} (hfree : (d.stall st).state = .free) (hcode : d.bindCode queue (some e) = 0) :
    d.bindStall st queue (some e) = d.setStall st { d.stall st with
      queue := queue, state := .binding
      q := { Queue.reset with context := e.context, paddock := e.paddock, ring := e.ring, share := e.share, save := e.save } } := by
  simp [bindStall, hfree, hcode]

/-- The queue that a Stall then holds: its saved state under the entry that BIND read. -/
def boundQueue (d : Device) (st : Nat) : Queue :=
  let q := (d.stall st).q
  { (d.outQueue (d.stall st).queue).q with context := q.context, paddock := q.paddock, ring := q.ring, share := q.share, save := q.save }

/-- A queue that owes no command is loaded, and nothing goes on. -/
theorem boundStall_loads {ok : Bool} (hbinding : (d.stall st).state = .binding) (hrst : (d.pdk (d.stall st).q.paddock).rst = .running)
    (hphase : (d.pdkSec (d.stall st).q.paddock).phase = .none) (hcheck : (d.outQueue (d.stall st).queue).known = true → ok = true)
    (hnone : (d.outQueue (d.stall st).queue).q.accepted = []) :
    d.boundStall st ok =
      ((d.setStall st { d.stall st with
          state := .bound, status := 0, q := d.boundQueue st, dropPosted := false, fencePosted := false }).setOutQueue
        (d.stall st).queue { d.outQueue (d.stall st).queue with
          known := true, qstate := 1, runnable := false, q := Queue.reset, watch := none }).emit
        (.queueEntry (d.stall st).queue 1 false) := by
  have hgoes : ((d.outQueue (d.stall st).queue).known && !ok) = false := by
    simpa using hcheck
  simp [boundStall, hbinding, hrst, hphase, hgoes, hnone, boundQueue]

/-! ### UNBIND and UNBIND_COMPLETE (R315) -/

theorem unbindStall_begins (h : (d.stall st).state = .bound ∨ (d.stall st).state = .parked) :
    d.unbindStall st =
      ((d.setStall st { d.stall st with state := .unbinding }).withdrawReady (d.stall st).queue).yieldAll (d.stall st).queue := if_pos h

/-- A queue that nothing is under way for leaves its Stall, OUT with what has landed. -/
theorem unboundStall_leaves (hstate : (d.stall st).state = .unbinding)
    (hjobs : (d.jobs.any fun kv => kv.2.queue == (d.stall st).queue && kv.2.state != .yielded) = false)
    (hpieces : ∀ y ∈ d.pieces, ∀ seq, y.2.owner ≠ .command st seq) :
    ((d.unboundStall st).stall st).state = .free ∧ ((d.unboundStall st).outQueue (d.stall st).queue).qstate = 0 ∧
      ((d.unboundStall st).outQueue (d.stall st).queue).q = (d.stall st).q := by
  unfold unboundStall
  extract_lets x holds pieces owes room o saved left
  have hnone : pieces = false := List.any_eq_false.2 fun y hy => by
    have hother := hpieces y hy
    cases howner : y.2.owner with
    | command k seq => simpa using fun hk : k = st => hother seq (hk ▸ howner)
    | channel => exact Bool.false_ne_true
  have hgoes : ¬(decide (x.state ≠ .unbinding) || holds || pieces) = true := by
    simp [x, hstate, holds, hjobs, hnone]
  have hleft : (left.stall st).state = .free ∧ left.outQueue x.queue = o := by simp [left, saved]
  obtain ⟨hfree, hout⟩ := hleft
  rw [if_neg hgoes]
  split
  · simp only [postDev_stall, postDev_outQueue]
    exact ⟨hfree, by rw [hout], by rw [hout]⟩
  · exact ⟨hfree, by rw [hout], by rw [hout]⟩

/-! ### Capsules land (R318 to R320) -/

@[simp] theorem commandRecord_stall (d : Device) (s : Nat) (code : Code) (h : W32) (seq : W32) (op word k : Nat) :
    (d.commandRecord s code h seq op word).stall k = d.stall k := postQueue_stall ..

section
variable {off : Nat} {data : List Byte} (hoff : off < 2048) (halign : off % 64 = 0) (hlength : data.length = 64)
  (hholds : (d.stall st).state = .bound ∨ (d.stall st).state = .parked)
include hoff halign hlength hholds

/-- 64 aligned bytes at a Stall that holds a queue are a capsule: in the window and new it lands, else it is refused. -/
theorem capsuleWrite_eq : d.capsuleWrite st off data =
    if 32 ≤ (capSeq (capsuleWords data) - (d.stall st).q.next).toNat ∨
        (Table.find (d.stall st).q.landed ((capSeq (capsuleWords data)).toNat % 32)).isSome then
      (d.setStall st { d.stall st with lastErr := 0x0109 }).commandRecord st 0x0109 0 (capSeq (capsuleWords data))
        (capOp (capsuleWords data)) 0
    else d.modStallQ st fun q =>
      { q with landed := Table.put q.landed ((capSeq (capsuleWords data)).toNat % 32) (capsuleWords data) } := by
  have hshut : ¬((d.stall st).state ≠ .bound ∧ (d.stall st).state ≠ .parked) := by
    rwa [← not_or, not_not]
  simp only [capsuleWrite, hlength, halign, hshut, if_neg (show ¬4096 ≤ off by omega), if_neg (show ¬0x800 ≤ off by omega), ne_eq,
    not_true_eq_false, or_self, if_false]

theorem capsuleWrite_lands (hwindow : (capSeq (capsuleWords data) - (d.stall st).q.next).toNat < 32)
    (hnew : Table.find (d.stall st).q.landed ((capSeq (capsuleWords data)).toNat % 32) = none) :
    d.capsuleWrite st off data = d.modStallQ st fun q =>
      { q with landed := Table.put q.landed ((capSeq (capsuleWords data)).toNat % 32) (capsuleWords data) } := by
  have hno : ¬(Table.find (d.stall st).q.landed ((capSeq (capsuleWords data)).toNat % 32)).isSome := by simp [hnew]
  exact (capsuleWrite_eq hoff halign hlength hholds).trans (if_neg (not_or.2 ⟨Nat.not_le.2 hwindow, hno⟩))

theorem capsuleWrite_beyond (hbeyond : 32 ≤ (capSeq (capsuleWords data) - (d.stall st).q.next).toNat) :
    (d.capsuleWrite st off data).stall st = { d.stall st with lastErr := 0x0109 } := by
  rw [capsuleWrite_eq hoff halign hlength hholds, if_pos (.inl hbeyond), commandRecord_stall, setStall_stall_same]

end

/-! ### Credits and completions (R322, R333, R334) -/

theorem postCredit_stall (d : Device) (st : Nat) :
    (d.postCredit st).stall st = { d.stall st with q := { (d.stall st).q with taken := 0 } } := by
  simp [postCredit, modStallQ]

@[simp] theorem freeMusterSlot_stalls (d : Device) (p : Nat) : (d.freeMusterSlot p).stalls = d.stalls := by
  unfold freeMusterSlot
  split
  · split <;> rfl
  · rfl

/-- A command that completes leaves the queue. -/
theorem completeCmd_removes (d : Device) (st : Nat) (m : Cmd) {x : Cmd} (hx : x ∈ ((d.completeCmd st m).stall st).q.accepted) :
    x.seq ≠ m.seq := by
  unfold completeCmd at hx
  extract_lets at hx
  rw [stall, freeMusterSlot_stalls, ← stall, modStallQ, modStall_eq, setStall_stall_same] at hx
  simpa using (List.mem_filter.1 hx).2

theorem completeNext_completes {m : Cmd} (hbound : (d.stall st).state = .bound)
    (hended : ((d.stall st).q.accepted.find? fun m => d.cmdEnded st m) = some m) : d.completeNext st = d.completeCmd st m := by
  simp [completeNext, hended, hbound]

end Device

/-- Settles O40: each command by what its function makes of the Stall, its queue and what has landed there. -/
theorem stallResults : Obligations.StallResults := by
  unfold Obligations.StallResults
  refine ⟨?bind, ?loaded, ?unbind, ?left, ?landing, ?take, ?credit, ?complete⟩
  case bind =>
    intro s st queue e hst hqueue x hfree hoos hcnt hvalid hzero hctx hpdk hring hsave hout hbound hrst hkey q
    have hcode := Device.bindCode_eq_zero hoos hcnt hvalid hzero hctx hpdk hring hsave (Device.resident_eq_false hout) hbound hrst hkey
    exact (if_pos hqueue).trans ((onUnit_next _ _ hst).trans (by rw [Device.bindStall_binds hfree hcode]))
  case loaded =>
    intro s st ok hst x o hbinding hrst hphase hcheck hnone
    refine ⟨_, onUnit_next _ _ hst, ?_⟩
    simp only [Device.boundStall_loads hbinding hrst hphase hcheck hnone]
    simp [Device.boundQueue, x, o]
  case unbind =>
    intro s st hst hholds
    exact (onUnit_next _ _ hst).trans (by rw [Device.unbindStall_begins hholds])
  case left =>
    intro s st hst x hstate hjobs hpieces
    exact ⟨_, onUnit_next _ _ hst, Device.unboundStall_leaves hstate hjobs hpieces⟩
  case landing =>
    intro s st off data hst x w hoff halign hlength hholds
    refine ⟨fun hwindow hnew => (onUnit_next _ _ hst).trans ?_, fun hbeyond => ⟨_, onUnit_next _ _ hst, ?_⟩⟩
    · rw [Device.capsuleWrite_lands hoff halign hlength hholds hwindow hnew]
      rfl
    · simp only [Device.capsuleWrite_beyond hoff halign hlength hholds hbeyond]
      exact ⟨trivial, rfl⟩
  case take =>
    intro s st w hst hhead htakes hpeers
    exact (onUnit_next _ _ hst).trans
      (by rw [Device.takeIf_takes (p := fun w => Device.listsPeers w == 0) hhead htakes (beq_iff_eq.2 hpeers)])
  case credit =>
    intro s st hst htaken hstate
    refine ⟨_, onUnit_next _ _ hst, ?_⟩
    simp only [if_pos (And.intro htaken hstate), Device.postCredit_stall]
    exact ⟨trivial, trivial⟩
  case complete =>
    intro s st m hst hbound hended
    refine ⟨_, onUnit_next _ _ hst, fun x hx => ?_⟩
    simp only [Device.completeNext_completes hbound hended] at hx
    exact Device.completeCmd_removes _ st m hx

end Sys2Proof.Machine
end

section
/-! PROOF. The taking of capsules: what leaves the landing slot, what is refused, what becomes a command, and what a command does when
it is taken (spec 10: R321 to R331; spec 11: R375; spec 13: R418). Which opcodes act when they are taken follows log entry 126, an alarm
that is due at once for START 0 log entry 140. -/

namespace Sys2Proof.Machine

namespace Device
variable {d : Device} {st : Nat}

/-! ### What a Stall has taken: NEXT, and the commands by sequence number and opcode -/

/-- The sequence number and the opcode of a command, which stay as they are while it is under way. -/
def cmdName (m : Cmd) : W32 × Nat := (m.seq, m.opcode)

/-- NEXT of a Stall's queue, and the names of its accepted commands. -/
def intaken (d : Device) (st : Nat) : W32 × List (W32 × Nat) := ((d.stall st).q.next, (d.stall st).q.accepted.map cmdName)

theorem intaken_congr {e : Device} (h : e.stalls = d.stalls) : e.intaken st = d.intaken st := by simp only [intaken, stall, h]

theorem intaken_setStall {k : Nat} {v : Stall} (hnext : v.q.next = (d.stall k).q.next)
    (hnames : v.q.accepted.map cmdName = (d.stall k).q.accepted.map cmdName) : (d.setStall k v).intaken st = d.intaken st := by
  simp only [intaken, setStall_stall]
  split
  · next h => rw [← h, hnext, hnames]
  · rfl

theorem intaken_modStallQ (d : Device) (st k : Nat) {f : Queue → Queue} (hnext : ∀ q, (f q).next = q.next)
    (haccepted : ∀ q, (f q).accepted = q.accepted) : (d.modStallQ k f).intaken st = d.intaken st :=
  intaken_setStall (hnext _) (congrArg (List.map cmdName) (haccepted _))

theorem intaken_modCmd (d : Device) (st n : Nat) (seq : W32) {f : Cmd → Cmd} (hf : ∀ m, cmdName (f m) = cmdName m) :
    (d.modCmd n seq f).intaken st = d.intaken st := by
  unfold modCmd modQueue
  split
  · refine intaken_setStall rfl ?_
    rw [List.map_map]
    refine List.map_congr_left fun m _ => ?_
    simp only [Function.comp]
    split
    · exact hf m
    · rfl
  · rfl

theorem intaken_finishCmd (d : Device) (st n : Nat) (seq : W32) (code : Code) (h : W32) :
    (d.finishCmd n seq code h).intaken st = d.intaken st :=
  intaken_modCmd _ _ _ _ fun m => by split <;> rfl

/-! ### Fences, objects and windows stand apart from the Stalls -/

@[simp] theorem refObj_stalls (d : Device) (i : Nat) : (d.refObj i).stalls = d.stalls := rfl

@[simp] theorem refObjs_stalls (d : Device) (l : List Nat) : (l.foldl refObj d).stalls = d.stalls :=
  foldl_part (φ := stalls) refObj_stalls l d

@[simp] theorem refFence_stalls (d : Device) (ctx : Nat) (h : W32) : (d.refFence ctx h).stalls = d.stalls := by
  unfold refFence
  split <;> rfl

@[simp] theorem reapFence_stalls (d : Device) (i : Nat) : (d.reapFence i).stalls = d.stalls := by
  simp [reapFence, apply_ite stalls]

@[simp] theorem unrefFence_stalls (d : Device) (h : W32) : (d.unrefFence h).stalls = d.stalls := by
  simp [unrefFence, apply_ite stalls]

@[simp] theorem reapObj_stalls (d : Device) (i : Nat) : (d.reapObj i).stalls = d.stalls := by
  unfold reapObj
  dsimp only
  split
  · split <;> rfl
  · rfl

@[simp] theorem unrefObj_stalls (d : Device) (i : Nat) : (d.unrefObj i).stalls = d.stalls := reapObj_stalls ..

@[simp] theorem setHref_stalls (d : Device) (ctx : Nat) (h : W32) (f : Nat → Nat) : (d.setHref ctx h f).stalls = d.stalls := by
  unfold setHref
  split
  · simp
  · simp
  · dsimp only
    split <;> rfl
  · rfl

@[simp] theorem winClose_stalls (d : Device) (k : Nat) : (d.winClose k).stalls = d.stalls := by
  simp [winClose, apply_ite stalls]

@[simp] theorem createObj_stalls (d : Device) (s : Nat) (w : List W64) : (d.createObj s w).1.stalls = d.stalls := by
  unfold createObj
  dsimp only
  split
  · split <;> rfl
  · split
    · rfl
    · split
      · rfl
      · split
        · split <;> rfl
        · split <;> rfl

@[simp] theorem openByCapsule_stalls (d : Device) (s : Nat) (w : List W64) : (d.openByCapsule s w).1.stalls = d.stalls := by
  unfold openByCapsule
  dsimp only
  split
  · rfl
  · split <;> rfl

@[simp] theorem activate_stalls (d : Device) (p g : Nat) : (d.activate p g).stalls = d.stalls := by
  unfold activate
  split
  · rfl
  · split <;> rfl

@[simp] theorem seqIdle_stalls (d : Device) (i : Nat) : (d.seqIdle i).stalls = d.stalls := by
  simp [seqIdle, foldl_part (φ := stalls), apply_ite stalls]

@[simp] theorem holdRange_stalls (d : Device) (q : Nat) (seq : W32) (ctx a n : Nat) : (d.holdRange q seq ctx a n).stalls = d.stalls := rfl

@[simp] theorem takeMiss_stalls (d : Device) (ctx group p : Nat) (m : Miss) : (d.takeMiss ctx group p m).stalls = d.stalls := by
  unfold takeMiss
  dsimp only
  split
  · rfl
  · split <;> rfl

@[simp] theorem translateAhead_stalls (d : Device) (s : Nat) (m : Cmd) : (d.translateAhead s m).stalls = d.stalls := by
  unfold translateAhead
  split
  · rfl
  · refine foldl_part (φ := stalls) (fun e r => ?_) _ _
    refine (foldl_part (φ := stalls) (fun e g => ?_) _ _).trans (holdRange_stalls ..)
    dsimp only
    split
    · rfl
    · exact takeMiss_stalls ..

/-! ### The close of a step, which a SEQ_JOIN can bring about, ends commands and keeps their names (R373, R375) -/

theorem intaken_leaveDone (d : Device) (st i : Nat) : (d.leaveDone i).intaken st = d.intaken st := by
  unfold leaveDone
  split
  · exact intaken_finishCmd ..
  · rfl

theorem intaken_settleSeqs (d : Device) (st p : Nat) : (d.settleSeqs p).intaken st = d.intaken st := by
  refine tfoldl_part (φ := (intaken · st)) (fun e i q => ?_) _ _
  split
  · rfl
  · split
    · exact (intaken_congr (seqIdle_stalls ..)).trans (intaken_leaveDone ..)
    · rfl

theorem intaken_closeBatch (d : Device) (st p s : Nat) : (d.closeBatch p s).intaken st = d.intaken st := by
  unfold closeBatch
  dsimp only
  split
  · exact intaken_settleSeqs ..
  · refine (intaken_congr (setPdk_stalls ..)).trans
      ((foldl_part (φ := (intaken · st)) (fun e x => ?_) _ _).trans (intaken_settleSeqs ..))
    rfl

theorem intaken_closeIf (d : Device) (st p s : Nat) (c : Prop) [Decidable c] :
    (if c then d.closeBatch p s else d).intaken st = d.intaken st := by
  split
  · exact intaken_closeBatch ..
  · rfl

theorem intaken_joinSeq (d : Device) (st s : Nat) (w : List W64) : (d.joinSeq s w).1.intaken st = d.intaken st := by
  unfold joinSeq
  dsimp only
  split
  · rfl
  · exact (intaken_closeIf ..).trans (intaken_congr (by simp))

/-- What a command does at once leaves NEXT and the names of the accepted commands of every Stall. -/
theorem intaken_actTaken (d : Device) (st s : Nat) (w : List W64) (peers : List Nat) :
    (d.actTaken s w peers).1.intaken st = d.intaken st := by
  unfold actTaken
  dsimp only
  split
  · exact intaken_congr (createObj_stalls ..)
  · exact intaken_congr (setHref_stalls _ _ _ (· + 1))
  · exact intaken_congr (setHref_stalls _ _ _ (· - 1))
  · exact intaken_congr (openByCapsule_stalls ..)
  · exact intaken_congr (winClose_stalls ..)
  · exact intaken_joinSeq ..
  · split <;> rfl
  · unfold arm
    cases d.freeSlot (d.stall s).q.paddock <;> rfl
  · unfold reserveSlot
    split
    · next e he =>
      have hslot : e.stalls = d.stalls := by
        split at he
        · cases he; rfl
        · obtain ⟨n, -, rfl⟩ := Option.map_eq_some_iff.1 he
          rfl
      refine (intaken_modStallQ e st s ?_ ?_).trans (intaken_congr hslot) <;> exact fun _ => rfl
    · rfl
  · rfl

/-! ### A capsule is taken (R321, R322, R325) -/

/-- A capsule that is counted changes the count alone, which a CREDIT record sets back. -/
theorem countTaken_q (d : Device) (st : Nat) : ∃ n, ((d.countTaken st).stall st).q = { (d.stall st).q with taken := n } := by
  unfold countTaken
  dsimp only
  split
  · exact ⟨0, by simp [postCredit_stall, modStallQ]⟩
  · exact ⟨(d.stall st).q.taken + 1, by simp [modStallQ]⟩

@[simp] theorem countTaken_next (d : Device) (st : Nat) : ((d.countTaken st).stall st).q.next = (d.stall st).q.next := by
  obtain ⟨n, hn⟩ := countTaken_q d st
  rw [hn]

@[simp] theorem countTaken_accepted (d : Device) (st : Nat) :
    ((d.countTaken st).stall st).q.accepted = (d.stall st).q.accepted := by
  obtain ⟨n, hn⟩ := countTaken_q d st
  rw [hn]

theorem tookCapsule_next (d : Device) (st : Nat) : ((d.tookCapsule st).stall st).q.next = (d.stall st).q.next + 1 := by
  simp [tookCapsule, progress]

theorem tookCapsule_accepted (d : Device) (st : Nat) : ((d.tookCapsule st).stall st).q.accepted = (d.stall st).q.accepted := by
  simp [tookCapsule, progress]

variable {w : List W64} {peers : List Nat}

/-- A capsule that fails a check leaves the code in LAST_ERR, and a record. -/
theorem takeCapsule_refused {n : Nack} (h : (d.tookCapsule st).refusal st w peers = some n) :
    d.takeCapsule st w peers = ((d.tookCapsule st).modStall st fun x => { x with lastErr := n.code }).commandRecord st n.code n.handle
      (capSeq w) (capOp w) n.word := by
  unfold takeCapsule
  extract_lets p d1 d2
  have htook : d2 = d.tookCapsule st := rfl
  clear_value d2
  subst htook
  rw [h]

/-- The queue of Stall `st` with one more accepted command, which has taken over the definitions that wait for a RUN_PROGRAM. -/
def acceptCmd (d : Device) (st : Nat) (m : Cmd) : Device :=
  d.modStallQ st fun q => { q with accepted := q.accepted ++ [m], musters := if m.opcode = 2 then [] else q.musters }

/-- A capsule that passes the checks, but for a CANCEL, acts at once and becomes an accepted command that waits. -/
theorem takeCapsule_accepts (h : (d.tookCapsule st).refusal st w peers = none) (hop : capOp w ≠ 0x10) :
    ∃ (e : Device) (m : Cmd), d.takeCapsule st w peers = (e.acceptCmd st m).translateAhead st m ∧
      e.intaken st = (d.tookCapsule st).intaken st ∧
      m.seq = capSeq w ∧ m.opcode = capOp w ∧ m.w = w.drop 1 ∧ m.phase = .waiting := by
  unfold takeCapsule
  extract_lets p d1 d2 m q refs d3 d4
  have htook : d2 = d.tookCapsule st := rfl
  clear_value d2
  subst htook
  rw [h]
  have hd4 : d4.stalls = (d.tookCapsule st).stalls := by
    simp [d4, d3, apply_ite stalls]
  exact ⟨_, _, if_neg hop, (intaken_actTaken ..).trans (intaken_congr hd4), rfl, rfl, rfl, if_neg hop⟩

theorem acceptCmd_q (d : Device) (st : Nat) (m : Cmd) : ((d.acceptCmd st m).stall st).q.next = (d.stall st).q.next ∧
    ((d.acceptCmd st m).stall st).q.accepted = (d.stall st).q.accepted ++ [m] := by
  simp [acceptCmd, modStallQ]

/-! ### What each command does when it is taken (R327 to R331, R375, R418) -/

/-- OBJ_CREATE of a fence takes the lowest free slot. -/
theorem actTaken_createFence {i : Nat} (hop : capOp w = 6) (hkind : ocKind w = 2)
    (hfree : lowest (fun i => !(d.fence i).used) 65536 = some i) :
    d.actTaken st w [] = (d.setFence i
      { gen := (d.fence i).gen, used := true, context := (d.stall st).q.context, value := capWord w 2, code := 0, errTally := 0,
        href := 1, dref := 0, notify := bit (capWord w 1) 17, mirror := (capWord w 4).toNat, mirrorStopped := false,
        queue := (d.stall st).queue, ring := (d.stall st).q.ring, paddock := (d.stall st).q.paddock },
      handleOf 2 (d.fence i).gen i) := by
  simp only [actTaken, hop, createObj, hkind, if_true, hfree]

/-- OBJ_CREATE of an object of host space takes the lowest free slot. -/
theorem actTaken_createHost {i : Nat} (hop : capOp w = 6) (hkind : ocKind w = 1) (hspace : ocSpace w = 0)
    (hfree : lowest (fun i => !(d.obj i).used) 65536 = some i) :
    d.actTaken st w [] = (d.setObj i
      { gen := (d.obj i).gen, used := true, space := .host, context := (d.stall st).q.context, paddock := (d.stall st).q.paddock,
        rd := bit (capWord w 1) 6, wr := bit (capWord w 1) 7, seg := 0, core := 0, guarded := false,
        base := (capWord w 2).toNat, len := (capWord w 3).toNat, href := 1, dref := 0, zeroing := false },
      handleOf 1 (d.obj i).gen i) := by
  simp [actTaken, hop, createObj, hkind, hspace, hfree]

theorem actTaken_objRef (hop : capOp w = 7) :
    (d.actTaken st w []).1 = d.setHref (d.stall st).q.context (capHandle w 1) (· + 1) := by simp only [actTaken, hop]

theorem actTaken_objUnref (hop : capOp w = 8) :
    (d.actTaken st w []).1 = d.setHref (d.stall st).q.context (capHandle w 1) (· - 1) := by simp only [actTaken, hop]

/-- What a handle names as an object is in use. -/
theorem findObj_used {ctx i : Nat} {h : W32} (hobj : d.findObj ctx h = some i) : (d.obj i).used = true := by
  unfold findObj at hobj
  dsimp only at hobj
  split at hobj
  · next hlive =>
    obtain rfl := Option.some.inj hobj
    simp only [Bool.and_eq_true] at hlive
    obtain ⟨⟨⟨⟨⟨-, hused⟩, -⟩, -⟩, -⟩, -⟩ := hlive
    exact hused
  · cases hobj

/-- An object that something still names stays. -/
theorem reapObj_of_referenced {i : Nat} (h : (d.obj i).href ≠ 0) : d.reapObj i = d := by
  simp [reapObj, h]

/-- An object that nothing names any more leaves its slot free at the next generation (R330). -/
theorem reapObj_of_unreferenced {i : Nat} (hused : (d.obj i).used = true) (hhref : (d.obj i).href = 0) (hdref : (d.obj i).dref = 0) :
    (d.reapObj i).obj i = { Obj.reset with gen := (d.obj i).gen + 1 } := by
  have hset : ∀ e : Device, e.objs = (d.setObj i { Obj.reset with gen := (d.obj i).gen + 1 }).objs →
      e.obj i = { Obj.reset with gen := (d.obj i).gen + 1 } := fun e he => by
    rw [obj, he]
    exact setObj_obj_same ..
  unfold reapObj
  dsimp only
  rw [if_pos (by simp [hused, hhref, hdref])]
  split <;> exact hset _ rfl

section
variable {i : Nat} {ctx : Nat} {h : W32} (hobj : d.findObj ctx h = some i)
include hobj

theorem setHref_obj (f : Nat → Nat) : d.setHref ctx h f = (d.setObj i { d.obj i with href := f (d.obj i).href }).reapObj i := by
  simp only [setHref, hobj]

/-- A change of HREF that leaves a reference changes HREF alone. -/
theorem setHref_referenced {f : Nat → Nat} (hf : f (d.obj i).href ≠ 0) :
    (d.setHref ctx h f).obj i = { d.obj i with href := f (d.obj i).href } := by
  rw [setHref_obj hobj, reapObj_of_referenced (by simpa using hf), setObj_obj_same]

/-- The last reference takes the object with it. -/
theorem setHref_unreferenced {f : Nat → Nat} (hf : f (d.obj i).href = 0) (hdref : (d.obj i).dref = 0) :
    (d.setHref ctx h f).obj i = { Obj.reset with gen := (d.obj i).gen + 1 } := by
  have hreap := reapObj_of_unreferenced (d := d.setObj i { d.obj i with href := f (d.obj i).href }) (i := i)
  simp only [setObj_obj_same] at hreap
  rw [setHref_obj hobj, hreap (findObj_used hobj) hf hdref]

end

/-- SEQ_LEAVE marks its sequence, which waits for the close of a step (R375). -/
theorem actTaken_seqLeave {i : Nat} (hop : capOp w = 0x0D) (hseq : d.liveSeq (d.stall st).q.context (capHandle w 1) = some i) :
    (d.actTaken st w []).1 = d.setSeq i { d.seq i with state := .leaving, leave := some ((d.stall st).queue, capSeq w) } := by
  simp only [actTaken, hop, hseq]

/-- HINT_PHASE arms the lowest free slot of its Paddock, for now where START is 0 (R418). -/
theorem actTaken_hintPhase {n : Nat} (hop : capOp w = 0x0E) (hfree : d.freeSlot (d.stall st).q.paddock = some n) :
    (d.actTaken st w []).1 = d.armSlot n (d.stall st).q.paddock 3 (bits (capWord w 1) 11 0)
      (if capWord w 2 = 0 then d.now else (capWord w 2).toNat) := by
  simp only [actTaken, hop, arm, hfree, Option.map_some]

/-- What arming a slot sets stands whether or not its compare value is reached at once. -/
theorem armSlot_alarm (d : Device) (n owner kind target cmp per ctx ring : Nat) :
    let a := (d.armSlot n owner kind target cmp per ctx ring).alarm n
    a.armed = true ∧ a.kind = kind ∧ a.target = target ∧ a.cmp = cmp := by
  simp only [armSlot, setAlarm_alarm_same, Alarm.seen]
  split <;> exact ⟨rfl, rfl, rfl, rfl⟩

/-- A cancelled COPY issues nothing further and ends with CANCELLED (R327). -/
theorem cancelOne_copy {m : Cmd} (hop : m.opcode = 3) : d.cancelOne st m =
    (d.stopPieces (· == .command st m.seq)).finishCmd (d.stall st).queue m.seq CANCELLED m.handle := by
  simp only [cancelOne, hop]

end Device

/-- Settles O42: a capsule by its refusal, its acceptance by what the names of the commands are before and after it acts, and what it
does by opcode. That it acts when it is taken, and the alarm due at once, are log entries 126 and 140. -/
theorem capsuleTaking : Obligations.CapsuleTaking := by
  unfold Obligations.CapsuleTaking
  refine ⟨fun d st w peers _ _ => ⟨?refused, ?accepted⟩,
    fun d st w => ⟨?fence, ?object, ?ref, ?unref, ?leave, ?hint, ?cancel⟩⟩
  case refused =>
    intro n hn
    rw [Device.takeCapsule_refused hn, Device.commandRecord_stall, Device.modStall_eq, Device.setStall_stall_same]
    simp only [Device.tookCapsule_next, Device.tookCapsule_accepted, and_self]
  case accepted =>
    intro hnone hop
    obtain ⟨e, m, htake, hnames, hseq, hopcode, hw, hphase⟩ := Device.takeCapsule_accepts hnone hop
    obtain ⟨hnext, haccepted⟩ := e.acceptCmd_q st m
    obtain ⟨hnext0, hnames0⟩ := Prod.mk.inj hnames
    rw [d.tookCapsule_next st] at hnext0
    rw [d.tookCapsule_accepted st] at hnames0
    have hstall : (d.takeCapsule st w peers).stall st = (e.acceptCmd st m).stall st := by
      rw [htake, Device.stall, Device.translateAhead_stalls]
      rfl
    simp only [hstall, haccepted, hnext, List.map_append, List.map_singleton]
    refine ⟨congrArg₂ (· ++ ·) hnames0 ?_, ⟨m, by simp, hseq, hopcode, hw, hphase⟩, hnext0⟩
    rw [hseq, hopcode]
  case fence =>
    intro i hop hkind hfree
    simp [Device.actTaken_createFence hop hkind hfree]
  case object =>
    intro i hop hkind hspace hfree
    simp [Device.actTaken_createHost hop hkind hspace hfree]
  case ref =>
    intro i hop hobj
    rw [Device.actTaken_objRef hop, Device.setHref_referenced hobj (Nat.succ_ne_zero _)]
  case unref =>
    intro i hop hobj
    rw [Device.actTaken_objUnref hop]
    refine ⟨fun hmany => ?_, fun hlast hdref => ?_⟩
    · rw [Device.setHref_referenced (f := (· - 1)) hobj (Nat.sub_ne_zero_of_lt hmany)]
      exact ⟨rfl, Device.findObj_used hobj⟩
    · rw [Device.setHref_unreferenced (f := (· - 1)) hobj (by rw [hlast]) hdref]
      exact ⟨rfl, rfl⟩
  case leave =>
    intro i hop hseq
    rw [Device.actTaken_seqLeave hop hseq, Device.setSeq_seq_same]
  case hint =>
    intro n hop hfree
    simp only [Device.actTaken_hintPhase hop hfree]
    exact Device.armSlot_alarm ..
  case cancel => exact fun m hop => Device.cancelOne_copy hop

end Sys2Proof.Machine
end

section
/-! PROOF. Taking and giving up the tickets of a semaphore (spec 11: R365, R367). That the smallest granted ticket is the one released
follows log entry 146. -/

namespace Sys2Proof.Machine

namespace Device
variable {d : Device} {c n j p i : Nat} {v : Job} {x : QInstr}

/-! ### What a fence and a job leave of the semaphores -/

@[simp] theorem fenceChanged_pdks (d : Device) (i : Nat) : (d.fenceChanged i).pdks = d.pdks := by
  simp [fenceChanged, apply_ite pdks]

/-- A signal changes its fence and posts what follows; the Paddocks stay. -/
@[simp] theorem signalFence_pdks (d : Device) (i : Nat) (w : W64) : (d.signalFence i w).1.pdks = d.pdks := by
  unfold signalFence
  dsimp only
  split
  · rfl
  · split
    · rfl
    · rw [fenceChanged_pdks, setFence_pdks]

@[simp] theorem modJob_pdks (d : Device) (j : Nat) (f : Job → Job) : (d.modJob j f).pdks = d.pdks := by
  unfold modJob
  split <;> rfl

@[simp] theorem modJob_fences (d : Device) (j : Nat) (f : Job → Job) : (d.modJob j f).fences = d.fences := by
  unfold modJob
  split <;> rfl

theorem sem_congr {e : Device} (h : e.pdks = d.pdks) (p n : Nat) : e.sem p n = d.sem p n := by
  simp only [sem, pdk, h]

theorem fence_congr {e : Device} (h : e.fences = d.fences) (i : Nat) : e.fence i = d.fence i := by
  simp only [fence, h]

theorem semFence_congr {e : Device} (hpdks : e.pdks = d.pdks) (hfences : e.fences = d.fences) (p n : Nat) :
    e.semFence p n = d.semFence p n := by
  simp only [semFence, findFence, sem_congr hpdks, fence_congr hfences]

/-! ### Taking a ticket -/

/-- A job with fewer than 16 tickets takes the next one of a semaphore of its context, and D its number (R365). -/
theorem takeTicket_ok (hj : d.jobOf c = some (j, v)) (hvalid : (d.sem v.paddock n).valid = true)
    (hctx : (d.sem v.paddock n).context = v.context) (hroom : v.tickets.length < 16) :
    takeTicket c n x d =
      .ok (((d.setSem v.paddock n { d.sem v.paddock n with ticket := (d.sem v.paddock n).ticket + 1 }).setJob j
        { v with tickets := v.tickets ++ [(n, (d.sem v.paddock n).ticket)] }).modSeq c fun q =>
          q.setSop (fD x.word) (BitVec.ofNat 64 (d.sem v.paddock n).ticket)) := by
  have hroom : ¬ 16 ≤ v.tickets.length := Nat.not_le.2 hroom
  simp only [takeTicket, hj]
  simp [hvalid, hctx, hroom]

/-- PEN_SEM_TKT of semaphore `n` (Table 11.8). -/
theorem mfcBody_ticket (hn : n < 16) (ho : csrOf x.word = 0x700 + 8 * n) : mfcBody c x d = takeTicket c n x d := by
  have hrange : 0x700 ≤ 0x700 + 8 * n ∧ 0x700 + 8 * n < 0x780 ∧ (0x700 + 8 * n) % 8 = 0 := by omega
  have hindex : (0x700 + 8 * n - 0x700) / 8 = n := by omega
  simp only [mfcBody, ho, if_pos hrange, hindex]

/-! ### Giving up a ticket -/

/-- Where no ended job has left a ticket, a release only raises the semaphore's fence by 1 (R365, R366). -/
theorem releaseTicket_none_left (hfence : d.semFence p n = some i) (hleft : (d.sem p n).abandoned = []) (fuel : Nat) :
    d.releaseTicket p n (fuel + 1) = (d.signalFence i ((d.fence i).value + 1)).1 := by
  simp only [releaseTicket, hfence, sem_congr (signalFence_pdks ..), hleft, List.find?_nil]

/-- The smallest granted ticket of a job without a loan is given up, and the semaphore's fence rises by 1 (R365). -/
theorem releaseOne_ok {t : Nat} {ts : List Nat} (hj : d.jobOf c = some (j, v))
    (hgranted : (v.tickets.filter fun t => t.1 == n && decide (t.2 ≤ d.granted v.paddock n)).map (·.2) = t :: ts)
    (hloan : v.loan = none) (hleft : (d.sem v.paddock n).abandoned = []) (hfence : d.semFence v.paddock n = some i) :
    releaseOne c n x d =
      .ok ((((d.setJob j { v with tickets := v.tickets.erase (n, ts.foldl min t) }).endLoan j (n, ts.foldl min t)).signalFence i
        ((d.fence i).value + 1)).1) := by
  simp only [releaseOne, hj, hgranted, hloan, Option.isSome_none, Bool.false_and, Bool.false_eq_true, if_false]
  generalize he : (d.setJob j _).endLoan j _ = e
  have hpdks : e.pdks = d.pdks := by rw [← he, endLoan, modJob_pdks, setJob_pdks]
  have hfences : e.fences = d.fences := by rw [← he, endLoan, modJob_fences, setJob_fences]
  rw [releaseTicket_none_left ((semFence_congr hpdks hfences ..).trans hfence) ((congrArg _ (sem_congr hpdks ..)).trans hleft),
    fence_congr hfences]

/-- PEN_SEM_REL of semaphore `n` (Table 11.8). -/
theorem coreWrite_release (hn : n < 16) (w : W64) : coreWrite c (0x780 + 8 * n) w x d = releaseOne c n x d := by
  generalize hoff : 0x780 + 8 * n = off
  have hindex : (off - 0x780) / 8 = n := by omega
  have hrange : 0x780 ≤ off ∧ off < 0x800 ∧ off % 8 = 0 := by omega
  have hpen : off ≠ 0x008 ∧ off ≠ 0x040 ∧ off ≠ 0x044 ∧ off ≠ 0x048 := by omega
  have htrough : off ≠ 0x200 ∧ off ≠ 0x208 := by omega
  have hchannel : off ≠ 0x400 ∧ off ≠ 0x440 ∧ off ≠ 0x408 ∧ off ≠ 0x448 := by omega
  have hchute : ¬ off < 0x500 ∧ off ≠ 0x500 := by omega
  simp [coreWrite, hindex, hrange, hpen, htrough, hchannel, hchute]

end Device

/-- MFC whose row is chosen by its register completes with what its body answers. -/
theorem issueCsr_mfc_completed {s : State} {c off : Nat} {x : QInstr} {e : Device} {p : Nat → Bool}
    (h : s.dev.mayIssue c .c 0x12 x = true) (ho : bits x.word 43 32 = off) (hp : p off = true)
    (hb : Device.mfcBody c x s.dev = .ok e) :
    onUnit 12 c s (Device.issueCsr c 0x12 p Device.mfcBody) = .next { s with dev := s.dev.completed c x e } := by
  rw [onUnit_next _ _ (Device.mayIssue_iff.1 h).1, Device.issueCsr_eq h (by rwa [Device.csrOf, ho]),
    ← onUnit_next _ _ (Device.mayIssue_iff.1 h).1]
  exact Device.onUnit_completed h hb rfl

/-- Settles O23: each move by what its register does with the job's tickets. That a release takes the smallest granted ticket is
log entry 146. -/
theorem semaphoreTicketResults : Obligations.SemaphoreTicketResults := by
  unfold Obligations.SemaphoreTicketResults
  refine fun s c n j x v hn hj => ⟨?take, ?release⟩
  case take =>
    intro h ho hvalid hctx hroom
    exact issueCsr_mfc_completed h ho (by simp; omega)
      ((Device.mfcBody_ticket hn ho).trans (Device.takeTicket_ok hj hvalid hctx hroom))
  case release =>
    intro i t ts h ho hgranted hloan hleft hfence
    exact issueCsr_mtc_completed h ho (by simp; omega)
      ((Device.coreWrite_release hn _).trans (Device.releaseOne_ok hj hgranted hloan hleft hfence))

end Sys2Proof.Machine
end

section
/-! PROOF. The state after a power-on reset, and a refused statement about the rows of the Shepherd's units: an interval of the power
controller counts the cores' events anew (spec 13: R411; spec 18: R516 to R519). -/

namespace Sys2Proof.Machine

/-! ### The state after a power-on reset -/

/-- The only Paddock that a device lists at its first start is Paddock 0 (R435). -/
theorem layout_reset_absent {p : Nat} (h : p ≠ 0) : Device.reset.layout p = Layout.reset := by
  have hsec : Device.reset.pdkSec p = PdkSec.reset := by
    simp [Device.pdkSec, Device.reset, Table.get, h.symm]
  rw [Device.layout, hsec]
  rfl

theorem pwrStep_reset : Device.reset.pwrStep = 0xF0 := by
  have hfields : Device.reset.pwrStep = fieldsOf [(0, 0), (4, 15), (8, 0), (12, 0), (15, 0)] := rfl
  rw [hfields]
  decide

/-- Settles O59: each register by evaluation of the reset state, whose tables list nothing but Paddock 0. -/
theorem resetState : Obligations.ResetState := by
  unfold Obligations.ResetState
  intro d
  exact ⟨rfl, rfl, rfl, rfl, rfl, rfl, rfl, rfl, rfl, rfl, rfl, pwrStep_reset, rfl, rfl, rfl, rfl, rfl, rfl, rfl, rfl, fun _ => ⟨rfl, rfl, rfl⟩,
    fun _ => rfl, fun _ => rfl, fun _ => rfl, fun _ => rfl, rfl, rfl, rfl, fun _ hp => congrArg Layout.present (layout_reset_absent hp)⟩

/-! ### An interval of the power controller counts the cores' events anew (R411 to R414) -/

/-- A fold that changes the entry of each key of a list once. -/
theorem Table.get_foldl_entries {α : Type} {d : α} {F : Table α → Nat → Table α} {g : Nat → α → α}
    (hsame : ∀ t c, Table.get (F t c) d c = g c (Table.get t d c)) (hne : ∀ t {c k}, c ≠ k → Table.get (F t c) d k = Table.get t d k)
    {l : List Nat} (hl : l.Nodup) (t : Table α) (k : Nat) :
    Table.get (l.foldl F t) d k = if k ∈ l then g k (Table.get t d k) else Table.get t d k := by
  induction l generalizing t with
  | nil => rfl
  | cons c l ih =>
    obtain ⟨hc, hl⟩ := List.nodup_cons.1 hl
    rw [List.foldl_cons, ih hl]
    by_cases hk : c = k
    · subst hk; simp [hc, hsame]
    · simp [hne t hk, Ne.symm hk]

namespace Device

/-- What a fold that changes each core of a list once makes of a core. -/
theorem foldl_core {g : Device → Nat → Device} {f : Core → Core}
    (hg : ∀ d c k, (g d c).core k = if c = k then f (d.core k) else d.core k) {l : List Nat} (hl : l.Nodup) (d : Device) (k : Nat) :
    (l.foldl g d).core k = if k ∈ l then f (d.core k) else d.core k := by
  induction l generalizing d with
  | nil => rfl
  | cons c l ih =>
    obtain ⟨hc, hl⟩ := List.nodup_cons.1 hl
    rw [List.foldl_cons, ih hl, hg]
    by_cases hk : c = k
    · subst hk; simp [hc]
    · simp [hk, Ne.symm hk]

theorem modCore_core (d : Device) (c : Nat) (f : Core → Core) (k : Nat) :
    (d.modCore c f).core k = if c = k then f (d.core k) else d.core k := by
  rw [modCore_eq, setCore_core]
  split
  case isTrue h => rw [h]
  case isFalse => rfl

/-- A core without the events that it has counted. -/
def rested (k : Core) : Core := { k with work := 0, waited := 0 }

/-- What the counting anew makes of a core. -/
theorem clearWork_core (d : Device) (c : Nat) : d.clearWork.core c = if c < 12 then rested (d.core c) else d.core c := by
  have h := foldl_core (fun d c => modCore_core d c rested) (List.nodup_range (n := 12)) d c
  simp only [List.mem_range] at h
  exact h

theorem clearWork_modPower (d : Device) (f : Power → Power) : (d.modPower f).clearWork = d.clearWork.modPower f := by
  have hfold : ∀ (l : List Nat) (e : Device),
      l.foldl (fun d c => d.modCore c rested) (e.modPower f) = (l.foldl (fun d c => d.modCore c rested) e).modPower f := fun l => by
    induction l with
    | nil => exact fun _ => rfl
    | cons k l ih => exact fun e => ih (e.modCore k rested)
  exact hfold (List.range 12) d

theorem budgetOf_modCore_rested (d : Device) (k c : Nat) : (d.modCore k rested).budgetOf c = d.budgetOf c := by
  have hcore : ∀ n, ((d.modCore k rested).core n).job = (d.core n).job ∧ ((d.modCore k rested).core n).phase = (d.core n).phase := by
    intro n
    rw [modCore_core]
    split <;> exact ⟨rfl, rfl⟩
  have hphase : (d.modCore k rested).phaseOf = d.phaseOf := by
    funext n
    simp only [phaseOf, hcore]
    rfl
  have hneed : (d.modCore k rested).needAt = d.needAt := by
    funext s n
    simp only [needAt, hcore, hphase]
    rfl
  simp only [budgetOf, hneed]
  rfl

/-- A budget follows the needs of the coming interval, not the events of the past one (R413). -/
theorem budgetOf_clearWork (d : Device) (c : Nat) : d.clearWork.budgetOf c = d.budgetOf c :=
  foldl_part (φ := fun d => d.budgetOf c) (fun d k => budgetOf_modCore_rested d k c) (List.range 12) d

/-- The balances when the present cores have drawn their energy of the interval (R414). -/
def drawn (cs : List Nat) (core : Nat → Nat) (t : Table Int) : Table Int :=
  cs.foldl (fun t c => Table.set t 0 c (Table.get t 0 c - (core c : Int))) t

/-- The next interval: the cores count anew, and each budget is added to what is left of the balance. -/
def opened (d : Device) (used : Table Int) : Device :=
  d.clearWork.modPower fun w => { w with
    budgets := d.presentCores.foldl (fun t c => Table.set t 0 c (d.budgetOf c / 2000)) w.budgets
    balances := d.presentCores.foldl (fun t c => Table.put t c ((d.budgetOf c : Int) + min 0 (Table.get used 0 c))) w.balances }

/-- Budgets and balances have no part in the next budgets. -/
theorem budgetOf_modPower (d : Device) (b : Power → Table Nat) (u : Power → Table Int) (c : Nat) :
    (d.modPower fun w => { w with budgets := b w, balances := u w }).budgetOf c = d.budgetOf c := rfl

theorem budgetOf_opened (d : Device) (used : Table Int) (c : Nat) : (d.opened used).budgetOf c = d.budgetOf c :=
  (budgetOf_modPower ..).trans (budgetOf_clearWork d c)

/-- Energy of the interval that ends, in pJ (R411). -/
def spentOf (d : Device) (c : Nat) : Nat := d.scaled ((d.core c).work / 32)
def intervalEnergy (d : Device) (a : Activity) : Nat :=
  ((d.presentCores.map d.spentOf).foldl (· + ·) 0) + d.scaled (d.uncoreWork a) + d.scaled (d.cal.fixedMw * 2000) +
    d.leakAt d.power.cur * 2000

/-- An interval is measured, and then the next one opens. -/
theorem intervalEnds_eq {a : Activity} {d : Device} (hr : d.boot.released = true) (hs : 5 ≤ d.boot.stage) :
    ∃ f, intervalEnds a d = (d.modPower f).opened (drawn d.presentCores d.spentOf d.power.balances) ∧
      (f d.power).est = d.intervalEnergy a / 2000 ∧
      (f d.power).energy = d.power.energy + (d.power.energyRem + d.intervalEnergy a) / 1000000 ∧
      (f d.power).energyRem = (d.power.energyRem + d.intervalEnergy a) % 1000000 := by
  unfold intervalEnds
  rw [if_neg (by simp [hr, hs])]
  extract_lets w cs core unc other leak e total energy edge ests power learning used d1
  exact ⟨_, rfl, rfl, rfl, rfl⟩

theorem presentCores_nodup (d : Device) : d.presentCores.Nodup := List.nodup_range.filter _

section
variable (d : Device) (used : Table Int) {c : Nat} (hc : c ∈ d.presentCores)
include hc

theorem opened_budget : Table.get (d.opened used).power.budgets 0 c = d.budgetOf c / 2000 := by
  refine (Table.get_foldl_entries (g := fun c _ => d.budgetOf c / 2000) ?_ ?_ d.presentCores_nodup _ c).trans (if_pos hc)
  · exact fun t c => Table.get_set_same ..
  · exact fun t c k h => Table.get_set_ne _ _ _ h

theorem opened_balance : Table.get (d.opened used).power.balances 0 c = (d.budgetOf c : Int) + min 0 (Table.get used 0 c) := by
  refine (Table.get_foldl_entries (g := fun c _ => (d.budgetOf c : Int) + min 0 (Table.get used 0 c)) ?_ ?_ d.presentCores_nodup _ c).trans
    (if_pos hc)
  · exact fun t c => Table.get_put_same ..
  · exact fun t c k h => Table.get_put_ne _ _ _ h

theorem get_drawn (core : Nat → Nat) (t : Table Int) : Table.get (drawn d.presentCores core t) 0 c = Table.get t 0 c - core c := by
  refine (Table.get_foldl_entries (g := fun c (x : Int) => x - core c) ?_ ?_ d.presentCores_nodup _ c).trans (if_pos hc)
  · exact fun t c => Table.get_set_same ..
  · exact fun t c k h => Table.get_set_ne _ _ _ h

end
end Device

/-- A started device whose first core has counted an event. -/
def oneEvent : State := { pending := [], dev := { Device.reset with
  boot := { Boot.reset with released := true, stage := 5 }, cores := [(0, { Core.reset with work := 1 })] } }

/-- Refutes O60: POWER_INTERVAL stands among the Shepherd's rows, and it takes the events that the cores have counted (R411): of the core
that has counted one, none is left. -/
theorem not_shepherdFrame : ¬ Obligations.ShepherdFrame := by
  unfold Obligations.ShepherdFrame
  intro h
  let a : Activity := { meshBeats := 0, bursts := 0, flits := 0, frames := 0 }
  obtain ⟨hsame, -⟩ := h (.powerInterval a) oneEvent _ rfl (done_next oneEvent (Device.intervalEnds a))
  obtain ⟨f, hf, -⟩ := Device.intervalEnds_eq (a := a) (d := oneEvent.dev) rfl (by decide)
  have hcores : oneEvent.dev.clearWork.cores = oneEvent.dev.cores := by
    rw [← hsame.cores, hf, Device.opened, Device.clearWork_modPower]
    rfl
  have hcore := Device.core_congr hcores 0
  rw [Device.clearWork_core, if_pos (by decide)] at hcore
  exact absurd (congrArg Core.work hcore) (by decide)

end Sys2Proof.Machine
end

section
/-! PROOF. The management path: SPDM requests in and outside a session, MCTP control messages and I3C addresses (spec 14: R445 to R447;
spec 16: R487, R489, R490). -/

namespace Sys2Proof.Machine

theorem onSess_of_eq {ses : Option Nat} {s : State} {f : Device → Device} {e : Device} (hses : ∀ k, ses = some k → k < 4)
    (h : f s.dev = e) : onSess ses s f = s.goes e := by
  rw [onSess_next s f (by cases ses <;> simp_all), h]

/-- A command outside a session. -/
theorem onSess_none_of_eq {s : State} {f : Device → Device} {e : Device} (h : f s.dev = e) : onSess none s f = s.goes e :=
  onSess_of_eq nofun h

/-- A command of session `k`. -/
theorem onSess_some_of_eq {s : State} {k : Nat} (hk : k < 4) {f : Device → Device} {e : Device} (h : f s.dev = e) :
    onSess (some k) s f = s.goes e :=
  onSess_of_eq (fun _ h => Option.some.inj h ▸ hk) h

theorem onUnit_of_eq {n i : Nat} {s : State} {f : Device → Device} {e : Device} (hi : i < n) (h : f s.dev = e) :
    onUnit n i s f = s.goes e := by rw [onUnit_next s f hi, h]

/-- No number below `n` is accepted. -/
theorem lowest_eq_none {p : Nat → Bool} {n : Nat} (h : ∀ k < n, p k = false) : lowest p n = none := by
  cases hl : lowest p n with
  | none => rfl
  | some k =>
    have hp : ∀ {n i k}, lowestFrom p n i = some k → p k = true := fun {n} => by
      induction n with
      | zero => exact nofun
      | succ n ih =>
        intro i k hk
        rw [lowestFrom] at hk
        split at hk
        · next hpi => exact Option.some.inj hk ▸ hpi
        · exact ih hk
    exact absurd (hp hl) (by simp [h k (lowest_lt hl)])

namespace Device

/-! ### What the path carries (R446, R489) -/

section
variable {d : Device} {what stage : Nat} {m : SpdmMsg} {go : Device → Device} (hup : d.pathUp = true)
include hup

theorem spdm_outside (hsup : m.supported = true) (hstage : stage ≤ d.dict.spdmStage) : spdm what stage none m go d = go d := by
  simp [spdm, hup, hsup, Nat.not_lt.2 hstage]

/-- A request before the ones that must come first. -/
theorem spdm_early (hsup : m.supported = true) (hstage : d.dict.spdmStage < stage) :
    spdm what stage none m go d = d.spdmError what 0x04 := by
  simp [spdm, hup, hsup, hstage]

theorem onSlot_early (hsup : m.supported = true) (hstage : d.dict.spdmStage < 3) : onSlot what none m go d = d.spdmError what 0x04 :=
  spdm_early hup hsup hstage

theorem spdm_unsupported (hsup : m.supported = false) : spdm what stage none m go d = d.spdmError what 0x07 := by
  simp [spdm, hup, hsup]

theorem onSlot_unsupported (hsup : m.supported = false) : onSlot what none m go d = d.spdmError what 0x07 := spdm_unsupported hup hsup

/-- A request of an open session: its handshake is complete, or FINISH completes it. -/
theorem spdm_inside {k : Nat} (hsup : m.supported = true) (hopen : (d.sess k).isOpen = true)
    (hfin : (d.sess k).finished = true ∨ what = 8) : spdm what stage (some k) m go d = go d := by
  have hgoes : (what != 8 && !(d.sess k).finished) = false := by rcases hfin with h | h <;> simp [h]
  simp [spdm, hup, hsup, hopen, hgoes]

theorem inSession_goes {k : Nat} {go : Nat → Device → Device} (hsup : m.supported = true) (hopen : (d.sess k).isOpen = true)
    (hfin : (d.sess k).finished = true) : inSession what (some k) m go d = go k d :=
  (spdm_inside hup hsup hopen (.inl hfin)).trans (if_pos hfin)

end

/-- The connection has its algorithms, or the session its handshake. -/
def ready (d : Device) (ses : Option Nat) : Prop :=
  (ses = none ∧ 3 ≤ d.dict.spdmStage) ∨ ∃ k < 4, ses = some k ∧ (d.sess k).isOpen = true ∧ (d.sess k).finished = true

section
variable {d : Device} {ses : Option Nat} {what : Nat} {m : SpdmMsg} {go : Device → Device} (hup : d.pathUp = true)
  (hsup : m.supported = true) (hready : d.ready ses)
include hready

theorem ready_lt (k : Nat) (h : ses = some k) : k < 4 := by
  rcases hready with ⟨hnone, -⟩ | ⟨n, hn, hsome, -⟩
  · cases hnone.symm.trans h
  · cases hsome.symm.trans h
    exact hn

include hup hsup

theorem spdm_ready : spdm what 3 ses m go d = go d := by
  rcases hready with ⟨rfl, hstage⟩ | ⟨k, -, rfl, hopen, hfin⟩
  · exact spdm_outside hup hsup hstage
  · exact spdm_inside hup hsup hopen (.inl hfin)

theorem onSlot_other (hslot : m.slot ≠ 0) : onSlot what ses m go d = d.spdmError what 0x01 :=
  (spdm_ready hup hsup hready).trans (if_pos hslot)

theorem onSlot_zero (hslot : m.slot = 0) : onSlot what ses m go d = go d :=
  (spdm_ready hup hsup hready).trans (if_neg (not_not.2 hslot))

end

/-! ### Measurements and sessions (R447, R489, R490, R492) -/

@[simp] theorem modSess_sess_same (d : Device) (k : Nat) (f : Sess → Sess) : (d.modSess k f).sess k = f (d.sess k) := Table.get_set_same ..

/-- The session of a report remembers its instant. -/
def measuredIn (d : Device) (ses : Option Nat) : Device :=
  match ses with
  | some k => if (d.sess k).finished then d.modSess k fun x => { x with measured := some d.now } else d
  | none => d

theorem measuredIn_keeps (d : Device) (ses : Option Nat) :
    (d.measuredIn ses).sec = d.sec ∧ (d.measuredIn ses).dict.staging = d.dict.staging := by
  unfold measuredIn
  split
  · split <;> exact ⟨rfl, rfl⟩
  · exact ⟨rfl, rfl⟩

theorem measuredIn_sess {d : Device} {k : Nat} (hfin : (d.sess k).finished = true) :
    ((d.measuredIn (some k)).sess k).measured = some d.now := by
  simp only [measuredIn, hfin, if_true]
  exact congrArg Sess.measured (modSess_sess_same ..)

/-- A response whose bytes stay for the chunks of it. -/
def answered (d : Device) (what : Nat) (b : List Byte) : Device := (d.modDict fun x => { x with chunk := b }).spdmAnswer what b

/-- A report counts, and its session remembers it. -/
def counted (d : Device) (ses : Option Nat) : Device := (d.modSecurity fun s => { s with attestCnt := s.attestCnt + 1 }).measuredIn ses

theorem counted_keeps (d : Device) (ses : Option Nat) :
    (d.counted ses).sec.attestCnt = d.sec.attestCnt + 1 ∧ (d.counted ses).dict.staging = d.dict.staging := by
  obtain ⟨hsec, hstaging⟩ := measuredIn_keeps (d.modSecurity fun s => { s with attestCnt := s.attestCnt + 1 }) ses
  exact ⟨congrArg Security.attestCnt hsec, hstaging⟩

theorem counted_sess {d : Device} {k : Nat} (hfin : (d.sess k).finished = true) :
    ((d.counted (some k)).sess k).measured = some d.now :=
  measuredIn_sess (d := d.modSecurity fun s => { s with attestCnt := s.attestCnt + 1 }) hfin

theorem getMeasurements_eq {d : Device} {ses : Option Nat} {m : SpdmMsg} (hup : d.pathUp = true) (hsup : m.supported = true)
    (hready : d.ready ses) (hslot : m.slot = 0) : ∃ b, getMeasurements ses m d = (d.counted ses).answered 6 b :=
  ⟨_, onSlot_zero hup hsup hready hslot⟩

theorem endSession_sess (d : Device) (k : Nat) : (d.endSession k).sess k = Sess.reset :=
  modSess_sess_same d k fun _ => Sess.reset

theorem mem_endSession_staging {d : Device} {k : Nat} {y : Staging} (h : y ∈ (d.endSession k).dict.staging) :
    y ∈ d.dict.staging ∧ y.sess ≠ k := by
  have h' : y ∈ d.dict.staging.filter fun y => y.sess != k := h
  simpa using h'

section
variable {d : Device} {m : SpdmMsg} (hup : d.pathUp = true) (hsup : m.supported = true) (hready : d.ready none) (hslot : m.slot = 0)
include hup hsup hready hslot

theorem keyExchange_opens {k : Nat} (hfree : lowest (fun k => !(d.sess k).isOpen) 4 = some k) : keyExchange none m d =
    (d.modSess k fun _ => { Sess.reset with
      isOpen := true, operator := d.dict.roots.isEmpty || m.chainOk, beat := d.now, keyNum := 1 }).spdmAnswer 7 [BitVec.ofNat 8 k] := by
  refine (onSlot_zero hup hsup hready hslot).trans ?_
  simp only [Option.isSome_none, Bool.false_eq_true, if_false, hfree]

/-- A fifth session is refused. -/
theorem keyExchange_refused (hall : ∀ k < 4, (d.sess k).isOpen = true) : keyExchange none m d = d.spdmError 7 0x0A := by
  have hnone : lowest (fun k => !(d.sess k).isOpen) 4 = none := lowest_eq_none fun k hk => by rw [hall k hk]; rfl
  refine (onSlot_zero hup hsup hready hslot).trans ?_
  simp only [Option.isSome_none, Bool.false_eq_true, if_false, hnone]

end

section
variable {d : Device} {m : SpdmMsg} {k : Nat} (hup : d.pathUp = true) (hsup : m.supported = true) (hopen : (d.sess k).isOpen = true)
  (hfin : (d.sess k).finished = false)
include hup hsup hopen hfin

theorem finish_completes (hproof : m.proofOk = true) :
    finish (some k) m d = (d.modSess k fun x => { x with finished := true, beat := d.now }).spdmAnswer 8 := by
  refine (spdm_inside hup hsup hopen (.inr rfl)).trans ?_
  simp only [hfin, hproof, Bool.false_eq_true, if_false, if_true]

/-- A proof that fails ends the session. -/
theorem finish_ends (hproof : m.proofOk = false) : finish (some k) m d = (d.endSession k).spdmError 8 0x06 := by
  refine (spdm_inside hup hsup hopen (.inr rfl)).trans ?_
  simp only [hfin, hproof, Bool.false_eq_true, if_false]

end

/-! ### MCTP and I3C (Table 16.1) -/

theorem mctp_up {d : Device} (hup : d.pathUp = true) (cmd completion : Nat) (data : List Byte) :
    mctp cmd completion data d = d.emit (.mctp cmd completion data) := if_pos hup

theorem setEid_sets {d : Device} (hup : d.pathUp = true) {eid : BitVec 8} (h0 : eid ≠ 0) (hF : eid ≠ 0xFF) :
    setEid eid d = (d.modDict fun x => { x with eid := eid }).emit (.mctp 1 0 [0, eid, 0]) := by
  have hup' : (d.modDict fun x => { x with eid := eid }).pathUp = true := hup
  rw [setEid, if_neg (by simp [hup]), if_neg (not_or.2 ⟨h0, hF⟩), mctp_up hup']

theorem assignAddr_once {d : Device} (hup : d.pathUp = true) (h : d.dict.i3cAddr = none) (a : BitVec 7) :
    assignAddr a d = d.modDict fun x => { x with i3cAddr := some a } := if_pos (by simp [hup, h])

theorem assignAddr_again {d : Device} (h : d.dict.i3cAddr ≠ none) (a : BitVec 7) : assignAddr a d = d := by
  refine if_neg ?_
  cases hi : d.dict.i3cAddr <;> simp_all

end Device

/-- Settles O52, request by request: what the path carries leaves the request's own rule. That a heartbeat before its 60 s leaves the
state is log entry 3, and that an address is assigned only where none stands is log entry 178: the model's choices. -/
theorem managementPathResults : Obligations.ManagementPathResults := by
  unfold Obligations.ManagementPathResults
  refine ⟨?begin, ?answers, ?opening, ?session, ?missed, ?unsupported, ?mctp, ?i3c⟩
  case begin =>
    intro s m hup hsup d at_
    refine ⟨onSess_none_of_eq (Device.spdm_outside hup hsup (Nat.zero_le _)), fun h => onSess_none_of_eq (Device.spdm_outside hup hsup h),
      fun h => onSess_none_of_eq (Device.spdm_outside hup hsup h), fun h => ?_⟩
    simp only [List.forall_mem_cons, List.not_mem_nil, false_implies, implies_true, and_true]
    exact ⟨onSess_none_of_eq (Device.spdm_early hup hsup h), onSess_none_of_eq (Device.onSlot_early hup hsup h),
      onSess_none_of_eq (Device.onSlot_early hup hsup h), onSess_none_of_eq (Device.onSlot_early hup hsup h),
      onSess_none_of_eq (Device.onSlot_early hup hsup h), onSess_none_of_eq (Device.spdm_early hup hsup h)⟩
  case answers =>
    intro s ses m hup hsup (hready : s.dev.ready ses) d
    have hses := Device.ready_lt hready
    refine ⟨onSess_of_eq hses (Device.spdm_ready hup hsup hready), onSess_of_eq hses (Device.spdm_ready hup hsup hready), fun hslot => ?_,
      fun hslot => ⟨onSess_of_eq hses (Device.onSlot_zero hup hsup hready hslot),
        onSess_of_eq hses (Device.onSlot_zero hup hsup hready hslot), ?_⟩⟩
    · simp only [List.forall_mem_cons, List.not_mem_nil, false_implies, implies_true, and_true]
      exact ⟨onSess_of_eq hses (Device.onSlot_other hup hsup hready hslot), onSess_of_eq hses (Device.onSlot_other hup hsup hready hslot),
        onSess_of_eq hses (Device.onSlot_other hup hsup hready hslot)⟩
    · obtain ⟨b, hb⟩ := Device.getMeasurements_eq hup hsup hready hslot
      obtain ⟨hcount, hstaging⟩ := Device.counted_keeps s.dev ses
      refine ⟨_, onSess_of_eq hses hb, hcount, ?_, hstaging⟩
      rintro k rfl
      rcases hready with ⟨hnone, -⟩ | ⟨n, -, hsome, -, hfin⟩
      · cases hnone
      · cases hsome
        exact Device.counted_sess hfin
  case opening =>
    intro s m hup hsup hstage hslot d
    have hready : d.ready none := .inl ⟨rfl, hstage⟩
    exact ⟨fun k hfree => onSess_none_of_eq (Device.keyExchange_opens hup hsup hready hslot hfree),
      fun hall => onSess_none_of_eq (Device.keyExchange_refused hup hsup hready hslot hall)⟩
  case session =>
    intro s k m hk hup hsup hopen d x
    refine ⟨⟨fun hfin hproof => onSess_some_of_eq hk (Device.finish_completes hup hsup hopen hfin hproof),
      fun hfin hproof => onSess_some_of_eq hk (Device.finish_ends hup hsup hopen hfin hproof)⟩, fun hfin => ⟨?_, fun hproof => ?_, ?_⟩⟩
    · exact onSess_some_of_eq hk (Device.inSession_goes hup hsup hopen hfin)
    · exact onSess_some_of_eq hk ((Device.inSession_goes hup hsup hopen hfin).trans (if_pos hproof))
    · refine ⟨_, onSess_some_of_eq hk (Device.inSession_goes hup hsup hopen hfin), ?_, fun y hy => Device.mem_endSession_staging hy⟩
      exact congrArg Sess.isOpen (Device.endSession_sess d k)
  case missed =>
    intro s k hk hopen
    exact ⟨fun h => onUnit_of_eq hk (if_pos (by simp [hopen, h])),
      fun h => onUnit_of_eq hk (if_neg (by simp [Nat.not_le.2 h]))⟩
  case unsupported =>
    intro s m hup hsup
    simp only [List.forall_mem_cons, List.not_mem_nil, false_implies, implies_true, and_true]
    have hplain := fun {what stage go} => onSess_none_of_eq (s := s) (Device.spdm_unsupported (what := what) (stage := stage) (go := go) hup hsup)
    have hslot := fun {what go} => onSess_none_of_eq (s := s) (Device.onSlot_unsupported (what := what) (go := go) hup hsup)
    exact ⟨hplain, hplain, hplain, hplain, hslot, hslot, hslot, hslot, hplain⟩
  case mctp =>
    intro s eid cmd hup d
    have hsend : ∀ cmd completion data, Device.mctp cmd completion data d = d.emit (.mctp cmd completion data) := Device.mctp_up hup
    exact ⟨fun h0 hF => done_of_eq (Device.setEid_sets hup h0 hF), done_of_eq (hsend 2 0 _), done_of_eq (hsend 3 0 _),
      done_of_eq (hsend 4 0 _), done_of_eq (hsend 5 0 _), done_of_eq (hsend _ 5 _)⟩
  case i3c =>
    intro s a hup
    exact ⟨fun h => ⟨done_of_eq (Device.assignAddr_once hup h a), done_of_eq (Device.assignAddr_once hup h a)⟩,
      fun h => ⟨done_of_eq (Device.assignAddr_again h a), done_of_eq (Device.assignAddr_again h a)⟩⟩

end Sys2Proof.Machine
end

section
/-! PROOF. Dictionary requests: READ, NEXT, and the checks of a write that come before its value's own (spec 16: R488 to R493). -/

namespace Sys2Proof.Machine

namespace Device
variable {d : Device} {ses : Option Nat} {r : DzRequest} {o : DzObj}

/-! ### READ and NEXT (R491) -/

theorem mayRead (hmay : d.isOperator ses = true ∨ openIndex r.index.toNat = true) :
    (!d.isOperator ses && !openIndex r.index.toNat) = false := by rcases hmay with h | h <;> simp [h]

section
variable (hreach : d.reaches ses = true)
include hreach

section
variable (hop : d.isOperator ses = false) (hindex : openIndex r.index.toNat = false)
include hop hindex

theorem dzRead_barred : dzRead ses r d = d.respond r 1 r.index.toNat r.sub.toNat 0 ACCESS := by simp [dzRead, hreach, hop, hindex]
theorem dzNext_barred : dzNext ses r d = d.respond r 3 r.index.toNat r.sub.toNat 0 ACCESS := by simp [dzNext, hreach, hop, hindex]

end

variable (hmay : d.isOperator ses = true ∨ openIndex r.index.toNat = true)
include hmay

theorem dzRead_answers (hfind : d.dzFind r.index.toNat r.sub.toNat = some o) (hmore : r.more = false) (hlen : r.len ≤ 1024)
    (hfree : d.stagedElsewhere ses r.index.toNat r.sub.toNat = false) :
    let v := d.dzBytes ses o r.sub.toNat
    dzRead ses r d = d.respond r 1 r.index.toNat r.sub.toNat o.type 0 v.length ((v.drop r.offset).take r.len) := by
  simp [dzRead, hreach, mayRead hmay, hfind, hmore, hlen, hfree]

theorem dzRead_absent (hfind : d.dzFind r.index.toNat r.sub.toNat = none) :
    dzRead ses r d = d.respond r 1 r.index.toNat r.sub.toNat 0 NO_OBJECT := by
  simp [dzRead, hreach, mayRead hmay, hfind]

theorem dzNext_busy (hbusy : d.stagedElsewhere ses r.index.toNat r.sub.toNat = true) :
    dzNext ses r d = d.respond r 3 r.index.toNat r.sub.toNat 0 BUSY := by
  simp [dzNext, hreach, mayRead hmay, hbusy]

variable (hfree : d.stagedElsewhere ses r.index.toNat r.sub.toNat = false)
include hfree

theorem dzNext_here (hfind : d.dzFind r.index.toNat (r.sub.toNat + 1) = some o) :
    dzNext ses r d = d.respond r 3 o.index (r.sub.toNat + 1) o.type 0 (d.dzBytes ses o (r.sub.toNat + 1)).length := by
  simp [dzNext, hreach, mayRead hmay, hfree, hfind]

variable (hfind : d.dzFind r.index.toNat (r.sub.toNat + 1) = none)
include hfind

theorem dzNext_after
    (hafter : (dzObjects.find? fun x => decide (r.index.toNat < x.index) && decide (0 < d.dzCount x) && d.served x.index) = some o) :
    dzNext ses r d = d.respond r 3 o.index 0 o.type 0 (d.dzBytes ses o 0).length := by
  simp only [dzNext, hreach, mayRead hmay, hfree, hfind, hafter, Bool.not_true, Bool.false_eq_true, if_false, Option.orElse_none,
    Option.map_some]

theorem dzNext_last
    (hafter : (dzObjects.find? fun x => decide (r.index.toNat < x.index) && decide (0 < d.dzCount x) && d.served x.index) = none) :
    dzNext ses r d = d.respond r 3 r.index.toNat r.sub.toNat 0 NO_OBJECT := by
  simp only [dzNext, hreach, mayRead hmay, hfree, hfind, hafter, Bool.not_true, Bool.false_eq_true, if_false, Option.orElse_none,
    Option.map_none]

end

/-! ### The checks of a write (R492, R493) -/

/-- The object of an index, where the dictionary serves it. -/
theorem dzFind_eq {i s : Nat} (ho : dzObjects.find? (fun x => x.index == i) = some o) :
    d.dzFind i s = if s < d.dzCount o && d.served i then some o else none := by rw [dzFind, ho]

section
variable {go : Nat → DzObj → List Byte → Bool → Device}

/-- A write outside every session. -/
theorem dzChecked_outside (hup : d.pathUp = true) :
    d.dzChecked none r go = d.respond r 2 r.index.toNat r.sub.toNat 0 ACCESS := by simp [dzChecked, reaches, hup]

variable {k : Nat} (hreach : d.reaches (some k) = true)
include hreach

theorem dzChecked_absent (hfind : d.dzFind r.index.toNat r.sub.toNat = none) :
    d.dzChecked (some k) r go = d.respond r 2 r.index.toNat r.sub.toNat 0 NO_OBJECT := by simp [dzChecked, hreach, hfind]

variable (hfind : d.dzFind r.index.toNat r.sub.toNat = some o)
include hfind

theorem dzChecked_barred (hop : (d.sess k).operator = false) :
    d.dzChecked (some k) r go = d.respond r 2 r.index.toNat r.sub.toNat o.type ACCESS := by
  simp [dzChecked, hreach, hfind, isOperator, hop]

variable (hop : (d.sess k).operator = true) (hrw : o.access ≠ .ro)
include hop hrw

/-- A chunk that does not go on where the session's staging ends. -/
theorem dzChecked_gap (hoff : r.offset ≠ (d.stagedBy k r.index.toNat r.sub.toNat).length) : d.dzChecked (some k) r go =
    (d.unstage k r.index.toNat r.sub.toNat).respond r 2 r.index.toNat r.sub.toNat o.type BAD_FIELD := by
  simp [dzChecked, hreach, hfind, isOperator, hop, hrw, hoff]

/-- A chunk that others follow passes the checks. -/
theorem dzChecked_chunk (hoff : r.offset = (d.stagedBy k r.index.toNat r.sub.toNat).length) (hmore : r.more = true)
    (hlen : r.len = r.data.length) (hmax : r.len ≤ 1024) : d.dzChecked (some k) r go =
      go k o (d.stagedBy k r.index.toNat r.sub.toNat) (d.stagedElsewhere (some k) r.index.toNat r.sub.toNat) := by
  simp [dzChecked, hreach, hfind, isOperator, hop, hrw, hoff, hmore, hlen, hlen ▸ hmax]

end

variable {mine : Nat → Bool} {apply : Nat → Nat → Nat → List Byte → Device → Written}

theorem dzWrite_eq (hmine : mine r.index.toNat = true) (ses : Option Nat) (d : Device) : d.dzWrite mine apply ses r =
    d.dzChecked ses r fun k o own busy =>
      if r.more then
        if busy then d.respond r 2 r.index.toNat r.sub.toNat o.type BUSY
        else (d.stage k r.index.toNat r.sub.toNat (own ++ r.data)).respond r 2 r.index.toNat r.sub.toNat o.type 0
      else
        match apply k r.index.toNat r.sub.toNat (own ++ r.data) (d.unstage k r.index.toNat r.sub.toNat) with
        | .inr c => (d.unstage k r.index.toNat r.sub.toNat).respond r 2 r.index.toNat r.sub.toNat o.type
            (if busy && c != BAD_FIELD then BUSY else c)
        | .inl e => if busy then (d.unstage k r.index.toNat r.sub.toNat).respond r 2 r.index.toNat r.sub.toNat o.type BUSY
            else e.respond r 2 r.index.toNat r.sub.toNat o.type 0 := if_neg (by simp [hmine])

end Device

/-- Settles O50: the checks of each request in the order of R493; HANG_MS and OP_ROOT stand for the objects of a number and of bytes. -/
theorem dictionaryRequests : Obligations.DictionaryRequests := by
  unfold Obligations.DictionaryRequests
  refine ⟨?reads, ?number, ?chunks⟩
  case reads =>
    intro s ses r o hses hreach i n
    refine ⟨fun hmay => ⟨fun hfind hmore hlen hfree => onSess_of_eq hses (Device.dzRead_answers hreach hmay hfind hmore hlen hfree),
      fun hfind => onSess_of_eq hses (Device.dzRead_absent hreach hmay hfind),
      fun hbusy => onSess_of_eq hses (Device.dzNext_busy hreach hmay hbusy),
      fun hfree hfind => onSess_of_eq hses (Device.dzNext_here hreach hmay hfree hfind),
      fun hfree hfind hafter => onSess_of_eq hses (Device.dzNext_after hreach hmay hfree hfind hafter),
      fun hfree hfind hnone => onSess_of_eq hses (Device.dzNext_last hreach hmay hfree hfind ?_)⟩,
      fun hop hindex => ⟨onSess_of_eq hses (Device.dzRead_barred hreach hop hindex),
        onSess_of_eq hses (Device.dzNext_barred hreach hop hindex)⟩⟩
    rw [List.find?_eq_none]
    intro x hx hgoes
    have := List.all_eq_true.1 hnone x hx
    rw [hgoes] at this
    cases this
  case number =>
    intro s k r hk hup hi
    have hidx : r.index.toNat = 0x5000 := by rw [hi]; rfl
    have hmine : (!Device.ownRow r.index.toNat) = true := by rw [hidx]; rfl
    have hobj : dzObjects.find? (fun x => x.index == 0x5000) = some ⟨0x5000, 1, 4, .rw, 4⟩ := by decide
    have hfind : s.dev.dzFind r.index.toNat r.sub.toNat =
        if r.sub.toNat < 1 && s.dev.served 0x5000 then some ⟨0x5000, 1, 4, .rw, 4⟩ else none := by
      rw [hidx]
      exact Device.dzFind_eq hobj
    refine ⟨onSess_none_of_eq ?_, fun hreach hop hserved hsub => onSess_some_of_eq hk ?_, fun hreach hsub => onSess_some_of_eq hk ?_⟩
    · rw [Device.dzWrite_eq hmine, Device.dzChecked_outside hup, hidx]
    · rw [hsub, hserved] at hfind
      rw [Device.dzWrite_eq hmine, Device.dzChecked_barred hreach (by rw [hsub, hfind]; rfl) hop, hidx, hsub]
      rfl
    · have hnone : s.dev.dzFind r.index.toNat r.sub.toNat = none := by
        have hpos : ¬ r.sub.toNat < 1 := fun h => hsub (BitVec.eq_of_toNat_eq (Nat.lt_one_iff.1 h))
        simp [hfind, hpos]
      rw [Device.dzWrite_eq hmine, Device.dzChecked_absent hreach hnone, hidx]
  case chunks =>
    intro s k r hk hreach hop hi hsub hserved hmore hlen hmax own parses
    have hidx : r.index.toNat = 0x4001 := by rw [hi]; rfl
    have hzero : r.sub.toNat = 0 := by rw [hsub]; rfl
    have hmine : (r.index.toNat == 0x4001) = true := by rw [hidx]; rfl
    have hobj : dzObjects.find? (fun x => x.index == 0x4001) = some ⟨0x4001, 4, 8, .rw, 0⟩ := by decide
    have hfind : s.dev.dzFind r.index.toNat r.sub.toNat = some ⟨0x4001, 4, 8, .rw, 0⟩ := by
      rw [hidx, hzero, Device.dzFind_eq hobj, hserved]
      rfl
    refine ⟨fun hoff hfree => onSess_some_of_eq hk ?_, fun hoff => onSess_some_of_eq hk ?_⟩
    · rw [Device.dzWrite_eq hmine, Device.dzChecked_chunk hreach hfind hop (by decide) (by rw [hidx, hzero]; exact hoff) hmore hlen hmax,
        hidx, hzero, if_pos hmore, hfree]
      rfl
    · rw [Device.dzWrite_eq hmine, Device.dzChecked_gap hreach hfind hop (by decide) (by rw [hidx, hzero]; exact hoff), hidx, hzero]

end Sys2Proof.Machine
end

section
/-! PROOF. The firmware flash: line fetches, programs and erases, FORCED mode, and the spare pool (spec 17: R505 to R513). -/

namespace Sys2Proof.Machine

namespace Device
variable {d : Device}

/-! ### What a log entry and a worn block change -/

theorem logFlash_eq (d : Device) (c : Code) (x : W64) : ∃ l n, d.logFlash c x = d.modFlash fun f => { f with log := l, logLost := n } := by
  unfold logFlash
  dsimp only
  split
  · exact ⟨d.flash.log, _, rfl⟩
  · exact ⟨_, d.flash.logLost, rfl⟩

/-- A read that is counted changes the log, the count and the marks (R511). -/
theorem wear_eq (d : Device) (b : Nat) (c : LineCheck) :
    ∃ l n k m, d.wear b c = d.modFlash fun f => { f with log := l, logLost := n, ce := k, marked := m } := by
  unfold wear
  dsimp only
  split
  · exact ⟨d.flash.log, d.flash.logLost, d.flash.ce, d.flash.marked, rfl⟩
  · split
    · exact ⟨d.flash.log, d.flash.logLost, d.flash.ce + 1, d.flash.marked, rfl⟩
    · obtain ⟨l, n, hlog⟩ := logFlash_eq (d.modFlash fun f => { f with ce := f.ce + 1 }) 0x0905 (BitVec.ofNat 64 b)
      rw [hlog]
      exact ⟨l, n, _, _, rfl⟩

theorem verifyFailed_eq (d : Device) (b : Nat) : ∃ l n, d.verifyFailed b =
    d.modFlash fun f => { f with log := l, logLost := n, verifyCnt := satNat 16 (f.verifyCnt + 1) } := by
  obtain ⟨l, n, hlog⟩ := logFlash_eq d 0x0902 (BitVec.ofNat 64 b)
  exact ⟨l, n, by rw [verifyFailed, hlog]; rfl⟩

/-- A block that failed is retired for a spare one. -/
theorem retire_takes (b : Nat) (h : 0 < d.flash.spares) :
    d.retire b = (d.modFlash fun f => { f with retired := f.retired ++ [physBlock f b] }).takeSpare b := if_neg (Nat.pos_iff_ne_zero.1 h)

/-! ### The read path (R505, R506, R510) -/

/-- The erase that a fetch suspends. -/
def fetchSuspends (d : Device) : Device := if d.flash.erase ≠ .idle ∧ d.flash.susp = false then d.modFlash countSuspend else d

/-- The line that a fetch leaves in the buffer, or the stop of execution. -/
def fetched (d : Device) (line : Nat) (bad : Bool) : Device :=
  if bad then (d.logFlash 0x0904 (BitVec.ofNat 64 line)).modFlash fun f => { f with stopped := true }
  else d.modFlash fun f => { f with
    line := some line
    branches := if f.line.map (· + 1) = some line then f.branches else (line :: f.branches.filter (· != line)).take 32 }

/-- What the fetches of a line leave of the flash but its log, its counts and its marks. -/
def fetchView (f : Flash) : Option Nat × List Nat × Bool × Nat × Bool := (f.line, f.branches, f.stopped, f.suspCnt, f.forced)

theorem wear_fetchView (d : Device) (b : Nat) (c : LineCheck) : fetchView (d.wear b c).flash = fetchView d.flash := by
  obtain ⟨l, n, k, m, h⟩ := wear_eq d b c
  rw [h]
  rfl

theorem fetchSuspends_line (d : Device) : d.fetchSuspends.flash.line = d.flash.line ∧
    d.fetchSuspends.flash.branches = d.flash.branches ∧ d.fetchSuspends.flash.stopped = d.flash.stopped := by
  unfold fetchSuspends
  split <;> exact ⟨rfl, rfl, rfl⟩

theorem fetched_bad (d : Device) (line : Nat) : fetchView (d.fetched line true).flash =
    (d.flash.line, d.flash.branches, true, d.flash.suspCnt, d.flash.forced) := by
  obtain ⟨l, n, h⟩ := logFlash_eq d 0x0904 (BitVec.ofNat 64 line)
  rw [fetched, if_pos rfl, h]
  rfl

theorem fetched_keeps (d : Device) (line : Nat) (bad : Bool) :
    (d.fetched line bad).flash.suspCnt = d.flash.suspCnt ∧ (d.fetched line bad).flash.forced = d.flash.forced := by
  cases bad with
  | false => exact ⟨rfl, rfl⟩
  | true =>
    have h := fetched_bad d line
    simp only [fetchView, Prod.mk.injEq] at h
    obtain ⟨-, -, -, hcnt, hforced⟩ := h
    exact ⟨hcnt, hforced⟩

/-- A fetch suspends an erase, counts bad reads, and brings its line or stops execution. -/
theorem readLine_fetches {line : Nat} {first second : LineCheck} (hup : d.flashUp = true) (hruns : d.flash.stopped = false)
    (hforced : d.flash.forced = false) (hline : d.flash.line ≠ some line) :
    ∃ e : Device, fetchView e.flash = fetchView d.fetchSuspends.flash ∧
      readLine line first second d = e.fetched line (lineBad first && lineBad second) := by
  have hgoes : (!d.flashUp || d.flash.stopped || d.flash.forced || d.flash.line == some line) = false := by
    simp [hup, hruns, hforced, hline]
  unfold readLine
  rw [if_neg (ne_true_of_eq_false hgoes)]
  refine ⟨if lineBad first then (d.fetchSuspends.wear (line / 256) first).wear (line / 256) second
    else d.fetchSuspends.wear (line / 256) first, ?_, rfl⟩
  split
  · rw [wear_fetchView, wear_fetchView]
  · rw [wear_fetchView]

/-! ### Programs and erases (R507 to R510) -/

/-- The flash with a program under way. -/
def programming (d : Device) (u : Nat) (x : List Byte) (retried : Bool) : Device :=
  d.modFlash fun f => { f with
    erased := Table.set f.erased 0 (physBlock f (u / 1024))
      (Table.get f.erased 0 (physBlock f (u / 1024)) &&& ~~~ unitMask (u % 1024) (x.length / 64))
    units := (List.range (x.length / 64)).foldl (fun t k =>
      Table.put t (physBlock f (u / 1024) * 1024 + u % 1024 + k) ((x.drop (64 * k)).take 64)) f.units
    prog := .program u x retried }

section
variable {u : Nat} {x : List Byte}

/-- A program over a clear bit is refused (R508). -/
theorem sendProgram_refused (h : Table.get d.flash.erased 0 (physBlock d.flash (u / 1024)) &&& unitMask (u % 1024) (x.length / 64) ≠
    unitMask (u % 1024) (x.length / 64)) :
    d.sendProgram u x false = d.modFlash fun f => { f with neCnt := satNat 16 (f.neCnt + 1) } :=
  if_pos (Bool.or_eq_true_iff.2 (.inr (bne_iff_ne.2 h)))

/-- A program that goes suspends an erase. -/
theorem sendProgram_passes {again : Bool} (h : (!again && (underErase d.flash (u / 1024) ||
      Table.get d.flash.erased 0 (physBlock d.flash (u / 1024)) &&& unitMask (u % 1024) (x.length / 64) !=
        unitMask (u % 1024) (x.length / 64))) = false) :
    d.sendProgram u x again =
      (if d.flash.erase ≠ .idle ∧ d.flash.susp = false then (d.programming u x again).modFlash fun f => { countSuspend f with susp := true }
        else d.programming u x again).emit (.flashProgram u x) := if_neg (ne_true_of_eq_false h)

theorem sendProgram_sends (hidle : d.flash.erase = .idle)
    (h : Table.get d.flash.erased 0 (physBlock d.flash (u / 1024)) &&& unitMask (u % 1024) (x.length / 64) =
      unitMask (u % 1024) (x.length / 64)) :
    d.sendProgram u x false = (d.programming u x false).emit (.flashProgram u x) := by
  have hgoes := Bool.or_eq_false_iff.2 ⟨show underErase d.flash (u / 1024) = false by rw [underErase, hidle], bne_eq_false_iff_eq.2 h⟩
  rw [sendProgram_passes (again := false) hgoes, if_neg (fun hs => hs.1 hidle)]

/-- A program that is retried goes past the checks. -/
theorem sendProgram_retries (d : Device) (u : Nat) (x : List Byte) : ∃ c s b,
    d.sendProgram u x true =
      ((d.programming u x true).modFlash fun f => { f with suspCnt := c, susp := s, forced := b }).emit (.flashProgram u x) := by
  rw [sendProgram_passes rfl]
  split
  · exact ⟨_, true, _, rfl⟩
  · exact ⟨d.flash.suspCnt, d.flash.susp, d.flash.forced, rfl⟩

theorem flashProgram_waits (hup : d.flashUp = true) (hfits : programs u x = true)
    (h : d.flash.prog ≠ .idle ∨ d.flash.forced = true ∨ d.flash.progQueue ≠ []) :
    flashProgram u x d = d.modFlash fun f => { f with progQueue := f.progQueue ++ [(u, x)] } := by
  unfold flashProgram
  rw [if_neg (by simp [hup, hfits]), if_pos (by simpa using h)]

theorem flashProgram_goes (hup : d.flashUp = true) (hfits : programs u x = true) (hidle : d.flash.prog = .idle)
    (hforced : d.flash.forced = false) (hqueue : d.flash.progQueue = []) : flashProgram u x d = d.sendProgram u x false := by
  unfold flashProgram
  rw [if_neg (by simp [hup, hfits]), if_neg (by simp [hidle, hforced, hqueue])]

/-- Nothing waits for the flash. -/
theorem flashNext_of_empty (hprog : d.flash.progQueue = []) (herase : d.flash.eraseQueue = []) : d.flashNext = d := by
  unfold flashNext
  rw [hprog]
  show (match d.flash.eraseQueue with
    | b :: r =>
      if d.flash.prog = .idle ∧ d.flash.erase = .idle then (d.modFlash fun f => { f with eraseQueue := r }).sendErase b false else d
    | [] => d) = d
  rw [herase]

theorem programEnds_ok {again : Bool} (hprog : d.flash.prog = .program u x again) (hqueue : d.flash.progQueue = [])
    (herases : d.flash.eraseQueue = []) :
    programEnds true d = d.modFlash fun f => { f with prog := .idle, susp := false } := by
  rw [programEnds, hprog]
  exact flashNext_of_empty (d := d.modFlash fun f => { f with prog := .idle, susp := false }) hqueue herases

/-- After a failure the program is tried once more, on a spare block (R511). -/
theorem programEnds_retries (hprog : d.flash.prog = .program u x false) (hspare : 0 < d.flash.spares) :
    programEnds false d = (((d.modFlash fun f => { f with prog := .idle }).verifyFailed (u / 1024)).retire (u / 1024)).sendProgram u x true := by
  rw [programEnds, hprog]
  exact if_pos (decide_eq_true hspare)

end

section
variable {b : Nat}

/-- The flash with an erase under way. -/
def erasing (d : Device) (b : Nat) (retried : Bool) : Device :=
  let p := physBlock d.flash b
  d.modFlash fun f => { f with
    erased := Table.set f.erased 0 p 0, units := Table.keep f.units fun u _ => u / 1024 != p
    erases := Table.set f.erases 0 p (Table.get f.erases 0 p + 1), erase := .erase b d.now retried
    marked := f.marked.filter (· != b), susp := false, suspCnt := 0, forced := false }

/-- The bits of the block are clear while it is erased, and the erase is counted (R507, R511). -/
theorem erasing_counts (d : Device) (b : Nat) (retried : Bool) (o : Out) :
    Table.get ((d.erasing b retried).emit o).flash.erased 0 (physBlock d.flash b) = 0 ∧
      Table.get ((d.erasing b retried).emit o).flash.erases 0 (physBlock d.flash b) =
        Table.get d.flash.erases 0 (physBlock d.flash b) + 1 := by
  dsimp only [erasing, modFlash, emit]
  exact ⟨Table.get_set_same .., Table.get_set_same ..⟩

theorem erasing_keeps (d : Device) (b : Nat) (retried : Bool) (o : Out) :
    ((d.erasing b retried).emit o).flash.erase = .erase b d.now retried ∧
      ((d.erasing b retried).emit o).flash.retired = d.flash.retired ∧ ((d.erasing b retried).emit o).out = d.out ++ [o] := by
  simp only [erasing, modFlash, emit, and_self]

theorem sendErase_sends (retried : Bool) (h : Table.get d.flash.erases 0 (physBlock d.flash b) < d.cal.endurance) :
    d.sendErase b retried = (d.erasing b retried).emit (.flashErase b) := by
  unfold sendErase
  rw [if_neg (Nat.not_le.2 h)]
  exact if_neg (Nat.not_le.2 h)

/-- The flash with an erase that has ended: the block's units are blank, `m` for all of them. -/
def erasedAll (d : Device) (b : Nat) (m : BitVec 1024) : Device :=
  d.modFlash fun f => { f with erased := Table.set f.erased 0 (physBlock f b) m }

/-- The flash when its erase is over, well or not. -/
def eraseOver (d : Device) : Device := d.modFlash fun f => { f with erase := .idle, suspCnt := 0, forced := false }

theorem eraseOver_erasedAll (d : Device) (b : Nat) (m : BitVec 1024) :
    Table.get (d.eraseOver.erasedAll b m).flash.erased 0 (physBlock d.flash b) = m := by
  have hbits : (d.eraseOver.erasedAll b m).flash.erased = Table.set d.flash.erased 0 (physBlock d.flash b) m := rfl
  rw [hbits, Table.get_set_same]

theorem eraseEnds_ok {t0 : Nat} {again : Bool} (herase : d.flash.erase = .erase b t0 again) (hsusp : d.flash.susp = false)
    (hprogs : d.flash.progQueue = []) (hqueue : d.flash.eraseQueue = []) :
    eraseEnds true d = d.eraseOver.erasedAll b (BitVec.allOnes 1024) := by
  rw [eraseEnds]
  generalize BitVec.allOnes 1024 = m
  rw [herase]
  dsimp only
  rw [if_neg (ne_true_of_eq_false hsusp), if_pos rfl]
  exact flashNext_of_empty (d := d.eraseOver.erasedAll b m) hprogs hqueue

/-- After a failure the erase is tried once more, on a spare block (R511). -/
theorem eraseEnds_retries {t0 : Nat} (herase : d.flash.erase = .erase b t0 false) (hsusp : d.flash.susp = false)
    (hspare : 0 < d.flash.spares) : eraseEnds false d =
      ((d.eraseOver.verifyFailed b).retire b).sendErase b true := by
  rw [eraseEnds]
  generalize BitVec.allOnes 1024 = m
  rw [herase]
  dsimp only
  rw [if_neg (ne_true_of_eq_false hsusp), if_neg Bool.false_ne_true]
  exact if_pos (decide_eq_true hspare)

/-- A spare block never used serves `b`. -/
theorem takeSpare_physBlock (d : Device) (b : Nat) : physBlock (d.takeSpare b).flash b = 656 + (368 - d.flash.spares) := by
  show Table.get (Table.set d.flash.map b b _) b b = _
  exact Table.get_set_same ..

theorem takeSpare_keeps (d : Device) (b : Nat) : (d.takeSpare b).flash.erases = d.flash.erases ∧
    (d.takeSpare b).flash.retired = d.flash.retired ∧ (d.takeSpare b).cal = d.cal ∧ (d.takeSpare b).now = d.now := by
  simp only [takeSpare, modFlash, now, and_self]

/-- What a failure of block `b` leaves: it is retired, and nothing else has been erased. -/
theorem verifyFailed_retire (b : Nat) (h : 0 < d.flash.spares) :
    ((d.verifyFailed b).retire b).flash.erases = d.flash.erases ∧
      ((d.verifyFailed b).retire b).flash.retired = d.flash.retired ++ [physBlock d.flash b] ∧
      ((d.verifyFailed b).retire b).cal = d.cal ∧ ((d.verifyFailed b).retire b).now = d.now := by
  obtain ⟨l, n, hlog⟩ := verifyFailed_eq d b
  rw [hlog, retire_takes (d := d.modFlash fun f => { f with log := l, logLost := n, verifyCnt := satNat 16 (f.verifyCnt + 1) }) _ h]
  exact takeSpare_keeps ..

theorem relocate_worn (hup : d.flashUp = true) (hmark : d.flash.marked.contains b = true) (herase : underErase d.flash b = false)
    (hspare : d.flash.spares = 0) (ok : Bool) : relocate b ok d = d.modFlash fun f => { f with worn := true } := by
  rw [relocate, if_neg (by simp only [hup, hmark, herase]; decide), if_pos hspare]

theorem relocate_moves (hup : d.flashUp = true) (hmark : d.flash.marked.contains b = true) (herase : underErase d.flash b = false)
    (hspare : 0 < d.flash.spares) :
    relocate b true d = (d.modFlash fun f => { f with marked := f.marked.filter (· != b) }).takeSpare b := by
  rw [relocate, if_neg (by simp only [hup, hmark, herase]; decide), if_neg (Nat.pos_iff_ne_zero.1 hspare), if_pos rfl]

end
end Device

/-- Settles O53, command by command. That branch targets are whole lines, newest first, is log entry 183, and that what waits for the
flash waits in queues is log entry 182: the model's choices. -/
theorem flashResults : Obligations.FlashResults := by
  unfold Obligations.FlashResults
  refine ⟨?fetch, ?program, ?programEnds, ?erase, ?eraseEnds, ?relocate, ?log⟩
  case fetch =>
    intro s l a b hl hup hruns hforced hline
    obtain ⟨e, hview, hread⟩ := Device.readLine_fetches (first := a) (second := b) hup hruns hforced hline
    simp only [Device.fetchView, Prod.mk.injEq] at hview
    obtain ⟨hln, hbr, hstop, hcnt, hfrc⟩ := hview
    obtain ⟨hln', hbr', hstop'⟩ := Device.fetchSuspends_line s.dev
    rw [hln'] at hln
    rw [hbr'] at hbr
    rw [hstop', hruns] at hstop
    refine ⟨fun ha => ?_, fun ha hb => ?_, fun herase hsusp => ?_⟩
    · rw [ha] at hread
      refine ⟨_, onUnit_of_eq hl hread, rfl, hstop, fun h => ?_, fun h => ?_⟩
      · exact (if_pos (by rw [hln]; exact h)).trans hbr
      · exact (if_neg (by rw [hln]; exact h)).trans (by rw [hbr])
    · rw [ha, hb] at hread
      have hbad := Device.fetched_bad e l
      simp only [Device.fetchView, Prod.mk.injEq] at hbad
      obtain ⟨hbline, -, hbstop, -⟩ := hbad
      exact ⟨_, onUnit_of_eq hl hread, hbstop, hbline.trans hln⟩
    · have hsusps : s.dev.fetchSuspends = s.dev.modFlash Device.countSuspend := if_pos ⟨herase, hsusp⟩
      obtain ⟨hkcnt, hkforced⟩ := Device.fetched_keeps e l (Device.lineBad a && Device.lineBad b)
      rw [hsusps] at hcnt hfrc
      refine ⟨_, onUnit_of_eq hl hread, hkcnt.trans hcnt, fun h => hkforced.trans (hfrc.trans ?_)⟩
      exact Bool.or_eq_true_iff.2 (.inr (decide_eq_true (Nat.succ_le_succ h)))
  case program =>
    intro s u x hu hup hfits f m map
    refine ⟨fun h => onUnit_of_eq hu (Device.flashProgram_waits hup hfits h), fun hidle hforced hqueue => ?_⟩
    have hgoes := Device.flashProgram_goes hup hfits hidle hforced hqueue
    refine ⟨fun h => onUnit_of_eq hu (hgoes.trans (Device.sendProgram_refused h)), fun h herase => ?_⟩
    exact ⟨_, onUnit_of_eq hu (hgoes.trans (Device.sendProgram_sends herase h)), rfl, Table.get_set_same .., rfl⟩
  case programEnds =>
    intro s u x again hprog
    refine ⟨fun hqueue herases => done_of_eq (Device.programEnds_ok hprog hqueue herases), fun hagain hspare => ?_⟩
    subst hagain
    have hends := Device.programEnds_retries hprog hspare
    obtain ⟨l, n, hlog⟩ := Device.verifyFailed_eq (s.dev.modFlash fun f => { f with prog := .idle }) (u / 1024)
    rw [hlog, Device.retire_takes (d := (s.dev.modFlash fun f => { f with prog := .idle }).modFlash fun f => { f with
      log := l, logLost := n, verifyCnt := satNat 16 (f.verifyCnt + 1) }) _ hspare] at hends
    obtain ⟨c, p, q, hsend⟩ := Device.sendProgram_retries ((((s.dev.modFlash fun f => { f with prog := .idle }).modFlash fun f => { f with
      log := l, logLost := n, verifyCnt := satNat 16 (f.verifyCnt + 1) }).modFlash fun f => { f with
        retired := f.retired ++ [physBlock f (u / 1024)] }).takeSpare (u / 1024)) u x
    refine ⟨_, done_of_eq (hends.trans hsend), rfl, rfl, rfl, ?_⟩
    exact List.mem_append_right s.dev.flash.retired (List.mem_singleton_self _)
  case erase =>
    intro s b hb hup
    refine ⟨fun h => onUnit_of_eq hb ?_, fun hprog herase hend => ?_⟩
    · rw [Device.flashErase, if_neg (by simp [hup]), if_pos h, Device.modFlash]
    · intro p
      have hgoes : Device.flashErase b s.dev = s.dev.sendErase b false := by
        rw [Device.flashErase, if_neg (by simp [hup]), if_neg (by simp [hprog, herase])]
      obtain ⟨hbits, hcount⟩ := Device.erasing_counts s.dev b false (.flashErase b)
      obtain ⟨herases, -, hout⟩ := Device.erasing_keeps s.dev b false (.flashErase b)
      exact ⟨_, onUnit_of_eq hb (hgoes.trans (Device.sendErase_sends false hend)), herases, hbits, hcount, hout⟩
  case eraseEnds =>
    intro s b t0 again herase
    refine ⟨fun hsusp hprogs hqueue => ⟨_, done_of_eq (Device.eraseEnds_ok herase hsusp hprogs hqueue), rfl, rfl,
      Device.eraseOver_erasedAll ..⟩, fun hsusp hagain hspare hend hnever => ?_, fun hlate => done_of_eq ?_⟩
    · subst hagain
      obtain ⟨herases, hretired, hcal, hnow⟩ := Device.verifyFailed_retire (d := s.dev.eraseOver) b hspare
      have hfresh : ∀ p, Table.get ((s.dev.eraseOver.verifyFailed b).retire b).flash.erases 0 p <
          ((s.dev.eraseOver.verifyFailed b).retire b).cal.endurance := by
        intro p
        rw [herases, hcal]
        show Table.get s.dev.flash.erases 0 p < s.dev.cal.endurance
        rw [hnever]
        exact hend
      obtain ⟨hunder, hkept, -⟩ := Device.erasing_keeps ((s.dev.eraseOver.verifyFailed b).retire b) b true (.flashErase b)
      refine ⟨_, done_of_eq ((Device.eraseEnds_retries herase hsusp hspare).trans (Device.sendErase_sends true (hfresh _))),
        hunder.trans (by rw [hnow]; rfl), ?_⟩
      exact (hkept.trans hretired) ▸ List.mem_append_right s.dev.flash.retired (List.mem_singleton_self _)
    · rw [Device.forcedTimer, herase]
      exact if_pos hlate
  case relocate =>
    intro s b hb hup hmark herase
    refine ⟨fun hspare => onUnit_of_eq hb (Device.relocate_worn hup hmark herase hspare true), fun hspare => ?_⟩
    refine ⟨_, onUnit_of_eq hb (Device.relocate_moves hup hmark herase hspare), rfl, ?_, Device.takeSpare_physBlock ..⟩
    show b ∉ s.dev.flash.marked.filter (· != b)
    simp
  case log =>
    intro s code x hup hworn hroom
    refine done_of_eq ?_
    rw [Device.logEntry, if_pos hup, Device.logFlash]
    dsimp only
    rw [if_neg (ne_true_of_eq_false hworn), if_neg (Nat.not_le.2 hroom)]

end Sys2Proof.Machine
end

section
/-! PROOF. PHASE and the POWER_PHASE alarm (spec 13: R417 to R419). -/

namespace Sys2Proof.Machine

namespace Device

/-! ### What a decision, a lesson and an announcement change -/

/-- A decision changes the power controller's state alone, and no default phase. -/
theorem decideStep_eq (d : Device) :
    d.decideStep = { d with power := d.decideStep.power } ∧ d.decideStep.power.defaults = d.power.defaults := by
  have hlower : ∀ (d : Device) (s l : Nat), d.lowerTo s l = { d with power := (d.lowerTo s l).power } ∧
      (d.lowerTo s l).power.defaults = d.power.defaults := fun _ _ _ => ⟨rfl, rfl⟩
  have hraise : ∀ (d : Device) (s : Nat), d.askRaise s = { d with power := (d.askRaise s).power } ∧
      (d.askRaise s).power.defaults = d.power.defaults := by
    intro d s
    unfold askRaise
    split <;> exact ⟨rfl, rfl⟩
  unfold decideStep
  dsimp only
  split
  case isTrue => exact ⟨rfl, rfl⟩
  case isFalse =>
    split
    case isTrue =>
      split
      case isTrue => exact hlower ..
      case isFalse =>
        split
        case isTrue => exact hraise ..
        case isFalse => exact ⟨rfl, rfl⟩
    case isFalse =>
      split
      case isTrue => exact ⟨rfl, rfl⟩
      case isFalse =>
        split
        case isFalse => exact ⟨rfl, rfl⟩
        case isTrue =>
          split
          case h_2 => exact ⟨rfl, rfl⟩
          case h_1 =>
            split
            case isFalse => exact ⟨rfl, rfl⟩
            case isTrue =>
              obtain ⟨heq, hdef⟩ := hraise d (min ‹Nat› (d.bestStep d.ceiling 5))
              rw [heq]
              exact ⟨rfl, hdef⟩

@[simp] theorem decideStep_cores (d : Device) : d.decideStep.cores = d.cores := by rw [(decideStep_eq d).1]

theorem announce_eq (d : Device) (p tag : Nat) : d.announce p tag = { d with power := (d.announce p tag).power } := by
  unfold announce
  split <;> rfl

@[simp] theorem announce_cores (d : Device) (p tag : Nat) : (d.announce p tag).cores = d.cores := by rw [announce_eq]
@[simp] theorem announce_tally (d : Device) (p tag : Nat) : (d.announce p tag).tally = d.tally := by rw [announce_eq]

/-! ### A phase begins (R417) -/

/-- The core is in its phase, and nothing is announced. -/
theorem beginPhase_core (d : Device) (c tag : Nat) :
    ((beginPhase d c tag).core c).phase = tag ∧ ((beginPhase d c tag).core c).announced = none := by
  have hcores : (beginPhase d c tag).cores = ((d.learn c).modCore c fun k => { k with phase := tag, announced := none }).cores := by
    unfold beginPhase
    dsimp only
    rw [decideStep_cores]
    split
    · split <;> rfl
    · rfl
  rw [core_congr hcores]
  simp

theorem forgetAnnounced_none {d : Device} {c : Nat} (h : (d.core c).announced = none) : d.forgetAnnounced c = d := by
  rw [forgetAnnounced, h]

theorem freeSlot_congr {d e : Device} (h : e.tally = d.tally) (p : Nat) : e.freeSlot p = d.freeSlot p := by
  simp only [freeSlot, alarm, h]

theorem alarm_congr {d e : Device} (h : e.tally = d.tally) (n : Nat) : e.alarm n = d.alarm n := by rw [alarm, h, alarm]

@[simp] theorem retired_tally (d : Device) (c : Nat) (sl : Slot) : (d.retired c sl).tally = d.tally := rfl
@[simp] theorem prepare_core (d : Device) (c k : Nat) : (prepare d c).core k = d.core k := rfl

/-- PHASE with LEAD 0 (R417). -/
theorem phaseBody_now {d : Device} {c : Nat} {x : QInstr} (hlead : bits x.word 59 44 = 0) :
    ∃ e : Device, phaseBody c x d = .ok (beginPhase e c (bits x.word 43 32)) := ⟨_, if_pos hlead⟩

/-- A phase announced for the instant `cmp` in alarm slot `n` of Paddock `p`. -/
def announcing (d : Device) (c p n tag cmp : Nat) : Device :=
  prepare (((d.announce p tag).armSlot n p 3 tag cmp).modCore c fun k => { k with announced := some (tag, n) }) c

section
variable (d : Device) (c p n tag cmp : Nat)

theorem announcing_core : ((d.announcing c p n tag cmp).core c).announced = some (tag, n) ∧
    ((d.announcing c p n tag cmp).core c).phase = (d.core c).phase := by
  have hcore : ((d.announce p tag).armSlot n p 3 tag cmp).core c = d.core c := core_congr (announce_cores ..) c
  simp [announcing, hcore]

theorem announcing_alarm : (d.announcing c p n tag cmp).alarm n = ((d.announce p tag).armSlot n p 3 tag cmp).alarm n := rfl

end

/-- PHASE with a lead announces the phase in a free alarm slot of the Paddock (R417). -/
theorem phaseBody_later {d : Device} {c n : Nat} {x : QInstr} (hnone : (d.core c).announced = none) (hlead : bits x.word 59 44 ≠ 0)
    (hfree : d.freeSlot ((d.pdkOfCore c).getD 0) = some n) : phaseBody c x d =
      .ok (d.announcing c ((d.pdkOfCore c).getD 0) n (bits x.word 43 32) (d.now + bits x.word 59 44 * 1000)) := by
  have hnow : (d.announce ((d.pdkOfCore c).getD 0) (bits x.word 43 32)).now = d.now := by simp [now]
  unfold phaseBody
  dsimp only
  rw [forgetAnnounced_none hnone, if_neg hlead, arm, freeSlot_congr (announce_tally ..), hfree, hnow]
  rfl

/-! ### The POWER_PHASE alarm (R417, R418) -/

theorem fired_cores (d : Device) (n : Nat) : (d.fired n).cores = d.cores := fired_part (fun _ _ _ => rfl) d n

theorem announcer_congr {d e : Device} (h : e.cores = d.cores) (slot : Nat) : e.announcer slot = d.announcer slot := by
  simp only [announcer, core_congr h]

section
variable {d : Device} {slot : Nat} (hfires : d.fires slot 3 = true)
include hfires

theorem phaseAlarm_announced {c tag : Nat} (hwho : d.announcer slot = some (c, tag)) :
    phaseAlarm slot d = beginPhase (d.fired slot) c tag := by
  rw [phaseAlarm, if_neg (by simp [hfires])]
  dsimp only
  rw [announcer_congr (fired_cores ..), hwho]

/-- An alarm that no core announced sets the default phase of its Paddock. -/
theorem phaseAlarm_default (hnobody : d.announcer slot = none) : ∃ e : Device, phaseAlarm slot d =
    (e.modPower fun w => { w with defaults := Table.set w.defaults 0 (d.alarm slot).owner (d.alarm slot).target }).decideStep := by
  rw [phaseAlarm, if_neg (by simp [hfires])]
  dsimp only
  rw [announcer_congr (fired_cores ..), hnobody]
  exact ⟨_, rfl⟩

end
end Device

/-- Settles O21: a phase that begins is the last write of the core's phase, and an alarm keeps what PHASE armed it with. -/
theorem phaseResults : Obligations.PhaseResults := by
  unfold Obligations.PhaseResults
  refine ⟨?phase, ?alarm⟩
  case phase =>
    intro s c x hmay hnone tag lead p
    refine ⟨fun hlead => ?_, fun n hlead hfree => ?_⟩
    · obtain ⟨e, he⟩ := Device.phaseBody_now (d := s.dev) (c := c) hlead
      obtain ⟨hphase, hann⟩ := Device.beginPhase_core e c tag
      refine ⟨_, exec_c_completed hmay he, ?_⟩
      simpa [Device.retired] using ⟨hphase, hann⟩
    · generalize hcmp : s.dev.now + lead * 1000 = cmp
      have hbody := Device.phaseBody_later hnone hlead hfree
      rw [show s.dev.now + bits x.word 59 44 * 1000 = cmp from hcmp] at hbody
      obtain ⟨harmed, hkind, -, hat⟩ := Device.armSlot_alarm (s.dev.announce p tag) n p 3 tag cmp 0 0 0
      obtain ⟨hann, hphase⟩ := Device.announcing_core s.dev c p n tag cmp
      refine ⟨_, exec_c_completed hmay hbody, ?_⟩
      rw [Device.alarm_congr (Device.retired_tally ..), Device.announcing_alarm]
      refine ⟨?_, ?_, harmed, hkind, hat⟩
      · simpa [Device.retired] using hann
      · simpa [Device.retired] using hphase
  case alarm =>
    intro s slot hslot hfires
    have hgoes : ∀ {e : Device}, Device.phaseAlarm slot s.dev = e → exec (.powerPhase slot) s = s.goes e := onUnit_of_eq hslot
    refine ⟨fun c tag hwho => ?_, fun hnobody => ?_⟩
    · refine ⟨_, hgoes (Device.phaseAlarm_announced hfires hwho), Device.beginPhase_core ..⟩
    · obtain ⟨e, he⟩ := Device.phaseAlarm_default hfires hnobody
      refine ⟨_, hgoes he, ?_⟩
      rw [(Device.decideStep_eq _).2]
      exact Table.get_set_same ..

end Sys2Proof.Machine
end

section
/-! PROOF. Power, supply and temperature: intervals, decisions, raises, supply warnings, trips (spec 13: R409 to R429, R433). -/

namespace Sys2Proof.Machine

namespace Device
variable {d : Device}

/-! ### An interval (R411 to R414) -/

theorem clearWork_power (d : Device) : d.clearWork.power = d.power := by
  unfold clearWork
  refine foldl_part (φ := Device.power) (fun _ _ => ?_) _ _
  rfl

theorem opened_eq (d : Device) (used : Table Int) : d.opened used = { d.clearWork with power := (d.opened used).power } := rfl

theorem opened_keeps (d : Device) (used : Table Int) : (d.opened used).power.est = d.power.est ∧
    (d.opened used).power.energy = d.power.energy ∧ (d.opened used).power.energyRem = d.power.energyRem := by
  simp only [opened, modPower, clearWork_power, and_self]

/-- Opening the next interval after measuring the last one changes the power controller and the cores alone. -/
theorem opened_modPower_eq (d : Device) (f : Power → Power) (used : Table Int) :
    (d.modPower f).opened used = { d.clearWork with power := ((d.modPower f).opened used).power } := by
  have h := opened_eq (d.modPower f) used
  rw [clearWork_modPower] at h
  generalize (d.modPower f).opened used = e at h ⊢
  generalize d.clearWork = y at h ⊢
  exact h

/-- R414: the next budget is added to what the interval left of the balance. -/
theorem intervalEnds_spec {a : Activity} (hr : d.boot.released = true) (hs : 5 ≤ d.boot.stage) :
    ∃ e : Device, intervalEnds a d = e ∧ e = { d.clearWork with power := e.power } ∧ e.power.est = d.intervalEnergy a / 2000 ∧
      1000000 * e.power.energy + e.power.energyRem = 1000000 * d.power.energy + d.power.energyRem + d.intervalEnergy a ∧
      e.power.energyRem < 1000000 ∧
      ∀ c ∈ d.presentCores, Table.get e.power.budgets 0 c = e.budgetOf c / 2000 ∧ Table.get e.power.balances 0 c =
        (e.budgetOf c : Int) + min 0 (Table.get d.power.balances 0 c - (d.spentOf c : Int)) := by
  obtain ⟨f, hf, hest, henergy, hrem⟩ := intervalEnds_eq (a := a) hr hs
  obtain ⟨hest', henergy', hrem'⟩ := opened_keeps (d.modPower f) (drawn d.presentCores d.spentOf d.power.balances)
  refine ⟨_, hf, opened_modPower_eq .., hest'.trans hest, ?_, ?_, fun c hc => ⟨?_, ?_⟩⟩
  · rw [henergy', hrem']
    simp only [modPower, henergy, hrem]
    omega
  · rw [hrem']
    simp only [modPower, hrem]
    omega
  · rw [budgetOf_opened]
    exact opened_budget (d.modPower f) _ hc
  · rw [budgetOf_opened, ← get_drawn d hc d.spentOf d.power.balances]
    exact opened_balance (d.modPower f) _ hc

/-! ### Decisions (R409, R415) -/

section
variable (hcool : d.power.therm ≠ 2) (hsup : d.power.supply = .normal)
include hcool hsup

theorem decides : ¬ (d.power.therm = 2 ∨ d.power.supply ≠ .normal) := not_or.2 ⟨hcool, not_not.2 hsup⟩

/-- In fixed mode the step falls to FIXED at once. -/
theorem decideStep_fixed (hmode : pcMode d.power.ctl = 1) (hlow : d.fixedStep < d.power.cur) :
    d.decideStep = d.lowerTo d.fixedStep (d.limitOf d.fixedStep) := by
  unfold decideStep
  dsimp only
  rw [if_neg (decides hcool hsup), if_pos hmode, if_pos hlow]

variable (hmode : pcMode d.power.ctl ≠ 1)
include hmode

/-- Lowered at once. -/
theorem decideStep_lowers (hfree : (pcLockstep d.power.ctl && d.power.commonOn) = false) (hlow : d.bestStep d.ceiling 0 < d.power.cur) :
    d.decideStep = (d.lowerTo (d.bestStep d.ceiling 0) (d.limitOf (d.bestStep d.ceiling 0))).modPower fun w =>
      { w with agreed := none } := by
  unfold decideStep
  dsimp only
  rw [if_neg (decides hcool hsup), if_neg hmode, if_pos ⟨hlow, by simp [hfree]⟩]
  rfl

variable (hlow : d.power.cur ≤ d.bestStep d.ceiling 0) (hhigh : d.power.cur < d.bestStep d.ceiling 5)
include hlow hhigh

/-- The first of two decisions that allow a raise. -/
theorem decideStep_agrees (hnone : d.power.agreed = none) :
    d.decideStep = d.modPower fun w => { w with agreed := some (d.bestStep d.ceiling 5) } := by
  unfold decideStep
  dsimp only
  rw [if_neg (decides hcool hsup), if_neg hmode, if_neg (fun h => absurd h.1 (Nat.not_lt.2 hlow)), if_pos hhigh, hnone]
  rfl

/-- The second one asks for the raise. -/
theorem decideStep_raises {k : Nat} (hk : d.power.cur < k) (hagreed : d.power.agreed = some k) (hidle : d.power.pending = none)
    (hgoes : d.power.suppress = false) : ∃ a l, d.decideStep = d.modPower fun w => { w with
      agreed := a, limit := l, pending := some { target := min k (d.bestStep d.ceiling 5), asked := d.now }
      vreq := stepVid (min k (d.bestStep d.ceiling 5)), vack := false } := by
  have hraise : ¬ (min k (d.bestStep d.ceiling 5) ≤ d.power.cur ∨ d.power.suppress = true ∨ d.power.supply ≠ .normal ∨
      d.power.therm = 2) := by
    simp [hgoes, hsup, hcool]
    omega
  unfold decideStep
  dsimp only
  rw [if_neg (decides hcool hsup), if_neg hmode, if_neg (fun h => absurd h.1 (Nat.not_lt.2 hlow)), if_pos hhigh, hagreed]
  dsimp only
  rw [if_pos hidle, askRaise, if_neg hraise]
  exact ⟨_, _, rfl⟩

end

/-! ### Raises (R409, R410, R421) -/

/-- PM_VACK: the raise that waits takes effect. -/
theorem vackRises_raises {r : Raise} (hr : d.power.pending = some r) (hlock : d.power.lockRaise = none) (hlag : d.power.lag = false)
    (hsup : d.power.supply = .normal) (hcool : d.power.therm ≠ 2) : ∃ l, vackRises d = d.modPower fun w => { w with
      vack := true, cur := r.target, pending := none, limit := l } := by
  unfold vackRises
  dsimp only
  rw [hr]
  dsimp only
  rw [if_neg (ne_true_of_eq_false hlag), if_neg (by simp [hlock, hsup, hcool])]
  exact ⟨_, rfl⟩

/-- PM_VACK after LAG: the raise is given up. -/
theorem vackRises_lags {r : Raise} (hr : d.power.pending = some r) (hlag : d.power.lag = true) :
    vackRises d = d.modPower fun w => { w with vack := true, pending := none, vreq := stepVid w.cur } := by
  unfold vackRises
  dsimp only
  rw [hr]
  dsimp only
  rw [if_pos hlag]
  rfl

theorem vregLate_abandons {r : Raise} (hr : d.power.pending = some r) (hack : d.power.vack = false) (hlate : r.asked + 50000 ≤ d.now) :
    vregLate d = (d.modPower fun w => { w with pending := none, vreq := stepVid w.cur, suppress := true }).platform 0x0507 := by
  unfold vregLate
  dsimp only
  rw [hr]
  dsimp only
  rw [if_neg (by simp [hack, hlate])]

section
variable {k t0 : Nat} (hlock : d.power.lockRaise = some (k, t0)) (hat : t0 ≤ d.now)
include hlock hat

/-- The common step is taken at its instant by a member that is ready for it. -/
theorem commonRaise_raises {r : Raise} (hr : d.power.pending = some r) (hk : r.target = k) (hack : d.power.vack = true)
    (hsup : d.power.supply = .normal) (hcool : d.power.therm ≠ 2) :
    commonRaise d = d.modPower fun w => { w with lockRaise := none, cur := k, pending := none, limit := 2 } := by
  unfold commonRaise
  dsimp only
  rw [hlock]
  dsimp only
  rw [if_neg (Nat.not_lt.2 hat), hr]
  dsimp only
  rw [if_pos (by simp [hack, hk, hsup, hcool])]
  rfl

/-- Any other member lags. -/
theorem commonRaise_lags (hnot : d.power.pending = none ∨ d.power.vack = false) : commonRaise d =
    (d.modPower fun w => { w with lockRaise := none, lag := true, lagCnt := satInc w.lagCnt }).platform 0x0505 := by
  unfold commonRaise
  dsimp only
  rw [hlock]
  dsimp only
  rw [if_neg (Nat.not_lt.2 hat)]
  cases hp : d.power.pending with
  | none => rfl
  | some r =>
    rw [hp] at hnot
    have hack : d.power.vack = false := hnot.resolve_left nofun
    dsimp only
    rw [if_neg (by simp [hack])]
    rfl

end

theorem grazeEnds_ends {c t0 : Nat} (hg : (d.core c).grazing = some t0) (hlate : t0 + pcGrazeMax d.power.ctl * 1000 ≤ d.now) :
    grazeEnds c d = d.setCore c { d.core c with grazing := none } := by
  rw [grazeEnds, hg]
  exact if_pos hlate

/-! ### The supply (R423 to R425) -/

/-- Ending every core's Grazing changes cores alone. -/
theorem stopGrazing_part {β : Type} {φ : Device → β} (h : ∀ d c f, φ (modCore d c f) = φ d) (d : Device) : φ d.stopGrazing = φ d := by
  refine foldl_part (φ := φ) (fun x c => ?_) (List.range 12) d
  split
  · exact h ..
  · rfl

@[simp] theorem stopGrazing_power (d : Device) : d.stopGrazing.power = d.power := stopGrazing_part (φ := Device.power) (fun _ _ _ => rfl) d
@[simp] theorem stopGrazing_cal (d : Device) : d.stopGrazing.cal = d.cal := stopGrazing_part (φ := Device.cal) (fun _ _ _ => rfl) d

theorem stopGrazing_core (d : Device) {c : Nat} (hc : c < 12) : (d.stopGrazing.core c).grazing = none := by
  have hstep : ∀ (d : Device) (c k : Nat),
      (if (d.core c).grazing.isSome then d.modCore c fun k => { k with grazing := none } else d).core k =
        if c = k then { d.core k with grazing := none } else d.core k := by
    intro d c k
    split
    case isTrue => exact modCore_core ..
    case isFalse hg =>
      split
      case isTrue h =>
        subst h
        rw [← Option.not_isSome_iff_eq_none.1 hg]
      case isFalse => rfl
  have hcleared := foldl_core (f := fun k => { k with grazing := none }) hstep (List.nodup_range (n := 12)) d c
  exact congrArg Core.grazing (hcleared.trans (if_pos (List.mem_range.2 hc)))

/-- A Pen at an activity of at most 8. -/
def clampPen (p : Pen) : Pen := { p with level := min 8 p.level }
def clampCore (k : Core) : Core := { k with pn := { k.pn with pens := Table.mapAll k.pn.pens Pen.reset clampPen } }

theorem clampPens_power (d : Device) : d.clampPens.power = d.power := by
  unfold clampPens
  refine foldl_part (φ := Device.power) (fun _ _ => ?_) _ _
  rfl

theorem clampPens_core (d : Device) {c : Nat} (hc : c < 12) : d.clampPens.core c = clampCore (d.core c) :=
  (foldl_core (fun d c => modCore_core d c clampCore) (List.nodup_range (n := 12)) d c).trans (if_pos (List.mem_range.2 hc))

theorem clampCore_grazing (k : Core) : (clampCore k).grazing = k.grazing := rfl

theorem clampCore_level (k : Core) (n : Nat) : (Table.get (clampCore k).pn.pens Pen.reset n).level ≤ 8 := by
  have hall : (Table.mapAll k.pn.pens Pen.reset clampPen).all (fun kv => decide (kv.2.level ≤ 8)) = true := by
    refine List.all_eq_true.2 fun kv hkv => ?_
    obtain ⟨x, -, rfl⟩ := List.mem_map.1 (List.mem_filter.1 hkv).1
    exact decide_eq_true (Nat.min_le_left ..)
  exact of_decide_eq_true (Table.get_all (p := fun x : Pen => decide (x.level ≤ 8)) n hall rfl)

/-- The warning: at most step 4 at the old voltage, nothing pending. -/
theorem supplyWarns_normal {mv : Nat} (hlow : mv * 100 < d.cal.warnPct * d.supplyMv) (hsup : d.power.supply = .normal) :
    supplyWarns mv d = (d.modPower fun w => { w with
      supply := .warning, dipCnt := satNat 16 (w.dipCnt + 1), dipAt := d.now, warnAt := d.now, dipLow := mv, dipNs := 0, dipStep := w.cur
      cur := min 4 w.cur, pending := none, limit := 3 }).stopGrazing.clampPens := by
  unfold supplyWarns
  dsimp only
  rw [if_neg (Nat.not_le.2 hlow), hsup]

theorem supplyHolds_holds (hsup : d.power.supply = .warning) : supplyHolds d =
    d.modPower fun w => { w with supply := .hold, holdAt := d.now, dipNs := w.dipNs + (d.now - w.warnAt) } := if_neg (not_not.2 hsup)

/-- The step that comes back after HOLD. -/
theorem supplyNormal_returns (hsup : d.power.supply = .hold) (hlate : d.power.holdAt + 20000 ≤ d.now) :
    ∃ s, (supplyNormal d).power.supply = .normal ∧ (supplyNormal d).power.cur = s ∧ (supplyNormal d).power.vreq = stepVid s ∧
      (d.power.therm ≠ 2 → s ≤ d.power.dipStep) ∧ (d.power.therm = 2 → s = 0) := by
  unfold supplyNormal
  rw [if_neg (by simp [hsup, hlate])]
  extract_lets d1 s d2
  refine ⟨s, ?_, ?_, ?_, fun hcool => ?_, fun hhot => if_pos hhot⟩
  · rw [postDev_power]
    rfl
  · rw [postDev_power]
    rfl
  · rw [postDev_power]
    rfl
  · show (if d.power.therm = 2 then 0 else _) ≤ d.power.dipStep
    rw [if_neg hcool]
    split
    · exact Nat.min_le_left ..
    · split <;> exact Nat.min_le_left ..

theorem supplyResets_asks {mv : Nat} (hlow : mv * 100 < d.cal.resetPct * d.supplyMv) :
    supplyResets mv d = (d.logFlash 0x0502 (BitVec.ofNat 64 mv)).requestDevReset 0x0502 := if_neg (Nat.not_le.2 hlow)

/-! ### Temperature (R426 to R428) -/

section
variable {β : Type} {φ : Device → β} (hstall : ∀ d n v, φ (setStall d n v) = φ d) (hcore : ∀ d n v, φ (setCore d n v) = φ d)
  (hpdk : ∀ d n v, φ (setPdk d n v) = φ d) (halarm : ∀ d n v, φ (setAlarm d n v) = φ d)
  (hwindow : ∀ d n v, φ (setWindow d n v) = φ d) (hbinding : ∀ d n v, φ (setBinding d n v) = φ d)
  (hentry : ∀ d n v, φ (setPdkSec d n v) = φ d)

include hwindow in
theorem closeWindows_part (d : Device) (q : Nat → Window → Bool) : φ (d.closeWindows q) = φ d := by
  refine tfoldl_part (φ := φ) (fun x k w => ?_) _ _
  split
  · unfold winClose
    dsimp only
    split
    · exact hwindow ..
    · rfl
  · rfl

include halarm in
theorem disarmAll_part (d : Device) (owner : Nat) : φ (d.disarmAll owner) = φ d := by
  refine foldl_part (φ := φ) (fun x i => ?_) _ _
  exact halarm ..

include hbinding in
theorem dropSessions_part (d : Device) (p : Nat) : φ (d.dropSessions p) = φ d := by
  refine foldl_part (φ := φ) (fun x b => ?_) _ _
  exact hbinding ..

include hstall hcore hpdk halarm hwindow hbinding in
/-- The fence of a Paddock changes Stalls, cores, Drovers, alarms, windows and bindings, and nothing else (R471 step 1). -/
theorem fenceUp_part (d : Device) (p : Nat) : φ (d.fenceUp p) = φ d := by
  refine (hpdk ..).trans ((dropSessions_part hbinding ..).trans ((closeWindows_part hwindow ..).trans
    ((disarmAll_part halarm ..).trans ((hpdk ..).trans ((foldl_part (φ := φ) (fun x c => ?_) _ _).trans
      (foldl_part (φ := φ) (fun x n => ?_) _ _))))))
  · exact hcore ..
  · exact hstall ..

include hstall hcore hpdk halarm hwindow hbinding hentry in
theorem fenceAll_part (d : Device) : φ d.fenceAll = φ d := by
  refine foldl_part (φ := φ) (fun d p => ?_) _ _
  have hpending : φ (if (d.pdkSec p).phase = .none then d else d.modPdkSec p fun x => { x with phase := .pending }) = φ d := by
    split
    · rfl
    · exact hentry ..
  dsimp only
  split
  · exact hpending
  · exact (fenceUp_part hstall hcore hpdk halarm hwindow hbinding ..).trans hpending
  · exact (hpdk ..).trans hpending

end

theorem fenceAll_power (d : Device) : d.fenceAll.power = d.power :=
  fenceAll_part (φ := Device.power) (fun _ _ _ => rfl) (fun _ _ _ => rfl) (fun _ _ _ => rfl) (fun _ _ _ => rfl) (fun _ _ _ => rfl)
    (fun _ _ _ => rfl) (fun _ _ _ => rfl) d

/-- A cause of a device reset leaves the power controller as it is. -/
@[simp] theorem requestDevReset_power (d : Device) (code : Code) : (d.requestDevReset code).power = d.power := by
  unfold requestDevReset
  split
  · rfl
  · exact fenceAll_power d

/-- The sensors' readings are taken, and of the valid ones the hottest. -/
def sensed (t : List SensorReading) (d : Device) : Device :=
  let l := (List.range 32).map fun i => t.getD i { valid := false, temp := 0 }
  let d := d.modPower fun w => { w with
    sensors := l.zipIdx.foldl (fun t (r, i) => Table.set t (0, false) i (r.temp, r.valid)) w.sensors }
  match hottest l with
  | some (v, i) => d.modPower fun w => { w with hot := v, hotSensor := i }
  | none => d

/-- No sensor of some die is valid. -/
def blinded (t : List SensorReading) : Bool :=
  let l := (List.range 32).map fun i => t.getD i { valid := false, temp := 0 }
  dieSensors.any fun s => s.all fun i => !(l.getD i { valid := false, temp := 0 }).valid

/-- A trip begins. -/
def heatTrips (trip : Bool) (d : Device) : Device :=
  if !trip || d.power.therm == 2 then d
  else (((d.lowerTo 0 5).stopGrazing).modPower fun w => { w with therm := 2, alert := true, coolAt := none }).platform 0x0501

/-- In a trip the time below TRIP - 10 is kept; outside one, WARN begins or ends, by the reading `w`. -/
def heatWarns (blind : Bool) (w : Power) (d : Device) : Device :=
  if d.power.therm = 2 then
    d.modPower fun w => { w with coolAt := if !blind && decide (w.hot < d.cal.trip - 10) then some (w.coolAt.getD d.now) else none }
  else if (w.thermWarn : Int) ≤ w.hot then
    let d := d.stopGrazing
    if w.therm = 0 then (d.modPower fun w => { w with therm := 1, thermAt := d.now }).platform 0x0504 else d
  else if w.therm = 1 ∧ w.hot < (w.thermWarn : Int) - 5 then d.modPower fun w => { w with therm := 0, thermAt := d.now }
  else d

/-- The reset that CRIT asks for, once. -/
def heatShuts (w : Power) (d : Device) : Device :=
  if d.cal.crit ≤ w.hot ∧ w.crit = false then
    ((d.modPower fun w => { w with crit := true }).logFlash 0x0506 (BitVec.ofInt 64 w.hot)).requestDevReset 0x0506
  else d

theorem senseHeat_eq (t : List SensorReading) (d : Device) : senseHeat t d =
    let e := sensed t d
    heatShuts e.power (heatWarns (blinded t) e.power (heatTrips (blinded t || decide (e.cal.trip ≤ e.power.hot)) e)) := rfl

theorem sensed_eq {t : List SensorReading} {v : Int} {i : Nat}
    (h : hottest ((List.range 32).map fun i => t.getD i { valid := false, temp := 0 }) = some (v, i)) (d : Device) :
    ∃ s, sensed t d = d.modPower fun w => { w with sensors := s, hot := v, hotSensor := i } := by
  unfold sensed
  dsimp only
  rw [h]
  exact ⟨_, rfl⟩

/-- What the trip leaves: the reading and CRIT. -/
theorem heatTrips_keeps (trip : Bool) (d : Device) : (heatTrips trip d).power.hot = d.power.hot ∧
    (heatTrips trip d).power.hotSensor = d.power.hotSensor ∧ (heatTrips trip d).power.crit = d.power.crit ∧
    (heatTrips trip d).cal = d.cal := by
  unfold heatTrips platform
  split
  · exact ⟨rfl, rfl, rfl, rfl⟩
  · simp [modPower, lowerTo]

theorem heatTrips_trips (d : Device) : (heatTrips true d).power.therm = 2 ∧
    (d.power.therm ≠ 2 → (heatTrips true d).power.cur = 0 ∧ (heatTrips true d).power.alert = true) := by
  unfold heatTrips platform
  split
  case isTrue h =>
    have hhot : d.power.therm = 2 := by simpa using h
    exact ⟨hhot, fun hcool => absurd hhot hcool⟩
  case isFalse h => simp [modPower, lowerTo]

theorem heatWarns_keeps (blind : Bool) (w : Power) (d : Device) : (heatWarns blind w d).power.hot = d.power.hot ∧
    (heatWarns blind w d).power.hotSensor = d.power.hotSensor ∧ (heatWarns blind w d).power.crit = d.power.crit ∧
    (heatWarns blind w d).power.cur = d.power.cur ∧ (heatWarns blind w d).power.alert = d.power.alert ∧
    (heatWarns blind w d).cal = d.cal := by
  unfold heatWarns platform
  dsimp only
  split
  · exact ⟨rfl, rfl, rfl, rfl, rfl, rfl⟩
  · split
    · split <;> simp [modPower]
    · split <;> exact ⟨rfl, rfl, rfl, rfl, rfl, rfl⟩

theorem heatWarns_trip {d : Device} (h : d.power.therm = 2) (blind : Bool) (w : Power) : (heatWarns blind w d).power.therm = 2 := by
  rw [heatWarns, if_pos h]
  exact h

theorem heatShuts_keeps (w : Power) (d : Device) : (heatShuts w d).power.hot = d.power.hot ∧
    (heatShuts w d).power.hotSensor = d.power.hotSensor ∧ (heatShuts w d).power.therm = d.power.therm ∧
    (heatShuts w d).power.cur = d.power.cur ∧ (heatShuts w d).power.alert = d.power.alert := by
  unfold heatShuts
  split
  · simp [modPower]
  · exact ⟨rfl, rfl, rfl, rfl, rfl⟩

theorem heatShuts_crit {w : Power} {d : Device} (hcrit : w.crit = d.power.crit) (h : d.cal.crit ≤ w.hot) :
    (heatShuts w d).power.crit = true := by
  unfold heatShuts
  split
  case isTrue => simp [modPower]
  case isFalse hno =>
    have hcrit' : w.crit ≠ false := fun hf => hno ⟨h, hf⟩
    rw [← hcrit]
    exact Bool.eq_true_of_not_eq_false hcrit'

/-- A sample: the reading, a trip at TRIP and the reset at CRIT (R426, R428). -/
theorem senseHeat_hot {t : List SensorReading} {v : Int} {i : Nat}
    (h : hottest ((List.range 32).map fun i => t.getD i { valid := false, temp := 0 }) = some (v, i)) (d : Device) :
    (senseHeat t d).power.hot = v ∧ (senseHeat t d).power.hotSensor = i ∧
      (d.cal.trip ≤ v → (senseHeat t d).power.therm = 2 ∧
        (d.power.therm ≠ 2 → (senseHeat t d).power.cur = 0 ∧ (senseHeat t d).power.alert = true)) ∧
      (d.cal.crit ≤ v → (senseHeat t d).power.crit = true) := by
  obtain ⟨s, hs⟩ := sensed_eq h d
  rw [senseHeat_eq, hs]
  generalize he : d.modPower (fun w => { w with sensors := s, hot := v, hotSensor := i }) = e
  have hhot : e.power.hot = v := by rw [← he]; rfl
  have hsensor : e.power.hotSensor = i := by rw [← he]; rfl
  have htherm : e.power.therm = d.power.therm := by rw [← he]; rfl
  have hcal : e.cal = d.cal := by rw [← he]; rfl
  dsimp only
  rw [hhot, hcal]
  obtain ⟨hot1, sensor1, crit1, cal1⟩ := heatTrips_keeps (blinded t || decide (d.cal.trip ≤ v)) e
  have htrips : d.cal.trip ≤ v → (heatTrips (blinded t || decide (d.cal.trip ≤ v)) e).power.therm = 2 ∧
      (e.power.therm ≠ 2 → (heatTrips (blinded t || decide (d.cal.trip ≤ v)) e).power.cur = 0 ∧
        (heatTrips (blinded t || decide (d.cal.trip ≤ v)) e).power.alert = true) := by
    intro htrip
    rw [decide_eq_true htrip, Bool.or_true]
    exact heatTrips_trips e
  generalize heatTrips (blinded t || decide (d.cal.trip ≤ v)) e = x at *
  obtain ⟨hot2, sensor2, crit2, cur2, alert2, cal2⟩ := heatWarns_keeps (blinded t) e.power x
  have hstays := fun h : x.power.therm = 2 => heatWarns_trip h (blinded t) e.power
  generalize heatWarns (blinded t) e.power x = y at *
  obtain ⟨hot3, sensor3, therm3, cur3, alert3⟩ := heatShuts_keeps e.power y
  refine ⟨hot3.trans (hot2.trans (hot1.trans hhot)), sensor3.trans (sensor2.trans (sensor1.trans hsensor)), fun htrip => ?_, fun hcrit => ?_⟩
  · obtain ⟨htherm2, hfirst⟩ := htrips htrip
    refine ⟨therm3.trans (hstays htherm2), fun hcool => ?_⟩
    obtain ⟨hcur, halert⟩ := hfirst (htherm.trans_ne hcool)
    exact ⟨cur3.trans (cur2.trans hcur), alert3.trans (alert2.trans halert)⟩
  · exact heatShuts_crit (crit2.trans crit1).symm (by rw [cal2, cal1, hcal, hhot]; exact hcrit)

/-! ### MAXSTEP and the end of a trip (R427, R428) -/

section
variable (hhot : (d.power.thermWarn : Int) ≤ d.power.hot) (hlate : d.power.thermAt + 100000 ≤ d.now)
include hhot hlate

theorem maxStepTick_falls : maxStepTick d =
    let e := d.modPower fun w => { w with maxStep := w.maxStep - 1, thermAt := d.now }
    if e.power.maxStep < e.power.cur then e.lowerTo e.power.maxStep 4 else e := if_pos ⟨hhot, hlate⟩

/-- MAXSTEP falls above the step in force. -/
theorem maxStepTick_keeps (hstep : d.power.cur ≤ d.power.maxStep - 1) :
    maxStepTick d = d.modPower fun w => { w with maxStep := w.maxStep - 1, thermAt := d.now } :=
  (maxStepTick_falls hhot hlate).trans (if_neg (Nat.not_lt.2 hstep))

/-- The step in force falls with MAXSTEP. -/
theorem maxStepTick_lowers (hstep : d.power.maxStep - 1 < d.power.cur) : maxStepTick d =
    (d.modPower fun w => { w with maxStep := w.maxStep - 1, thermAt := d.now }).lowerTo (d.power.maxStep - 1) 4 :=
  (maxStepTick_falls hhot hlate).trans (if_pos hstep)

end

theorem maxStepTick_rises (hcool : d.power.hot < (d.power.thermWarn : Int) - 5) (hmax : d.power.maxStep < pcMaxStep d.power.ctl)
    (hlate : d.power.thermAt + 1000000 ≤ d.now) :
    maxStepTick d = d.modPower fun w => { w with maxStep := w.maxStep + 1, thermAt := d.now } := by
  unfold maxStepTick
  dsimp only
  rw [if_neg (fun h => absurd h.1 (by omega)), if_pos ⟨hcool, hmax, hlate⟩]

theorem tripEnds_ends {t0 : Nat} (htrip : d.power.therm = 2) (hat : d.power.coolAt = some t0) (hlate : t0 + 1000000 ≤ d.now) :
    tripEnds d = d.modPower fun w => { w with
      therm := if (d.power.thermWarn : Int) ≤ d.power.hot then 1 else 0, alert := false, coolAt := none, thermAt := d.now } := by
  unfold tripEnds
  dsimp only
  rw [hat]
  exact if_pos ⟨htrip, hlate⟩

end Device

/-- Settles O47, command by command. What PM_VACK does after LAG is log entry 155, that MAXSTEP moves during a trip is log entry 158, and
the state and alert at the end of a trip are log entry 160: the model's choices. -/
theorem powerResults : Obligations.PowerResults := by
  unfold Obligations.PowerResults
  refine ⟨?interval, ?decision, ?vack, ?suppress, ?common, ?graze, ?warning, ?hold, ?normal, ?reset, ?sample, ?maxStep, ?trip⟩
  case interval =>
    intro s a hr hs
    obtain ⟨f, hends, heq, hest, henergy, hrem, hcores⟩ := Device.intervalEnds_spec (a := a) hr hs
    exact ⟨_, done_of_eq hends, heq, hest, henergy, hrem, hcores⟩
  case decision =>
    intro s hcool hsup w step low hi
    refine ⟨fun hmode hlow => done_of_eq (Device.decideStep_fixed hcool hsup hmode hlow), fun hmode hfree =>
      ⟨fun hlow => ⟨_, done_of_eq (Device.decideStep_lowers hcool hsup hmode hfree hlow), Nat.min_eq_left hlow.le, ?_, rfl⟩,
        fun hlow hhigh hnone => ⟨_, done_of_eq (Device.decideStep_agrees hcool hsup hmode hlow hhigh hnone), rfl⟩,
        fun k hlow hhigh hk hagreed hidle hgoes => ?_⟩⟩
    · exact congrArg stepVid (Nat.min_eq_left hlow.le)
    · obtain ⟨a, l, hraises⟩ := Device.decideStep_raises hcool hsup hmode hlow hhigh hk hagreed hidle hgoes
      exact ⟨_, done_of_eq hraises, rfl, rfl, rfl⟩
  case vack =>
    intro s r hr
    refine ⟨fun hlock hlag hsup hcool => ?_, fun hlag => done_of_eq (Device.vackRises_lags hr hlag),
      fun hack hlate => done_of_eq (Device.vregLate_abandons hr hack hlate)⟩
    obtain ⟨l, hraises⟩ := Device.vackRises_raises hr hlock hlag hsup hcool
    exact ⟨_, done_of_eq hraises, rfl, rfl, rfl, rfl⟩
  case suppress => exact fun s => rfl
  case common =>
    intro s k t0 hlock hat
    exact ⟨fun r hr hk hack hsup hcool => done_of_eq (Device.commonRaise_raises hlock hat hr hk hack hsup hcool),
      fun hnot => done_of_eq (Device.commonRaise_lags hlock hat hnot)⟩
  case graze => exact fun s c t0 hc hg hlate => onUnit_of_eq hc (Device.grazeEnds_ends hg hlate)
  case warning =>
    intro s mv hlow hsup
    refine ⟨_, done_of_eq (Device.supplyWarns_normal hlow hsup), ?_⟩
    dsimp only
    rw [Device.clampPens_power, Device.stopGrazing_power]
    refine ⟨rfl, rfl, rfl, rfl, rfl, rfl, fun c hc => ?_⟩
    rw [Device.clampPens_core _ hc, Device.clampCore_grazing]
    exact ⟨Device.stopGrazing_core _ hc, Device.clampCore_level _⟩
  case hold => exact fun s hsup => done_of_eq (Device.supplyHolds_holds hsup)
  case normal =>
    intro s hsup hlate
    obtain ⟨k, hnormal, hcur, hvreq, hdip, hhot⟩ := Device.supplyNormal_returns hsup hlate
    exact ⟨_, done_next .., hnormal, fun hcool => hcur.trans_le (hdip hcool), fun htrip => hcur.trans (hhot htrip),
      hvreq.trans (congrArg stepVid hcur.symm)⟩
  case reset => exact fun s mv hlow => done_of_eq (Device.supplyResets_asks hlow)
  case sample =>
    intro s l v i hhot
    exact ⟨_, done_next .., Device.senseHeat_hot hhot s.dev⟩
  case maxStep =>
    intro s w
    refine ⟨fun hhot hlate hstep => done_of_eq (Device.maxStepTick_keeps hhot hlate hstep),
      fun hhot hlate hstep => ⟨_, done_of_eq (Device.maxStepTick_lowers hhot hlate hstep), rfl, rfl, Nat.min_eq_left hstep.le⟩,
      fun hcool hmax hlate => done_of_eq (Device.maxStepTick_rises hcool hmax hlate)⟩
  case trip => exact fun s t0 htrip hat hlate => done_of_eq (Device.tripEnds_ends htrip hat hlate)

end Sys2Proof.Machine
end

section
/-! PROOF. Drove links: frames that arrive, sessions, acknowledgements, forwarding and ports (spec 12: R383 to R405). -/

namespace Sys2Proof.Machine

namespace Device
variable {d : Device} {n b : Nat} {t : FrameType} {f : DroveFrame}

/-! ### Arrival (R385, R387, R390, R391) -/

theorem of_frameFor (h : d.frameFor n b t f = true) : n < 2 ∧ f.type = t ∧ d.links.addr ≠ 0 ∧ f.dst = d.links.addr ∧ headerOk f = true ∧
    (d.pdk f.dpdk.toNat).rst = .running ∧ d.bindingTo f.dpdk.toNat f.src.toNat = some b ∧ (d.binding b).peerPdk = f.spdk.toNat := by
  simpa only [frameFor, Bool.and_eq_true, decide_eq_true_eq, beq_iff_eq, bne_iff_ne, ne_eq, and_assoc] using h

theorem of_upFrame (h : d.upFrame n b t f = true) :
    d.frameFor n b t f = true ∧ (d.binding b).state = .up ∧ f.inc = (d.binding b).pinc := by
  simpa only [upFrame, Bool.and_eq_true, beq_iff_eq, and_assoc] using h

/-- A frame for this device acts in its session. -/
theorem arrive_goes (h : d.frameFor n b t f = true) (hup : t = .hello ∨ (d.binding b).state = .up ∧ f.inc = (d.binding b).pinc)
    (go : Device → Nat → Device) : arrive n t f go d = go (d.reached n b) b := by
  obtain ⟨-, htype, haddr, hdst, hok, hrst, hbind, hpeer⟩ := of_frameFor h
  have hrst' : ((d.received n).pdk f.dpdk.toNat).rst = .running := hrst
  have hbind' : (d.received n).bindingTo f.dpdk.toNat f.src.toNat = some b := hbind
  have hpeer' : ((d.received n).binding b).peerPdk = f.spdk.toNat := hpeer
  have hmine : ¬ ((d.received n).links.addr = 0 || !headerOk f) = true := by
    have haddr' : ¬ (d.received n).links.addr = 0 := haddr
    simp only [hok, haddr', decide_false, Bool.not_true, Bool.or_self, Bool.false_eq_true, not_false_eq_true]
  unfold arrive
  rw [if_neg (by simp [htype, hdst])]
  dsimp only
  rw [if_neg hmine, if_neg (not_not.2 hrst'), hbind']
  dsimp only
  rw [if_neg (not_not.2 hpeer')]
  rcases hup with hhello | ⟨hstate, hinc⟩
  · rw [if_pos hhello]
    rfl
  · have hopen : ¬ (((d.received n).binding b).state ≠ .up ∨ f.inc ≠ ((d.received n).binding b).pinc) :=
      not_or.2 ⟨not_not.2 hstate, not_not.2 hinc⟩
    rw [if_neg hopen]
    split <;> rfl

theorem reached_binding (d : Device) (n b : Nat) : (d.reached n b).binding b = { d.binding b with rxAt := d.now } :=
  setBinding_binding_same ..

/-! ### Sending leaves the sessions (R388, R389) -/

section
variable {β : Type} {φ : Device → β} (hp : ∀ d n v, φ (setPort d n v) = φ d) (he : ∀ d o, φ (emit d o) = φ d)
include hp he

theorem sendAt_part (d : Device) (n : Nat) (fwd : Bool) (f : DroveFrame) : φ (d.sendAt n fwd f) = φ d := (he ..).trans (hp ..)

theorem putPort_part (d : Device) (n : Nat) (fwd : Bool) (f : DroveFrame) : φ (d.putPort n fwd f) = φ d := by
  unfold putPort
  dsimp only
  split
  · split
    · exact (he ..).trans (hp ..)
    · exact hp ..
  · exact sendAt_part hp he ..

theorem sendFrame_part (d : Device) (b : Nat) (f : DroveFrame) : φ (d.sendFrame b f) = φ d := by
  unfold sendFrame
  split
  · rfl
  · split
    · rfl
    · exact putPort_part hp he ..

theorem flushPort_part (d : Device) (n : Nat) : φ (d.flushPort n) = φ d := by
  unfold flushPort
  split
  · rfl
  · exact (foldl_part (φ := φ) (fun x (a : Bool × DroveFrame) => sendAt_part hp he x n a.1 a.2) _ _).trans (hp ..)

end

theorem binding_sendFrame (d : Device) (b : Nat) (f : DroveFrame) (k : Nat) : (d.sendFrame b f).binding k = d.binding k :=
  sendFrame_part (φ := fun d => d.binding k) (fun _ _ _ => rfl) (fun _ _ => rfl) d b f

/-- What the frames that wait for a credit leave of their session when they go (R392, R397). -/
def session (d : Device) (b : Nat) : SessState × BitVec 8 × BitVec 24 × BitVec 24 :=
  ((d.binding b).state, (d.binding b).pinc, (d.binding b).rxExp, (d.binding b).crLim)

theorem session_setBinding (d : Device) (b : Nat) (v : Binding) :
    (d.setBinding b v).session b = (v.state, v.pinc, v.rxExp, v.crLim) := by simp [session]

theorem session_sendFrame (d : Device) (b : Nat) (f : DroveFrame) : (d.sendFrame b f).session b = d.session b := by
  simp only [session, binding_sendFrame]

theorem session_flushOwed (b m : Nat) (d : Device) : (d.flushOwed b m).session b = d.session b := by
  induction m generalizing d with
  | zero => rfl
  | succ m ih =>
    unfold flushOwed
    dsimp only
    split
    · rfl
    · split
      · rw [ih, session_sendFrame, session_setBinding]
        rfl
      · rfl

/-! ### HELLO (R391, R392) -/

/-- A HELLO that names this incarnation opens the session. -/
theorem takeHello_opens (hopening : (d.binding b).state = .opening) (hinc : f.arg.setWidth 8 = (d.pdk (d.binding b).pdk).inc) :
    (takeHello f d b).session b = (.up, f.inc, 0, f.crLim) := by
  have hup : takeHello f d b = d.sessionUp b f.inc f.crLim := by
    unfold takeHello
    dsimp only
    rw [hopening]
    exact if_pos hinc
  rw [hup]
  exact (session_flushOwed ..).trans (session_setBinding ..)

theorem takeHello_heard (hopening : (d.binding b).state = .opening) (hinc : f.arg.setWidth 8 ≠ (d.pdk (d.binding b).pdk).inc) :
    takeHello f d b = d.setBinding b { d.binding b with pinc := f.inc, heard := true } := by
  unfold takeHello
  dsimp only
  rw [hopening]
  exact if_neg hinc

/-- A HELLO of the same incarnation in an open session is answered. -/
theorem takeHello_answers (hup : (d.binding b).state = .up) (hinc : f.inc = (d.binding b).pinc) :
    takeHello f d b = d.sendFrame b { blankFrame .hello with arg := (d.binding b).pinc.setWidth 64 } := by
  unfold takeHello
  dsimp only
  rw [hup]
  dsimp only
  rw [if_pos hinc]

/-! ### Sequenced frames (R392 to R394) -/

theorem psnDist_eq_zero {a x : BitVec 24} : psnDist a x = 0 ↔ x = a := by
  constructor
  · intro h
    have hsub : (x - a).toNat = 0 := h
    bv_omega
  · intro h
    simp [h, psnDist]

/-- The frame expected has its effect. -/
theorem takeSequenced_next (hpsn : f.psn = (d.binding b).rxExp) : d.takeSequenced b f =
    (((d.applyFrame b f).modBinding b fun x => { x with rxExp := x.rxExp + 1, granted := x.granted + 1, ackOwed := true }).applyHeld b
      (d.binding b).heldFrames.length).takeAck b f :=
  if_pos (psnDist_eq_zero.2 hpsn)

/-- A duplicate is answered. -/
theorem takeSequenced_duplicate (h : 2 ^ 23 ≤ (f.psn - (d.binding b).rxExp).toNat) : d.takeSequenced b f = (d.takeAck b f).sendAck b := by
  have h0 : ¬ psnDist (d.binding b).rxExp f.psn = 0 := by unfold psnDist; omega
  have hlate : ¬ psnDist (d.binding b).rxExp f.psn < 2 ^ 23 := by unfold psnDist; omega
  unfold takeSequenced
  dsimp only
  rw [if_neg h0, if_neg hlate]

/-- A later frame is held. -/
theorem takeSequenced_holds (hne : f.psn ≠ (d.binding b).rxExp) (h : (f.psn - (d.binding b).rxExp).toNat < 2 ^ 23)
    (hnew : ((d.binding b).heldFrames.all fun g => g.psn != f.psn) = true) : d.takeSequenced b f =
      ((d.setBinding b { d.binding b with heldFrames := (d.binding b).heldFrames ++ [f] }).takeAck b f).sendAck b := by
  have h0 : ¬ psnDist (d.binding b).rxExp f.psn = 0 := fun h0 => hne (psnDist_eq_zero.1 h0)
  have hheld : ¬ ((d.binding b).heldFrames.any fun g => g.psn == f.psn) = true := by
    rw [List.any_eq_true]
    rintro ⟨g, hg, hpsn⟩
    have hother := List.all_eq_true.1 hnew g hg
    exact absurd hpsn (by simpa using hother)
  unfold takeSequenced
  dsimp only
  rw [if_neg h0, if_pos (show psnDist (d.binding b).rxExp f.psn < 2 ^ 23 from h), if_neg hheld]

section
variable (h : d.upFrame n b t f = true)
include h

/-- A frame of the session that is the one expected: `e` is what it does. -/
theorem arrive_inOrder (hpsn : f.psn = (d.binding b).rxExp) {e : Device} (he : (d.reached n b).applyFrame b f = e) :
    arrive n t f (fun d b => d.takeSequenced b f) d = d.inOrder b f e := by
  obtain ⟨hfor, hup⟩ := of_upFrame h
  rw [arrive_goes hfor (.inr hup), takeSequenced_next (by rw [reached_binding]; exact hpsn), he, reached_binding]
  rfl

theorem upFrame_type : f.type = t := by
  obtain ⟨hfor, -⟩ := of_upFrame h
  obtain ⟨-, htype, -⟩ := of_frameFor hfor
  exact htype

theorem upFrame_port : n < 2 := by
  obtain ⟨hfor, -⟩ := of_upFrame h
  obtain ⟨hn, -⟩ := of_frameFor hfor
  exact hn

end

/-! ### What a sequenced frame does (R399 to R405) -/

theorem reached_removing (d : Device) (n b : Nat) :
    (d.reached n b).removing ((d.reached n b).binding b).pdk = d.removing (d.binding b).pdk := by
  rw [reached_binding]
  rfl

section
variable {p : Nat}

theorem applyWrite_lands {off : Nat} (h : d.remoteCheck p f true = .inr off) :
    d.applyWrite b p f = d.landBytes (d.window (256 * p + winSlot (argHandle f))).core off f.payload [] := by rw [applyWrite, h]

theorem applyWrite_refused {code : Code} (h : d.remoteCheck p f true = .inl code) :
    d.applyWrite b p f = d.sendSeq b { blankFrame .nak with code := code, arg := f.psn.setWidth 64 } := by rw [applyWrite, h]

theorem applyRead_answers {off : Nat} {e : Device} {bs : List Byte} (h : d.remoteCheck p f false = .inr off)
    (hread : d.readYard (d.window (256 * p + winSlot (argHandle f))).core 5 off f.len.toNat = (e, .inl bs)) : d.applyRead b p f =
      e.sendSeq b { blankFrame .readRsp with arg := f.psn.setWidth 64, len := f.len, payload := bs } := by
  unfold applyRead
  dsimp only
  rw [h]
  dsimp only
  rw [hread]

theorem applyRead_refused {code : Code} (h : d.remoteCheck p f false = .inl code) : d.applyRead b p f =
    d.sendSeq b { blankFrame .readRsp with arg := f.psn.setWidth 64, code := code } := by
  unfold applyRead
  dsimp only
  rw [h]

theorem applyRsp_eq {i : Nat} {x : Piece} (hread : ((d.binding b).reads.find? fun r => r.1 == argPsn f) = some (argPsn f, i))
    (hpiece : d.piece i = some x) : d.applyRsp b f =
      let e := d.modBinding b fun x => { x with reads := x.reads.filter fun r => r.1 != argPsn f }
      if f.code ≠ 0 then e.failPiece i f.code x.src
      else if x.len ≤ (x.data ++ f.payload).length then e.gotData i x (x.data ++ f.payload)
      else e.setPiece i { x with data := x.data ++ f.payload } := by
  have hpiece' : (d.modBinding b fun x => { x with reads := x.reads.filter fun r => r.1 != argPsn f }).piece i = some x := hpiece
  unfold applyRsp
  rw [hread]
  dsimp only
  rw [hpiece']

theorem applyNak_fails {i : Nat} {u : Unacked} (hsent : ((d.binding b).unacked.find? fun u => u.psn == argPsn f) = some u)
    (hpiece : u.piece = some i) : d.applyNak b f =
      d.failPiece i f.code (.remote (d.binding b).peer.toNat (argHandle u.f) (argOff u.f)) := by
  unfold applyNak
  dsimp only
  rw [hsent]
  dsimp only
  rw [hpiece]

variable {j : Nat} {v : Job} {m : MusterDef} {r : Round} (hround : d.fabricRound p (bits f.arg 11 0) f.src.toNat = some (j, v, m, r))
  (hnumber : bits f.arg 63 32 = r.round.toNat)
include hround hnumber

theorem applyArrive_records (hleads : d.fabricLeader m = d.links.addr.toNat) (hnew : r.peers.contains f.src.toNat = false) :
    d.applyArrive p f = (d.setRound { r with peers := r.peers ++ [f.src.toNat], offers := r.offers ++ [argStep f] }).tryComplete j
      (bits f.arg 11 0) := by
  have hnow : BitVec.ofNat 32 (bits f.arg 63 32) = r.round := by rw [hnumber]; simp
  unfold applyArrive
  dsimp only
  rw [hround]
  dsimp only
  rw [if_neg (not_not.2 hleads), hnow, if_pos (by rw [hnew]; simp)]

theorem applyRelease_eq (hleads : d.fabricLeader m = f.src.toNat) : d.applyRelease p f =
    let t := ofBytes (f.payload.take 8)
    let e := if d.lockstepped p then d.takeCommon (argStep f) f.src.toNat t else d
    if t ≤ e.now then e.releaseRound j r else (e.setRound { r with deadline := none, releaseAt := some t }).rearmMuster r.paddock := by
  have hnow : BitVec.ofNat 32 (bits f.arg 63 32) = r.round := by rw [hnumber]; simp
  unfold applyRelease
  dsimp only
  rw [hround]
  dsimp only
  rw [if_neg (by simp [hleads, hnow])]

end

/-! ### ACK (R395) -/

theorem takeAckFrame_plain (h : ofBytes (f.payload.take 8) = 0) : takeAckFrame f d b = d.takeAck b f := if_pos h

/-- The frame expected is the one missing below the first that is held. -/
theorem takeAckFrame_first (h : ofBytes (f.payload.take 8) = 1) : takeAckFrame f d b =
    (((d.takeAck b f).binding b).unacked.filter fun u => u.psn == f.ackPsn + 1).foldl (fun d u => d.resendFrame b u) (d.takeAck b f) := by
  have htop : ((List.range 64).filter fun k => 1 / 2 ^ k % 2 == 1).foldl max 0 = 0 := by decide
  have hmissing : (fun u : Unacked => decide (psnDist (f.ackPsn + 1) u.psn < 0 + 1) &&
      (psnDist (f.ackPsn + 1) u.psn == 0 || 1 / 2 ^ (psnDist (f.ackPsn + 1) u.psn - 1) % 2 == 0)) =
        fun u => u.psn == f.ackPsn + 1 := by
    funext u
    by_cases hu : u.psn = f.ackPsn + 1
    · rw [psnDist_eq_zero.2 hu, hu]
      exact (beq_self_eq_true _).symm
    · have hpos : ¬ psnDist (f.ackPsn + 1) u.psn < 0 + 1 := fun h0 => hu (psnDist_eq_zero.1 (Nat.lt_one_iff.1 h0))
      rw [decide_eq_false hpos, Bool.false_and, beq_false_of_ne hu]
  unfold takeAckFrame
  dsimp only
  rw [h, if_neg (by decide), htop, hmissing]

/-! ### Forwarding and ports (R383, R388, R389) -/

section
variable (haddr : d.links.addr ≠ 0) (hdst : f.dst ≠ d.links.addr) (hok : headerOk f = true)
include haddr hdst hok

theorem forward_eq : forward n f d =
    match d.routePort f.dst.toNat with
    | none => (d.received n).modPort n fun p => { p with fwdDrop := p.fwdDrop + 1 }
    | some e =>
      if e = n ∨ f.hops = 0 then (d.received n).modPort n fun p => { p with fwdDrop := p.fwdDrop + 1 }
      else if 128 ≤ fwdFill ((d.received n).port e) then (d.received n).modPort e fun p => { p with fwdDrop := p.fwdDrop + 1 }
      else (d.received n).putPort e true { f with hops := f.hops - 1 } := by
  unfold forward
  rw [if_neg (not_or.2 ⟨haddr, hdst⟩)]
  dsimp only
  rw [if_neg (by simp [hok])]
  rfl

end

theorem received_fwdFill {e : Nat} (he : e ≠ n) : fwdFill ((d.received n).port e) = fwdFill (d.port e) := by
  rw [received, modPort_eq, setPort_port_ne _ _ _ he.symm]

theorem answerAt_eq (n : Nat) (own : Bool) (o : Out) (d : Device) : answerAt n own o d =
    if own then ((d.received n).modPort n fun p => { p with txFrm := p.txFrm + 1 }).emit o else d.received n := rfl

theorem sendAt_keeps (d : Device) (n : Nat) (fwd : Bool) (f : DroveFrame) :
    ((d.sendAt n fwd f).port n).up = (d.port n).up ∧ ((d.sendAt n fwd f).port n).paused = (d.port n).paused ∧
      ((d.sendAt n fwd f).port n).queue = (d.port n).queue := by simp [sendAt]

theorem foldl_sendAt_keeps (n : Nat) (l : List (Bool × DroveFrame)) (d : Device) :
    ((l.foldl (fun d x => d.sendAt n x.1 x.2) d).port n).up = (d.port n).up ∧
      ((l.foldl (fun d x => d.sendAt n x.1 x.2) d).port n).paused = (d.port n).paused ∧
      ((l.foldl (fun d x => d.sendAt n x.1 x.2) d).port n).queue = (d.port n).queue := by
  induction l generalizing d with
  | nil => exact ⟨rfl, rfl, rfl⟩
  | cons x l ih =>
    obtain ⟨hup, hpaused, hqueue⟩ := sendAt_keeps d n x.1 x.2
    obtain ⟨hup', hpaused', hqueue'⟩ := ih (d.sendAt n x.1 x.2)
    exact ⟨hup'.trans hup, hpaused'.trans hpaused, hqueue'.trans hqueue⟩

/-- What waited at a port leaves, unless the port is held. -/
theorem flushPort_port (d : Device) (n : Nat) : ((d.flushPort n).port n).up = (d.port n).up ∧
    ((d.flushPort n).port n).paused = (d.port n).paused ∧ (d.portHeld n = false → ((d.flushPort n).port n).queue = []) := by
  unfold flushPort
  split
  case isTrue h => exact ⟨rfl, rfl, fun h' => absurd h (ne_true_of_eq_false h')⟩
  case isFalse h =>
    obtain ⟨hup, hpaused, hqueue⟩ := foldl_sendAt_keeps n _ (d.modPort n fun p => { p with queue := [] })
    refine ⟨hup.trans ?_, hpaused.trans ?_, fun _ => hqueue.trans ?_⟩ <;> simp

/-! ### Sessions that open and time out (R392, R396) -/

/-- Opening one session after another: a DOWN session that may open does. -/
theorem foldl_sessionOpen_opening {a j : Nat} (l : List Nat) {d : Device} (ho : Openable a j d)
    (hs : (d.binding j).state = .opening ∨ (d.binding j).state = .down ∧ j ∈ l) :
    ((l.foldl sessionOpen d).binding j).state = .opening := by
  induction l generalizing d with
  | nil => exact hs.resolve_right fun h => absurd h.2 List.not_mem_nil
  | cons k l ih =>
    rw [List.foldl_cons]
    refine ih (ho.sessionOpen k) ?_
    by_cases hk : k = j
    · subst hk
      rw [sessionOpen_binding_same ho]
      split
      case isTrue => exact .inl rfl
      case isFalse hne => exact hs.imp_right fun h => absurd h.1 hne
    · rw [sessionOpen_binding_ne d hk]
      exact hs.imp_right fun h => ⟨h.1, (List.mem_cons.1 h.2).resolve_left (Ne.symm hk)⟩

theorem foldl_sessionOpen_port (l : List Nat) (d : Device) (n : Nat) : (l.foldl sessionOpen d).port n = d.port n := by
  refine foldl_part (φ := fun d => d.port n) (fun x k => ?_) l d
  unfold sessionOpen
  dsimp only
  split <;> rfl

/-- The port of a link that comes up: what waited leaves. -/
def portUp (n : Nat) (d : Device) : Device :=
  (d.modPort n fun p => { p with up := true, fecLock := true, anDone := true, paused := p.paused }).flushPort n

theorem linkChange_up (n : Nat) (d : Device) : linkChange n true d = (List.range 64).foldl sessionOpen (portUp n d) := rfl

theorem portUp_up (n : Nat) (d : Device) : ((portUp n d).port n).up = true := by
  obtain ⟨hup, -⟩ := flushPort_port (d.modPort n fun p => { p with up := true, fecLock := true, anDone := true, paused := p.paused }) n
  exact hup.trans (by simp)

theorem portUp_part {β : Type} {φ : Device → β} (hp : ∀ d n v, φ (setPort d n v) = φ d) (he : ∀ d o, φ (emit d o) = φ d) (n : Nat)
    (d : Device) : φ (portUp n d) = φ d := (flushPort_part hp he ..).trans (hp ..)

theorem portUp_openable {b : Nat} (n : Nat) (hvalid : (d.binding b).valid = true)
    (hroute : (d.routePort (d.binding b).peer.toNat).isSome = true) (hrst : (d.pdk (d.binding b).pdk).rst = .running) :
    Openable (d.binding b).peer.toNat b (portUp n d) := by
  have hbinding : (portUp n d).binding b = d.binding b := portUp_part (φ := fun d => d.binding b) (fun _ _ _ => rfl) (fun _ _ => rfl) n d
  have hport : ∀ a, (portUp n d).routePort a = d.routePort a := fun a =>
    portUp_part (φ := fun d => d.routePort a) (fun _ _ _ => rfl) (fun _ _ => rfl) n d
  have hpdk : ∀ p, (portUp n d).pdk p = d.pdk p := fun p =>
    portUp_part (φ := fun d => d.pdk p) (fun _ _ _ => rfl) (fun _ _ => rfl) n d
  unfold Openable
  rw [hbinding, hport, hpdk]
  exact ⟨hvalid, rfl, hroute, hrst⟩

/-- A frame that is resent has its RTO doubled, up to 1 ms (R395). -/
theorem resendFrame_unacked (d : Device) (b : Nat) (u : Unacked) : ((d.resendFrame b u).binding b).unacked =
    (d.binding b).unacked.map fun y => if y.psn = u.psn then { y with last := d.now, rto := min 1000000 (2 * y.rto) } else y := by
  unfold resendFrame
  dsimp only
  rw [binding_sendFrame]
  split <;> simp

theorem retransmit_resends {psn : BitVec 24} {u : Unacked} (hup : (d.binding b).state = .up)
    (hsent : ((d.binding b).unacked.find? fun u => u.psn == psn) = some u) (hlate : u.last + u.rto ≤ d.now) :
    retransmit b psn d = d.resendFrame b u := by
  unfold retransmit
  dsimp only
  rw [hsent]
  exact if_pos ⟨hup, hlate⟩

theorem sessionDown_binding (d : Device) (b : Nat) (code : Code) : ((d.sessionDown b code).binding b).state = .down ∧
    ((d.sessionDown b code).binding b).unacked = [] ∧ ((d.sessionDown b code).binding b).owed = [] := by
  simp [sessionDown, clearSession]

/-- A session that times out is not UP, and nothing of it is outstanding (R396). -/
theorem timeoutSession_ends (hup : (d.binding b).state = .up)
    (hlate : ((d.binding b).unacked.any fun u => decide (u.first + d.linkTo ≤ d.now)) = true) :
    ((timeoutSession b d).binding b).state ≠ .up ∧ ((timeoutSession b d).binding b).unacked = [] ∧
      ((timeoutSession b d).binding b).owed = [] := by
  have hdown : ∃ ev, timeoutSession b d = ((d.sessionDown b 0x0403).postDev ev).sessionOpen b := ⟨_, if_pos ⟨hup, hlate⟩⟩
  obtain ⟨ev, hev⟩ := hdown
  obtain ⟨hstate, hunacked, howed⟩ := sessionDown_binding d b 0x0403
  rw [hev]
  unfold sessionOpen
  dsimp only
  rw [postDev_binding]
  split
  · rw [setBinding_binding_same]
    exact ⟨nofun, hunacked, howed⟩
  · rw [postDev_binding, hstate]
    exact ⟨nofun, hunacked, howed⟩

end Device

/-- Settles O46: an arriving frame acts in its session, and what it does there is the frame's own rule. -/
theorem linkResults : Obligations.LinkResults := by
  unfold Obligations.LinkResults
  refine ⟨?hello, ?write, ?readReq, ?readRsp, ?nak, ?muster, ?later, ?ack, ?forward, ?rxDrop, ?answers, ?pause, ?linkChange, ?owed,
    ?resend, ?timeout⟩
  case hello =>
    intro s n b f h
    obtain ⟨hn, -⟩ := Device.of_frameFor h
    have harrive := Device.arrive_goes h (.inl rfl) (Device.takeHello f)
    refine ⟨fun hopening hinc => ?_, fun hopening hinc => onUnit_of_eq hn (harrive.trans (Device.takeHello_heard hopening hinc)),
      fun hup hinc => onUnit_of_eq hn (harrive.trans (Device.takeHello_answers hup hinc))⟩
    have hsession := Device.takeHello_opens hopening hinc
    simp only [Device.session, Prod.mk.injEq] at hsession
    exact ⟨_, onUnit_of_eq hn harrive, hsession⟩
  case write =>
    intro s n b off f code h hpsn
    have hn := Device.upFrame_port h
    have happly : (s.dev.reached n b).applyFrame b f = (s.dev.reached n b).applyWrite b ((s.dev.reached n b).binding b).pdk f := by
      rw [Device.applyFrame, Device.upFrame_type h]
    exact ⟨fun hok => onUnit_of_eq hn (Device.arrive_inOrder h hpsn (happly.trans (Device.applyWrite_lands hok))),
      fun hbad => onUnit_of_eq hn (Device.arrive_inOrder h hpsn (happly.trans (Device.applyWrite_refused hbad)))⟩
  case readReq =>
    intro s n b off f code e bs h hpsn
    have hn := Device.upFrame_port h
    have happly : (s.dev.reached n b).applyFrame b f = (s.dev.reached n b).applyRead b ((s.dev.reached n b).binding b).pdk f := by
      rw [Device.applyFrame, Device.upFrame_type h]
    exact ⟨fun hok hread => onUnit_of_eq hn (Device.arrive_inOrder h hpsn (happly.trans (Device.applyRead_answers hok hread))),
      fun hbad => onUnit_of_eq hn (Device.arrive_inOrder h hpsn (happly.trans (Device.applyRead_refused hbad)))⟩
  case readRsp =>
    intro s n b i f p h hpsn hstays hread hpiece
    have hn := Device.upFrame_port h
    have happly : (s.dev.reached n b).applyFrame b f = (s.dev.reached n b).applyRsp b f := by
      rw [Device.applyFrame, Device.upFrame_type h]
      dsimp only
      rw [if_neg (by rw [Device.reached_removing, hstays]; exact Bool.false_ne_true)]
    have hrsp := happly.trans (Device.applyRsp_eq (d := s.dev.reached n b) (b := b) (f := f) (i := i) (x := p)
      (by rw [Device.reached_binding]; exact hread) hpiece)
    exact ⟨fun hcode => onUnit_of_eq hn (Device.arrive_inOrder h hpsn (hrsp.trans (if_pos hcode))),
      fun hcode hmore => onUnit_of_eq hn (Device.arrive_inOrder h hpsn
        (hrsp.trans ((if_neg (not_not.2 hcode)).trans (if_neg (Nat.not_le.2 hmore))))),
      fun hcode hdone => onUnit_of_eq hn (Device.arrive_inOrder h hpsn
        (hrsp.trans ((if_neg (not_not.2 hcode)).trans (if_pos hdone))))⟩
  case nak =>
    intro s n b i f u h hpsn hstays hsent hpiece
    have hn := Device.upFrame_port h
    have happly : (s.dev.reached n b).applyFrame b f = (s.dev.reached n b).applyNak b f := by
      rw [Device.applyFrame, Device.upFrame_type h]
      dsimp only
      rw [if_neg (by rw [Device.reached_removing, hstays]; exact Bool.false_ne_true)]
    exact onUnit_of_eq hn (Device.arrive_inOrder h hpsn (happly.trans
      (Device.applyNak_fails (by rw [Device.reached_binding]; exact hsent) hpiece)))
  case muster =>
    intro s n b j f v m r hpsn hstays hround hnumber
    have hpdk : ((s.dev.reached n b).binding b).pdk = (s.dev.binding b).pdk := by rw [Device.reached_binding]
    have hstays' : ¬ (s.dev.reached n b).removing ((s.dev.reached n b).binding b).pdk = true := by
      rw [Device.reached_removing, hstays]
      exact Bool.false_ne_true
    rw [← hpdk] at hround
    refine ⟨fun h hleads hnew => ?_, fun h hleads => ?_⟩
    · have happly : (s.dev.reached n b).applyFrame b f = (s.dev.reached n b).applyArrive ((s.dev.reached n b).binding b).pdk f := by
        rw [Device.applyFrame, Device.upFrame_type h]
        exact if_neg hstays'
      exact onUnit_of_eq (Device.upFrame_port h) (Device.arrive_inOrder h hpsn (happly.trans
        (Device.applyArrive_records hround hnumber hleads hnew)))
    · have happly : (s.dev.reached n b).applyFrame b f = (s.dev.reached n b).applyRelease ((s.dev.reached n b).binding b).pdk f := by
        rw [Device.applyFrame, Device.upFrame_type h]
        exact if_neg hstays'
      have hrelease := happly.trans (Device.applyRelease_eq hround hnumber hleads)
      exact ⟨fun hnow => onUnit_of_eq (Device.upFrame_port h) (Device.arrive_inOrder h hpsn (hrelease.trans (if_pos hnow))),
        fun hlater => onUnit_of_eq (Device.upFrame_port h) (Device.arrive_inOrder h hpsn (hrelease.trans (if_neg (Nat.not_le.2 hlater))))⟩
  case later =>
    intro s n b f hpsn
    have hgoes : ∀ t, s.dev.upFrame n b t f = true → n < 2 ∧
        Device.arrive n t f (fun d b => d.takeSequenced b f) s.dev = (s.dev.reached n b).takeSequenced b f := fun t h =>
      ⟨Device.upFrame_port h, Device.arrive_goes (Device.of_upFrame h).1 (.inr (Device.of_upFrame h).2) _⟩
    have hrx : ((s.dev.reached n b).binding b).rxExp = (s.dev.binding b).rxExp := by rw [Device.reached_binding]
    have hcase : ∀ {t : FrameType} {i : Instr},
        exec i s = onUnit 2 n s (Device.arrive n t f fun d b => d.takeSequenced b f) → s.dev.upFrame n b t f = true →
        let d := s.dev.reached n b
        let x := d.binding b
        (2 ^ 23 ≤ (f.psn - x.rxExp).toNat → exec i s = s.goes ((d.takeAck b f).sendAck b)) ∧
        ((f.psn - x.rxExp).toNat < 2 ^ 23 → (x.heldFrames.all fun g => g.psn != f.psn) = true →
          let e := d.setBinding b { x with heldFrames := x.heldFrames ++ [f] }
          exec i s = s.goes ((e.takeAck b f).sendAck b)) := by
      intro t i hexec h d x
      obtain ⟨hn, harrive⟩ := hgoes t h
      exact ⟨fun hlate => hexec.trans (onUnit_of_eq hn (harrive.trans (Device.takeSequenced_duplicate hlate))),
        fun hsoon hnew => hexec.trans (onUnit_of_eq hn (harrive.trans
          (Device.takeSequenced_holds (by rw [hrx]; exact hpsn) hsoon hnew)))⟩
    simp only [List.forall_mem_cons, List.not_mem_nil, false_implies, implies_true, and_true]
    exact ⟨hcase rfl, hcase rfl, hcase rfl, hcase rfl, hcase rfl, hcase rfl⟩
  case ack =>
    intro s n b f h
    obtain ⟨hfor, hup⟩ := Device.of_upFrame h
    have harrive := Device.arrive_goes hfor (.inr hup) (Device.takeAckFrame f)
    exact ⟨fun h0 => onUnit_of_eq (Device.upFrame_port h) (harrive.trans (Device.takeAckFrame_plain h0)),
      fun h1 => onUnit_of_eq (Device.upFrame_port h) (harrive.trans (Device.takeAckFrame_first h1))⟩
  case forward =>
    intro s n f hn haddr hdst hok
    have hgoes := Device.forward_eq (n := n) haddr hdst hok
    refine ⟨fun e hroute hne hhops => ⟨fun hroom => onUnit_of_eq hn (hgoes.trans ?_), fun hfull => onUnit_of_eq hn (hgoes.trans ?_)⟩,
      fun hdrop => onUnit_of_eq hn (hgoes.trans ?_)⟩
    · rw [hroute]
      dsimp only
      rw [if_neg (not_or.2 ⟨hne, hhops⟩), Device.received_fwdFill hne, if_neg (Nat.not_le.2 hroom)]
    · rw [hroute]
      dsimp only
      rw [if_neg (not_or.2 ⟨hne, hhops⟩), Device.received_fwdFill hne, if_pos hfull]
    · rcases hdrop with hnone | hback | hhops
      · rw [hnone]
      · rw [hback]
        exact if_pos (.inl rfl)
      · split
        · rfl
        · exact if_pos (.inr hhops)
  case rxDrop => exact fun s n hn => onUnit_of_eq hn rfl
  case answers =>
    intro s n ip ip6 hn hip hip6
    have hown : ∀ {w : Nat} {a x : BitVec w} {o : Out}, a ≠ 0 → Device.answerAt n (a == x && a != 0) o s.dev =
        if a = x then ((s.dev.received n).modPort n fun p => { p with txFrm := p.txFrm + 1 }).emit o else s.dev.received n := by
      intro w a x o ha
      rw [Device.answerAt_eq]
      by_cases hx : a = x
      · rw [if_pos hx, if_pos (Bool.and_eq_true_iff.2 ⟨beq_iff_eq.2 hx, bne_iff_ne.2 ha⟩)]
      · rw [if_neg hx, if_neg fun h => hx (beq_iff_eq.1 (Bool.and_eq_true_iff.1 h).1)]
    exact ⟨onUnit_of_eq hn (hown hip), onUnit_of_eq hn (hown hip6)⟩
  case pause =>
    intro s n hn
    obtain ⟨hup, hpaused, hqueue⟩ := Device.flushPort_port (s.dev.modPort n fun p => { p with paused := false }) n
    refine ⟨onUnit_of_eq hn rfl, _, onUnit_of_eq hn rfl, hpaused.trans (by simp), fun h => hqueue ?_⟩
    have hup' := hup.symm.trans h
    simp only [Device.portHeld, hup']
    simp
  case linkChange =>
    intro s n hn
    refine ⟨⟨_, onUnit_of_eq hn (Device.linkChange_up n s.dev), ?_, fun b hb => ?_⟩, _, onUnit_of_eq hn rfl, ?_⟩
    · dsimp only
      rw [Device.foldl_sessionOpen_port]
      exact Device.portUp_up n s.dev
    · intro x hvalid hdown hroute hrst
      have hbinding : (Device.portUp n s.dev).binding b = s.dev.binding b :=
        Device.portUp_part (φ := fun d => d.binding b) (fun _ _ _ => rfl) (fun _ _ => rfl) n s.dev
      have hmem : b ∈ List.range 64 := List.mem_range.2 hb
      have hopen := Device.portUp_openable n hvalid hroute hrst
      dsimp only
      exact Device.foldl_sessionOpen_opening _ hopen (.inr ⟨by rw [hbinding]; exact hdown, hmem⟩)
    · simp [Device.linkChange]
  case owed =>
    intro s b hb
    exact ⟨fun hvalid hopening => onUnit_of_eq hb (if_pos ⟨hvalid, hopening⟩), fun hup howed => onUnit_of_eq hb (if_pos ⟨hup, howed⟩)⟩
  case resend =>
    intro s b psn u hb hup hsent hlate
    have hpsn : u.psn = psn := by simpa using List.find?_some hsent
    refine ⟨_, onUnit_of_eq hb (Device.retransmit_resends hup hsent hlate), ?_⟩
    rw [← hpsn]
    exact Device.resendFrame_unacked ..
  case timeout =>
    intro s b hb hup hlate
    exact ⟨_, onUnit_next _ _ hb, Device.timeoutSession_ends hup hlate⟩

end Sys2Proof.Machine
end

section
/-! PROOF. What stopping work leaves alone, beyond what `Device.tenure` says: the resets, the start, the keys, the channels' and the
Stalls' states (spec 14: R443, R458, R459; spec 15: R470 to R476). -/

namespace Sys2Proof.Machine

namespace Device

/-! ### What the end of a Paddock's work leaves alone -/

/-- What resets and removals decide by and count, which no end of a Paddock's work touches: the fuses, the reset unit, the start,
the entropy source and its keys, each Paddock's entry but for its trace, each Paddock's resets, and the states of channels and
Stalls. -/
structure Docket where
  fuse : Config.Fuses
  resets : Resets
  boot : Boot
  entFail : Bool
  keyCount : Nat
  entry : Nat → PdkSec
  record : Nat → PdkRst × Code × Nat × List Nat × Nat × BitVec 8
  chan : Nat → ChanState
  stall : Nat → StallState

/-- What the reset unit records of a Paddock. -/
def resetRecord (k : Pdk) : PdkRst × Code × Nat × List Nat × Nat × BitVec 8 :=
  (k.rst, k.lastCause, k.resets, k.history, k.crashSeq, k.inc)

def docket (d : Device) : Docket where
  fuse := d.fuse
  resets := d.resets
  boot := d.boot
  entFail := d.sec.entFail
  keyCount := d.sec.keyCount
  entry p := { d.pdkSec p with trace := Trace.reset }
  record p := resetRecord (d.pdk p)
  chan n := (d.chan n).state
  stall s := (d.stall s).state

theorem docket_setPdk (d : Device) (p : Nat) (v : Pdk) (h : resetRecord v = resetRecord (d.pdk p)) :
    (d.setPdk p v).docket = d.docket := by
  have hr : ∀ q, resetRecord ((d.setPdk p v).pdk q) = resetRecord (d.pdk q) := fun q => by
    rw [setPdk, pdk, Table.get_set]
    split
    · next hq => exact hq ▸ h
    · rfl
  simp only [docket, hr]
  rfl

theorem docket_modPdk (d : Device) (p : Nat) (f : Pdk → Pdk) (h : ∀ x, resetRecord (f x) = resetRecord x) :
    (d.modPdk p f).docket = d.docket := docket_setPdk d p _ (h _)

theorem docket_setChan (d : Device) (n : Nat) (v : Chan) (h : v.state = (d.chan n).state) :
    (d.setChan n v).docket = d.docket := by
  have hr : ∀ q, ((d.setChan n v).chan q).state = (d.chan q).state := fun q => by
    rw [setChan, chan, Table.get_set]
    split
    · next hq => exact hq ▸ h
    · rfl
  simp only [docket, hr]
  rfl

theorem docket_modChan (d : Device) (n : Nat) (f : Chan → Chan) (h : ∀ x, (f x).state = x.state) :
    (d.modChan n f).docket = d.docket := docket_setChan d n _ (h _)

theorem docket_setStall (d : Device) (s : Nat) (v : Stall) (h : v.state = (d.stall s).state) :
    (d.setStall s v).docket = d.docket := by
  have hr : ∀ q, ((d.setStall s v).stall q).state = (d.stall q).state := fun q => by
    rw [setStall, stall, Table.get_set]
    split
    · next hq => exact hq ▸ h
    · rfl
  simp only [docket, hr]
  rfl

@[simp] theorem docket_setBinding (d : Device) (b : Nat) (v : Binding) : (setBinding d b v).docket = d.docket := rfl

@[simp] theorem docket_modBinding (d : Device) (b : Nat) (f : Binding → Binding) : (modBinding d b f).docket = d.docket := rfl

/-! The writes of single units. -/

@[simp] theorem docket_setCore (d : Device) (c : Nat) (v : Core) : (setCore d c v).docket = d.docket := rfl

@[simp] theorem docket_modCore (d : Device) (c : Nat) (f : Core → Core) : (modCore d c f).docket = d.docket := rfl

@[simp] theorem docket_setSlice (d : Device) (c : Nat) (v : Slice) : (setSlice d c v).docket = d.docket := rfl

@[simp] theorem docket_modSlice (d : Device) (c : Nat) (f : Slice → Slice) : (modSlice d c f).docket = d.docket := rfl

@[simp] theorem docket_setOutQueue (d : Device) (q : Nat) (v : OutQueue) : (setOutQueue d q v).docket = d.docket := rfl

@[simp] theorem docket_modOutQueue (d : Device) (q : Nat) (f : OutQueue → OutQueue) : (modOutQueue d q f).docket = d.docket := rfl

@[simp] theorem docket_setRing (d : Device) (n : Nat) (v : Ring) : (setRing d n v).docket = d.docket := rfl

@[simp] theorem docket_setVec (d : Device) (n : Nat) (v : Vec) : (setVec d n v).docket = d.docket := rfl

@[simp] theorem docket_setObj (d : Device) (i : Nat) (v : Obj) : (setObj d i v).docket = d.docket := rfl

@[simp] theorem docket_setFence (d : Device) (i : Nat) (v : Fence) : (setFence d i v).docket = d.docket := rfl

@[simp] theorem docket_setSeq (d : Device) (i : Nat) (v : Seq) : (setSeq d i v).docket = d.docket := rfl

@[simp] theorem docket_setWindow (d : Device) (w : Nat) (v : Window) : (setWindow d w v).docket = d.docket := rfl

@[simp] theorem docket_setPort (d : Device) (n : Nat) (v : Port) : (setPort d n v).docket = d.docket := rfl

@[simp] theorem docket_modPort (d : Device) (n : Nat) (f : Port → Port) : (modPort d n f).docket = d.docket := rfl

@[simp] theorem docket_setAlarm (d : Device) (n : Nat) (v : Alarm) : (setAlarm d n v).docket = d.docket := rfl

@[simp] theorem docket_setChannel (d : Device) (c ch : Nat) (v : Channel) : (setChannel d c ch v).docket = d.docket := rfl

@[simp] theorem docket_modChannel (d : Device) (c ch : Nat) (f : Channel → Channel) : (modChannel d c ch f).docket = d.docket := rfl

@[simp] theorem docket_setChute (d : Device) (c n : Nat) (v : Chute) : (setChute d c n v).docket = d.docket := rfl

@[simp] theorem docket_setJob (d : Device) (j : Nat) (v : Job) : (setJob d j v).docket = d.docket := rfl

@[simp] theorem docket_modJob (d : Device) (j : Nat) (f : Job → Job) : (modJob d j f).docket = d.docket := by
  unfold modJob
  split <;> simp

@[simp] theorem docket_emit (d : Device) (o : Out) : (emit d o).docket = d.docket := rfl

/-! Event records, alarms, fences and objects. -/

@[simp] theorem docket_raiseVector (d : Device) (v interval : Nat) :
    (raiseVector d v interval).docket = d.docket := by simp [raiseVector, apply_ite docket]

@[simp] theorem docket_postRing (d : Device) (n : Nat) (ev : EventRec) :
    (postRing d n ev).docket = d.docket := by simp [postRing, apply_ite docket]

@[simp] theorem docket_postQueue (d : Device) (ring : Nat) (ev : EventRec) :
    (postQueue d ring ev).docket = d.docket := by simp [postQueue, apply_ite docket]

@[simp] theorem docket_armSlot (d : Device) (n owner kind target cmp : Nat) (per : Nat) (ctx ring : Nat) :
    (armSlot d n owner kind target cmp per ctx ring).docket = d.docket := rfl

@[simp] theorem docket_freeAlarm (d : Device) (n : Nat) : (freeAlarm d n).docket = d.docket := rfl

@[simp] theorem docket_disarmAll (d : Device) (owner : Nat) :
    (disarmAll d owner).docket = d.docket := foldl_part (φ := docket) (fun _ _ => docket_freeAlarm ..) _ _

@[simp] theorem docket_fenceChanged (d : Device) (i : Nat) :
    (fenceChanged d i).docket = d.docket := by simp [fenceChanged, apply_ite docket]

@[simp] theorem docket_signalFence (d : Device) (i : Nat) (v : W64) : (signalFence d i v).1.docket = d.docket := by
  unfold signalFence
  dsimp only
  split
  · rfl
  · split
    · rfl
    · simp

@[simp] theorem docket_attachError (d : Device) (i : Nat) (code : Code) :
    (attachError d i code).docket = d.docket := by simp [attachError, apply_ite docket]

@[simp] theorem docket_attachTo (d : Device) (ctx : Nat) (h : W32) (code : Code) : (attachTo d ctx h code).docket = d.docket := by
  unfold attachTo
  split <;> simp

@[simp] theorem docket_reapFence (d : Device) (i : Nat) : (reapFence d i).docket = d.docket := by simp [reapFence, apply_ite docket]

@[simp] theorem docket_unrefFence (d : Device) (h : W32) : (unrefFence d h).docket = d.docket := by simp [unrefFence, apply_ite docket]

@[simp] theorem docket_dropWait (d : Device) (c : Nat) : (dropWait d c).docket = d.docket := by
  unfold dropWait
  split <;> simp

@[simp] theorem docket_clearRegion (d : Device) (c base : Nat) : (clearRegion d c base).docket = d.docket := rfl

@[simp] theorem docket_reapObj (d : Device) (i : Nat) : (reapObj d i).docket = d.docket := by
  unfold reapObj
  dsimp only
  split
  · have hs : ∀ l : List Nat, ({ d.setObj i { Obj.reset with gen := (d.obj i).gen + 1 } with
        sec := { (d.setObj i { Obj.reset with gen := (d.obj i).gen + 1 }).sec with sealedObjs := l } } : Device).docket = d.docket :=
      fun _ => rfl
    split
    · exact hs _
    · exact hs _
    · exact (docket_clearRegion ..).trans (hs _)
  · rfl

@[simp] theorem docket_unrefObj (d : Device) (i : Nat) : (unrefObj d i).docket = d.docket := by simp [unrefObj]

/-! Traces, windows, queues, pieces and channels. -/

@[simp] theorem docket_progress (d : Device) (p : Nat) : (progress d p).docket = d.docket := docket_modPdk _ _ _ fun _ => rfl

@[simp] theorem docket_freeRegions (d : Device) (c : Nat) (p : Region → Bool) : (freeRegions d c p).docket = d.docket := rfl

@[simp] theorem docket_winFlight (d : Device) (k : Nat) (f : Nat → Nat) : (winFlight d k f).docket = d.docket := rfl

@[simp] theorem docket_winClose (d : Device) (k : Nat) : (winClose d k).docket = d.docket := by simp [winClose, apply_ite docket]

@[simp] theorem docket_closeWindows (d : Device) (p : Nat → Window → Bool) :
    (closeWindows d p).docket = d.docket := by simp [closeWindows, tfoldl_part (φ := docket), apply_ite docket]

@[simp] theorem docket_modQueue (d : Device) (q : Nat) (f : Queue → Queue) : (modQueue d q f).docket = d.docket := by
  unfold modQueue
  split
  · exact docket_setStall _ _ _ rfl
  · rfl

@[simp] theorem docket_modCmd (d : Device) (q : Nat) (seq : W32) (f : Cmd → Cmd) :
    (modCmd d q seq f).docket = d.docket := by simp [modCmd]

@[simp] theorem docket_finishCmd (d : Device) (q : Nat) (seq : W32) (code : Code) (handle : W32) :
    (finishCmd d q seq code handle).docket = d.docket := by simp [finishCmd]

@[simp] theorem docket_setPiece (d : Device) (i : Nat) (v : Piece) : (setPiece d i v).docket = d.docket := rfl

@[simp] theorem docket_leaveSession (d : Device) (i : Nat) : (leaveSession d i).docket = d.docket := by
  refine foldl_part (φ := docket) (fun x b => ?_) _ _
  split
  · exact docket_modBinding ..
  · rfl

@[simp] theorem docket_dropPiece (d : Device) (i : Nat) : (dropPiece d i).docket = d.docket := by
  unfold dropPiece
  split
  · rfl
  · dsimp only
    split
    · exact (docket_winFlight ..).trans ((docket_leaveSession ..).trans (rfl))
    · exact (docket_leaveSession ..).trans (rfl)

@[simp] theorem docket_stopPieces (d : Device) (o : PieceOwner → Bool) : (stopPieces d o).docket = d.docket := by
  refine tfoldl_part (φ := docket) (fun x i p => ?_) _ _
  split
  · split <;> simp
  · rfl

@[simp] theorem docket_unbind (d : Device) (c ch : Nat) :
    (unbind d c ch).docket = d.docket := foldl_part (φ := docket) (fun _ _ => docket_modCore ..) _ _

@[simp] theorem docket_forgetSenders (d : Device) (p : Sender → Bool) : (forgetSenders d p).docket = d.docket := by
  unfold forgetSenders
  split
  · exact foldl_part (φ := docket) (fun _ _ => docket_modCore ..) _ _
  · rfl

@[simp] theorem docket_stopRing (c ch : Nat) (s : Device × Nat) (r : Ring4) : (stopRing c ch s r).1.docket = s.1.docket := by
  unfold stopRing
  exact (docket_setChute ..).trans (rfl)

@[simp] theorem docket_stopStream (d : Device) (c ch : Nat) : (stopStream d c ch).docket = d.docket := by
  have hr : ∀ (l : List Ring4) (x : Device × Nat), (l.foldl (stopRing c ch) x).1.docket = x.1.docket := fun l => by
    induction l with
    | nil => exact fun _ => rfl
    | cons r l ih => exact fun x => (ih _).trans (docket_stopRing ..)
  unfold stopStream
  extract_lets k
  split
  next e waste he =>
  have h := hr ((d.channel c ch).ring.toList ++ (d.channel c ch).olds) (d, 0)
  rw [he] at h
  exact (docket_modChannel ..).trans ((docket_unbind ..).trans h)

@[simp] theorem docket_stopChannel (d : Device) (c ch : Nat) : (stopChannel d c ch).docket = d.docket := by
  unfold stopChannel
  split
  · refine (docket_setChannel ..).trans ((rfl).trans (?_ : (((d.stopStream c ch).stopPieces
      (ofChannel c ch)).forgetSenders (· == .channel c ch)).docket = d.docket))
    simp
  · rfl

/-! Frames and sessions. -/

@[simp] theorem docket_sendAt (d : Device) (n : Nat) (fwd : Bool) (f : DroveFrame) : (sendAt d n fwd f).docket = d.docket := rfl

@[simp] theorem docket_putPort (d : Device) (n : Nat) (fwd : Bool) (f : DroveFrame) :
    (putPort d n fwd f).docket = d.docket := by simp [putPort, apply_ite docket]

@[simp] theorem docket_sendFrame (d : Device) (b : Nat) (f : DroveFrame) : (sendFrame d b f).docket = d.docket := by
  unfold sendFrame
  split
  · rfl
  · split
    · rfl
    · exact docket_putPort ..

@[simp] theorem docket_flushOwed (b n : Nat) (d : Device) : (flushOwed d b n).docket = d.docket := by
  induction n generalizing d with
  | zero => rfl
  | succ n ih =>
    unfold flushOwed
    dsimp only
    split
    · rfl
    · split
      · exact (ih _).trans ((docket_sendFrame ..).trans (docket_setBinding ..))
      · rfl

@[simp] theorem docket_sendSeq (d : Device) (b : Nat) (f : DroveFrame) :
    (sendSeq d b f).docket = d.docket := by simp [sendSeq, docket_setBinding]

/-! Power phases and Musters. -/

@[simp] theorem docket_learn (d : Device) (c : Nat) : (learn d c).docket = d.docket := by
  unfold learn
  dsimp only
  split
  · exact rfl
  · split
    · exact rfl
    · split <;> exact rfl

@[simp] theorem docket_lowerTo (d : Device) (s limit : Nat) : (lowerTo d s limit).docket = d.docket := rfl

@[simp] theorem docket_takeCommon (d : Device) (field leader at_ : Nat) : (takeCommon d field leader at_).docket = d.docket := by
  simp only [takeCommon, lowerTo]
  repeat' split
  all_goals rfl

@[simp] theorem docket_lowerCommon (d : Device) : (lowerCommon d).docket = d.docket := by
  simp only [lowerCommon, lowerTo]
  repeat' split
  all_goals rfl

@[simp] theorem docket_forgetAnnounced (d : Device) (c : Nat) : (forgetAnnounced d c).docket = d.docket := by
  unfold forgetAnnounced
  split
  next slot _ => exact docket_freeAlarm d slot
  next => rfl

@[simp] theorem docket_endPhase (d : Device) (c : Nat) : (endPhase d c).docket = d.docket := by simp [endPhase]

@[simp] theorem docket_freeMusterSlot (d : Device) (p : Nat) : (freeMusterSlot d p).docket = d.docket := by
  unfold freeMusterSlot
  split
  · split
    · exact docket_freeAlarm ..
    · rfl
  · rfl

@[simp] theorem docket_rearmMuster (d : Device) (p : Nat) : (rearmMuster d p).docket = d.docket := by
  unfold rearmMuster
  split
  · rfl
  · split
    · rfl
    · split <;> simp

@[simp] theorem docket_setRound (d : Device) (r : Round) : (setRound d r).docket = d.docket := rfl

@[simp] theorem docket_releaseCores (d : Device) (cores : List Nat) :
    (releaseCores d cores).docket = d.docket := by simp [releaseCores, foldl_part (φ := docket), apply_ite docket]

@[simp] theorem docket_releaseRound (d : Device) (j : Nat) (r : Round) :
    (releaseRound d j r).docket = d.docket := by simp [releaseRound, apply_ite docket]

@[simp] theorem docket_completeRound (d : Device) (j lead : Nat) (r : Round) :
    (completeRound d j lead r).docket = d.docket := by simp [completeRound, apply_ite docket]

@[simp] theorem docket_tryComplete (d : Device) (j id : Nat) : (tryComplete d j id).docket = d.docket := by
  unfold tryComplete
  split
  · split
    · rfl
    · split
      · rfl
      · split
        · exact docket_completeRound ..
        · split
          · refine foldl_part (φ := docket) (fun x y => ?_) _ _
            split
            · exact docket_completeRound ..
            · rfl
          · extract_lets release step f d1 d2
            have h1 : d1.docket = d.docket := foldl_part (φ := docket) (fun x a => by split <;> simp) _ _
            have h2 : d2.docket = d1.docket := by
              unfold d2
              split
              · exact docket_takeCommon ..
              · rfl
            split <;> simp [h1, h2]
  · rfl

@[simp] theorem docket_resumeRounds (d : Device) : (resumeRounds d).docket = d.docket := by
  exact (foldl_part (φ := docket) docket_rearmMuster _ _).trans (rfl)

@[simp] theorem docket_dropRounds (d : Device) (j p : Nat) : (dropRounds d j p).docket = d.docket := by
  refine (foldl_part (φ := docket) (fun x i => ?_) _ _).trans ((docket_rearmMuster ..).trans (rfl))
  split
  · exact docket_tryComplete ..
  · rfl

/-! Shares, tickets, sequences and jobs. -/

@[simp] theorem docket_setShare (d : Device) (p g : Nat) (v : Share) :
    (setShare d p g v).docket = d.docket := docket_modPdk _ _ _ fun _ => rfl

@[simp] theorem docket_chargeGroup (d : Device) (p g n : Nat) : (chargeGroup d p g n).docket = d.docket := by simp [chargeGroup]

@[simp] theorem docket_chargeStep (d : Device) (p : Nat) : (chargeStep d p).docket = d.docket := by
  unfold chargeStep
  split
  · rfl
  · dsimp only
    split
    · exact (docket_chargeGroup ..).trans (foldl_part (φ := docket) (fun _ _ => docket_chargeGroup ..) _ _)
    · exact foldl_part (φ := docket) (fun _ _ => docket_chargeGroup ..) _ _

@[simp] theorem docket_setSem (d : Device) (p n : Nat) (v : Sem) :
    (setSem d p n v).docket = d.docket := docket_modPdk _ _ _ fun _ => rfl

@[simp] theorem docket_releaseTicket (p n fuel : Nat) (d : Device) : (releaseTicket d p n fuel).docket = d.docket := by
  induction fuel generalizing d with
  | zero => rfl
  | succ fuel ih =>
    unfold releaseTicket
    split
    · rfl
    · dsimp only
      split
      · exact (ih _).trans ((docket_setSem ..).trans (docket_signalFence ..))
      · exact docket_signalFence ..

@[simp] theorem docket_dropTickets (d : Device) (j : Nat) (v : Job) :
    (dropTickets d j v).docket = d.docket := by simp [dropTickets, foldl_part (φ := docket)]

@[simp] theorem docket_seqIdle (d : Device) (i : Nat) :
    (seqIdle d i).docket = d.docket := by simp [seqIdle, foldl_part (φ := docket), apply_ite docket]

@[simp] theorem docket_leaveDone (d : Device) (i : Nat) : (leaveDone d i).docket = d.docket := by
  unfold leaveDone
  split <;> simp

@[simp] theorem docket_idleAll (d : Device) (p : Nat) (code : Code) :
    (idleAll d p code).docket = d.docket := by simp [idleAll, tfoldl_part (φ := docket), apply_ite docket]

@[simp] theorem docket_leaveCore (d : Device) (c : Nat) : (leaveCore d c).docket = d.docket := by
  unfold leaveCore
  extract_lets d1 d2 d3
  have h1 : d1.docket = d.docket := by simp [d1]
  have h2 : d2.docket = d1.docket := by simp [d2]
  have h3 : d3.docket = d2.docket := foldl_part (φ := docket) (fun _ _ => docket_modChannel ..) _ _
  exact (docket_modCore ..).trans ((docket_forgetSenders ..).trans (h3.trans (h2.trans h1)))

@[simp] theorem docket_freeJobRegions (d : Device) (j : Nat) :
    (freeJobRegions d j).docket = d.docket := foldl_part (φ := docket) (fun _ _ => docket_freeRegions ..) _ _

@[simp] theorem docket_calmCore (d : Device) (c : Nat) : (calmCore d c).docket = d.docket := rfl

@[simp] theorem docket_withdrawFor (d : Device) (j : Nat) :
    (withdrawFor d j).docket = d.docket := by simp [withdrawFor, foldl_part (φ := docket), tfoldl_part (φ := docket), apply_ite docket]

@[simp] theorem docket_lapseCommon (d : Device) (p : Nat) (v : Job) : (lapseCommon d p v).docket = d.docket := by
  unfold lapseCommon
  split <;> rfl

@[simp] theorem docket_endJob (d : Device) (j : Nat) (code : Code) : (endJob d j code).docket = d.docket := by
  unfold endJob
  split
  · rfl
  · next v hv =>
    extract_lets code d1 d2 d3 d4 d5 d6 d7 d8 d9 d10 d11 d12 d13
    have h1 : d1.docket = d.docket := foldl_part (φ := docket) (fun x c => by split <;> simp) _ _
    have h2 : d2.docket = d1.docket := rfl
    have h3 : d3.docket = d2.docket :=
      foldl_part (φ := docket) (fun x c => foldl_part (φ := docket) (fun _ _ => docket_modChannel ..) _ _) _ _
    have h4 : d4.docket = d3.docket := rfl
    have h10 : d10.docket = d4.docket := by simp [d10, d9, d8, d7, d6, d5]
    have h11 : d11.docket = d10.docket := (docket_resumeRounds _).trans (by rfl)
    have h12 : d12.docket = d11.docket := docket_freeMusterSlot ..
    have h13 : d13.docket = d12.docket := by
      unfold d13
      split
      · refine (docket_modPdk _ _ _ ?_).trans ((docket_idleAll ..).trans (docket_chargeStep ..))
        exact fun _ => rfl
      · rfl
    calc
      _ = d13.docket := docket_finishCmd ..
      _ = d10.docket := h13.trans (h12.trans h11)
      _ = d4.docket := h10
      _ = d.docket := h4.trans (h3.trans (h2.trans h1))

/-! Commands, traffic and the discard of a Paddock's work. -/

@[simp] theorem docket_postDev (d : Device) (ev : EventRec) : (postDev d ev).docket = d.docket := by simp [postDev]

@[simp] theorem docket_dropHolds (d : Device) (q : Nat) (seq : W32) : (dropHolds d q seq).docket = d.docket := rfl

@[simp] theorem docket_modStallQ (d : Device) (s : Nat) (f : Queue → Queue) : (modStallQ d s f).docket = d.docket :=
  docket_setStall _ _ _ rfl

@[simp] theorem docket_dropCommand (d : Device) (ctx queue : Nat) (m : Cmd) (code : Code) :
    (dropCommand d ctx queue m code).docket = d.docket := by simp [dropCommand, foldl_part (φ := docket), apply_ite docket]

@[simp] theorem docket_dropCommands (d : Device) (code : Code) (s : Nat) :
    (dropCommands d code s).docket = d.docket := by simp [dropCommands, foldl_part (φ := docket)]

@[simp] theorem docket_endJobs (d : Device) (p : Nat) (code : Code) : (endJobs d p code).docket = d.docket := by
  simp [endJobs, tfoldl_part (φ := docket), apply_ite docket]

@[simp] theorem docket_dropOutCommands (d : Device) (p : Nat) (code : Code) : (dropOutCommands d p code).docket = d.docket := by
  simp [dropOutCommands, foldl_part (φ := docket), tfoldl_part (φ := docket), apply_ite docket]

theorem docket_writePriv {d e : Device} {p P : Nat} {bs : List Byte} (h : d.writePriv p P bs = .inl e) : e.docket = d.docket := by
  unfold writePriv at h
  dsimp only at h
  split at h
  · cases h
  · cases h
    refine foldl_part (φ := docket) (fun _ _ => docket_modChan _ _ _ ?_) _ _
    exact fun _ => rfl

@[simp] theorem docket_privFail (d : Device) (p ctx q : Nat) (code : Code) : (privFail d p ctx q code).docket = d.docket := by
  unfold privFail
  exact (docket_postDev ..).trans (docket_modChan _ _ _ fun _ => rfl)

@[simp] theorem docket_completeBursts (d : Device) (p : Nat) : (completeBursts d p).docket = d.docket := by
  refine tfoldl_part (φ := docket) (fun x i v => ?_) _ _
  split
  · split
    next h => exact docket_writePriv h
    next => exact docket_privFail ..
  · rfl

@[simp] theorem docket_setSkid (d : Device) (c : Nat) (v : List SkidMsg) : (setSkid d c v).docket = d.docket := rfl

@[simp] theorem docket_dropTraffic (d : Device) (p : Nat) : (dropTraffic d p).docket = d.docket := by
  unfold dropTraffic
  extract_lets d1 d2 cs mine
  have h2 : d2.docket = d1.docket := by simp [d2, tfoldl_part (φ := docket), apply_ite docket]
  exact (foldl_part (φ := docket) (fun _ _ => docket_setSkid ..) _ _).trans (h2.trans (docket_completeBursts ..))

@[simp] theorem docket_outStall (d : Device) (s : Nat) : (outStall d s).docket = d.docket := by
  simp [outStall, apply_ite docket]

@[simp] theorem docket_winFree (d : Device) (k : Nat) : (winFree d k).docket = d.docket := by
  unfold winFree
  dsimp only
  split
  · rfl
  · split <;> simp

@[simp] theorem docket_freeWindows (d : Device) (p : Nat) : (freeWindows d p).docket = d.docket := by
  simp [freeWindows, tfoldl_part (φ := docket), apply_ite docket]

/-- The discard of a Paddock's work leaves what resets decide by (R471 step 3). -/
@[simp] theorem docket_discardPdk (d : Device) (p : Nat) (cause : Code) (seqno : Nat) :
    (discardPdk d p cause seqno).docket = d.docket := by simp [discardPdk, foldl_part (φ := docket)]

/-! The clear of a Paddock, and its objects. -/

@[simp] theorem docket_killObj (d : Device) (i : Nat) : (killObj d i).docket = d.docket := rfl

@[simp] theorem docket_killObjs (d : Device) (pdk : Nat) (p : Obj → Bool) : (killObjs d pdk p).docket = d.docket := by
  simp [killObjs, tfoldl_part (φ := docket), apply_ite docket]

@[simp] theorem docket_sessionOpen (d : Device) (b : Nat) : (sessionOpen d b).docket = d.docket := by
  simp [sessionOpen, apply_ite docket]

@[simp] theorem docket_openSessions (d : Device) (p : Nat) : (openSessions d p).docket = d.docket :=
  foldl_part (φ := docket) (fun _ _ => docket_sessionOpen ..) _ _

@[simp] theorem docket_dropSessions (d : Device) (p : Nat) : (dropSessions d p).docket = d.docket :=
  foldl_part (φ := docket) (fun _ _ => docket_modBinding ..) _ _

end Device

end Sys2Proof.Machine
end

section
/-! PROOF. The entropy source and the removal of a Paddock (spec 14: R439, R440, R443, R457 to R459; spec 18: R520). -/

namespace Sys2Proof.Machine

/-- A docket but for the states of the channels and the Stalls. -/
def Device.Docket.offUnits (t : Device.Docket) : Device.Docket := { t with chan := fun _ => .off, stall := fun _ => .free }

namespace Device

/-! ### What a docket tells -/

section
variable {d e : Device} (h : e.docket.offUnits = d.docket.offUnits)
include h

theorem entry_of_docket (p : Nat) : { e.pdkSec p with trace := Trace.reset } = { d.pdkSec p with trace := Trace.reset } :=
  congrFun (congrArg Docket.entry h) p

theorem phase_of_docket (p : Nat) : (e.pdkSec p).phase = (d.pdkSec p).phase := (PdkSec.mk.inj (entry_of_docket h p)).2.2.1

theorem record_of_docket (p : Nat) : resetRecord (e.pdk p) = resetRecord (d.pdk p) := congrFun (congrArg Docket.record h) p

theorem inc_of_docket (p : Nat) : (e.pdk p).inc = (d.pdk p).inc := congrArg (fun r => r.2.2.2.2.2) (record_of_docket h p)

theorem resets_of_record (p : Nat) : (e.pdk p).resets = (d.pdk p).resets := congrArg (fun r => r.2.2.1) (record_of_docket h p)

theorem crashSeq_of_docket (p : Nat) : (e.pdk p).crashSeq = (d.pdk p).crashSeq :=
  congrArg (fun r => r.2.2.2.2.1) (record_of_docket h p)

theorem resets_of_docket : e.resets = d.resets := congrArg Docket.resets h

theorem layout_of_docket (p : Nat) : e.layout p = d.layout p := (PdkSec.mk.inj (entry_of_docket h p)).1

theorem pdkPresent_of_docket (p : Nat) : e.pdkPresent p = d.pdkPresent p := by rw [pdkPresent, layout_of_docket h, pdkPresent]

theorem pairsInUse_of_docket : e.pairsInUse = d.pairsInUse := by
  rw [pairsInUse, show e.fuse = d.fuse from congrArg Docket.fuse h, show e.boot = d.boot from congrArg Docket.boot h, pairsInUse]

theorem coresOf_of_docket (p : Nat) : e.coresOf p = d.coresOf p := by
  simp only [coresOf, corePresent, pdkPresent_of_docket h, layout_of_docket h, pairsInUse_of_docket h]

theorem chansOf_of_docket (p : Nat) : e.chansOf p = d.chansOf p := by
  simp only [chansOf, pdkPresent_of_docket h, layout_of_docket h]

end

theorem stall_of_docket {d e : Device} (h : e.docket = d.docket) (s : Nat) : (e.stall s).state = (d.stall s).state :=
  congrFun (congrArg Docket.stall h) s

theorem chan_of_docket {d e : Device} (h : e.docket = d.docket) (n : Nat) : (e.chan n).state = (d.chan n).state :=
  congrFun (congrArg Docket.chan h) n

/-! ### Stalls fenced and freed -/

/-- A change that brings a Stall to one state brings every Stall of a list to it. -/
theorem foldl_modStall_state {f : Stall → Stall} {v : StallState} (hf : ∀ x, (f x).state = v) {st : Nat} (l : List Nat) {d : Device}
    (h : st ∈ l ∨ (d.stall st).state = v) : ((l.foldl (fun d s => d.modStall s f) d).stall st).state = v := by
  induction l generalizing d with
  | nil => exact h.resolve_left List.not_mem_nil
  | cons s l ih =>
    refine ih ?_
    dsimp only
    rw [modStall_eq, setStall_stall]
    split
    · exact .inr (hf _)
    · next hne =>
      refine h.imp_left fun hmem => ?_
      exact (List.mem_cons.1 hmem).resolve_left fun he => hne he.symm

theorem offUnits_foldl_modStall (f : Stall → Stall) (l : List Nat) (d : Device) :
    (l.foldl (fun d s => d.modStall s f) d).docket.offUnits = d.docket.offUnits :=
  foldl_part (φ := fun d => d.docket.offUnits) (g := fun d s => d.modStall s f) (fun _ _ => rfl) _ _

@[simp] theorem docket_disarmPens (l : List Nat) (d : Device) :
    (l.foldl (fun d c => d.modCore c fun k => { k with pn := disarm k.pn }) d).docket = d.docket :=
  foldl_part (φ := docket) (fun _ _ => docket_modCore ..) _ _

/-- What a fence does to the docket is what it does to the Stalls. -/
theorem fenceCommon_docket (d : Device) (p : Nat) : (d.fenceCommon p).docket =
    ((d.stallsOf p).foldl (fun d s => d.modStall s fun x => { x with state := .fenced, fencePosted := false }) d).docket := by
  refine (docket_closeWindows ..).trans ((docket_disarmAll ..).trans ((docket_modPdk _ _ _ ?_).trans (docket_disarmPens ..)))
  exact fun _ => rfl

theorem fenceCommon_stall {d : Device} {p st : Nat} (h : st ∈ d.stallsOf p) : ((d.fenceCommon p).stall st).state = .fenced := by
  rw [stall_of_docket (fenceCommon_docket d p)]
  refine foldl_modStall_state ?_ _ (.inl h)
  exact fun _ => rfl

theorem fenceCommon_offUnits (d : Device) (p : Nat) : (d.fenceCommon p).docket.offUnits = d.docket.offUnits := by
  rw [fenceCommon_docket, offUnits_foldl_modStall]

theorem freeStalls_stall {d : Device} {p st : Nat} (h : st ∈ d.stallsOf p) : ((d.freeStalls p).stall st).state = .free := by
  refine foldl_modStall_state ?_ _ (.inl h)
  exact fun _ => rfl

theorem freeStalls_offUnits (d : Device) (p : Nat) : (d.freeStalls p).docket.offUnits = d.docket.offUnits :=
  offUnits_foldl_modStall ..

theorem freeStalls_part {β : Type} {φ : Device → β} (hφ : ∀ d s v, φ (setStall d s v) = φ d) (d : Device) (p : Nat) :
    φ (d.freeStalls p) = φ d := by
  refine foldl_part (fun _ _ => ?_) _ _
  exact hφ ..

theorem stallsOf_of_stalls {d e : Device} (h : e.stalls = d.stalls) (p : Nat) : e.stallsOf p = d.stallsOf p := by
  simp only [stallsOf, stall, h]

/-! ### Keys (R439 to R443) -/

/-- The memory keys that Paddock `p` takes next. -/
def nextMemKey (d : Device) (p : Nat) : Nat :=
  if d.sessionNext p then if d.sec.entFail then 0 else 2 * (d.sec.keyCount + 1) else fusedKey p (d.pdkSec p).kgen

theorem modPdkSec_pdkSec_ne (d : Device) (f : PdkSec → PdkSec) {p q : Nat} (h : p ≠ q) :
    (d.modPdkSec p f).pdkSec q = d.pdkSec q := setPdkSec_pdkSec_ne _ _ _ h

/-- New memory keys: they are what the Paddock takes next, and nothing else of it, nor of another Paddock, changes. -/
theorem newMemKey_keys (d : Device) (p : Nat) : (d.newMemKey p).pdkSec p = { d.pdkSec p with memKey := d.nextMemKey p } ∧
    (d.newMemKey p).sec.entFail = d.sec.entFail ∧ (d.newMemKey p).sec.seedNum = d.sec.seedNum ∧
    ∀ q, p ≠ q → (d.newMemKey p).pdkSec q = d.pdkSec q := by
  unfold newMemKey nextMemKey
  by_cases hs : d.sessionNext p = true
  · rw [if_neg (by simp [hs]), if_pos hs]
    by_cases hf : d.sec.entFail = true
    · rw [if_pos hf, if_pos hf]
      exact ⟨modPdkSec_pdkSec_same .., rfl, rfl, fun _ hq => modPdkSec_pdkSec_ne _ _ hq⟩
    · rw [if_neg hf, if_neg hf]
      exact ⟨modPdkSec_pdkSec_same .., rfl, rfl, fun _ hq => modPdkSec_pdkSec_ne _ _ hq⟩
  · rw [if_pos (by simp [hs]), if_neg hs]
    exact ⟨modPdkSec_pdkSec_same .., rfl, rfl, fun _ hq => modPdkSec_pdkSec_ne _ _ hq⟩

theorem draw_pdkSec (d : Device) (q : Nat) : d.draw.1.pdkSec q = d.pdkSec q := rfl

theorem newIntake_failed {d : Device} (p : Nat) (hf : d.sec.entFail = true) :
    d.newIntake p = d.modPdkSec p fun x => { x with intakeKey := 0, bundles := [] } := if_pos hf

theorem newIntake_drawn {d : Device} (p : Nat) (hf : ¬ d.sec.entFail = true) :
    d.newIntake p = (d.modPdkSec p fun x => { x with intakeKey := 0, bundles := [] }).draw.1.modPdkSec p
      fun x => { x with intakeKey := d.sec.keyCount + 1 } := if_neg hf

/-- A new intake key pair: no bundle key stays, and nothing else of the Paddock, nor of another one, changes. -/
theorem newIntake_keys (d : Device) (p : Nat) :
    (d.newIntake p).pdkSec p = { d.pdkSec p with intakeKey := if d.sec.entFail then 0 else d.sec.keyCount + 1, bundles := [] } ∧
    (d.newIntake p).sec.entFail = d.sec.entFail ∧ (d.newIntake p).sec.seedNum = d.sec.seedNum ∧
    ∀ q, p ≠ q → (d.newIntake p).pdkSec q = d.pdkSec q := by
  by_cases hf : d.sec.entFail = true
  · rw [newIntake_failed p hf, if_pos hf]
    exact ⟨modPdkSec_pdkSec_same .., rfl, rfl, fun _ hq => modPdkSec_pdkSec_ne _ _ hq⟩
  · rw [newIntake_drawn p hf, if_neg hf, modPdkSec_pdkSec_same, draw_pdkSec, modPdkSec_pdkSec_same]
    refine ⟨rfl, rfl, rfl, fun q hq => ?_⟩
    rw [modPdkSec_pdkSec_ne _ _ hq, draw_pdkSec, modPdkSec_pdkSec_ne _ _ hq]

section
variable {β : Type} {φ : Device → β} (hφ : ∀ (d : Device) (v : Security), φ { d with sec := v } = φ d)
include hφ

/-- Keys are kept with the security state, and their installation changes nothing else. -/
theorem newMemKey_part (d : Device) (p : Nat) : φ (d.newMemKey p) = φ d := by
  unfold newMemKey
  split
  · exact hφ ..
  · split
    · exact hφ ..
    · exact (hφ d.draw.1 _).trans (hφ ..)

theorem newIntake_part (d : Device) (p : Nat) : φ (d.newIntake p) = φ d := by
  by_cases hf : d.sec.entFail = true
  · rw [newIntake_failed p hf]
    exact hφ ..
  · rw [newIntake_drawn p hf]
    exact (hφ (d.modPdkSec p _).draw.1 _).trans ((hφ (d.modPdkSec p _) _).trans (hφ ..))

end

/-! ### The entropy source (R439, R440, R520) -/

/-- The channels of a Paddock that had no keys train afresh. -/
theorem foldl_retrain_sec (l : List Nat) (d : Device) :
    (l.foldl (fun d n => (d.modChan n fun k => { k with written := none, copy := none }).beginTraining n) d).sec = d.sec :=
  foldl_part (φ := Device.sec)
    (g := fun d n => (d.modChan n fun k => { k with written := none, copy := none }).beginTraining n) (fun _ _ => rfl) _ _

theorem nextMemKey_ne_zero {d : Device} (p : Nat) (hf : d.sec.entFail = false) : d.nextMemKey p ≠ 0 := by
  unfold nextMemKey fusedKey
  rw [hf]
  split
  · simp
  · omega

/-- A Paddock that waited takes its keys; every other one keeps its own (R520). -/
theorem lateKeys_keys (d : Device) (p : Nat) (hf : d.sec.entFail = false) :
    (d.lateKeys p).sec.entFail = false ∧ (d.lateKeys p).sec.seedNum = d.sec.seedNum ∧ ((d.lateKeys p).pdkSec p).memKey ≠ 0 ∧
    ∀ q, p ≠ q → (d.lateKeys p).pdkSec q = d.pdkSec q := by
  unfold lateKeys
  extract_lets d1
  have h1 : d1.sec.entFail = false ∧ d1.sec.seedNum = d.sec.seedNum ∧ ∀ q, p ≠ q → d1.pdkSec q = d.pdkSec q := by
    unfold d1
    split
    · obtain ⟨-, hfail, hseed, hne⟩ := newIntake_keys d p
      exact ⟨hfail.trans hf, hseed, hne⟩
    · exact ⟨hf, rfl, fun _ _ => rfl⟩
  obtain ⟨hfail, hseed, hne⟩ := h1
  split
  · next hkey => exact ⟨hfail, hseed, hkey, hne⟩
  · obtain ⟨hkeys, hfail', hseed', hne'⟩ := newMemKey_keys d1 p
    have hsec := fun l => foldl_retrain_sec l (d1.newMemKey p)
    simp only [pdkSec] at hkeys hne' hne ⊢
    rw [hsec, hkeys, hfail', hseed']
    exact ⟨hfail, hseed, nextMemKey_ne_zero p hfail, fun q hq => (hne' q hq).trans (hne q hq)⟩

theorem foldl_lateKeys (l : List Nat) {d : Device} (hf : d.sec.entFail = false) :
    (l.foldl lateKeys d).sec.entFail = false ∧ (l.foldl lateKeys d).sec.seedNum = d.sec.seedNum ∧
    ∀ p, p ∈ l ∨ (d.pdkSec p).memKey ≠ 0 → ((l.foldl lateKeys d).pdkSec p).memKey ≠ 0 := by
  induction l generalizing d with
  | nil => exact ⟨hf, rfl, fun p h => h.resolve_left List.not_mem_nil⟩
  | cons q l ih =>
    obtain ⟨hfail, hseed, hkey, hne⟩ := lateKeys_keys d q hf
    obtain ⟨hfail', hseed', hkeys⟩ := ih hfail
    refine ⟨hfail', hseed'.trans hseed, fun p h => hkeys p ?_⟩
    by_cases hq : q = p
    · exact .inr (hq ▸ hkey)
    · rw [hne p hq]
      exact h.imp_left fun hmem => (List.mem_cons.1 hmem).resolve_left fun he => hq he.symm

/-- The 1,024th good sample in a row: the DRBG is seeded, and the Paddocks that waited take their keys (R440, R520). -/
theorem entropySample_recovers {d : Device} (hr : d.boot.released = true) (hf : d.sec.entFail = true) (hrun : d.sec.goodRun + 1 = 1024) :
    (d.entropySample true).sec.entFail = false ∧ (d.entropySample true).sec.seedNum = d.sec.seedNum + 1 ∧
    (6 ≤ d.boot.stage → d.boot.stage ≠ 9 → ∀ p ∈ d.pdksPresent, ((d.entropySample true).pdkSec p).memKey ≠ 0) := by
  unfold entropySample
  rw [if_neg (by simp [hr]), if_neg (by simp), if_neg (by simp [hf])]
  extract_lets d1 d2
  rw [if_neg (show ¬ d1.sec.goodRun < 1024 from Nat.not_lt.2 hrun.ge)]
  obtain ⟨hfail, hseed, hkeys⟩ := foldl_lateKeys d2.pdksPresent (d := d2) rfl
  split
  · exact ⟨hfail, hseed, fun _ _ p hp => hkeys p (.inl hp)⟩
  · next hno => exact ⟨rfl, rfl, fun h6 h9 => absurd ⟨h6, h9⟩ hno⟩

theorem entropySample_fails {d : Device} (hr : d.boot.released = true) :
    (d.entropySample false).sec = { d.sec with entFail := true, goodRun := 0, failCnt := satNat 16 (d.sec.failCnt + 1) } := by
  unfold entropySample
  rw [if_neg (by simp [hr]), if_pos (by simp)]
  extract_lets s e
  split
  · rfl
  · exact platform_sec ..

/-! ### A removal is asked for, and its keys are retired (R443, R458, R460) -/

/-- A removal begins: its phase is FENCED, and so are the Paddock's Stalls. -/
theorem beginRemoval_begins (d : Device) (p : Nat) : ((d.beginRemoval p).pdkSec p).phase = .fenced ∧
    ∀ st ∈ d.stallsOf p, ((d.beginRemoval p).stall st).state = .fenced := by
  have hdocket : (d.beginRemoval p).docket =
      ((d.fenceCommon p).modPdkSec p fun x => { x with phase := .fenced, rmvWaits := false }).docket := by
    simp only [beginRemoval, docket_idleAll, docket_endJobs, docket_dropOutCommands]
    exact foldl_part (φ := docket) (fun _ _ => docket_dropCommands ..) _ _
  constructor
  · rw [phase_of_docket (congrArg Docket.offUnits hdocket), modPdkSec_pdkSec_same]
  · intro st hst
    exact (stall_of_docket hdocket st).trans (fenceCommon_stall hst)

section
variable {d : Device} {p : Nat} (hp : d.pdkPresent p = true) (hphase : (d.pdkSec p).phase = .none) (hbar : d.removalBarred p = false)
include hp hphase hbar

theorem requestRemoval_fences (hdev : d.glb.devState = 1) (hrst : (d.pdk p).rst ≠ .fenced) :
    ((d.requestRemoval p).pdkSec p).phase = .fenced ∧ ∀ st ∈ d.stallsOf p, ((d.requestRemoval p).stall st).state = .fenced := by
  rw [requestRemoval, if_neg (by simp [hp, hphase, hbar, hdev]), if_neg (by simp [hdev]), if_neg hrst]
  exact beginRemoval_begins (d.modPdk p fun k => { k with rst := if k.rst = .retraining then .running else k.rst }) p

theorem requestRemoval_waits (hdev : d.glb.devState = 1) (hrst : (d.pdk p).rst = .fenced) :
    d.requestRemoval p = d.setPdkSec p { d.pdkSec p with rmvWaits := true } := by
  rw [requestRemoval, if_neg (by simp [hp, hphase, hbar, hdev]), if_neg (by simp [hdev]), if_pos hrst]
  rfl

theorem requestRemoval_pending (hdev : d.glb.devState = 2) :
    d.requestRemoval p = d.setPdkSec p { d.pdkSec p with phase := .pending } := by
  rw [requestRemoval, if_neg (by simp [hp, hphase, hbar, hdev]), if_pos hdev]
  rfl

end

theorem requestRemoval_twice {d : Device} {p : Nat} (hphase : (d.pdkSec p).phase ≠ .none) : d.requestRemoval p = d :=
  if_pos (by simp [hphase])

/-- A Paddock whose traffic is dropped, its key generation advanced where its keys are FUSED (R443). -/
def retiredGen (d : Device) (p : Nat) : Device :=
  if (d.layout p).session then d.dropTraffic p else (d.dropTraffic p).modPdkSec p fun x => { x with kgen := x.kgen + 1 }

theorem outOfService_pdkSec (d : Device) (p : Nat) : (d.outOfService p).pdkSec p = d.pdkSec p := by
  unfold outOfService
  rw [postDev_pdkSec, modPdk_eq, setPdk_pdkSec]
  exact freeStalls_part (φ := fun d => d.pdkSec p) (fun _ _ _ => rfl) ..

theorem outOfService_rst (d : Device) (p : Nat) : ((d.outOfService p).pdk p).rst = .outOfService := by
  unfold outOfService
  rw [postDev_pdk, modPdk_eq, setPdk_pdk_same]

section
variable {d : Device} {p : Nat} {flash : FlashStatus} (hphase : (d.pdkSec p).phase = .fenced ∨ (d.pdkSec p).phase = .pending)
  (hdev : d.glb.devState = 1) (hbar : d.removalBarred p = false)
include hphase hdev hbar

theorem removalRetire_goes : ¬ (!((d.pdkSec p).phase == .fenced || (d.pdkSec p).phase == .pending) || d.glb.devState != 1 ||
    d.removalBarred p) = true := by
  rcases hphase with h | h <;> simp [h, hdev, hbar]

omit hphase hdev in
/-- The drain leaves what the keys of the removal depend on, and FUSED keys advance their generation. -/
theorem retiredGen_keys :
    ((d.retiredGen p).pdkSec p).kgen = (if (d.layout p).session then (d.pdkSec p).kgen else (d.pdkSec p).kgen + 1) ∧
    (d.retiredGen p).nextMemKey p =
      if d.sessionNext p then 2 * (d.sec.keyCount + 1) else fusedKey p ((d.retiredGen p).pdkSec p).kgen := by
  have hdocket : (d.dropTraffic p).docket = d.docket := docket_dropTraffic ..
  obtain ⟨hlayout, hnew, -, -, -, -, hkgen, -⟩ := PdkSec.mk.inj (entry_of_docket (congrArg Docket.offUnits hdocket) p)
  have hfail : (d.dropTraffic p).sec.entFail = d.sec.entFail := congrArg Docket.entFail hdocket
  have hcount : (d.dropTraffic p).sec.keyCount = d.sec.keyCount := congrArg Docket.keyCount hdocket
  have hnext : (d.retiredGen p).sessionNext p = d.sessionNext p ∧ (d.retiredGen p).sec.entFail = d.sec.entFail ∧
      (d.retiredGen p).sec.keyCount = d.sec.keyCount := by
    unfold retiredGen sessionNext layout
    split
    · rw [hlayout, hnew]
      exact ⟨rfl, hfail, hcount⟩
    · rw [modPdkSec_pdkSec_same]
      dsimp only
      rw [hlayout, hnew]
      exact ⟨rfl, hfail, hcount⟩
  obtain ⟨hsession, hfail, hcount⟩ := hnext
  constructor
  · unfold retiredGen
    split
    · exact hkgen
    · rw [modPdkSec_pdkSec_same]
      exact congrArg (· + 1) hkgen
  · unfold nextMemKey
    rw [hsession, hfail, hcount]
    split
    · next hs => rw [if_neg (by simpa [removalBarred, hs] using hbar)]
    · rfl

/-- The keys of a removal: the Paddock's own are retired, and it takes the next ones (R443). -/
theorem removalRetire_retires (hok : (d.layout p).session = true ∨ flash = .ok) :
    ((d.removalRetire p flash).pdkSec p).phase = .retiring ∧ ((d.removalRetire p flash).pdkSec p).bundles = [] ∧
    ((d.removalRetire p flash).pdkSec p).kgen =
      (if (d.layout p).session then (d.pdkSec p).kgen else (d.pdkSec p).kgen + 1) ∧
    ((d.removalRetire p flash).pdkSec p).memKey =
      if d.sessionNext p then 2 * (d.sec.keyCount + 1) else fusedKey p ((d.removalRetire p flash).pdkSec p).kgen := by
  have hnot : ¬ (!(d.pdkSec p).layout.session && flash != .ok) = true := by
    rcases hok with h | h
    · simp [show (d.pdkSec p).layout.session = true from h]
    · simp [h]
  have heq : d.removalRetire p flash =
      (((d.retiredGen p).newMemKey p).newIntake p).modPdkSec p fun x => { x with phase := .retiring } :=
    (if_neg (removalRetire_goes hphase hdev hbar)).trans (if_neg hnot)
  obtain ⟨hkgen, hkey⟩ := retiredGen_keys hbar
  rw [heq, modPdkSec_pdkSec_same, (newIntake_keys _ p).1, (newMemKey_keys _ p).1]
  exact ⟨rfl, rfl, hkgen, hkey⟩

/-- A flash that refuses the key record takes the Paddock out of service (R443). -/
theorem removalRetire_refused (hfused : (d.layout p).session = false) (hflash : flash ≠ .ok) :
    ((d.removalRetire p flash).pdkSec p).phase = .none ∧ ((d.removalRetire p flash).pdk p).rst = .outOfService := by
  have hrefused : (!(d.pdkSec p).layout.session && flash != .ok) = true := by
    simp [show (d.pdkSec p).layout.session = false from hfused, hflash]
  have heq : d.removalRetire p flash =
      ((d.dropTraffic p).modPdkSec p fun x => { x with phase := .none, newLayout := none }).outOfService p :=
    (if_neg (removalRetire_goes hphase hdev hbar)).trans (if_pos hrefused)
  rw [heq, outOfService_pdkSec, modPdkSec_pdkSec_same]
  exact ⟨rfl, outOfService_rst ..⟩

end

/-! ### The scrub (R458) -/

/-- A core at its reset values, its slice changed by `f` and its frames gone. -/
def wipeCore (f : Slice → Slice) (d : Device) (c : Nat) : Device :=
  { (d.setCore c Core.reset).setSlice c (f (d.slice c)) with saved := Table.erase d.saved c }

/-- Core `c` is at its reset values, and its slice holds nothing. -/
def Wiped (d : Device) (c : Nat) : Prop :=
  d.core c = Core.reset ∧ (d.slice c).data = [] ∧ (d.slice c).regions = [] ∧ (d.slice c).merge = []

theorem wiped_of_same {d e : Device} {c : Nat} (hcore : e.core c = d.core c) (hslice : e.slice c = d.slice c) (h : Wiped d c) :
    Wiped e c := by
  unfold Wiped at h ⊢
  rwa [hcore, hslice]

section
variable {f : Slice → Slice} (hf : ∀ s, (f s).data = [] ∧ (f s).regions = [] ∧ (f s).merge = [])
include hf

theorem wipeCore_wiped {d : Device} {k c : Nat} (h : c = k ∨ Wiped d c) : Wiped (wipeCore f d k) c := by
  by_cases hk : c = k
  · subst hk
    have hslice : (wipeCore f d c).slice c = f (d.slice c) := setSlice_slice_same ..
    refine ⟨setCore_core_same d c Core.reset, ?_⟩
    rw [hslice]
    exact hf _
  · have hne : k ≠ c := Ne.symm hk
    exact wiped_of_same (d := d) (setCore_core_ne d k Core.reset hne)
      (setSlice_slice_ne (d.setCore k Core.reset) k (f (d.slice k)) hne) (h.resolve_left hk)

theorem foldl_wipeCore_wiped {c : Nat} (l : List Nat) {d : Device} (h : c ∈ l ∨ Wiped d c) : Wiped (l.foldl (wipeCore f) d) c := by
  induction l generalizing d with
  | nil => exact h.resolve_left List.not_mem_nil
  | cons k l ih =>
    rw [List.foldl_cons]
    refine ih ?_
    rcases h with h | h
    · rcases List.mem_cons.1 h with hk | hl
      · exact .inr (wipeCore_wiped hf (.inl hk))
      · exact .inl hl
    · exact .inr (wipeCore_wiped hf (.inr h))

end

/-- A change of a slice's regions leaves a wiped core wiped. -/
theorem mapRegions_wiped {d : Device} {c : Nat} (k : Nat) (g : Region → Region) (h : Wiped d c) :
    Wiped (d.modSlice k fun s => { s with regions := Table.mapVals s.regions g }) c := by
  by_cases hk : k = c
  · subst hk
    obtain ⟨hcore, hdata, hregions, hmerge⟩ := h
    refine ⟨hcore, ?_⟩
    rw [modSlice_eq, setSlice_slice_same]
    exact ⟨hdata, by rw [hregions]; rfl, hmerge⟩
  · exact wiped_of_same (d := d) rfl (setSlice_slice_ne d k _ hk) h

theorem clearRegion_wiped {d : Device} {c : Nat} (k base : Nat) (h : Wiped d c) : Wiped (d.clearRegion k base) c :=
  mapRegions_wiped (d := { d with windows := Table.mapVals d.windows _ }) k _ h

theorem reapObj_wiped {d : Device} {c : Nat} (i : Nat) (h : Wiped d c) : Wiped (d.reapObj i) c := by
  unfold reapObj
  extract_lets o e f
  split
  · have hf : Wiped f c := wiped_of_same (d := d) rfl rfl h
    split
    · exact hf
    · exact wiped_of_same (d := f) rfl rfl hf
    · exact clearRegion_wiped _ _ hf
  · exact h

theorem winFree_wiped {d : Device} {c : Nat} (w : Nat) (h : Wiped d c) : Wiped (d.winFree w) c := by
  unfold winFree
  dsimp only
  split
  · exact h
  · split
    · exact reapObj_wiped _ (wiped_of_same (d := d) rfl rfl h)
    · exact wiped_of_same (d := d) rfl rfl h

theorem freeWindows_wiped {d : Device} {c : Nat} (p : Nat) (h : Wiped d c) : Wiped (d.freeWindows p) c := by
  unfold freeWindows Table.foldl
  generalize d.windows = l
  induction l generalizing d with
  | nil => exact h
  | cons kv l ih =>
    refine ih ?_
    dsimp only
    split
    · exact winFree_wiped _ h
    · exact h

theorem reapObj_pdks (d : Device) (i : Nat) : (d.reapObj i).pdks = d.pdks := by
  unfold reapObj
  dsimp only
  split
  · split <;> rfl
  · rfl

theorem winFree_pdks (d : Device) (k : Nat) : (d.winFree k).pdks = d.pdks := by
  unfold winFree
  dsimp only
  split
  · rfl
  · split
    · exact reapObj_pdks ..
    · rfl

theorem freeWindows_pdks (d : Device) (p : Nat) : (d.freeWindows p).pdks = d.pdks := by
  refine tfoldl_part (φ := Device.pdks) (fun x k _ => ?_) _ _
  split
  · exact winFree_pdks ..
  · rfl

/-- The Paddock's cores, Drover, copies of translations and windows after the scrub. -/
def scrubbed (d : Device) (p : Nat) : Device :=
  ((((d.coresOf p).foldl (wipeCore scrubbedSlice) d).modPdk p scrubbedDrover).dropAtc p).freeWindows p

/-- No queue of the Paddock is watched. -/
def unwatched (d : Device) (p : Nat) : Device :=
  Table.foldl d.queues (fun d n o => if o.q.paddock == p then d.modOutQueue n fun o => { o with watch := none } else d) d

theorem unwatched_part {β : Type} {φ : Device → β} (hφ : ∀ d n v, φ (setOutQueue d n v) = φ d) (d : Device) (p : Nat) :
    φ (d.unwatched p) = φ d := by
  refine tfoldl_part (fun x n o => ?_) _ _
  split
  · exact hφ ..
  · rfl

theorem removalScrub_eq {d : Device} {p : Nat} (h : (d.pdkSec p).phase = .retiring) : d.removalScrub p =
    { ((d.scrubbed p).unwatched p).modPdkSec p fun x => { x with phase := .scrubbing } with
      segs := Table.keep ((d.scrubbed p).unwatched p).segs fun k _ => k / 256 != p
      power := { ((d.scrubbed p).unwatched p).power with
        phases := Table.keep ((d.scrubbed p).unwatched p).power.phases fun _ e => e.pdk != p
        defaults := Table.erase ((d.scrubbed p).unwatched p).power.defaults p } } :=
  if_neg (not_not.2 h)

theorem scrubbed_wiped {d : Device} {p c : Nat} (hc : c ∈ d.coresOf p) : Wiped (d.scrubbed p) c := by
  have hwipe : Wiped ((d.coresOf p).foldl (wipeCore scrubbedSlice) d) c :=
    foldl_wipeCore_wiped (fun _ => ⟨rfl, rfl, rfl⟩) _ (.inl hc)
  exact freeWindows_wiped p (wiped_of_same (d := (d.coresOf p).foldl (wipeCore scrubbedSlice) d) rfl rfl hwipe)

theorem scrubbed_sems (d : Device) (p : Nat) : ((d.scrubbed p).pdk p).sems = [] := by
  have hpdks : (d.scrubbed p).pdk p = (((d.coresOf p).foldl (wipeCore scrubbedSlice) d).modPdk p scrubbedDrover).pdk p :=
    congrArg (Table.get · Pdk.reset p) (freeWindows_pdks ..)
  rw [hpdks, modPdk_eq, setPdk_pdk_same]
  rfl

theorem find_keep_none {α : Type} (t : Table α) {q : Nat → α → Bool} {k : Nat} (h : ∀ v, q k v = false) :
    Table.find (Table.keep t q) k = none := by
  induction t with
  | nil => rfl
  | cons kv t ih =>
    unfold Table.keep at ih ⊢
    rw [List.filter_cons]
    split
    · next hq =>
      have hne : kv.1 ≠ k := fun he => by simp [he ▸ h] at hq
      rw [Table.find, if_neg hne, ih]
    · exact ih

/-- The scrub leaves nothing of the Paddock in cores, slices, segments, semaphores and power phases (R458). -/
theorem removalScrub_scrubs {d : Device} {p : Nat} (h : (d.pdkSec p).phase = .retiring) :
    ((d.removalScrub p).pdkSec p).phase = .scrubbing ∧ (∀ c ∈ d.coresOf p, Wiped (d.removalScrub p) c) ∧
    (∀ k, k / 256 = p → Table.find (d.removalScrub p).segs k = none) ∧ ((d.removalScrub p).pdk p).sems = [] ∧
    ∀ kv ∈ (d.removalScrub p).power.phases, kv.2.pdk ≠ p := by
  have hcores : ∀ c ∈ d.coresOf p, Wiped ((d.scrubbed p).unwatched p) c := fun c hc =>
    wiped_of_same (unwatched_part (φ := fun d => d.core c) (fun _ _ _ => rfl) (d.scrubbed p) p)
      (unwatched_part (φ := fun d => d.slice c) (fun _ _ _ => rfl) (d.scrubbed p) p) (scrubbed_wiped hc)
  have hsems : (((d.scrubbed p).unwatched p).pdk p).sems = [] :=
    (congrArg Pdk.sems (unwatched_part (φ := fun d => d.pdk p) (fun _ _ _ => rfl) (d.scrubbed p) p)).trans (scrubbed_sems ..)
  rw [removalScrub_eq h]
  generalize (d.scrubbed p).unwatched p = e at hcores hsems ⊢
  refine ⟨?phase, fun c hc => wiped_of_same (d := e) rfl rfl (hcores c hc), fun k hk => ?segs, hsems, fun kv hkv => ?phases⟩
  case phase => exact congrArg PdkSec.phase (modPdkSec_pdkSec_same e p fun x => { x with phase := .scrubbing })
  case segs => exact find_keep_none e.segs (q := fun k _ => k / 256 != p) fun _ => by simp [hk]
  case phases => simpa using (List.mem_filter.1 hkv).2

/-! ### The end of a removal (R458, R459) -/

@[simp] theorem docket_killSync (d : Device) (p : Nat) : (d.killSync p).docket = d.docket := by
  simp [killSync, tfoldl_part (φ := docket), apply_ite docket]

@[simp] theorem docket_forgetQueues (d : Device) (p : Nat) : (d.forgetQueues p).docket = d.docket := by
  simp [forgetQueues, tfoldl_part (φ := docket), apply_ite docket]

@[simp] theorem docket_auditRule (d : Device) (p : Nat) : (d.auditRule p).docket = d.docket := by
  unfold auditRule
  split
  · rfl
  · exact foldl_part (φ := docket) (fun _ _ => docket_modSlice ..) _ _

section
variable {β : Type} {φ : Device → β}

theorem killObjs_part (hobj : ∀ d i v, φ (setObj d i v) = φ d) (hsec : ∀ (d : Device) v, φ { d with sec := v } = φ d)
    (d : Device) (pdk : Nat) (p : Obj → Bool) : φ (d.killObjs pdk p) = φ d := by
  refine tfoldl_part (fun x i o => ?_) _ _
  split
  · exact (hsec (x.setObj i _) _).trans (hobj ..)
  · rfl

theorem killSync_part (hfence : ∀ d i v, φ (setFence d i v) = φ d) (hseq : ∀ d i v, φ (setSeq d i v) = φ d)
    (d : Device) (p : Nat) : φ (d.killSync p) = φ d := by
  unfold killSync
  refine (tfoldl_part (φ := φ) (fun x i q => ?_) _ _).trans (tfoldl_part (φ := φ) (fun x i f => ?_) _ _)
  · split
    · exact hseq ..
    · rfl
  · split
    · exact hfence ..
    · rfl

theorem forgetQueues_part (hout : ∀ d o, φ (emit d o) = φ d) (hqueue : ∀ d n v, φ (setOutQueue d n v) = φ d)
    (d : Device) (p : Nat) : φ (d.forgetQueues p) = φ d := by
  refine tfoldl_part (fun x n o => ?_) _ _
  split
  · exact (hqueue ..).trans (hout ..)
  · rfl

theorem settleChans_part (hchan : ∀ d n v, φ (setChan d n v) = φ d) (d : Device) : φ d.settleChans = φ d := by
  refine foldl_part (fun x n => ?_) _ _
  split
  · exact hchan ..
  · split
    · exact hchan ..
    · rfl

end

/-- A Paddock whose objects, fences, sequences and queues are gone, its Stalls FREE. -/
def emptiedPdk (d : Device) (p : Nat) : Device := (((d.killObjs p fun _ => true).killSync p).forgetQueues p).freeStalls p

theorem emptiedPdk_stall {d : Device} {p st : Nat} (h : st ∈ d.stallsOf p) : ((d.emptiedPdk p).stall st).state = .free := by
  refine freeStalls_stall ?_
  rwa [stallsOf_of_stalls]
  refine (forgetQueues_part (fun _ _ => rfl) (fun _ _ _ => rfl) ..).trans ?_
  refine (killSync_part (fun _ _ _ => rfl) (fun _ _ _ => rfl) ..).trans ?_
  exact killObjs_part (fun _ _ _ => rfl) (fun _ _ => rfl) ..

theorem emptiedPdk_now (d : Device) (p : Nat) : (d.emptiedPdk p).now = d.now := by
  refine (freeStalls_part (φ := now) (fun _ _ _ => rfl) ..).trans ?_
  refine (forgetQueues_part (φ := now) (fun _ _ => rfl) (fun _ _ _ => rfl) ..).trans ?_
  refine (killSync_part (φ := now) (fun _ _ _ => rfl) (fun _ _ _ => rfl) ..).trans ?_
  exact killObjs_part (φ := now) (fun _ _ _ => rfl) (fun _ _ => rfl) ..

theorem emptiedPdk_offUnits (d : Device) (p : Nat) : (d.emptiedPdk p).docket.offUnits = d.docket.offUnits := by
  rw [emptiedPdk, freeStalls_offUnits, docket_forgetQueues, docket_killSync, docket_killObjs]

/-- The entry of a Paddock at the end of its removal: its new layout, and the removal counted (R459). -/
def endedSec (d : Device) (p : Nat) : Device :=
  (d.emptiedPdk p).modPdkSec p fun x => { x with
    phase := .none, layout := x.newLayout.getD x.layout, newLayout := none, rmvCnt := satInc x.rmvCnt, rmvTally := (d.emptiedPdk p).now }

/-- The Paddock with the next incarnation (R391, R459). -/
def endedPdk (d : Device) (p : Nat) : Device :=
  (d.endedSec p).modPdk p fun k => { k with
    inc := k.inc + 1, memLost := k.memLost && (d.pdkSec p).newLayout.isNone
    rst := if k.rst = .outOfService && (d.pdkSec p).newLayout.isNone then .outOfService else .running }

theorem modPdk_pdk_same (d : Device) (p : Nat) (f : Pdk → Pdk) : (d.modPdk p f).pdk p = f (d.pdk p) := setPdk_pdk_same ..

theorem modPdkSec_pdk (d : Device) (p q : Nat) (f : PdkSec → PdkSec) : (d.modPdkSec p f).pdk q = d.pdk q := rfl

theorem endedPdk_inc (d : Device) (p : Nat) : ((d.endedPdk p).pdk p).inc = ((d.emptiedPdk p).pdk p).inc + 1 := by
  rw [endedPdk, modPdk_pdk_same, endedSec, modPdkSec_pdk]

theorem endedPdk_stall (d : Device) (p st : Nat) : (d.endedPdk p).stall st = (d.emptiedPdk p).stall st := by
  rw [endedPdk, modPdk_eq, setPdk_stall, endedSec, modPdkSec_eq, setPdkSec_stall]

/-- Its sessions are DOWN, and the channels follow the layouts. -/
def settled (d : Device) (p : Nat) : Device := ((d.endedPdk p).dropSessions p).settleChans.auditRule p

theorem removalEnd_docket {d : Device} {p : Nat} (h : (d.pdkSec p).phase = .scrubbing) :
    (d.removalEnd p).docket = (d.settled p).docket := by
  have heq : d.removalEnd p = _ := if_neg (not_not.2 h)
  rw [heq, docket_postDev]
  have hopen : ∀ e : Device, (if e.pdkPresent p then e.openSessions p else e).docket = e.docket := fun e => by
    split
    · exact docket_openSessions ..
    · rfl
  exact hopen (d.settled p)

theorem settled_offUnits (d : Device) (p : Nat) : (d.settled p).docket.offUnits = (d.endedPdk p).docket.offUnits := by
  rw [settled, docket_auditRule]
  refine (settleChans_part (φ := fun d => d.docket.offUnits) (fun _ _ _ => rfl) ..).trans ?_
  rw [docket_dropSessions]

theorem settled_stall (d : Device) (p st : Nat) : ((d.settled p).stall st).state = ((d.endedPdk p).stall st).state := by
  refine (stall_of_docket (docket_auditRule ..) st).trans ?_
  refine (settleChans_part (φ := fun d => (d.stall st).state) (fun _ _ _ => rfl) ((d.endedPdk p).dropSessions p)).trans ?_
  exact stall_of_docket (docket_dropSessions ..) st

/-- The end of a removal: the Paddock is empty, in its new form, with the next incarnation, and its Stalls are FREE (R458, R459). -/
theorem removalEnd_ends {d : Device} {p : Nat} (h : (d.pdkSec p).phase = .scrubbing) :
    ((d.removalEnd p).pdkSec p).phase = .none ∧
    ((d.removalEnd p).pdkSec p).layout = (d.pdkSec p).newLayout.getD (d.pdkSec p).layout ∧
    ((d.removalEnd p).pdkSec p).rmvCnt = satInc (d.pdkSec p).rmvCnt ∧ ((d.removalEnd p).pdkSec p).rmvTally = d.now ∧
    ((d.removalEnd p).pdk p).inc = (d.pdk p).inc + 1 ∧ ∀ st ∈ d.stallsOf p, ((d.removalEnd p).stall st).state = .free := by
  have hdocket := removalEnd_docket h
  have hoff : (d.removalEnd p).docket.offUnits = (d.endedPdk p).docket.offUnits :=
    (congrArg Docket.offUnits hdocket).trans (settled_offUnits ..)
  obtain ⟨hlayout, -, hphase, -, hcnt, htally, -⟩ := PdkSec.mk.inj (entry_of_docket hoff p)
  obtain ⟨hlayout', hnew', -, -, hcnt', -⟩ := PdkSec.mk.inj (entry_of_docket (emptiedPdk_offUnits d p) p)
  have hentry : (d.endedPdk p).pdkSec p = { (d.emptiedPdk p).pdkSec p with
      phase := .none, layout := ((d.emptiedPdk p).pdkSec p).newLayout.getD ((d.emptiedPdk p).pdkSec p).layout, newLayout := none
      rmvCnt := satInc ((d.emptiedPdk p).pdkSec p).rmvCnt, rmvTally := (d.emptiedPdk p).now } := by
    rw [endedPdk, modPdk_eq, setPdk_pdkSec, endedSec, modPdkSec_pdkSec_same]
  rw [hentry] at hlayout hphase hcnt htally
  rw [hnew', hlayout'] at hlayout
  rw [hcnt'] at hcnt
  refine ⟨hphase, hlayout, hcnt, htally.trans (emptiedPdk_now ..), ?inc, fun st hst => ?stalls⟩
  case inc =>
    rw [inc_of_docket hoff, endedPdk_inc, inc_of_docket (emptiedPdk_offUnits d p)]
  case stalls =>
    rw [stall_of_docket hdocket, settled_stall, endedPdk_stall]
    exact emptiedPdk_stall hst

end Device

/-- Settles O48: the entropy source by its samples, then a removal from the request to its end. That a removal asked for in a device
reset waits (DEV_STATE 2) is log entry 164, and how keys are numbered log entry 163. -/
theorem removalResults : Obligations.RemovalResults := by
  unfold Obligations.RemovalResults
  refine ⟨fun s hr => ?entropy, fun s hf hdue => ?reseed, fun s p hp hpres hphase hbar => ?request, fun s p hp hphase => ?again,
    fun s p flash hp hphase hdev hbar => ?retire, fun s p hp hphase => ?scrub, fun s p hp hphase => ?ends, fun s p hp hen => ?trace⟩
  case entropy =>
    have hrel : ¬ (!s.dev.boot.released) = true := by simp [hr]
    refine ⟨⟨_, done_next s _, ?_⟩, fun hf => done_of_eq ?_, fun hf hrun => done_of_eq ?_,
      fun hf hrun => ⟨_, done_next s _, Device.entropySample_recovers hr hf hrun⟩⟩
    · dsimp only
      rw [Device.entropySample_fails hr]
      exact ⟨rfl, rfl, rfl⟩
    · exact (if_neg hrel).trans ((if_neg (by simp)).trans (if_pos (by simp [hf])))
    · exact (if_neg hrel).trans ((if_neg (by simp)).trans ((if_neg (by simp [hf])).trans (if_pos hrun)))
  case reseed =>
    refine done_of_eq (if_neg ?_)
    simp only [hf, Bool.false_or, Bool.not_eq_true', Bool.or_eq_false_iff, decide_eq_false_iff_not]
    exact fun h => hdue.elim h.1 h.2
  case request =>
    exact ⟨fun hdev hrst => ⟨_, onUnit_next s _ hp, Device.requestRemoval_fences hpres hphase hbar hdev hrst⟩,
      fun hdev hrst => onUnit_of_eq hp (Device.requestRemoval_waits hpres hphase hbar hdev hrst),
      fun hdev => onUnit_of_eq hp (Device.requestRemoval_pending hpres hphase hbar hdev)⟩
  case again => exact onUnit_of_eq hp (Device.requestRemoval_twice hphase)
  case retire =>
    exact ⟨fun hok => ⟨_, onUnit_next s _ hp, Device.removalRetire_retires hphase hdev hbar hok⟩,
      fun hfused hflash => ⟨_, onUnit_next s _ hp, Device.removalRetire_refused hphase hdev hbar hfused hflash⟩⟩
  case scrub =>
    exact ⟨_, onUnit_next s _ hp, Device.removalScrub_scrubs hphase⟩
  case ends => exact ⟨_, onUnit_next s _ hp, Device.removalEnd_ends hphase⟩
  case trace => exact onUnit_of_eq hp (if_pos hen)

end Sys2Proof.Machine
end

section
/-! PROOF. Resets of Paddocks and of the device, the heartbeat and the watchdog, and the alarms that sample counters and call the host
(spec 15: R465 to R480; spec 16: R496; spec 18: R523; spec 02: R36). -/

namespace Sys2Proof.Machine

namespace Device

/-! ### A Paddock reset is asked for (R469, R470) -/

theorem modPdk_stall (d : Device) (p st : Nat) (f : Pdk → Pdk) : (d.modPdk p f).stall st = d.stall st := rfl

/-- The fence of a Paddock that a reset awaits: the reset is counted with its cause, and the Stalls are FENCED (R471 step 1). -/
theorem requestReset_fences {d : Device} {p : Nat} {cause : Code} (hp : d.pdkPresent p = true) (hrun : (d.pdk p).rst = .running)
    (hphase : (d.pdkSec p).phase = .none) (hdev : d.glb.devState = 1) :
    ((d.requestReset p cause).pdk p).rst = .fenced ∧ ((d.requestReset p cause).pdk p).lastCause = cause ∧
    ((d.requestReset p cause).pdk p).resets = satNat 32 ((d.pdk p).resets + 1) ∧
    ∀ st ∈ d.stallsOf p, ((d.requestReset p cause).stall st).state = .fenced := by
  have hdocket : ((d.fenceCommon p).dropSessions p).docket = (d.fenceCommon p).docket := docket_dropSessions ..
  have hoff : ((d.fenceCommon p).dropSessions p).docket.offUnits = d.docket.offUnits := by rw [hdocket, fenceCommon_offUnits]
  rw [requestReset, if_neg (by simp [hp, hrun, hphase, hdev]), fenceUp, modPdk_pdk_same, modPdk_pdk_same]
  refine ⟨rfl, rfl, ?_, fun st hst => ?_⟩
  · dsimp only
    rw [resets_of_record hoff]
  · rw [modPdk_stall, modPdk_stall, stall_of_docket hdocket]
    exact fenceCommon_stall hst

/-- A reset, or a removal, that runs meets a cause by itself (R470). -/
theorem requestReset_met {d : Device} {p : Nat} {cause : Code} (h : (d.pdk p).rst ≠ .running ∨ (d.pdkSec p).phase ≠ .none) :
    d.requestReset p cause = d := by
  refine if_pos ?_
  rcases h with h | h <;> simp [h]

/-! ### A Paddock is reset (R471 to R473) -/

/-- What the record of a crash leaves: all but the reset unit's list and the flash. -/
theorem keepCrash_part {β : Type} {φ : Device → β} (hkept : ∀ (d : Device) r f, φ { d with resets := r, flash := f } = φ d)
    (d : Device) (c : Crash) : φ (d.keepCrash c) = φ d := by
  unfold keepCrash
  dsimp only
  split
  · exact hkept ..
  · exact hkept ..

theorem keepCrash_resets (d : Device) (c : Crash) : ∃ l, (d.keepCrash c).resets = { d.resets with crashSeq := c.seqno, crashes := l } := by
  unfold keepCrash
  dsimp only
  split
  · exact ⟨d.resets.crashes, rfl⟩
  · exact ⟨_, rfl⟩

theorem hostCrash_part {β : Type} {φ : Device → β} (hout : ∀ d o, φ (emit d o) = φ d)
    (hnext : ∀ (d : Device) v, φ { d with glb := { d.glb with crashNext := v } } = φ d) (d : Device) (n : Nat) :
    φ (d.hostCrash n) = φ d := by
  unfold hostCrash
  dsimp only
  split
  · exact (hnext (d.emit _) _).trans (hout ..)
  · rfl

/-- The number of the record that the next capture keeps. -/
def nextCrash (d : Device) : Nat := (d.resets.crashSeq + 1) % 2 ^ 32

theorem capturePdk_part {β : Type} {φ : Device → β} (hkept : ∀ (d : Device) r f, φ { d with resets := r, flash := f } = φ d)
    (hout : ∀ d o, φ (emit d o) = φ d) (hnext : ∀ (d : Device) v, φ { d with glb := { d.glb with crashNext := v } } = φ d)
    (hpdk : ∀ d n v, φ (setPdk d n v) = φ d) (d : Device) (p : Nat) : φ (d.capturePdk p) = φ d :=
  (hpdk ..).trans ((hostCrash_part hout hnext ..).trans (keepCrash_part hkept ..))

theorem capturePdk_resets (d : Device) (p : Nat) : (d.capturePdk p).resets.crashSeq = d.nextCrash := by
  have hhost : ∀ (e : Device) n, (e.hostCrash n).resets = e.resets := hostCrash_part (φ := Device.resets) (fun _ _ => rfl) fun _ _ => rfl
  unfold capturePdk
  dsimp only
  rw [modPdk_eq, setPdk_resets, hhost]
  obtain ⟨l, hl⟩ := d.keepCrash_resets (d.crashNow 0 p (d.pdk p).lastCause (d.confidential p) false (d.pdk p).inc (d.crashSections p))
  rw [hl]
  rfl

theorem capturePdk_pdk (d : Device) (p : Nat) : (d.capturePdk p).pdk p = { d.pdk p with crashSeq := d.nextCrash } := by
  unfold capturePdk
  dsimp only
  rw [modPdk_pdk_same, hostCrash_part (φ := fun d => d.pdk p) (fun _ _ => rfl) (fun _ _ => rfl),
    keepCrash_part (φ := fun d => d.pdk p) fun _ _ _ => rfl]
  rfl

/-! The clear: channels rest, cores and Drover are at their reset values. -/

theorem selfRefresh_state (d : Device) (k n : Nat) (h : n = k ∧ (d.chan n).state = .active ∨ (d.chan n).state = .selfRefresh) :
    ((d.selfRefresh k).chan n).state = .selfRefresh := by
  unfold selfRefresh
  rw [modChan_eq, setChan_chan]
  split
  · next hk =>
    subst hk
    rcases h with ⟨-, h⟩ | h
    · simp only [h]
      split <;> rfl
    · simp only [h]
  · next hk => exact h.resolve_left fun hn => hk hn.1.symm

/-- A channel that is not its turn's stays as it is. -/
theorem selfRefresh_chan_ne (d : Device) {k n : Nat} (h : k ≠ n) : (d.selfRefresh k).chan n = d.chan n := setChan_chan_ne _ _ _ h

theorem foldl_selfRefresh_state {n : Nat} (l : List Nat) {d : Device}
    (h : n ∈ l ∧ (d.chan n).state = .active ∨ (d.chan n).state = .selfRefresh) :
    ((l.foldl selfRefresh d).chan n).state = .selfRefresh := by
  induction l generalizing d with
  | nil => exact h.resolve_left fun hn => List.not_mem_nil hn.1
  | cons k l ih =>
    rw [List.foldl_cons]
    refine ih ?_
    rcases h with ⟨hmem, hactive⟩ | h
    · by_cases hk : n = k
      · exact .inr (selfRefresh_state d k n (.inl ⟨hk, hactive⟩))
      · rw [selfRefresh_chan_ne d (Ne.symm hk)]
        exact .inl ⟨(List.mem_cons.1 hmem).resolve_left hk, hactive⟩
    · exact .inr (selfRefresh_state d k n (.inr h))

theorem beginTraining_chan (d : Device) (k n : Nat) : (d.beginTraining k).chan n =
    if k = n ∧ ((d.chan n).state = .selfRefresh ∨ (d.chan n).state = .off) then { d.chan n with state := .training } else d.chan n := by
  unfold beginTraining
  rw [modChan_eq, setChan_chan]
  by_cases hk : k = n
  · subst hk
    simp
  · simp [hk]

theorem foldl_beginTraining_state {n : Nat} (l : List Nat) {d : Device}
    (h : n ∈ l ∧ (d.chan n).state = .selfRefresh ∨ (d.chan n).state = .training) :
    ((l.foldl beginTraining d).chan n).state = .training := by
  induction l generalizing d with
  | nil => exact h.resolve_left fun hn => List.not_mem_nil hn.1
  | cons k l ih =>
    rw [List.foldl_cons]
    refine ih ?_
    rw [beginTraining_chan]
    rcases h with ⟨hmem, hrest⟩ | h
    · by_cases hk : k = n
      · exact .inr (by simp [hk, hrest])
      · rw [if_neg fun hn => hk hn.1]
        exact .inl ⟨(List.mem_cons.1 hmem).resolve_left fun hn => hk hn.symm, hrest⟩
    · exact .inr (by simp [h])

theorem foldl_beginTraining_part {β : Type} {φ : Device → β} (hchan : ∀ d n v, φ (setChan d n v) = φ d) (l : List Nat) (d : Device) :
    φ (l.foldl beginTraining d) = φ d := by
  refine foldl_part (φ := φ) (fun x n => ?_) _ _
  exact hchan ..

theorem foldl_selfRefresh_part {β : Type} {φ : Device → β} (hchan : ∀ d n v, φ (setChan d n v) = φ d) (l : List Nat) (d : Device) :
    φ (l.foldl selfRefresh d) = φ d := by
  refine foldl_part (φ := φ) (fun x n => ?_) _ _
  exact hchan ..

/-- A Paddock whose channels rest and whose translations are dropped. -/
def atRest (d : Device) (p : Nat) : Device := ((d.chansOf p).foldl selfRefresh d).dropAtc p

theorem clearPdk_eq (d : Device) (p : Nat) : d.clearPdk p =
    ((((d.atRest p).coresOf p).foldl (wipeCore clearedSlice) (d.atRest p)).modPdk p clearDrover).killObjs p
      fun o => o.space == .yard := rfl

theorem atRest_part {β : Type} {φ : Device → β} (hchan : ∀ d n v, φ (setChan d n v) = φ d)
    (hxlt : ∀ (d : Device) v, φ { d with xlt := v } = φ d) (d : Device) (p : Nat) : φ (d.atRest p) = φ d :=
  (hxlt { ((d.chansOf p).foldl selfRefresh d) with xlt := _ } _).trans ((hxlt ..).trans (foldl_selfRefresh_part hchan ..))

section
variable {β : Type} {φ : Device → β} (hchan : ∀ d n v, φ (setChan d n v) = φ d) (hxlt : ∀ (d : Device) v, φ { d with xlt := v } = φ d)
  (hwipe : ∀ f d c, φ (wipeCore f d c) = φ d) (hpdk : ∀ d n v, φ (setPdk d n v) = φ d)
  (hobj : ∀ d i v, φ (setObj d i v) = φ d) (hsec : ∀ (d : Device) v, φ { d with sec := v } = φ d)

include hwipe in
theorem foldl_wipeCore_part (f : Slice → Slice) (l : List Nat) (d : Device) : φ (l.foldl (wipeCore f) d) = φ d :=
  foldl_part (φ := φ) (g := wipeCore f) (fun x c => hwipe f x c) _ _

include hchan hxlt hwipe hpdk hobj hsec in
theorem clearPdk_part (d : Device) (p : Nat) : φ (d.clearPdk p) = φ d := by
  rw [clearPdk_eq, killObjs_part hobj hsec, modPdk_eq, hpdk, foldl_wipeCore_part hwipe, atRest_part hchan hxlt]

end

theorem clearPdk_pdk (d : Device) (p : Nat) : (d.clearPdk p).pdk p = clearDrover (d.pdk p) := by
  rw [clearPdk_eq, killObjs_part (φ := fun d => d.pdk p) (fun _ _ _ => rfl) (fun _ _ => rfl), modPdk_pdk_same,
    foldl_wipeCore_part (φ := fun d => d.pdk p) fun _ _ _ => rfl, atRest_part (φ := fun d => d.pdk p) (fun _ _ _ => rfl) fun _ _ => rfl]

theorem clearPdk_resets (d : Device) (p : Nat) : (d.clearPdk p).resets = d.resets :=
  clearPdk_part (φ := Device.resets) (fun _ _ _ => rfl) (fun _ _ => rfl) (fun _ _ _ => rfl) (fun _ _ _ => rfl) (fun _ _ _ => rfl)
    (fun _ _ => rfl) d p

/-- The Paddock's cores are at their reset values (R471 step 5). -/
theorem clearPdk_core {d : Device} {p c : Nat} (h : c ∈ d.coresOf p) : (d.clearPdk p).core c = Core.reset := by
  have hc : c ∈ (d.atRest p).coresOf p := by
    rwa [atRest_part (φ := fun d => d.coresOf p) (fun _ _ _ => rfl) fun _ _ => rfl]
  have hwiped := foldl_wipeCore_wiped (f := clearedSlice) (fun _ => ⟨rfl, rfl, rfl⟩) _ (d := d.atRest p) (.inl hc)
  rw [clearPdk_eq, killObjs_part (φ := fun d => d.core c) (fun _ _ _ => rfl) (fun _ _ => rfl), modPdk_eq, setPdk_core]
  exact hwiped.1

/-- The Paddock's channels are in self-refresh (R471 step 4). -/
theorem clearPdk_chan {d : Device} {p n : Nat} (h : n ∈ d.chansOf p) (hactive : (d.chan n).state = .active) :
    ((d.clearPdk p).chan n).state = .selfRefresh := by
  rw [clearPdk_eq, killObjs_part (φ := fun d => d.chan n) (fun _ _ _ => rfl) (fun _ _ => rfl), modPdk_eq, setPdk_chan,
    foldl_wipeCore_part (φ := fun d => d.chan n) fun _ _ _ => rfl]
  exact foldl_selfRefresh_state (d.chansOf p) (.inl ⟨h, hactive⟩)

/-- A fenced Paddock's work captured and discarded, and its state cleared. -/
def cleared (d : Device) (p : Nat) : Device :=
  ((d.capturePdk p).discardPdk p ((d.capturePdk p).pdk p).lastCause ((d.capturePdk p).pdk p).crashSeq).clearPdk p

/-- The cleared Paddock trains its channels. -/
def retrained (d : Device) (p : Nat) : Device :=
  let e := (d.cleared p).modPdk p fun k => { k with rst := .retraining }
  (e.chansOf p).foldl beginTraining e

section
variable {d : Device} {p : Nat}

theorem resetPdk_eq (hrst : (d.pdk p).rst = .fenced) (hasked : d.resets.devAsked = none) (hdev : d.glb.devState = 1)
    (hwaits : (d.pdkSec p).rmvWaits = false) (hhistory : (d.pdk p).history.length < 4) : d.resetPdk p = d.retrained p := by
  have hw : ((d.capturePdk p).pdkSec p).rmvWaits = false := by
    rwa [capturePdk_part (φ := fun d => d.pdkSec p) (fun _ _ _ => rfl) (fun _ _ => rfl) (fun _ _ => rfl) fun _ _ _ => rfl]
  have hh : ((d.capturePdk p).pdk p).history.length < 4 := by rwa [capturePdk_pdk]
  unfold resetPdk
  rw [if_neg (by simp [hrst, hasked, hdev])]
  dsimp only
  rw [if_neg (by simp [hw]), if_neg (Nat.not_le.2 hh)]
  rfl

theorem clearDrover_crashSeq (k : Pdk) : (clearDrover k).crashSeq = k.crashSeq := rfl

/-- Before the clear, the discard leaves what the capture recorded. -/
theorem discarded_docket : ((d.capturePdk p).discardPdk p ((d.capturePdk p).pdk p).lastCause
    ((d.capturePdk p).pdk p).crashSeq).docket = (d.capturePdk p).docket := docket_discardPdk ..

theorem cleared_crashSeq : (d.cleared p).resets.crashSeq = d.nextCrash ∧ ((d.cleared p).pdk p).crashSeq = d.nextCrash := by
  constructor
  · rw [cleared, clearPdk_resets, resets_of_docket (congrArg Docket.offUnits discarded_docket), capturePdk_resets]
  · rw [cleared, clearPdk_pdk, clearDrover_crashSeq, crashSeq_of_docket (congrArg Docket.offUnits discarded_docket), capturePdk_pdk]

theorem cleared_core {c : Nat} (h : c ∈ d.coresOf p) : (d.cleared p).core c = Core.reset := by
  refine clearPdk_core ?_
  rw [coresOf_of_docket (congrArg Docket.offUnits discarded_docket)]
  rwa [capturePdk_part (φ := fun d => d.coresOf p) (fun _ _ _ => rfl) (fun _ _ => rfl) (fun _ _ => rfl) fun _ _ _ => rfl]

theorem discarded_chansOf : ((d.capturePdk p).discardPdk p ((d.capturePdk p).pdk p).lastCause
    ((d.capturePdk p).pdk p).crashSeq).chansOf p = d.chansOf p := by
  rw [chansOf_of_docket (congrArg Docket.offUnits discarded_docket)]
  exact capturePdk_part (φ := fun d => d.chansOf p) (fun _ _ _ => rfl) (fun _ _ => rfl) (fun _ _ => rfl) (fun _ _ _ => rfl) d p

theorem cleared_chan {n : Nat} (h : n ∈ d.chansOf p) (hactive : (d.chan n).state = .active) :
    ((d.cleared p).chan n).state = .selfRefresh := by
  refine clearPdk_chan (by rwa [discarded_chansOf]) ?_
  rw [chan_of_docket discarded_docket]
  rwa [capturePdk_part (φ := fun d => d.chan n) (fun _ _ _ => rfl) (fun _ _ => rfl) (fun _ _ => rfl) fun _ _ _ => rfl]

theorem cleared_chansOf : (d.cleared p).chansOf p = d.chansOf p := by
  have hsec : ∀ (d : Device) pdk q, (killObjs d pdk q).chansOf p = d.chansOf p := fun d pdk q => by
    refine tfoldl_part (φ := fun d => d.chansOf p) (fun x i o => ?_) _ _
    split <;> rfl
  refine Eq.trans ?_ discarded_chansOf
  rw [cleared, clearPdk_eq, hsec, modPdk_eq]
  refine (foldl_wipeCore_part (φ := fun d => d.chansOf p) (fun _ _ _ => rfl) ..).trans ?_
  exact atRest_part (φ := fun d => d.chansOf p) (fun _ _ _ => rfl) (fun _ _ => rfl) ..

end

/-- A Paddock reset: the record is kept, and with cleared cores the Paddock trains its channels (R471, R475). -/
theorem retrained_retrains (d : Device) (p : Nat) : ((d.retrained p).pdk p).rst = .retraining ∧
    (d.retrained p).resets.crashSeq = d.nextCrash ∧ ((d.retrained p).pdk p).crashSeq = (d.retrained p).resets.crashSeq ∧
    (∀ c ∈ d.coresOf p, (d.retrained p).core c = Core.reset) ∧
    ∀ n ∈ d.chansOf p, (d.chan n).state = .active → ((d.retrained p).chan n).state = .training := by
  have hpdk : (d.retrained p).pdk p = { (d.cleared p).pdk p with rst := .retraining } :=
    (foldl_beginTraining_part (φ := fun d => d.pdk p) (fun _ _ _ => rfl) ..).trans (modPdk_pdk_same ..)
  have hresets : (d.retrained p).resets = (d.cleared p).resets :=
    foldl_beginTraining_part (φ := Device.resets) (fun _ _ _ => rfl) ..
  obtain ⟨hseq, hseq'⟩ := cleared_crashSeq (d := d) (p := p)
  rw [hpdk, hresets]
  refine ⟨rfl, hseq, hseq'.trans hseq.symm, fun c hc => ?_, fun n hn hactive => ?_⟩
  · exact (foldl_beginTraining_part (φ := fun d => d.core c) (fun _ _ _ => rfl) ..).trans (cleared_core hc)
  · have hmem : n ∈ (d.cleared p).chansOf p := by rwa [cleared_chansOf]
    exact foldl_beginTraining_state _ (.inl ⟨hmem, cleared_chan hn hactive⟩)

/-! ### A Paddock's recovery ends (R471 step 7) -/

theorem memoryLost_part {β : Type} {φ : Device → β} (hpdk : ∀ (d : Device) p, φ (d.modPdk p fun k => { k with memLost := true }) = φ d)
    (hpost : ∀ d ev, φ (postDev d ev) = φ d) (d : Device) (p : Nat) : φ (d.memoryLost p) = φ d := (hpost ..).trans (hpdk ..)

theorem loseMemory_part {β : Type} {φ : Device → β} (hpdk : ∀ (d : Device) p, φ (d.modPdk p fun k => { k with memLost := true }) = φ d)
    (hpost : ∀ d ev, φ (postDev d ev) = φ d) (hobj : ∀ d i v, φ (setObj d i v) = φ d)
    (hsec : ∀ (d : Device) v, φ { d with sec := v } = φ d) (hsegs : ∀ (d : Device) v, φ { d with segs := v } = φ d)
    (d : Device) (p : Nat) : φ (d.loseMemory p) = φ d := by
  have hkgen : φ (if (d.layout p).session then d else d.modPdkSec p fun x => { x with kgen := x.kgen + 1 }) = φ d := by
    split
    · rfl
    · exact hsec ..
  refine (memoryLost_part hpdk hpost ..).trans ((hsegs ..).trans ((killObjs_part hobj hsec ..).trans ?_))
  exact (newMemKey_part hsec ..).trans hkgen

theorem loseMemory_pdk (d : Device) (p q : Nat) : resetRecord ((d.loseMemory p).pdk q) = resetRecord (d.pdk q) := by
  refine loseMemory_part (φ := fun d => resetRecord (d.pdk q)) (fun d p => ?_) (fun d ev => ?_) (fun _ _ _ => rfl) (fun _ _ => rfl)
    (fun _ _ => rfl) d p
  · refine record_of_docket (congrArg Docket.offUnits (docket_modPdk d p _ ?_)) q
    exact fun _ => rfl
  · rw [postDev_pdk]

theorem loseMemory_stalls (d : Device) (p : Nat) : (d.loseMemory p).stalls = d.stalls :=
  loseMemory_part (φ := Device.stalls) (fun _ _ => rfl) (fun _ _ => postDev_stalls ..) (fun _ _ _ => rfl) (fun _ _ => rfl)
    (fun _ _ => rfl) d p

theorem openSessions_part {β : Type} {φ : Device → β} (hbinding : ∀ d n v, φ (setBinding d n v) = φ d) (d : Device) (p : Nat) :
    φ (d.openSessions p) = φ d := by
  refine foldl_part (φ := φ) (fun x b => ?_) _ _
  unfold sessionOpen
  dsimp only
  split
  · exact hbinding ..
  · rfl

/-- Its sessions open, and its Stalls are FREE. -/
def reopened (d : Device) (p : Nat) : Device :=
  ((d.modPdk p fun k => { k with rst := .running, inc := k.inc + 1 }).openSessions p).freeStalls p

theorem reopened_pdk (d : Device) (p : Nat) : (d.reopened p).pdk p = { d.pdk p with rst := .running, inc := (d.pdk p).inc + 1 } := by
  rw [reopened, freeStalls_part (φ := fun d => d.pdk p) fun _ _ _ => rfl, openSessions_part (φ := fun d => d.pdk p) fun _ _ _ => rfl,
    modPdk_pdk_same]

theorem reopened_stall {d : Device} {p st : Nat} (h : st ∈ d.stallsOf p) : ((d.reopened p).stall st).state = .free := by
  refine freeStalls_stall ?_
  rwa [openSessions_part (φ := fun d => d.stallsOf p) fun _ _ _ => rfl]

/-- The end of its recovery posted. -/
def announced (d : Device) (p : Nat) : Device :=
  (d.reopened p).postDev
    ((d.reopened p).pdkEvent p 6 0x0710 (det 20 ((d.reopened p).sealMask p) ||| det 24 ((d.reopened p).pdk p).crashSeq))

/-- A Paddock whose channels are ACTIVE again runs, with the next incarnation (R391, R471). -/
theorem pdkReady_runs {d : Device} {p : Nat} (hrst : (d.pdk p).rst = .retraining) (hdev : d.glb.devState = 1)
    (hkey : (d.pdkSec p).memKey ≠ 0) (hchans : ∀ n ∈ d.chansOf p, (d.chan n).state = .active) :
    ((d.pdkReady p).pdk p).rst = .running ∧ ((d.pdkReady p).pdk p).inc = (d.pdk p).inc + 1 ∧
    ∀ st ∈ d.stallsOf p, ((d.pdkReady p).stall st).state = .free := by
  have hready : ¬ ((d.pdk p).rst ≠ .retraining ∨ d.glb.devState ≠ 1 ∨ (d.pdkSec p).memKey = 0 ∨
      !(d.chansOf p).all (fun n => (d.chan n).state == .active)) := by simpa [hrst, hdev, hkey] using hchans
  have heq : d.pdkReady p = if (d.announced p).sealLost p then (d.announced p).loseMemory p else d.announced p := if_neg hready
  have hlost : ∀ e : Device, resetRecord ((if e.sealLost p then e.loseMemory p else e).pdk p) = resetRecord (e.pdk p) ∧
      (if e.sealLost p then e.loseMemory p else e).stalls = e.stalls := fun e => by
    split
    · exact ⟨loseMemory_pdk .., loseMemory_stalls ..⟩
    · exact ⟨rfl, rfl⟩
  obtain ⟨hrecord, hstalls⟩ := hlost (d.announced p)
  rw [← heq, announced, postDev_pdk, reopened_pdk] at hrecord
  rw [← heq, announced, postDev_stalls] at hstalls
  refine ⟨congrArg (fun r => r.1) hrecord, congrArg (fun r => r.2.2.2.2.2) hrecord, fun st hst => ?_⟩
  rw [stall, hstalls]
  exact reopened_stall hst

/-! ### The device reset (R476 to R480, R523) -/

/-- What the Shepherd counts of device resets. -/
def devTotal (d : Device) : W32 := d.resets.devTotal

theorem enterHoldover_part {β : Type} {φ : Device → β} (htally : ∀ (d : Device) v, φ { d with tally := v } = φ d)
    (hpost : ∀ d ev, φ (postDev d ev) = φ d) (d : Device) : φ d.enterHoldover = φ d := by
  unfold enterHoldover
  split
  · rfl
  · exact (hpost ..).trans (htally ..)

theorem captureDev_devTotal (d : Device) (cause : Code) (part : Bool) : (d.captureDev cause part).devTotal = d.devTotal := by
  unfold captureDev
  extract_lets l l' c e
  obtain ⟨t, ht⟩ := d.keepCrash_resets c
  exact (congrArg Resets.devTotal ht :)

theorem discardAll_resets (code : Code) (seqno : Nat) (l : List Nat) (d : Device) :
    (l.foldl (fun d p => if (d.pdk p).rst = .outOfService then d else d.discardPdk p code seqno) d).resets = d.resets := by
  refine foldl_part (φ := Device.resets) (fun x p => ?_) _ _
  split
  · rfl
  · exact congrArg Docket.resets (docket_discardPdk x p code seqno)

theorem completeAll_resets (l : List Nat) (d : Device) : (l.foldl completeBursts d).resets = d.resets :=
  foldl_part (φ := Device.resets) (fun x p => congrArg Docket.resets (docket_completeBursts x p)) _ _

/-- What the restart keeps of the device at its reset values. -/
def bare (d : Device) : Glb × Table Core × Table Job × Table Stall × Resets := (d.glb, d.cores, d.jobs, d.stalls, d.resets)

theorem bare_postDev (d : Device) (ev : EventRec) : (d.postDev ev).bare = d.bare := by simp [bare]

theorem bare_installRemap (d : Device) (c bank row word : Nat) (fused : Bool) :
    (d.installRemap c bank row word fused).bare = d.bare := by
  unfold installRemap
  extract_lets s b k spare
  split
  · rfl
  · split
    · exact bare_postDev ..
    · rfl

theorem bare_logFlash (d : Device) (code : Code) (x : W64) : (d.logFlash code x).bare = d.bare := by simp [bare]

theorem bare_softEntry (d : Device) (c bank row word : Nat) : (softEntry c bank row word d).bare = d.bare := by
  unfold softEntry
  extract_lets e
  have he : e.bare = d.bare := bare_installRemap ..
  split
  · exact he
  · exact (bare_logFlash ..).trans he

theorem bare_runTests (d : Device) (t : TestReport) : (d.runTests t).bare = d.bare := by
  unfold runTests
  extract_lets bad soft pairs boot e f g h
  have hf : f.bare = e.bare := foldl_part (φ := bare) (fun _ _ => bare_installRemap ..) _ _
  have hg : g.bare = f.bare := foldl_part (φ := bare) (fun _ _ => bare_installRemap ..) _ _
  have hh : h.bare = g.bare := foldl_part (φ := bare) (fun _ _ => bare_softEntry ..) _ _
  exact hh.trans (hg.trans hf)

theorem bare_restartPdk (d : Device) (p : Nat) : (d.restartPdk p).bare = d.bare := by
  unfold restartPdk
  extract_lets e f
  have he : e.bare = d.bare := by
    unfold e
    split
    · exact newMemKey_part (φ := bare) (fun _ _ => rfl) ..
    · rfl
  exact (newIntake_part (φ := bare) (fun _ _ => rfl) e p).trans he

theorem bare_trainThose (q : Device → Nat → Bool) (l : List Nat) (d : Device) :
    (l.foldl (fun d n => if q d n then d.beginTraining n else d) d).bare = d.bare := by
  refine foldl_part (φ := bare) (fun x n => ?_) _ _
  split <;> rfl

theorem bare_disarmAll (l : List Nat) (d : Device) : (l.foldl disarmAll d).bare = d.bare :=
  foldl_part (φ := bare) (fun x p => disarmAll_part (φ := bare) (fun _ _ _ => rfl) x p) _ _

theorem reset_of_bare {d e : Device} (h : e.bare = d.resetDomains.bare) :
    e.glb.ready = false ∧ e.cores = [] ∧ e.jobs = [] ∧ e.stalls = [] ∧ e.resets = d.resets := by
  simp only [bare, Prod.mk.injEq] at h
  obtain ⟨hglb, hcores, hjobs, hstalls, hresets⟩ := h
  exact ⟨congrArg Glb.ready hglb, hcores, hjobs, hstalls, hresets⟩

/-- A device reset: every core and job is gone, the reset is counted, and the start is back at stage 8 (R476, R523). -/
theorem resetDevice_resets {d : Device} {cause : ResetCause} {t : TestReport} (hr : d.boot.released = true) (h5 : 5 ≤ d.boot.stage)
    (h9 : d.boot.stage ≠ 9) :
    (resetDevice cause t d).boot.stage = 8 ∧ (resetDevice cause t d).glb.ready = false ∧ (resetDevice cause t d).cores = [] ∧
    (resetDevice cause t d).jobs = [] ∧ (resetDevice cause t d).stalls = [] ∧
    (resetDevice cause t d).resets.devCause = causeCode cause ∧ (resetDevice cause t d).resets.devAsked = none ∧
    (resetDevice cause t d).resets.devTotal = satInc d.resets.devTotal := by
  unfold resetDevice
  rw [if_neg (by simp [hr, h5, h9])]
  extract_lets code asked again part fenced kept d1 d2 seqno d3 d4 d5 times glb resets d6 d7 d8 d9 boot
  have h1 : d1.devTotal = d.devTotal := by
    unfold d1
    split <;> rfl
  have h2 : d2.devTotal = d1.devTotal := captureDev_devTotal ..
  have h3 : d3.devTotal = d2.devTotal := by
    unfold d3
    split
    · exact congrArg Resets.devTotal (completeAll_resets ..)
    · exact congrArg Resets.devTotal (discardAll_resets ..)
  have h4 : d4.devTotal = d3.devTotal := by
    unfold d4
    split
    · exact enterHoldover_part (φ := devTotal) (fun _ _ => rfl) (fun _ _ => congrArg Resets.devTotal (postDev_resets ..)) (d3.modTally _)
    · rfl
  have h5 : d5.devTotal = d4.devTotal := foldl_selfRefresh_part (φ := devTotal) (fun _ _ _ => rfl) ..
  have hrestart : d9.bare = d6.resetDomains.bare :=
    (bare_trainThose trains ..).trans ((bare_runTests ..).trans
      ((foldl_part (φ := bare) (fun _ _ => bare_restartPdk ..) _ _).trans (bare_disarmAll ..)))
  have htotal : d6.resets.devTotal = satInc d.resets.devTotal :=
    congrArg satInc (h5.trans (h4.trans (h3.trans (h2.trans h1))) : d5.resets.devTotal = d.resets.devTotal)
  have hcause : d6.resets.devCause = causeCode cause := rfl
  have hasked : d6.resets.devAsked = none := rfl
  obtain ⟨hready, hcores, hjobs, hstalls, hresets⟩ := reset_of_bare hrestart
  clear_value d9 d6
  rw [← hresets] at htotal hcause hasked
  exact ⟨rfl, hready, hcores, hjobs, hstalls, hcause, hasked, htotal⟩

/-! The end of a device reset. -/

/-- What the host is told of a reset that has ended. -/
def told (d : Device) : Bool × Nat × W32 × List Nat := (d.glb.ready, d.glb.devState, d.boot.warm, d.resets.owed)

theorem told_postDev (d : Device) (ev : EventRec) : (d.postDev ev).told = d.told := by simp [told]

theorem told_restoreSeg (d : Device) (e : Dormant) : (d.restoreSeg e).told = d.told := by
  unfold restoreSeg
  split <;> rfl

theorem told_restorePdk (d : Device) (p : Nat) : (d.restorePdk p).told = d.told := by
  unfold restorePdk
  split
  · exact foldl_part (φ := told) told_restoreSeg _ _
  · exact memoryLost_part (φ := told) (fun _ _ => rfl) told_postDev ..

theorem told_hostCrash (d : Device) (n : Nat) : (d.hostCrash n).told = d.told :=
  hostCrash_part (φ := told) (fun _ _ => rfl) (fun _ _ => rfl) ..

section
variable {d : Device} {ms : W32} (hdev : d.glb.devState = 2) (hasked : d.resets.devAsked = none) (htrained : d.trained = true)
include hdev hasked htrained

theorem readyAfterReset_goes : ¬ (d.glb.devState ≠ 2 || d.resets.devAsked.isSome || !d.trained) = true := by
  simp [hdev, hasked, htrained]

theorem readyAfterReset_stays (ho : d.resets.devOos = true) : readyAfterReset ms d =
    { d with glb := { d.glb with devState := 3 }, boot := { d.boot with warm := ms } } :=
  (if_neg (readyAfterReset_goes hdev hasked htrained)).trans (if_pos ho)

/-- The end of a device reset: READY, the time it took, and no record owed (R480, R523). -/
theorem readyAfterReset_ready (ho : d.resets.devOos = false) :
    (readyAfterReset ms d).glb.ready = true ∧ (readyAfterReset ms d).glb.devState = 1 ∧ (readyAfterReset ms d).boot.warm = ms ∧
    (readyAfterReset ms d).resets.owed = [] := by
  unfold readyAfterReset
  rw [if_neg (readyAfterReset_goes hdev hasked htrained)]
  extract_lets boot d1 glb d2 d3 resets d4 gone ps d5 kept
  rw [if_neg (by simp [d1, ho])]
  have hboot : d2.boot.warm = ms := by
    have henter : ∀ l : List Nat, ∀ e : Device, (l.foldl enterService e).boot = e.boot :=
      foldl_part (φ := Device.boot) fun _ _ => enterService_boot
    rw [show d2.boot = d1.boot from setReady_boot.trans (henter _ d1)]
  have hglb : d2.glb.ready = true ∧ d2.glb.devState = 1 := by
    rw [show d2.glb = _ from setReady_glb]
    exact ⟨rfl, rfl⟩
  have hcrashes : d3.told = d2.told := foldl_part (φ := told) told_hostCrash _ _
  have hrestored : d5.told = d4.told := foldl_part (φ := told) told_restorePdk _ _
  obtain ⟨hready, hstate⟩ := hglb
  simp only [told, Prod.mk.injEq] at hcrashes hrestored
  obtain ⟨hready3, hstate3, hwarm3, -⟩ := hcrashes
  obtain ⟨hready5, hstate5, hwarm5, howed⟩ := hrestored
  exact ⟨hready5.trans (hready3.trans hready), hstate5.trans (hstate3.trans hstate), hwarm5.trans (hwarm3.trans hboot), howed⟩

end

/-! ### Heartbeat and watchdog (R465 to R468) -/

theorem requestReset_resets (d : Device) (p : Nat) (cause : Code) : (d.requestReset p cause).resets = d.resets := by
  unfold requestReset
  split
  · rfl
  · exact fenceUp_part (φ := Device.resets) (fun _ _ _ => rfl) (fun _ _ _ => rfl) (fun _ _ _ => rfl) (fun _ _ _ => rfl)
      (fun _ _ _ => rfl) (fun _ _ _ => rfl) d p

theorem hang_docket (d : Device) (p : Nat) : (d.hang p).docket = d.docket := by
  unfold hang
  refine (docket_modPdk _ _ _ ?_).trans (foldl_part (φ := docket) (fun _ _ => docket_endJob ..) _ _)
  exact fun _ => rfl

/-- The idle count of Paddock `p` after `n` checks (R465). -/
def idleAfter (n : Nat) (d : Device) (p : Nat) : Nat :=
  if d.pdkBusy p && (d.pdk p).prog == (d.pdk p).progSeen then (d.pdk p).idle + n else 0

/-- The checks for which its liveness count has stood still (R467). -/
def sameAfter (n : Nat) (d : Device) (p : Nat) : Nat :=
  if (d.pdk p).alive = (d.pdk p).aliveSeen then (d.pdk p).aliveSame + n else 0

/-- What a check notes of Paddock `p`. -/
def checked (n : Nat) (d : Device) (p : Nat) : Device :=
  d.setPdk p { d.pdk p with
    idle := idleAfter n d p, progSeen := (d.pdk p).prog, aliveSeen := (d.pdk p).alive, aliveSame := sameAfter n d p }

theorem checkPdk_eq (n : Nat) (d : Device) (p : Nat) : checkPdk n d p =
    if (checked n d p).fencedPdk p then checked n d p
    else if 8 ≤ sameAfter n d p then (checked n d p).requestReset p 0x070D
    else if (checked n d p).resets.hangMs ≠ 0 ∧ (checked n d p).resets.hangMs ≤ idleAfter n d p then (checked n d p).hang p
    else checked n d p := rfl

theorem checkPdk_resets (n : Nat) (d : Device) (p : Nat) : (checkPdk n d p).resets = d.resets := by
  have hchecked : (checked n d p).resets = d.resets := rfl
  rw [checkPdk_eq]
  split
  · exact hchecked
  · split
    · exact (requestReset_resets ..).trans hchecked
    · split
      · exact (congrArg Docket.resets (hang_docket ..)).trans hchecked
      · exact hchecked

theorem fired_resets (d : Device) (n : Nat) : (d.fired n).resets = d.resets := fired_part (φ := Device.resets) (fun _ _ _ => rfl) d n

theorem fired_now (d : Device) (n : Nat) : (d.fired n).now = d.now := fired_part (φ := now) (fun _ _ _ => rfl) d n

/-- The watchdog is fed, and the beat counted, at the firing of slot `n` (R465, R468). -/
def fed (d : Device) (n : Nat) : Device :=
  { d.fired n with resets := { (d.fired n).resets with
      hb := (d.fired n).resets.hb + 1, wdFeed := (d.fired n).now, wdArmed := true } }

theorem heartbeat_eq {d : Device} {n : Nat} (hfires : d.fires n 4 = true) (hrun : d.resets.restarting = false) :
    d.heartbeat n = if (d.fired n).glb.devState = 1 then
      (d.fed n).pdksPresent.foldl (checkPdk (((d.fired n).alarm n).miss + 1)) (d.fed n) else d.fed n := by
  have hrun' : ¬ (d.fired n).resets.restarting = true := by simp [fired_resets, hrun]
  unfold heartbeat
  rw [if_neg (by simp [hfires])]
  dsimp only
  rw [if_neg hrun']
  rfl

theorem heartbeat_feeds {d : Device} {n : Nat} (hfires : d.fires n 4 = true) (hrun : d.resets.restarting = false) :
    (d.heartbeat n).resets.hb = d.resets.hb + 1 ∧ (d.heartbeat n).resets.wdFeed = d.now ∧ (d.heartbeat n).resets.wdArmed = true := by
  have hresets : (d.heartbeat n).resets = (d.fed n).resets := by
    rw [heartbeat_eq hfires hrun]
    split
    · exact foldl_part (φ := Device.resets) (fun x p => checkPdk_resets _ x p) _ _
    · rfl
  rw [hresets]
  exact ⟨congrArg (fun r => r.hb + 1) (fired_resets d n), fired_now d n, rfl⟩

section
variable {β : Type} {φ : Device → β}

theorem fed_part (halarm : ∀ d n v, φ (setAlarm d n v) = φ d) (hresets : ∀ (d : Device) v, φ { d with resets := v } = φ d)
    (d : Device) (n : Nat) : φ (d.fed n) = φ d := (hresets ..).trans (fired_part halarm d n)

end

/-- A Paddock alive whose jobs make no progress for HANG_MS checks (R466). -/
theorem heartbeat_hangs {d : Device} {n p : Nat} (hfires : d.fires n 4 = true) (hrun : d.resets.restarting = false)
    (hdev : d.glb.devState = 1) (hpdks : d.pdksPresent = [p]) (hfenced : d.fencedPdk p = false)
    (halive : (d.pdk p).alive ≠ (d.pdk p).aliveSeen) (hms : d.resets.hangMs ≠ 0)
    (hidle : d.resets.hangMs ≤ idleAfter (((d.fired n).alarm n).miss + 1) d p) :
    d.heartbeat n = ((d.fed n).setPdk p { d.pdk p with
      idle := idleAfter (((d.fired n).alarm n).miss + 1) d p, progSeen := (d.pdk p).prog, aliveSeen := (d.pdk p).alive
      aliveSame := 0 }).hang p := by
  generalize hk : ((d.fired n).alarm n).miss + 1 = k at hidle ⊢
  have hpdk : (d.fed n).pdk p = d.pdk p := fed_part (φ := fun d => d.pdk p) (fun _ _ _ => rfl) (fun _ _ => rfl) d n
  have hbusy : (d.fed n).pdkBusy p = d.pdkBusy p := fed_part (φ := fun d => d.pdkBusy p) (fun _ _ _ => rfl) (fun _ _ => rfl) d n
  have hsec : (d.fed n).pdkSec p = d.pdkSec p := fed_part (φ := fun d => d.pdkSec p) (fun _ _ _ => rfl) (fun _ _ => rfl) d n
  have hhang : (d.fed n).resets.hangMs = d.resets.hangMs :=
    (rfl : _ = (d.fired n).resets.hangMs).trans (congrArg Resets.hangMs (fired_resets d n))
  have hidle' : idleAfter k (d.fed n) p = idleAfter k d p := by rw [idleAfter, hpdk, hbusy, idleAfter]
  have hsame : sameAfter k (d.fed n) p = 0 := by rw [sameAfter, hpdk, if_neg halive]
  have hchecked : checked k (d.fed n) p = (d.fed n).setPdk p { d.pdk p with
      idle := idleAfter k d p, progSeen := (d.pdk p).prog, aliveSeen := (d.pdk p).alive, aliveSame := 0 } := by
    rw [checked, hidle', hsame, hpdk]
  have hfree : (checked k (d.fed n) p).fencedPdk p = false := by
    rw [hchecked, fencedPdk, setPdk_pdk_same, setPdk_pdkSec, hsec]
    exact hfenced
  rw [heartbeat_eq hfires hrun, hk, if_pos ((congrArg Glb.devState (fired_part (φ := Device.glb) (fun _ _ _ => rfl) d n)).trans hdev),
    show (d.fed n).pdksPresent = [p] from (fed_part (φ := pdksPresent) (fun _ _ _ => rfl) (fun _ _ => rfl) d n).trans hpdks,
    List.foldl_cons, List.foldl_nil, checkPdk_eq, if_neg (by simp [hfree]), hsame, if_neg (by decide), hidle', if_pos, hchecked]
  exact ⟨fun h => hms (hhang.symm.trans h), hhang.le.trans hidle⟩

/-! The watchdog. -/

/-- An expiry of the watchdog: the Shepherd core restarts, and its sessions end (R468, R489). -/
def expired (d : Device) (regs : List W32) : Device :=
  { d with
    resets := { d.resets with
      wdArmed := false, wdExp := satNat 8 (d.resets.wdExp + 1), wdRegs := regs, wdLast := some d.now, restarting := true }
    dict := { d.dict with sessions := [], staging := [], spdmStage := 0, chunk := [] }
    flash := { d.flash with stopped := false, line := none, branches := [] } }

/-- The last expiry is at most 1 s old. -/
def expiredOften (d : Device) : Bool := d.resets.wdLast.any fun t => decide (d.now ≤ t + 1000000000)

theorem watchdog_eq {d : Device} {regs : List W32} (harmed : d.resets.wdArmed = true) (hlate : d.resets.wdFeed + 8000000 ≤ d.now) :
    watchdog regs d = if d.expiredOften then (d.expired regs).requestDevReset 0x070E else d.expired regs := by
  have hgoes : ¬ (!d.resets.wdArmed || decide (d.now < d.resets.wdFeed + 8000000)) = true := by simp [harmed, hlate]
  refine (if_neg hgoes).trans ?_
  unfold expiredOften
  cases h : d.resets.wdLast <;> rfl

/-- What the restart of the Shepherd core shows. -/
def restarts (d : Device) : Bool × Bool × List W32 × Option Nat × Nat × Table Sess :=
  (d.resets.restarting, d.resets.wdArmed, d.resets.wdRegs, d.resets.wdLast, d.resets.wdExp, d.dict.sessions)

theorem restarts_requestDevReset (d : Device) (cause : Code) : (d.requestDevReset cause).restarts = d.restarts := by
  unfold requestDevReset
  split
  · rfl
  · exact fenceAll_part (φ := restarts) (fun _ _ _ => rfl) (fun _ _ _ => rfl) (fun _ _ _ => rfl) (fun _ _ _ => rfl)
      (fun _ _ _ => rfl) (fun _ _ _ => rfl) (fun _ _ _ => rfl) d

/-- An expiry restarts the Shepherd core; the second within 1 s asks for a device reset (R468). -/
theorem watchdog_expires {d : Device} {regs : List W32} (harmed : d.resets.wdArmed = true)
    (hlate : d.resets.wdFeed + 8000000 ≤ d.now) :
    (watchdog regs d).restarts = (true, false, regs, some d.now, satNat 8 (d.resets.wdExp + 1), []) ∧
    (∀ t0, d.resets.wdLast = some t0 → d.now ≤ t0 + 1000000000 → d.glb.devState ≠ 0 → d.resets.devAsked = none →
      (watchdog regs d).resets.devAsked = some 0x070E) ∧
    (d.resets.wdLast = none → (watchdog regs d).resets.devAsked = d.resets.devAsked) := by
  rw [watchdog_eq harmed hlate]
  refine ⟨?_, fun t0 hlast hsoon hdev hasked => ?_, fun hlast => ?_⟩
  · split
    · exact restarts_requestDevReset ..
    · rfl
  · rw [if_pos (by simp [expiredOften, hlast, hsoon])]
    exact (requestDevReset_asks (d := d.expired regs) hasked hdev).1
  · rw [if_neg (by simp [expiredOften, hlast])]
    rfl

/-- The Shepherd core runs again, and its record is kept (R43, R468). -/
theorem restartDone_runs {d : Device} (h : d.resets.restarting = true) :
    d.restartDone.resets.restarting = false ∧ d.restartDone.resets.crashSeq = d.nextCrash := by
  have hhost : ∀ (e : Device) n, (e.hostCrash n).resets = e.resets := hostCrash_part (φ := Device.resets) (fun _ _ => rfl) fun _ _ => rfl
  unfold restartDone
  rw [if_neg (by simp [h])]
  extract_lets resets d1 ev d2 c
  have h2 : d2.resets = d1.resets := postDev_resets ..
  obtain ⟨l, hl⟩ := d2.keepCrash_resets c
  rw [hhost, hl, h2]
  refine ⟨rfl, ?_⟩
  exact congrArg (fun r => (r.crashSeq + 1) % 2 ^ 32) h2

/-! ### Alarms that sample counters (R496) -/

theorem fires_firesAt {d : Device} {n kind : Nat} (h : d.fires n kind = true) :
    (d.firesAt (d.alarm n)).isNone = false ∧ (d.alarm n).kind = kind := by
  unfold fires at h
  split at h
  · exact absurd h (by simp)
  · next t ht =>
    rw [Bool.and_eq_true] at h
    exact ⟨by simp [ht], beq_iff_eq.1 h.1⟩

theorem snapshot_samples {d : Device} {n : Nat} (hfires : d.fires n 5 = true) :
    let x := Table.get d.dict.snaps Snap.reset (d.alarm n).target
    Table.get (d.snapshot n).dict.snaps Snap.reset (d.alarm n).target =
      { x with
        lastTally := d.now
        last := ((List.range 12).filter fun c => bit x.cores c).flatMap fun c => d.groupWords x.groups c } ∧
    (d.snapshot n).alarm n = (d.fired n).alarm n := by
  obtain ⟨hat, hkind⟩ := fires_firesAt hfires
  have heq : d.snapshot n = d.snapFired n := if_pos hfires
  rw [heq, snapFired, if_neg (by simp [hat, hkind])]
  exact ⟨Table.get_set_same .., rfl⟩

end Device

/-- Settles O49: the requests by their causes, then each reset from its start to its end, the heartbeat and the watchdog, and the two
kinds of alarm. That nothing happens where nothing is due is log entry 3; the class, the code and byte 20 of a HOST_EVENT record are
the model's, for the spec lets nothing arm that alarm (log entry 27). R479's fourth reset within 600 s, which takes the Paddock out
of service, lies outside the statement: it asks for a shorter history. -/
theorem resetResults : Obligations.ResetResults := by
  unfold Obligations.ResetResults
  refine ⟨fun s p hp z hz hhang => ?request, fun s p hp hjobs => ?unreported, fun s p hp hrst hasked hdev hwaits hhistory => ?paddock,
    fun s p hp hrst hdev hkey hchans => ?ready, fun s cause r hr h5 h9 => ?device, fun s ms hdev hasked htrained => ?deviceReady,
    fun s n hn hfires hrun => ?beat, fun s n p hn hfires hrun hdev hpdks hfenced => ?hang, fun s regs harmed hlate => ?watchdog,
    fun s hrun => ?restart, fun s n hn hfires => ?snapshot, fun s n hn hfires => ?hostEvent⟩
  case request =>
    have heq : exec z.1 s = s.goes (s.dev.requestReset p z.2) := by
      simp only [List.mem_cons, List.not_mem_nil, or_false] at hz
      rcases hz with rfl | rfl | rfl
      · exact onUnit_of_eq hp (if_neg (by simpa using hhang rfl))
      · exact onUnit_of_eq hp rfl
      · exact onUnit_of_eq hp rfl
    exact ⟨fun hpres hrun hphase hdev => ⟨_, heq, Device.requestReset_fences hpres hrun hphase hdev⟩,
      fun h => heq.trans (congrArg s.goes (Device.requestReset_met h))⟩
  case unreported => exact onUnit_of_eq hp (if_pos (by simp [hjobs]))
  case paddock =>
    have heq := onUnit_of_eq (s := s) hp (Device.resetPdk_eq hrst hasked hdev hwaits hhistory)
    exact ⟨_, heq, Device.retrained_retrains s.dev p⟩
  case ready => exact ⟨_, onUnit_next s _ hp, Device.pdkReady_runs hrst hdev hkey hchans⟩
  case device => exact ⟨_, done_next s _, Device.resetDevice_resets hr h5 h9⟩
  case deviceReady =>
    exact ⟨fun ho => done_of_eq (Device.readyAfterReset_stays hdev hasked htrained ho),
      fun ho => ⟨_, done_next s _, Device.readyAfterReset_ready hdev hasked htrained ho⟩⟩
  case beat => exact ⟨_, onUnit_next s _ hn, Device.heartbeat_feeds hfires hrun⟩
  case hang =>
    intro e k idle halive hms hidle f
    exact onUnit_of_eq hn (Device.heartbeat_hangs hfires hrun hdev hpdks hfenced halive hms hidle)
  case watchdog =>
    obtain ⟨hrestarts, hagain, hfirst⟩ := Device.watchdog_expires harmed hlate (regs := regs)
    simp only [Device.restarts, Prod.mk.injEq] at hrestarts
    obtain ⟨hrestarting, harmed', hregs, hlast, hexp, hsessions⟩ := hrestarts
    exact ⟨_, done_next s _, hrestarting, harmed', hregs, hlast, hexp, hsessions, hagain, hfirst⟩
  case restart => exact ⟨_, done_next s _, Device.restartDone_runs hrun⟩
  case snapshot => exact ⟨_, onUnit_next s _ hn, Device.snapshot_samples hfires⟩
  case hostEvent =>
    intro a
    refine onUnit_of_eq hn ((Device.hostEvent_fires hfires).trans ?_)
    rw [Device.pdkEvent, Device.fired_now, Device.pdkEvent]

end Sys2Proof.Machine
end
